-- ==== Sys2Proof/Word.lean ====
section
/-! DEFINITION. The words the spec counts in: 64-bit registers (R5), bytes, 256-byte lines (R208), and the numbers of the module's instances (R15, R67). -/

namespace Sys2Proof

/-- A 64-bit register or general register (R5, R69). -/
abbrev Word := BitVec 64
/-- A byte of memory. -/
abbrev Byte := BitVec 8
/-- A 256-byte cache line, its lowest address in the low bits (R5, R208). -/
abbrev LineData := BitVec 2048
/-- A thread number (R67). -/
abbrev Thr := Fin 128
/-- A physical core (R15). -/
abbrev Pcore := Fin 72
/-- A general register number (R69). -/
abbrev GReg := Fin 32
/-- A floating-point register number (R69). -/
abbrev FReg := Fin 32
/-- A Root link (R15). -/
abbrev Link := Fin 16
/-- A Grove port (R15). -/
abbrev GrovePort := Fin 7
/-- A module of the Grove (R234). -/
abbrev Module := Fin 8
/-- A Glade (R15). -/
abbrev Glade := Fin 4
/-- A Twig engine (R15). -/
abbrev Engine := Fin 8
/-- A slice of a Glade (R291). -/
abbrev SliceId := Fin 256
/-- A Stand (R15). -/
abbrev Stand := Fin 4
/-- A partition (R37). -/
abbrev Part := Fin 16
/-- A port half of a Glade, 2p + h (R517). -/
abbrev PortHalf := Fin 8
/-- A task of a Twig engine (R347). -/
abbrev TaskId := Fin 1024
/-- An address register of a Twig task (R347). -/
abbrev ANum := Fin 4

end Sys2Proof
end

