-- ==== Sys2Proof/Machine/Bits.lean ====
section
/-! DEFINITION. Bit-field, byte-order, sign-extension and CRC helpers. -/

namespace Sys2Proof.Machine

/-- Bits [hi:lo] of a number. -/
def bitsOf (x hi lo : Nat) : Nat := x / 2 ^ lo % 2 ^ (hi + 1 - lo)

/-- Bit `i` of a number. -/
def bitOf (x i : Nat) : Bool := x / 2 ^ i % 2 == 1

/-- 1 or 0. -/
def b2n (b : Bool) : Nat := if b then 1 else 0

/-- The mask of bit `i`. -/
def bitMask (i : Nat) : Nat := 2 ^ i

/-- Set or clear bit `i` of a bit mask. -/
def setBit (m i : Nat) (b : Bool) : Nat :=
  if b then m ||| 2 ^ i else if bitOf m i then m - 2 ^ i else m

/-- The bit numbers set in a mask, below `n`, ascending. -/
def bitList (n m : Nat) : List Nat := (List.range n).filter (bitOf m)

/-- The `n` low bytes of a number, lowest first: little-endian (R5). -/
def leBytes : Nat → Nat → List (BitVec 8)
  | 0, _ => []
  | n + 1, v => BitVec.ofNat 8 v :: leBytes n (v / 256)

/-- The number that little-endian bytes spell (R5). (PRESUMED, notes/assumptions/76.md.) -/
def fromLe : List (BitVec 8) → Nat
  | [] => 0
  | b :: t => b.toNat + 256 * fromLe t

/-- The number that big-endian bytes spell (R31). -/
def fromBe (l : List (BitVec 8)) : Nat := l.foldl (fun a b => a * 256 + b.toNat) 0

/-- The `n` bytes of a number, highest first. -/
def beBytes (n v : Nat) : List (BitVec 8) := (leBytes n v).reverse

/-- Sign-extend the low `n` bits of a number to an integer. -/
def sextNat (n x : Nat) : Int :=
  let y := x % 2 ^ n
  if y < 2 ^ (n - 1) then (y : Int) else (y : Int) - 2 ^ n

/-- Sign-extend the low `n` bits of a number to 64 bits. -/
def sextW (n x : Nat) : BitVec 64 := BitVec.ofInt 64 (sextNat n x)

/-- The bytes `off` to `off + n - 1` of a line (R5). -/
def lineBytes (d : LineData) (off n : Nat) : List (BitVec 8) := leBytes n (d.toNat / 2 ^ (8 * off))

/-- A line whose byte `off` is replaced. -/
def linePutByte (d : LineData) (off : Nat) (b : BitVec 8) : LineData :=
  (d &&& ~~~ (BitVec.ofNat 2048 (255 * 2 ^ (8 * off)))) ||| BitVec.ofNat 2048 (b.toNat * 2 ^ (8 * off))

/-- A line whose bytes from `off` on are replaced. -/
def linePut (d : LineData) (off : Nat) : List (BitVec 8) → LineData
  | [] => d
  | b :: t => linePut (linePutByte d off b) (off + 1) t

/-- The line its 256 bytes spell. -/
def lineOfBytes (l : List (BitVec 8)) : LineData := BitVec.ofNat 2048 (fromLe l)

/-- The 32-bit word a byte list holds at an offset, little-endian; zero beyond its end. -/
def le32At (l : List (BitVec 8)) (off : Nat) : Nat := fromLe ((l.drop off).take 4)

/-- The 64-bit word a byte list holds at an offset, little-endian; zero beyond its end. -/
def le64At (l : List (BitVec 8)) (off : Nat) : Nat := fromLe ((l.drop off).take 8)

/-- The 16-bit word a byte list holds at an offset, little-endian; zero beyond its end. -/
def le16At (l : List (BitVec 8)) (off : Nat) : Nat := fromLe ((l.drop off).take 2)

/-- The byte a byte list holds at an offset; zero beyond its end. -/
def byteAt (l : List (BitVec 8)) (off : Nat) : Nat := ((l.drop off).headD 0).toNat

/-- One bit step of the reflected CRC-32C, polynomial 0x82F6_3B78 (R76). -/
def crcBit (c : BitVec 32) : BitVec 32 :=
  if c.getLsbD 0 then (c >>> 1) ^^^ 0x82F63B78#32 else c >>> 1

/-- The CRC-32C update by one byte, without inversion (R76). -/
def crcByte (c : BitVec 32) (b : BitVec 8) : BitVec 32 :=
  let x := c ^^^ b.setWidth 32
  crcBit (crcBit (crcBit (crcBit (crcBit (crcBit (crcBit (crcBit x)))))))

/-- The CRC-32C update by bytes, first byte first. -/
def crcBytes (c : BitVec 32) (l : List (BitVec 8)) : BitVec 32 := l.foldl crcByte c

/-- The standard CRC-32C of a byte string: all ones at the start, a final inversion (R76). -/
def crc32c (l : List (BitVec 8)) : BitVec 32 := ~~~ crcBytes 0xFFFFFFFF#32 l

/-- The list without its `i`-th element. -/
def dropIdx {α : Type} (l : List α) (i : Nat) : List α := l.take i ++ l.drop (i + 1)

/-- The list with its `i`-th element replaced. -/
def setIdx {α : Type} (l : List α) (i : Nat) (v : α) : List α := l.set i v

end Sys2Proof.Machine
end

