-- ==== Sys2Proof/Machine/Encode.lean ====
section
/-! DEFINITION. The instruction words of AIS by format, and which words are legal (R70 to R75, R78, R81, R85, R87, R89, R90, R93, R94, R96 to R99). A trap that carries the instruction word takes it from here. -/

namespace Sys2Proof.Machine

/-! Formats (R71). -/

/-- Format R. -/
def encR (op rd ra rb fn : Nat) : Nat := op * 2 ^ 26 + rd * 2 ^ 21 + ra * 2 ^ 16 + rb * 2 ^ 11 + fn

/-- Format I, and M with its signed displacement. -/
def encI (op rd ra imm : Nat) : Nat := op * 2 ^ 26 + rd * 2 ^ 21 + ra * 2 ^ 16 + imm

/-- Format J. -/
def encJ (op disp : Nat) : Nat := op * 2 ^ 26 + disp

/-- Format F. -/
def encF (fd fa fb fmt rm fn : Nat) : Nat :=
  0x30 * 2 ^ 26 + fd * 2 ^ 21 + fa * 2 ^ 16 + fb * 2 ^ 11 + fmt * 2 ^ 9 + rm * 2 ^ 6 + fn

/-- Format F4. -/
def encF4 (op fd fa fb fc fmt rm : Nat) : Nat :=
  op * 2 ^ 26 + fd * 2 ^ 21 + fa * 2 ^ 16 + fb * 2 ^ 11 + fc * 2 ^ 6 + fmt * 2 ^ 4 + rm * 2

/-- Format D. -/
def encD (ra rb rd l1 l2 fn : Nat) : Nat :=
  0x36 * 2 ^ 26 + ra * 2 ^ 21 + rb * 2 ^ 16 + rd * 2 ^ 11 + l1 * 2 ^ 7 + l2 * 2 ^ 3 + fn

/-- An OPR instruction (R75): W is bit 10 of fn. -/
def encOpr (w : Bool) (rd ra rb fn : Nat) : Nat := encR 0x01 rd ra rb (b2n w * 1024 + fn)

/-- A SHI instruction (R78). -/
def encShi (kind rd ra sh : Nat) : Nat := encI 0x0B rd ra (kind * 256 + sh)

/-! Legal words (R72). -/

/-- OPR rows that take W (R75). -/
def oprW : List Nat := [0x000, 0x001, 0x008, 0x009, 0x00A, 0x00B, 0x020, 0x028, 0x029, 0x02A, 0x02B, 0x030, 0x031, 0x032]

/-- OPR rows without W (R75). -/
def oprNoW : List Nat :=
  [0x002, 0x003, 0x004, 0x005, 0x006, 0x007, 0x00C, 0x00D, 0x00E, 0x00F, 0x010, 0x011, 0x012, 0x013]
    ++ [0x021, 0x022, 0x023, 0x033, 0x034, 0x035, 0x036, 0x038, 0x040, 0x041]

/-- Unary OPR rows (R75). -/
def oprUnary : List Nat := [0x030, 0x031, 0x032, 0x033, 0x034, 0x035, 0x036, 0x038]

/-- An OPR word is legal. -/
def legalOpr (rb fn : Nat) : Bool :=
  let f := fn % 1024
  (oprW.contains f || (oprNoW.contains f && fn < 1024)) && (!oprUnary.contains f || rb == 0)

/-- A SHI word is legal (R78). -/
def legalShi (imm : Nat) : Bool :=
  let kind := bitsOf imm 10 8
  bitsOf imm 15 11 == 0 && bitsOf imm 7 6 == 0 && kind != 7 && (decide (kind < 4) || !bitOf imm 5)

/-- The state registers of R99 with their write entry: number, read level, write level (none: ro). -/
def srTable : List (Nat × Nat × Option Nat) := [
  (0x000, 1, some 1), (0x001, 1, some 1), (0x002, 1, some 1), (0x003, 1, some 1), (0x004, 1, some 1), (0x005, 1, some 1),
  (0x006, 1, some 1), (0x008, 1, some 1), (0x009, 1, none), (0x00A, 1, some 1), (0x010, 0, some 0), (0x011, 0, some 1),
  (0x012, 0, some 1), (0x020, 1, some 1), (0x030, 0, some 3), (0x031, 0, none), (0x032, 0, none), (0x033, 0, none),
  (0x034, 1, some 1)] ++ [
  (0x100, 3, some 3), (0x101, 3, some 3), (0x102, 3, some 3), (0x103, 3, some 3), (0x104, 3, some 3), (0x105, 3, some 3),
  (0x106, 3, none), (0x107, 3, none), (0x108, 3, none), (0x10A, 3, some 3), (0x10B, 3, none), (0x10C, 3, none)]
  ++ (List.range 8).map (fun i => (0x200 + i, 0, some 1)) ++ (List.range 8).map fun i => (0x208 + i, 1, some 1)

/-- The row of a state register. -/
def srRow (n : Nat) : Option (Nat × Nat × Option Nat) := srTable.find? fun r => r.1 == n

/-- A floating-point register operand in a format: even for binary128 (R70). -/
def fregOk (fmt r : Nat) : Bool := fmt != 2 || r % 2 == 0

/-- An FPR word is legal (R90). -/
def legalFpr (fd fa fb fmt rm fn : Nat) : Bool :=
  let d := fregOk fmt fd
  let a := fregOk fmt fa
  let b := fregOk fmt fb
  let rnd := decide (rm ≤ 5)
  let no := rm == 0
  fmt != 3 &&
    (if fn ≤ 0x03 then d && a && b && rnd
     else if fn = 0x04 then d && a && fb == 0 && rnd
     else if fn ≤ 0x08 then d && a && b && no
     else if fn ≤ 0x0A then d && a && fb == 0 && no
     else if fn = 0x0B then d && a && b && no
     else if fn ≤ 0x0F then a && b && no
     else if fn = 0x10 then a && fb == 0 && no
     else if fn = 0x11 then d && a && fb == 0 && rnd
     else if fn = 0x12 then d && fregOk fb fa && decide (fb < 3) && fb != fmt && rnd
     else if fn ≤ 0x14 then a && fb == 0 && rnd
     else if fn ≤ 0x16 then d && fb == 0 && rnd
     else if fn ≤ 0x18 then fmt != 2 && fb == 0 && no
     else false)

/-- A fused word is legal (R70, R72, R92). -/
def legalFused (fd fa fb fc fmt rm b0 : Nat) : Bool :=
  b0 == 0 && fmt != 3 && decide (rm ≤ 5) && fregOk fmt fd && fregOk fmt fa && fregOk fmt fb && fregOk fmt fc

/-- A LONG word is legal (R85, R87). -/
def legalLong (rd ra rb fn : Nat) : Bool :=
  rd % 2 == 0 && rd != 0 && ra != rd && ra != rd + 1 &&
    (if fn = 0 ∨ fn = 2 then rb == 0
     else if fn = 1 then rb != rd && rb != rd + 1 && rb != ra
     else false)

/-- An MMU word is legal (R96). -/
def legalMmu (rd ra rb fn : Nat) : Bool :=
  if fn = 0x000 then rd == 0
  else if fn = 0x002 then true
  else if fn = 0x010 ∨ fn = 0x011 ∨ fn = 0x018 ∨ fn = 0x019 then rd == 0
  else if fn = 0x012 ∨ fn = 0x013 ∨ fn = 0x01A ∨ fn = 0x01B then rd == 0 && ra == 0
  else if fn = 0x014 ∨ fn = 0x015 ∨ fn = 0x01C ∨ fn = 0x01D then rd == 0 && ra == 0 && rb == 0
  else false

/-- The function codes of SYS (R93). -/
def sysFns : List Nat := [0x000, 0x001, 0x002, 0x003, 0x010, 0x011, 0x012, 0x014]

/-- An instruction word is legal: no reserved opcode, function code, fmt or rm, no field in use that must be zero, no odd half of a pair, no state register R98 refuses (R70, R72, R74, R98). (DEDUCED, notes/assumptions/71.md.) -/
def legalWord (w : Nat) : Bool :=
  let op := bitsOf w 31 26
  let x := bitsOf w 25 21
  let y := bitsOf w 20 16
  let z := bitsOf w 15 11
  let fn := bitsOf w 10 0
  match op with
  | 0x01 => legalOpr z fn
  | 0x02 | 0x03 | 0x04 | 0x05 | 0x06 | 0x07 | 0x09 | 0x0C => true
  | 0x08 | 0x0A => y == 0
  | 0x0B => legalShi (bitsOf w 15 0)
  | 0x10 | 0x11 | 0x12 | 0x13 | 0x14 | 0x15 | 0x16 | 0x18 | 0x19 | 0x1A | 0x1B | 0x1D | 0x1E | 0x20 | 0x21 => true
  | 0x17 | 0x1C | 0x1F | 0x22 => x % 2 == 0
  | 0x23 => if fn = 0 then z == 0 else if fn = 3 then x % 2 == 0 && z % 2 == 0 else decide (fn ≤ 7)
  | 0x24 => decide (fn ≤ 6) && x == 0 && z == 0
  | 0x28 | 0x29 | 0x2A | 0x2B | 0x2C | 0x2D | 0x2E | 0x2F => true
  | 0x30 => legalFpr x y z (bitsOf w 10 9) (bitsOf w 8 6) (bitsOf w 5 0)
  | 0x31 | 0x32 | 0x33 | 0x34 => legalFused x y z (bitsOf w 10 6) (bitsOf w 5 4) (bitsOf w 3 1) (bitsOf w 0 0)
  | 0x35 => legalLong x y z fn
  | 0x36 =>
    let f := bitsOf w 2 0
    decide (f < 4) && (f != 3 || (y == 0 && bitsOf w 6 3 == 0))
  | 0x37 => x == 0 && y == 0
  | 0x38 => x == 0 && y == 0 && z == 0 && sysFns.contains fn
  | 0x39 => y == 0 && bitsOf w 15 12 == 0 && (srRow (bitsOf w 11 0)).isSome
  | 0x3A => x == 0 && bitsOf w 15 12 == 0 &&
      (match srRow (bitsOf w 11 0) with | some r => r.2.2.isSome | none => false)
  | 0x3B => legalMmu x y z fn
  | _ => false

end Sys2Proof.Machine
end

