-- ==== Sys2Proof/Syntax.lean ====
section
/-! DEFINITION. The commands of the block: the ONE inductive `Instr`, one constructor per row of spec/opcode_table.json, and the operand types its rows carry. The module is one block; hosts, peers, endpoints, expanders, sensors and clocks stand outside, and what they send or measure comes as operands. -/

namespace Sys2Proof

/-- By which route of R18 a register access reaches its block. -/
inductive Origin where
  /-- A thread's device access, checked by Firebreak, at the thread's level (R109, R283). -/
  | core (t : Thr)
  /-- The configuration bus: the Forester or the loader (R17). -/
  | config
  /-- The host: BAR0 for SVP_ registers, REG_READ and REG_WRITE elsewhere (R18, R58). -/
  | host
  /-- A Glade's firmware through XADDR and XDATA, or a TWG_ register of its own engine (R346, R376). -/
  | twig (e : Engine) (task : TaskId)
  /-- A thread of another module, by MRD or MWR with the message's module and PART (R241, R283). -/
  | peer (m : Module) (part : Part)
  deriving DecidableEq, Repr

/-- What the fuses hold (R53). -/
structure Fuses where
  ident : Word
  rootHash : BitVec 384
  deriving DecidableEq, Repr

/-- Where an invalidation broadcast comes from (R177, R241). -/
inductive InvSrc where
  /-- A thread of this module that waits on its own broadcast. -/
  | thread (t : Thr)
  /-- Another module's TLBB that this module is serving, by its transaction identifier. -/
  | peer (m : Module) (tid : BitVec 12)
  deriving DecidableEq, Repr

/-- The caches whose ways are disabled (R219). -/
inductive CacheKind where
  | l1i | l1d | l2 | l3
  deriving DecidableEq, Repr

/-- The link-layer and header fields a Grove message carries (R234, R252): the port it arrives on, its flit's LSEQ and LACK, and the header. -/
structure Hdr where
  port : GrovePort
  lseq : BitVec 12
  lack : BitVec 12
  src : Module
  rqm : Module
  tid : BitVec 12
  rtid : BitVec 12
  st : BitVec 3
  psn : Bool
  rly : Bool
  part : Part
  la : BitVec 43
  deriving DecidableEq, Repr

/-- A flit of FTYPE 2 (R251, R252): its link fields, ENDS, pair sequence and acknowledgement, and the message header it holds with its opcode and payload, which only its final receiver interprets. -/
structure Relayed where
  lseq : BitVec 12
  lack : BitVec 12
  first : Module
  final : Module
  pseq : BitVec 12
  pack : BitVec 12
  opc : BitVec 6
  h : Hdr
  aux : BitVec 37
  data : LineData
  deriving DecidableEq, Repr

/-- What a peer reports at step 4 of training (R254, R255): its GID, module, port and MEMB, and the module its own port names. -/
structure PortIdent where
  gid : BitVec 16
  modn : Module
  port : GrovePort
  memb : BitVec 8
  peer : Module
  deriving DecidableEq, Repr

/-- A reported event for the record collector (R459, R461). -/
structure Report where
  block : BitVec 8
  inst : BitVec 8
  cls : BitVec 8
  typ : BitVec 8
  addr : Option (BitVec 52)
  part : Option Part
  thread : Option Thr
  detail : List Byte
  deriving DecidableEq, Repr

/-- A work item of the Forester (R476): what it is about and a value. -/
structure Work where
  kind : BitVec 8
  val : Word
  deriving DecidableEq, Repr

/-- The source of a Twig ALU instruction (R350, R352). -/
inductive AluSrc where
  | imm (v : Byte)
  | acc (m : Bool)
  deriving DecidableEq, Repr

/-- The operands of a Twig compare and branch by form (R353). -/
inductive CmpOpd where
  | form0 (x y : Bool)
  | form1 (x : Bool) (v : Byte)
  | form2 (x y : ANum)
  deriving DecidableEq, Repr

/-- Who executes a Twig instruction (R384): a task of a Glade engine, or a bank of the active Forester. -/
inductive TwigProc where
  | engine (e : Engine) (task : TaskId)
  | forester (bank : Fin 8)
  deriving DecidableEq, Repr

/-- What one pass of the Twig scrub finds (R382). -/
inductive TwigScrub where
  | clean
  | micro (store : Bool) (idx : BitVec 13) (ue : Bool)
  | localRam (addr : BitVec 16) (ue : Bool)
  | spill (task : TaskId) (ue : Bool)
  deriving DecidableEq, Repr

/-- A fault a lane of the column engine or of Bark meets on its own (R398, R409, R429, R434): an uncorrectable error of its own, two failed
checks of one unit, or a failed check whose second computation agrees. A unit is a block of a compress job, an entry of a directory, or a
unit of R429; the tag of a Bark job stands after its last unit. -/
inductive LaneFault where
  | none
  | engine (unit : BitVec 32)
  | check (unit : BitVec 32)
  | recovered
  deriving DecidableEq, Repr

/-- An error found in an array, by scrub or by an access (R182, R218, R248, R439, R468). -/
inductive ScrubHit where
  | heartwood (t : Thr) (ue : Bool)
  | storeBuf (t : Thr) (idx : Fin 48) (ue : Bool)
  | cache (k : CacheKind) (inst : Pcore) (line : BitVec 43) (way : Fin 16) (ue : Bool)
  | canopy (set : BitVec 18) (way : Fin 16) (ue : Bool)
  | active (blk inst off : Nat) (ue : Bool)
  | keystore (slot : Fin 4096) (ue : Bool)
  /-- A correctable error in the TLB entry an address and tag match (R182). -/
  | tlb (inst : Pcore) (va : Word) (tag : BitVec 16) (way : Fin 8)
  /-- A correctable error in the walk-cache entry a TWALK of this tag, level, EA and address hits (R182). -/
  | walk (inst : Pcore) (tag : BitVec 16) (lvl : Fin 5) (ea va : Word) (way : Fin 8)
  deriving DecidableEq, Repr

/-- The output stages of R471. -/
inductive Stage where
  | svp | cpcApp | power | commit
  deriving DecidableEq, Repr

/-- A command at an output stage (R471). -/
inductive StageCmd where
  /-- The end of the service command in progress. -/
  | respond (code : BitVec 8) (data : BitVec 32)
  /-- A write of CPC_APP (R448). -/
  | cpcApp (val : Word)
  /-- A write of a register of the clock, reset and power controller. -/
  | power (off : BitVec 12) (val : Word)
  /-- COMMIT of the group in its clearing (R41). -/
  | commit
  deriving DecidableEq, Repr

/-- An access of the Forester memory port (R484). -/
structure PortAccess where
  wr : Bool
  mfw : Bool
  addr : BitVec 52
  size : Nat
  data : List Byte
  deriving DecidableEq, Repr

/-- What the controller measures in 100 µs (R508). -/
structure Telemetry where
  pkgW : BitVec 16
  temps : List (BitVec 8)
  seconds : BitVec 32
  tjAvg : BitVec 16
  deriving DecidableEq, Repr

/-- A regulator's answer to a PMBus poll (R497): volts in mV, amperes in units of 0.1 A, STATUS_WORD. -/
inductive RailAnswer where
  | silent
  | reading (mv : BitVec 16) (dA : BitVec 16) (status : BitVec 16)
  deriving DecidableEq, Repr

/-- The commands, one constructor per row of the table. -/
inductive Instr where
  /-- REGISTER_WRITE (R8): A write to a register that has no row of its own, acting by access code, including the handling of sizes and alignments that are not allowed. -/
  | registerWrite (org : Origin) (blk : Nat) (inst : Nat) (off : Nat) (size : Nat) (val : Word)
  /-- RC_FIELD_READ (R6): A read that returns every bit of an rc field returns its value and then clears it. -/
  | rcFieldRead (org : Origin) (blk : Nat) (inst : Nat) (off : Nat) (size : Nat)
  /-- UNCLOCKED_ACCESS_COMPLETE (R25): A register access to a domain that has no clock or is in reset completes within 4 µs, with all ones or a discarded write and a Mycel record. -/
  | unclockedAccessComplete (org : Origin) (blk : Nat) (inst : Nat) (off : Nat) (wr : Bool)
  /-- TLT_CMD_LOAD (R52): A TLT_CMD write with OP 1 starts the load of the staged image, or is refused with 0x0F while a load is running. -/
  | tltCmdLoad (org : Origin)
  /-- TLT_CMD_CLEAR (R46): A TLT_CMD write with OP 2 starts a clearing of one block instance, or is discarded if it names no instance that holds rw-s fields. -/
  | tltCmdClear (org : Origin) (blk : BitVec 8) (inst : BitVec 8)
  /-- TLT_CMD_IGNORED_OP (R46): A TLT_CMD write with OP 0 or 3 to 15 is ignored and logged under block 0x14. -/
  | tltCmdIgnoredOp (org : Origin) (op : BitVec 4)
  /-- IMAGE_VERIFY_DONE (R52): Verification of an image ends, either rejecting it with the first failing code or passing it on to the shadow writes of its groups. -/
  | imageVerifyDone
  /-- READY (R41): A member reports READY, and once every member has done so the loader issues COMMIT. -/
  | ready (blk : Nat) (inst : Nat)
  /-- COMMITTED (R41): The members report COMMITTED, RELEASE is broadcast, and the next group starts or TLT_SERIAL is set after the last group. -/
  | committed
  /-- CLEARING_TIMEOUT (R42): A member's READY bound expires and the loader broadcasts ABORT, reporting code 0x10. -/
  | clearingTimeout
  /-- PWROK_ASSERT (R63): PWROK rises with the rails in regulation, which starts the power-up sequence and samples MODID. -/
  | pwrokAssert (strap : Module)
  /-- ROM_SELF_TEST_DONE (R65): The fuse read and the Forester ROM self-test end, giving STEP 1 or STEP 15 with a FAIL code. -/
  | romSelfTestDone (aOk : Bool) (bOk : Bool) (fuseOk : Bool) (pllOk : Bool) (fuses : Fuses)
  /-- SVC_LINK_TRAINED (R63): The service-port PCIe link trains. -/
  | svcLinkTrained
  /-- SVC_LINK_RESET (R57): A reset or loss of the service-port link resets only the service-port domain, and any command in progress completes. -/
  | svcLinkReset
  /-- BAR2_WRITE (R55): A host write to BAR2 is stored in the staging area, or is discarded and counted in LOCKDROP when it falls in the retained area or arrives while BUSY. -/
  | bar2Write (off : Nat) (bytes : List Byte)
  /-- SVP_CMD_SET_LEN (R56): A 4-byte write to SVP_CMD bits [31:0] only sets LEN for the next command. -/
  | svpCmdSetLen (len : BitVec 32)
  /-- LOAD_FOR_FW (R58): Loads the Forester firmware into both units at STEP 1, or performs a live reload by handover at STEP 2 or above. -/
  | loadForFw (target : BitVec 8) (len : BitVec 32)
  /-- LOAD_TILET (R58): Checks FLAGS.PARTIAL against STEP and starts the Tilet loader on the staged image. -/
  | loadTilet (target : BitVec 8) (len : BitVec 32)
  /-- LOAD_UCODE (R381): Verifies a Twig microcode container and writes it to store 0 or to the inactive store. -/
  | loadUcode (target : BitVec 8) (len : BitVec 32)
  /-- LOAD_GLADE_FW (R58): Loads Glade firmware into both engines of a Glade, which then leaves reset and restores its slices. -/
  | loadGladeFw (target : BitVec 8) (len : BitVec 32) (started : Bool)
  /-- LOAD_KEYS (R422): Verifies a wrapped key container, derives the KEK, unwraps the entries, commits the keystore and erases the secrets. -/
  | loadKeys (target : BitVec 8) (len : BitVec 32)
  /-- LOAD_MFW (R58): Copies machine firmware to LOADPA inside the partition's seed carve-out through the Forester memory port. -/
  | loadMfw (target : BitVec 8) (len : BitVec 32)
  /-- RELEASE (R63): The active cores of a partition leave reset, pass self-test and fetch at M-base + 0x000. -/
  | release (target : BitVec 8) (len : BitVec 32) (bad : List Pcore)
  /-- REG_READ (R58): Reads the register named in SVP_RADDR into SVP_RDATA. -/
  | regRead (target : BitVec 8) (len : BitVec 32)
  /-- REG_WRITE (R58): Writes SVP_RDATA to the register named in SVP_RADDR. -/
  | regWrite (target : BitVec 8) (len : BitVec 32)
  /-- RESET_DOMAIN (R66): A warm reset of a Stand, Root link, Grove port or Glade. -/
  | resetDomain (target : BitVec 8) (len : BitVec 32)
  /-- SVP_CMD_UNKNOWN_OP (R58): An unlisted OP ends with CODE 0x0D and does nothing. -/
  | svpCmdUnknownOp (op : BitVec 8) (target : BitVec 8) (len : BitVec 32)
  /-- SVP_COMMAND_DONE (R57): A service command ends, writing SVP_RESP and setting DONE. -/
  | svpCommandDone
  /-- MSIX_COALESCE_TIMER (R57): At the end of a 10 µs interval, one MSI-X message is sent for the DONE transitions of that interval. -/
  | msixCoalesceTimer
  /-- CLOCKS_SEED_READY (R63): The PLLs lock at the committed rates and the seed carve-outs are zeroed, giving STEP 4 or FAIL 0x04. -/
  | clocksSeedReady (ok : Bool)
  /-- TRAINING_ENDED (R63): Every Root link is trained or failed and every Grove port is trained or down, giving STEP 5. -/
  | trainingEnded
  /-- GROVE_TRAIN_TIMEOUT (R64): A Grove port whose peer has not trained within 2 s of step 6 is marked down. -/
  | groveTrainTimeout (p : GrovePort)
  /-- STAND_RESET_EXIT (R66): A Stand leaves warm reset; its active cores pass self-test and both threads fetch at M-base. -/
  | standResetExit (st : Stand) (bad : List Pcore)
  /-- ILLEGAL_INSTRUCTION (R72): A reserved encoding or a non-zero unused field raises the illegal-instruction trap. -/
  | illegalInstruction (t : Thr) (w32 : BitVec 32)
  /-- ADD (R75): Integer add, modulo 2^64, or 2^32 with W. -/
  | add (t : Thr) (w : Bool) (rd : GReg) (ra : GReg) (rb : GReg)
  /-- SUB (R75): Integer subtract, modulo 2^64, or 2^32 with W. -/
  | sub (t : Thr) (w : Bool) (rd : GReg) (ra : GReg) (rb : GReg)
  /-- AND (R75): Bitwise AND. -/
  | and (t : Thr) (rd : GReg) (ra : GReg) (rb : GReg)
  /-- OR (R75): Bitwise OR. -/
  | or (t : Thr) (rd : GReg) (ra : GReg) (rb : GReg)
  /-- XOR (R75): Bitwise XOR. -/
  | xor (t : Thr) (rd : GReg) (ra : GReg) (rb : GReg)
  /-- ANDN (R75): ra AND NOT rb. -/
  | andn (t : Thr) (rd : GReg) (ra : GReg) (rb : GReg)
  /-- ORN (R75): ra OR NOT rb. -/
  | orn (t : Thr) (rd : GReg) (ra : GReg) (rb : GReg)
  /-- XNOR (R75): NOT (ra XOR rb). -/
  | xnor (t : Thr) (rd : GReg) (ra : GReg) (rb : GReg)
  /-- SLL (R75): Logical left shift by register. -/
  | sll (t : Thr) (w : Bool) (rd : GReg) (ra : GReg) (rb : GReg)
  /-- SRL (R75): Logical right shift by register. -/
  | srl (t : Thr) (w : Bool) (rd : GReg) (ra : GReg) (rb : GReg)
  /-- SRA (R75): Arithmetic right shift by register. -/
  | sra (t : Thr) (w : Bool) (rd : GReg) (ra : GReg) (rb : GReg)
  /-- ROR (R75): Rotate right by register. -/
  | ror (t : Thr) (w : Bool) (rd : GReg) (ra : GReg) (rb : GReg)
  /-- SLT (R75): Signed set-less-than. -/
  | slt (t : Thr) (rd : GReg) (ra : GReg) (rb : GReg)
  /-- SLTU (R75): Unsigned set-less-than. -/
  | sltu (t : Thr) (rd : GReg) (ra : GReg) (rb : GReg)
  /-- MIN (R75): Signed minimum. -/
  | min (t : Thr) (rd : GReg) (ra : GReg) (rb : GReg)
  /-- MAX (R75): Signed maximum. -/
  | max (t : Thr) (rd : GReg) (ra : GReg) (rb : GReg)
  /-- MINU (R75): Unsigned minimum. -/
  | minu (t : Thr) (rd : GReg) (ra : GReg) (rb : GReg)
  /-- MAXU (R75): Unsigned maximum. -/
  | maxu (t : Thr) (rd : GReg) (ra : GReg) (rb : GReg)
  /-- CMOVZ (R75): rd := ra when rb is zero. -/
  | cmovz (t : Thr) (rd : GReg) (ra : GReg) (rb : GReg)
  /-- CMOVNZ (R75): rd := ra when rb is non-zero. -/
  | cmovnz (t : Thr) (rd : GReg) (ra : GReg) (rb : GReg)
  /-- MUL (R75): Low half of the product. -/
  | mul (t : Thr) (w : Bool) (rd : GReg) (ra : GReg) (rb : GReg)
  /-- MULH (R75): High 64 bits of the signed product. -/
  | mulh (t : Thr) (rd : GReg) (ra : GReg) (rb : GReg)
  /-- MULHU (R75): High 64 bits of the unsigned product. -/
  | mulhu (t : Thr) (rd : GReg) (ra : GReg) (rb : GReg)
  /-- MULHSU (R75): High 64 bits of the signed-by-unsigned product. -/
  | mulhsu (t : Thr) (rd : GReg) (ra : GReg) (rb : GReg)
  /-- DIV (R134): Signed quotient, saturating and never trapping. -/
  | div (t : Thr) (w : Bool) (rd : GReg) (ra : GReg) (rb : GReg)
  /-- DIVU (R134): Unsigned quotient, all ones for a zero divisor. -/
  | divu (t : Thr) (w : Bool) (rd : GReg) (ra : GReg) (rb : GReg)
  /-- REM (R134): Signed remainder. -/
  | rem (t : Thr) (w : Bool) (rd : GReg) (ra : GReg) (rb : GReg)
  /-- REMU (R134): Unsigned remainder. -/
  | remu (t : Thr) (w : Bool) (rd : GReg) (ra : GReg) (rb : GReg)
  /-- CLZ (R75): Leading zero count. -/
  | clz (t : Thr) (w : Bool) (rd : GReg) (ra : GReg)
  /-- CTZ (R75): Trailing zero count. -/
  | ctz (t : Thr) (w : Bool) (rd : GReg) (ra : GReg)
  /-- POPC (R75): Count of one bits. -/
  | popc (t : Thr) (w : Bool) (rd : GReg) (ra : GReg)
  /-- BSWAP (R75): Byte order reversed. -/
  | bswap (t : Thr) (rd : GReg) (ra : GReg)
  /-- SEXTB (R75): Sign-extends ra[7:0]. -/
  | sextb (t : Thr) (rd : GReg) (ra : GReg)
  /-- SEXTH (R75): Sign-extends ra[15:0]. -/
  | sexth (t : Thr) (rd : GReg) (ra : GReg)
  /-- ZEXTW (R75): Zero-extends ra[31:0]. -/
  | zextw (t : Thr) (rd : GReg) (ra : GReg)
  /-- JALR (R84): Jumps to ra and links pc + 4 into rd, trapping on a misaligned target. -/
  | jalr (t : Thr) (rd : GReg) (ra : GReg)
  /-- CRC32CB (R76): Reflected CRC-32C update by one byte. -/
  | crc32cb (t : Thr) (rd : GReg) (ra : GReg) (rb : GReg)
  /-- CRC32CD (R76): Reflected CRC-32C update by eight bytes. -/
  | crc32cd (t : Thr) (rd : GReg) (ra : GReg) (rb : GReg)
  /-- ADDI (R77): ra + sext(imm16). -/
  | addi (t : Thr) (rd : GReg) (ra : GReg) (imm : BitVec 16)
  /-- ADDIW (R77): 32-bit add of an immediate, sign-extended. -/
  | addiw (t : Thr) (rd : GReg) (ra : GReg) (imm : BitVec 16)
  /-- ANDI (R77): AND with the zero-extended immediate. -/
  | andi (t : Thr) (rd : GReg) (ra : GReg) (imm : BitVec 16)
  /-- ORI (R77): OR with the zero-extended immediate. -/
  | ori (t : Thr) (rd : GReg) (ra : GReg) (imm : BitVec 16)
  /-- XORI (R77): XOR with the zero-extended immediate. -/
  | xori (t : Thr) (rd : GReg) (ra : GReg) (imm : BitVec 16)
  /-- SLTI (R77): Signed compare with the immediate. -/
  | slti (t : Thr) (rd : GReg) (ra : GReg) (imm : BitVec 16)
  /-- SLTIU (R77): Unsigned compare with the sign-extended immediate. -/
  | sltiu (t : Thr) (rd : GReg) (ra : GReg) (imm : BitVec 16)
  /-- LUI (R77): sext(imm16) × 2^16. -/
  | lui (t : Thr) (rd : GReg) (imm : BitVec 16)
  /-- ORIS (R77): ra OR (imm16 × 2^16). -/
  | oris (t : Thr) (rd : GReg) (ra : GReg) (imm : BitVec 16)
  /-- ADDPC (R77): pc + sext(imm16) × 2^16. -/
  | addpc (t : Thr) (rd : GReg) (imm : BitVec 16)
  /-- SLLI (R78): Shift left by an immediate. -/
  | slli (t : Thr) (rd : GReg) (ra : GReg) (sh : BitVec 6)
  /-- SRLI (R78): Logical shift right by an immediate. -/
  | srli (t : Thr) (rd : GReg) (ra : GReg) (sh : BitVec 6)
  /-- SRAI (R78): Arithmetic shift right by an immediate. -/
  | srai (t : Thr) (rd : GReg) (ra : GReg) (sh : BitVec 6)
  /-- RORI (R78): Rotate right by an immediate. -/
  | rori (t : Thr) (rd : GReg) (ra : GReg) (sh : BitVec 6)
  /-- SLLIW (R78): 32-bit shift left by an immediate. -/
  | slliw (t : Thr) (rd : GReg) (ra : GReg) (sh : BitVec 6)
  /-- SRLIW (R78): 32-bit logical shift right by an immediate. -/
  | srliw (t : Thr) (rd : GReg) (ra : GReg) (sh : BitVec 6)
  /-- SRAIW (R78): 32-bit arithmetic shift right by an immediate. -/
  | sraiw (t : Thr) (rd : GReg) (ra : GReg) (sh : BitVec 6)
  /-- LB (R79): Loads a byte, sign-extended. -/
  | lb (t : Thr) (rd : GReg) (ra : GReg) (disp : BitVec 16)
  /-- LBU (R79): Loads a byte, zero-extended. -/
  | lbu (t : Thr) (rd : GReg) (ra : GReg) (disp : BitVec 16)
  /-- LH (R79): Loads 2 bytes, sign-extended. -/
  | lh (t : Thr) (rd : GReg) (ra : GReg) (disp : BitVec 16)
  /-- LHU (R79): Loads 2 bytes, zero-extended. -/
  | lhu (t : Thr) (rd : GReg) (ra : GReg) (disp : BitVec 16)
  /-- LW (R79): Loads 4 bytes, sign-extended. -/
  | lw (t : Thr) (rd : GReg) (ra : GReg) (disp : BitVec 16)
  /-- LWU (R79): Loads 4 bytes, zero-extended. -/
  | lwu (t : Thr) (rd : GReg) (ra : GReg) (disp : BitVec 16)
  /-- LD (R79): Loads 8 bytes. -/
  | ld (t : Thr) (rd : GReg) (ra : GReg) (disp : BitVec 16)
  /-- LDQ (R79): Loads 16 bytes into an even register pair. -/
  | ldq (t : Thr) (rd : GReg) (ra : GReg) (disp : BitVec 16)
  /-- SB (R79): Stores a byte. -/
  | sb (t : Thr) (rs : GReg) (ra : GReg) (disp : BitVec 16)
  /-- SH (R79): Stores 2 bytes. -/
  | sh (t : Thr) (rs : GReg) (ra : GReg) (disp : BitVec 16)
  /-- SW (R79): Stores 4 bytes. -/
  | sw (t : Thr) (rs : GReg) (ra : GReg) (disp : BitVec 16)
  /-- SD (R79): Stores 8 bytes. -/
  | sd (t : Thr) (rs : GReg) (ra : GReg) (disp : BitVec 16)
  /-- STQ (R79): Stores 16 bytes from a register pair. -/
  | stq (t : Thr) (rs : GReg) (ra : GReg) (disp : BitVec 16)
  /-- FLW (R79): Loads a binary32 value into an f register. -/
  | flw (t : Thr) (fd : FReg) (ra : GReg) (disp : BitVec 16)
  /-- FLD (R79): Loads a binary64 value. -/
  | fld (t : Thr) (fd : FReg) (ra : GReg) (disp : BitVec 16)
  /-- FLQ (R79): Loads a binary128 value into an f pair. -/
  | flq (t : Thr) (fd : FReg) (ra : GReg) (disp : BitVec 16)
  /-- FSW (R79): Stores a binary32 value. -/
  | fsw (t : Thr) (fs : FReg) (ra : GReg) (disp : BitVec 16)
  /-- FSD (R79): Stores a binary64 value. -/
  | fsd (t : Thr) (fs : FReg) (ra : GReg) (disp : BitVec 16)
  /-- FSQ (R79): Stores a binary128 value. -/
  | fsq (t : Thr) (fs : FReg) (ra : GReg) (disp : BitVec 16)
  /-- LRSV (R201): Loads 8 bytes and sets the thread's reservation on the 256-byte granule. -/
  | lrsv (t : Thr) (rd : GReg) (ra : GReg)
  /-- STCD (R202): Stores only while the reservation holds, reports the result and clears the reservation. -/
  | stcd (t : Thr) (rd : GReg) (ra : GReg) (rb : GReg)
  /-- CASD (R81): 8-byte compare and swap. -/
  | casd (t : Thr) (rd : GReg) (ra : GReg) (rb : GReg)
  /-- CASQ (R199): 16-byte compare and swap, atomic only under ATOM16. -/
  | casq (t : Thr) (rd : GReg) (ra : GReg) (rb : GReg)
  /-- AADD (R81): Atomic add. -/
  | aadd (t : Thr) (rd : GReg) (ra : GReg) (rb : GReg)
  /-- SWPD (R81): Atomic swap. -/
  | swpd (t : Thr) (rd : GReg) (ra : GReg) (rb : GReg)
  /-- AAND (R81): Atomic AND. -/
  | aand (t : Thr) (rd : GReg) (ra : GReg) (rb : GReg)
  /-- AOR (R81): Atomic OR. -/
  | aor (t : Thr) (rd : GReg) (ra : GReg) (rb : GReg)
  /-- BEQ (R83): Branches if equal. -/
  | beq (t : Thr) (ra : GReg) (rb : GReg) (disp : BitVec 16)
  /-- BNE (R83): Branches if not equal. -/
  | bne (t : Thr) (ra : GReg) (rb : GReg) (disp : BitVec 16)
  /-- BLT (R83): Branches if signed less than. -/
  | blt (t : Thr) (ra : GReg) (rb : GReg) (disp : BitVec 16)
  /-- BGE (R83): Branches if signed greater or equal. -/
  | bge (t : Thr) (ra : GReg) (rb : GReg) (disp : BitVec 16)
  /-- BLTU (R83): Branches if unsigned less than. -/
  | bltu (t : Thr) (ra : GReg) (rb : GReg) (disp : BitVec 16)
  /-- BGEU (R83): Branches if unsigned greater or equal. -/
  | bgeu (t : Thr) (ra : GReg) (rb : GReg) (disp : BitVec 16)
  /-- J (R84): Jumps pc-relative. -/
  | j (t : Thr) (disp : BitVec 26)
  /-- JAL (R84): Jumps pc-relative and links into g31. -/
  | jal (t : Thr) (disp : BitVec 26)
  /-- MVL (R85): Long move in 256-byte units, interruptible at unit boundaries. -/
  | mvl (t : Thr) (rd : GReg) (ra : GReg)
  /-- CML (R85): Long compare in 256-byte units, stopping at the first difference. -/
  | cml (t : Thr) (rd : GReg) (ra : GReg) (rb : GReg)
  /-- FLL (R85): Long fill in 256-byte units. -/
  | fll (t : Thr) (rd : GReg) (ra : GReg)
  /-- DADD (R154): Packed-decimal add in memory, with a result code. -/
  | dadd (t : Thr) (rd : GReg) (ra : GReg) (rb : GReg) (l1 : BitVec 4) (l2 : BitVec 4)
  /-- DSUB (R154): Packed-decimal subtract in memory, with a result code. -/
  | dsub (t : Thr) (rd : GReg) (ra : GReg) (rb : GReg) (l1 : BitVec 4) (l2 : BitVec 4)
  /-- DCMP (R155): Packed-decimal compare. -/
  | dcmp (t : Thr) (rd : GReg) (ra : GReg) (rb : GReg) (l1 : BitVec 4) (l2 : BitVec 4)
  /-- DVAL (R155): Packed-decimal validity check. -/
  | dval (t : Thr) (rd : GReg) (ra : GReg) (l1 : BitVec 4)
  /-- FADD (R136): Floating add. -/
  | fadd (t : Thr) (fmt : BitVec 2) (rm : BitVec 3) (fd : FReg) (fa : FReg) (fb : FReg)
  /-- FSUB (R136): Floating subtract. -/
  | fsub (t : Thr) (fmt : BitVec 2) (rm : BitVec 3) (fd : FReg) (fa : FReg) (fb : FReg)
  /-- FMUL (R136): Floating multiply. -/
  | fmul (t : Thr) (fmt : BitVec 2) (rm : BitVec 3) (fd : FReg) (fa : FReg) (fb : FReg)
  /-- FDIV (R136): Floating divide. -/
  | fdiv (t : Thr) (fmt : BitVec 2) (rm : BitVec 3) (fd : FReg) (fa : FReg) (fb : FReg)
  /-- FSQRT (R136): Floating square root. -/
  | fsqrt (t : Thr) (fmt : BitVec 2) (rm : BitVec 3) (fd : FReg) (fa : FReg)
  /-- FMIN (R145): IEEE minimum. -/
  | fmin (t : Thr) (fmt : BitVec 2) (fd : FReg) (fa : FReg) (fb : FReg)
  /-- FMAX (R145): IEEE maximum. -/
  | fmax (t : Thr) (fmt : BitVec 2) (fd : FReg) (fa : FReg) (fb : FReg)
  /-- FMINN (R145): minimumNumber. -/
  | fminn (t : Thr) (fmt : BitVec 2) (fd : FReg) (fa : FReg) (fb : FReg)
  /-- FMAXN (R145): maximumNumber. -/
  | fmaxn (t : Thr) (fmt : BitVec 2) (fd : FReg) (fa : FReg) (fb : FReg)
  /-- FNEG (R145): Inverts the sign. -/
  | fneg (t : Thr) (fmt : BitVec 2) (fd : FReg) (fa : FReg)
  /-- FABS (R145): Clears the sign. -/
  | fabs (t : Thr) (fmt : BitVec 2) (fd : FReg) (fa : FReg)
  /-- FCPYS (R145): Copies the sign of fb onto the magnitude of fa. -/
  | fcpys (t : Thr) (fmt : BitVec 2) (fd : FReg) (fa : FReg) (fb : FReg)
  /-- FCEQ (R145): Quiet equality compare into a g register. -/
  | fceq (t : Thr) (fmt : BitVec 2) (rd : GReg) (fa : FReg) (fb : FReg)
  /-- FCLT (R145): Signalling less-than compare. -/
  | fclt (t : Thr) (fmt : BitVec 2) (rd : GReg) (fa : FReg) (fb : FReg)
  /-- FCLE (R145): Signalling less-or-equal compare. -/
  | fcle (t : Thr) (fmt : BitVec 2) (rd : GReg) (fa : FReg) (fb : FReg)
  /-- FCUN (R145): Unordered test. -/
  | fcun (t : Thr) (fmt : BitVec 2) (rd : GReg) (fa : FReg) (fb : FReg)
  /-- FCLASS (R91): Writes the class mask of fa. -/
  | fclass (t : Thr) (fmt : BitVec 2) (rd : GReg) (fa : FReg)
  /-- FRINT (R136): Rounds to an integral value. -/
  | frint (t : Thr) (fmt : BitVec 2) (rm : BitVec 3) (fd : FReg) (fa : FReg)
  /-- FCVT (R143): Converts between floating formats. -/
  | fcvt (t : Thr) (fmt : BitVec 2) (rm : BitVec 3) (fd : FReg) (fa : FReg) (src : BitVec 2)
  /-- FCVTIS (R146): Converts to a signed 64-bit integer. -/
  | fcvtis (t : Thr) (fmt : BitVec 2) (rm : BitVec 3) (rd : GReg) (fa : FReg)
  /-- FCVTIU (R146): Converts to an unsigned 64-bit integer. -/
  | fcvtiu (t : Thr) (fmt : BitVec 2) (rm : BitVec 3) (rd : GReg) (fa : FReg)
  /-- FCVTSI (R90): Converts a signed integer to floating point. -/
  | fcvtsi (t : Thr) (fmt : BitVec 2) (rm : BitVec 3) (fd : FReg) (ra : GReg)
  /-- FCVTUI (R90): Converts an unsigned integer to floating point. -/
  | fcvtui (t : Thr) (fmt : BitVec 2) (rm : BitVec 3) (fd : FReg) (ra : GReg)
  /-- FMVGF (R90): Moves the raw bits of fa to a g register. -/
  | fmvgf (t : Thr) (fmt : BitVec 2) (rd : GReg) (fa : FReg)
  /-- FMVFG (R90): Moves raw bits from a g register into fd. -/
  | fmvfg (t : Thr) (fmt : BitVec 2) (fd : FReg) (ra : GReg)
  /-- FMADD (R92): Fused multiply-add. -/
  | fmadd (t : Thr) (fmt : BitVec 2) (rm : BitVec 3) (fd : FReg) (fa : FReg) (fb : FReg) (fc : FReg)
  /-- FMSUB (R92): Fused multiply-subtract. -/
  | fmsub (t : Thr) (fmt : BitVec 2) (rm : BitVec 3) (fd : FReg) (fa : FReg) (fb : FReg) (fc : FReg)
  /-- FNMADD (R92): Negated fused multiply-add. -/
  | fnmadd (t : Thr) (fmt : BitVec 2) (rm : BitVec 3) (fd : FReg) (fa : FReg) (fb : FReg) (fc : FReg)
  /-- FNMSUB (R92): Negated fused multiply-subtract. -/
  | fnmsub (t : Thr) (fmt : BitVec 2) (rm : BitVec 3) (fd : FReg) (fa : FReg) (fb : FReg) (fc : FReg)
  /-- SYNC (R186): Full fence, waiting until earlier loads are performed and earlier stores are visible or accepted. -/
  | sync (t : Thr)
  /-- SYNC_COMPLETE (R186): A waiting SYNC completes once its conditions hold. -/
  | syncComplete (t : Thr)
  /-- DRAIN (R188): Waits until every earlier store has completed at its end point or failed. -/
  | drain (t : Thr)
  /-- DRAIN_END (R194): A waiting DRAIN ends, completing or raising cause 0x12 if a device-store failure is pending. -/
  | drainEnd (t : Thr)
  /-- DRAIN_TIMEOUT (R194): DTMO passes while DRAIN waits, and every device store still incomplete fails. -/
  | drainTimeout (t : Thr)
  /-- FBAR (R126): Delivers any pending floating-point trap. -/
  | fbar (t : Thr)
  /-- SYNCI (R93): Waits as SYNC does, then discards the thread's fetched and predicted instructions. -/
  | synci (t : Thr)
  /-- RETL (R118): Trap return from S or M level. -/
  | retl (t : Thr)
  /-- WAIT (R93): Stops issue until an interrupt is pending for the thread. -/
  | wait (t : Thr)
  /-- BRK (R93): Raises the breakpoint trap. -/
  | brk (t : Thr)
  /-- PAUSE (R93): Yields issue slots for 32 cycles. -/
  | pause (t : Thr)
  /-- SVC (R94): Raises the supervisor-call trap carrying imm16. -/
  | svc (t : Thr) (imm : BitVec 16)
  /-- MFS (R98): Reads a state register. -/
  | mfs (t : Thr) (rd : GReg) (n : BitVec 12)
  /-- MTS (R98): Writes a state register with its side effects, context-synchronising. -/
  | mts (t : Thr) (ra : GReg) (n : BitVec 12)
  /-- TLBWR (R165): Removes overlapping TLB entries and writes one new entry. -/
  | tlbwr (t : Thr) (ra : GReg) (rb : GReg)
  /-- TWALK (R171): One page-table walk step, with a result code, walk-cache fill and mark update. -/
  | twalk (t : Thr) (rd : GReg) (ra : GReg) (rb : GReg)
  /-- TLBI_VA (R176): Local TLB invalidation by address. -/
  | tlbiVa (t : Thr) (ra : GReg) (rb : GReg)
  /-- TLBI_VA_B (R177): Broadcast TLB invalidation by address. -/
  | tlbiVaB (t : Thr) (ra : GReg) (rb : GReg)
  /-- TLBI_TAG (R176): Local TLB invalidation by ASTAG. -/
  | tlbiTag (t : Thr) (rb : GReg)
  /-- TLBI_TAG_B (R177): Broadcast TLB invalidation by ASTAG. -/
  | tlbiTagB (t : Thr) (rb : GReg)
  /-- TLBI_ALL (R176): Local invalidation of the whole TLB. -/
  | tlbiAll (t : Thr)
  /-- TLBI_ALL_B (R177): Broadcast invalidation of the whole TLB. -/
  | tlbiAllB (t : Thr)
  /-- WCI_VA (R176): Local walk-cache invalidation by address. -/
  | wciVa (t : Thr) (ra : GReg) (rb : GReg)
  /-- WCI_VA_B (R177): Broadcast walk-cache invalidation by address. -/
  | wciVaB (t : Thr) (ra : GReg) (rb : GReg)
  /-- WCI_TAG (R176): Local walk-cache invalidation by ASTAG. -/
  | wciTag (t : Thr) (rb : GReg)
  /-- WCI_TAG_B (R177): Broadcast walk-cache invalidation by ASTAG. -/
  | wciTagB (t : Thr) (rb : GReg)
  /-- WCI_ALL (R176): Local invalidation of the whole walk cache. -/
  | wciAll (t : Thr)
  /-- WCI_ALL_B (R177): Broadcast invalidation of the whole walk cache. -/
  | wciAllB (t : Thr)
  /-- INVALIDATION_BROADCAST_RECEIVE (R177): A target core receives a broadcast TLBI or WCI over Mycel and removes the matching entries. -/
  | invalidationBroadcastReceive (src : InvSrc) (c : Pcore)
  /-- INVALIDATION_COMPLETE (R178): A TLBI or WCI completes once every target has removed its entries and drained the accesses concerned. -/
  | invalidationComplete (t : Thr)
  /-- CLWB (R215): Writes a modified line back to its home and keeps copies clean. -/
  | clwb (t : Thr) (ra : GReg)
  /-- CLFLUSH (R215): Writes a modified line back, then removes every copy. -/
  | clflush (t : Thr) (ra : GReg)
  /-- CLINV (R215): Removes every copy of a line and discards modified data. -/
  | clinv (t : Thr) (ra : GReg)
  /-- CLZERO (R215): Takes a line in M without reading memory and zeroes it. -/
  | clzero (t : Thr) (ra : GReg)
  /-- PREFR (R215): Prefetch hint for a read. -/
  | prefr (t : Thr) (ra : GReg)
  /-- PREFW (R215): Prefetch hint for ownership. -/
  | prefw (t : Thr) (ra : GReg)
  /-- ICINV (R215): Removes a line from the issuing core's L1I only. -/
  | icinv (t : Thr) (ra : GReg)
  /-- S_INTERRUPT_ENTRY (R122): An enabled S interrupt is taken at a boundary or during a wait. -/
  | sInterruptEntry (t : Thr)
  /-- M_INTERRUPT_ENTRY (R122): An enabled M interrupt is taken at a boundary or during a wait. -/
  | mInterruptEntry (t : Thr)
  /-- STIMER_MATCH (R122): TIME reaches STCMP and SIP.STI becomes pending. -/
  | stimerMatch (t : Thr)
  /-- IDENTIFIER_ARRIVE (R122): An interrupt identifier reaches a thread's S or M queue, or marks the queue overflowed. -/
  | identifierArrive (t : Thr) (mlevel : Bool) (id : BitVec 16)
  /-- MYC_IPI (R123): A write to MYC_IPI sets the target's SSI or MSI, or is discarded and logged. -/
  | mycIpi (org : Origin) (val : Word)
  /-- TAKEOVER_RESUME_ENTRY (R130): A thread resumed on a spare enters M-base + 0x0C0 at a boundary where MTA = 0. -/
  | takeoverResumeEntry (t : Thr)
  /-- RETRY_EXHAUSTED_NOTIFICATION (R132): A thread of the partition enters M-base + 0x080 for a failed core. -/
  | retryExhaustedNotification (t : Thr)
  /-- WINDTHROW_WARNING (R120): Every running thread enters M-base + 0x180 whatever MTA and MDT hold. -/
  | windthrowWarning
  /-- STORE_VISIBLE (R185): A buffered store to memory becomes visible to every agent at one instant. -/
  | storeVisible (t : Thr)
  /-- DEVICE_STORE_ACCEPT (R191): A target accepts a device store, which leaves the store buffer for the tracker. -/
  | deviceStoreAccept (t : Thr)
  /-- DEVICE_STORE_COMPLETE (R188): A device store completes at its end point and leaves the tracker. -/
  | deviceStoreComplete (t : Thr) (idx : Nat)
  /-- DEVICE_STORE_TIMEOUT (R192): DTMO passes for a device store, which fails, marking its target failed. -/
  | deviceStoreTimeout (t : Thr) (idx : Nat)
  /-- ZERO_LENGTH_READ_SEND (R191): The hub sends a zero-length read to a port after a 10 µs wait or on a DRAIN. -/
  | zeroLengthReadSend (t : Thr) (target : Nat)
  /-- ZERO_LENGTH_READ_COMPLETION (R191): A completion of the zero-length read completes the thread's earlier writes, or fails them on UR or CA. -/
  | zeroLengthReadCompletion (t : Thr) (target : Nat) (ok : Bool)
  /-- DEVICE_LOAD_COMPLETE (R189): A device load's completion returns its data. -/
  | deviceLoadComplete (t : Thr) (ok : Bool) (data : BitVec 128)
  /-- DEVICE_LOAD_TIMEOUT (R196): A device load without completion within DTMO returns all ones and marks the target failed. -/
  | deviceLoadTimeout (t : Thr)
  /-- RESERVATION_DEFER_EXPIRE (R203): The 128-cycle deferral of other agents' requests for a constrained loop's line ends. -/
  | reservationDeferExpire (t : Thr)
  /-- HW_PREFETCH (R213): The L2 prefetcher fetches a line of a detected stream into the side buffer. -/
  | hwPrefetch (c : Pcore) (line : BitVec 43)
  /-- WAY_DISABLE_DONE (R219): A way disable ends, setting DIS, or it is withheld with FLOOR. -/
  | wayDisableDone (kind : CacheKind) (inst : Pcore) (way : Fin 16)
  /-- WAY_WINDOW_END (R219): At the end of each 2^WIN-second window the corrected-error counts restart at zero. -/
  | wayWindowEnd (l3 : Bool)
  /-- WAY_REENABLE (R221): Writing 1 to a DIS bit re-enables the way empty, and its count restarts. -/
  | wayReenable (org : Origin) (l3 : Bool) (inst : Pcore) (val : Word)
  /-- RDS (R240): Read request granting E or S. -/
  | rds (h : Hdr)
  /-- RDO (R240): Read-for-ownership request. -/
  | rdo (h : Hdr)
  /-- UPG (R240): Upgrade from S to M. -/
  | upg (h : Hdr)
  /-- RDZ (R240): Ownership without data, for CLZERO. -/
  | rdz (h : Hdr)
  /-- WBK (R240): Write-back of an M line. -/
  | wbk (h : Hdr) (data : LineData)
  /-- EVN (R240): Eviction notice for an E or S line. -/
  | evn (h : Hdr)
  /-- CMW (R240): CLWB request at the home. -/
  | cmw (h : Hdr)
  /-- CMF (R240): CLFLUSH request at the home. -/
  | cmf (h : Hdr)
  /-- CMI (R240): CLINV request at the home. -/
  | cmi (h : Hdr)
  /-- PWB (R248): Write-back during a set purge. -/
  | pwb (h : Hdr) (data : LineData)
  /-- SNPS (R242): Snoop that supplies the requester and keeps S. -/
  | snps (h : Hdr)
  /-- SNPO (R242): Snoop that supplies the requester and goes to I. -/
  | snpo (h : Hdr)
  /-- SNPI (R242): Invalidating snoop that discards modified data. -/
  | snpi (h : Hdr)
  /-- SNPW (R242): Snoop that writes modified data to the home. -/
  | snpw (h : Hdr)
  /-- BINV (R242): Back-invalidation with modified data to the home. -/
  | binv (h : Hdr)
  /-- SPURGE (R248): A member scans its L3 for the purged Canopy set and answers PACK. -/
  | spurge (h : Hdr)
  /-- CMP (R231): The requester's completion acknowledgement unblocks the line. -/
  | cmp (h : Hdr)
  /-- GNT (R242): A grant without data. -/
  | gnt (h : Hdr)
  /-- SRSP (R244): A snoop response without data. -/
  | srsp (h : Hdr)
  /-- INVACK (R233): Acknowledgement of an SNPI. -/
  | invack (h : Hdr)
  /-- WACK (R242): Acceptance of a WBK, EVN or PWB. -/
  | wack (h : Hdr)
  /-- CMACK (R240): Progress of cache maintenance. -/
  | cmack (h : Hdr)
  /-- PACK (R248): A member reports its set purge done, ending the purge when the last arrives. -/
  | pack (h : Hdr)
  /-- ERR (R236): A request ends in error. -/
  | err (h : Hdr)
  /-- DATA (R242): A line arrives with its grant. -/
  | data (h : Hdr) (data : LineData)
  /-- SRSPD (R242): A snoop response with modified data. -/
  | srspd (h : Hdr) (data : LineData)
  /-- MRD (R241): Remote register read. -/
  | mrd (h : Hdr) (lo : BitVec 8) (size8 : Bool)
  /-- MWR (R241): Remote register write. -/
  | mwr (h : Hdr) (lo : BitVec 8) (size8 : Bool) (val : Word)
  /-- TLBB (R241): A broadcast TLBI or WCI arriving from another module. -/
  | tlbb (h : Hdr) (bgrp : BitVec 8) (fn : BitVec 4) (ra : Word) (rb : Word)
  /-- MRSP (R241): Data for an MRD, or completion of an MWR. -/
  | mrsp (h : Hdr) (val : Word)
  /-- TLBA (R241): A member reports its broadcast complete. -/
  | tlba (h : Hdr)
  /-- UNKNOWN_OPCODE (R235): A flit holding an unknown opcode or ST value is discarded, logged, and the port retrains quickly. -/
  | unknownOpcode (p : GrovePort)
  /-- CANOPY_WAY_REENABLE (R249): Writing 1 to a CNP_WAYST DIS bit re-enables the way. -/
  | canopyWayReenable (org : Origin) (bank : Fin 16) (val : Word)
  /-- NAK (R253): A NAK flit makes the sender replay from the LSEQ named. -/
  | nak (p : GrovePort) (lseq : BitVec 12)
  /-- FLIT_CRC_FAILURE (R253): A flit with a CRC failure or out-of-order LSEQ is discarded with the later ones, and a NAK is sent. -/
  | flitCrcFailure (p : GrovePort)
  /-- RELAYED_FLIT (R251): A relay module forwards a relayed flit whole. -/
  | relayedFlit (p : GrovePort) (f : Relayed)
  /-- RESUME (R258): A RESUME flit triggers replay of the retry buffer after the other end's sequence number. -/
  | resume (p : GrovePort) (lost : GrovePort) (lseq : BitVec 12)
  /-- WTHROW (R260): A WTHROW flit from a peer makes this module sever it at once. -/
  | wthrow (m : Module)
  /-- FLIT_TIMEOUT (R257): A port that receives no valid flit for 2 µs retrains quickly. -/
  | flitTimeout (p : GrovePort)
  /-- LANE_FAIL (R256): A lane that loses lock or corrects too many symbols fails, and the port retrains narrower. -/
  | laneFail (p : GrovePort) (lane : Fin 16)
  /-- QUICK_RETRAIN_DONE (R254): A quick retrain ends, leaving the port active or lost. -/
  | quickRetrainDone (p : GrovePort) (ok : Bool) (ident : PortIdent)
  /-- QUICK_RETRAIN_TIMEOUT (R257): A port not active within 1 ms of its first quick retrain is lost. -/
  | quickRetrainTimeout (p : GrovePort)
  /-- GROVE_PORT_TRAINED (R254): Full training of a Grove port ends with the identity check and the port active, or marked down. -/
  | grovePortTrained (p : GrovePort) (lanes : BitVec 16) (ident : PortIdent)
  /-- SEVERANCE_TIMEOUT (R260): A peer unreachable for SEVT is severed. -/
  | severanceTimeout (m : Module)
  /-- ROOT_LINK_TRAIN_TIMEOUT (R265): A Root link that misses a training-step bound is failed with that step's FAIL code. -/
  | rootLinkTrainTimeout (n : Link) (step : Fin 8)
  /-- ROOT_LINK_IN_SERVICE (R265): A Root link completes training and enters service, or the fenced or copy-receiving state. -/
  | rootLinkInService (n : Link) (x4 : Bool) (capq : Nat)
  /-- CXL_READ_RESPONSE (R273): A CXL.mem read response arrives, possibly poisoned, and is repaired from the mirror where needed. -/
  | cxlReadResponse (n : Link) (la : Nat) (poison : Bool)
  /-- CXL_WRITE_COMPLETION (R272): An expander completes a write. -/
  | cxlWriteCompletion (n : Link) (la : Nat)
  /-- MTMO_EXPIRE (R274): A CXL.mem response timeout fails the link with FAIL 7. -/
  | mtmoExpire (n : Link) (la : Nat) (wr : Bool)
  /-- ROOT_LINK_DOWN (R275): A link in service starts retraining and its requests stall. -/
  | rootLinkDown (n : Link)
  /-- ROOT_LINK_RETRAIN_TIMEOUT (R275): A link not back in service within 300 ms is failed with FAIL 8. -/
  | rootLinkRetrainTimeout (n : Link)
  /-- REVIVE (R276): Writing REVIVE = 1 returns a fenced link to service. -/
  | revive (org : Origin) (n : Link)
  /-- HOLD_SET (R278): Writing HOLD = 1 takes a paired link out of service and asserts its reset output. -/
  | holdSet (org : Origin) (n : Link)
  /-- HOLD_CLEAR (R278): Writing HOLD = 0 releases the reset and retrains the link to receive a copy. -/
  | holdClear (org : Origin) (n : Link)
  /-- RTL_CFG_GO (R267): Writing GO starts a configuration access to the expander. -/
  | rtlCfgGo (org : Origin) (n : Link) (val : Word)
  /-- RTL_CFG_DONE (R267): A configuration access ends and GO clears. -/
  | rtlCfgDone (n : Link) (ok : Bool) (data : BitVec 32)
  /-- MIRROR_COPY_LINE (R272): The home copies one line to the other link of a pair and enters state 1 at the end. -/
  | mirrorCopyLine (k : Fin 8)
  /-- PATROL_SCRUB_LINE (R277): Patrol scrub reads one line and repairs or logs poison. -/
  | patrolScrubLine (n : Link) (poison : Bool)
  /-- INBOUND_WRITE (R302): An endpoint write with K = 0 is checked by PMASK, GEN and the window, and performed. -/
  | inboundWrite (g : Glade) (ph : PortHalf) (addr : Word) (bytes : List Byte)
  /-- INBOUND_READ (R302): An endpoint read with K = 0 is checked and answered, or refused with Completer Abort. -/
  | inboundRead (g : Glade) (ph : PortHalf) (addr : Word) (len : Nat)
  /-- MSIX_MESSAGE (R363): An inbound MSI-X write with K = 1 is delivered as an MSI event to the addressed task. -/
  | msixMessage (g : Glade) (ph : PortHalf) (addr : Word) (data : BitVec 32)
  /-- INBOUND_K1_OTHER (R287): Any other K = 1 request is answered with Unsupported Request. -/
  | inboundK1Other (g : Glade) (ph : PortHalf) (addr : Word)
  /-- PORT_HALF_UP (R288): A Glade port half reaches STATE 3 and its failed mark clears. -/
  | portHalfUp (g : Glade) (ph : PortHalf) (speed : BitVec 4) (width : BitVec 4)
  /-- PORT_HALF_DOWN (R291): A half goes down, ends its waiting operations with 0x09, marks its window failed and retrains. -/
  | portHalfDown (g : Glade) (ph : PortHalf)
  /-- BIND (R294): Binds a slice to a PID and advances GEN. -/
  | bind (org : Origin) (g : Glade) (sl : SliceId) (arg : BitVec 32)
  /-- UNBIND (R295): Closes the slice's tracts, aborts its operations and advances GEN. -/
  | unbind (org : Origin) (g : Glade) (sl : SliceId) (arg : BitVec 32)
  /-- OPEN_TRACT (R304): Reads and checks a tract descriptor and opens the tract. -/
  | openTract (org : Origin) (g : Glade) (sl : SliceId) (arg : BitVec 32)
  /-- CLOSE_TRACT (R308): Stops fetching for a tract and closes it when its operations end. -/
  | closeTract (org : Origin) (g : Glade) (sl : SliceId) (arg : BitVec 32)
  /-- LOAD_WIN (R300): Reads and checks a window entry and replaces the window indivisibly. -/
  | loadWin (org : Origin) (g : Glade) (sl : SliceId) (arg : BitVec 32)
  /-- LOAD_CQ (R311): Reads a completion-ring descriptor and resets the ring. -/
  | loadCq (org : Origin) (g : Glade) (sl : SliceId) (arg : BitVec 32)
  /-- DLSWAP (R316): Swaps the dirty-log buffers. -/
  | dlswap (org : Origin) (g : Glade) (sl : SliceId) (arg : BitVec 32)
  /-- SLICE_CMD_UNKNOWN_OP (R294): A slice command with OP 0 or 8 to 15 ends with RESULT 0x08. -/
  | sliceCmdUnknownOp (org : Origin) (g : Glade) (sl : SliceId) (op : BitVec 4)
  /-- GEN_WAIT_ELAPSED (R296): The 2 × OPTMO wait before reusing a GEN ends, and the waiting BIND or UNBIND proceeds. -/
  | genWaitElapsed (g : Glade) (sl : SliceId)
  /-- DOORBELL (R309): A GLD_DB write records a tract's new submission tail, or is discarded. -/
  | doorbell (org : Origin) (g : Glade) (sl : SliceId) (val : Word)
  /-- CQ_DOORBELL (R311): A GLD_CQDB write advances a completion ring's head and frees held records. -/
  | cqDoorbell (org : Origin) (g : Glade) (sl : SliceId) (val : Word)
  /-- GCW_FETCH (R306): The hub fetches and checks an operation's GCWs, writing FETCHED and CONT entries and SQHEAD. -/
  | gcwFetch (g : Glade) (tract : Fin 65536)
  /-- TRACT_TASK_BIND (R359): The hub binds a tract with unfetched GCWs to a free task, which starts at WORKV with an OP event. -/
  | tractTaskBind (g : Glade) (tract : Fin 65536) (task : TaskId)
  /-- OPERATION_TIMEOUT (R318): An operation exceeds OPTMO, ends with status 0x08 and its task receives ABANDON. -/
  | operationTimeout (g : Glade) (op : Fin 4096)
  /-- COALESCE_TIMEOUT (R313): CTIME passes after a record and the ring's interrupt identifier is sent. -/
  | coalesceTimeout (g : Glade) (sl : SliceId) (q : Fin 16)
  /-- DIRTY_LOG_CONFIG_WRITE (R314): A write to GLD_SLC_DLCFG or DLPA is applied, or discarded while EN = 1. -/
  | dirtyLogConfigWrite (org : Origin) (g : Glade) (sl : SliceId) (reg : Fin 3) (val : Word)
  /-- GLADE_RESTORE_DONE (R319): The Glade reaches STATE 4 and sets RESTORED for every restored slice. -/
  | gladeRestoreDone (g : Glade)
  /-- LEDGER_WRITE_RETRY (R329): Every 1 ms the Ledger retries the failed write and returns to STATE 1 on success. -/
  | ledgerWriteRetry (g : Glade) (sl : SliceId)
  /-- LDG_HALT_WRITE (R339): Setting or clearing HALT stops or restarts fetch, issue and recording for a slice. -/
  | ldgHaltWrite (org : Origin) (g : Glade) (sl : SliceId) (halt : Bool)
  /-- ADOPT (R341): Adoption restores a slice without advancing GEN and replays its copied Ledger. -/
  | adopt (org : Origin) (g : Glade) (sl : SliceId)
  /-- TWIG_LD (R355): Loads a byte register from disp(b). -/
  | twigLd (p : TwigProc) (r : BitVec 4) (b : ANum) (disp : BitVec 6)
  /-- TWIG_ST (R355): Stores a byte register. -/
  | twigSt (p : TwigProc) (r : BitVec 4) (b : ANum) (disp : BitVec 6)
  /-- TWIG_LD_ADDR (R355): Loads a 16-bit address register. -/
  | twigLdAddr (p : TwigProc) (a : ANum) (b : ANum) (disp : BitVec 6)
  /-- TWIG_ST_ADDR (R355): Stores a 16-bit address register. -/
  | twigStAddr (p : TwigProc) (a : ANum) (b : ANum) (disp : BitVec 6)
  /-- LDM (R357): Loads the registers named in a mask, restartably. -/
  | ldm (p : TwigProc) (w : Bool) (b : ANum) (mask : BitVec 14)
  /-- STM (R357): Stores the registers named in a mask, restartably. -/
  | stm (p : TwigProc) (w : Bool) (b : ANum) (mask : BitVec 14)
  /-- TWIG_ADD (R352): Accumulator add, immediate or register form. -/
  | twigAdd (p : TwigProc) (n : Bool) (src : AluSrc)
  /-- TWIG_ADC (R352): Accumulator add with carry. -/
  | twigAdc (p : TwigProc) (n : Bool) (src : AluSrc)
  /-- TWIG_SUB (R352): Accumulator subtract. -/
  | twigSub (p : TwigProc) (n : Bool) (src : AluSrc)
  /-- TWIG_SBC (R352): Accumulator subtract with borrow. -/
  | twigSbc (p : TwigProc) (n : Bool) (src : AluSrc)
  /-- TWIG_AND (R352): Accumulator AND. -/
  | twigAnd (p : TwigProc) (n : Bool) (src : AluSrc)
  /-- TWIG_OR (R352): Accumulator OR. -/
  | twigOr (p : TwigProc) (n : Bool) (src : AluSrc)
  /-- TWIG_XOR (R352): Accumulator XOR. -/
  | twigXor (p : TwigProc) (n : Bool) (src : AluSrc)
  /-- SHL (R352): Shift left. -/
  | shl (p : TwigProc) (n : Bool) (amt : BitVec 3)
  /-- SHR (R352): Logical shift right. -/
  | shr (p : TwigProc) (n : Bool) (amt : BitVec 3)
  /-- ASR (R352): Arithmetic shift right. -/
  | asr (p : TwigProc) (n : Bool) (amt : BitVec 3)
  /-- ROL (R352): Rotate left. -/
  | rol (p : TwigProc) (n : Bool) (amt : BitVec 3)
  /-- TWIG_ROR (R352): Rotate right. -/
  | twigRor (p : TwigProc) (n : Bool) (amt : BitVec 3)
  /-- RLC (R352): 9-bit rotate left through the carry. -/
  | rlc (p : TwigProc) (n : Bool) (amt : BitVec 3)
  /-- RRC (R352): 9-bit rotate right through the carry. -/
  | rrc (p : TwigProc) (n : Bool) (amt : BitVec 3)
  /-- LDI (R350): Loads an 8-bit immediate. -/
  | ldi (p : TwigProc) (r : BitVec 4) (imm : BitVec 8)
  /-- TWIG_MOV (R350): Moves a byte register. -/
  | twigMov (p : TwigProc) (r : BitVec 4) (src : BitVec 4)
  /-- MOV_ADDR_ADDR (R350): Moves an address register to another. -/
  | movAddrAddr (p : TwigProc) (a : ANum) (b : ANum)
  /-- MOV_ADDR_DATA_PAIR (R350): Loads an address register from a data-register pair. -/
  | movAddrDataPair (p : TwigProc) (a : ANum) (k : BitVec 2)
  /-- MOV_DATA_PAIR_ADDR (R350): Moves an address register into a data-register pair. -/
  | movDataPairAddr (p : TwigProc) (k : BitVec 2) (a : ANum)
  /-- MOV_ADDR_TSR (R350): Copies tsr into an address register. -/
  | movAddrTsr (p : TwigProc) (a : ANum)
  /-- ADDA (R350): Adds a signed 10-bit immediate to an address register. -/
  | adda (p : TwigProc) (a : ANum) (imm : BitVec 10)
  /-- LDA (R350): Loads a 16-bit immediate into an address register. -/
  | lda (p : TwigProc) (a : ANum) (imm : BitVec 16)
  /-- CBEQ (R353): Compare and branch if equal. -/
  | cbeq (p : TwigProc) (opd : CmpOpd) (disp : BitVec 8)
  /-- CBNE (R353): Compare and branch if not equal. -/
  | cbne (p : TwigProc) (opd : CmpOpd) (disp : BitVec 8)
  /-- CBLT (R353): Compare and branch if unsigned less than. -/
  | cblt (p : TwigProc) (opd : CmpOpd) (disp : BitVec 8)
  /-- CBGE (R353): Compare and branch if unsigned greater or equal. -/
  | cbge (p : TwigProc) (opd : CmpOpd) (disp : BitVec 8)
  /-- TWIG_J (R350): Jumps to an absolute address. -/
  | twigJ (p : TwigProc) (target : BitVec 16)
  /-- JL (R351): Jumps and links into an address register. -/
  | jl (p : TwigProc) (c : ANum) (target : BitVec 16)
  /-- JR (R351): Jumps to an address register. -/
  | jr (p : TwigProc) (b : ANum)
  /-- MFB (R366): Task 0 reads a register of task BWIN.WIN. -/
  | mfb (p : TwigProc) (own : BitVec 4) (other : BitVec 4)
  /-- MTB (R366): Task 0 writes a register of task BWIN.WIN. -/
  | mtb (p : TwigProc) (own : BitVec 4) (other : BitVec 4)
  /-- TWIG_WAIT (R360): Takes the oldest selected event into d0 to d7, waits for one, or ends the task. -/
  | twigWait (p : TwigProc) (mask : BitVec 8)
  /-- TRAP (R351): Software trap. -/
  | trap (p : TwigProc) (code : BitVec 8)
  /-- RSM (R369): Task 0 resumes or frees a trapped task. -/
  | rsm (p : TwigProc) (k : Bool)
  /-- TWIG_NOP (R351): No operation. -/
  | twigNop (p : TwigProc)
  /-- TWIG_ILLEGAL (R354): A reserved Twig encoding raises the illegal-instruction trap. -/
  | twigIllegal (p : TwigProc) (w16 : BitVec 16) (ext : BitVec 16)
  /-- BANK_FILL (R365): A ready task without a resident bank evicts a victim and is filled. -/
  | bankFill (e : Engine) (task : TaskId) (ok : Bool)
  /-- TWG_T_POST (R372): A task posts the status of an operation, which is ended once its transfers and writes are visible. -/
  | twgTPost (e : Engine) (task : TaskId) (val : Word)
  /-- TWG_T_TIMER_WRITE (R373): Arms or disarms the task's TMR timer. -/
  | twgTTimerWrite (e : Engine) (task : TaskId) (val : Word)
  /-- TMR_EXPIRE (R373): A task timer runs out and a TMR event is queued. -/
  | tmrExpire (e : Engine) (task : TaskId)
  /-- XDATA_READ (R376): Reading byte 0 of XDATA reads a register of the Glade named by XADDR. -/
  | xdataRead (e : Engine) (task : TaskId)
  /-- XDATA_WRITE (R376): Writing byte 7 of XDATA writes the register named by XADDR. -/
  | xdataWrite (e : Engine) (task : TaskId) (val : Word)
  /-- PDATA_READ (R375): Reading byte 0 of PDATA issues a PCIe read on a port half. -/
  | pdataRead (e : Engine) (task : TaskId)
  /-- PDATA_WRITE (R375): Writing byte 7 of PDATA issues a PCIe memory or configuration write. -/
  | pdataWrite (e : Engine) (task : TaskId) (val : Word)
  /-- PORT_REQUEST_DONE (R375): A task's port request completes or times out after 1 ms, setting PSTAT. -/
  | portRequestDone (e : Engine) (task : TaskId) (st : BitVec 2) (data : Word)
  /-- DMV_SUB (R374): Copies a mover descriptor into the mover's queue, stalling while it is full. -/
  | dmvSub (e : Engine) (task : TaskId) (m : Fin 8) (val : Word)
  /-- MOVER_TRANSFER (R374): A mover runs a queued transfer segment by segment and ends with a MOV event. -/
  | moverTransfer (mv : Fin 32) (portOk : Bool) (portBytes : List Byte)
  /-- TWG_TSTART (R359): Task 0 starts a free task at a chosen pc. -/
  | twgTstart (e : Engine) (task : TaskId) (val : Word)
  /-- TWG_SIGNAL (R361): Queues an MBX event to a task of this or the sibling engine. -/
  | twgSignal (e : Engine) (task : TaskId) (val : Word)
  /-- TWG_CFG_WRITE (R359): Sets MAXTASK, WBASE and RUN, discarding a MAXTASK below a busy task. -/
  | twgCfgWrite (e : Engine) (task : TaskId) (val : Word)
  /-- ENGINE_MAILBOX_STORE (R487): A store that includes byte 0xEFFF of the mailbox area queues class 7 Forester work. -/
  | engineMailboxStore (e : Engine) (addr : BitVec 16) (bytes : List Byte)
  /-- MICROCODE_SWAP_DONE (R383): Every instruction reaches END, ACT inverts and dispatch resumes from the new store. -/
  | microcodeSwapDone (e : Engine)
  /-- TWIG_SCRUB (R382): Once per second the microcode stores and RAMs are scrubbed. -/
  | twigScrub (e : Engine) (found : TwigScrub)
  /-- COL_SUB (R392): A task submits a column job to a queue of its slice. -/
  | colSub (e : Engine) (task : TaskId) (val : Word)
  /-- COMPRESS_JOB (R398): A lane runs a compress job block by block with verification. -/
  | compressJob (g : Glade) (sl : SliceId) (q : Fin 4) (fault : LaneFault)
  /-- DECOMPRESS_JOB (R400): A lane runs a decompress job over a directory. -/
  | decompressJob (g : Glade) (sl : SliceId) (q : Fin 4) (fault : LaneFault)
  /-- SCAN_JOB (R401): A lane runs a scan job, evaluating a predicate on runs. -/
  | scanJob (g : Glade) (sl : SliceId) (q : Fin 4) (fault : LaneFault)
  /-- COLUMN_JOB_END (R410): A column job writes its outputs, token and status record and queues its ENG event. -/
  | columnJobEnd (g : Glade) (sl : SliceId) (q : Fin 4)
  /-- BRK_SUB (R424): A task submits a Bark job to its slice's page. -/
  | brkSub (e : Engine) (task : TaskId) (val : Word)
  /-- GCM_JOB (R431): A lane runs an AES-GCM encryption or a buffered decryption. -/
  | gcmJob (g : Glade) (sl : SliceId) (fault : LaneFault)
  /-- GMAC_JOB (R413): A lane computes or verifies a GMAC tag. -/
  | gmacJob (g : Glade) (sl : SliceId) (fault : LaneFault)
  /-- XTS_JOB (R414): A lane runs an XTS encryption or decryption. -/
  | xtsJob (g : Glade) (sl : SliceId) (fault : LaneFault)
  /-- CBC_JOB (R413): A lane runs a CBC encryption or decryption. -/
  | cbcJob (g : Glade) (sl : SliceId) (fault : LaneFault)
  /-- CTR_JOB (R414): A lane runs a CTR encryption or decryption. -/
  | ctrJob (g : Glade) (sl : SliceId) (fault : LaneFault)
  /-- CMAC_JOB (R413): A lane computes or verifies a CMAC tag. -/
  | cmacJob (g : Glade) (sl : SliceId) (fault : LaneFault)
  /-- BARK_JOB_END (R432): A Bark job releases its output and tag, writes its status record and queues its ENG event. -/
  | barkJobEnd (g : Glade) (sl : SliceId)
  /-- DEVICE_KEY_PAIR_READY (R420): A new device key pair is generated and EPRDY is set. -/
  | deviceKeyPairReady (d : BitVec 384)
  /-- RNG_HEALTH_FAIL (R428): The random bit generator fails its health test and RNGF is set. -/
  | rngHealthFail
  /-- INSTRUCTION_RETRY (R440): A failed check rolls a thread back to its Heartwood checkpoint, and both threads pause. -/
  | instructionRetry (t : Thr) (check : Fin 7)
  /-- HANG_DETECT (R439): No instruction completes for 2^24 cycles, and a retry starts. -/
  | hangDetect (t : Thr)
  /-- CPC_APPROVE (R448): A CPC_APP write with DECIDE 1 approves the pending request. -/
  | cpcApprove (org : Origin) (reqid : BitVec 8)
  /-- CPC_DECLINE (R448): A CPC_APP write with DECIDE 2 declines the pending request. -/
  | cpcDecline (org : Origin) (reqid : BitVec 8)
  /-- CPC_APP_INVALID (R448): A CPC_APP write with DECIDE 0 or 3 is discarded and logged. -/
  | cpcAppInvalid (org : Origin) (val : Word)
  /-- APPWAIT_EXPIRE (R449): An undecided request is decided by DEFAULT when APPWAIT passes. -/
  | appwaitExpire (reqid : BitVec 8)
  /-- TAKEOVER_DRAIN_DONE (R453): The failing core's stores are handed on and its caches written to the L3 and invalidated. -/
  | takeoverDrainDone (c : Pcore) (lost : List Nat)
  /-- SPARE_ENTRY_CHECK_DONE (R454): The candidate spare passes or fails its 10 µs entry check, and a failure moves to the next candidate. -/
  | spareEntryCheckDone (c : Pcore) (ok : Bool)
  /-- TAKEOVER_TRANSFER (R453): Images are sent over the sparing link and checked, roles are exchanged, and the threads resume on the spare. -/
  | takeoverTransfer (c : Pcore) (ok : Bool) (us : BitVec 32)
  /-- SPARE_SELF_TEST_PASS (R456): A spare completes a self-test pass, setting health state 2 or 3. -/
  | spareSelfTestPass (c : Pcore) (ok : Bool)
  /-- ERROR_RECORD (R461): The collector numbers a reported record, hands it to class 3 or 6, and merges or drops corrected records when full. -/
  | errorRecord (rep : Report)
  /-- UNCONTAINED_TRIGGER (R466): An uncontained trigger starts Windthrow: WTHROW is sent, the warning is given and the module stops. -/
  | uncontainedTrigger (trig : Fin 9) (blk : BitVec 8)
  /-- ARRAY_SCRUB (R468): Background scrub of an array at its period corrects or handles the errors it finds. -/
  | arrayScrub (hit : ScrubHit)
  /-- FORESTER_TAKEOVER (R473): The standby takes the claim after a fault in the active unit, and re-sends outstanding outputs. -/
  | foresterTakeover (cause : Fin 5)
  /-- WATCHDOG_EXPIRE (R477): The Forester watchdog expires 10 ms after the last kick, causing a takeover. -/
  | watchdogExpire
  /-- WATCHDOG_KICK (R477): A write of KICK = 1 by the claim holder restarts the watchdog. -/
  | watchdogKick (unitB : Bool)
  /-- FORESTER_TICK (R475): The 1 ms tick enters the fast-interrupt bank. -/
  | foresterTick
  /-- FORESTER_WORK_ARRIVAL (R476): A work item enters a class queue, or is refused or merged when the queue is full. -/
  | foresterWorkArrival (cls : Fin 8) (work : Work)
  /-- OUTPUT_STAGE_COMMAND (R471): An output stage accepts, or discards, a command by its claim and sequence number. -/
  | outputStageCommand (stage : Stage) (claim : BitVec 8) (seq : BitVec 16) (cmd : StageCmd)
  /-- LOG_HEAD_WRITE (R479): The host advances FOR_LOGSTAT.HEAD to free log slots. -/
  | logHeadWrite (org : Origin) (val : Word)
  /-- HANDOVER_QUIESCED (R481): The active unit is idle, and the freshly loaded standby takes the claim. -/
  | handoverQuiesced (ok : Bool)
  /-- FOR_MBDB (R482): Machine firmware rings its mailbox doorbell with a new request tail. -/
  | forMbdb (org : Origin) (p : Part) (val : Word)
  /-- MBOX_RESET_DOMAIN (R485): A mailbox request resets a domain that the partition may name. -/
  | mboxResetDomain (p : Part)
  /-- MBOX_PING (R485): A mailbox PING ends with CODE 0x00. -/
  | mboxPing (p : Part)
  /-- MBOX_UNKNOWN_OP (R485): A mailbox request with an unknown OP ends with CODE 0x0D. -/
  | mboxUnknownOp (p : Part)
  /-- MAILBOX_INIT (R482): The Forester writes MAGIC and zero ring indices once the window's memory can be written. -/
  | mailboxInit (p : Part)
  /-- FORESTER_MEMORY_ACCESS (R484): An access through the Forester memory port is checked by Firebreak and performed. -/
  | foresterMemoryAccess (p : Part) (acc : PortAccess)
  /-- PWROK_DEASSERT (R496): PWROK low for 100 ns or longer is a power-down: resets are asserted and the module holds itself in reset. -/
  | pwrokDeassert (longPulse : Bool)
  /-- CONTROLLER_EVALUATION (R508): Every 100 µs the controller reduces, holds or raises the cap and boost. -/
  | controllerEvaluation (tele : Telemetry)
  /-- AVS_VOLTAGE_DONE (R498): A regulator completes a voltage change, and a pending frequency raise proceeds. -/
  | avsVoltageDone (st : Stand)
  /-- AVS_ERROR (R498): An AVSBus error holds the Stand's frequency and logs a record. -/
  | avsError (st : Stand)
  /-- PMBUS_POLL (R497): Every 10 ms each regulator is polled, and one silent for three polls is marked STALE. -/
  | pmbusPoll (rail : Fin 10) (ans : RailAnswer)
  /-- PMB_ALERT (R497): PMB_ALERT# asserted makes the module read STATUS_WORD. -/
  | pmbAlert (rail : Fin 10) (status : BitVec 16)
  /-- RAIL_OUT_OF_TOLERANCE (R494): A rail leaves its tolerance, logging a warning, or deviates 8 % for 2 µs, raising trigger 7. -/
  | railOutOfTolerance (rail : Fin 10) (mv : BitVec 16) (for2us : Bool)
  /-- PROCHOT_ASSERT (R509): PROCHOT# low for 1 µs caps every Stand at 1.6 GHz. -/
  | prochotAssert
  /-- PROCHOT_RELEASE (R509): The PROCHOT# cap lifts 100 µs after the signal rises. -/
  | prochotRelease
  /-- STAND_OVERCURRENT (R509): A Stand current above 140 A halves that Stand's frequency. -/
  | standOvercurrent (st : Stand) (high : Bool)
  /-- TJ_EMERGENCY (R509): Tj ≥ 95 °C caps every Stand at 0.8 GHz. -/
  | tjEmergency (hot : Bool) (tj : BitVec 8) (idx : Fin 32)
  /-- THERMTRIP (R509): Tj ≥ 105 °C raises trigger 8 and asserts THERMTRIP#. -/
  | thermtrip (tj : BitVec 8) (idx : Fin 32)
  /-- REFERENCE_LOSS (R500): The loss of a reference clock input triggers a switch to FOSC_ALT, failed links or Windthrow. -/
  | referenceLoss (ref : Fin 6)
  /-- REFERENCE_RETURN (R500): A lost reference clock returns and the event is logged. -/
  | referenceReturn (ref : Fin 6)
  /-- BYPASS (R505): JTAG BYPASS instruction. -/
  | bypass (code : BitVec 8)
  /-- IDCODE (R505): JTAG IDCODE returns 0x1647_256B. -/
  | idcode
  /-- SAMPLE_PRELOAD (R505): JTAG SAMPLE/PRELOAD instruction. -/
  | samplePreload
  /-- EXTEST (R505): JTAG EXTEST, effective only at STEP 0, 1, 2 or 15. -/
  | extest
  /-- CLAMP (R505): JTAG CLAMP, effective only at the early STEPs. -/
  | clamp
  /-- HIGHZ (R505): JTAG HIGHZ, effective only at the early STEPs. -/
  | highz
  /-- TEST_LOGIC_RESET (R505): The JTAG TAP returns to Test-Logic-Reset, which ends boundary scan. -/
  | testLogicReset
  /-- SETDASA (R506): I3C CCC assigning a dynamic address from the static address. -/
  | setdasa (addr : BitVec 7)
  /-- ENTDAA (R506): I3C dynamic address assignment. -/
  | entdaa (addr : BitVec 7)
  /-- RSTDAA (R506): I3C reset of the dynamic address. -/
  | rstdaa
  /-- ENEC (R506): I3C enable of events. -/
  | enec (ev : BitVec 8)
  /-- DISEC (R506): I3C disable of events. -/
  | disec (ev : BitVec 8)
  /-- GETPID (R506): I3C read of the provisioned ID. -/
  | getpid
  /-- GETBCR (R506): I3C read of BCR. -/
  | getbcr
  /-- GETDCR (R506): I3C read of DCR. -/
  | getdcr
  /-- GETSTATUS (R506): I3C read of the target status. -/
  | getstatus
  /-- GETMWL (R506): I3C read of the maximum write length. -/
  | getmwl
  /-- GETMRL (R506): I3C read of the maximum read length. -/
  | getmrl
  /-- I3C_PRIVATE_WRITE (R506): An I3C private write sets the telemetry read offset. -/
  | i3cPrivateWrite (bytes : List Byte)
  /-- I3C_PRIVATE_READ (R506): An I3C private read returns telemetry bytes from the offset. -/
  | i3cPrivateRead (len : Nat)
  /-- RETRY_WINDOW_END (R444): At the end of each window of 2^RWIN seconds the per-core retry count for preventive sparing restarts. -/
  | retryWindowEnd
  /-- CANOPY_WINDOW_END (R249): At the end of each 2^12-second window the per-way corrected-error counts of each Canopy bank restart. -/
  | canopyWindowEnd
  /-- AER_EVENT (R289): A correctable or uncorrectable AER event on a Glade port half, or on a Root link's CXL.io, is counted and logged as a corrected-class or contained-class record. -/
  | aerEvent (root : Bool) (inst : Fin 32) (corr : Bool)
  /-- INTX_MESSAGE (R289): An inbound INTx message on a Glade port half is discarded and counted in UR. -/
  | intxMessage (g : Glade) (ph : PortHalf)
  /-- IDLE_FLIT (R252): An idle flit (FTYPE 0) is received whole; its LACK releases retry-buffer entries and its CRED returns credits. -/
  | idleFlit (p : GrovePort) (lack : BitVec 12) (vc : BitVec 3) (cred : BitVec 13)
  deriving DecidableEq, Repr

end Sys2Proof
end

