-- ==== Sys2Proof/Decode.lean ====
section
/-! DEFINITION. spec/opcode_table.json gives no row any bits, so no word spells a command. The instruction words of AIS are the spec's own (04_cores.md): the decoder below reads a word as the instruction it stands for, and the encoder after it writes the word of an instruction. A command of AIS is the instruction itself; its word is what a trap carries. -/

namespace Sys2Proof

/-- The command a word spells by the table's bits: none, for the table gives no row bits. -/
def decodeTableWord (_nbits _w : Nat) : Option Instr := none

end Sys2Proof

namespace Sys2Proof.Machine

/-! The decoder of AIS words (R70 to R99): the instruction a legal word stands for, on thread `t`. -/

/-- A general register by number. -/
def gOf (n : Nat) : GReg := Fin.ofNat 32 n

/-- A floating-point register by number. -/
def fOf (n : Nat) : FReg := Fin.ofNat 32 n

/-- The OPR rows with three operands (R75); `w` is the W bit. -/
def oprOf (t : Thr) (w : Bool) (rd ra rb : GReg) (fn : Nat) : Option Instr :=
  match fn with
  | 0x000 => some (.add t w rd ra rb)
  | 0x001 => some (.sub t w rd ra rb)
  | 0x002 => some (.and t rd ra rb)
  | 0x003 => some (.or t rd ra rb)
  | 0x004 => some (.xor t rd ra rb)
  | 0x005 => some (.andn t rd ra rb)
  | 0x006 => some (.orn t rd ra rb)
  | 0x007 => some (.xnor t rd ra rb)
  | 0x008 => some (.sll t w rd ra rb)
  | 0x009 => some (.srl t w rd ra rb)
  | 0x00A => some (.sra t w rd ra rb)
  | 0x00B => some (.ror t w rd ra rb)
  | 0x00C => some (.slt t rd ra rb)
  | 0x00D => some (.sltu t rd ra rb)
  | 0x00E => some (.min t rd ra rb)
  | 0x00F => some (.max t rd ra rb)
  | 0x010 => some (.minu t rd ra rb)
  | 0x011 => some (.maxu t rd ra rb)
  | 0x012 => some (.cmovz t rd ra rb)
  | 0x013 => some (.cmovnz t rd ra rb)
  | 0x020 => some (.mul t w rd ra rb)
  | 0x021 => some (.mulh t rd ra rb)
  | 0x022 => some (.mulhu t rd ra rb)
  | 0x023 => some (.mulhsu t rd ra rb)
  | 0x028 => some (.div t w rd ra rb)
  | 0x029 => some (.divu t w rd ra rb)
  | 0x02A => some (.rem t w rd ra rb)
  | 0x02B => some (.remu t w rd ra rb)
  | 0x030 => some (.clz t w rd ra)
  | 0x031 => some (.ctz t w rd ra)
  | 0x032 => some (.popc t w rd ra)
  | 0x033 => some (.bswap t rd ra)
  | 0x034 => some (.sextb t rd ra)
  | 0x035 => some (.sexth t rd ra)
  | 0x036 => some (.zextw t rd ra)
  | 0x038 => some (.jalr t rd ra)
  | 0x040 => some (.crc32cb t rd ra rb)
  | 0x041 => some (.crc32cd t rd ra rb)
  | _ => none

/-- The SHI rows (R78). -/
def shiOf (t : Thr) (rd ra : GReg) (sh : BitVec 6) (kind : Nat) : Option Instr :=
  match kind with
  | 0 => some (.slli t rd ra sh)
  | 1 => some (.srli t rd ra sh)
  | 2 => some (.srai t rd ra sh)
  | 3 => some (.rori t rd ra sh)
  | 4 => some (.slliw t rd ra sh)
  | 5 => some (.srliw t rd ra sh)
  | 6 => some (.sraiw t rd ra sh)
  | _ => none

/-- The ATOM rows (R81). -/
def atomOf (t : Thr) (rd ra rb : GReg) (fn : Nat) : Option Instr :=
  match fn with
  | 0 => some (.lrsv t rd ra)
  | 1 => some (.stcd t rd ra rb)
  | 2 => some (.casd t rd ra rb)
  | 3 => some (.casq t rd ra rb)
  | 4 => some (.aadd t rd ra rb)
  | 5 => some (.swpd t rd ra rb)
  | 6 => some (.aand t rd ra rb)
  | 7 => some (.aor t rd ra rb)
  | _ => none

/-- The CMAINT rows (R97). -/
def cmaintOf (t : Thr) (ra : GReg) (fn : Nat) : Option Instr :=
  match fn with
  | 0 => some (.clwb t ra)
  | 1 => some (.clflush t ra)
  | 2 => some (.clinv t ra)
  | 3 => some (.clzero t ra)
  | 4 => some (.prefr t ra)
  | 5 => some (.prefw t ra)
  | 6 => some (.icinv t ra)
  | _ => none

/-- The FPR rows (R90). -/
def fprOf (t : Thr) (x y z : Nat) (fmt : BitVec 2) (rm : BitVec 3) (fn : Nat) : Option Instr :=
  match fn with
  | 0x00 => some (.fadd t fmt rm (fOf x) (fOf y) (fOf z))
  | 0x01 => some (.fsub t fmt rm (fOf x) (fOf y) (fOf z))
  | 0x02 => some (.fmul t fmt rm (fOf x) (fOf y) (fOf z))
  | 0x03 => some (.fdiv t fmt rm (fOf x) (fOf y) (fOf z))
  | 0x04 => some (.fsqrt t fmt rm (fOf x) (fOf y))
  | 0x05 => some (.fmin t fmt (fOf x) (fOf y) (fOf z))
  | 0x06 => some (.fmax t fmt (fOf x) (fOf y) (fOf z))
  | 0x07 => some (.fminn t fmt (fOf x) (fOf y) (fOf z))
  | 0x08 => some (.fmaxn t fmt (fOf x) (fOf y) (fOf z))
  | 0x09 => some (.fneg t fmt (fOf x) (fOf y))
  | 0x0A => some (.fabs t fmt (fOf x) (fOf y))
  | 0x0B => some (.fcpys t fmt (fOf x) (fOf y) (fOf z))
  | 0x0C => some (.fceq t fmt (gOf x) (fOf y) (fOf z))
  | 0x0D => some (.fclt t fmt (gOf x) (fOf y) (fOf z))
  | 0x0E => some (.fcle t fmt (gOf x) (fOf y) (fOf z))
  | 0x0F => some (.fcun t fmt (gOf x) (fOf y) (fOf z))
  | 0x10 => some (.fclass t fmt (gOf x) (fOf y))
  | 0x11 => some (.frint t fmt rm (fOf x) (fOf y))
  | 0x12 => some (.fcvt t fmt rm (fOf x) (fOf y) (BitVec.ofNat 2 z))
  | 0x13 => some (.fcvtis t fmt rm (gOf x) (fOf y))
  | 0x14 => some (.fcvtiu t fmt rm (gOf x) (fOf y))
  | 0x15 => some (.fcvtsi t fmt rm (fOf x) (gOf y))
  | 0x16 => some (.fcvtui t fmt rm (fOf x) (gOf y))
  | 0x17 => some (.fmvgf t fmt (gOf x) (fOf y))
  | 0x18 => some (.fmvfg t fmt (fOf x) (gOf y))
  | _ => none

/-- The MMU rows (R96). -/
def mmuOf (t : Thr) (rd ra rb : GReg) (fn : Nat) : Option Instr :=
  match fn with
  | 0x000 => some (.tlbwr t ra rb)
  | 0x002 => some (.twalk t rd ra rb)
  | 0x010 => some (.tlbiVa t ra rb)
  | 0x011 => some (.tlbiVaB t ra rb)
  | 0x018 => some (.wciVa t ra rb)
  | 0x019 => some (.wciVaB t ra rb)
  | 0x012 => some (.tlbiTag t rb)
  | 0x013 => some (.tlbiTagB t rb)
  | 0x01A => some (.wciTag t rb)
  | 0x01B => some (.wciTagB t rb)
  | 0x014 => some (.tlbiAll t)
  | 0x015 => some (.tlbiAllB t)
  | 0x01C => some (.wciAll t)
  | 0x01D => some (.wciAllB t)
  | _ => none

/-- The SYS rows (R93). -/
def sysOf (t : Thr) (fn : Nat) : Option Instr :=
  match fn with
  | 0x000 => some (.sync t)
  | 0x001 => some (.drain t)
  | 0x002 => some (.fbar t)
  | 0x003 => some (.synci t)
  | 0x010 => some (.retl t)
  | 0x011 => some (.wait t)
  | 0x012 => some (.brk t)
  | 0x014 => some (.pause t)
  | _ => none

/-- The rows of an opcode (R72), from the fields of the word. -/
def rowOf (t : Thr) (w : Nat) : Option Instr :=
  let x := bitsOf w 25 21
  let y := bitsOf w 20 16
  let z := bitsOf w 15 11
  let fn := bitsOf w 10 0
  let imm := BitVec.ofNat 16 w
  match bitsOf w 31 26 with
  | 0x01 => oprOf t (bitOf w 10) (gOf x) (gOf y) (gOf z) (fn % 1024)
  | 0x02 => some (.addi t (gOf x) (gOf y) imm)
  | 0x03 => some (.andi t (gOf x) (gOf y) imm)
  | 0x04 => some (.ori t (gOf x) (gOf y) imm)
  | 0x05 => some (.xori t (gOf x) (gOf y) imm)
  | 0x06 => some (.slti t (gOf x) (gOf y) imm)
  | 0x07 => some (.sltiu t (gOf x) (gOf y) imm)
  | 0x08 => some (.lui t (gOf x) imm)
  | 0x09 => some (.oris t (gOf x) (gOf y) imm)
  | 0x0A => some (.addpc t (gOf x) imm)
  | 0x0C => some (.addiw t (gOf x) (gOf y) imm)
  | 0x0B => shiOf t (gOf x) (gOf y) (BitVec.ofNat 6 w) (bitsOf w 10 8)
  | 0x10 => some (.lb t (gOf x) (gOf y) imm)
  | 0x11 => some (.lbu t (gOf x) (gOf y) imm)
  | 0x12 => some (.lh t (gOf x) (gOf y) imm)
  | 0x13 => some (.lhu t (gOf x) (gOf y) imm)
  | 0x14 => some (.lw t (gOf x) (gOf y) imm)
  | 0x15 => some (.lwu t (gOf x) (gOf y) imm)
  | 0x16 => some (.ld t (gOf x) (gOf y) imm)
  | 0x17 => some (.ldq t (gOf x) (gOf y) imm)
  | 0x18 => some (.sb t (gOf x) (gOf y) imm)
  | 0x19 => some (.sh t (gOf x) (gOf y) imm)
  | 0x1A => some (.sw t (gOf x) (gOf y) imm)
  | 0x1B => some (.sd t (gOf x) (gOf y) imm)
  | 0x1C => some (.stq t (gOf x) (gOf y) imm)
  | 0x1D => some (.flw t (fOf x) (gOf y) imm)
  | 0x1E => some (.fld t (fOf x) (gOf y) imm)
  | 0x1F => some (.flq t (fOf x) (gOf y) imm)
  | 0x20 => some (.fsw t (fOf x) (gOf y) imm)
  | 0x21 => some (.fsd t (fOf x) (gOf y) imm)
  | 0x22 => some (.fsq t (fOf x) (gOf y) imm)
  | 0x23 => atomOf t (gOf x) (gOf y) (gOf z) fn
  | 0x24 => cmaintOf t (gOf y) fn
  | 0x28 => some (.beq t (gOf x) (gOf y) imm)
  | 0x29 => some (.bne t (gOf x) (gOf y) imm)
  | 0x2A => some (.blt t (gOf x) (gOf y) imm)
  | 0x2B => some (.bge t (gOf x) (gOf y) imm)
  | 0x2C => some (.bltu t (gOf x) (gOf y) imm)
  | 0x2D => some (.bgeu t (gOf x) (gOf y) imm)
  | 0x2E => some (.j t (BitVec.ofNat 26 w))
  | 0x2F => some (.jal t (BitVec.ofNat 26 w))
  | 0x30 => fprOf t x y z (BitVec.ofNat 2 (bitsOf w 10 9)) (BitVec.ofNat 3 (bitsOf w 8 6)) (bitsOf w 5 0)
  | 0x31 => some (.fmadd t (BitVec.ofNat 2 (bitsOf w 5 4)) (BitVec.ofNat 3 (bitsOf w 3 1)) (fOf x) (fOf y) (fOf z) (fOf (bitsOf w 10 6)))
  | 0x32 => some (.fmsub t (BitVec.ofNat 2 (bitsOf w 5 4)) (BitVec.ofNat 3 (bitsOf w 3 1)) (fOf x) (fOf y) (fOf z) (fOf (bitsOf w 10 6)))
  | 0x33 => some (.fnmadd t (BitVec.ofNat 2 (bitsOf w 5 4)) (BitVec.ofNat 3 (bitsOf w 3 1)) (fOf x) (fOf y) (fOf z) (fOf (bitsOf w 10 6)))
  | 0x34 => some (.fnmsub t (BitVec.ofNat 2 (bitsOf w 5 4)) (BitVec.ofNat 3 (bitsOf w 3 1)) (fOf x) (fOf y) (fOf z) (fOf (bitsOf w 10 6)))
  | 0x35 =>
    match fn with
    | 0 => some (.mvl t (gOf x) (gOf y))
    | 1 => some (.cml t (gOf x) (gOf y) (gOf z))
    | 2 => some (.fll t (gOf x) (gOf y))
    | _ => none
  | 0x36 =>
    let l1 := BitVec.ofNat 4 (bitsOf w 10 7)
    let l2 := BitVec.ofNat 4 (bitsOf w 6 3)
    match bitsOf w 2 0 with
    | 0 => some (.dadd t (gOf z) (gOf x) (gOf y) l1 l2)
    | 1 => some (.dsub t (gOf z) (gOf x) (gOf y) l1 l2)
    | 2 => some (.dcmp t (gOf z) (gOf x) (gOf y) l1 l2)
    | 3 => some (.dval t (gOf z) (gOf x) l1)
    | _ => none
  | 0x37 => some (.svc t imm)
  | 0x38 => sysOf t fn
  | 0x39 => some (.mfs t (gOf x) (BitVec.ofNat 12 w))
  | 0x3A => some (.mts t (gOf y) (BitVec.ofNat 12 w))
  | 0x3B => mmuOf t (gOf x) (gOf y) (gOf z) fn
  | _ => none

/-- The instruction a word stands for: none for a word that is not legal (R72). -/
def aisOf (t : Thr) (w : BitVec 32) : Option Instr := if legalWord w.toNat then rowOf t w.toNat else none

/-! The encoder of AIS words. -/

/-- The thread and the word of an instruction of AIS; none for a command that is no instruction of a core. -/
def aisWord : Instr → Option (Thr × Nat)
  | .add t w rd ra rb => some (t, encOpr w rd.val ra.val rb.val 0x000)
  | .sub t w rd ra rb => some (t, encOpr w rd.val ra.val rb.val 0x001)
  | .and t rd ra rb => some (t, encOpr false rd.val ra.val rb.val 0x002)
  | .or t rd ra rb => some (t, encOpr false rd.val ra.val rb.val 0x003)
  | .xor t rd ra rb => some (t, encOpr false rd.val ra.val rb.val 0x004)
  | .andn t rd ra rb => some (t, encOpr false rd.val ra.val rb.val 0x005)
  | .orn t rd ra rb => some (t, encOpr false rd.val ra.val rb.val 0x006)
  | .xnor t rd ra rb => some (t, encOpr false rd.val ra.val rb.val 0x007)
  | .sll t w rd ra rb => some (t, encOpr w rd.val ra.val rb.val 0x008)
  | .srl t w rd ra rb => some (t, encOpr w rd.val ra.val rb.val 0x009)
  | .sra t w rd ra rb => some (t, encOpr w rd.val ra.val rb.val 0x00A)
  | .ror t w rd ra rb => some (t, encOpr w rd.val ra.val rb.val 0x00B)
  | .slt t rd ra rb => some (t, encOpr false rd.val ra.val rb.val 0x00C)
  | .sltu t rd ra rb => some (t, encOpr false rd.val ra.val rb.val 0x00D)
  | .min t rd ra rb => some (t, encOpr false rd.val ra.val rb.val 0x00E)
  | .max t rd ra rb => some (t, encOpr false rd.val ra.val rb.val 0x00F)
  | .minu t rd ra rb => some (t, encOpr false rd.val ra.val rb.val 0x010)
  | .maxu t rd ra rb => some (t, encOpr false rd.val ra.val rb.val 0x011)
  | .cmovz t rd ra rb => some (t, encOpr false rd.val ra.val rb.val 0x012)
  | .cmovnz t rd ra rb => some (t, encOpr false rd.val ra.val rb.val 0x013)
  | .mul t w rd ra rb => some (t, encOpr w rd.val ra.val rb.val 0x020)
  | .mulh t rd ra rb => some (t, encOpr false rd.val ra.val rb.val 0x021)
  | .mulhu t rd ra rb => some (t, encOpr false rd.val ra.val rb.val 0x022)
  | .mulhsu t rd ra rb => some (t, encOpr false rd.val ra.val rb.val 0x023)
  | .div t w rd ra rb => some (t, encOpr w rd.val ra.val rb.val 0x028)
  | .divu t w rd ra rb => some (t, encOpr w rd.val ra.val rb.val 0x029)
  | .rem t w rd ra rb => some (t, encOpr w rd.val ra.val rb.val 0x02A)
  | .remu t w rd ra rb => some (t, encOpr w rd.val ra.val rb.val 0x02B)
  | .clz t w rd ra => some (t, encOpr w rd.val ra.val 0 0x030)
  | .ctz t w rd ra => some (t, encOpr w rd.val ra.val 0 0x031)
  | .popc t w rd ra => some (t, encOpr w rd.val ra.val 0 0x032)
  | .bswap t rd ra => some (t, encOpr false rd.val ra.val 0 0x033)
  | .sextb t rd ra => some (t, encOpr false rd.val ra.val 0 0x034)
  | .sexth t rd ra => some (t, encOpr false rd.val ra.val 0 0x035)
  | .zextw t rd ra => some (t, encOpr false rd.val ra.val 0 0x036)
  | .jalr t rd ra => some (t, encOpr false rd.val ra.val 0 0x038)
  | .crc32cb t rd ra rb => some (t, encOpr false rd.val ra.val rb.val 0x040)
  | .crc32cd t rd ra rb => some (t, encOpr false rd.val ra.val rb.val 0x041)
  | .addi t rd ra imm => some (t, encI 0x02 rd.val ra.val imm.toNat)
  | .andi t rd ra imm => some (t, encI 0x03 rd.val ra.val imm.toNat)
  | .ori t rd ra imm => some (t, encI 0x04 rd.val ra.val imm.toNat)
  | .xori t rd ra imm => some (t, encI 0x05 rd.val ra.val imm.toNat)
  | .slti t rd ra imm => some (t, encI 0x06 rd.val ra.val imm.toNat)
  | .sltiu t rd ra imm => some (t, encI 0x07 rd.val ra.val imm.toNat)
  | .oris t rd ra imm => some (t, encI 0x09 rd.val ra.val imm.toNat)
  | .addiw t rd ra imm => some (t, encI 0x0C rd.val ra.val imm.toNat)
  | .lui t rd imm => some (t, encI 0x08 rd.val 0 imm.toNat)
  | .addpc t rd imm => some (t, encI 0x0A rd.val 0 imm.toNat)
  | .slli t rd ra sh => some (t, encShi 0 rd.val ra.val sh.toNat)
  | .srli t rd ra sh => some (t, encShi 1 rd.val ra.val sh.toNat)
  | .srai t rd ra sh => some (t, encShi 2 rd.val ra.val sh.toNat)
  | .rori t rd ra sh => some (t, encShi 3 rd.val ra.val sh.toNat)
  | .slliw t rd ra sh => some (t, encShi 4 rd.val ra.val sh.toNat)
  | .srliw t rd ra sh => some (t, encShi 5 rd.val ra.val sh.toNat)
  | .sraiw t rd ra sh => some (t, encShi 6 rd.val ra.val sh.toNat)
  | .lb t rd ra disp => some (t, encI 0x10 rd.val ra.val disp.toNat)
  | .lbu t rd ra disp => some (t, encI 0x11 rd.val ra.val disp.toNat)
  | .lh t rd ra disp => some (t, encI 0x12 rd.val ra.val disp.toNat)
  | .lhu t rd ra disp => some (t, encI 0x13 rd.val ra.val disp.toNat)
  | .lw t rd ra disp => some (t, encI 0x14 rd.val ra.val disp.toNat)
  | .lwu t rd ra disp => some (t, encI 0x15 rd.val ra.val disp.toNat)
  | .ld t rd ra disp => some (t, encI 0x16 rd.val ra.val disp.toNat)
  | .ldq t rd ra disp => some (t, encI 0x17 rd.val ra.val disp.toNat)
  | .sb t rs ra disp => some (t, encI 0x18 rs.val ra.val disp.toNat)
  | .sh t rs ra disp => some (t, encI 0x19 rs.val ra.val disp.toNat)
  | .sw t rs ra disp => some (t, encI 0x1A rs.val ra.val disp.toNat)
  | .sd t rs ra disp => some (t, encI 0x1B rs.val ra.val disp.toNat)
  | .stq t rs ra disp => some (t, encI 0x1C rs.val ra.val disp.toNat)
  | .flw t fd ra disp => some (t, encI 0x1D fd.val ra.val disp.toNat)
  | .fld t fd ra disp => some (t, encI 0x1E fd.val ra.val disp.toNat)
  | .flq t fd ra disp => some (t, encI 0x1F fd.val ra.val disp.toNat)
  | .fsw t fs ra disp => some (t, encI 0x20 fs.val ra.val disp.toNat)
  | .fsd t fs ra disp => some (t, encI 0x21 fs.val ra.val disp.toNat)
  | .fsq t fs ra disp => some (t, encI 0x22 fs.val ra.val disp.toNat)
  | .lrsv t rd ra => some (t, encR 0x23 rd.val ra.val 0 0x000)
  | .stcd t rd ra rb => some (t, encR 0x23 rd.val ra.val rb.val 0x001)
  | .casd t rd ra rb => some (t, encR 0x23 rd.val ra.val rb.val 0x002)
  | .casq t rd ra rb => some (t, encR 0x23 rd.val ra.val rb.val 0x003)
  | .aadd t rd ra rb => some (t, encR 0x23 rd.val ra.val rb.val 0x004)
  | .swpd t rd ra rb => some (t, encR 0x23 rd.val ra.val rb.val 0x005)
  | .aand t rd ra rb => some (t, encR 0x23 rd.val ra.val rb.val 0x006)
  | .aor t rd ra rb => some (t, encR 0x23 rd.val ra.val rb.val 0x007)
  | .clwb t ra => some (t, encR 0x24 0 ra.val 0 0x000)
  | .clflush t ra => some (t, encR 0x24 0 ra.val 0 0x001)
  | .clinv t ra => some (t, encR 0x24 0 ra.val 0 0x002)
  | .clzero t ra => some (t, encR 0x24 0 ra.val 0 0x003)
  | .prefr t ra => some (t, encR 0x24 0 ra.val 0 0x004)
  | .prefw t ra => some (t, encR 0x24 0 ra.val 0 0x005)
  | .icinv t ra => some (t, encR 0x24 0 ra.val 0 0x006)
  | .beq t ra rb disp => some (t, encI 0x28 ra.val rb.val disp.toNat)
  | .bne t ra rb disp => some (t, encI 0x29 ra.val rb.val disp.toNat)
  | .blt t ra rb disp => some (t, encI 0x2A ra.val rb.val disp.toNat)
  | .bge t ra rb disp => some (t, encI 0x2B ra.val rb.val disp.toNat)
  | .bltu t ra rb disp => some (t, encI 0x2C ra.val rb.val disp.toNat)
  | .bgeu t ra rb disp => some (t, encI 0x2D ra.val rb.val disp.toNat)
  | .j t disp => some (t, encJ 0x2E disp.toNat)
  | .jal t disp => some (t, encJ 0x2F disp.toNat)
  | .fadd t fmt rm fd fa fb => some (t, encF fd.val fa.val fb.val fmt.toNat rm.toNat 0x00)
  | .fsub t fmt rm fd fa fb => some (t, encF fd.val fa.val fb.val fmt.toNat rm.toNat 0x01)
  | .fmul t fmt rm fd fa fb => some (t, encF fd.val fa.val fb.val fmt.toNat rm.toNat 0x02)
  | .fdiv t fmt rm fd fa fb => some (t, encF fd.val fa.val fb.val fmt.toNat rm.toNat 0x03)
  | .fsqrt t fmt rm fd fa => some (t, encF fd.val fa.val 0 fmt.toNat rm.toNat 0x04)
  | .fmin t fmt fd fa fb => some (t, encF fd.val fa.val fb.val fmt.toNat 0 0x05)
  | .fmax t fmt fd fa fb => some (t, encF fd.val fa.val fb.val fmt.toNat 0 0x06)
  | .fminn t fmt fd fa fb => some (t, encF fd.val fa.val fb.val fmt.toNat 0 0x07)
  | .fmaxn t fmt fd fa fb => some (t, encF fd.val fa.val fb.val fmt.toNat 0 0x08)
  | .fneg t fmt fd fa => some (t, encF fd.val fa.val 0 fmt.toNat 0 0x09)
  | .fabs t fmt fd fa => some (t, encF fd.val fa.val 0 fmt.toNat 0 0x0A)
  | .fcpys t fmt fd fa fb => some (t, encF fd.val fa.val fb.val fmt.toNat 0 0x0B)
  | .fceq t fmt rd fa fb => some (t, encF rd.val fa.val fb.val fmt.toNat 0 0x0C)
  | .fclt t fmt rd fa fb => some (t, encF rd.val fa.val fb.val fmt.toNat 0 0x0D)
  | .fcle t fmt rd fa fb => some (t, encF rd.val fa.val fb.val fmt.toNat 0 0x0E)
  | .fcun t fmt rd fa fb => some (t, encF rd.val fa.val fb.val fmt.toNat 0 0x0F)
  | .fclass t fmt rd fa => some (t, encF rd.val fa.val 0 fmt.toNat 0 0x10)
  | .frint t fmt rm fd fa => some (t, encF fd.val fa.val 0 fmt.toNat rm.toNat 0x11)
  | .fcvt t fmt rm fd fa src => some (t, encF fd.val fa.val src.toNat fmt.toNat rm.toNat 0x12)
  | .fcvtis t fmt rm rd fa => some (t, encF rd.val fa.val 0 fmt.toNat rm.toNat 0x13)
  | .fcvtiu t fmt rm rd fa => some (t, encF rd.val fa.val 0 fmt.toNat rm.toNat 0x14)
  | .fcvtsi t fmt rm fd ra => some (t, encF fd.val ra.val 0 fmt.toNat rm.toNat 0x15)
  | .fcvtui t fmt rm fd ra => some (t, encF fd.val ra.val 0 fmt.toNat rm.toNat 0x16)
  | .fmvgf t fmt rd fa => some (t, encF rd.val fa.val 0 fmt.toNat 0 0x17)
  | .fmvfg t fmt fd ra => some (t, encF fd.val ra.val 0 fmt.toNat 0 0x18)
  | .fmadd t fmt rm fd fa fb fc => some (t, encF4 0x31 fd.val fa.val fb.val fc.val fmt.toNat rm.toNat)
  | .fmsub t fmt rm fd fa fb fc => some (t, encF4 0x32 fd.val fa.val fb.val fc.val fmt.toNat rm.toNat)
  | .fnmadd t fmt rm fd fa fb fc => some (t, encF4 0x33 fd.val fa.val fb.val fc.val fmt.toNat rm.toNat)
  | .fnmsub t fmt rm fd fa fb fc => some (t, encF4 0x34 fd.val fa.val fb.val fc.val fmt.toNat rm.toNat)
  | .mvl t rd ra => some (t, encR 0x35 rd.val ra.val 0 0x000)
  | .cml t rd ra rb => some (t, encR 0x35 rd.val ra.val rb.val 0x001)
  | .fll t rd ra => some (t, encR 0x35 rd.val ra.val 0 0x002)
  | .dadd t rd ra rb l1 l2 => some (t, encD ra.val rb.val rd.val l1.toNat l2.toNat 0)
  | .dsub t rd ra rb l1 l2 => some (t, encD ra.val rb.val rd.val l1.toNat l2.toNat 1)
  | .dcmp t rd ra rb l1 l2 => some (t, encD ra.val rb.val rd.val l1.toNat l2.toNat 2)
  | .dval t rd ra l1 => some (t, encD ra.val 0 rd.val l1.toNat 0 3)
  | .svc t imm => some (t, encI 0x37 0 0 imm.toNat)
  | .sync t => some (t, encR 0x38 0 0 0 0x000)
  | .drain t => some (t, encR 0x38 0 0 0 0x001)
  | .fbar t => some (t, encR 0x38 0 0 0 0x002)
  | .synci t => some (t, encR 0x38 0 0 0 0x003)
  | .retl t => some (t, encR 0x38 0 0 0 0x010)
  | .wait t => some (t, encR 0x38 0 0 0 0x011)
  | .brk t => some (t, encR 0x38 0 0 0 0x012)
  | .pause t => some (t, encR 0x38 0 0 0 0x014)
  | .mfs t rd n => some (t, encI 0x39 rd.val 0 n.toNat)
  | .mts t ra n => some (t, encI 0x3A 0 ra.val n.toNat)
  | .tlbwr t ra rb => some (t, encR 0x3B 0 ra.val rb.val 0x000)
  | .twalk t rd ra rb => some (t, encR 0x3B rd.val ra.val rb.val 0x002)
  | .tlbiVa t ra rb => some (t, encR 0x3B 0 ra.val rb.val 0x010)
  | .tlbiVaB t ra rb => some (t, encR 0x3B 0 ra.val rb.val 0x011)
  | .wciVa t ra rb => some (t, encR 0x3B 0 ra.val rb.val 0x018)
  | .wciVaB t ra rb => some (t, encR 0x3B 0 ra.val rb.val 0x019)
  | .tlbiTag t rb => some (t, encR 0x3B 0 0 rb.val 0x012)
  | .tlbiTagB t rb => some (t, encR 0x3B 0 0 rb.val 0x013)
  | .wciTag t rb => some (t, encR 0x3B 0 0 rb.val 0x01A)
  | .wciTagB t rb => some (t, encR 0x3B 0 0 rb.val 0x01B)
  | .tlbiAll t => some (t, encR 0x3B 0 0 0 0x014)
  | .tlbiAllB t => some (t, encR 0x3B 0 0 0 0x015)
  | .wciAll t => some (t, encR 0x3B 0 0 0 0x01C)
  | .wciAllB t => some (t, encR 0x3B 0 0 0 0x01D)
  | _ => none

end Sys2Proof.Machine
end

