-- ==== Sys2Proof/Config.lean ====
section
/-! DEFINITION. What one implementation fixes and the spec leaves open. Each constant is opaque: nothing in Lean can evaluate it or prove a value of it, so every statement holds whatever it is. -/

namespace Sys2Proof

/-- The free values: applied to the counter `State.fresh`, one value for each use (DESIGN CHOICE, notes/assumptions/1.md). They stand for choices the spec leaves to the device: a replacement victim of a pseudo-LRU set (R208), which micro-TLB entry leaves (R163), the order of two concurrent events (R107). -/
opaque Config.freeNat : Nat → Nat

/-- The walk cache's set hash of EA, "which this manual does not define" (R174). -/
opaque Config.walkHash : Nat → Nat

/-- Which dwords of an expander's configuration space (first argument 0) or bytes of its register BAR (1) hold the HDM decoder, the BARs the Root link assigned or the link control of R267: the expander's capability layout, which the spec leaves to the device. -/
opaque Config.rootProtected : Nat → Nat → Bool

/-- The credits, in slots, that a Grove port grants per virtual channel at step 5 of training (R237, R254): the spec gives no number. (DEDUCED, notes/assumptions/69.md.) -/
opaque Config.grvCredits : Nat → Nat

/-- The bytes of the Twig ROM beside its two stubs (R368), by address: the spec states only the stubs. (DESIGN CHOICE, notes/assumptions/47.md.) -/
opaque Config.twigRom : Nat → BitVec 8

/-- A Stand's voltage, in mV, for a frequency in units of 25 MHz: its fused voltage-frequency curve with the guard band of the TUNE record (R498); the spec gives no points of a curve and no register of the guard band. -/
opaque Config.vfCurve : Nat → Nat → Nat

/-- The fused maximum of a Stand's voltage, in mV (R498). -/
opaque Config.vMax : Nat → Nat

/-- Bytes of the I3C target's own registers that the MIPI specification and the maker fix and this spec does not state (R506): by command (0 GETPID, 1 GETBCR, 2 GETDCR, 3 GETSTATUS, 4 GETMWL, 5 GETMRL) and byte. -/
opaque Config.i3cByte : Nat → Nat → BitVec 8

end Sys2Proof
end

