-- ==== Sys2Proof/Machine/Tab.lean ====
section
/-! DEFINITION. Sparse tables of plain data: sorted lists of key and value pairs in one canonical form, no entry equal to what an unlisted key reads as. Memory, registers and every indexed unit of the module are held in them. -/

namespace Sys2Proof.Machine

/-- A sparse table: keys strictly rising, no entry equal to the default of its key. -/
abbrev Tab (α : Type) := List (Nat × α)

namespace Tab

/-- Read a key; an unlisted key reads as the default `d`. -/
def get {α : Type} (d : Nat → α) : Tab α → Nat → α
  | [], k => d k
  | (j, v) :: t, k => if j = k then v else get d t k

/-- Put a pair at its place, over an older entry of the key. -/
def insert {α : Type} (k : Nat) (v : α) : Tab α → Tab α
  | [] => [(k, v)]
  | (j, w) :: t =>
    if k < j then (k, v) :: (j, w) :: t
    else if k = j then (k, v) :: t
    else (j, w) :: insert k v t

/-- Remove a key. -/
def erase {α : Type} (k : Nat) : Tab α → Tab α
  | [] => []
  | (j, w) :: t => if j = k then erase k t else (j, w) :: erase k t

/-- Write a key, keeping the canonical form: a value equal to the default removes the entry. -/
def set {α : Type} [DecidableEq α] (d : Nat → α) (t : Tab α) (k : Nat) (v : α) : Tab α :=
  if v = d k then erase k t else insert k v t

/-- Every key of the table lies above `k`. -/
def above {α : Type} (k : Nat) (t : Tab α) : Bool := t.all fun e => decide (k < e.1)

/-- The canonical form. -/
def wf {α : Type} [DecidableEq α] (d : Nat → α) : Tab α → Bool
  | [] => true
  | (k, v) :: t => above k t && decide (v ≠ d k) && wf d t

end Tab
end Sys2Proof.Machine
end

