-- ==== Sys2Proof/Machine/CoreTypes.lean ====
section
/-! DEFINITION. The state of one hardware thread and of one physical core (04_cores.md to 09_caches.md, R437). -/

namespace Sys2Proof.Machine

/-- A TLBI or WCI being performed (R176 to R178): function code of R96, operands, the cores of this module (bit c) that have not yet removed the entries, and for each thread of a target core the stores that must have drained, as a count of `Thread.popped`. -/
structure Bcast where
  fn : Nat
  ra : Word
  rb : Word
  cores : Nat
  drains : List (Nat × Nat)
  deriving DecidableEq, Repr

/-- What keeps a thread from issuing (R93, R122, R178). -/
inductive Wait where
  /-- The thread issues instructions. -/
  | none
  /-- A SYNC waits (R186). -/
  | sync
  /-- A SYNCI waits (R93). -/
  | synci
  /-- A DRAIN waits (R188). -/
  | drain
  /-- A WAIT waits for a pending interrupt (R93). -/
  | waitInt
  /-- A TLBI or WCI waits; `mods` are the modules (bit m) still to answer (R178). -/
  | inval (b : Bcast) (mods : Nat)
  deriving DecidableEq, Repr

/-- Whether a thread runs (R68, R116, R442, R443). -/
inductive Run where
  /-- Its core is in reset, or not yet released. -/
  | held
  | running
  /-- Stopped by a trap while MDT = 1 (R116). -/
  | stoppedTrap
  /-- Stopped because the fetch at M-base was refused (R121). -/
  | stoppedFetch
  /-- Stopped for a takeover, or after retries were exhausted (R442). -/
  | stoppedRetry
  /-- Stopped by an image that was lost (R443). -/
  | stoppedImage
  /-- Stopped by Windthrow (R466). -/
  | stoppedWind
  deriving DecidableEq, Repr

/-- What a store-buffer entry does when it reaches the head (R185, R190, R216). -/
inductive StoreKind where
  | mem | dev | clwb | clflush | clinv | clzero
  deriving DecidableEq, Repr

/-- One store-buffer entry: at most one 256-byte line of memory, or one device access (R104, R198). -/
structure StoreEnt where
  kind : StoreKind
  pa : Nat
  bytes : List Byte
  /-- The level the access carries (R109). -/
  lvl : Nat
  /-- The bytes are written with poison (R439). -/
  poison : Bool
  /-- The pc of the instruction that made it. -/
  pc : Word
  deriving DecidableEq, Repr

/-- One entry of a device-store tracker (R191). -/
structure TrkEnt where
  pa : Nat
  bytes : List Byte
  lvl : Nat
  /-- The value of `Thread.popped` when it left the store buffer. -/
  seq : Nat
  /-- A zero-length read sent to the port covers the write (R191). -/
  zlr : Bool
  /-- The transaction identifier of an MWR to another module (R241). -/
  tid : Option Nat
  deriving DecidableEq, Repr

/-- A device load of the instruction in progress: sent, and its value once it has returned (R189, R205). -/
structure DevLoad where
  pa : Nat
  size : Nat
  tid : Option Nat
  val : Option (BitVec 128)
  deriving DecidableEq, Repr

/-- The state of one thread: the registers of R69, the state registers of R99 by number, and what R104 and R437 name. -/
structure Thread where
  run : Run
  wait : Wait
  /-- g1 to g31 by number (R69). -/
  g : Tab Word
  /-- f0 to f31 by number (R69). -/
  f : Tab Word
  pc : Word
  /-- The state registers of R99 by number. -/
  sr : Tab Word
  /-- SIP.SSI and its last accepted sender (R122, R123). -/
  ssi : Option Nat
  /-- MIP.MSI and its last accepted sender (R122, R123). -/
  msi : Option Nat
  /-- MIP.MCI and the summary of the latest record that set it (R464). -/
  mci : Option Word
  /-- The S identifier queue, oldest first, and its overflow mark (R122). -/
  sq : List Nat
  sOvf : Bool
  /-- The M identifier queue, oldest first, and its overflow mark (R122). -/
  mq : List Nat
  mOvf : Bool
  /-- The reserved granule, a line address (R201). -/
  resv : Option Nat
  /-- While not 0 the core defers other agents' requests for the granule: the instructions a constrained loop may still hold (R203). -/
  defer : Nat
  /-- The store buffer, oldest first (R104). -/
  sb : List StoreEnt
  /-- Stores that have left the buffer (the model's own counter, for R178). -/
  popped : Nat
  /-- The device-store tracker, oldest first (R191). -/
  trk : List TrkEnt
  /-- Lines whose write-back an earlier CLWB or CLFLUSH owes (R216). -/
  wbs : List Nat
  /-- The device-failure state: the first failed address (R195). -/
  devFail : Option Nat
  /-- The device loads of the instruction in progress, in order (R199, R205). -/
  devLoad : List DevLoad
  /-- Retries since the last completed instruction (R441). -/
  retries : Nat
  /-- Takeover resume pending: the core left and the summary of the takeover record (R130, R462). -/
  tkoPend : Option (Nat × Word)
  /-- Retry-exhausted notifications pending: logical core and record summary (R132, R462). -/
  rexPend : List (Nat × Word)
  /-- A Windthrow warning is pending (R120). -/
  wtwPend : Bool
  /-- The thread came back below M with a floating-point trap pending, which is due at its next boundary (R127). -/
  fpDue : Bool
  deriving DecidableEq, Repr

/-- One entry of a cache's tags: a line address in a way (R208). -/
structure CacheEnt where
  line : Nat
  way : Nat
  deriving DecidableEq, Repr

/-- One TLB entry (R164). -/
structure TlbEnt where
  /-- SIZE: 0 4 KiB, 1 64 KiB, 2 2 MiB, 3 1 GiB, 4 512 GiB. -/
  size : Nat
  /-- VA[56:s] at the entry's page size 2^s. -/
  vpn : Nat
  tag : Nat
  g : Bool
  /-- The page base. -/
  pa : Nat
  d : Bool
  a : Bool
  us : Bool
  ex : Bool
  wr : Bool
  rd : Bool
  deriving DecidableEq, Repr

/-- One walk-cache entry (R171, R174). -/
structure WalkEnt where
  tag : Nat
  level : Nat
  ea : Nat
  /-- ra[56 : 12 + 9 × LEVEL]. -/
  va : Nat
  entry : Word
  deriving DecidableEq, Repr

/-- The state of one physical core beside its threads and registers. -/
structure Core where
  /-- The core is held in reset (R43, R63). -/
  held : Bool
  l1i : List CacheEnt
  l1d : List CacheEnt
  l2 : List CacheEnt
  /-- The prefetch side buffer, oldest first (R213). -/
  side : List Nat
  /-- The TLB, most recently used first (R163). -/
  tlb : List TlbEnt
  /-- The two micro-TLBs (R163). -/
  utlbI : List TlbEnt
  utlbD : List TlbEnt
  /-- The walk cache, most recently used first (R174). -/
  wc : List WalkEnt
  /-- Corrected errors per way of the L1I and the L1D in the current window (R219). -/
  l1iCnt : Tab Nat
  l1dCnt : Tab Nat
  /-- Ways a disable is in progress for (R219): cache (0 L1I, 1 L1D, 2 L2, 3 the L3 slice beside the core) × 16 + way. -/
  disabling : List Nat
  /-- Retries of the core in the current window (R444). -/
  retryWin : Nat
  /-- `State.uptime` at the last completed self-test pass (R457). -/
  passAt : Option Nat
  deriving DecidableEq, Repr

end Sys2Proof.Machine
end

