-- ==== Sys2Proof/Machine/CohTypes.lean ====
section
/-! DEFINITION. The state of the coherence machinery: lines, Canopy, the home agent, Grove ports and Root links (10_coherence.md, 11_memory.md). -/

namespace Sys2Proof.Machine

/-- The state of a line in this module's L3, which is the module's state toward the Grove (R227, R242). -/
inductive LineSt where
  | i | s | e | m | isd | imd | sma | mia
  deriving DecidableEq, Repr

/-- One line of this module's L3: state, presence vector, way, data, poison (R210, R273). Cores that hold the line share this one copy of its data. (DESIGN CHOICE, notes/assumptions/15.md.) -/
structure Line where
  st : LineSt
  /-- Bit c: physical core c holds the line (R210). -/
  pres : Nat
  way : Nat
  data : LineData
  poison : Bool
  /-- The last request for the line ended in ERR with this ST (R236), not yet consumed; 0 none. -/
  err : Nat
  deriving DecidableEq, Repr

/-- The STATE of a Canopy entry (R246); `bad` stands for the values 4 to 7 that are never written. -/
inductive CanSt where
  | inv | sh | ex | pnd | bad
  deriving DecidableEq, Repr

/-- One Canopy entry (R246); its ECC word is left to the error events. -/
structure CanEnt where
  st : CanSt
  tag : Nat
  pres : Nat
  owner : Nat
  deriving DecidableEq, Repr

/-- A message of the Grove (R234): header fields and payload. -/
structure Msg where
  opc : Nat
  src : Nat
  dst : Nat
  rqm : Nat
  tid : Nat
  rtid : Nat
  st : Nat
  psn : Bool
  rly : Bool
  part : Nat
  la : Nat
  aux : Nat
  line : Option LineData
  w0 : Word
  w1 : Word
  deriving DecidableEq, Repr

/-- The states a request passes at the ordering point (R243). -/
inductive HomeSt where
  | hq | hs | hm | hc
  deriving DecidableEq, Repr

/-- One tracker entry of a home agent section (R231, R232, R243). -/
structure HomeTx where
  line : Nat
  /-- The request's opcode (R235). -/
  opc : Nat
  /-- The requesting module; SELF for a request of this module. -/
  src : Nat
  tid : Nat
  part : Nat
  /-- The thread a local request serves, if any. -/
  thr : Option Nat
  st : HomeSt
  /-- Modules whose snoop response, INVACK or PACK is awaited. -/
  wait : Nat
  /-- The data gathered for the requester, with its poison. -/
  data : Option (LineData × Bool)
  /-- Another module's owner supplies the requester directly (R233). -/
  direct : Bool
  /-- The state granted: 1 S, 2 E, 3 M (R236). -/
  grant : Nat
  /-- The other modules that still hold the line when the request ends. -/
  keep : Nat
  /-- The Canopy entry (set × 16 + way) whose eviction the request waits for (R247). -/
  evict : Option Nat
  /-- A memory read for the line is outstanding. -/
  rdWait : Bool
  /-- The memory read found no data (R274). -/
  dead : Bool
  /-- CMACK ST 1 has been sent. -/
  acked : Bool
  deriving DecidableEq, Repr

/-- What an outstanding transaction of this module is for (R237, R241). -/
inductive OutKind where
  /-- A coherent request for a line homed elsewhere. -/
  | coh (opc : Nat)
  /-- A CLWB, CLFLUSH or CLINV of a thread. -/
  | cmo (opc : Nat) (thr : Nat)
  /-- A remote register read of a thread. -/
  | mrd (thr : Nat)
  /-- A remote register write of a thread. -/
  | mwr (thr : Nat)
  /-- A broadcast of a thread. -/
  | tlbb (thr : Nat)
  deriving DecidableEq, Repr

/-- An outstanding transaction of this module, by its TID (R237). -/
structure OutTx where
  tid : Nat
  dst : Nat
  line : Nat
  part : Nat
  /-- The thread the transaction serves, if any. -/
  thr : Option Nat
  kind : OutKind
  deriving DecidableEq, Repr

/-- A set purge in progress (R248): set, modules whose PACK is awaited. -/
structure Purge where
  set : Nat
  wait : Nat
  deriving DecidableEq, Repr

/-- The content of a flit that the retry buffer keeps (R252, R253). -/
inductive FlitBody where
  | msg (m : Msg)
  | relayed (first final pseq pack : Nat) (m : Option Msg)
  | wthrow
  deriving DecidableEq, Repr

/-- A flit of a retry buffer (R253). (DESIGN CHOICE, notes/assumptions/70.md.) -/
structure Flit where
  lseq : Nat
  body : FlitBody
  deriving DecidableEq, Repr

/-- A control flit sent without retry (R252, R253, R258). -/
inductive CtlFlit where
  | nak (lseq : Nat)
  | resume (port lseq : Nat)
  deriving DecidableEq, Repr

/-- The state of one Grove port beside its registers (R251 to R259). -/
structure GPort where
  /-- LSEQ of the next new flit. -/
  txSeq : Nat
  /-- LSEQ of the next flit expected. -/
  rxSeq : Nat
  /-- The retry buffer, oldest first (R253). -/
  buf : List Flit
  /-- Flits waiting for room in the retry buffer, oldest first. -/
  waitQ : List FlitBody
  /-- Control flits sent, latest first. -/
  ctl : List CtlFlit
  /-- Slots sent per virtual channel whose credits have not returned (R237). -/
  cred : Tab Nat
  /-- Replays of the oldest flit without progress (R253). -/
  replays : Nat
  /-- Quick retrains failed in succession (R257). -/
  qrFail : Nat
  /-- Buckets carried, bit b (R251). -/
  buckets : Nat
  /-- Not empty: the port was lost and the RESUME of its other end has not arrived (R258). -/
  resumeFor : List Nat
  deriving DecidableEq, Repr

/-- The state kept for one other module of the Grove (R251, R258, R260). -/
structure Peer where
  /-- Pair sequence of the next relayed flit sent, and of the next expected. -/
  ptx : Nat
  prx : Nat
  /-- The pair retry buffer (R258). -/
  pbuf : List Flit
  /-- Messages stalled while no path exists (R260). -/
  stalled : List Msg
  severed : Bool
  deriving DecidableEq, Repr

/-- An outstanding CXL.mem write (R269): device address of the line, data, poison. -/
structure RootWr where
  la : Nat
  data : LineData
  poison : Bool
  deriving DecidableEq, Repr

/-- The state of one Root link beside its registers (R264 to R278). -/
structure RootLink where
  /-- The link's reset output is asserted (R503). -/
  rst : Bool
  /-- Outstanding reads, by device address of the line. -/
  rds : List Nat
  /-- Outstanding writes, oldest first. -/
  wrs : List RootWr
  /-- The first read after the link left service has been logged (R274). -/
  logged : Bool
  /-- The next device line patrol scrub reads (R277). -/
  scrub : Nat
  /-- While training: the STATE to return to when a retrain ends (R275), 2 or 3; 7 for a training after a failure or a hold; 0 for the first. In states 6 and 7: the STATE to enter. -/
  back : Nat
  /-- Outstanding reads that repeat a read of the mirror partner that gave no good data (R272). -/
  fix : List Nat
  /-- Patrol scrub has completed its present pass of the link (R277). -/
  swept : Bool
  /-- The configuration access in progress (R267). -/
  cfg : Bool
  deriving DecidableEq, Repr

/-- Another module's TLBB that this module performs (R241): the requester, its TID, and the invalidation. -/
structure InBcast where
  src : Nat
  tid : Nat
  part : Nat
  b : Bcast
  deriving DecidableEq, Repr

end Sys2Proof.Machine
end

