-- ==== Sys2Proof/Machine/GladeTypes.lean ====
section
/-! DEFINITION. The state of a Glade beside its registers: slices, tracts, operations, completion rings, Twig engines and their tasks, movers, the jobs of the column engine and of Bark, and the keystore (12_glades.md to 16_bark.md). -/

namespace Sys2Proof.Machine

/-- A valid DMA window (R300). -/
structure DmaWin where
  base : Nat
  limit : Nat
  xoff : Nat
  rd : Bool
  wr : Bool
  log : Bool
  deriving DecidableEq, Repr

/-- A completion record waiting for its slot: the operation's handle, and all of R312 that does not depend on the slot. -/
structure CRec where
  handle : Nat
  tag : Nat
  tract : Nat
  status : Nat
  reissued : Bool
  gen : Nat
  cls : Nat
  done : Nat
  devstat : Nat
  irq : Bool
  deriving DecidableEq, Repr

/-- A loaded completion ring (R310, R311). -/
structure CRing where
  base : Nat
  log2 : Nat
  ien : Bool
  mlevel : Bool
  thread : Nat
  coal : Nat
  ctime : Nat
  tail : Nat
  head : Nat
  phase : Bool
  /-- Records written since the last interrupt (R313). -/
  since : Nat
  /-- The ring stopped on a write failure (R311). -/
  stopped : Bool
  deriving DecidableEq, Repr

/-- An open or closing tract (R304). -/
structure Tract where
  closing : Bool
  sqBase : Nat
  log2 : Nat
  cq : Nat
  /-- [2:1] port, [0] half. -/
  port : Nat
  eng : Nat
  order : Bool
  qid : Nat
  tparam : List Byte
  head : Nat
  tail : Nat
  /-- The Twig task that holds the tract (R359). -/
  task : Option Nat
  deriving DecidableEq, Repr

/-- A slice beside its registers. -/
structure Slice where
  wins : Tab (Option DmaWin)
  rings : Tab (Option CRing)
  /-- By tract index. -/
  tracts : Tab (Option Tract)
  /-- The slice command in progress: OP and ARG (R294). -/
  cmd : Option (Nat × Nat)
  /-- Generations whose last departure lies less than 2 × OPTMO back (R296). -/
  left : List Nat
  /-- Records that wait for a slot, in order, by ring (R311). -/
  recs : List (Nat × CRec)
  /-- RESTORES of the slice header (R299). -/
  restores : Nat
  deriving DecidableEq, Repr

/-- How far an operation has got, by its last Ledger entry (R326). -/
inductive OpStage where
  | fetched
  /-- Replay has written its ISSUED entry; no task has it yet (R333, R334). -/
  | ready
  | issued | ended
  /-- RECORDED with STATUS 0x0B in this slot, not yet consumed (R336). -/
  | doubt (slot : Nat)
  deriving DecidableEq, Repr

/-- A live operation of a Glade (R327, R371). -/
structure GOp where
  handle : Nat
  slice : Nat
  /-- Tract index within the slice. -/
  tract : Nat
  /-- GEN of its last ISSUED entry; before that, of its fetch (R297). -/
  gen : Nat
  sqidx : Nat
  /-- Its GCWs, 32 bytes each. -/
  gcws : List (List Byte)
  /-- SEQ of its FETCHED entry. -/
  fseq : Nat
  stage : OpStage
  attempt : Nat
  reissued : Bool
  /-- Status of its first failed segment (R302); 0 none. -/
  fail : Nat
  /-- The end decided for it: STATUS, DONE, DEVSTAT, whose ENDED entry is still to be written. -/
  pend : Option (Nat × Nat × Nat)
  /-- The end comes from the hub, so firmware's own post is discarded (R318, R338). -/
  hub : Bool
  deriving DecidableEq, Repr

/-- An event record of a Twig task (R361): 8 bytes, byte 0 the kind. -/
structure TwigEvent where
  kind : Nat
  bytes : List Byte
  deriving DecidableEq, Repr

/-- A port request a task's window access waits for (R346, R375). -/
structure TwigStall where
  wr : Bool
  /-- What a load writes at its end: a 16-bit register or a byte register, its number, and the byte of the register window it names; none for a store. -/
  ld : Option (Bool × Nat × Nat)
  /-- An instruction made the request, and completes with it. -/
  insn : Bool
  deriving DecidableEq, Repr

/-- A register bank of the Twig instruction set (R347, R349). -/
structure TwigBank where
  /-- d0 to d7 and ac0, ac1 by code 0 to 9. -/
  r : Tab Nat
  c0 : Bool
  c1 : Bool
  /-- a0 to a3. -/
  a : Tab Nat
  pc : Nat
  /-- The window latch and the register it is tagged with (R346). -/
  latch : Nat
  tag : Option Nat
  deriving DecidableEq, Repr

/-- A task of a Twig engine (R359). -/
structure TwigTask where
  /-- ST of tsr: 0 free, 1 ready, 2 waiting, 3 trapped, 4 filling. -/
  st : Nat
  cause : Nat
  /-- The tract it holds: slice and tract index. -/
  tract : Option (Nat × Nat)
  bank : TwigBank
  resident : Bool
  /-- The spilled image holds an uncorrectable error (R365). -/
  bad : Bool
  /-- The mask of the wait it is in (R360). -/
  mask : Nat
  /-- Queued events, oldest first, and those held at their sources (R362). -/
  evq : List TwigEvent
  held : List TwigEvent
  opsel : Nat
  pdev : Nat
  /-- Microseconds left of the armed timer (R373); 0 not armed. -/
  timer : Nat
  xaddr : Nat
  xdata : Nat
  paddr : Nat
  pdata : Nat
  pstat : Nat
  stall : Option TwigStall
  /-- Inside its first instruction after a fill (R365). -/
  filled : Bool
  deriving DecidableEq, Repr

/-- A trap held for task 0 (R367, R368). -/
structure TwigTrap where
  task : Nat
  code : Nat
  info : Nat
  pc : Nat
  addr : Nat
  deriving DecidableEq, Repr

/-- A Twig engine beside its registers (R343). -/
structure TwigEng where
  tasks : Tab TwigTask
  /-- Resident banks, most recently run first (R365). -/
  lru : List Nat
  /-- BWIN.WIN. -/
  win : Nat
  /-- Traps not yet taken by task 0. -/
  traps : List TwigTrap
  /-- The spilled bank that mfb or mtb of task 0 needs (R366). -/
  need : Option Nat
  local_ : Tab Byte
  mbox : Tab Byte
  /-- Aligned 8-byte words with an uncorrectable error, by address ÷ 8 (R355). -/
  bad : List Nat
  trapv : Nat
  workv : Nat
  /-- The two microcode stores, and microwords with an uncorrectable error (R381, R382). -/
  store0 : Tab (BitVec 24)
  store1 : Tab (BitVec 24)
  deriving DecidableEq, Repr

/-- A mover transfer, queued or running (R374). -/
structure MovXfer where
  mover : Nat
  eng : Nat
  task : Nat
  src : Nat
  dst : Nat
  len : Nat
  skind : Nat
  dkind : Nat
  port : Nat
  oph : Nat
  tag : Nat
  /-- Bytes moved so far. -/
  moved : Nat
  deriving DecidableEq, Repr

/-- What a finished column job writes at its end (R408). -/
structure ColResult where
  status : Nat
  detail : Nat
  inRows : Nat
  inBytes : Nat
  outBytes : Nat
  count : Nat
  sum : Nat
  /-- The token of an OUT_FULL (R406). -/
  token : Option (List Byte)
  deriving DecidableEq, Repr

/-- A column job, queued or running (R391, R392). -/
structure ColJob where
  slice : Nat
  queue : Nat
  oph : Nat
  gen : Nat
  desc : Nat
  eng : Nat
  task : Nat
  /-- The operation ended while the job was held (R411). -/
  abandoned : Bool
  /-- What the lane found; none until it has run. -/
  res : Option ColResult
  /-- The descriptor as read; empty where it could not be read. -/
  dbytes : List Byte
  deriving DecidableEq, Repr

/-- What a finished Bark job releases and writes at its end (R432, R434). -/
structure BarkResult where
  status : Nat
  detail : Nat
  /-- Output units in ascending order: slice offset and bytes. -/
  out : List (Nat × List Byte)
  tag : Option (Nat × List Byte)
  deriving DecidableEq, Repr

/-- A Bark job, queued or running (R424). -/
structure BarkJob where
  slice : Nat
  oph : Nat
  gen : Nat
  desc : Nat
  eng : Nat
  task : Nat
  abandoned : Bool
  res : Option BarkResult
  dbytes : List Byte
  /-- The slots whose keys the lane holds (R419). -/
  keys : List Nat
  deriving DecidableEq, Repr

/-- A Glade beside its registers. -/
structure GladeSt where
  slices : Tab Slice
  /-- Live operations in the order of their FETCHED entries. -/
  ops : List GOp
  movs : List MovXfer
  cols : List ColJob
  barks : List BarkJob
  shared : Tab Byte
  sharedBad : List Nat
  /-- Port halves whose reset output is asserted (R319). -/
  portRst : Nat
  deriving DecidableEq, Repr

/-- A keystore slot that holds a key (R415, R416). -/
structure KeySlot where
  k256 : Bool
  key : BitVec 256
  use : Nat
  label : Nat
  deriving DecidableEq, Repr

/-- The keystore beside its registers (R415, R420). -/
structure KeyStore where
  slots : Tab (Option KeySlot)
  /-- The private half of the device key pair. -/
  priv : BitVec 384
  deriving DecidableEq, Repr

end Sys2Proof.Machine
end

