-- ==== Sys2Proof/Machine/RecTypes.lean ====
section
/-! DEFINITION. Error records and the work items of the Forester's queues (R459, R476). -/

namespace Sys2Proof.Machine

/-- An error record (R459). An absent address, partition or thread stands for FLAGS.AV = 0, PART 0xFF and FLAGS.TV = 0. -/
structure Rec where
  rseq : Nat
  block : Nat
  inst : Nat
  cls : Nat
  typ : Nat
  time : Word
  addr : Option Nat
  part : Option Nat
  thread : Option Nat
  merged : Bool
  count : Nat
  detail : List Byte
  deriving DecidableEq, Repr

/-- An entry of a work queue (R476): a work item, and for classes 3 and 6 its record. -/
structure QEnt where
  work : Work
  rcd : Option Rec
  deriving DecidableEq, Repr

/-- A shadow-write entry of an image (R35), with its group, and the type and image offset of its record (R29). -/
structure ImgEnt where
  block : Nat
  inst : Nat
  off : Nat
  val : Word
  group : Nat
  typ : Nat
  roff : Nat
  deriving DecidableEq, Repr

/-- A load in progress (R41, R52). -/
structure LoadJob where
  /-- The load serves a LOAD_TILET (R58). -/
  svc : Bool
  /-- The staged length, for LOAD_TILET (R52 step 1). -/
  len : Option Nat
  /-- Verification has ended. -/
  verified : Bool
  serial : Nat
  /-- The image's root key, and the owner key of its DELEG record (R61). -/
  root : BitVec 768
  owner : Option (BitVec 768)
  ents : List ImgEnt
  /-- The groups still to commit, the one in its clearing first. -/
  groups : List Nat
  /-- The clearing of the first group has begun. -/
  going : Bool
  /-- The members that the clearing waits for, and those of them that have reported READY. -/
  live : List (Nat × Nat)
  ready : List (Nat × Nat)
  /-- COMMIT has been issued. -/
  commit : Bool
  /-- The group was aborted and retried once after a takeover of the Forester (R44). -/
  retried : Bool
  deriving DecidableEq, Repr

end Sys2Proof.Machine
end

