-- ==== Sys2Proof/Machine/Registers.lean ====
section
/-! DEFINITION. The catalogue of the memory-mapped registers: one named register per caption of the spec's chapters, its fields with access code and reset value (R4 to R13, R515). -/

namespace Sys2Proof.Machine

/-- The access codes of R8. -/
inductive Acc where
  | rw | ro | wo | w1c | rc | rws | rwl
  deriving DecidableEq, Repr

/-- A register: block code (R15), instance, offset in the block window (R515). -/
structure Reg where
  block : Nat
  inst : Nat
  off : Nat
  deriving DecidableEq, Repr

/-- A bit field: lowest bit and width. -/
structure Fld where
  lsb : Nat
  width : Nat
  deriving DecidableEq, Repr

/-- A field of a catalogue row: its bits, access code and reset value ("img", "fuse", "strap" and "—" stand as 0, R13). -/
structure FieldSpec where
  lsb : Nat
  width : Nat
  acc : Acc
  reset : Nat
  deriving DecidableEq, Repr

/-- A catalogue row: `count` registers at `base + i * stride` in the window of `block`. -/
structure RegSpec where
  name : String
  block : Nat
  base : Nat
  stride : Nat
  count : Nat
  fields : List FieldSpec
  deriving DecidableEq, Repr

/-- Number of instances of a block (R15); 0 for a code that names no block. -/
def blockCount : Nat → Nat
  | 0x01 => 72
  | 0x02 => 72
  | 0x03 => 1
  | 0x04 => 72
  | 0x05 => 72
  | 0x06 => 1
  | 0x07 => 1
  | 0x08 => 7
  | 0x09 => 16
  | 0x0A => 1
  | 0x0B => 1
  | 0x0C => 4
  | 0x0D => 8
  | 0x0E => 32
  | 0x0F => 4
  | 0x10 => 4
  | 0x11 => 4
  | 0x12 => 1
  | 0x13 => 1
  | 0x14 => 1
  | 0x15 => 1
  | 0x16 => 1
  | 0x17 => 1
  | _ => 0

/-- SVP_IDENT: module identity (00_scope.md, beside R4). -/
def SVP_IDENT : Reg := ⟨0x16, 0, 0x0⟩
def SVP_IDENT_PART : Fld := ⟨48, 16⟩
def SVP_IDENT_BIN : Fld := ⟨40, 8⟩
def SVP_IDENT_STEPMAJ : Fld := ⟨36, 4⟩
def SVP_IDENT_STEPMIN : Fld := ⟨32, 4⟩
def SVP_IDENT_UNIT : Fld := ⟨0, 32⟩

/-- TLT_STAT: loader state (02_tilet_image.md, beside R49). -/
def TLT_STAT : Reg := ⟨0x14, 0, 0x0⟩
def TLT_STAT_REJ : Fld := ⟨56, 8⟩
def TLT_STAT_GROUP : Fld := ⟨44, 12⟩
def TLT_STAT_PHASE : Fld := ⟨40, 4⟩
def TLT_STAT_BUSY : Fld := ⟨39, 1⟩
def TLT_STAT_DONE : Fld := ⟨38, 1⟩

/-- TLT_SERIAL: committed image serial (02_tilet_image.md, beside R49). -/
def TLT_SERIAL : Reg := ⟨0x14, 0, 0x8⟩
def TLT_SERIAL_SERIAL : Fld := ⟨0, 64⟩

/-- TLT_CMD: loader command (02_tilet_image.md, beside R49). -/
def TLT_CMD : Reg := ⟨0x14, 0, 0x10⟩
def TLT_CMD_OP : Fld := ⟨60, 4⟩
def TLT_CMD_BLOCK : Fld := ⟨8, 8⟩
def TLT_CMD_INST : Fld := ⟨0, 8⟩

/-- TLT_ERROFF: offending record (02_tilet_image.md, beside R49). -/
def TLT_ERROFF : Reg := ⟨0x14, 0, 0x18⟩
def TLT_ERROFF_OFFSET : Fld := ⟨0, 32⟩

/-- TLT_ACTSEL: active-value selector (02_tilet_image.md, beside R49). -/
def TLT_ACTSEL (i : Nat) : Reg := ⟨0x14, 0, 0x40 + 16 * i⟩
def TLT_ACTSEL_BLOCK_INST : Fld := ⟨48, 16⟩
def TLT_ACTSEL_OFF : Fld := ⟨0, 32⟩

/-- TLT_ACTVAL: active value (02_tilet_image.md, beside R49). -/
def TLT_ACTVAL (i : Nat) : Reg := ⟨0x14, 0, 0x48 + 16 * i⟩
def TLT_ACTVAL_VALUE : Fld := ⟨0, 64⟩

/-- SVP_STAT: start and command state (03_start.md, beside R55). -/
def SVP_STAT : Reg := ⟨0x16, 0, 0x8⟩
def SVP_STAT_STEP : Fld := ⟨60, 4⟩
def SVP_STAT_FAIL : Fld := ⟨52, 8⟩
def SVP_STAT_BUSY : Fld := ⟨51, 1⟩
def SVP_STAT_DONE : Fld := ⟨50, 1⟩
def SVP_STAT_OVR : Fld := ⟨49, 1⟩
def SVP_STAT_CLAIM : Fld := ⟨48, 1⟩
def SVP_STAT_LOCKDROP : Fld := ⟨32, 16⟩

/-- SVP_CMD: command (03_start.md, beside R55). -/
def SVP_CMD : Reg := ⟨0x16, 0, 0x10⟩
def SVP_CMD_OP : Fld := ⟨56, 8⟩
def SVP_CMD_TARGET : Fld := ⟨48, 8⟩
def SVP_CMD_LEN : Fld := ⟨0, 32⟩

/-- SVP_RESP: command result (03_start.md, beside R56). -/
def SVP_RESP : Reg := ⟨0x16, 0, 0x18⟩
def SVP_RESP_CODE : Fld := ⟨56, 8⟩
def SVP_RESP_OP : Fld := ⟨48, 8⟩
def SVP_RESP_RETRY : Fld := ⟨32, 16⟩
def SVP_RESP_DATA : Fld := ⟨0, 32⟩

/-- SVP_RADDR: forwarded register address (03_start.md, beside R56). -/
def SVP_RADDR : Reg := ⟨0x16, 0, 0x20⟩
def SVP_RADDR_BLOCK : Fld := ⟨56, 8⟩
def SVP_RADDR_INST : Fld := ⟨48, 8⟩
def SVP_RADDR_OFF : Fld := ⟨0, 32⟩

/-- SVP_RDATA: forwarded register data (03_start.md, beside R56). -/
def SVP_RDATA : Reg := ⟨0x16, 0, 0x28⟩
def SVP_RDATA_DATA : Fld := ⟨0, 64⟩

/-- MYC_IPI: inter-thread interrupt send (05_traps.md, beside R122). -/
def MYC_IPI : Reg := ⟨0x06, 0, 0x4000⟩
def MYC_IPI_LEVEL : Fld := ⟨8, 1⟩
def MYC_IPI_THREAD : Fld := ⟨0, 7⟩

/-- HWD_XLAT: translation configuration (07_translation.md, beside R168). -/
def HWD_XLAT (c : Nat) : Reg := ⟨0x02, c, 0x40⟩
def HWD_XLAT_BGRP : Fld := ⟨8, 8⟩
def HWD_XLAT_ADHW : Fld := ⟨0, 1⟩

/-- CORE_TMO: device-access timeout (08_ordering.md, beside R196). -/
def CORE_TMO (c : Nat) : Reg := ⟨0x01, c, 0x10⟩
def CORE_TMO_DTMO : Fld := ⟨0, 20⟩

/-- HWD_ATOM: 16-byte atomicity (08_ordering.md, beside R199). -/
def HWD_ATOM (c : Nat) : Reg := ⟨0x02, c, 0x48⟩
def HWD_ATOM_ATOM16 : Fld := ⟨0, 1⟩

/-- CORE_PF: hardware prefetch control (09_caches.md, beside R213). -/
def CORE_PF (c : Nat) : Reg := ⟨0x01, c, 0x18⟩
def CORE_PF_DIST : Fld := ⟨8, 5⟩
def CORE_PF_STRIDE : Fld := ⟨1, 1⟩
def CORE_PF_EN : Fld := ⟨0, 1⟩

/-- L2C_WAYTH: L1 and L2 way-disable thresholds (09_caches.md, beside R220). -/
def L2C_WAYTH (c : Nat) : Reg := ⟨0x04, c, 0x0⟩
def L2C_WAYTH_WIN : Fld := ⟨16, 4⟩
def L2C_WAYTH_THRESH : Fld := ⟨8, 4⟩
def L2C_WAYTH_MINWAYS : Fld := ⟨0, 4⟩

/-- L2C_WAYST: disabled ways (09_caches.md, beside R220). -/
def L2C_WAYST (c : Nat) : Reg := ⟨0x04, c, 0x8⟩
def L2C_WAYST_L2DIS : Fld := ⟨48, 16⟩
def L2C_WAYST_L1DDIS : Fld := ⟨40, 8⟩
def L2C_WAYST_L1IDIS : Fld := ⟨32, 8⟩
def L2C_WAYST_FLOOR : Fld := ⟨31, 1⟩

/-- L2C_CECNT: L2 corrected-error counts (09_caches.md, beside R220). -/
def L2C_CECNT (c : Nat) : Reg := ⟨0x04, c, 0x10⟩
def L2C_CECNT_CNT : Fld := ⟨0, 64⟩

/-- L3C_ALLOC: allocation mask (09_caches.md, beside R222). -/
def L3C_ALLOC (k p : Nat) : Reg := ⟨0x05, k, 0x100 + 8 * p⟩
def L3C_ALLOC_WAYS : Fld := ⟨0, 16⟩

/-- L3C_SEED: seed area (09_caches.md, beside R223). -/
def L3C_SEED (k : Nat) : Reg := ⟨0x05, k, 0x40⟩
def L3C_SEED_RELEASED : Fld := ⟨16, 1⟩
def L3C_SEED_EN : Fld := ⟨8, 1⟩
def L3C_SEED_NWAYS : Fld := ⟨0, 4⟩

/-- L3C_SEEDP: partition carve-out (09_caches.md, beside R223). -/
def L3C_SEEDP (k p : Nat) : Reg := ⟨0x05, k, 0x200 + 8 * p⟩
def L3C_SEEDP_LEN : Fld := ⟨56, 8⟩
def L3C_SEEDP_PABASE : Fld := ⟨20, 32⟩
def L3C_SEEDP_OFF : Fld := ⟨12, 8⟩

/-- CNP_STAT: Canopy status (10_coherence.md, beside R249). -/
def CNP_STAT : Reg := ⟨0x07, 0, 0x0⟩
def CNP_STAT_VALID : Fld := ⟨40, 24⟩
def CNP_STAT_BINV : Fld := ⟨24, 16⟩
def CNP_STAT_PURGE : Fld := ⟨16, 8⟩

/-- CNP_WAYST: disabled ways of bank b (10_coherence.md, beside R249). -/
def CNP_WAYST (b : Nat) : Reg := ⟨0x07, 0, 0x100 + 8 * b⟩
def CNP_WAYST_DIS : Fld := ⟨48, 16⟩
def CNP_WAYST_FLOOR : Fld := ⟨47, 1⟩

/-- CNP_CECNT: corrected errors of bank b (10_coherence.md, beside R249). -/
def CNP_CECNT (b : Nat) : Reg := ⟨0x07, 0, 0x200 + 8 * b⟩
def CNP_CECNT_CNT : Fld := ⟨0, 64⟩

/-- GRV_GROUP: Grove membership (10_coherence.md, beside R249). -/
def GRV_GROUP : Reg := ⟨0x08, 0, 0x800⟩
def GRV_GROUP_GID : Fld := ⟨48, 16⟩
def GRV_GROUP_MEMB : Fld := ⟨40, 8⟩
def GRV_GROUP_LIVE : Fld := ⟨32, 8⟩
def GRV_GROUP_SEVT : Fld := ⟨10, 10⟩
def GRV_GROUP_SELF : Fld := ⟨0, 3⟩

/-- GRV_PMAP: port map (10_coherence.md, beside R249). -/
def GRV_PMAP : Reg := ⟨0x08, 0, 0x808⟩
def GRV_PMAP_EN (p : Nat) : Fld := ⟨8 * p + 7, 1⟩
def GRV_PMAP_PEER (p : Nat) : Fld := ⟨8 * p + 0, 3⟩

/-- GRV_ROUTE: current routes (10_coherence.md, beside R249). -/
def GRV_ROUTE : Reg := ⟨0x08, 0, 0x810⟩
def GRV_ROUTE_REACH (m : Nat) : Fld := ⟨8 * m + 7, 1⟩
def GRV_ROUTE_DETOUR (m : Nat) : Fld := ⟨8 * m + 6, 1⟩
def GRV_ROUTE_VIA (m : Nat) : Fld := ⟨8 * m + 3, 3⟩
def GRV_ROUTE_PORT (m : Nat) : Fld := ⟨8 * m + 0, 3⟩

/-- GRV_STAT: port status (10_coherence.md, beside R257). -/
def GRV_STAT (p : Nat) : Reg := ⟨0x08, p, 0x0⟩
def GRV_STAT_STATE : Fld := ⟨60, 4⟩
def GRV_STAT_WIDTH : Fld := ⟨58, 2⟩
def GRV_STAT_GRP : Fld := ⟨56, 2⟩
def GRV_STAT_PEERMOD : Fld := ⟨53, 3⟩
def GRV_STAT_PEERPORT : Fld := ⟨50, 3⟩
def GRV_STAT_LANEOK : Fld := ⟨34, 16⟩

/-- GRV_ERR: port error counts (10_coherence.md, beside R257). -/
def GRV_ERR (p : Nat) : Reg := ⟨0x08, p, 0x8⟩
def GRV_ERR_CRCERR : Fld := ⟨48, 16⟩
def GRV_ERR_REPLAY : Fld := ⟨32, 16⟩
def GRV_ERR_QRETRAIN : Fld := ⟨24, 8⟩
def GRV_ERR_WIDTHDN : Fld := ⟨16, 8⟩
def GRV_ERR_FECUNC : Fld := ⟨0, 16⟩

/-- RTL_CTL: link control (11_memory.md, beside R267). -/
def RTL_CTL (n : Nat) : Reg := ⟨0x09, n, 0x0⟩
def RTL_CTL_MTMO : Fld := ⟨16, 16⟩
def RTL_CTL_REVIVE : Fld := ⟨2, 1⟩
def RTL_CTL_HOLD : Fld := ⟨1, 1⟩
def RTL_CTL_EN : Fld := ⟨0, 1⟩

/-- RTL_STAT: link status (11_memory.md, beside R267). -/
def RTL_STAT (n : Nat) : Reg := ⟨0x09, n, 0x8⟩
def RTL_STAT_STATE : Fld := ⟨60, 4⟩
def RTL_STAT_FAIL : Fld := ⟨56, 4⟩
def RTL_STAT_CAPQ : Fld := ⟨40, 16⟩

/-- RTL_ERR: link error counts (11_memory.md, beside R267). -/
def RTL_ERR (n : Nat) : Reg := ⟨0x09, n, 0x10⟩
def RTL_ERR_CORR : Fld := ⟨48, 16⟩
def RTL_ERR_POISON : Fld := ⟨32, 16⟩
def RTL_ERR_UNCORR : Fld := ⟨16, 16⟩
def RTL_ERR_TMO : Fld := ⟨0, 16⟩

/-- RTL_CFG: configuration access (11_memory.md, beside R267). -/
def RTL_CFG (n : Nat) : Reg := ⟨0x09, n, 0x18⟩
def RTL_CFG_DATA : Fld := ⟨32, 32⟩
def RTL_CFG_GO : Fld := ⟨31, 1⟩
def RTL_CFG_WR : Fld := ⟨30, 1⟩
def RTL_CFG_REG : Fld := ⟨2, 10⟩

/-- HOM_IL: interleave set (11_memory.md, beside R269). -/
def HOM_IL (i : Nat) : Reg := ⟨0x0A, 0, 0x100 + 8 * i⟩
def HOM_IL_EN : Fld := ⟨63, 1⟩
def HOM_IL_NLINK : Fld := ⟨58, 5⟩
def HOM_IL_GRAN : Fld := ⟨57, 1⟩
def HOM_IL_SIZE : Fld := ⟨16, 16⟩
def HOM_IL_BASE : Fld := ⟨0, 15⟩

/-- HOM_ILMAP: link list (11_memory.md, beside R269). -/
def HOM_ILMAP (i : Nat) : Reg := ⟨0x0A, 0, 0x180 + 8 * i⟩
def HOM_ILMAP_LINK (w : Nat) : Fld := ⟨4 * w + 0, 4⟩

/-- HOM_MIRROR: mirror pairs (11_memory.md, beside R271). -/
def HOM_MIRROR : Reg := ⟨0x0A, 0, 0x200⟩
def HOM_MIRROR_PAIR : Fld := ⟨0, 8⟩

/-- HOM_MSTAT: pair state (11_memory.md, beside R271). -/
def HOM_MSTAT (k : Nat) : Reg := ⟨0x0A, 0, 0x240 + 8 * k⟩
def HOM_MSTAT_STATE : Fld := ⟨60, 4⟩
def HOM_MSTAT_PROG : Fld := ⟨0, 34⟩

/-- HOM_SCRUB: patrol scrub (11_memory.md, beside R277). -/
def HOM_SCRUB : Reg := ⟨0x0A, 0, 0x300⟩
def HOM_SCRUB_PERIOD : Fld := ⟨56, 8⟩
def HOM_SCRUB_PASSES : Fld := ⟨32, 16⟩
def HOM_SCRUB_FOUND : Fld := ⟨16, 16⟩
def HOM_SCRUB_FIXED : Fld := ⟨0, 16⟩

/-- FBK_GRANT: grant entries 8j to 8j + 7 (11_memory.md, beside R280). -/
def FBK_GRANT (j : Nat) : Reg := ⟨0x0B, 0, 0x40000 + 8 * j⟩
def FBK_GRANT_V (e : Nat) : Fld := ⟨8 * e + 7, 1⟩
def FBK_GRANT_WR (e : Nat) : Fld := ⟨8 * e + 6, 1⟩
def FBK_GRANT_PART (e : Nat) : Fld := ⟨8 * e + 0, 4⟩

/-- FBK_DGRANT: device grants (11_memory.md, beside R280). -/
def FBK_DGRANT (p i : Nat) : Reg := ⟨0x0B, 0, 0x1000 + 32 * p + 8 * i⟩
def FBK_DGRANT_TGT : Fld := ⟨0, 64⟩

/-- FBK_VLOG: first refusal (11_memory.md, beside R285). -/
def FBK_VLOG : Reg := ⟨0x0B, 0, 0x0⟩
def FBK_VLOG_VALID : Fld := ⟨63, 1⟩
def FBK_VLOG_SRC : Fld := ⟨61, 2⟩
def FBK_VLOG_WRITE : Fld := ⟨60, 1⟩
def FBK_VLOG_PART : Fld := ⟨56, 4⟩
def FBK_VLOG_PA : Fld := ⟨0, 52⟩

/-- FBK_VCNT: refusal counts (11_memory.md, beside R285). -/
def FBK_VCNT : Reg := ⟨0x0B, 0, 0x8⟩
def FBK_VCNT_CORE : Fld := ⟨32, 32⟩
def FBK_VCNT_GLADE : Fld := ⟨16, 16⟩
def FBK_VCNT_GROVE : Fld := ⟨0, 16⟩

/-- GLD_PORT: port configuration (12_glades.md, beside R287). -/
def GLD_PORT (g p : Nat) : Reg := ⟨0x0C, g, 0x40 + 8 * p⟩
def GLD_PORT_PMASK : Fld := ⟨16, 16⟩
def GLD_PORT_MAXSPD : Fld := ⟨8, 4⟩
def GLD_PORT_BIF : Fld := ⟨2, 1⟩
def GLD_PORT_EN1 : Fld := ⟨1, 1⟩
def GLD_PORT_EN0 : Fld := ⟨0, 1⟩

/-- GLD_PST: port status (12_glades.md, beside R287). -/
def GLD_PST (g p h : Nat) : Reg := ⟨0x0C, g, 0x80 + 16 * p + 8 * h⟩
def GLD_PST_STATE : Fld := ⟨60, 4⟩
def GLD_PST_SPEED : Fld := ⟨56, 4⟩
def GLD_PST_WIDTH : Fld := ⟨52, 4⟩
def GLD_PST_FAILED : Fld := ⟨51, 1⟩
def GLD_PST_CORR : Fld := ⟨32, 16⟩
def GLD_PST_UNCORR : Fld := ⟨16, 16⟩
def GLD_PST_UR : Fld := ⟨0, 16⟩

/-- GLD_SLC_CTL: slice configuration (12_glades.md, beside R291). -/
def GLD_SLC_CTL (g s : Nat) : Reg := ⟨0x0C, g, 0x10000 + 32 * s⟩
def GLD_SLC_CTL_EN : Fld := ⟨63, 1⟩
def GLD_SLC_CTL_PART : Fld := ⟨56, 4⟩
def GLD_SLC_CTL_TBASE : Fld := ⟨40, 16⟩
def GLD_SLC_CTL_TCOUNT : Fld := ⟨23, 17⟩

/-- GLD_SLC_RES: slice resources (12_glades.md, beside R291). -/
def GLD_SLC_RES (g s : Nat) : Reg := ⟨0x0C, g, 0x10008 + 32 * s⟩
def GLD_SLC_RES_TASKS : Fld := ⟨32, 11⟩
def GLD_SLC_RES_NWIN : Fld := ⟨16, 5⟩
def GLD_SLC_RES_NCQ : Fld := ⟨8, 4⟩
def GLD_SLC_RES_COLQ : Fld := ⟨4, 3⟩
def GLD_SLC_RES_BARK : Fld := ⟨0, 1⟩

/-- GLD_SLC_CTX: slice context block (12_glades.md, beside R291). -/
def GLD_SLC_CTX (g s : Nat) : Reg := ⟨0x0C, g, 0x10010 + 32 * s⟩
def GLD_SLC_CTX_CTXPA : Fld := ⟨12, 40⟩

/-- GLD_SLC_CMD: slice command (12_glades.md, beside R293). -/
def GLD_SLC_CMD (g s : Nat) : Reg := ⟨0x0C, g, 0x100000 + 8192 * s⟩
def GLD_SLC_CMD_OP : Fld := ⟨60, 4⟩
def GLD_SLC_CMD_ARG : Fld := ⟨0, 32⟩

/-- GLD_SLC_CSTAT: slice command status (12_glades.md, beside R293). -/
def GLD_SLC_CSTAT (g s : Nat) : Reg := ⟨0x0C, g, 0x100008 + 8192 * s⟩
def GLD_SLC_CSTAT_BUSY : Fld := ⟨63, 1⟩
def GLD_SLC_CSTAT_RESULT : Fld := ⟨48, 8⟩
def GLD_SLC_CSTAT_BOUND : Fld := ⟨47, 1⟩
def GLD_SLC_CSTAT_GEN : Fld := ⟨32, 8⟩
def GLD_SLC_CSTAT_PID : Fld := ⟨0, 20⟩

/-- GLD_DB: tract doorbell (12_glades.md, beside R308). -/
def GLD_DB (g s : Nat) : Reg := ⟨0x0C, g, 0x101000 + 8192 * s⟩
def GLD_DB_TIDX : Fld := ⟨16, 16⟩
def GLD_DB_TAIL : Fld := ⟨0, 16⟩

/-- GLD_CQDB: completion ring head (12_glades.md, beside R311). -/
def GLD_CQDB (g s : Nat) : Reg := ⟨0x0C, g, 0x101008 + 8192 * s⟩
def GLD_CQDB_RING : Fld := ⟨16, 4⟩
def GLD_CQDB_HEAD : Fld := ⟨0, 16⟩

/-- GLD_SLC_EVT: slice events (12_glades.md, beside R313). -/
def GLD_SLC_EVT (g s : Nat) : Reg := ⟨0x0C, g, 0x100010 + 8192 * s⟩
def GLD_SLC_EVT_EN : Fld := ⟨31, 1⟩
def GLD_SLC_EVT_LEVEL : Fld := ⟨30, 1⟩
def GLD_SLC_EVT_THREAD : Fld := ⟨16, 7⟩
def GLD_SLC_EVT_CTXERR : Fld := ⟨7, 1⟩
def GLD_SLC_EVT_TIMEOUT : Fld := ⟨6, 1⟩
def GLD_SLC_EVT_FBREF : Fld := ⟨5, 1⟩
def GLD_SLC_EVT_CQERR : Fld := ⟨4, 1⟩
def GLD_SLC_EVT_GENDROP : Fld := ⟨3, 1⟩
def GLD_SLC_EVT_WINREF : Fld := ⟨2, 1⟩
def GLD_SLC_EVT_DBDROP : Fld := ⟨1, 1⟩
def GLD_SLC_EVT_RESTORED : Fld := ⟨0, 1⟩

/-- GLD_SLC_CNT: slice counters (12_glades.md, beside R313). -/
def GLD_SLC_CNT (g s : Nat) : Reg := ⟨0x0C, g, 0x100030 + 8192 * s⟩
def GLD_SLC_CNT_GENDROP : Fld := ⟨48, 16⟩
def GLD_SLC_CNT_DBDROP : Fld := ⟨32, 16⟩
def GLD_SLC_CNT_CQDROP : Fld := ⟨16, 16⟩
def GLD_SLC_CNT_WINREF : Fld := ⟨0, 16⟩

/-- GLD_SLC_DLCFG: dirty-log control (12_glades.md, beside R313). -/
def GLD_SLC_DLCFG (g s : Nat) : Reg := ⟨0x0C, g, 0x100018 + 8192 * s⟩
def GLD_SLC_DLCFG_EN : Fld := ⟨63, 1⟩
def GLD_SLC_DLCFG_ACT : Fld := ⟨62, 1⟩
def GLD_SLC_DLCFG_OVF : Fld := ⟨61, 1⟩
def GLD_SLC_DLCFG_SPAN : Fld := ⟨0, 16⟩

/-- GLD_SLC_DLPA: dirty-log buffer b (12_glades.md, beside R313). -/
def GLD_SLC_DLPA (g s b : Nat) : Reg := ⟨0x0C, g, 0x100020 + 8192 * s + 8 * b⟩
def GLD_SLC_DLPA_PA : Fld := ⟨12, 40⟩

/-- GLD_TMO: Glade timeouts (12_glades.md, beside R317). -/
def GLD_TMO (g : Nat) : Reg := ⟨0x0C, g, 0x8⟩
def GLD_TMO_OPTMO : Fld := ⟨0, 16⟩

/-- GLD_STAT: Glade state (12_glades.md, beside R318). -/
def GLD_STAT (g : Nat) : Reg := ⟨0x0C, g, 0x0⟩
def GLD_STAT_STATE : Fld := ⟨60, 4⟩
def GLD_STAT_RESETS : Fld := ⟨32, 16⟩

/-- LDG_RING: Ledger ring of slice s (13_ledger.md, beside R322). -/
def LDG_RING (g s : Nat) : Reg := ⟨0x0F, g, 0x10000 + 32 * s⟩
def LDG_RING_SIZE : Fld := ⟨60, 4⟩
def LDG_RING_BASE : Fld := ⟨12, 40⟩

/-- LDG_SEQ: next sequence number (13_ledger.md, beside R326). -/
def LDG_SEQ (g s : Nat) : Reg := ⟨0x0F, g, 0x10018 + 32 * s⟩
def LDG_SEQ_NEXTSEQ : Fld := ⟨0, 64⟩

/-- LDG_IDEM: reissuable command classes (13_ledger.md, beside R329). -/
def LDG_IDEM (g k : Nat) : Reg := ⟨0x0F, g, 0x100 + 8 * k⟩
def LDG_IDEM_CLS : Fld := ⟨0, 64⟩

/-- LDG_CTL: slice Ledger control (13_ledger.md, beside R330). -/
def LDG_CTL (g s : Nat) : Reg := ⟨0x0F, g, 0x10008 + 32 * s⟩
def LDG_CTL_ADOPT : Fld := ⟨1, 1⟩
def LDG_CTL_HALT : Fld := ⟨0, 1⟩

/-- LDG_LSTAT: slice Ledger status (13_ledger.md, beside R330). -/
def LDG_LSTAT (g s : Nat) : Reg := ⟨0x0F, g, 0x10010 + 32 * s⟩
def LDG_LSTAT_STATE : Fld := ⟨60, 4⟩
def LDG_LSTAT_LOST : Fld := ⟨59, 1⟩
def LDG_LSTAT_WERR : Fld := ⟨58, 1⟩

/-- COL_STAT: engine status (15_column_engine.md, beside R412). -/
def COL_STAT (g : Nat) : Reg := ⟨0x10, g, 0x0⟩
def COL_STAT_STATE : Fld := ⟨60, 4⟩
def COL_STAT_LANES : Fld := ⟨57, 3⟩
def COL_STAT_JOBS : Fld := ⟨32, 16⟩
def COL_STAT_VERIFY : Fld := ⟨24, 8⟩
def COL_STAT_BADDATA : Fld := ⟨16, 8⟩
def COL_STAT_UE : Fld := ⟨8, 8⟩
def COL_STAT_CE : Fld := ⟨0, 8⟩

/-- COL_QSTAT: queues of slice s (15_column_engine.md, beside R412). -/
def COL_QSTAT (g s : Nat) : Reg := ⟨0x10, g, 0x400 + 8 * s⟩
def COL_QSTAT_RUN (j : Nat) : Fld := ⟨8 * j + 7, 1⟩
def COL_QSTAT_DEPTH (j : Nat) : Fld := ⟨8 * j + 0, 5⟩

/-- KST_ATTR: attributes of slot i (16_bark.md, beside R415). -/
def KST_ATTR (i : Nat) : Reg := ⟨0x12, 0, 0x10000 + 8 * i⟩
def KST_ATTR_V : Fld := ⟨63, 1⟩
def KST_ATTR_K256 : Fld := ⟨62, 1⟩
def KST_ATTR_USE : Fld := ⟨32, 8⟩
def KST_ATTR_LABEL : Fld := ⟨0, 32⟩

/-- KST_OWNER: slot ownership for slots 8j to 8j + 7 (16_bark.md, beside R416). -/
def KST_OWNER (j : Nat) : Reg := ⟨0x12, 0, 0x1000 + 8 * j⟩
def KST_OWNER_V (e : Nat) : Fld := ⟨8 * e + 7, 1⟩
def KST_OWNER_PART (e : Nat) : Fld := ⟨8 * e + 0, 4⟩

/-- KST_STAT: keystore state (16_bark.md, beside R416). -/
def KST_STAT : Reg := ⟨0x12, 0, 0x0⟩
def KST_STAT_STATE : Fld := ⟨60, 4⟩
def KST_STAT_EPRDY : Fld := ⟨59, 1⟩
def KST_STAT_RNGF : Fld := ⟨58, 1⟩
def KST_STAT_LKERR : Fld := ⟨54, 4⟩
def KST_STAT_EPSER : Fld := ⟨32, 16⟩
def KST_STAT_LKENT : Fld := ⟨16, 13⟩
def KST_STAT_NVALID : Fld := ⟨0, 13⟩

/-- KST_EPUB: device public key (16_bark.md, beside R416). -/
def KST_EPUB (k : Nat) : Reg := ⟨0x12, 0, 0x40 + 8 * k⟩
def KST_EPUB_BYTES : Fld := ⟨0, 64⟩

/-- BRK_PG_KEY: key range of page s (16_bark.md, beside R416). -/
def BRK_PG_KEY (g s : Nat) : Reg := ⟨0x11, g, 0x1000 + 16 * s⟩
def BRK_PG_KEY_KCOUNT : Fld := ⟨32, 13⟩
def BRK_PG_KEY_KBASE : Fld := ⟨0, 12⟩

/-- BRK_PG_STAT: page counters (16_bark.md, beside R416). -/
def BRK_PG_STAT (g s : Nat) : Reg := ⟨0x11, g, 0x1008 + 16 * s⟩
def BRK_PG_STAT_JOBS : Fld := ⟨48, 16⟩
def BRK_PG_STAT_TAGFAIL : Fld := ⟨32, 16⟩
def BRK_PG_STAT_KEYERR : Fld := ⟨16, 16⟩
def BRK_PG_STAT_DEPTH : Fld := ⟨0, 5⟩

/-- BRK_STAT: engine status (16_bark.md, beside R436). -/
def BRK_STAT (g : Nat) : Reg := ⟨0x11, g, 0x0⟩
def BRK_STAT_STATE : Fld := ⟨60, 4⟩
def BRK_STAT_LANES : Fld := ⟨57, 3⟩
def BRK_STAT_JOBS : Fld := ⟨32, 16⟩
def BRK_STAT_FAULT : Fld := ⟨24, 8⟩
def BRK_STAT_UE : Fld := ⟨16, 8⟩

/-- HWD_PART: partition of a core (17_reliability.md, beside R444). -/
def HWD_PART (c : Nat) : Reg := ⟨0x02, c, 0x0⟩
def HWD_PART_PART : Fld := ⟨0, 4⟩

/-- HWD_ROLE: role and logical number (17_reliability.md, beside R444). -/
def HWD_ROLE (c : Nat) : Reg := ⟨0x02, c, 0x8⟩
def HWD_ROLE_ROLE : Fld := ⟨8, 2⟩
def HWD_ROLE_LCORE : Fld := ⟨0, 6⟩

/-- HWD_STAT: core reliability status (17_reliability.md, beside R444). -/
def HWD_STAT (c : Nat) : Reg := ⟨0x02, c, 0x10⟩
def HWD_STAT_RETRY : Fld := ⟨48, 16⟩
def HWD_STAT_CE : Fld := ⟨32, 16⟩
def HWD_STAT_SEQ : Fld := ⟨28, 4⟩

/-- FBK_MBASE: M-base of partition p (17_reliability.md, beside R444). -/
def FBK_MBASE (p : Nat) : Reg := ⟨0x0B, 0, 0x800 + 8 * p⟩
def FBK_MBASE_MBASE : Fld := ⟨12, 40⟩

/-- CPC_CTL: sparing policy (17_reliability.md, beside R447). -/
def CPC_CTL : Reg := ⟨0x03, 0, 0x0⟩
def CPC_CTL_APPWAIT : Fld := ⟨56, 8⟩
def CPC_CTL_DEFAULT : Fld := ⟨55, 1⟩
def CPC_CTL_SAMESTAND : Fld := ⟨54, 1⟩
def CPC_CTL_RRATE : Fld := ⟨40, 8⟩
def CPC_CTL_RWIN : Fld := ⟨36, 4⟩

/-- CPC_STAT: pool state (17_reliability.md, beside R447). -/
def CPC_STAT : Reg := ⟨0x03, 0, 0x8⟩
def CPC_STAT_SPARES : Fld := ⟨60, 4⟩
def CPC_STAT_ACTIVE : Fld := ⟨56, 4⟩
def CPC_STAT_TAKEOVER : Fld := ⟨32, 16⟩
def CPC_STAT_SPFAIL : Fld := ⟨16, 16⟩
def CPC_STAT_DECLINE : Fld := ⟨8, 8⟩

/-- CPC_REQ: oldest pending request (17_reliability.md, beside R447). -/
def CPC_REQ : Reg := ⟨0x03, 0, 0x10⟩
def CPC_REQ_VALID : Fld := ⟨63, 1⟩
def CPC_REQ_PREV : Fld := ⟨62, 1⟩
def CPC_REQ_REQID : Fld := ⟨48, 8⟩
def CPC_REQ_PCORE : Fld := ⟨32, 7⟩
def CPC_REQ_LCORE : Fld := ⟨24, 6⟩
def CPC_REQ_SPARE : Fld := ⟨16, 7⟩

/-- CPC_APP: decision (17_reliability.md, beside R447). -/
def CPC_APP : Reg := ⟨0x03, 0, 0x18⟩
def CPC_APP_DECIDE : Fld := ⟨62, 2⟩
def CPC_APP_REQID : Fld := ⟨48, 8⟩

/-- CPC_HEALTH: health report (17_reliability.md, beside R457). -/
def CPC_HEALTH (c : Nat) : Reg := ⟨0x03, 0, 0x100 + 8 * c⟩
def CPC_HEALTH_STATE : Fld := ⟨60, 4⟩
def CPC_HEALTH_STALE : Fld := ⟨59, 1⟩
def CPC_HEALTH_PASSES : Fld := ⟨32, 16⟩
def CPC_HEALTH_AGE : Fld := ⟨0, 32⟩

/-- FOR_CLAIM: claim state (18_forester.md, beside R480). -/
def FOR_CLAIM : Reg := ⟨0x13, 0, 0x0⟩
def FOR_CLAIM_ACTIVE : Fld := ⟨63, 1⟩
def FOR_CLAIM_STBY : Fld := ⟨61, 2⟩
def FOR_CLAIM_LATCH : Fld := ⟨48, 8⟩
def FOR_CLAIM_CLAIMA : Fld := ⟨40, 8⟩
def FOR_CLAIM_CLAIMB : Fld := ⟨32, 8⟩
def FOR_CLAIM_HANDOVERS : Fld := ⟨24, 8⟩
def FOR_CLAIM_CAUSE : Fld := ⟨20, 4⟩

/-- FOR_WDOG: watchdog (18_forester.md, beside R480). -/
def FOR_WDOG : Reg := ⟨0x13, 0, 0x8⟩
def FOR_WDOG_KICK : Fld := ⟨63, 1⟩
def FOR_WDOG_REMAIN : Fld := ⟨0, 24⟩

/-- FOR_QSTAT: queue of class i + 1 (18_forester.md, beside R480). -/
def FOR_QSTAT (i : Nat) : Reg := ⟨0x13, 0, 0x40 + 8 * i⟩
def FOR_QSTAT_FULL : Fld := ⟨48, 16⟩
def FOR_QSTAT_HIGH : Fld := ⟨32, 9⟩
def FOR_QSTAT_DEPTH : Fld := ⟨0, 9⟩

/-- FOR_LOGSTAT: log buffer state (18_forester.md, beside R480). -/
def FOR_LOGSTAT : Reg := ⟨0x13, 0, 0x80⟩
def FOR_LOGSTAT_COAL : Fld := ⟨48, 16⟩
def FOR_LOGSTAT_TAIL : Fld := ⟨32, 12⟩
def FOR_LOGSTAT_HEAD : Fld := ⟨0, 12⟩

/-- FOR_LOG: log records (18_forester.md, beside R480). -/
def FOR_LOG (i k : Nat) : Reg := ⟨0x13, 0, 0x10000 + 64 * i + 8 * k⟩
def FOR_LOG_BYTES : Fld := ⟨0, 64⟩

/-- FOR_MBOX: mailbox of partition p (18_forester.md, beside R481). -/
def FOR_MBOX (p : Nat) : Reg := ⟨0x13, 0, 0x200 + 8 * p⟩
def FOR_MBOX_EN : Fld := ⟨63, 1⟩
def FOR_MBOX_PRIV : Fld := ⟨62, 1⟩
def FOR_MBOX_THREAD : Fld := ⟨54, 7⟩
def FOR_MBOX_BASE : Fld := ⟨22, 30⟩

/-- FOR_MBDB: mailbox doorbell (18_forester.md, beside R481). -/
def FOR_MBDB (p : Nat) : Reg := ⟨0x13, 0, 0x300 + 8 * p⟩
def FOR_MBDB_REQTAIL : Fld := ⟨0, 8⟩

/-- CLK_REF: reference status (19_package.md, beside R500). -/
def CLK_REF : Reg := ⟨0x15, 0, 0x10⟩
def CLK_REF_SYSOK : Fld := ⟨63, 1⟩
def CLK_REF_LREF0OK : Fld := ⟨62, 1⟩
def CLK_REF_LREF1OK : Fld := ⟨61, 1⟩
def CLK_REF_GREFOK : Fld := ⟨60, 1⟩
def CLK_REF_FOSCOK : Fld := ⟨59, 1⟩
def CLK_REF_FALTOK : Fld := ⟨58, 1⟩
def CLK_REF_ONALT : Fld := ⟨57, 1⟩
def CLK_REF_LOSS : Fld := ⟨32, 16⟩

/-- CLK_STAND: Stand frequency (19_package.md, beside R506). -/
def CLK_STAND (s : Nat) : Reg := ⟨0x15, 0, 0x100 + 8 * s⟩
def CLK_STAND_FREQ : Fld := ⟨48, 8⟩
def CLK_STAND_BOOSTEN : Fld := ⟨47, 1⟩
def CLK_STAND_BOOSTF : Fld := ⟨32, 8⟩
def CLK_STAND_EFF : Fld := ⟨16, 8⟩
def CLK_STAND_LIMIT : Fld := ⟨8, 4⟩

/-- PWR_LIMIT: package power limit (19_package.md, beside R506). -/
def PWR_LIMIT : Reg := ⟨0x15, 0, 0x200⟩
def PWR_LIMIT_PL1 : Fld := ⟨32, 16⟩
def PWR_LIMIT_TW : Fld := ⟨16, 8⟩

/-- THM_LIMIT: thermal limits (19_package.md, beside R506). -/
def THM_LIMIT : Reg := ⟨0x17, 0, 0x8⟩
def THM_LIMIT_TTHROT : Fld := ⟨56, 8⟩
def THM_LIMIT_HYST : Fld := ⟨48, 8⟩

/-- PWR_STAT: package power status (19_package.md, beside R510). -/
def PWR_STAT : Reg := ⟨0x15, 0, 0x208⟩
def PWR_STAT_PKGW : Fld := ⟨48, 16⟩
def PWR_STAT_PEAKW : Fld := ⟨32, 16⟩
def PWR_STAT_THROT : Fld := ⟨16, 16⟩
def PWR_STAT_RAILWARN : Fld := ⟨0, 10⟩

/-- PWR_RAIL: rail i (19_package.md, beside R510). -/
def PWR_RAIL (i : Nat) : Reg := ⟨0x15, 0, 0x300 + 8 * i⟩
def PWR_RAIL_VOUT : Fld := ⟨48, 16⟩
def PWR_RAIL_IOUT : Fld := ⟨32, 16⟩
def PWR_RAIL_VSET : Fld := ⟨16, 16⟩
def PWR_RAIL_STALE : Fld := ⟨1, 1⟩
def PWR_RAIL_AVS : Fld := ⟨0, 1⟩

/-- THM_STAT: temperature status (19_package.md, beside R510). -/
def THM_STAT : Reg := ⟨0x17, 0, 0x0⟩
def THM_STAT_TJ : Fld := ⟨56, 8⟩
def THM_STAT_HOT : Fld := ⟨51, 5⟩
def THM_STAT_THROT : Fld := ⟨16, 16⟩

/-- THM_SENS: sensor k (19_package.md, beside R510). -/
def THM_SENS (k : Nat) : Reg := ⟨0x17, 0, 0x100 + 8 * k⟩
def THM_SENS_TEMP : Fld := ⟨56, 8⟩
def THM_SENS_MAX : Fld := ⟨48, 8⟩

/-- THM_LIFE: life accounting since power-up (19_package.md, beside R513). -/
def THM_LIFE : Reg := ⟨0x17, 0, 0x10⟩
def THM_LIFE_SECONDS : Fld := ⟨32, 32⟩
def THM_LIFE_TJAVG : Fld := ⟨16, 16⟩
def THM_LIFE_OVER95 : Fld := ⟨0, 16⟩

/-- L3C_WAYTH: L3 way-disable thresholds (09_caches.md, beside R220). -/
def L3C_WAYTH (k : Nat) : Reg := ⟨0x05, k, 0x0⟩
def L3C_WAYTH_WIN : Fld := ⟨16, 4⟩
def L3C_WAYTH_THRESH : Fld := ⟨8, 4⟩
def L3C_WAYTH_MINWAYS : Fld := ⟨0, 4⟩

/-- L3C_WAYST: disabled ways (09_caches.md, beside R220). -/
def L3C_WAYST (k : Nat) : Reg := ⟨0x05, k, 0x8⟩
def L3C_WAYST_L3DIS : Fld := ⟨48, 16⟩
def L3C_WAYST_FLOOR : Fld := ⟨31, 1⟩

/-- L3C_CECNT: L3 corrected-error counts (09_caches.md, beside R220). -/
def L3C_CECNT (k : Nat) : Reg := ⟨0x05, k, 0x10⟩
def L3C_CECNT_CNT : Fld := ⟨0, 64⟩

/-- TWG_CFG: engine configuration (14_twig.md, beside R376). -/
def TWG_CFG (e : Nat) : Reg := ⟨0x0D, e, 0x0⟩
def TWG_CFG_ENGINE : Fld := ⟨63, 1⟩
def TWG_CFG_MAXTASK : Fld := ⟨48, 10⟩
def TWG_CFG_WBASE : Fld := ⟨32, 10⟩
def TWG_CFG_RUN : Fld := ⟨0, 1⟩

/-- TWG_STAT: engine status (14_twig.md, beside R376). -/
def TWG_STAT (e : Nat) : Reg := ⟨0x0D, e, 0x8⟩
def TWG_STAT_SPILL : Fld := ⟨48, 16⟩
def TWG_STAT_MSIDROP : Fld := ⟨32, 16⟩
def TWG_STAT_MERGE : Fld := ⟨16, 16⟩
def TWG_STAT_CE : Fld := ⟨8, 8⟩
def TWG_STAT_RESIDENT : Fld := ⟨0, 7⟩

/-- TWG_CAUSE: trap held for task 0 (14_twig.md, beside R376). -/
def TWG_CAUSE (e : Nat) : Reg := ⟨0x0D, e, 0x10⟩
def TWG_CAUSE_VALID : Fld := ⟨63, 1⟩
def TWG_CAUSE_TASK : Fld := ⟨48, 10⟩
def TWG_CAUSE_CODE : Fld := ⟨40, 5⟩
def TWG_CAUSE_INFO : Fld := ⟨32, 8⟩
def TWG_CAUSE_PC : Fld := ⟨16, 16⟩
def TWG_CAUSE_ADDR : Fld := ⟨0, 16⟩

/-- TWG_TSTART: start a free task (14_twig.md, beside R376). -/
def TWG_TSTART (e : Nat) : Reg := ⟨0x0D, e, 0x18⟩
def TWG_TSTART_TASK : Fld := ⟨32, 10⟩
def TWG_TSTART_PC : Fld := ⟨0, 16⟩

/-- TWG_SIGNAL: send an MBX event (14_twig.md, beside R376). -/
def TWG_SIGNAL (e : Nat) : Reg := ⟨0x0D, e, 0x20⟩
def TWG_SIGNAL_SIB : Fld := ⟨63, 1⟩
def TWG_SIGNAL_TASK : Fld := ⟨32, 10⟩

/-- TWG_MCSTAT: microcode stores (14_twig.md, beside R376). -/
def TWG_MCSTAT (e : Nat) : Reg := ⟨0x0D, e, 0x28⟩
def TWG_MCSTAT_ACT : Fld := ⟨63, 1⟩
def TWG_MCSTAT_VAL1 : Fld := ⟨62, 1⟩
def TWG_MCSTAT_VAL0 : Fld := ⟨61, 1⟩
def TWG_MCSTAT_SWAP : Fld := ⟨60, 1⟩
def TWG_MCSTAT_CE : Fld := ⟨32, 16⟩

/-- TWG_MCVER: microcode version of store i (14_twig.md, beside R376). -/
def TWG_MCVER (e i : Nat) : Reg := ⟨0x0D, e, 0x30 + 8 * i⟩
def TWG_MCVER_SERIAL : Fld := ⟨32, 32⟩
def TWG_MCVER_HASH : Fld := ⟨0, 32⟩

/-- DMV_SUB: mover submission (14_twig.md, beside R374). -/
def DMV_SUB (m : Nat) : Reg := ⟨0x0E, m, 0x0⟩
def DMV_SUB_TASK : Fld := ⟨32, 10⟩
def DMV_SUB_DESC : Fld := ⟨0, 16⟩

/-- DMV_STAT: mover state (14_twig.md, beside R374). -/
def DMV_STAT (m : Nat) : Reg := ⟨0x0E, m, 0x8⟩
def DMV_STAT_DEPTH : Fld := ⟨59, 5⟩
def DMV_STAT_DONE : Fld := ⟨0, 32⟩

/-- The catalogue rows of block 0x01. -/
def regCatalogue01 : List RegSpec := [
  ⟨"CORE_TMO", 0x01, 0x10, 8, 1, [⟨0, 20, .rws, 0⟩]⟩,
  ⟨"CORE_PF", 0x01, 0x18, 8, 1, [⟨8, 5, .rwl, 8⟩, ⟨1, 1, .rwl, 1⟩, ⟨0, 1, .rwl, 1⟩]⟩]

/-- The catalogue rows of block 0x02. -/
def regCatalogue02 : List RegSpec := [
  ⟨"HWD_XLAT", 0x02, 0x40, 8, 1, [⟨8, 8, .rws, 0⟩, ⟨0, 1, .rws, 0⟩]⟩,
  ⟨"HWD_ATOM", 0x02, 0x48, 8, 1, [⟨0, 1, .rws, 0⟩]⟩,
  ⟨"HWD_PART", 0x02, 0x0, 8, 1, [⟨0, 4, .rws, 0⟩]⟩,
  ⟨"HWD_ROLE", 0x02, 0x8, 8, 1, [⟨8, 2, .rws, 0⟩, ⟨0, 6, .rws, 0⟩]⟩,
  ⟨"HWD_STAT", 0x02, 0x10, 8, 1, [⟨48, 16, .rc, 0⟩, ⟨32, 16, .rc, 0⟩, ⟨28, 4, .ro, 0⟩]⟩]

/-- The catalogue rows of block 0x03. -/
def regCatalogue03 : List RegSpec := [
  ⟨"CPC_CTL", 0x03, 0x0, 8, 1, [⟨56, 8, .rws, 0⟩, ⟨55, 1, .rws, 0⟩, ⟨54, 1, .rws, 0⟩, ⟨40, 8, .rws, 0⟩, ⟨36, 4, .rws, 0⟩]⟩,
  ⟨"CPC_STAT", 0x03, 0x8, 8, 1, [⟨60, 4, .ro, 0⟩, ⟨56, 4, .ro, 0⟩, ⟨32, 16, .rc, 0⟩, ⟨16, 16, .rc, 0⟩, ⟨8, 8, .rc, 0⟩]⟩,
  ⟨"CPC_REQ", 0x03, 0x10, 8, 1, [⟨63, 1, .ro, 0⟩, ⟨62, 1, .ro, 0⟩, ⟨48, 8, .ro, 0⟩, ⟨32, 7, .ro, 0⟩, ⟨24, 6, .ro, 0⟩, ⟨16, 7, .ro, 0⟩]⟩,
  ⟨"CPC_APP", 0x03, 0x18, 8, 1, [⟨62, 2, .wo, 0⟩, ⟨48, 8, .wo, 0⟩]⟩,
  ⟨"CPC_HEALTH", 0x03, 0x100, 8, 72, [⟨60, 4, .ro, 0⟩, ⟨59, 1, .ro, 0⟩, ⟨32, 16, .ro, 0⟩, ⟨0, 32, .ro, 0⟩]⟩]

/-- The catalogue rows of block 0x04. -/
def regCatalogue04 : List RegSpec := [
  ⟨"L2C_WAYTH", 0x04, 0x0, 8, 1, [⟨16, 4, .rws, 0⟩, ⟨8, 4, .rws, 0⟩, ⟨0, 4, .rws, 0⟩]⟩,
  ⟨"L2C_WAYST", 0x04, 0x8, 8, 1, [⟨48, 16, .w1c, 0⟩, ⟨40, 8, .w1c, 0⟩, ⟨32, 8, .w1c, 0⟩, ⟨31, 1, .w1c, 0⟩]⟩,
  ⟨"L2C_CECNT", 0x04, 0x10, 8, 1, [⟨0, 64, .ro, 0⟩]⟩]

/-- The catalogue rows of block 0x05. -/
def regCatalogue05 : List RegSpec := [
  ⟨"L3C_ALLOC", 0x05, 0x100, 8, 16, [⟨0, 16, .rws, 0⟩]⟩,
  ⟨"L3C_SEED", 0x05, 0x40, 8, 1, [⟨16, 1, .ro, 0⟩, ⟨8, 1, .rws, 0⟩, ⟨0, 4, .rws, 0⟩]⟩,
  ⟨"L3C_SEEDP", 0x05, 0x200, 8, 16, [⟨56, 8, .rws, 0⟩, ⟨20, 32, .rws, 0⟩, ⟨12, 8, .rws, 0⟩]⟩,
  ⟨"L3C_WAYTH", 0x05, 0x0, 8, 1, [⟨16, 4, .rws, 0⟩, ⟨8, 4, .rws, 0⟩, ⟨0, 4, .rws, 0⟩]⟩,
  ⟨"L3C_WAYST", 0x05, 0x8, 8, 1, [⟨48, 16, .w1c, 0⟩, ⟨31, 1, .w1c, 0⟩]⟩,
  ⟨"L3C_CECNT", 0x05, 0x10, 8, 1, [⟨0, 64, .ro, 0⟩]⟩]

/-- The catalogue rows of block 0x06. -/
def regCatalogue06 : List RegSpec := [
  ⟨"MYC_IPI", 0x06, 0x4000, 8, 1, [⟨8, 1, .wo, 0⟩, ⟨0, 7, .wo, 0⟩]⟩]

/-- The catalogue rows of block 0x07. -/
def regCatalogue07 : List RegSpec := [
  ⟨"CNP_STAT", 0x07, 0x0, 8, 1, [⟨40, 24, .ro, 0⟩, ⟨24, 16, .rc, 0⟩, ⟨16, 8, .rc, 0⟩]⟩,
  ⟨"CNP_WAYST", 0x07, 0x100, 8, 16, [⟨48, 16, .w1c, 0⟩, ⟨47, 1, .w1c, 0⟩]⟩,
  ⟨"CNP_CECNT", 0x07, 0x200, 8, 16, [⟨0, 64, .ro, 0⟩]⟩]

/-- The catalogue rows of block 0x08. -/
def regCatalogue08 : List RegSpec := [
  ⟨"GRV_GROUP", 0x08, 0x800, 8, 1, [⟨48, 16, .rws, 0⟩, ⟨40, 8, .rws, 0⟩, ⟨32, 8, .ro, 0⟩, ⟨10, 10, .rws, 0⟩, ⟨0, 3, .ro, 0⟩]⟩,
  ⟨"GRV_PMAP", 0x08, 0x808, 8, 1, [⟨7, 1, .rws, 0⟩, ⟨15, 1, .rws, 0⟩, ⟨23, 1, .rws, 0⟩, ⟨31, 1, .rws, 0⟩, ⟨39, 1, .rws, 0⟩, ⟨47, 1, .rws, 0⟩, ⟨55, 1, .rws, 0⟩, ⟨0, 3, .rws, 0⟩, ⟨8, 3, .rws, 0⟩, ⟨16, 3, .rws, 0⟩, ⟨24, 3, .rws, 0⟩, ⟨32, 3, .rws, 0⟩, ⟨40, 3, .rws, 0⟩, ⟨48, 3, .rws, 0⟩]⟩,
  ⟨"GRV_ROUTE", 0x08, 0x810, 8, 1, [⟨7, 1, .ro, 0⟩, ⟨15, 1, .ro, 0⟩, ⟨23, 1, .ro, 0⟩, ⟨31, 1, .ro, 0⟩, ⟨39, 1, .ro, 0⟩, ⟨47, 1, .ro, 0⟩, ⟨55, 1, .ro, 0⟩, ⟨63, 1, .ro, 0⟩, ⟨6, 1, .ro, 0⟩, ⟨14, 1, .ro, 0⟩, ⟨22, 1, .ro, 0⟩, ⟨30, 1, .ro, 0⟩, ⟨38, 1, .ro, 0⟩, ⟨46, 1, .ro, 0⟩, ⟨54, 1, .ro, 0⟩, ⟨62, 1, .ro, 0⟩, ⟨3, 3, .ro, 0⟩, ⟨11, 3, .ro, 0⟩, ⟨19, 3, .ro, 0⟩, ⟨27, 3, .ro, 0⟩, ⟨35, 3, .ro, 0⟩, ⟨43, 3, .ro, 0⟩, ⟨51, 3, .ro, 0⟩, ⟨59, 3, .ro, 0⟩, ⟨0, 3, .ro, 0⟩, ⟨8, 3, .ro, 0⟩, ⟨16, 3, .ro, 0⟩, ⟨24, 3, .ro, 0⟩, ⟨32, 3, .ro, 0⟩, ⟨40, 3, .ro, 0⟩, ⟨48, 3, .ro, 0⟩, ⟨56, 3, .ro, 0⟩]⟩,
  ⟨"GRV_STAT", 0x08, 0x0, 8, 1, [⟨60, 4, .ro, 0⟩, ⟨58, 2, .ro, 0⟩, ⟨56, 2, .ro, 0⟩, ⟨53, 3, .ro, 0⟩, ⟨50, 3, .ro, 0⟩, ⟨34, 16, .ro, 0⟩]⟩,
  ⟨"GRV_ERR", 0x08, 0x8, 8, 1, [⟨48, 16, .rc, 0⟩, ⟨32, 16, .rc, 0⟩, ⟨24, 8, .rc, 0⟩, ⟨16, 8, .rc, 0⟩, ⟨0, 16, .rc, 0⟩]⟩]

/-- The catalogue rows of block 0x09. -/
def regCatalogue09 : List RegSpec := [
  ⟨"RTL_CTL", 0x09, 0x0, 8, 1, [⟨16, 16, .rws, 0⟩, ⟨2, 1, .wo, 0⟩, ⟨1, 1, .rwl, 0⟩, ⟨0, 1, .rws, 0⟩]⟩,
  ⟨"RTL_STAT", 0x09, 0x8, 8, 1, [⟨60, 4, .ro, 0⟩, ⟨56, 4, .ro, 0⟩, ⟨40, 16, .ro, 0⟩]⟩,
  ⟨"RTL_ERR", 0x09, 0x10, 8, 1, [⟨48, 16, .rc, 0⟩, ⟨32, 16, .rc, 0⟩, ⟨16, 16, .rc, 0⟩, ⟨0, 16, .rc, 0⟩]⟩,
  ⟨"RTL_CFG", 0x09, 0x18, 8, 1, [⟨32, 32, .rw, 0⟩, ⟨31, 1, .rw, 0⟩, ⟨30, 1, .rw, 0⟩, ⟨2, 10, .rw, 0⟩]⟩]

/-- The catalogue rows of block 0x0A. -/
def regCatalogue0A : List RegSpec := [
  ⟨"HOM_IL", 0x0A, 0x100, 8, 16, [⟨63, 1, .rws, 0⟩, ⟨58, 5, .rws, 0⟩, ⟨57, 1, .rws, 0⟩, ⟨16, 16, .rws, 0⟩, ⟨0, 15, .rws, 0⟩]⟩,
  ⟨"HOM_ILMAP", 0x0A, 0x180, 8, 16, [⟨0, 4, .rws, 0⟩, ⟨4, 4, .rws, 0⟩, ⟨8, 4, .rws, 0⟩, ⟨12, 4, .rws, 0⟩, ⟨16, 4, .rws, 0⟩, ⟨20, 4, .rws, 0⟩, ⟨24, 4, .rws, 0⟩, ⟨28, 4, .rws, 0⟩, ⟨32, 4, .rws, 0⟩, ⟨36, 4, .rws, 0⟩, ⟨40, 4, .rws, 0⟩, ⟨44, 4, .rws, 0⟩, ⟨48, 4, .rws, 0⟩, ⟨52, 4, .rws, 0⟩, ⟨56, 4, .rws, 0⟩, ⟨60, 4, .rws, 0⟩]⟩,
  ⟨"HOM_MIRROR", 0x0A, 0x200, 8, 1, [⟨0, 8, .rws, 0⟩]⟩,
  ⟨"HOM_MSTAT", 0x0A, 0x240, 8, 8, [⟨60, 4, .ro, 0⟩, ⟨0, 34, .ro, 0⟩]⟩,
  ⟨"HOM_SCRUB", 0x0A, 0x300, 8, 1, [⟨56, 8, .rwl, 24⟩, ⟨32, 16, .ro, 0⟩, ⟨16, 16, .rc, 0⟩, ⟨0, 16, .rc, 0⟩]⟩]

/-- The catalogue rows of block 0x0B. -/
def regCatalogue0B : List RegSpec := [
  ⟨"FBK_GRANT", 0x0B, 0x40000, 8, 32768, [⟨7, 1, .rws, 0⟩, ⟨15, 1, .rws, 0⟩, ⟨23, 1, .rws, 0⟩, ⟨31, 1, .rws, 0⟩, ⟨39, 1, .rws, 0⟩, ⟨47, 1, .rws, 0⟩, ⟨55, 1, .rws, 0⟩, ⟨63, 1, .rws, 0⟩, ⟨6, 1, .rws, 0⟩, ⟨14, 1, .rws, 0⟩, ⟨22, 1, .rws, 0⟩, ⟨30, 1, .rws, 0⟩, ⟨38, 1, .rws, 0⟩, ⟨46, 1, .rws, 0⟩, ⟨54, 1, .rws, 0⟩, ⟨62, 1, .rws, 0⟩, ⟨0, 4, .rws, 0⟩, ⟨8, 4, .rws, 0⟩, ⟨16, 4, .rws, 0⟩, ⟨24, 4, .rws, 0⟩, ⟨32, 4, .rws, 0⟩, ⟨40, 4, .rws, 0⟩, ⟨48, 4, .rws, 0⟩, ⟨56, 4, .rws, 0⟩]⟩,
  ⟨"FBK_DGRANT", 0x0B, 0x1000, 8, 64, [⟨0, 64, .rws, 0⟩]⟩,
  ⟨"FBK_VLOG", 0x0B, 0x0, 8, 1, [⟨63, 1, .w1c, 0⟩, ⟨61, 2, .ro, 0⟩, ⟨60, 1, .ro, 0⟩, ⟨56, 4, .ro, 0⟩, ⟨0, 52, .ro, 0⟩]⟩,
  ⟨"FBK_VCNT", 0x0B, 0x8, 8, 1, [⟨32, 32, .rc, 0⟩, ⟨16, 16, .rc, 0⟩, ⟨0, 16, .rc, 0⟩]⟩,
  ⟨"FBK_MBASE", 0x0B, 0x800, 8, 16, [⟨12, 40, .rws, 0⟩]⟩]

/-- The catalogue rows of block 0x0C. -/
def regCatalogue0C : List RegSpec := [
  ⟨"GLD_PORT", 0x0C, 0x40, 8, 4, [⟨16, 16, .rws, 0⟩, ⟨8, 4, .rws, 0⟩, ⟨2, 1, .rws, 0⟩, ⟨1, 1, .rws, 0⟩, ⟨0, 1, .rws, 0⟩]⟩,
  ⟨"GLD_PST", 0x0C, 0x80, 8, 8, [⟨60, 4, .ro, 1⟩, ⟨56, 4, .ro, 0⟩, ⟨52, 4, .ro, 0⟩, ⟨51, 1, .ro, 0⟩, ⟨32, 16, .rc, 0⟩, ⟨16, 16, .rc, 0⟩, ⟨0, 16, .rc, 0⟩]⟩,
  ⟨"GLD_SLC_CTL", 0x0C, 0x10000, 32, 256, [⟨63, 1, .rws, 0⟩, ⟨56, 4, .rws, 0⟩, ⟨40, 16, .rws, 0⟩, ⟨23, 17, .rws, 0⟩]⟩,
  ⟨"GLD_SLC_RES", 0x0C, 0x10008, 32, 256, [⟨32, 11, .rws, 0⟩, ⟨16, 5, .rws, 0⟩, ⟨8, 4, .rws, 0⟩, ⟨4, 3, .rws, 0⟩, ⟨0, 1, .rws, 0⟩]⟩,
  ⟨"GLD_SLC_CTX", 0x0C, 0x10010, 32, 256, [⟨12, 40, .rws, 0⟩]⟩,
  ⟨"GLD_SLC_CMD", 0x0C, 0x100000, 8192, 256, [⟨60, 4, .wo, 0⟩, ⟨0, 32, .wo, 0⟩]⟩,
  ⟨"GLD_SLC_CSTAT", 0x0C, 0x100008, 8192, 256, [⟨63, 1, .ro, 0⟩, ⟨48, 8, .ro, 0⟩, ⟨47, 1, .ro, 0⟩, ⟨32, 8, .ro, 0⟩, ⟨0, 20, .ro, 0⟩]⟩,
  ⟨"GLD_DB", 0x0C, 0x101000, 8192, 256, [⟨16, 16, .wo, 0⟩, ⟨0, 16, .wo, 0⟩]⟩,
  ⟨"GLD_CQDB", 0x0C, 0x101008, 8192, 256, [⟨16, 4, .wo, 0⟩, ⟨0, 16, .wo, 0⟩]⟩,
  ⟨"GLD_SLC_EVT", 0x0C, 0x100010, 8192, 256, [⟨31, 1, .rwl, 0⟩, ⟨30, 1, .rwl, 0⟩, ⟨16, 7, .rwl, 0⟩, ⟨7, 1, .w1c, 0⟩, ⟨6, 1, .w1c, 0⟩, ⟨5, 1, .w1c, 0⟩, ⟨4, 1, .w1c, 0⟩, ⟨3, 1, .w1c, 0⟩, ⟨2, 1, .w1c, 0⟩, ⟨1, 1, .w1c, 0⟩, ⟨0, 1, .w1c, 0⟩]⟩,
  ⟨"GLD_SLC_CNT", 0x0C, 0x100030, 8192, 256, [⟨48, 16, .rc, 0⟩, ⟨32, 16, .rc, 0⟩, ⟨16, 16, .rc, 0⟩, ⟨0, 16, .rc, 0⟩]⟩,
  ⟨"GLD_SLC_DLCFG", 0x0C, 0x100018, 8192, 256, [⟨63, 1, .rwl, 0⟩, ⟨62, 1, .ro, 0⟩, ⟨61, 1, .w1c, 0⟩, ⟨0, 16, .rwl, 0⟩]⟩,
  ⟨"GLD_SLC_DLPA", 0x0C, 0x100020, 8192, 256, [⟨12, 40, .rwl, 0⟩]⟩,
  ⟨"GLD_SLC_DLPA", 0x0C, 0x100028, 8192, 256, [⟨12, 40, .rwl, 0⟩]⟩,
  ⟨"GLD_TMO", 0x0C, 0x8, 8, 1, [⟨0, 16, .rws, 0⟩]⟩,
  ⟨"GLD_STAT", 0x0C, 0x0, 8, 1, [⟨60, 4, .ro, 1⟩, ⟨32, 16, .ro, 0⟩]⟩]

/-- The catalogue rows of block 0x0D. -/
def regCatalogue0D : List RegSpec := [
  ⟨"TWG_CFG", 0x0D, 0x0, 8, 1, [⟨63, 1, .ro, 0⟩, ⟨48, 10, .rwl, 1023⟩, ⟨32, 10, .rwl, 1⟩, ⟨0, 1, .rwl, 0⟩]⟩,
  ⟨"TWG_STAT", 0x0D, 0x8, 8, 1, [⟨48, 16, .rc, 0⟩, ⟨32, 16, .rc, 0⟩, ⟨16, 16, .rc, 0⟩, ⟨8, 8, .rc, 0⟩, ⟨0, 7, .ro, 1⟩]⟩,
  ⟨"TWG_CAUSE", 0x0D, 0x10, 8, 1, [⟨63, 1, .ro, 0⟩, ⟨48, 10, .ro, 0⟩, ⟨40, 5, .ro, 0⟩, ⟨32, 8, .ro, 0⟩, ⟨16, 16, .ro, 0⟩, ⟨0, 16, .ro, 0⟩]⟩,
  ⟨"TWG_TSTART", 0x0D, 0x18, 8, 1, [⟨32, 10, .wo, 0⟩, ⟨0, 16, .wo, 0⟩]⟩,
  ⟨"TWG_SIGNAL", 0x0D, 0x20, 8, 1, [⟨63, 1, .wo, 0⟩, ⟨32, 10, .wo, 0⟩]⟩,
  ⟨"TWG_MCSTAT", 0x0D, 0x28, 8, 1, [⟨63, 1, .ro, 0⟩, ⟨62, 1, .ro, 0⟩, ⟨61, 1, .ro, 0⟩, ⟨60, 1, .ro, 0⟩, ⟨32, 16, .rc, 0⟩]⟩,
  ⟨"TWG_MCVER", 0x0D, 0x30, 8, 2, [⟨32, 32, .ro, 0⟩, ⟨0, 32, .ro, 0⟩]⟩]

/-- The catalogue rows of block 0x0E. -/
def regCatalogue0E : List RegSpec := [
  ⟨"DMV_SUB", 0x0E, 0x0, 8, 1, [⟨32, 10, .wo, 0⟩, ⟨0, 16, .wo, 0⟩]⟩,
  ⟨"DMV_STAT", 0x0E, 0x8, 8, 1, [⟨59, 5, .ro, 0⟩, ⟨0, 32, .rc, 0⟩]⟩]

/-- The catalogue rows of block 0x0F. -/
def regCatalogue0F : List RegSpec := [
  ⟨"LDG_RING", 0x0F, 0x10000, 32, 256, [⟨60, 4, .rws, 0⟩, ⟨12, 40, .rws, 0⟩]⟩,
  ⟨"LDG_SEQ", 0x0F, 0x10018, 32, 256, [⟨0, 64, .ro, 1⟩]⟩,
  ⟨"LDG_IDEM", 0x0F, 0x100, 8, 4, [⟨0, 64, .rws, 0⟩]⟩,
  ⟨"LDG_CTL", 0x0F, 0x10008, 32, 256, [⟨1, 1, .wo, 0⟩, ⟨0, 1, .rwl, 0⟩]⟩,
  ⟨"LDG_LSTAT", 0x0F, 0x10010, 32, 256, [⟨60, 4, .ro, 1⟩, ⟨59, 1, .w1c, 0⟩, ⟨58, 1, .w1c, 0⟩]⟩]

/-- The catalogue rows of block 0x10. -/
def regCatalogue10 : List RegSpec := [
  ⟨"COL_STAT", 0x10, 0x0, 8, 1, [⟨60, 4, .ro, 0⟩, ⟨57, 3, .ro, 0⟩, ⟨32, 16, .rc, 0⟩, ⟨24, 8, .rc, 0⟩, ⟨16, 8, .rc, 0⟩, ⟨8, 8, .rc, 0⟩, ⟨0, 8, .rc, 0⟩]⟩,
  ⟨"COL_QSTAT", 0x10, 0x400, 8, 256, [⟨7, 1, .ro, 0⟩, ⟨15, 1, .ro, 0⟩, ⟨23, 1, .ro, 0⟩, ⟨31, 1, .ro, 0⟩, ⟨0, 5, .ro, 0⟩, ⟨8, 5, .ro, 0⟩, ⟨16, 5, .ro, 0⟩, ⟨24, 5, .ro, 0⟩]⟩]

/-- The catalogue rows of block 0x11. -/
def regCatalogue11 : List RegSpec := [
  ⟨"BRK_PG_KEY", 0x11, 0x1000, 16, 256, [⟨32, 13, .rws, 0⟩, ⟨0, 12, .rws, 0⟩]⟩,
  ⟨"BRK_PG_STAT", 0x11, 0x1008, 16, 256, [⟨48, 16, .rc, 0⟩, ⟨32, 16, .rc, 0⟩, ⟨16, 16, .rc, 0⟩, ⟨0, 5, .ro, 0⟩]⟩,
  ⟨"BRK_STAT", 0x11, 0x0, 8, 1, [⟨60, 4, .ro, 0⟩, ⟨57, 3, .ro, 0⟩, ⟨32, 16, .rc, 0⟩, ⟨24, 8, .rc, 0⟩, ⟨16, 8, .rc, 0⟩]⟩]

/-- The catalogue rows of block 0x12. -/
def regCatalogue12 : List RegSpec := [
  ⟨"KST_ATTR", 0x12, 0x10000, 8, 4096, [⟨63, 1, .ro, 0⟩, ⟨62, 1, .ro, 0⟩, ⟨32, 8, .ro, 0⟩, ⟨0, 32, .ro, 0⟩]⟩,
  ⟨"KST_OWNER", 0x12, 0x1000, 8, 512, [⟨7, 1, .rws, 0⟩, ⟨15, 1, .rws, 0⟩, ⟨23, 1, .rws, 0⟩, ⟨31, 1, .rws, 0⟩, ⟨39, 1, .rws, 0⟩, ⟨47, 1, .rws, 0⟩, ⟨55, 1, .rws, 0⟩, ⟨63, 1, .rws, 0⟩, ⟨0, 4, .rws, 0⟩, ⟨8, 4, .rws, 0⟩, ⟨16, 4, .rws, 0⟩, ⟨24, 4, .rws, 0⟩, ⟨32, 4, .rws, 0⟩, ⟨40, 4, .rws, 0⟩, ⟨48, 4, .rws, 0⟩, ⟨56, 4, .rws, 0⟩]⟩,
  ⟨"KST_STAT", 0x12, 0x0, 8, 1, [⟨60, 4, .ro, 0⟩, ⟨59, 1, .ro, 0⟩, ⟨58, 1, .ro, 0⟩, ⟨54, 4, .ro, 0⟩, ⟨32, 16, .ro, 0⟩, ⟨16, 13, .ro, 0⟩, ⟨0, 13, .ro, 0⟩]⟩,
  ⟨"KST_EPUB", 0x12, 0x40, 8, 12, [⟨0, 64, .ro, 0⟩]⟩]

/-- The catalogue rows of block 0x13. -/
def regCatalogue13 : List RegSpec := [
  ⟨"FOR_CLAIM", 0x13, 0x0, 8, 1, [⟨63, 1, .ro, 0⟩, ⟨61, 2, .ro, 0⟩, ⟨48, 8, .ro, 0⟩, ⟨40, 8, .ro, 0⟩, ⟨32, 8, .ro, 0⟩, ⟨24, 8, .ro, 0⟩, ⟨20, 4, .ro, 0⟩]⟩,
  ⟨"FOR_WDOG", 0x13, 0x8, 8, 1, [⟨63, 1, .wo, 0⟩, ⟨0, 24, .ro, 0⟩]⟩,
  ⟨"FOR_QSTAT", 0x13, 0x40, 8, 7, [⟨48, 16, .rc, 0⟩, ⟨32, 9, .rc, 0⟩, ⟨0, 9, .ro, 0⟩]⟩,
  ⟨"FOR_LOGSTAT", 0x13, 0x80, 8, 1, [⟨48, 16, .rc, 0⟩, ⟨32, 12, .ro, 0⟩, ⟨0, 12, .rw, 0⟩]⟩,
  ⟨"FOR_LOG", 0x13, 0x10000, 8, 32768, [⟨0, 64, .ro, 0⟩]⟩,
  ⟨"FOR_MBOX", 0x13, 0x200, 8, 16, [⟨63, 1, .rws, 0⟩, ⟨62, 1, .rws, 0⟩, ⟨54, 7, .rws, 0⟩, ⟨22, 30, .rws, 0⟩]⟩,
  ⟨"FOR_MBDB", 0x13, 0x300, 8, 16, [⟨0, 8, .wo, 0⟩]⟩]

/-- The catalogue rows of block 0x14. -/
def regCatalogue14 : List RegSpec := [
  ⟨"TLT_STAT", 0x14, 0x0, 8, 1, [⟨56, 8, .ro, 0⟩, ⟨44, 12, .ro, 0⟩, ⟨40, 4, .ro, 0⟩, ⟨39, 1, .ro, 0⟩, ⟨38, 1, .w1c, 0⟩]⟩,
  ⟨"TLT_SERIAL", 0x14, 0x8, 8, 1, [⟨0, 64, .ro, 0⟩]⟩,
  ⟨"TLT_CMD", 0x14, 0x10, 8, 1, [⟨60, 4, .wo, 0⟩, ⟨8, 8, .wo, 0⟩, ⟨0, 8, .wo, 0⟩]⟩,
  ⟨"TLT_ERROFF", 0x14, 0x18, 8, 1, [⟨0, 32, .ro, 0⟩]⟩,
  ⟨"TLT_ACTSEL", 0x14, 0x40, 16, 2, [⟨48, 16, .rw, 0⟩, ⟨0, 32, .rw, 0⟩]⟩,
  ⟨"TLT_ACTVAL", 0x14, 0x48, 16, 2, [⟨0, 64, .ro, 0⟩]⟩]

/-- The catalogue rows of block 0x15. -/
def regCatalogue15 : List RegSpec := [
  ⟨"CLK_REF", 0x15, 0x10, 8, 1, [⟨63, 1, .ro, 0⟩, ⟨62, 1, .ro, 0⟩, ⟨61, 1, .ro, 0⟩, ⟨60, 1, .ro, 0⟩, ⟨59, 1, .ro, 0⟩, ⟨58, 1, .ro, 0⟩, ⟨57, 1, .ro, 0⟩, ⟨32, 16, .rc, 0⟩]⟩,
  ⟨"CLK_STAND", 0x15, 0x100, 8, 4, [⟨48, 8, .rws, 0⟩, ⟨47, 1, .rws, 0⟩, ⟨32, 8, .rws, 0⟩, ⟨16, 8, .ro, 0⟩, ⟨8, 4, .ro, 0⟩]⟩,
  ⟨"PWR_LIMIT", 0x15, 0x200, 8, 1, [⟨32, 16, .rws, 0⟩, ⟨16, 8, .rws, 0⟩]⟩,
  ⟨"PWR_STAT", 0x15, 0x208, 8, 1, [⟨48, 16, .ro, 0⟩, ⟨32, 16, .rc, 0⟩, ⟨16, 16, .rc, 0⟩, ⟨0, 10, .rc, 0⟩]⟩,
  ⟨"PWR_RAIL", 0x15, 0x300, 8, 10, [⟨48, 16, .ro, 0⟩, ⟨32, 16, .ro, 0⟩, ⟨16, 16, .ro, 0⟩, ⟨1, 1, .ro, 0⟩, ⟨0, 1, .ro, 0⟩]⟩]

/-- The catalogue rows of block 0x16. -/
def regCatalogue16 : List RegSpec := [
  ⟨"SVP_IDENT", 0x16, 0x0, 8, 1, [⟨48, 16, .ro, 0⟩, ⟨40, 8, .ro, 0⟩, ⟨36, 4, .ro, 0⟩, ⟨32, 4, .ro, 0⟩, ⟨0, 32, .ro, 0⟩]⟩,
  ⟨"SVP_STAT", 0x16, 0x8, 8, 1, [⟨60, 4, .ro, 0⟩, ⟨52, 8, .ro, 0⟩, ⟨51, 1, .ro, 0⟩, ⟨50, 1, .w1c, 0⟩, ⟨49, 1, .w1c, 0⟩, ⟨48, 1, .ro, 0⟩, ⟨32, 16, .rc, 0⟩]⟩,
  ⟨"SVP_CMD", 0x16, 0x10, 8, 1, [⟨56, 8, .wo, 0⟩, ⟨48, 8, .wo, 0⟩, ⟨0, 32, .wo, 0⟩]⟩,
  ⟨"SVP_RESP", 0x16, 0x18, 8, 1, [⟨56, 8, .ro, 0⟩, ⟨48, 8, .ro, 0⟩, ⟨32, 16, .ro, 0⟩, ⟨0, 32, .ro, 0⟩]⟩,
  ⟨"SVP_RADDR", 0x16, 0x20, 8, 1, [⟨56, 8, .rw, 0⟩, ⟨48, 8, .rw, 0⟩, ⟨0, 32, .rw, 0⟩]⟩,
  ⟨"SVP_RDATA", 0x16, 0x28, 8, 1, [⟨0, 64, .rw, 0⟩]⟩]

/-- The catalogue rows of block 0x17. -/
def regCatalogue17 : List RegSpec := [
  ⟨"THM_LIMIT", 0x17, 0x8, 8, 1, [⟨56, 8, .rws, 0⟩, ⟨48, 8, .rws, 0⟩]⟩,
  ⟨"THM_STAT", 0x17, 0x0, 8, 1, [⟨56, 8, .ro, 0⟩, ⟨51, 5, .ro, 0⟩, ⟨16, 16, .rc, 0⟩]⟩,
  ⟨"THM_SENS", 0x17, 0x100, 8, 32, [⟨56, 8, .ro, 0⟩, ⟨48, 8, .rc, 0⟩]⟩,
  ⟨"THM_LIFE", 0x17, 0x10, 8, 1, [⟨32, 32, .ro, 0⟩, ⟨16, 16, .ro, 0⟩, ⟨0, 16, .ro, 0⟩]⟩]

/-- The catalogue rows of a block. -/
def regCatalogue : Nat → List RegSpec
  | 0x01 => regCatalogue01
  | 0x02 => regCatalogue02
  | 0x03 => regCatalogue03
  | 0x04 => regCatalogue04
  | 0x05 => regCatalogue05
  | 0x06 => regCatalogue06
  | 0x07 => regCatalogue07
  | 0x08 => regCatalogue08
  | 0x09 => regCatalogue09
  | 0x0A => regCatalogue0A
  | 0x0B => regCatalogue0B
  | 0x0C => regCatalogue0C
  | 0x0D => regCatalogue0D
  | 0x0E => regCatalogue0E
  | 0x0F => regCatalogue0F
  | 0x10 => regCatalogue10
  | 0x11 => regCatalogue11
  | 0x12 => regCatalogue12
  | 0x13 => regCatalogue13
  | 0x14 => regCatalogue14
  | 0x15 => regCatalogue15
  | 0x16 => regCatalogue16
  | 0x17 => regCatalogue17
  | _ => []

/-- Whether a catalogue row holds the register at `off`. -/
def RegSpec.covers (r : RegSpec) (off : Nat) : Bool :=
  decide (r.base ≤ off) && (off - r.base) % r.stride == 0 && decide ((off - r.base) / r.stride < r.count)

/-- The catalogue row of a register, if its chapter lists one there (R7: every other offset is reserved). The group-wide Grove registers lie in the window of instance 0 alone. -/
def Reg.spec? (r : Reg) : Option RegSpec :=
  if r.inst < blockCount r.block ∧ ¬ (r.block = 0x08 ∧ r.inst ≠ 0 ∧ 0x800 ≤ r.off) then
    (regCatalogue r.block).find? (fun e => e.covers r.off)
  else none

/-- The key of a register in the register tables of State. -/
def Reg.key (r : Reg) : Nat := r.block * 2 ^ 40 + r.inst * 2 ^ 32 + r.off

/-- The register a key names. -/
def Reg.ofKey (k : Nat) : Reg := ⟨k / 2 ^ 40, k / 2 ^ 32 % 256, k % 2 ^ 32⟩

/-- The mask of a field within the register word. -/
def Fld.mask (f : Fld) : BitVec 64 := BitVec.ofNat 64 ((2 ^ f.width - 1) * 2 ^ f.lsb)

/-- Read a field of a register word. -/
def Fld.get (f : Fld) (w : BitVec 64) : Nat := w.toNat / 2 ^ f.lsb % 2 ^ f.width

/-- Replace a field of a register word; the value is cut to the field's width. -/
def Fld.put (f : Fld) (w : BitVec 64) (v : Nat) : BitVec 64 :=
  (w &&& ~~~ f.mask) ||| BitVec.ofNat 64 (v % 2 ^ f.width * 2 ^ f.lsb)

/-- A field of a catalogue row as a bit field. -/
def FieldSpec.fld (f : FieldSpec) : Fld := ⟨f.lsb, f.width⟩

/-- The mask of the fields of a row whose access code is one of `accs`. -/
def RegSpec.maskOf (r : RegSpec) (accs : List Acc) : BitVec 64 :=
  r.fields.foldl (fun m f => if f.acc ∈ accs then m ||| f.fld.mask else m) 0

/-- The reset value of a register of the row (R13). -/
def RegSpec.resetWord (r : RegSpec) : BitVec 64 :=
  r.fields.foldl (fun m f => f.fld.put m f.reset) 0

/-- The reset value of the register a key names; reserved offsets read as zero (R7). TWG_CFG.ENGINE is the engine's place in its Glade. -/
def regReset (k : Nat) : BitVec 64 :=
  let r := Reg.ofKey k
  match r.spec? with
  | none => 0
  | some e => if r.block = 0x0D ∧ r.off = 0 then TWG_CFG_ENGINE.put e.resetWord (r.inst % 2) else e.resetWord

end Sys2Proof.Machine
end

