-- ==== Sys2Proof/Machine/SysTypes.lean ====
section
/-! DEFINITION. The state of the service port, the Tilet loader, Coppice, the Forester pair, the power controller and the test and telemetry ports beside their registers (02, 03, 17 to 19). -/

namespace Sys2Proof.Machine

/-- A service command in progress (R56 to R59). -/
structure SvcCmd where
  op : Nat
  target : Nat
  len : Nat
  /-- What it does has been done, or is under way. -/
  begun : Bool
  /-- Its result, where that is known; none while its work goes on. -/
  code : Option Nat
  data : Nat
  retry : Nat
  /-- Cores that fail their self-test, for RELEASE (R64). -/
  bad : List Nat
  /-- LOAD_GLADE_FW: the Glade starts (R65). -/
  starts : Bool
  deriving DecidableEq, Repr

/-- A block clearing by TLT_CMD.OP = 2 (R46): waiting, or under way. -/
structure ClrJob where
  block : Nat
  inst : Nat
  started : Bool
  commit : Bool
  deriving DecidableEq, Repr

/-- A sparing request or a takeover (R451 to R454). -/
structure Takeover where
  /-- The failing physical core. -/
  failing : Nat
  /-- The current candidate. -/
  spare : Nat
  reqid : Nat
  prev : Bool
  /-- Step 1 of R453 has come. -/
  started : Bool
  /-- The decision: approved or declined (R449). -/
  decided : Option Bool
  /-- Steps 2 and 3 have ended. -/
  drained : Bool
  checked : Bool
  /-- Candidates that failed (R454). -/
  failed : Nat
  /-- The spares whose STALE was set at step 1, by bit: they rank the candidates of the whole takeover (R450). -/
  stale : Nat
  deriving DecidableEq, Repr

/-- A partition's mailbox (R482, R483). -/
structure Mbox where
  /-- MAGIC and the ring indices are written: it is served. -/
  up : Bool
  reqHead : Nat
  reqTail : Nat
  rspTail : Nat
  recTail : Nat
  recSkip : Nat
  /-- The domain whose reset a request has asked for and whose end its response awaits (R485). -/
  reset : Option Nat
  /-- Request slots that were rung while the class 7 queue was full: they end with CODE 0x01 (R476). -/
  busy : List Nat
  deriving DecidableEq, Repr

/-- The state of the unit that holds the claim, which the standby follows (R470, R475, R519). -/
structure ForesterSt where
  banks : Tab TwigBank
  /-- Banks that have work, by bit (R475). -/
  busy : Nat
  /-- Banks stopped by a trap, by bit (R475). -/
  trapped : Nat
  /-- The bank whose trap was entered last. -/
  last : Nat
  ram : Tab Byte
  fcb : Nat
  fpg : Nat
  /-- Last accepted output sequence number by stage (R471). -/
  seqs : Tab (Option Nat)
  /-- The claim is lost with no takeover (R474). -/
  lost : Bool
  /-- `State.uptime` at the last restart of the watchdog; none before firmware starts (R477). -/
  kick : Option Nat
  deriving DecidableEq, Repr

/-- The clock, reset and power controller beside its registers (R498, R500, R508, R509). -/
structure PwrSt where
  /-- The common cap in units of 25 MHz; none where it is lifted. -/
  cap : Option Nat
  boostOff : Bool
  /-- Successive evaluations that met the raise condition with the cap lifted. -/
  good : Nat
  /-- Throttling has started, and its reason by LIMIT code. -/
  throttling : Option Nat
  prochot : Bool
  /-- The caps of Stands with a current above 140 A, by Stand. -/
  excess : Tab (Option Nat)
  /-- Tj ≥ 95 °C. -/
  hot : Bool
  /-- Frequency raises that wait for a regulator, by Stand. -/
  raise : Tab (Option Nat)
  /-- Stands held by an AVSBus error, by bit. -/
  hold : Nat
  /-- Successive polls that a rail left unanswered (R497). -/
  miss : Tab Nat
  /-- The package power of the last evaluations, newest first, in units of 0.1 W. -/
  power : List Nat
  deriving DecidableEq, Repr

/-- The instruction a JTAG TAP holds (R505). -/
inductive JtagIr where
  | bypass | idcode | sample | extest | clamp | highz
  deriving DecidableEq, Repr

/-- The I3C target (R506). -/
structure I3cSt where
  /-- The dynamic address. -/
  addr : Option Nat
  /-- The offset of the last private write. -/
  off : Nat
  /-- In-band interrupts are enabled (ENEC, DISEC). -/
  ibi : Bool
  /-- The mandatory byte of the last in-band interrupt that was raised. -/
  due : Option Nat
  /-- STATUS, and Tj ≥ TTHROT, as last compared. -/
  status : Nat
  above : Bool
  deriving DecidableEq, Repr

end Sys2Proof.Machine
end

