-- ==== Sys2Proof/Machine/State.lean ====
section
/-! DEFINITION. The state of the module as plain data, and the state at reset. -/

namespace Sys2Proof.Machine

/-- Why the block stops with a fault. -/
inductive Fault where
  /-- A rail beyond its absolute maximum, where "no behaviour is stated" (R494): raised by RAIL_OUT_OF_TOLERANCE alone; safe. -/
  | beyondRatings
  deriving DecidableEq, Repr

/-- Why a command is refused. -/
inductive Refusal where
  /-- A command with no meaning in this model, raised by `exec`; safe. -/
  | notModelled (mnemonic : String)
  deriving DecidableEq, Repr

/-- The reset value of state register `n` (R68, R109 to R111, R122, R136). MVB depends on the partition and is written at the entry to M-base + 0x000 (R119). -/
def srReset (n : Nat) : Word :=
  if n = 0x000 then 0x4003
  else if n = 0x00A then BitVec.allOnes 64
  else if n = 0x010 then 0x400
  else 0

/-- A thread as it stands before its first release: every register at the value of R68. -/
def Thread.reset : Thread where
  run := .held
  wait := .none
  g := []
  f := []
  pc := 0
  sr := []
  ssi := none
  msi := none
  mci := none
  sq := []
  sOvf := false
  mq := []
  mOvf := false
  resv := none
  defer := 0
  sb := []
  popped := 0
  trk := []
  wbs := []
  devFail := none
  devLoad := []
  retries := 0
  tkoPend := none
  rexPend := []
  wtwPend := false
  fpDue := false

/-- A core in reset, its caches and translation structures empty (R43, R108, R211). -/
def Core.reset : Core where
  held := true
  l1i := []
  l1d := []
  l2 := []
  side := []
  tlb := []
  utlbI := []
  utlbD := []
  wc := []
  l1iCnt := []
  l1dCnt := []
  disabling := []
  retryWin := 0
  passAt := none

/-- A line that this module does not hold. -/
def Line.none : Line := ⟨.i, 0, 0, 0, false, 0⟩

/-- A free Canopy entry (R246). -/
def CanEnt.free : CanEnt := ⟨.inv, 0, 0, 0⟩

/-- A Grove port before training. -/
def GPort.reset : GPort := ⟨0, 0, [], [], [], [], 0, 0, 0, []⟩

/-- A peer before the first exchange with it. -/
def Peer.reset : Peer := ⟨0, 0, [], [], false⟩

/-- A Root link in reset, its reset output asserted (R503). -/
def RootLink.reset : RootLink := ⟨true, [], [], false, 0, 0, [], false, false⟩

/-- A bank of a task that the engine starts: every register zero (R349). -/
def TwigBank.zero : TwigBank := ⟨[], false, false, [], 0, 0, none⟩

/-- A free task. -/
def TwigTask.free : TwigTask := ⟨0, 0, none, TwigBank.zero, false, false, 0, [], [], 0, 0, 0, 0, 0, 0, 0, 0, none, false⟩

/-- A Twig engine in reset; both vectors hold the HALT stub (R368). -/
def TwigEng.reset : TwigEng := ⟨[], [], 0, [], none, [], [], [], 0xF800, 0xF800, [], []⟩

/-- A slice before its first BIND. -/
def Slice.reset : Slice := ⟨[], [], [], none, [], [], 0⟩

/-- A Glade in reset, every port's reset output asserted (R319). -/
def GladeSt.reset : GladeSt := ⟨[], [], [], [], [], [], [], 0xFF⟩

/-- The Forester before its firmware starts. -/
def ForesterSt.reset : ForesterSt := ⟨[], 0, 0, 0, [], 0, 0, [], false, none⟩

/-- The power controller at power-up. -/
def PwrSt.reset : PwrSt := ⟨none, false, 0, none, false, [], false, [], 0, [], []⟩

/-- A mailbox that is not initialised. -/
def Mbox.down : Mbox := ⟨false, 0, 0, 0, 0, 0, none, []⟩

/-- The state of the block. (DESIGN CHOICE, notes/assumptions/4.md.) -/
structure State where
  /-- The commands that wait, first in, first out. -/
  pending : List Instr
  /-- The model's own counter behind the free values (notes/assumptions/1.md). -/
  fresh : Nat
  /-- The registers of the catalogue by key: current values, shadow values for rw-s fields (R8). -/
  regs : Tab Word
  /-- The active values of rw-s fields by register key (R38). -/
  active : Tab Word
  /-- The retained image: the committed entries by register key (R40). -/
  retained : Tab (Option Word)
  /-- Writes to rw-s fields held while their group commits: key, mask, value (R10). -/
  heldW : List (Nat × Word × Word)
  /-- What the last register read returned (R6). -/
  readData : Word
  /-- The load or block clearing in progress (R41, R46). -/
  ldr : Option LoadJob
  /-- Block clearings, oldest first (R46). -/
  clrs : List ClrJob
  /-- PWROK is high (R496). -/
  pwrok : Bool
  /-- WTHROW# and THERMTRIP# are asserted (R504, R509). -/
  wthrow : Bool
  thermtrip : Bool
  /-- The fused hash of the Denash root public key (R53). -/
  rootHash : BitVec 384
  /-- ROOTKEY of the committed image, and the OWNER key of the latest committed image with DELEG (R61). -/
  rootKey : Option (BitVec 768)
  ownerKey : Option (BitVec 768)
  /-- The service-port link is trained (R63). -/
  svcUp : Bool
  /-- The staging area of BAR2 (R54). -/
  bar2 : Tab Byte
  /-- The service command in progress (R57). -/
  svc : Option SvcCmd
  /-- An MSI-X message was sent within the last 10 µs; a DONE transition waits for the interval's end; messages sent (R57). -/
  msixBusy : Bool
  msixDue : Bool
  msixSent : Nat
  /-- Partitions whose machine firmware is loaded, and partitions released, by bit (R58, R63). -/
  mfw : Nat
  released : Nat
  /-- Sparing requests and takeovers in the order they were raised, and the next REQID (R447). -/
  tkos : List Takeover
  nextReq : Nat
  /-- The Forester pair (R470). -/
  fst : ForesterSt
  /-- The partition mailboxes (R482). -/
  mboxes : Tab Mbox
  pwr : PwrSt
  jtag : JtagIr
  /-- Boundary scan is in progress (R505). -/
  scan : Bool
  i3c : I3cSt
  /-- The block's last answer to an outside agent: a status (0 done, 1 Unsupported Request, 2 Completer Abort, 3 poisoned data) and bytes. -/
  outAns : Option (Nat × List Byte)
  /-- The last request the block put on a Glade port half: half, address (of a configuration request, TYPE × 2^48 + address), bytes written. -/
  portTx : Option (Nat × Nat × List Byte)
  /-- The Stands and the Glades held in reset, by bit (R63, R66). -/
  standRst : Nat
  gladeRst : Nat
  /-- TIME, the module time base (R100). -/
  time : Word
  /-- Nanoseconds since power-up, behind CPC_HEALTH.AGE (R457). -/
  uptime : Nat
  /-- The expanders' memory by link × 2^41 + device address. -/
  mem : Tab Byte
  /-- The expanders' poisoned lines, by the same address ÷ 256 (R273). -/
  mpois : Tab Bool
  /-- The lines of the L3 by line address PA[50:8] (R209, R210). -/
  lines : Tab Line
  /-- Canopy, by set × 16 + way (R245). -/
  canopy : Tab CanEnt
  /-- Canopy ways whose disable is in progress: bank × 16 + way (R249). -/
  canDis : List Nat
  /-- The home agent's tracker entries, in order of arrival (R231, R232). -/
  home : List HomeTx
  /-- This module's outstanding transactions (R237). -/
  out : List OutTx
  /-- Set purges in progress (R248). -/
  purges : List Purge
  /-- Other modules' broadcasts that this module performs (R178, R241). -/
  inb : List InBcast
  /-- Snoops of other modules that a constrained loop's line defers (R203), oldest first. -/
  snpQ : List Msg
  gports : Tab GPort
  peers : Tab Peer
  roots : Tab RootLink
  /-- Device targets marked failed (R193): register windows by block × 256 + instance, port halves by 0x10000 + half, paths to a module by 0x20000 + module. -/
  failed : List Nat
  glades : Tab GladeSt
  engines : Tab TwigEng
  kst : KeyStore
  threads : Tab Thread
  cores : Tab Core
  /-- The RSEQ of the last record (R461). -/
  rseq : Nat
  /-- Records the collector holds for class 3 (R476). -/
  collHeld : List Rec
  /-- The Forester's work queues by class, oldest first (R476). -/
  fq : Tab (List QEnt)
  /-- The host log buffer by slot, and how many records it holds from HEAD (R479). -/
  flog : Tab (Option Rec)
  flogCnt : Nat
  /-- Contained records that wait in class 3 for room in the log buffer (R479). -/
  flogWait : List Rec
  /-- Windthrow: 0 none, 1 warned, 2 Mycel closed, 3 stopped (R466); and nanoseconds since its trigger. -/
  wind : Nat
  windAge : Nat
  deriving DecidableEq, Repr

/-- The module at power-up, before PWROK rises: every field at its reset value. (DESIGN CHOICE, notes/assumptions/3.md.) -/
def State.reset : State where
  pending := []
  fresh := 0
  regs := []
  active := []
  retained := []
  heldW := []
  readData := 0
  ldr := none
  clrs := []
  pwrok := false
  wthrow := false
  thermtrip := false
  rootHash := 0
  rootKey := none
  ownerKey := none
  svcUp := false
  bar2 := []
  svc := none
  msixBusy := false
  msixDue := false
  msixSent := 0
  mfw := 0
  released := 0
  tkos := []
  nextReq := 0
  fst := ForesterSt.reset
  mboxes := []
  pwr := PwrSt.reset
  jtag := .idcode
  scan := false
  i3c := ⟨none, 0, true, none, 0, false⟩
  outAns := none
  portTx := none
  standRst := 0xF
  gladeRst := 0xF
  time := 0
  uptime := 0
  mem := []
  mpois := []
  lines := []
  canopy := []
  canDis := []
  home := []
  out := []
  purges := []
  inb := []
  snpQ := []
  gports := []
  peers := []
  roots := []
  failed := []
  glades := []
  engines := []
  kst := ⟨[], 0⟩
  threads := []
  cores := []
  rseq := 0
  collHeld := []
  fq := []
  flog := []
  flogCnt := 0
  flogWait := []
  wind := 0
  windAge := 0

end Sys2Proof.Machine
end

