-- ==== Sys2Proof/Machine/Ops.lean ====
section
/-! DEFINITION. The named operations over the state: registers and their fields, threads and cores, free values, error records, the placement of memory. -/

namespace Sys2Proof.Machine

/-! Registers. -/

/-- The value of a register (for rw-s fields the shadow value, R8). -/
def State.reg (s : State) (r : Reg) : Word := Tab.get regReset s.regs r.key

/-- Replace the value of a register. -/
def State.setReg (s : State) (r : Reg) (v : Word) : State :=
  { s with regs := Tab.set regReset s.regs r.key v }

/-- A field of a register. -/
def State.getF (s : State) (r : Reg) (f : Fld) : Nat := f.get (s.reg r)

/-- Replace a field of a register. -/
def State.setF (s : State) (r : Reg) (f : Fld) (v : Nat) : State := s.setReg r (f.put (s.reg r) v)

/-- A counter field advances by `n` and stops at all ones (R11). -/
def State.incF (s : State) (r : Reg) (f : Fld) (n : Nat := 1) : State :=
  s.setF r f (min (s.getF r f + n) (2 ^ f.width - 1))

/-- The default of the active values: zero until the first commit that supplies them (R13). -/
def actDefault (_ : Nat) : Word := 0

/-- The active value of a register's rw-s fields (R38). -/
def State.act (s : State) (r : Reg) : Word := Tab.get actDefault s.active r.key

/-- An active field (R38). -/
def State.actF (s : State) (r : Reg) (f : Fld) : Nat := f.get (s.act r)

/-- Replace the active value of a register. -/
def State.setAct (s : State) (r : Reg) (v : Word) : State :=
  { s with active := Tab.set actDefault s.active r.key v }

/-- The retained value of a register, if the image holds one (R40). -/
def State.retainedOf (s : State) (r : Reg) : Option Word := Tab.get (fun _ => Option.none) s.retained r.key

/-- Enter a value into the retained image (R40). -/
def State.retain (s : State) (r : Reg) (v : Word) : State :=
  { s with retained := Tab.set (fun _ => Option.none) s.retained r.key (some v) }

/-! Free values. -/

/-- A free number below `n`. -/
def State.freeBelow (s : State) (n : Nat) : Nat := Config.freeNat s.fresh % n

/-- Advance past a free value that was used. -/
def State.tickFree (s : State) : State := { s with fresh := s.fresh + 1 }

/-! Threads and cores. -/

/-- The default entry of the thread table. -/
def thrDefault (_ : Nat) : Thread := Thread.reset

/-- A thread by number. -/
def State.thr (s : State) (t : Nat) : Thread := Tab.get thrDefault s.threads t

/-- Replace a thread. -/
def State.setThr (s : State) (t : Nat) (x : Thread) : State :=
  { s with threads := Tab.set thrDefault s.threads t x }

/-- Change a thread. -/
def State.modThr (s : State) (t : Nat) (f : Thread → Thread) : State := s.setThr t (f (s.thr t))

/-- The default entry of the core table. -/
def coreDefault (_ : Nat) : Core := Core.reset

/-- A physical core. -/
def State.core (s : State) (c : Nat) : Core := Tab.get coreDefault s.cores c

/-- Replace a core. -/
def State.setCore (s : State) (c : Nat) (x : Core) : State :=
  { s with cores := Tab.set coreDefault s.cores c x }

/-- Change a core. -/
def State.modCore (s : State) (c : Nat) (f : Core → Core) : State := s.setCore c (f (s.core c))

/-- Read a general register; g0 reads as zero (R69). -/
def Thread.gr (x : Thread) (r : GReg) : Word :=
  if r.val = 0 then 0 else Tab.get (fun _ => (0 : Word)) x.g r.val

/-- Write a general register; a write to g0 is discarded (R69). -/
def Thread.setGr (x : Thread) (r : GReg) (v : Word) : Thread :=
  if r.val = 0 then x else { x with g := Tab.set (fun _ => (0 : Word)) x.g r.val v }

/-- Read a floating-point register (R69). -/
def Thread.fr (x : Thread) (r : Nat) : Word := Tab.get (fun _ => (0 : Word)) x.f r

/-- Write a floating-point register (R69). -/
def Thread.setFr (x : Thread) (r : Nat) (v : Word) : Thread :=
  { x with f := Tab.set (fun _ => (0 : Word)) x.f r v }

/-- Read a state register as stored (R99). -/
def Thread.srg (x : Thread) (n : Nat) : Word := Tab.get srReset x.sr n

/-- Write a state register as stored (R99). -/
def Thread.setSr (x : Thread) (n : Nat) (v : Word) : Thread :=
  { x with sr := Tab.set srReset x.sr n v }

/-! The state registers of R99 by number. -/
def SR_PST : Nat := 0x000
def SR_SCS : Nat := 0x001
def SR_SVB : Nat := 0x002
def SR_SRP : Nat := 0x003
def SR_SSS : Nat := 0x004
def SR_SSCR : Nat := 0x005
def SR_SFA : Nat := 0x006
def SR_SIE : Nat := 0x008
def SR_SIP : Nat := 0x009
def SR_STCMP : Nat := 0x00A
def SR_FCS : Nat := 0x010
def SR_FPEA : Nat := 0x011
def SR_FPEI : Nat := 0x012
def SR_ASTAG : Nat := 0x020
def SR_TIME : Nat := 0x030
def SR_CYCLE : Nat := 0x031
def SR_INSTRET : Nat := 0x032
def SR_TID : Nat := 0x033
def SR_THPR : Nat := 0x034
def SR_MCS : Nat := 0x100
def SR_MVB : Nat := 0x101
def SR_MRP : Nat := 0x102
def SR_MSS : Nat := 0x103
def SR_MSCR : Nat := 0x104
def SR_MFA : Nat := 0x105
def SR_PCORE : Nat := 0x106
def SR_PARTN : Nat := 0x107
def SR_MBASE : Nat := 0x108
def SR_MIE : Nat := 0x10A
def SR_MIP : Nat := 0x10B
def SR_MCE : Nat := 0x10C
def SR_PMC (n : Nat) : Nat := 0x200 + n
def SR_PMSEL (n : Nat) : Nat := 0x208 + n

/-! PST fields (R109). -/
def PST_MDT : Fld := ⟨15, 1⟩
def PST_MTA : Fld := ⟨14, 1⟩
def PST_MGIE : Fld := ⟨13, 1⟩
def PST_STA : Fld := ⟨7, 1⟩
def PST_SGIE : Fld := ⟨6, 1⟩
def PST_FEN : Fld := ⟨5, 1⟩
def PST_STR : Fld := ⟨4, 1⟩
def PST_PL : Fld := ⟨0, 2⟩

/-! FCS and FPEI fields (R136, R137). -/
def FCS_RM : Fld := ⟨10, 3⟩
def FCS_EN : Fld := ⟨5, 5⟩
def FCS_FL : Fld := ⟨0, 5⟩
def FPEI_PEND : Fld := ⟨63, 1⟩
def FPEI_PL : Fld := ⟨48, 1⟩
def FPEI_EXC : Fld := ⟨40, 5⟩
def FPEI_CNT : Fld := ⟨32, 8⟩
def FPEI_WORD : Fld := ⟨0, 32⟩

/-- The privilege level of a thread: 0 U, 1 S, 3 M (R109). -/
def Thread.pl (x : Thread) : Nat := PST_PL.get (x.srg SR_PST)

/-- A one-bit field of PST. -/
def Thread.pstBit (x : Thread) (f : Fld) : Bool := f.get (x.srg SR_PST) == 1

/-- Replace a field of PST. -/
def Thread.setPst (x : Thread) (f : Fld) (v : Nat) : Thread := x.setSr SR_PST (f.put (x.srg SR_PST) v)

/-- This module's number (R249). -/
def State.self (s : State) : Nat := s.getF GRV_GROUP GRV_GROUP_SELF

/-- Whether physical core `c` is active (R446). -/
def State.coreActive (s : State) (c : Nat) : Bool := s.actF (HWD_ROLE c) HWD_ROLE_ROLE == 0

/-- The physical core that runs logical core `l` (R67). -/
def State.pcoreOfL (s : State) (l : Nat) : Nat :=
  ((List.range 72).find? fun c => s.coreActive c && s.actF (HWD_ROLE c) HWD_ROLE_LCORE == l).getD 0

/-- The physical core that runs thread `t` (R67). -/
def State.pcore (s : State) (t : Nat) : Nat := s.pcoreOfL (t / 2)

/-- The logical core of a physical core (R67). -/
def State.lcore (s : State) (c : Nat) : Nat := s.actF (HWD_ROLE c) HWD_ROLE_LCORE

/-- The partition of a physical core (R444). -/
def State.corePart (s : State) (c : Nat) : Nat := s.actF (HWD_PART c) HWD_PART_PART

/-- The partition of a thread (R281). -/
def State.part (s : State) (t : Nat) : Nat := s.corePart (s.pcore t)

/-- The M-base of a partition (R111). -/
def State.mbase (s : State) (p : Nat) : Nat := s.actF (FBK_MBASE p) FBK_MBASE_MBASE * 4096

/-- A thread runs unless it is held or stopped (R68, R116). -/
def State.running (s : State) (t : Nat) : Bool := (s.thr t).run == .running

/-- The threads that run, ascending. -/
def State.runningThreads (s : State) : List Nat := (List.range 128).filter s.running

/-- The Stand of a physical core (R15). -/
def standOf (c : Nat) : Nat := c / 18

/-! Error records. -/

/-- The summary of a record in the layout of MCE (R462). -/
def Rec.summary (r : Rec) : Word :=
  BitVec.ofNat 64 (r.rseq * 2 ^ 32 + r.block % 256 * 2 ^ 24 + r.typ % 256 * 2 ^ 16 + r.inst % 256 * 2 ^ 8
    + r.cls % 4 * 2 + 1)

/-- The 64 bytes of a record (R459). -/
def Rec.bytes (module : Nat) (r : Rec) : List Byte :=
  let head := leBytes 4 r.rseq ++ leBytes 1 r.block ++ leBytes 1 r.inst ++ leBytes 1 r.cls ++ leBytes 1 r.typ
    ++ leBytes 8 r.time.toNat ++ leBytes 8 (r.addr.getD 0) ++ leBytes 1 (r.part.getD 0xFF)
    ++ leBytes 1 (b2n r.addr.isSome + 2 * b2n r.thread.isSome + 4 * b2n r.merged)
    ++ leBytes 2 r.count ++ leBytes 1 (r.thread.getD 0) ++ leBytes 1 module ++ leBytes 2 0
    ++ (r.detail ++ List.replicate 28 0).take 28
  head ++ leBytes 4 (crc32c head).toNat

/-- The default of the work queues. -/
def fqDefault (_ : Nat) : List QEnt := []

/-- The queue of a work class (R476). -/
def State.queue (s : State) (c : Nat) : List QEnt := Tab.get fqDefault s.fq c

/-- Forester firmware has started: a unit holds a claim (R472). -/
def State.forFw (s : State) : Bool := s.getF FOR_CLAIM FOR_CLAIM_CLAIMA != 0 || s.getF FOR_CLAIM FOR_CLAIM_CLAIMB != 0

/-- The default bank of a Forester processor. -/
def bankDefault (_ : Nat) : TwigBank := TwigBank.zero

/-- A Forester bank enters a vector: it has work, and runs at that address (R475). -/
def State.vectorBank (s : State) (b pc : Nat) : State :=
  { s with fst := { s.fst with
      banks := Tab.set bankDefault s.fst.banks b { Tab.get bankDefault s.fst.banks b with pc := pc }
      busy := setBit s.fst.busy b true } }

/-- Replace the queue of a work class, keeping FOR_QSTAT.HIGH (R480); an arrival enters the class's idle bank at its vector (R475). -/
def State.setQueue (s : State) (c : Nat) (q : List QEnt) : State :=
  let s := if s.forFw && decide ((s.queue c).length < q.length) && !bitOf s.fst.busy (c - 1) then s.vectorBank (c - 1) 0x40 else s
  let s := { s with fq := Tab.set fqDefault s.fq c q }
  let r := FOR_QSTAT (c - 1)
  if s.getF r FOR_QSTAT_HIGH < q.length then s.setF r FOR_QSTAT_HIGH q.length else s

/-- The default of the log slots. -/
def flogDefault (_ : Nat) : Option Rec := none

/-- A slot of the host log (R479). -/
def State.logSlot (s : State) (i : Nat) : Option Rec := Tab.get flogDefault s.flog i

/-- Replace a slot of the host log. -/
def State.setLogSlot (s : State) (i : Nat) (r : Option Rec) : State :=
  { s with flog := Tab.set flogDefault s.flog i r }

/-- The slots held, from HEAD (R479). -/
def State.logSlots (s : State) : List Nat :=
  (List.range s.flogCnt).map fun i => (s.getF FOR_LOGSTAT FOR_LOGSTAT_HEAD + i) % 4096

/-- A record enters the host log buffer, under the rules of R479 when it is full. -/
def State.enterLog (s : State) (r : Rec) : State :=
  if s.flogCnt < 4096 then
    { (s.setLogSlot ((s.getF FOR_LOGSTAT FOR_LOGSTAT_HEAD + s.flogCnt) % 4096) (some r)) with flogCnt := s.flogCnt + 1 }
  else if r.cls = 1 then s.incF FOR_LOGSTAT FOR_LOGSTAT_COAL
  else
    match s.logSlots.find? (fun i => match s.logSlot i with | some x => x.cls == 1 | none => false) with
    | some i =>
      let n := match s.logSlot i with | some x => x.count | none => 0
      (s.setLogSlot i (some r)).incF FOR_LOGSTAT FOR_LOGSTAT_COAL n
    | none => { s with flogWait := s.flogWait ++ [r] }

/-- Whether a queued record takes the merge of an arriving corrected record (R461). -/
def Rec.mergesWith (r x : Rec) : Bool := r.block == x.block && r.inst == x.inst && r.typ == x.typ

/-- A record after one more event merged into it (R461). -/
def Rec.bump (r : Rec) : Rec := { r with merged := true, count := min (r.count + 1) 0xFFFF }

/-- Merge an arriving corrected record into the first queued record that matches, in the queue and in its log slot (R461). -/
def State.mergeRec (s : State) (x : Rec) : State :=
  let q := s.queue 6
  match q.find? (fun e => match e.rcd with | some r => r.mergesWith x | none => false) with
  | some e =>
    let s := s.setQueue 6 (q.map fun y => if y == e then { y with rcd := y.rcd.map Rec.bump } else y)
    match e.rcd, s.logSlots.find? (fun i => s.logSlot i == e.rcd) with
    | some r, some i => s.setLogSlot i (some r.bump)
    | _, _ => s
  | none => s.incF FOR_LOGSTAT FOR_LOGSTAT_COAL

/-- The work of a record: kind 1, its RSEQ. (DEDUCED, notes/assumptions/65.md.) -/
def recWork (r : Rec) : QEnt := ⟨⟨1, BitVec.ofNat 64 r.rseq⟩, some r⟩

/-- The collector hands a numbered record to class 3 or class 6 (R461). -/
def State.handOn (s : State) (r : Rec) : State :=
  if r.cls = 1 then
    if (s.queue 6).length < 256 then (s.setQueue 6 (s.queue 6 ++ [recWork r])).enterLog r
    else (s.mergeRec r).incF (FOR_QSTAT 5) FOR_QSTAT_FULL
  else if (s.queue 3).length < 256 then (s.setQueue 3 (s.queue 3 ++ [recWork r])).enterLog r
  else { (s.incF (FOR_QSTAT 2) FOR_QSTAT_FULL) with collHeld := s.collHeld ++ [r] }

/-- The next RSEQ (R461). -/
def nextRseq (n : Nat) : Nat := if n = 0xFFFFFFFF then 1 else n + 1

/-- Set MIP.MCI in every running thread of a partition (R464). -/
def State.setMci (s : State) (p : Nat) (w : Word) : State :=
  (s.runningThreads.filter fun t => s.part t == p).foldl (fun s t => s.modThr t fun x => { x with mci := some w }) s

/-- What a block reports to the collector: everything of a record but its RSEQ and TIME (R459). -/
structure RecIn where
  block : Nat
  inst : Nat := 0
  cls : Nat := 1
  typ : Nat
  addr : Option Nat := none
  part : Option Nat := none
  thread : Option Nat := none
  detail : List Byte := []
  /-- A machine check is taken for the record (R463). -/
  mchk : Bool := false

/-- The record a report becomes (R461). -/
def State.recOf (s : State) (i : RecIn) : Rec where
  rseq := nextRseq s.rseq
  block := i.block
  inst := i.inst
  cls := i.cls
  typ := i.typ
  time := s.time
  addr := i.addr
  part := i.part
  thread := i.thread
  merged := false
  count := 1
  detail := i.detail

/-- The collector captures a report: RSEQ, the queues, the host log and MIP.MCI (R461, R464, R479). (DESIGN CHOICE, notes/assumptions/33.md.) -/
def State.log (s : State) (i : RecIn) : State :=
  let r := s.recOf i
  let s := { s with rseq := r.rseq }.handOn r
  match i.part with
  | some p => if i.cls = 2 ∧ i.mchk = false then s.setMci p r.summary else s
  | none => s

/-- A corrected-class record without address (R458). -/
def State.logC (s : State) (block inst typ : Nat) (detail : List Byte := []) : State :=
  s.log { block := block, inst := inst, typ := typ, detail := detail }

/-! Placement of memory (R271). -/

/-- The enabled interleave set that holds offset `o` of this module's window (R271). -/
def State.ilSet (s : State) (o : Nat) : Option Nat :=
  (List.range 16).find? fun i =>
    s.actF (HOM_IL i) HOM_IL_EN == 1
      && decide (s.actF (HOM_IL i) HOM_IL_BASE * 2 ^ 30 ≤ o)
      && decide (o < (s.actF (HOM_IL i) HOM_IL_BASE + s.actF (HOM_IL i) HOM_IL_SIZE) * 2 ^ 30)

/-- The link and link-local address of a memory address of this module (R271). -/
def State.place (s : State) (pa : Nat) : Option (Nat × Nat) :=
  let o := pa % 2 ^ 45
  match s.ilSet o with
  | none => none
  | some i =>
    let g := if s.actF (HOM_IL i) HOM_IL_GRAN = 0 then 256 else 4096
    let r := o - s.actF (HOM_IL i) HOM_IL_BASE * 2 ^ 30
    let n := s.actF (HOM_IL i) HOM_IL_NLINK
    let q := r / g
    some (s.actF (HOM_ILMAP i) (HOM_ILMAP_LINK (q % n)), q / n * g + r % g)

/-- The module that is home of a memory address (R227). -/
def homeOf (pa : Nat) : Nat := pa / 2 ^ 48 % 8

/-- The line address of a physical address (R209). -/
def lineOf (pa : Nat) : Nat := pa % 2 ^ 51 / 256

/-- The home module of a line. -/
def lineHome (l : Nat) : Nat := l / 2 ^ 40 % 8

/-- What a byte of an expander that nothing has written reads as: zero (DESIGN CHOICE, notes/assumptions/2.md). -/
def memDefault (_ : Nat) : Byte := 0

/-- The canonical form of the expanders' memory. -/
def memWf (m : Tab Byte) : Bool := Tab.wf memDefault m

/-- The key of a device address of a link. -/
def memKey (link la : Nat) : Nat := link * 2 ^ 41 + la

/-- A byte of an expander. -/
def State.memByte (s : State) (k : Nat) : Byte := Tab.get memDefault s.mem k

/-- Write bytes to consecutive keys. -/
def memPut (m : Tab Byte) (k : Nat) : List Byte → Tab Byte
  | [] => m
  | b :: t => memPut (Tab.set memDefault m k b) (k + 1) t

/-- The line of an expander at a device line address (a multiple of 256). -/
def State.memLine (s : State) (link la : Nat) : LineData :=
  lineOfBytes ((List.range 256).map fun i => s.memByte (memKey link la + i))

/-- Whether an expander's line is poisoned (R273). -/
def State.memPois (s : State) (link la : Nat) : Bool := Tab.get (fun _ => false) s.mpois (memKey link la / 256)

/-- Write a line of an expander, with or without poison (R273). -/
def State.setMemLine (s : State) (link la : Nat) (d : LineData) (p : Bool) : State :=
  { s with
    mem := memPut s.mem (memKey link la) (lineBytes d 0 256)
    mpois := Tab.set (fun _ => false) s.mpois (memKey link la / 256) p }

/-! Performance counters (R101). -/

/-- Add `n` to the thread's counters that select event `e`; they wrap (R99, R101). -/
def Thread.pmc (x : Thread) (e : Nat) (n : Nat := 1) : Thread :=
  (List.range 8).foldl (fun x i =>
    if (x.srg (SR_PMSEL i)).toNat = e then x.setSr (SR_PMC i) (x.srg (SR_PMC i) + BitVec.ofNat 64 n) else x) x

/-- Count an event for both threads of a core (R226). -/
def State.pmcCore (s : State) (c e : Nat) : State :=
  let l := s.lcore c
  (s.modThr (2 * l) fun x => x.pmc e).modThr (2 * l + 1) fun x => x.pmc e

end Sys2Proof.Machine
end

