-- ==== Sys2Proof/Machine/Link.lean ====
section
/-! DEFINITION. The Grove link layer seen from this module: routes, retry buffers, credits, sending a message (R234 to R260). -/

namespace Sys2Proof.Machine

/-! Opcodes of R235. -/
def OPC_RDS : Nat := 0x01
def OPC_RDO : Nat := 0x02
def OPC_UPG : Nat := 0x03
def OPC_RDZ : Nat := 0x04
def OPC_WBK : Nat := 0x05
def OPC_EVN : Nat := 0x06
def OPC_CMW : Nat := 0x07
def OPC_CMF : Nat := 0x08
def OPC_CMI : Nat := 0x09
def OPC_PWB : Nat := 0x0A
def OPC_SNPS : Nat := 0x10
def OPC_SNPO : Nat := 0x11
def OPC_SNPI : Nat := 0x12
def OPC_SNPW : Nat := 0x13
def OPC_BINV : Nat := 0x14
def OPC_SPURGE : Nat := 0x15
def OPC_CMP : Nat := 0x20
def OPC_GNT : Nat := 0x21
def OPC_SRSP : Nat := 0x22
def OPC_INVACK : Nat := 0x23
def OPC_WACK : Nat := 0x24
def OPC_CMACK : Nat := 0x25
def OPC_PACK : Nat := 0x26
def OPC_ERR : Nat := 0x27
def OPC_DATA : Nat := 0x30
def OPC_SRSPD : Nat := 0x31
def OPC_MRD : Nat := 0x38
def OPC_MWR : Nat := 0x39
def OPC_TLBB : Nat := 0x3A
def OPC_MRSP : Nat := 0x3C
def OPC_TLBA : Nat := 0x3D

/-- The virtual channel of an opcode (R235, R237). -/
def vcOf (opc : Nat) : Nat :=
  if opc < 0x10 then 0 else if opc < 0x20 then 1 else if opc < 0x30 then 2 else if opc < 0x38 then 3
  else if opc < 0x3C then 4 else 5

/-- The slots of a message: its header and payload (R234, R235). -/
def Msg.slots (m : Msg) : Nat :=
  1 + (if m.line.isSome then 16 else if m.opc = OPC_MWR ∨ m.opc = OPC_TLBB then 1
       else if m.opc = OPC_MRSP ∧ m.st = 1 then 1 else 0)

/-- The bucket of a message: of its line for coherent messages, 0 otherwise (R251). -/
def Msg.bucket (m : Msg) : Nat :=
  if vcOf m.opc < 4 then (m.la % 8) ^^^ (m.la / 8 % 8) ^^^ (m.la / 64 % 8) else 0

/-- The default Grove port. -/
def gpDefault (_ : Nat) : GPort := GPort.reset

/-- A Grove port. -/
def State.gp (s : State) (p : Nat) : GPort := Tab.get gpDefault s.gports p

/-- Replace a Grove port. -/
def State.setGp (s : State) (p : Nat) (x : GPort) : State := { s with gports := Tab.set gpDefault s.gports p x }

/-- Change a Grove port. -/
def State.modGp (s : State) (p : Nat) (f : GPort → GPort) : State := s.setGp p (f (s.gp p))

/-- The default peer. -/
def peerDefault (_ : Nat) : Peer := Peer.reset

/-- What is kept for another module. -/
def State.peer (s : State) (m : Nat) : Peer := Tab.get peerDefault s.peers m

/-- Replace what is kept for another module. -/
def State.setPeer (s : State) (m : Nat) (x : Peer) : State := { s with peers := Tab.set peerDefault s.peers m x }

/-- Change what is kept for another module. -/
def State.modPeer (s : State) (m : Nat) (f : Peer → Peer) : State := s.setPeer m (f (s.peer m))

/-- STATE of a Grove port (R257). -/
def State.gpState (s : State) (p : Nat) : Nat := s.getF (GRV_STAT p) GRV_STAT_STATE

/-- Whether a port is enabled (R249). -/
def State.gpEn (s : State) (p : Nat) : Bool := s.actF GRV_PMAP (GRV_PMAP_EN p) == 1

/-- The module at the far end of a port (R249). -/
def State.gpPeer (s : State) (p : Nat) : Nat := s.actF GRV_PMAP (GRV_PMAP_PEER p)

/-- The enabled ports toward a module: its bundle (R250). -/
def State.bundle (s : State) (m : Nat) : List Nat :=
  (List.range 7).filter fun p => s.gpEn p && s.gpPeer p == m

/-- Whether a port carries traffic: active, or in a quick retrain, which keeps its buffers (R254, R259). -/
def State.gpUp (s : State) (p : Nat) : Bool := s.gpState p == 2 || s.gpState p == 3

/-- Whether a module is a member of the Grove (R249). -/
def State.member (s : State) (m : Nat) : Bool := bitOf (s.actF GRV_GROUP GRV_GROUP_MEMB) m

/-- Whether a module is reachable now (R249). -/
def State.live (s : State) (m : Nat) : Bool := bitOf (s.getF GRV_GROUP GRV_GROUP_LIVE) m

/-- The other live members of the Grove. -/
def State.liveOthers (s : State) : List Nat := (List.range 8).filter fun m => s.live m && m != s.self

/-- A module is reached directly when a port of its bundle carries traffic. -/
def State.direct (s : State) (m : Nat) : Bool := (s.bundle m).any s.gpUp

/-- The relay toward a module with no direct port: the lowest-numbered live member this module reaches directly (R251). Whether that member has an active port to the far end is outside this module (notes/assumptions/20.md). -/
def State.relay (s : State) (m : Nat) : Option Nat :=
  (List.range 8).find? fun v => v != m && v != s.self && s.member v && s.direct v && !(s.peer v).severed

/-- Set the fields of GRV_ROUTE and GRV_GROUP.LIVE for a module from the ports' states (R249, R251). -/
def State.routeOne (s : State) (m : Nat) : State :=
  let w := s.reg GRV_ROUTE
  let own := m == s.self
  let up := s.member m && !(s.peer m).severed && (s.direct m || (s.relay m).isSome)
  let via := (s.relay m).getD 0
  let port := ((s.bundle (if s.direct m then m else via)).find? s.gpUp).getD 0
  let det := up && !s.direct m
  let w := (GRV_ROUTE_REACH m).put w (b2n (own || up))
  let w := (GRV_ROUTE_DETOUR m).put w (b2n (det && !own))
  let w := (GRV_ROUTE_VIA m).put w (if det && !own then via else 0)
  let w := (GRV_ROUTE_PORT m).put w (if up && !own then port else 0)
  let s := s.setReg GRV_ROUTE w
  let live := setBit (s.getF GRV_GROUP GRV_GROUP_LIVE) m ((own && s.member m) || up)
  s.setF GRV_GROUP GRV_GROUP_LIVE live

/-- Refresh the routes after a port's state has changed (R251). -/
def State.refreshRoutes (s : State) : State := (List.range 8).foldl State.routeOne s

/-- Whether a flit's slots find credits on its virtual channel (R237). -/
def GPort.room (x : GPort) (b : FlitBody) : Bool :=
  decide (x.buf.length < 1024) &&
    match b with
    | .msg m => decide (Tab.get (fun _ => 0) x.cred (vcOf m.opc) + m.slots ≤ Config.grvCredits (vcOf m.opc))
    | _ => true

/-- Send one flit that has room: it enters the retry buffer (R253). -/
def GPort.push (x : GPort) (b : FlitBody) : GPort :=
  let x := { x with buf := x.buf ++ [⟨x.txSeq, b⟩], txSeq := (x.txSeq + 1) % 4096 }
  match b with
  | .msg m =>
    { x with cred := Tab.set (fun _ => 0) x.cred (vcOf m.opc) (Tab.get (fun _ => 0) x.cred (vcOf m.opc) + m.slots) }
  | _ => x

/-- Hand a flit to a port: sent at once, or it waits for room behind those that wait (R253). -/
def GPort.offer (x : GPort) (b : FlitBody) : GPort :=
  if x.waitQ = [] ∧ x.room b = true then x.push b else { x with waitQ := x.waitQ ++ [b] }

/-- Send waiting flits while they find room. -/
def GPort.pump : Nat → GPort → GPort
  | 0, x => x
  | n + 1, x =>
    match x.waitQ with
    | [] => x
    | b :: t => if x.room b then GPort.pump n ({ x with waitQ := t }.push b) else x

/-- The port of a bundle that carries a bucket, if it is up (R251). -/
def State.bucketPort (s : State) (m b : Nat) : Option Nat :=
  (s.bundle m).find? fun p => s.gpUp p && bitOf (s.gp p).buckets b

/-- A port of the bundle was lost and its RESUME has not yet arrived, so traffic waits for the replay (R258). -/
def State.handshake (s : State) (m : Nat) : Bool := (s.bundle m).any fun p => (s.gp p).resumeFor != []

/-- Send a message toward its destination: directly, by detour, or stalled while no path exists or a replay is due; discarded toward a severed peer (R251, R258, R260). -/
def State.send (s : State) (m : Msg) : State :=
  if (s.peer m.dst).severed then s
  else
    match s.bucketPort m.dst m.bucket with
    | some p => s.modGp p fun x => x.offer (.msg m)
    | none =>
      if s.direct m.dst || s.handshake m.dst then s.modPeer m.dst fun x => { x with stalled := x.stalled ++ [m] }
      else
        match s.relay m.dst with
        | some v =>
          match (s.bundle v).find? s.gpUp with
          | some p =>
            let x := s.peer m.dst
            let b := FlitBody.relayed s.self m.dst x.ptx ((x.prx + 4095) % 4096) (some { m with rly := true })
            let s := s.setPeer m.dst
              { x with ptx := (x.ptx + 1) % 4096, pbuf := (x.pbuf ++ [Flit.mk x.ptx b]).drop ((x.pbuf.length + 1) - 1024) }
            s.modGp p fun y => y.offer b
          | none => s.modPeer m.dst fun x => { x with stalled := x.stalled ++ [m] }
        | none => s.modPeer m.dst fun x => { x with stalled := x.stalled ++ [m] }

/-- Send what was stalled toward a module, in order. -/
def State.unstall (s : State) (m : Nat) : State :=
  let l := (s.peer m).stalled
  l.foldl State.send (s.modPeer m fun x => { x with stalled := [] })

/-- A message from this module with every unused field zero (R234). -/
def State.mkMsg (s : State) (opc dst la : Nat) : Msg where
  opc := opc
  src := s.self
  dst := dst
  rqm := 0
  tid := 0
  rtid := 0
  st := 0
  psn := false
  rly := false
  part := 0
  la := la
  aux := 0
  line := none
  w0 := 0
  w1 := 0

/-- Whether a flit of the retry buffer is covered by LACK (R252, R253). -/
def covered (lack lseq : Nat) : Bool := decide ((lack + 4096 - lseq) % 4096 < 2048)

/-- LACK frees the retry-buffer entries it covers; progress restarts the replay count (R253). -/
def GPort.ack (x : GPort) (lack : Nat) : GPort :=
  let b := x.buf.filter fun f => !covered lack f.lseq
  let x := { x with buf := b, replays := if b.length < x.buf.length then 0 else x.replays }
  GPort.pump x.waitQ.length x

/-- CRED returns credits of a virtual channel (R252). -/
def GPort.credit (x : GPort) (vc n : Nat) : GPort :=
  let x := { x with cred := Tab.set (fun _ => 0) x.cred vc (Tab.get (fun _ => 0) x.cred vc - n) }
  GPort.pump x.waitQ.length x

/-- A quick retrain starts (R254, R257). -/
def State.quickRetrain (s : State) (p : Nat) : State :=
  if s.gpState p = 2 then
    (((s.setF (GRV_STAT p) GRV_STAT_STATE 3).incF (GRV_ERR p) GRV_ERR_QRETRAIN).logC 0x08 p 0x0C)
  else s

/-- A flit that arrives on a port: LACK is taken; a flit in order goes on to `k`, any other is discarded and answered with NAK (R253). A port that is not active receives nothing. -/
def State.rxFlit (s : State) (p lseq lack : Nat) (k : State → State) : State :=
  if s.gpState p = 2 then
    let s := s.modGp p fun x => x.ack lack
    if lseq = (s.gp p).rxSeq then k (s.modGp p fun x => { x with rxSeq := (x.rxSeq + 1) % 4096 })
    else s.modGp p fun x => { x with ctl := .nak x.rxSeq :: x.ctl }
  else s

end Sys2Proof.Machine
end

