-- ==== Sys2Proof/Machine/Cache.lean ====
section
/-! DEFINITION. The caches: placement functions, tags, presence, and lines entering and leaving the L3 (R208 to R213, R222 to R229). -/

namespace Sys2Proof.Machine

/-! Placement (R209). -/

/-- The L1 set of a line: PA[13:8]. -/
def l1Set (l : Nat) : Nat := l % 64

/-- The L2 set of a line. -/
def l2Set (l : Nat) : Nat :=
  bitsOf l 8 0 ^^^ bitsOf l 17 9 ^^^ bitsOf l 26 18 ^^^ bitsOf l 35 27 ^^^ bitsOf l 42 36

/-- The L3 slice of a line: 9 × y + z. -/
def l3Slice (l : Nat) : Nat :=
  let y := (List.range 14).foldl (fun y i => y ^^^ bitsOf l (3 * i + 2) (3 * i)) 0
  9 * (y ^^^ bitsOf l 42 42) + l % 2 ^ 43 % 9

/-- The L3 set of a line. -/
def l3Set (l : Nat) : Nat :=
  bitsOf l 9 0 ^^^ bitsOf l 19 10 ^^^ bitsOf l 29 20 ^^^ bitsOf l 39 30 ^^^ bitsOf l 42 40

/-- The partition whose unreleased seed carve-out holds an address of this module (R224). -/
def State.seedPart (s : State) (pa : Nat) : Option Nat :=
  (List.range 16).find? fun p =>
    let r := L3C_SEEDP 0 p
    let b := s.actF r L3C_SEEDP_PABASE * 2 ^ 20
    decide (b ≤ pa) && decide (pa < b + s.actF r L3C_SEEDP_LEN * 2 ^ 20)

/-- The seed-line index of an address, while its carve-out is not released (R224). -/
def State.seedIdx (s : State) (pa : Nat) : Option Nat :=
  if s.actF (L3C_SEED 0) L3C_SEED_NWAYS = 0 then none
  else
    match s.seedPart pa with
    | none => none
    | some p =>
      let r := L3C_SEEDP 0 p
      some ((s.actF r L3C_SEEDP_OFF * 2 ^ 20 + pa - s.actF r L3C_SEEDP_PABASE * 2 ^ 20) / 256)

/-- The link number under which the seed ways' own store is kept in `mem` (R225). (DESIGN CHOICE, notes/assumptions/58.md.) -/
def seedLink : Nat := 16

/-- The slices that contribute to the seed area, ascending (R224). -/
def State.seedSlices (s : State) : List Nat :=
  (List.range 72).filter fun k => s.actF (L3C_SEED k) L3C_SEED_EN == 1

/-! Lines of the L3. -/

/-- The default line. -/
def lineDefault (_ : Nat) : Line := Line.none

/-- A line of the L3 by its line address. -/
def State.line (s : State) (l : Nat) : Line := Tab.get lineDefault s.lines l

/-- Replace a line. -/
def State.setLine (s : State) (l : Nat) (x : Line) : State := { s with lines := Tab.set lineDefault s.lines l x }

/-- Change a line. -/
def State.modLine (s : State) (l : Nat) (f : Line → Line) : State := s.setLine l (f (s.line l))

/-- A line is readable in S, E, M and SMA (R242). -/
def Line.readable (x : Line) : Bool := x.st == .s || x.st == .e || x.st == .m || x.st == .sma

/-- A line may be written in E or M (R228). -/
def Line.writable (x : Line) : Bool := x.st == .e || x.st == .m

/-- A stable copy is held. -/
def Line.held (x : Line) : Bool := x.st == .s || x.st == .e || x.st == .m || x.st == .sma

/-- Clear the reservations on a granule of the threads that `f` selects (R201). -/
def State.clearResv (s : State) (l : Nat) (f : Nat → Bool) : State :=
  ((List.range 128).filter fun t => f t && (s.thr t).resv == some l).foldl
    (fun s t => s.modThr t fun x => { x with resv := none, defer := 0 }) s

/-- Remove a line from every cache of a core (R210, R213). -/
def Core.drop (x : Core) (l : Nat) : Core :=
  { x with
    l1i := x.l1i.filter fun e => e.line != l
    l1d := x.l1d.filter fun e => e.line != l
    l2 := x.l2.filter fun e => e.line != l
    side := x.side.filter fun m => m != l }

/-- Core `c` loses a line: its caches drop it, its presence bit clears, and its threads' reservations on it go (R201, R210). -/
def State.coreDrop (s : State) (l c : Nat) : State :=
  let s := s.modCore c fun x => x.drop l
  let s := s.modLine l fun x => { x with pres := setBit x.pres c false }
  s.clearResv l fun t => s.pcore t == c

/-- The cores whose presence bit is set (R210). -/
def State.holders (s : State) (l : Nat) : List Nat := bitList 72 (s.line l).pres

/-- Every core but those that `keep` selects loses the line (R210). -/
def State.dropCores (s : State) (l : Nat) (keep : Nat → Bool) : State :=
  ((s.holders l).filter fun c => !keep c).foldl (fun s c => s.coreDrop l c) s

/-- Every core loses the line and counts a back-invalidation (R210, R226). -/
def State.backInval (s : State) (l : Nat) : State :=
  (s.holders l).foldl (fun s c => (s.coreDrop l c).pmcCore c 0x4C) s

/-- A way for a line in a set: an empty way if one exists, otherwise a free choice among the ways (pseudo-LRU, R208). The answer is the way and the line it held. -/
def pickWay (ents : List CacheEnt) (ways : List Nat) (free : Nat) : Nat × Option Nat :=
  match ways.find? fun w => !(ents.any fun e => e.way == w) with
  | some w => (w, none)
  | none =>
    let w := (ways[free % ways.length]?).getD 0
    (w, (ents.find? fun e => e.way == w).map (·.line))

/-- The ways of a cache that may allocate: below `n`, not disabled, no disable in progress (R219). -/
def allocWays (n dis : Nat) (busy : List Nat) : List Nat :=
  (List.range n).filter fun w => !bitOf dis w && !busy.contains w

/-- The ways of core `c` in cache `k` (0 L1I, 1 L1D, 2 L2) that may allocate (R219). -/
def State.coreWays (s : State) (c k : Nat) : List Nat :=
  let st := s.reg (L2C_WAYST c)
  let busy := ((s.core c).disabling.filter fun d => d / 16 == k).map (· % 16)
  if k = 0 then allocWays 8 (L2C_WAYST_L1IDIS.get st) busy
  else if k = 1 then allocWays 8 (L2C_WAYST_L1DDIS.get st) busy
  else allocWays 16 (L2C_WAYST_L2DIS.get st) busy

/-- Bring a line into the L2 of a core, out of its side buffer; a line it replaces leaves the core (R210, R212, R213). -/
def State.fillL2 (s : State) (c l : Nat) : State :=
  let x := s.core c
  if x.l2.any fun e => e.line == l then s
  else
    let same := x.l2.filter fun e => l2Set e.line == l2Set l
    let (w, v) := pickWay same (s.coreWays c 2) (Config.freeNat s.fresh)
    let s := s.tickFree
    let s := match v with
      | some m =>
        let s := if (s.line m).st = LineSt.m then s.pmcCore c 0x45 else s
        s.coreDrop m c
      | none => s
    let s := s.modCore c fun x => { x with l2 := ⟨l, w⟩ :: x.l2, side := x.side.filter fun m => m != l }
    s.modLine l fun y => { y with pres := setBit y.pres c true }

/-- Bring a line into an L1 of a core (`k` = 0 L1I, 1 L1D); a line that leaves the L1D takes the core's reservation on it along (R201). -/
def State.fillL1 (s : State) (c k l : Nat) : State :=
  let x := s.core c
  let ents := if k = 0 then x.l1i else x.l1d
  if ents.any fun e => e.line == l then s
  else
    let same := ents.filter fun e => l1Set e.line == l1Set l
    let (w, v) := pickWay same (s.coreWays c k) (Config.freeNat s.fresh)
    let s := s.tickFree
    let ents := (match v with | some m => ents.filter fun e => e.line != m | none => ents)
    let s := s.modCore c fun x => if k = 0 then { x with l1i := ⟨l, w⟩ :: ents } else { x with l1d := ⟨l, w⟩ :: ents }
    match v with
    | some m => if k = 1 then s.clearResv m fun t => s.pcore t == c else s
    | none => s

/-- A demand access of thread `t` on core `c` reaches a readable line: the caches fill and the misses are counted (R210, R213, R226). -/
def State.touch (s : State) (t c k l : Nat) : State :=
  let x := s.core c
  let inL1 := (if k = 0 then x.l1i else x.l1d).any fun e => e.line == l
  if inL1 then s
  else
    let s := s.modThr t fun y => y.pmc (if k = 0 then 0x41 else 0x40)
    let inL2 := x.l2.any fun e => e.line == l
    let inSide := x.side.contains l
    let s :=
      if inL2 then s
      else if inSide then
        (s.modCore c fun x => { x with side := x.side.filter fun m => m != l }).modThr t fun y => y.pmc 0x43
      else
        let s := s.modThr t fun y => y.pmc 0x42
        if (s.holders l).any fun d => d != c then s.modThr t fun y => y.pmc 0x48 else s
    (s.fillL2 c l).fillL1 c k l

/-- The L3 ways a partition may allocate in a slice: its mask without disabled ways and without unreleased seed ways (R219, R222). -/
def State.l3Ways (s : State) (k p : Nat) : List Nat :=
  let dis := s.getF (L3C_WAYST k) L3C_WAYST_L3DIS
  let seed := if s.actF (L3C_SEED k) L3C_SEED_EN = 1 then s.actF (L3C_SEED k) L3C_SEED_NWAYS else 0
  (allocWays 16 dis (((s.core k).disabling.filter fun d => d / 16 == 3).map (· % 16))).filter fun w =>
    bitOf (s.actF (L3C_ALLOC k p) L3C_ALLOC_WAYS) w && decide (w + seed < 16)

/-- The lines of the L3 that occupy a way of a slice's set. -/
def State.l3Ents (s : State) (k set : Nat) : List CacheEnt :=
  (s.lines.filter fun e => e.2.held && l3Slice e.1 == k && l3Set e.1 == set).map fun e => ⟨e.1, e.2.way⟩

end Sys2Proof.Machine
end

