-- ==== Sys2Proof/Machine/RootMem.lean ====
section
/-! DEFINITION. Reads and writes of this module's memory: seed lines, interleave, mirror pairs, Root links in and out of service (R224, R225, R264 to R278). -/

namespace Sys2Proof.Machine

/-- The default Root link. -/
def rootDefault (_ : Nat) : RootLink := RootLink.reset

/-- A Root link. -/
def State.root (s : State) (n : Nat) : RootLink := Tab.get rootDefault s.roots n

/-- Replace a Root link. -/
def State.setRoot (s : State) (n : Nat) (x : RootLink) : State := { s with roots := Tab.set rootDefault s.roots n x }

/-- Change a Root link. -/
def State.modRoot (s : State) (n : Nat) (f : RootLink → RootLink) : State := s.setRoot n (f (s.root n))

/-- STATE of a Root link. -/
def State.rtlState (s : State) (n : Nat) : Nat := s.getF (RTL_STAT n) RTL_STAT_STATE

/-- A link in service, at x8 or x4. -/
def State.inService (s : State) (n : Nat) : Bool := s.rtlState n == 2 || s.rtlState n == 3

/-- Requests for the link queue: it is in service, or training, while which they stall (R275). -/
def State.takesReads (s : State) (n : Nat) : Bool := s.inService n || s.rtlState n == 1

/-- Writes reach the expander's queue: as reads, and while the link receives a mirror copy (R272). -/
def State.takesWrites (s : State) (n : Nat) : Bool := s.takesReads n || s.rtlState n == 6

/-- Pair `k` is enabled. -/
def State.pairEn (s : State) (k : Nat) : Bool := bitOf (s.actF HOM_MIRROR HOM_MIRROR_PAIR) k

/-- STATE of a mirror pair. -/
def State.pairState (s : State) (k : Nat) : Nat := s.getF (HOM_MSTAT k) HOM_MSTAT_STATE

/-- The other link of an enabled pair. -/
def State.partner (s : State) (n : Nat) : Option Nat :=
  if s.pairEn (n / 2) then some (if n % 2 = 0 then n + 1 else n - 1) else none

/-- Enter a state of a mirror pair, PROG zero. -/
def State.setPair (s : State) (k st : Nat) : State :=
  (s.setF (HOM_MSTAT k) HOM_MSTAT_STATE st).setF (HOM_MSTAT k) HOM_MSTAT_PROG 0

/-- The link that serves a read of device address `la` on `lk`, by the pair's state; none where the line has no served copy (R272). -/
def State.readLink (s : State) (lk la : Nat) : Option Nat :=
  if s.pairEn (lk / 2) then
    let p := lk / 2 * 2
    let copied := decide (la / 256 < s.getF (HOM_MSTAT (lk / 2)) HOM_MSTAT_PROG)
    match s.pairState (lk / 2) with
    | 3 => some (p + 1)
    | 4 => if s.takesReads p then some p else if copied then some (p + 1) else none
    | 5 => if s.takesReads (p + 1) then some (p + 1) else if copied then some p else none
    | _ => some p
  else some lk

/-- The links a write goes to (R272). -/
def State.writeLinks (s : State) (lk : Nat) : List Nat :=
  if s.pairEn (lk / 2) then
    let p := lk / 2 * 2
    match s.pairState (lk / 2) with
    | 2 => [p]
    | 3 => [p + 1]
    | _ => [p, p + 1]
  else [lk]

/-- What a read of memory answers. -/
inductive RdRes where
  /-- The line, at once: a seed line, its own backing store (R225). -/
  | now (d : LineData) (poison : Bool)
  /-- A CXL.mem read is outstanding. -/
  | wait
  /-- No data at the home (R271, R274). -/
  | dead

/-- The placement of a line of this module's memory. -/
def State.placeLine (s : State) (l : Nat) : Option (Nat × Nat) := s.place (l % 2 ^ 43 * 256)

/-- R274: log a read that found no data on link `n`: contained for the first after the link left service, corrected for later ones. -/
def State.logDead (s : State) (n l : Nat) : State :=
  let r : RecIn := { block := 0x09, inst := n, typ := 0x0B, addr := some (l * 256) }
  if (s.root n).logged then s.log { r with cls := 1 }
  else (s.modRoot n fun x => { x with logged := true }).log { r with cls := 2 }

/-- Start a read of a line for the home agent (R271, R272, R274, R277). A line not yet copied whose copying source is lost finds no data because of that source. -/
def State.memRead (s : State) (l : Nat) : State × RdRes :=
  match s.seedIdx (l * 256) with
  | some j => (s, .now (s.memLine seedLink (j * 256)) (s.memPois seedLink (j * 256)))
  | none =>
    match s.placeLine l with
    | none => (s, .dead)
    | some (lk, la) =>
      match s.readLink lk la with
      | none => (s.logDead (lk / 2 * 2 + (if s.pairState (lk / 2) = 5 then 1 else 0)) l, .dead)
      | some n =>
        if s.takesReads n || (s.rtlState n == 6 && decide (s.readLink lk la = some n)) then
          (if (s.root n).rds.contains la then s else s.modRoot n fun x => { x with rds := x.rds ++ [la] }, .wait)
        else (s.logDead n l, .dead)

/-- What a read of `la` on link `n` returns now: the newest write accepted for it, otherwise the expander's copy. -/
def State.linkLine (s : State) (n la : Nat) : LineData × Bool :=
  match (s.root n).wrs.reverse.find? fun w => w.la == la with
  | some w => (w.data, w.poison)
  | none => (s.memLine n la, s.memPois n la)

/-- Send a write to one link, unless Windthrow has reached step 3 (R466); a link out of service discards it, which is logged for an unmirrored link (R276). -/
def State.linkWrite (s : State) (n la l : Nat) (d : LineData) (poison : Bool) : State :=
  if 2 ≤ s.wind then s
  else if s.takesWrites n then s.modRoot n fun x => { x with wrs := x.wrs ++ [⟨la, d, poison⟩] }
  else if (s.partner n).isSome then s
  else s.log { block := 0x09, inst := n, typ := 0x0A, addr := some (l * 256) }

/-- Write a line of this module's memory, to both links of a mirror pair (R225, R272, R276). -/
def State.memWrite (s : State) (l : Nat) (d : LineData) (poison : Bool) : State :=
  match s.seedIdx (l * 256) with
  | some j => s.setMemLine seedLink (j * 256) d poison
  | none =>
    match s.placeLine l with
    | none => s
    | some (lk, la) => (s.writeLinks lk).foldl (fun s n => s.linkWrite n la l d poison) s

/-- A write of the line is outstanding on some link (R216, R240). -/
def State.writesOut (s : State) (l : Nat) : Bool :=
  match s.seedIdx (l * 256) with
  | some _ => false
  | none =>
    match s.placeLine l with
    | none => false
    | some (lk, la) =>
      let p := if s.pairEn (lk / 2) then [lk / 2 * 2, lk / 2 * 2 + 1] else [lk]
      p.any fun n => (s.root n).wrs.any fun w => w.la == la

end Sys2Proof.Machine
end

