-- ==== Sys2Proof/Machine/Home.lean ====
section
/-! DEFINITION. Lines entering and leaving the L3, Canopy, and the home agent's service of a request from arrival to its answer (R227 to R248, R251 of 10_coherence.md). -/

namespace Sys2Proof.Machine

/-! Canopy (R245 to R247). -/

/-- The set of a line in Canopy (R245). -/
def canSet (l : Nat) : Nat := bitsOf l 17 0 ^^^ bitsOf l 35 18

/-- The tag of a line in Canopy (R245). -/
def canTag (l : Nat) : Nat := bitsOf l 36 18

/-- The line an entry of a set names, at home `m` (R245). -/
def canLine (m set tag : Nat) : Nat := m * 2 ^ 40 + tag * 2 ^ 18 + (set ^^^ (tag % 2 ^ 18))

/-- The default Canopy entry. -/
def canDefault (_ : Nat) : CanEnt := CanEnt.free

/-- A Canopy entry, by set × 16 + way. -/
def State.can (s : State) (i : Nat) : CanEnt := Tab.get canDefault s.canopy i

/-- Replace a Canopy entry. -/
def State.setCan (s : State) (i : Nat) (e : CanEnt) : State := { s with canopy := Tab.set canDefault s.canopy i e }

/-- The index of the entry of a line. -/
def State.canIdx (s : State) (l : Nat) : Option Nat :=
  ((List.range 16).map fun w => canSet l * 16 + w).find? fun i =>
    (s.can i).st != .inv && (s.can i).tag == canTag l

/-- The entry of a line; a free entry where Canopy has none. -/
def State.canOf (s : State) (l : Nat) : CanEnt := match s.canIdx l with | some i => s.can i | none => CanEnt.free

/-- Write the record of a line: the modules that hold it, in EX or in SH; no holder frees the entry (R246). -/
def State.canPut (s : State) (l : Nat) (ex : Bool) (pres : Nat) : State :=
  match s.canIdx l with
  | none => s
  | some i =>
    if pres = 0 then s.setCan i CanEnt.free
    else s.setCan i ⟨if ex then .ex else .sh, canTag l, pres, if ex then ((bitList 8 pres).head?).getD 0 else 0⟩

/-- The way of an entry is neither disabled nor being disabled (R249). -/
def State.canWayOn (s : State) (i : Nat) : Bool :=
  !bitOf (s.getF (CNP_WAYST (i / 16 % 16)) CNP_WAYST_DIS) (i % 16) && !s.canDis.contains (i / 16 % 16 * 16 + i % 16)

/-! Messages and transaction identifiers. -/

/-- The lowest identifier that a list does not hold. -/
def freeTid (used : List Nat) : Nat → Nat → Nat
  | 0, n => n
  | k + 1, n => if used.contains n then freeTid used k (n + 1) else n

/-- The next free transaction identifier of this module (R237). -/
def State.newTid (s : State) : Nat :=
  let used := s.out.map (·.tid) ++ (s.home.filter fun x => x.src == s.self).map (·.tid)
  freeTid used used.length 0

/-- Every transaction identifier is in use. -/
def State.tidsFull (s : State) : Bool :=
  decide (4096 ≤ s.out.length + (s.home.filter fun x => x.src == s.self).length)

/-- Send a request of this module to a line's home and keep its transaction (R237). -/
def State.sendReq (s : State) (opc l part : Nat) (thr : Option Nat) (d : Option (LineData × Bool)) : State :=
  let tid := s.newTid
  let m : Msg := { s.mkMsg opc (lineHome l) l with
    rqm := s.self, tid := tid, part := part, line := d.map Prod.fst, psn := (d.map Prod.snd).getD false }
  { s with out := s.out ++ [(⟨tid, lineHome l, l, part, thr, .coh opc⟩ : OutTx)] }.send m

/-! Lines entering and leaving the L3. -/

/-- A line leaves the L3: modified data goes to memory or, by WBK, to its home, and an exclusive or shared copy of another module's line sends EVN (R210, R229, R242). -/
def State.evictL3 (s : State) (l : Nat) : State :=
  let x := s.line l
  let s := s.backInval l
  if lineHome l = s.self then
    (if x.st = LineSt.m then s.memWrite l x.data x.poison else s).setLine l Line.none
  else if x.st = LineSt.m then
    (s.modLine l fun y => { y with st := .mia, pres := 0 }).sendReq OPC_WBK l 0 none (some (x.data, x.poison))
  else (s.setLine l Line.none).sendReq OPC_EVN l 0 none none

/-- A line enters the L3 in a state; it takes a way of its partition, evicting another line where none is free (R208, R222), or its seed way (R224). -/
def State.install (s : State) (l : Nat) (st : LineSt) (d : LineData) (poison : Bool) (part : Nat) : State :=
  let old := s.line l
  if old.held then s.setLine l { old with st := st, data := d, poison := poison, err := 0 }
  else
    match (if lineHome l = s.self then s.seedIdx (l * 256) else none) with
    | some j => s.setLine l ⟨st, 0, 15 - j / (1024 * s.seedSlices.length), d, poison, 0⟩
    | none =>
      let same := s.l3Ents (l3Slice l) (l3Set l)
      let busy := (same.filter fun e => (s.line e.line).st == .sma).map (·.way)
      let ways := (s.l3Ways (l3Slice l) part).filter fun w => !busy.contains w
      let (w, v) := pickWay same ways (Config.freeNat s.fresh)
      let s := s.tickFree
      let s := match v with | some m => s.evictL3 m | none => s
      s.setLine l ⟨st, 0, w, d, poison, 0⟩

/-- Every core loses the line, and so does the L3 (R240: local invalidation). -/
def State.localInval (s : State) (l : Nat) : State :=
  if (s.line l).held then
    let s := s.backInval l
    if (s.line l).st = LineSt.sma then s.modLine l fun y => { y with st := .imd, pres := 0 } else s.setLine l Line.none
  else s

/-! The home's tracker (R231, R243). -/

/-- The request served first for a line. -/
def State.homeHead (s : State) (l : Nat) : Option HomeTx := s.home.find? fun x => x.line == l

/-- Change the first request of a line. -/
def modFirst (l : Nat) (f : HomeTx → HomeTx) : List HomeTx → List HomeTx
  | [] => []
  | x :: t => if x.line = l then f x :: t else x :: modFirst l f t

/-- Remove the first request of a line. -/
def dropFirst (l : Nat) : List HomeTx → List HomeTx
  | [] => []
  | x :: t => if x.line = l then t else x :: dropFirst l t

/-- Change the request a line is blocked for. -/
def State.modTx (s : State) (l : Nat) (f : HomeTx → HomeTx) : State := { s with home := modFirst l f s.home }

/-- The request a line is blocked for ends. -/
def State.endTx (s : State) (l : Nat) : State := { s with home := dropFirst l s.home }

/-- A line is blocked: a request for it has left HQ (R231). -/
def State.blocked (s : State) (l : Nat) : Bool :=
  match s.homeHead l with | some x => x.st != .hq | none => false

/-- Send a snoop of the home for request `x` to the modules of a mask (R234: RQM is where data goes, RTID the requester's TID). -/
def State.snoop (s : State) (x : HomeTx) (opc l mods : Nat) : State :=
  (bitList 8 mods).foldl (fun s m => s.send { s.mkMsg opc m l with rqm := x.src, tid := x.tid, rtid := x.tid, part := x.part }) s

/-- Send an answer of the home to the requesting module. (DESIGN CHOICE, notes/assumptions/17.md.) -/
def State.reply (s : State) (x : HomeTx) (opc st : Nat) (d : Option (LineData × Bool) := none) : State :=
  s.send { s.mkMsg opc x.src x.line with
    rqm := x.src, tid := x.tid, rtid := x.tid, st := st, part := x.part, line := d.map Prod.fst,
    psn := (d.map Prod.snd).getD false }

/-- The requests that take a Canopy entry for another module. -/
def allocates (opc : Nat) : Bool := opc == OPC_RDS || opc == OPC_RDO || opc == OPC_UPG || opc == OPC_RDZ

/-- The cache maintenance requests. -/
def isCmo (opc : Nat) : Bool := opc == OPC_CMW || opc == OPC_CMF || opc == OPC_CMI

/-- The line state a grant names (R236). -/
def grantSt (g : Nat) : LineSt := if g = 1 then .s else if g = 2 then .e else .m

/-- Local write-back: a modified copy of the home's caches goes to memory and stays, clean (R240). -/
def State.localClean (s : State) (l : Nat) (st : LineSt) : State :=
  let y := s.line l
  if y.st = LineSt.m then (s.memWrite l y.data y.poison).modLine l fun z => { z with st := st }
  else if y.st = LineSt.e then s.modLine l fun z => { z with st := st } else s

/-- Enter HS: look Canopy up and send the snoops of R240, acting on the home's own caches; a WBK or EVN is answered at once (R244). CMI leaves in place a seed value that no core holds (R217). -/
def State.homeLookup (s : State) (x : HomeTx) : State :=
  let l := x.line
  let e := s.canOf l
  let loc := x.src == s.self
  let me := if loc then 0 else 2 ^ x.src
  let others := e.pres - (e.pres &&& me)
  let y := s.line l
  let own : Option (LineData × Bool) := if y.held then some (y.data, y.poison) else none
  let go (s : State) (f : HomeTx → HomeTx) : State := s.modTx l fun z => f { z with st := .hs }
  if x.opc = OPC_WBK then
    let s := if e.st = CanSt.ex ∧ e.owner = x.src then
        (match x.data with | some (d, p) => s.memWrite l d p | none => s).canPut l false 0
      else s
    (s.reply x OPC_WACK 0).endTx l
  else if x.opc = OPC_EVN then
    let s := if bitOf e.pres x.src then s.canPut l (e.st == .ex) (setBit e.pres x.src false) else s
    (s.reply x OPC_WACK 0).endTx l
  else if x.opc = OPC_RDS then
    if e.st = CanSt.ex ∧ others ≠ 0 then
      go (s.snoop x OPC_SNPS l others) fun z => { z with wait := others, direct := true, grant := 1, keep := others }
    else
      let shared := others != 0 || (!loc && y.held)
      let s := if loc then s else s.localClean l .s
      go s fun z => { z with data := if loc then none else own, grant := if shared then 1 else 2, keep := others }
  else if x.opc = OPC_RDO ∨ (x.opc = OPC_UPG ∧ ¬ ((if loc then y.st == .sma else e.st == .sh && bitOf e.pres x.src) = true)) then
    let s := if loc then s else s.localInval l
    if e.st = CanSt.ex ∧ others ≠ 0 then
      go (s.snoop x OPC_SNPO l others) fun z => { z with opc := OPC_RDO, wait := others, direct := true, grant := 3 }
    else
      go (s.snoop x OPC_SNPI l others) fun z =>
        { z with opc := OPC_RDO, wait := others, data := if loc then none else own, grant := 3 }
  else if x.opc = OPC_UPG then
    let s := if loc then s else s.localInval l
    go (s.snoop x OPC_SNPI l others) fun z => { z with wait := others, grant := 3 }
  else if x.opc = OPC_RDZ then
    let s := if loc then s else s.localInval l
    go (s.snoop x OPC_SNPI l e.pres) fun z => { z with wait := e.pres, grant := 3 }
  else if x.opc = OPC_CMW then
    let w := if e.st = CanSt.ex then e.pres else 0
    go ((s.localClean l .e).snoop x OPC_SNPW l w) fun z => { z with wait := w }
  else if x.opc = OPC_CMF then
    go (((s.localClean l .e).localInval l).snoop x OPC_BINV l e.pres) fun z => { z with wait := e.pres }
  else
    let s := if (s.seedIdx (l * 256)).isSome && y.st == .m && y.pres == 0 then s.memWrite l y.data y.poison else s
    go ((s.localInval l).snoop x OPC_SNPI l e.pres) fun z => { z with wait := e.pres }

/-- Reserve Canopy room for a line, by an INV way or an eviction (R247); `none` while every way is PND or blocked. -/
def State.canRoom (s : State) (x : HomeTx) : Option State :=
  let l := x.line
  let idx := ((List.range 16).map fun w => canSet l * 16 + w).filter s.canWayOn
  match idx.find? fun i => (s.can i).st == .inv with
  | some i => some (s.setCan i ⟨.sh, canTag l, 0, 0⟩)
  | none =>
    let cs := idx.filter fun i =>
      let e := s.can i
      e.st != .pnd && !s.blocked (canLine s.self (i / 16) e.tag)
    let k := Config.freeNat s.fresh % cs.length
    match cs[k]? with
    | none => none
    | some i =>
      let e := s.can i
      let v := canLine s.self (i / 16) e.tag
      let s := ((s.tickFree.setCan i { e with st := .pnd }).incF CNP_STAT CNP_STAT_BINV).snoop x OPC_BINV v e.pres
      some (s.modTx l fun z => { z with st := .hs, evict := some i, wait := e.pres })

/-- A constrained loop of some thread holds the line (R203). -/
def State.lineDeferred (s : State) (l : Nat) : Bool := s.threads.any fun e => e.2.defer != 0 && e.2.resv == some l

/-- Start the request at the head of its line, unless its set is being purged, its entry evicted, or a constrained loop holds the line (R203, R247, R248). -/
def State.homeStart (s : State) (x : HomeTx) : State :=
  let e := s.canOf x.line
  if x.src != s.self && s.lineDeferred x.line then s
  else if s.purges.any (fun p => p.set == canSet x.line) || e.st == .pnd then s
  else if x.src ≠ s.self ∧ allocates x.opc = true ∧ s.canIdx x.line = none then
    match s.canRoom x with
    | none => s
    | some s' =>
      match s'.homeHead x.line with
      | some y => if y.evict.isSome then s' else s'.homeLookup y
      | none => s'
  else s.homeLookup x

/-- Give the line to the requester: an answer to another module, a line of the L3 for this one (R240, R243). -/
def State.deliver (s : State) (x : HomeTx) : State :=
  let l := x.line
  if x.src = s.self then
    let s := s.canPut l false (if x.grant = 1 then x.keep else 0)
    let y := s.line l
    let s :=
      if x.dead then s.install l (grantSt x.grant) (BitVec.ofNat 2048 (Config.freeNat s.fresh)) true x.part
      else if x.opc = OPC_RDZ then s.install l .m 0 false x.part
      else if x.opc = OPC_UPG then s.setLine l { y with st := .m }
      else match x.data with
        | some (d, p) => s.install l (grantSt x.grant) d p x.part
        | none => s.setLine l Line.none
    (s.tickFree.endTx l)
  else if x.dead then ((s.canPut l ((s.canOf l).st == .ex) (s.canOf l).pres).reply x OPC_ERR 3).endTx l
  else
    let s := s.modTx l fun z => { z with st := .hc }
    if x.direct then s
    else if x.opc = OPC_UPG ∨ x.opc = OPC_RDZ then s.reply x OPC_GNT 3
    else s.reply x OPC_DATA x.grant x.data

/-- A cache maintenance operation at the head of a thread's store buffer is visible: it leaves the buffer, and a write-back still owed is kept for DRAIN (R216). -/
def State.cmoVisible (s : State) (thr : Option Nat) (l : Nat) (owed : Bool) : State :=
  match thr with
  | none => s
  | some t =>
    s.modThr t fun x =>
      match x.sb with
      | e :: r => if e.pa / 256 = l then { x with sb := r, popped := x.popped + 1, wbs := if owed then x.wbs ++ [l] else x.wbs } else x
      | [] => x

/-- An awaited answer is in: the request goes on to memory, to its answer, or to its end (R240, R243, R247). -/
def State.homeAdvance1 (s : State) (l : Nat) : State :=
  match s.homeHead l with
  | none => s
  | some x =>
    if x.st ≠ HomeSt.hs ∨ x.wait ≠ 0 then s
    else
      match x.evict with
      | some i =>
        let s := s.setCan i ⟨.sh, canTag l, 0, 0⟩
        (s.modTx l fun z => { z with evict := none }).homeLookup { x with evict := none }
      | none =>
        if isCmo x.opc then
          let s := if x.opc = OPC_CMW then s else s.canPut l false 0
          if s.writesOut l then
            (if x.src = s.self then s.cmoVisible x.thr l true else s.reply x OPC_CMACK 1).modTx l fun z =>
              { z with st := .hc, acked := true }
          else (if x.src = s.self then s.cmoVisible x.thr l false else s.reply x OPC_CMACK 3).endTx l
        else if x.opc = OPC_UPG ∨ x.opc = OPC_RDZ ∨ x.data.isSome = true ∨ x.dead = true then s.deliver x
        else if x.direct then (if x.src = s.self then s else s.deliver x)
        else
          match s.memRead l with
          | (s, .now d p) => (s.modTx l fun z => { z with data := some (d, p) }).deliver { x with data := some (d, p) }
          | (s, .wait) => s.modTx l fun z => { z with st := .hm, rdWait := true }
          | (s, .dead) => (s.modTx l fun z => { z with dead := true }).deliver { x with dead := true }

/-- Advance a request; a lookup after a Canopy eviction that awaits nothing goes straight on. -/
def State.homeAdvance (s : State) (l : Nat) : State := (s.homeAdvance1 l).homeAdvance1 l

/-- Start a request. -/
def State.homeRun (s : State) (x : HomeTx) : State := (s.homeStart x).homeAdvance x.line

/-- Serve what can be served: every line's first request that still waits (R231). -/
def State.homeKick : Nat → State → State
  | 0, s => s
  | n + 1, s =>
    match s.home.find? fun x => x.st == .hq && (s.homeHead x.line == some x) &&
        decide ((s.homeRun x).home ≠ s.home ∨ (s.homeRun x).canopy ≠ s.canopy) with
    | some x => State.homeKick n (s.homeRun x)
    | none => s

/-- Serve after a change. -/
def State.homeServe (s : State) : State := State.homeKick (s.home.length + 1) s

/-- A request enters the home's tracker, in order of arrival (R231, R232). -/
def State.homeAccept (s : State) (opc l src tid part : Nat) (thr : Option Nat) (d : Option (LineData × Bool) := none) : State :=
  ({ s with home := s.home ++ [{
    line := l, opc := opc, src := src, tid := tid, part := part, thr := thr, st := .hq, wait := 0,
    data := d, direct := false, grant := 0, keep := 0, evict := none, rdWait := false, dead := false, acked := false }] } : State).homeServe

/-- A request whose Canopy eviction is of line `l` and awaits module `m`. -/
def State.byEvict (s : State) (l m : Nat) : Option HomeTx :=
  s.home.find? fun x => match x.evict with
    | some i => canLine s.self (i / 16) (s.can i).tag == l && bitOf x.wait m
    | none => false

/-- The request a snoop response of module `m` for a line serves: the line's own, or one that evicts the line from Canopy (R247). -/
def State.awaiter (s : State) (l m : Nat) : Option HomeTx :=
  match s.homeHead l with
  | some x => if x.evict.isNone && bitOf x.wait m then some x else s.byEvict l m
  | none => s.byEvict l m

/-- A snoop response of module `m` for a line (R236, R240, R244): ST, and modified data for the home. -/
def State.snoopResponse (s : State) (l m st : Nat) (d : Option (LineData × Bool)) : State :=
  match s.awaiter l m with
  | none => s
  | some x =>
    let ev := x.evict.isSome
    let s := match d with
      | some (v, p) => if !ev && (x.opc == OPC_CMI || x.opc == OPC_RDZ) then s else s.memWrite l v p
      | none => s
    let miss := !ev && x.direct && st == 0
    let gone := !ev && x.direct && (st == 2 || st == 4)
    let s := s.modTx x.line fun z => { z with
      wait := setBit z.wait m false
      direct := z.direct && !miss
      keep := if miss || gone then setBit z.keep m false else z.keep
      grant := if miss && z.opc == OPC_RDS then 2 else z.grant }
    let s := if miss then s.canPut l false (setBit (s.canOf l).pres m false) else s
    (s.homeAdvance x.line).homeServe

/-- The requester's CMP: Canopy takes its new record and the line unblocks (R231, R240). -/
def State.homeCmp (s : State) (l src : Nat) : State :=
  match s.homeHead l with
  | some x =>
    if x.st = HomeSt.hc ∧ x.src = src ∧ isCmo x.opc = false then
      let s := if x.grant = 1 then s.canPut l false (setBit x.keep src true) else s.canPut l true (2 ^ src)
      (s.endTx l).homeServe
    else s
  | none => s

/-- A memory read of a line is answered, or found to have no data (R233, R274). -/
def State.homeData (s : State) (l : Nat) (d : Option (LineData × Bool)) : State :=
  match s.homeHead l with
  | some x =>
    if x.rdWait then
      let f (z : HomeTx) : HomeTx := { z with st := .hs, rdWait := false, data := d, dead := d.isNone }
      ((s.modTx l f).homeAdvance l).homeServe
    else s
  | none => s

/-- Memory writes have completed: cache maintenance that waited for them answers CMACK ST 2 (R240), and the write-backs a thread's DRAIN waits for are complete (R216). -/
def State.settleWrites (s : State) : State :=
  let done := s.home.filter fun x => x.acked && !s.writesOut x.line
  let s := done.foldl (fun s x => (if x.src = s.self then s else s.reply x OPC_CMACK 2).endTx x.line) s
  let s := (s.threads.filter fun e => e.2.wbs != []).foldl (fun s e =>
    s.modThr e.1 fun t => { t with wbs := t.wbs.filter fun l => lineHome l != s.self || s.writesOut l || (s.homeHead l).isSome }) s
  s.homeServe

/-! This module's own requests. -/

/-- What stands between an access and its line. -/
inductive LineAcc where
  /-- The line may be accessed. -/
  | ok
  /-- A request for the line is outstanding. -/
  | wait
  /-- A request is needed. -/
  | need (opc : Nat)
  /-- The last request ended in ERR with this ST (R236). -/
  | err (st : Nat)
  deriving DecidableEq, Repr

/-- Whether a line may be read now (R242). -/
def State.accRead (s : State) (l : Nat) : LineAcc :=
  let x := s.line l
  if x.readable then .ok else if x.err ≠ 0 then .err x.err else if x.st = LineSt.i then .need OPC_RDS else .wait

/-- Whether a line may be written now (R228). -/
def State.accWrite (s : State) (l : Nat) : LineAcc :=
  let x := s.line l
  if x.writable then .ok else if x.err ≠ 0 then .err x.err
  else if x.st = LineSt.i then .need OPC_RDO else if x.st = LineSt.s then .need OPC_UPG else .wait

/-- Send a request for a line to its home: this module's own agent, or another module (R230, R242). A request to a severed home ends as ERR ST 2 (R260); without a free identifier it waits; from step 3 of Windthrow on none is accepted (R466). -/
def State.request (s : State) (opc l part : Nat) (thr : Option Nat) : State :=
  if s.tidsFull ∨ 2 ≤ s.wind then s
  else
    let s := match thr with | some t => s.modThr t fun x => x.pmc 0x47 | none => s
    let st : LineSt := if opc = OPC_RDS then .isd else if opc = OPC_UPG then .sma else .imd
    if lineHome l = s.self then (s.modLine l fun x => { x with st := st }).homeAccept opc l s.self s.newTid part thr
    else if (s.peer (lineHome l)).severed ∨ s.member (lineHome l) = false then
      s.setLine l { Line.none with err := 2 }
    else (s.modLine l fun x => { x with st := st }).sendReq opc l part thr none

/-- Consume the ERR of a line. (DESIGN CHOICE, notes/assumptions/16.md.) -/
def State.takeErr (s : State) (l : Nat) : State := s.modLine l fun x => { x with err := 0 }

end Sys2Proof.Machine
end

