-- ==== Sys2Proof/Machine/Firebreak.lean ====
section
/-! DEFINITION. The physical address map and Firebreak's checks (R280 to R284, R514 to R518). -/

namespace Sys2Proof.Machine

/-- What an offset of a module's device region names (R514, R515, R517). -/
inductive DevDst where
  /-- Offset `off` of the register window of a block instance. -/
  | reg (blk inst off : Nat)
  /-- An address of the window of Glade port half `idx` = 8g + 2p + h. -/
  | port (idx addr : Nat)
  /-- Nothing. -/
  | none
  deriving DecidableEq, Repr

/-- The register windows: block, base, stride, window size (R515). -/
def regWindows : List (Nat × Nat × Nat × Nat) := [
  (0x01, 0x00000000, 0x1000, 0x1000),
  (0x02, 0x00100000, 0x1000, 0x1000),
  (0x03, 0x00200000, 0x1000, 0x1000),
  (0x04, 0x00300000, 0x1000, 0x1000),
  (0x05, 0x00400000, 0x1000, 0x1000),
  (0x06, 0x00500000, 0x10000, 0x10000),
  (0x07, 0x00510000, 0x1000, 0x1000),
  (0x08, 0x00520000, 0x1000, 0x1000),
  (0x09, 0x00600000, 0x20000, 0x20000),
  (0x0A, 0x00800000, 0x1000, 0x1000),
  (0x0B, 0x00880000, 0x80000, 0x80000),
  (0x0C, 0x01000000, 0x400000, 0x400000),
  (0x0D, 0x02000000, 0x2000, 0x2000),
  (0x0E, 0x02020000, 0x100, 0x100),
  (0x0F, 0x02040000, 0x20000, 0x20000)] ++ [
  (0x10, 0x020C0000, 0x1000, 0x1000),
  (0x11, 0x020D0000, 0x2000, 0x2000),
  (0x12, 0x02100000, 0x20000, 0x20000),
  (0x13, 0x02200000, 0x80000, 0x80000),
  (0x14, 0x02300000, 0x1000, 0x1000),
  (0x15, 0x02310000, 0x1000, 0x1000),
  (0x17, 0x02320000, 0x1000, 0x1000)]

/-- The size of a block's window (R515); BAR0 for the service port. -/
def windowSize (blk : Nat) : Nat :=
  match regWindows.find? fun w => w.1 == blk with
  | some w => w.2.2.2
  | none => if blk = 0x16 then 0x100000 else 0

/-- What an offset within a module's 256 TiB device window names. -/
def devDst (o : Nat) : DevDst :=
  if 0x800000000000 ≤ o ∧ o < 0xA00000000000 then
    .port ((o - 0x800000000000) / 2 ^ 40) (o % 2 ^ 40)
  else
    match regWindows.find? fun w => decide (w.2.1 ≤ o) && decide (o < w.2.1 + w.2.2.1 * blockCount w.1) with
    | some w =>
      let r := o - w.2.1
      .reg w.1 (r / w.2.2.1) (r % w.2.2.1)
    | none => .none

/-- The device target of a register window (R515, R516). -/
def regTarget (blk inst : Nat) : Option Nat :=
  match blk with
  | 0x01 => some inst
  | 0x02 => some inst
  | 0x04 => some inst
  | 0x05 => some (72 + inst / 18)
  | 0x03 => some 76
  | 0x06 => some 77
  | 0x07 => some 78
  | 0x08 => some (112 + inst)
  | 0x09 => some (96 + inst)
  | 0x0A => some 79
  | 0x0B => some 80
  | 0x0C => some (128 + 8 * inst)
  | 0x0D => some (129 + 8 * (inst / 2))
  | 0x0E => some (130 + 8 * (inst / 8))
  | 0x0F => some (131 + 8 * inst)
  | 0x10 => some (132 + 8 * inst)
  | 0x11 => some (133 + 8 * inst)
  | 0x12 => some 81
  | 0x13 => some 82
  | 0x14 => some 83
  | 0x15 => some 84
  | 0x17 => some 85
  | _ => none

/-- The device target of a destination (R517). -/
def DevDst.target : DevDst → Option Nat
  | .reg b i _ => regTarget b i
  | .port x _ => some (160 + x)
  | .none => Option.none

/-- The physical address is memory (R183). -/
def isMem (pa : Nat) : Bool := pa / 2 ^ 51 % 2 == 0

/-- The module whose region an address lies in (R514). -/
def paModule (pa : Nat) : Nat := pa / 2 ^ 48 % 8

/-- Where a device address leads within its module. -/
def paDst (pa : Nat) : DevDst := devDst (pa % 2 ^ 48)

/-- The byte of FBK_GRANT for a memory address (R280), on the active values. -/
def State.grantByte (s : State) (pa : Nat) : Nat :=
  let e := paModule pa * 32768 + pa / 2 ^ 30 % 2 ^ 15
  (s.act (FBK_GRANT (e / 8))).toNat / 2 ^ (8 * (e % 8)) % 256

/-- Whether a memory access of partition `p` is permitted (R280, R281). -/
def State.memOk (s : State) (p pa : Nat) (wr : Bool) : Bool :=
  let b := s.grantByte pa
  pa / 2 ^ 45 % 8 == 0 && bitOf b 7 && b % 16 == p && (!wr || bitOf b 6)

/-- The partition that holds the region of an address on this module, if it is granted (R218). -/
def State.regionPart (s : State) (pa : Nat) : Option Nat :=
  if pa / 2 ^ 45 % 8 = 0 ∧ bitOf (s.grantByte pa) 7 = true then some (s.grantByte pa % 16) else none

/-- Whether partition `p` holds the grant of a device target of this module (R283, R518). -/
def State.devOk (s : State) (p : Nat) (d : DevDst) : Bool :=
  match d.target with
  | some t => bitOf (FBK_DGRANT_TGT.get (s.act (FBK_DGRANT p (t / 64)))) (t % 64)
  | none => false

/-- A core's or a Glade's access as checked at its entry into Mycel: memory, a device of this module, or a device of another module, which passes the origin's check (R282, R283, R518). -/
def State.accessOk (s : State) (p pa : Nat) (wr : Bool) : Bool :=
  if isMem pa then s.memOk p pa wr
  else if paDst pa = .none then false
  else paModule pa != s.self || s.devOk p (paDst pa)

/-- A Firebreak refusal: the record, the first-refusal capture and the count (R284). `src`: 0 core, 1 Glade host port, 2 Grove receiver, 3 Forester memory port. -/
def State.refuse (s : State) (src p pa : Nat) (wr : Bool) : State :=
  let s := if src = 0 then s.incF FBK_VCNT FBK_VCNT_CORE else if src = 1 then s.incF FBK_VCNT FBK_VCNT_GLADE
    else if src = 2 then s.incF FBK_VCNT FBK_VCNT_GROVE else s
  let s :=
    if s.getF FBK_VLOG FBK_VLOG_VALID = 1 then s
    else ((((s.setF FBK_VLOG FBK_VLOG_VALID 1).setF FBK_VLOG FBK_VLOG_SRC src).setF FBK_VLOG FBK_VLOG_WRITE (b2n wr)).setF
      FBK_VLOG FBK_VLOG_PART p).setF FBK_VLOG FBK_VLOG_PA pa
  s.log { block := 0x0B, cls := 2, typ := 0x0A, addr := some pa, part := some p }

/-- The path to another module is lost: it is no member, or severed (R518, R260). -/
def State.pathLost (s : State) (m : Nat) : Bool := !s.member m || (s.peer m).severed

end Sys2Proof.Machine
end

