-- ==== Sys2Proof/Machine/Trap.lean ====
section
/-! DEFINITION. Taking an exception, an interrupt or a fixed event as one operation, the return from one, and what a thread takes at an instruction boundary (R112 to R132). -/

namespace Sys2Proof.Machine

/-- A cause (R112): INT, CODE, INFO, and the address it names, if any. -/
structure Cause where
  int : Bool := false
  code : Nat
  info : Nat := 0
  addr : Option Word := none
  deriving DecidableEq, Repr

/-- A cause in the layout of SCS and MCS. -/
def Cause.word (c : Cause) : Word :=
  BitVec.ofNat 64 (b2n c.int * 2 ^ 63 + c.code % 256 * 2 ^ 32 + c.info % 2 ^ 32)

/-- pc-shaped values: bits [1:0] read as zero (R111). -/
def align4 (w : Word) : Word := w &&& 0xFFFFFFFFFFFFFFFC#64

/-- The M-base of a thread's partition (R111). -/
def State.mbaseOf (s : State) (t : Nat) : Word := BitVec.ofNat 64 (s.mbase (s.part t))

/-- What every entry does beside its registers: the reservation is lost (R201), a wait is abandoned (R122), the retry count restarts, since an entry is checkpointed like an instruction. -/
def Thread.enter (x : Thread) (pc : Word) : Thread :=
  { x with pc := pc, resv := none, defer := 0, wait := .none, devLoad := [], retries := 0 }

/-- Entry to S level (R115). -/
def Thread.enterS (x : Thread) (c : Cause) (ret : Word) : Thread :=
  let pst := x.srg SR_PST
  let y := ((x.setSr SR_SSS pst).setSr SR_SRP (align4 ret)).setSr SR_SCS c.word
  let y := match c.addr with | some a => y.setSr SR_SFA a | none => y
  (((y.setPst PST_PL 1).setPst PST_STA 1).setPst PST_SGIE 0).enter (x.srg SR_SVB)

/-- Entry to M level at `pc` (R116). -/
def Thread.enterM (x : Thread) (c : Cause) (ret pc : Word) : Thread :=
  let pst := x.srg SR_PST
  let y := ((x.setSr SR_MSS pst).setSr SR_MRP (align4 ret)).setSr SR_MCS c.word
  let y := match c.addr with | some a => y.setSr SR_MFA a | none => y
  (((y.setPst PST_PL 3).setPst PST_MTA 1).setPst PST_MGIE 0).enter pc

/-- The double trap's entry at M-base + 0x140: MRP and MSS keep their values, MFA holds the pc of the trapping instruction (R112, R116). -/
def Thread.enterDouble (x : Thread) (c : Cause) (mb : Word) : Thread :=
  let y := x.setSr SR_MCS { code := 0x25, info := c.code % 256 + 256 * b2n c.int : Cause }.word
  let y := y.setSr SR_MFA x.pc
  ((((y.setPst PST_PL 3).setPst PST_MTA 1).setPst PST_MGIE 0).setPst PST_MDT 1).enter (mb + 0x140)

/-- The running thread of a partition that takes retry-exhausted notifications: the lowest-numbered (R132). -/
def State.rexTaker (s : State) (p : Nat) : Option Nat := (s.runningThreads.filter fun t => s.part t == p).head?

/-- A thread stops; its retry-exhausted notifications pass to the next running thread of its partition (R132). -/
def State.stopThread (s : State) (t : Nat) (why : Run) : State :=
  let l := (s.thr t).rexPend
  let s := s.modThr t fun x => { x with run := why, wait := .none, rexPend := [] }
  match l, s.rexTaker (s.part t) with
  | _ :: _, some u => s.modThr u fun x => { x with rexPend := x.rexPend ++ l }
  | _, _ => s

/-- Entry to M level: at `vec` past M-base, or at MVB; with the double trap and the stop of R116 for what `double` marks. -/
def State.takeM (s : State) (t : Nat) (c : Cause) (ret : Word) (vec : Option Word) (double : Bool) : State :=
  let x := s.thr t
  let mb := s.mbaseOf t
  if double && x.pstBit PST_MTA then
    if x.pstBit PST_MDT then
      (s.log {
        block := 0x01, inst := s.pcore t, cls := 2, typ := 0x0F, part := some (s.part t), thread := some t
        detail := leBytes 8 x.pc.toNat }).stopThread t .stoppedTrap
    else s.setThr t (x.enterDouble c mb)
  else
    s.setThr t (x.enterM c ret (match vec with | some v => mb + v | none => x.srg SR_MVB))

/-- FPEI.PEND (R137). -/
def Thread.fpPend (x : Thread) : Bool := FPEI_PEND.get (x.srg SR_FPEI) == 1

/-- An entry to S level, or the supervisor double trap in its place while STA = 1 (R115). (DEDUCED, notes/assumptions/19.md.) -/
def State.takeSExc (s : State) (t : Nat) (c : Cause) (ret : Word) : State :=
  let x := s.thr t
  if x.pstBit PST_STA then
    s.takeM t { code := 0x15, info := c.code % 256, addr := some (c.addr.getD (x.srg SR_SFA)) } ret none true
  else s.setThr t (x.enterS c ret)

/-- Delivery of the pending floating-point trap; PEND clears in the same step (R126, R140). -/
def State.takeFp (s : State) (t : Nat) (ret : Word) : State :=
  (s.modThr t fun x => { (x.setSr SR_FPEI (FPEI_PEND.put (x.srg SR_FPEI) 0)) with fpDue := false }).takeSExc t
    { code := 0x0A } ret

/-- Whether a synchronous cause is taken at M level when it arises at level `pl` (R112). -/
def takenAtM (code pl : Nat) : Bool := pl == 3 || code == 0x07 || code == 0x08 || decide (0x15 ≤ code)

/-- TAKING AN EXCEPTION: a synchronous exception of thread `t` at its pc (R112, R115 to R117, R126). SVC's own entry returns to pc + 4. -/
def State.takeExc (s : State) (t : Nat) (c : Cause) : State :=
  let x := s.thr t
  let svc := c.code == 0x06 || c.code == 0x07 || c.code == 0x08
  let ret := if svc then x.pc + 4 else x.pc
  if takenAtM c.code x.pl then
    if c.code = 0x24 then s.takeM t c ret (some 0x100) true
    else s.takeM t c ret none true
  else if c.code = 0x0A then s.takeFp t x.pc
  else if x.fpPend && !x.pstBit PST_STA then s.takeFp t x.pc
  else s.takeSExc t c ret

/-- A machine check: the entry at M-base + 0x040, MCE summarising the record (R462, R463). -/
def State.takeMchk (s : State) (t : Nat) (pa : Nat) (r : Rec) : State :=
  let x := s.thr t
  let s := if x.pstBit PST_MTA then s else s.modThr t fun x => x.setSr SR_MCE r.summary
  s.takeM t { code := 0x21, info := r.rseq, addr := some (BitVec.ofNat 64 pa) } x.pc (some 0x040) true

/-- The record of poison consumption, and the machine check taken for it (R463). -/
def State.consumePoison (s : State) (t pa kind : Nat) : State :=
  let i : RecIn := {
    block := 0x01, inst := s.pcore t, cls := 2, typ := 0x05, addr := some pa, part := some (s.part t)
    thread := some t, detail := [BitVec.ofNat 8 kind], mchk := !(s.thr t).pstBit PST_MTA }
  let r := s.recOf i
  (s.log i).takeMchk t pa r

/-! Interrupts (R122, R123). -/

/-- SIP of a thread (R121, R122). -/
def State.sip (s : State) (x : Thread) : Word :=
  BitVec.ofNat 64 (b2n (x.sq != [] || x.sOvf) * 4 + b2n (decide (x.srg SR_STCMP ≤ s.time)) * 2 + b2n x.ssi.isSome)

/-- MIP of a thread (R121, R122). -/
def Thread.mip (x : Thread) : Word :=
  BitVec.ofNat 64 (b2n x.mci.isSome * 16 + b2n (x.mq != [] || x.mOvf) * 4 + b2n x.msi.isSome)

/-- Some interrupt is pending, enabled or not (R93). -/
def State.intPending (s : State) (x : Thread) : Bool := s.sip x != 0 || x.mip != 0

/-- The identifier the next entry delivers, the queue and the mark after it (R122). -/
def popId (q : List Nat) (ovf : Bool) : Nat × List Nat × Bool :=
  if ovf && decide (q.length < 16) then (0xFFFF, q, false)
  else match q with
    | a :: r => (a, r, ovf)
    | [] => (0xFFFF, [], false)

/-- The enabled M interrupt of highest precedence (R122): 4 MCI, 2 MEI, 0 MSI. -/
def Thread.mInt (x : Thread) : Option Nat :=
  if x.pl != 3 || (x.pstBit PST_MGIE && !x.pstBit PST_MTA) then
    [4, 2, 0].find? fun b => bitOf (x.srg SR_MIE).toNat b && bitOf x.mip.toNat b
  else none

/-- The enabled S interrupt of highest precedence (R122): 2 SEI, 0 SSI, 1 STI. -/
def State.sInt (s : State) (x : Thread) : Option Nat :=
  if x.pl == 0 || (x.pl == 1 && x.pstBit PST_SGIE && !x.pstBit PST_STA) then
    [2, 0, 1].find? fun b => bitOf (x.srg SR_SIE).toNat b && bitOf (s.sip x).toNat b
  else none

/-- Entry for an M interrupt (R122, R462). -/
def State.takeMInt (s : State) (t b : Nat) (ret : Word) : State :=
  let x := s.thr t
  if b = 4 then
    (s.setThr t { (x.setSr SR_MCE (x.mci.getD 0)) with mci := none }).takeM t { int := true, code := 0x14 } ret none false
  else if b = 2 then
    let (id, q, o) := popId x.mq x.mOvf
    (s.setThr t { x with mq := q, mOvf := o }).takeM t { int := true, code := 0x13, info := id } ret none false
  else
    (s.setThr t { x with msi := none }).takeM t { int := true, code := 0x11, info := x.msi.getD 0 } ret none false

/-- Entry for an S interrupt; a pending floating-point trap displaces it and the interrupt stays pending (R122, R126). -/
def State.takeSInt (s : State) (t b : Nat) (ret : Word) : State :=
  let x := s.thr t
  if x.fpPend then s.takeFp t ret
  else if b = 2 then
    let (id, q, o) := popId x.sq x.sOvf
    s.setThr t ({ x with sq := q, sOvf := o }.enterS { int := true, code := 0x03, info := id } ret)
  else if b = 0 then
    s.setThr t ({ x with ssi := none }.enterS { int := true, code := 0x01, info := x.ssi.getD 0 } ret)
  else s.setThr t (x.enterS { int := true, code := 0x02 } ret)

/-- A waiting WAIT ends: it completes, and the next instruction is at pc + 4 (R93, R117). -/
def Thread.endWait (x : Thread) : Thread :=
  if x.wait = .waitInt then
    let y := x.setSr SR_INSTRET (x.srg SR_INSTRET + 1)
    { (y.pmc 0x02) with wait := .none, pc := x.pc + 4, retries := 0 }
  else x

/-- The event the thread takes at an instruction boundary in place of an instruction (R128), if one applies. (DESIGN CHOICE, notes/assumptions/10.md.) -/
def State.boundary (s : State) (t : Nat) : Option State :=
  let x := s.thr t
  let ret := x.pc
  if x.wtwPend then
    some ((s.setThr t { x with wtwPend := false }).takeM t { code := 0x26 } ret (some 0x180) false)
  else
    let mta := x.pstBit PST_MTA
    match (if mta then none else x.tkoPend), (if mta then [] else x.rexPend) with
    | some (c, w), _ =>
      some ((s.setThr t { (x.setSr SR_MCE w) with tkoPend := none }).takeM t { code := 0x23, info := c } ret (some 0x0C0) false)
    | none, (lc, w) :: r =>
      some ((s.setThr t { (x.setSr SR_MCE w) with rexPend := r }).takeM t { code := 0x22, info := lc } ret (some 0x080) false)
    | none, [] =>
      match x.mInt with
      | some b => some (s.takeMInt t b ret)
      | none =>
        if x.fpDue && x.fpPend && x.pl != 3 then some (s.takeFp t ret)
        else (s.sInt x).map fun b => s.takeSInt t b ret

/-- TRAP RETURN at S or M level (R118); `none` where MSS names the reserved level. A return to below M with a floating-point trap pending makes the trap due (R127). -/
def Thread.retl (x : Thread) : Option Thread :=
  let out (y : Thread) (pc : Word) : Thread := { y with pc := pc, resv := none, defer := 0 }
  if x.pl = 3 then
    let m := x.srg SR_MSS
    if PST_PL.get m = 2 then none
    else
      let y := x.setSr SR_PST m
      some (out { y with fpDue := y.pl != 3 && y.fpPend } (x.srg SR_MRP))
  else
    let m := x.srg SR_SSS
    let y := (((((x.setPst PST_PL (PST_PL.get m)).setPst PST_STA (PST_STA.get m)).setPst PST_SGIE (PST_SGIE.get m)).setPst
      PST_FEN (PST_FEN.get m)).setPst PST_STR (PST_STR.get m))
    some (out y (x.srg SR_SRP))

/-- An identifier arrives at a queue: dropped if present, marked as overflow if the queue is full (R122). -/
def arriveId (q : List Nat) (ovf : Bool) (id : Nat) : List Nat × Bool :=
  if q.contains id then (q, ovf) else if 16 ≤ q.length then (q, true) else (q ++ [id], ovf)

/-- An identifier arrives for a thread (R122). -/
def State.sendId (s : State) (t : Nat) (m : Bool) (id : Nat) : State :=
  s.modThr t fun x =>
    if m then
      let (q, o) := arriveId x.mq x.mOvf id
      { x with mq := q, mOvf := o }
    else
      let (q, o) := arriveId x.sq x.sOvf id
      { x with sq := q, sOvf := o }

/-- The state of a thread at its entry to M-base + 0x000 (R68, R119). -/
def State.startThread (s : State) (t reason : Nat) : State :=
  let mb := s.mbaseOf t
  s.setThr t { (((Thread.reset.setSr SR_MVB (mb + 0x200)).setSr SR_MCS { code := 0x20, info := reason : Cause }.word)) with
    run := .running, pc := mb }

end Sys2Proof.Machine
end

