-- ==== Sys2Proof/Machine/Mmu.lean ====
section
/-! DEFINITION. Address translation: canonical form, the TLB and micro-TLBs, permissions and marks, the walk cache, invalidation (R157 to R182). -/

namespace Sys2Proof.Machine

/-- The kind of an access as translation sees it (R167). -/
inductive Acct where
  | fetch | read | write
  deriving DecidableEq, Repr

/-- What an instruction's step answers: a value and a state, an exception, or a wait that leaves the instruction to execute again. -/
inductive Ex (α : Type) where
  | ok (a : α) (s : State)
  | exc (c : Cause) (s : State)
  /-- A machine check for poison at a physical address, with its access kind (R463). -/
  | mchk (pa kind : Nat) (s : State)
  | hold (s : State)

/-- Go on with the value of a step. -/
def Ex.bind {α β : Type} (e : Ex α) (k : α → State → Ex β) : Ex β :=
  match e with
  | .ok a s => k a s
  | .exc c s => .exc c s
  | .mchk p n s => .mchk p n s
  | .hold s => .hold s

/-- Bits [63:57] of a translated address equal bit 56 (R157). -/
def canonical (va : Nat) : Bool := va / 2 ^ 56 == 0 || va / 2 ^ 56 == 255

/-- The log2 of a TLB entry's page size (R163, R164). -/
def pageShift (size : Nat) : Nat :=
  match size with
  | 0 => 12
  | 1 => 16
  | 2 => 21
  | 3 => 30
  | _ => 39

/-- The TLB set of a page (R163): VA[s+8:s]. -/
def TlbEnt.set (e : TlbEnt) : Nat := e.vpn % 512

/-- An entry matches a virtual address under an address-space tag (R166). -/
def TlbEnt.hits (e : TlbEnt) (va tag : Nat) : Bool :=
  va % 2 ^ 57 / 2 ^ pageShift e.size == e.vpn && (e.g || e.tag == tag)

/-- The entry used: the smallest page that matches (R166). -/
def tlbFind (l : List TlbEnt) (va tag : Nat) : Option TlbEnt :=
  let h := l.filter fun e => e.hits va tag
  (List.range 5).findSome? fun k => h.find? fun e => e.size == k

/-- Remove the entries `f` selects from the TLB and both micro-TLBs (R163). -/
def Core.tlbDrop (x : Core) (f : TlbEnt → Bool) : Core :=
  { x with
    tlb := x.tlb.filter fun e => !f e
    utlbI := x.utlbI.filter fun e => !f e
    utlbD := x.utlbD.filter fun e => !f e }

/-- Fill a micro-TLB; one of its 64 entries, freely chosen, leaves where it is full (R163). -/
def utlbFill (l : List TlbEnt) (e : TlbEnt) (free : Nat) : List TlbEnt :=
  if l.length < 64 then e :: l else e :: dropIdx l (free % 64)

/-- Whether a thread's accesses are translated at an address (R109, R157, R158). -/
def Thread.translated (x : Thread) (va : Nat) : Bool :=
  x.pl == 0 || (x.pl == 1 && x.pstBit PST_STR && decide (va < 0xFFF0000000000000))

/-- The permission fault of an access (R167). -/
def permCode : Acct → Nat
  | .fetch => 0x0E
  | .read => 0x0F
  | .write => 0x10

/-- The TLB miss of an access (R166). -/
def missCode : Acct → Nat
  | .fetch => 0x0B
  | .read => 0x0C
  | .write => 0x0D

/-- Whether a matched entry permits an access (R167). -/
def TlbEnt.permits (e : TlbEnt) (a : Acct) (user : Bool) : Bool :=
  match a with
  | .fetch => e.ex && (e.us == user)
  | .read => e.rd && (!user || e.us)
  | .write => e.wr && (!user || e.us)

/-- The physical address an entry gives. -/
def TlbEnt.paOf (e : TlbEnt) (va : Nat) : Nat := e.pa / 2 ^ pageShift e.size * 2 ^ pageShift e.size + va % 2 ^ pageShift e.size

/-- INFO of a fault: the access kind; 0 for a fetch but in the accessed-mark trap (R112, R113). -/
def faultInfo (a : Acct) (kind : Nat) : Nat := if a = .fetch then 0 else kind

/-- Look an address up: the entry, and the core with its micro-TLB and LRU order brought up to date (R163). The flag tells a micro-TLB miss. -/
def Core.lookup (x : Core) (a : Acct) (va tag free : Nat) : Option (TlbEnt × Core × Bool) :=
  let u := if a = .fetch then x.utlbI else x.utlbD
  match tlbFind x.tlb va tag with
  | none => none
  | some e =>
    if u.contains e then some (e, x, false)
    else
      let y := { x with tlb := e :: x.tlb.filter fun f => f != e }
      let u := utlbFill u e free
      some (e, if a = .fetch then { y with utlbI := u } else { y with utlbD := u }, true)

/-- Translate an access of thread `t` (R157, R158, R166 to R168): steps 6 and 7 of R114, or their fetch forms. -/
def State.translate (s : State) (t : Nat) (va : Word) (a : Acct) (kind : Nat) : Ex Nat :=
  let x := s.thr t
  let v := va.toNat
  let fault (code info : Nat) (s : State) : Ex Nat := .exc { code := code, info := info, addr := some va } s
  if x.translated v = false then .ok (v % 2 ^ 52) s
  else if canonical v = false ∨ 0xFFF0000000000000 ≤ v then fault (permCode a) (faultInfo a kind) s
  else
    let c := s.pcore t
    let tag := (x.srg SR_ASTAG).toNat % 2 ^ 16
    let miss (s : State) : Ex Nat := fault (missCode a) (faultInfo a kind) (s.modThr t fun y => y.pmc 0x06)
    match (s.core c).lookup a v tag (Config.freeNat s.fresh) with
    | none => miss (s.modThr t fun y => y.pmc 0x05)
    | some (e, y, um) =>
      let s := s.setCore c y
      let s := if um then (s.modThr t fun z => z.pmc 0x05).tickFree else s
      if e.permits a (x.pl == 0) = false then fault (permCode a) (faultInfo a kind) s
      else if e.a = false ∨ (a = .write ∧ e.d = false) then
        if s.actF (HWD_XLAT c) HWD_XLAT_ADHW = 1 then miss (s.modCore c fun z => z.tlbDrop fun f => f == e)
        else fault (if e.a then 0x14 else 0x13) kind s
      else .ok (e.paOf v) s

/-! TLBWR (R164, R165). -/

/-- The entry words A and B spell (R164); `none` for the cases of R165. -/
def tlbEntOf (a b : Nat) : Option TlbEnt :=
  let size := a % 8
  let bit := bitOf b
  if size > 4 ∨ b / 2 ^ 59 ≠ 0 ∨ bitsOf b 11 10 ≠ 0 ∨ bit 0 = false ∨ (bit 3 = true ∧ bit 2 = false) then none
  else
    some {
      size := size, vpn := bitsOf a 47 3 * 4096 / 2 ^ pageShift size, tag := if bit 6 then 0 else a / 2 ^ 48
      g := bit 6, pa := bitsOf b 51 12 * 4096 / 2 ^ pageShift size * 2 ^ pageShift size
      d := bit 8, a := bit 7, us := bit 5, ex := bit 4, wr := bit 3, rd := bit 2 }

/-- An older entry that a new one replaces (R165). -/
def TlbEnt.clashes (n e : TlbEnt) : Bool := e.size == n.size && e.vpn == n.vpn && (n.g || e.g || e.tag == n.tag)

/-- Write an entry: clashing entries go, and so does the least recently used of a full set (R163, R165). -/
def Core.tlbWrite (x : Core) (n : TlbEnt) : Core :=
  let x := x.tlbDrop fun e => n.clashes e
  let same := x.tlb.filter fun e => e.set == n.set
  let x := if same.length < 8 then x else match same.getLast? with | some v => x.tlbDrop fun e => e == v | none => x
  { x with tlb := n :: x.tlb }

/-! The walk cache (R174). -/

/-- ra[56 : 12 + 9 × LEVEL] (R171). -/
def walkVa (va lvl : Nat) : Nat := va % 2 ^ 57 / 2 ^ (12 + 9 * lvl)

/-- The set of a walk-cache entry: an unspecified hash of EA (R174). -/
def walkSet (ea : Nat) : Nat := Config.walkHash ea % 64

/-- A hit of the walk cache (R171 step 4). -/
def Core.walkHit (x : Core) (tag lvl ea va : Nat) : Option WalkEnt :=
  x.wc.find? fun e => e.tag == tag && e.level == lvl && e.ea == ea && e.va == walkVa va lvl

/-- Install a table entry; the least recently used of a full set leaves (R174). -/
def Core.walkPut (x : Core) (n : WalkEnt) : Core :=
  let l := x.wc.filter fun e => e != n
  let same := l.filter fun e => walkSet e.ea == walkSet n.ea
  let l := if same.length < 8 then l else match same.getLast? with | some v => l.filter fun e => e != v | none => l
  { x with wc := n :: l }

/-- Whether a table entry with V = 1 is malformed at a level (R161). -/
def malformed (w lvl : Nat) : Bool :=
  let leaf := bitOf w 1
  w / 2 ^ 59 != 0 || bitsOf w 11 10 != 0
    || (if leaf then lvl == 4 else lvl == 0)
    || (!leaf && bitsOf w 9 2 != 0)
    || (leaf && bitOf w 3 && !bitOf w 2)
    || (leaf && bitOf w 9 && lvl != 0)
    || (leaf && w % 2 ^ 52 / 2 ^ 12 % 2 ^ (9 * lvl) != 0)

/-! Invalidation (R96, R176, R177). -/

/-- Whether TLBI code `fn` with operands removes an entry (R176). -/
def tlbiHits (fn : Nat) (ra rb : Nat) (e : TlbEnt) : Bool :=
  let tag := rb % 2 ^ 16
  match bitsOf fn 2 1 with
  | 0 => ra % 2 ^ 57 / 2 ^ pageShift e.size == e.vpn && (e.g || e.tag == tag)
  | 1 => !e.g && e.tag == tag
  | _ => true

/-- Whether WCI code `fn` with operands removes an entry (R176). -/
def wciHits (fn : Nat) (ra rb : Nat) (e : WalkEnt) : Bool :=
  let tag := rb % 2 ^ 16
  match bitsOf fn 2 1 with
  | 0 => e.tag == tag && e.va == walkVa ra e.level
  | 1 => e.tag == tag
  | _ => true

/-- A core performs a TLBI or WCI (R176). -/
def Core.invalidate (x : Core) (fn ra rb : Nat) : Core :=
  if bitOf fn 3 then { x with wc := x.wc.filter fun e => !wciHits fn ra rb e } else x.tlbDrop (tlbiHits fn ra rb)

/-- Whether a core is reached by a broadcast of core `c` (R177). -/
def State.inBroadcast (s : State) (c d : Nat) : Bool :=
  let g := s.actF (HWD_XLAT c) HWD_XLAT_BGRP
  d == c || (s.coreActive d && (if g = 0 then s.corePart d == s.corePart c else s.actF (HWD_XLAT d) HWD_XLAT_BGRP == g))

end Sys2Proof.Machine
end

