-- ==== Sys2Proof/Machine/RegBase.lean ====
section
/-! DEFINITION. Register access by access code, before any register's own effect: sizes, halves, w1c, rc, rw-s, held writes, domains without a clock (R5 to R13, R25). -/

namespace Sys2Proof.Machine

/-- Who makes a register access (R18): the route, the level it carries (R109) and its partition. -/
structure Who where
  org : Origin
  lvl : Nat
  part : Option Nat

/-- The access of an operand's origin: a thread's current level and partition; firmware at M level without a partition. -/
def State.who (s : State) (o : Origin) : Who :=
  match o with
  | .core t => ⟨o, (s.thr t.val).pl, some (s.part t.val)⟩
  | .peer _ p => ⟨o, 0, some p.val⟩
  | _ => ⟨o, 3, none⟩

/-- STEP of the start sequence (R63). -/
def State.startStep (s : State) : Nat := s.getF SVP_STAT SVP_STAT_STEP

/-- The start has reached step 6 of R63: the PLLs run. -/
def State.clocksUp (s : State) : Bool := s.startStep == 4 || s.startStep == 5 || s.startStep == 6

/-- The Glade of an instance of a Glade block (R515). -/
def gladeOf (blk inst : Nat) : Nat := if blk = 0x0D then inst / 2 else if blk = 0x0E then inst / 8 else inst

/-- The block instance lies in a Glade. -/
def inGlade (blk : Nat) : Bool := decide (0x0C ≤ blk) && decide (blk ≤ 0x11)

/-- The domain of a block instance has a clock and is out of reset (R25, R26). -/
def State.domainUp (s : State) (blk inst : Nat) : Bool :=
  if blk = 0x13 ∨ blk = 0x14 ∨ blk = 0x15 ∨ blk = 0x16 ∨ blk = 0x17 then true
  else if !s.clocksUp || decide (3 ≤ s.wind) then false
  else if blk = 0x01 ∨ blk = 0x02 ∨ blk = 0x04 then !bitOf s.standRst (standOf inst)
  else if inGlade blk then !bitOf s.gladeRst (gladeOf blk inst)
  else true

/-- The instance is a member of the group whose COMMIT is in progress (R10). -/
def State.inCommit (s : State) (blk inst : Nat) : Bool :=
  (match s.ldr with | some j => j.commit && j.live.contains (blk, inst) | none => false)
    || s.clrs.any fun c => c.commit && c.block == blk && c.inst == inst

/-- The bits of a register word an access of this size and offset covers (R6). -/
def accMask (off size : Nat) : Word :=
  if size = 8 then BitVec.allOnes 64
  else if off % 8 = 4 then 0xFFFFFFFF00000000#64 else 0x00000000FFFFFFFF#64

/-- The sizes and alignments a register accepts (R6). -/
def accOk (off size : Nat) : Bool := (size == 8 && off % 8 == 0) || (size == 4 && off % 4 == 0)

/-- The operand of a write as a register word: a 4-byte write to the upper half carries its value there (R6). -/
def accWord (off size : Nat) (v : Word) : Word :=
  if size = 4 ∧ off % 8 = 4 then v <<< 32 else v

/-- The new word of a register after a write under `mask`, by access code (R8); wo fields act and store nothing. -/
def writeWord (sp : RegSpec) (old v mask : Word) (held : Bool) : Word :=
  let set := mask &&& sp.maskOf (if held then [.rw, .rwl] else [.rw, .rwl, .rws])
  let clr := mask &&& v &&& sp.maskOf [.w1c]
  ((old &&& ~~~ set) ||| (v &&& set)) &&& ~~~ clr

/-- A write by access code: rw-s fields of a register whose group commits are held until the commit completes (R8, R10). Reserved offsets ignore it (R7). -/
def State.writeCodes (s : State) (r : Reg) (v mask : Word) : State :=
  match r.spec? with
  | none => s
  | some sp =>
    let held := s.inCommit r.block r.inst
    let sm := mask &&& sp.maskOf [.rws]
    let s := if held && sm != 0 then { s with heldW := s.heldW ++ [(r.key, sm, v)] } else s
    s.setReg r (writeWord sp (s.reg r) v mask held)

/-- Clear the rc fields that a read under `mask` returned whole (R6, R8). -/
def State.clearRc (s : State) (r : Reg) (mask : Word) : State :=
  match r.spec? with
  | none => s
  | some sp =>
    let m := sp.fields.foldl (fun m f => if f.acc = .rc ∧ f.fld.mask &&& mask = f.fld.mask then m ||| f.fld.mask else m) (0 : Word)
    if m = 0 then s else s.setReg r (s.reg r &&& ~~~ m)

/-- What a read returns of a register's current value: wo fields read as zero (R8). -/
def visible (r : Reg) (w : Word) : Word :=
  match r.spec? with
  | none => 0
  | some sp => w &&& ~~~ sp.maskOf [.wo]

/-- The part of a register word a read returns (R6). -/
def readPart (off size : Nat) (w : Word) : Word :=
  if size = 8 then w else if off % 8 = 4 then w >>> 32 else w &&& 0xFFFFFFFF#64

/-- All ones at a size. -/
def onesAt (size : Nat) : Word := if size = 4 then 0xFFFFFFFF#64 else BitVec.allOnes 64

end Sys2Proof.Machine
end

