-- ==== Sys2Proof/Machine/Pool.lean ====
section
/-! DEFINITION. The spare-core pool as its registers show it: the choice of a candidate, the windows without self-test, and the status fields that Heartwood and Coppice compute (R444, R447, R450, R456, R457). -/

namespace Sys2Proof.Machine

/-- The ROLE of a physical core (R446). -/
def State.role (s : State) (c : Nat) : Nat := s.actF (HWD_ROLE c) HWD_ROLE_ROLE

/-- The health state of a core (R456). -/
def State.health (s : State) (c : Nat) : Nat := s.getF (CPC_HEALTH c) CPC_HEALTH_STATE

/-- A spare of the pool: ROLE 1 and health state 1 or 2 (R450). -/
def State.pooled (s : State) (c : Nat) : Bool := s.role c == 1 && (s.health c == 1 || s.health c == 2)

/-- A takeover of core `c` is in progress: step 1 has come (R453). -/
def State.leaving (s : State) (c : Nat) : Bool := s.tkos.any fun k => k.started && k.failing == c

/-- A spare is receiving a takeover (R450). -/
def State.receiving (s : State) (c : Nat) : Bool := s.tkos.any fun k => k.started && k.spare == c

/-- A core takes part in a takeover in progress (R42, R455). -/
def State.inTakeover (s : State) (c : Nat) : Bool := s.leaving c || s.receiving c

/-- Self-test does not run on core `c`: start-up, Stand recovery, takeover or test (R457). -/
def State.testPaused (s : State) (c : Nat) : Bool :=
  s.released == 0 || bitOf s.standRst (standOf c) || s.scan || s.tkos.any fun k => k.started

/-- The spares whose STALE is set, by bit. -/
def State.staleMap (s : State) : Nat :=
  (List.range 72).foldl (fun m c => m + s.getF (CPC_HEALTH c) CPC_HEALTH_STALE * 2 ^ c) 0

/-- A window without self-test opens over the cores that `f` selects: STALE is set (R457). -/
def State.openWindow (s : State) (f : Nat → Bool) : State :=
  ((List.range 72).filter fun c => f c && s.pooled c).foldl (fun s c => s.setF (CPC_HEALTH c) CPC_HEALTH_STALE 1) s

/-- The group of a candidate in the order of R450: health state 2 with STALE = 0, then with STALE = 1, then health state 1. -/
def State.candGroup (s : State) (stale c : Nat) : Nat := if s.health c = 1 then 2 else b2n (bitOf stale c)

/-- The cores in the order of R450 seen from a failing core: Stand s, s + 1, s + 2, s + 3, within a Stand ascending; with SAMESTAND its own Stand alone. -/
def State.candOrder (s : State) (f : Nat) : List Nat :=
  (List.range (if s.actF CPC_CTL CPC_CTL_SAMESTAND = 1 then 1 else 4)).flatMap fun d =>
    (List.range 18).map fun i => (standOf f + d) % 4 * 18 + i

/-- The first candidate for a failing core (R450). (DEDUCED, notes/assumptions/37.md.) -/
def State.candidate (s : State) (f stale : Nat) : Option Nat :=
  let l := (s.candOrder f).filter fun c => s.pooled c && !s.receiving c
  (List.range 3).findSome? fun g => l.find? fun c => s.candGroup stale c == g

/-- The oldest request that awaits a decision (R447). -/
def State.pendingReq (s : State) : Option Takeover := s.tkos.find? fun k => k.decided.isNone

/-- CPC_REQ; a request whose step 1 has not come shows the candidate of this moment (R450). -/
def State.cpcReq (s : State) : Word :=
  match s.pendingReq with
  | none => 0
  | some k =>
    let sp := if k.started then k.spare else (s.candidate k.failing s.staleMap).getD k.spare
    CPC_REQ_SPARE.put (CPC_REQ_LCORE.put (CPC_REQ_PCORE.put (CPC_REQ_REQID.put (CPC_REQ_PREV.put (CPC_REQ_VALID.put 0 1)
      (b2n k.prev)) k.reqid) k.failing) (s.lcore k.failing)) sp

/-- CPC_STAT with its counts of spares and takeovers. -/
def State.cpcStat (s : State) : Word :=
  CPC_STAT_ACTIVE.put (CPC_STAT_SPARES.put (s.reg CPC_STAT) ((List.range 72).filter s.pooled).length)
    (s.tkos.filter fun k => k.started).length

/-- HWD_STAT.SEQ (R444). -/
def State.hwdSeq (s : State) (c : Nat) : Nat :=
  let on (r : Run) : Bool := (s.thr (2 * s.lcore c)).run == r || (s.thr (2 * s.lcore c + 1)).run == r
  if s.role c = 2 then 3
  else if s.role c = 1 then (if s.testPaused c then 5 else 4)
  else if s.leaving c then 2
  else if on .stoppedImage then 6
  else if on .stoppedRetry then 7
  else 0

/-- CPC_HEALTH with its AGE: 0 until a pass has completed (R457). -/
def State.healthVal (s : State) (c : Nat) : Word :=
  let v := s.reg (CPC_HEALTH c)
  match (s.core c).passAt with
  | some a => CPC_HEALTH_AGE.put v (min ((s.uptime - a) / 1000000) (2 ^ 32 - 1))
  | none => v

/-- The current value of a register of Heartwood or Coppice. -/
def State.poolVal (s : State) (r : Reg) : Word :=
  if r.block = 0x02 ∧ r.off = 0x010 then HWD_STAT_SEQ.put (s.reg r) (s.hwdSeq r.inst)
  else if r = CPC_REQ then s.cpcReq
  else if r = CPC_STAT then s.cpcStat
  else if r.block = 0x03 ∧ 0x100 ≤ r.off then s.healthVal ((r.off - 0x100) / 8)
  else s.reg r

end Sys2Proof.Machine
end

