-- ==== Sys2Proof/Machine/Takeover.lean ====
section
/-! DEFINITION. Sparing requests and the steps of a takeover that need no access of the failing core (R442, R447 to R455). -/

namespace Sys2Proof.Machine

/-- Shadow, active and retained value of a register with rw-s fields in one step, as the sparing sequencer writes them (R452). -/
def State.seqWrite (s : State) (r : Reg) (v : Word) : State := ((s.setReg r v).setAct r v).retain r v

/-- Change the role of a core and keep its logical number (R452, R454). -/
def State.setRole (s : State) (c role : Nat) : State := s.seqWrite (HWD_ROLE c) (HWD_ROLE_ROLE.put (s.act (HWD_ROLE c)) role)

/-- The threads of a physical core. -/
def State.coreThreads (s : State) (c : Nat) : List Nat := [2 * s.lcore c, 2 * s.lcore c + 1]

/-- Both threads of a core stop in the state of their images (R442, R443). -/
def State.stopCore (s : State) (c : Nat) (why : Run) : State :=
  ((s.coreThreads c).filter s.running).foldl
    (fun s t => (s.stopThread t why).modThr t fun x => { x with resv := none, defer := 0 }) s

/-- A broadcast no longer waits for a core: it counts as complete (R178). -/
def Bcast.skip (b : Bcast) (c : Nat) (ts : List Nat) : Bcast :=
  { b with cores := setBit b.cores c false, drains := b.drains.filter fun d => !ts.contains d.1 }

/-- Every broadcast in progress counts core `c` as complete (R178, R455). -/
def State.skipCore (s : State) (c : Nat) : State :=
  let ts := s.coreThreads c
  let s : State := { s with inb := s.inb.map fun (i : InBcast) => { i with b := i.b.skip c ts } }
  (s.threads.filter fun e => match e.2.wait with | .inval _ _ => true | _ => false).foldl
    (fun s e => s.modThr e.1 fun x => match x.wait with | .inval b m => { x with wait := .inval (b.skip c ts) m } | _ => x) s

/-- A retry-exhausted notification becomes pending for the lowest-numbered running thread of a partition (R132). -/
def State.notifyRex (s : State) (p lc : Nat) (w : Word) : State :=
  match s.rexTaker p with
  | some t => s.modThr t fun x => { x with rexPend := x.rexPend ++ [(lc, w)] }
  | none => s

/-- A core's threads stay stopped with no takeover: the contained record and the notification (R132, R442, R443). `why`: 1 no candidate, 2 declined, 3 every candidate failed, 4 image lost. -/
def State.giveUp (s : State) (blk f why : Nat) : State :=
  let i : RecIn := {
    block := blk, inst := if blk = 0x02 then f else 0, cls := 2, typ := 0x07, part := some (s.corePart f)
    detail := [BitVec.ofNat 8 f, BitVec.ofNat 8 why] }
  let w := (s.recOf i).summary
  let s := (s.log i).notifyRex (s.corePart f) (s.lcore f) w
  if why = 1 ∨ why = 2 then s.incF CPC_STAT CPC_STAT_DECLINE else s

/-- Change the request with an identifier. -/
def State.modTko (s : State) (id : Nat) (f : Takeover → Takeover) : State :=
  { s with tkos := s.tkos.map fun k => if k.reqid = id then f k else k }

/-- The class 2 work of a request is done (R476). -/
def State.approvalDone (s : State) (id : Nat) : State := s.setQueue 2 ((s.queue 2).filter fun e => e.work != ⟨3, BitVec.ofNat 64 id⟩)

/-- A request or takeover ends, and with it the work that asks for its decision. -/
def State.dropTko (s : State) (id : Nat) : State := { s.approvalDone id with tkos := s.tkos.filter fun k => k.reqid != id }

/-- Step 1 of R453 for a request: both threads of the failing core stop, the candidate leaves self-test. With no candidate left an ordinary request ends as R442 states, and a preventive one is dropped. -/
def State.tkoStart (s : State) (k : Takeover) : State :=
  match s.candidate k.failing s.staleMap with
  | none => if k.prev then s.dropTko k.reqid else (s.dropTko k.reqid).giveUp 0x03 k.failing 1
  | some c =>
    let m := s.staleMap
    let s := (s.stopCore k.failing .stoppedRetry).skipCore k.failing
    let s := s.modTko k.reqid fun k => { k with started := true, spare := c, stale := m }
    s.openWindow fun _ => true

/-- A new request, where a candidate exists (R451); class 2 work of the Forester announces it (R476, kind 3). -/
def State.raiseReq (s : State) (f : Nat) (prev : Bool) : State :=
  match s.candidate f s.staleMap with
  | none => s
  | some c =>
    let k : Takeover := ⟨f, c, s.nextReq, prev, false, none, false, false, 0, 0⟩
    let s := { s with tkos := s.tkos ++ [k], nextReq := (s.nextReq + 1) % 256 }
    s.setQueue 2 (s.queue 2 ++ [⟨⟨3, BitVec.ofNat 64 k.reqid⟩, none⟩])

/-- The retries of a core are exhausted (R442, R444): a pending preventive request becomes ordinary, otherwise one is raised; with no candidate the threads stop for good. -/
def State.exhausted (s : State) (f : Nat) : State :=
  let s := s.stopCore f .stoppedRetry
  match s.tkos.find? fun k => k.failing == f && !k.started with
  | some k => (s.modTko k.reqid fun k => { k with prev := false }).tkoStart { k with prev := false }
  | none =>
    match s.candidate f s.staleMap with
    | none => s.giveUp 0x03 f 1
    | some _ =>
      let id := s.nextReq
      let s := s.raiseReq f false
      match s.tkos.find? fun k => k.reqid == id with
      | some k => s.tkoStart k
      | none => s

/-- A request is decided (R448, R449, R451): its class 2 work is done. -/
def State.decideReq (s : State) (k : Takeover) (ok : Bool) : State :=
  if ok then
    let s := (s.approvalDone k.reqid).modTko k.reqid fun k => { k with decided := some true }
    if k.started then s else s.tkoStart { k with decided := some true }
  else
    let s := s.dropTko k.reqid
    if k.started then s.giveUp 0x03 k.failing 2 else s.incF CPC_STAT CPC_STAT_DECLINE

/-- A discarded write of CPC_APP (R448). -/
def State.cpcDiscard (s : State) (id d : Nat) : State := s.logC 0x03 0 0x0A [BitVec.ofNat 8 id, BitVec.ofNat 8 d]

/-- The write comes through the Forester output stage (R448). -/
def Who.staged (w : Who) : Bool :=
  match w.org with
  | .config => true
  | .host => true
  | _ => false

/-- A write of CPC_APP that includes DECIDE (R448). -/
def State.cpcApp (s : State) (w : Who) (v : Word) : State :=
  let d := CPC_APP_DECIDE.get v
  let id := CPC_APP_REQID.get v
  if w.staged = false ∨ d = 0 ∨ d = 3 then s.cpcDiscard id d
  else
    match s.tkos.find? fun k => k.reqid == id && k.decided.isNone with
    | some k => s.decideReq k (d == 1)
    | none => s.cpcDiscard id d

/-- The candidate of a takeover failed: health state 4 and ROLE 2, and the next candidate starts at step 3; with none left the takeover ends (R454). `why`: 2 entry check, 3 image check. -/
def State.spareFails (s : State) (c why : Nat) : State :=
  (((s.setRole c 2).setF (CPC_HEALTH c) CPC_HEALTH_STATE 4).incF CPC_STAT CPC_STAT_SPFAIL).logC 0x03 0 0x09
    [BitVec.ofNat 8 c, BitVec.ofNat 8 why]

def State.candidateFails (s : State) (k : Takeover) (why : Nat) : State :=
  let s := s.spareFails k.spare why
  match s.candidate k.failing k.stale with
  | some c => s.modTko k.reqid fun k => { k with spare := c, checked := false, failed := k.failed + 1 }
  | none => (s.dropTko k.reqid).giveUp 0x03 k.failing 3

/-- Steps 5 and 6 of R453: the spare receives the active values of R452, ROLE 0 and the logical number; the replaced core receives ROLE 2 and is held in reset. -/
def State.exchange (s : State) (f c : Nat) : State :=
  let copy (s : State) (a b : Reg) : State := s.seqWrite b (s.act a)
  let s := copy s (HWD_PART f) (HWD_PART c)
  let s := copy s (HWD_XLAT f) (HWD_XLAT c)
  let s := copy s (HWD_ATOM f) (HWD_ATOM c)
  let s := copy s (CORE_TMO f) (CORE_TMO c)
  let s := s.setReg (CORE_PF c) (s.reg (CORE_PF f))
  let s := s.seqWrite (HWD_ROLE c) (HWD_ROLE_LCORE.put (HWD_ROLE_ROLE.put (s.act (HWD_ROLE c)) 0) (s.lcore f))
  let s := s.setRole f 2
  let fresh (x : Core) (held : Bool) : Core :=
    { Core.reset with held := held, l1iCnt := x.l1iCnt, l1dCnt := x.l1dCnt, disabling := x.disabling }
  let s := (s.modCore c fun x => fresh x false).modCore f fun x => fresh x true
  (s.setF (CPC_HEALTH c) CPC_HEALTH_STATE 0).setF (CPC_HEALTH c) CPC_HEALTH_STALE 0

/-- The record of a completed takeover (R453, R460). -/
def takeoverRec (p f c failed us : Nat) : RecIn where
  block := 0x03
  typ := 0x08
  part := some p
  detail := [BitVec.ofNat 8 f, BitVec.ofNat 8 c, BitVec.ofNat 8 failed, 0] ++ leBytes 4 us

end Sys2Proof.Machine
end

