-- ==== Sys2Proof/Machine/ForRegs.lean ====
section
/-! DEFINITION. The registers of the Forester pair and of the loader: the fields they compute and the effects of writes (R39, R46, R471, R476 to R482). -/

namespace Sys2Proof.Machine

/-! Work queues (R476). -/

/-- Queue work of a class; a full queue refuses it and counts it (R476). -/
def State.queueWork (s : State) (c : Nat) (w : Work) : State :=
  if (s.queue c).length < 256 then s.setQueue c (s.queue c ++ [⟨w, none⟩]) else s.incF (FOR_QSTAT (c - 1)) FOR_QSTAT_FULL

/-- A queue of a class is full. -/
def State.queueFull (s : State) (c : Nat) : Bool := decide (256 ≤ (s.queue c).length)

/-- The oldest item of a kind leaves the queue of a class: its work is done. -/
def State.workDone (s : State) (c kind val : Nat) : State :=
  match (s.queue c).find? fun e => e.work == ⟨BitVec.ofNat 8 kind, BitVec.ofNat 64 val⟩ && e.rcd.isNone with
  | some e => s.setQueue c ((s.queue c).erase e)
  | none => s

/-- RETRY of a BUSY response: 20 + Q ÷ 8 (R478). -/
def State.busyRetry (s : State) : Nat :=
  20 + ([1, 2, 3, 4, 5, 6].foldl (fun n c => n + (s.queue c).length) 0) / 8

/-! The Forester's registers. -/

/-- The cycles of the watchdog: 10 ms at 400 MHz (R477). -/
def wdogCycles : Nat := 4000000

/-- FOR_WDOG.REMAIN; 0 before firmware starts (R477). -/
def State.wdogLeft (s : State) : Nat :=
  match s.fst.kick with
  | some a => wdogCycles - (s.uptime - a) * 2 / 5
  | none => 0

/-- The watchdog restarts (R477). -/
def State.kickDog (s : State) : State := { s with fst := { s.fst with kick := some s.uptime } }

/-- Bytes 8k to 8k + 7 of a log slot (R479). -/
def State.logWord (s : State) (i k : Nat) : Word :=
  match s.logSlot i with
  | some r => BitVec.ofNat 64 (fromLe (((r.bytes s.self).drop (8 * k)).take 8))
  | none => 0

/-- The current value of a register of the Forester pair. -/
def State.forVal (s : State) (r : Reg) : Word :=
  if r = FOR_WDOG then FOR_WDOG_REMAIN.put (s.reg r) s.wdogLeft
  else if 0x040 ≤ r.off ∧ r.off < 0x078 then FOR_QSTAT_DEPTH.put (s.reg r) (s.queue ((r.off - 0x040) / 8 + 1)).length
  else if r = FOR_LOGSTAT then FOR_LOGSTAT_TAIL.put (s.reg r) ((s.getF FOR_LOGSTAT FOR_LOGSTAT_HEAD + s.flogCnt) % 4096)
  else if 0x10000 ≤ r.off then s.logWord ((r.off - 0x10000) / 64) (r.off % 64 / 8)
  else s.reg r

/-- Records that wait in class 3 enter the log buffer while it has room (R479). -/
def State.logMore : Nat → State → State
  | 0, s => s
  | n + 1, s =>
    match s.flogWait with
    | r :: t => if s.flogCnt < 4096 then State.logMore n ({ s with flogWait := t }.enterLog r) else s
    | [] => s

/-- The host advances FOR_LOGSTAT.HEAD: a value outside the records held is discarded (R479). -/
def State.logHead (s : State) (h : Nat) : State :=
  let k := (h + 4096 - s.getF FOR_LOGSTAT FOR_LOGSTAT_HEAD) % 4096
  if s.flogCnt < k then s
  else
    let s := (s.logSlots.take k).foldl (fun s i => s.setLogSlot i none) s
    let s := { s.setF FOR_LOGSTAT FOR_LOGSTAT_HEAD h with flogCnt := s.flogCnt - k }
    State.logMore s.flogWait.length s

/-- The default of the mailboxes. -/
def mboxDefault (_ : Nat) : Mbox := Mbox.down

/-- The state of a partition's mailbox. -/
def State.mbox (s : State) (p : Nat) : Mbox := Tab.get mboxDefault s.mboxes p

/-- Change the state of a mailbox. -/
def State.modMbox (s : State) (p : Nat) (f : Mbox → Mbox) : State :=
  { s with mboxes := Tab.set mboxDefault s.mboxes p (f (s.mbox p)) }

/-- The mailbox of a partition is enabled (R482). -/
def State.mboxOn (s : State) (p : Nat) : Bool := s.actF (FOR_MBOX p) FOR_MBOX_EN == 1

/-- The request slots from one ring index up to another. -/
def ringSlots (a b : Nat) : List Nat := (List.range ((b + 256 - a) % 256)).map fun i => (a + i) % 256

/-- A doorbell of a mailbox (R476, R482): class 7 work of kind 4. A core other than one at M level of the partition is refused, and so is a mailbox that serves nothing. -/
def State.mboxRing (s : State) (w : Who) (p tail : Nat) : State :=
  let own := match w.org with
    | .core _ => w.lvl == 3 && w.part == some p
    | .config => true
    | .host => true
    | _ => false
  if own = false ∨ s.mboxOn p = false ∨ (s.mbox p).up = false then s.logC 0x13 0 0x0A (leBytes 4 (0x300 + 8 * p))
  else
    let new := ringSlots (s.mbox p).reqTail tail
    let full := s.queueFull 7
    let s := s.modMbox p fun m => { m with reqTail := tail, busy := if full then m.busy ++ new else m.busy }
    if new = [] then s else s.queueWork 7 ⟨4, BitVec.ofNat 64 p⟩

/-- A write of a register of the Forester pair. -/
def State.forWrite (s : State) (w : Who) (r : Reg) (v mask : Word) : State :=
  if r = FOR_WDOG then (if FOR_WDOG_KICK.get (v &&& mask) = 1 ∧ w.staged = true ∧ s.forFw = true then s.kickDog else s)
  else if r = FOR_LOGSTAT then (if FOR_LOGSTAT_HEAD.mask &&& mask = FOR_LOGSTAT_HEAD.mask then s.logHead (FOR_LOGSTAT_HEAD.get v) else s)
  else if 0x300 ≤ r.off ∧ r.off < 0x380 then
    (if FOR_MBDB_REQTAIL.mask &&& mask = FOR_MBDB_REQTAIL.mask then s.mboxRing w ((r.off - 0x300) / 8) (FOR_MBDB_REQTAIL.get v) else s)
  else s.writeCodes r v mask

/-! The loader's registers. -/

/-- TLT_STAT.PHASE (R49): shadow write, release and abort take no command of their own. -/
def State.tltPhase (s : State) : Nat :=
  match s.ldr with
  | some j => if !j.verified then 1 else if j.commit then 4 else 3
  | none =>
    match s.clrs.find? fun c => c.started with
    | some c => if c.commit then 4 else 3
    | none => 0

/-- The mask of the rw-s fields of a register. -/
def Reg.rwsMask (r : Reg) : Word := match r.spec? with | some sp => sp.maskOf [.rws] | none => 0

/-- TLT_ACTVAL(i): the active value of the selected register, or all ones (R39). -/
def State.actVal (s : State) (i : Nat) : Word :=
  let bi := s.getF (TLT_ACTSEL i) TLT_ACTSEL_BLOCK_INST
  let r : Reg := ⟨bi / 256, bi % 256, s.getF (TLT_ACTSEL i) TLT_ACTSEL_OFF⟩
  if r.rwsMask = 0 then BitVec.allOnes 64 else s.act r

/-- The current value of a register of the loader. -/
def State.tltVal (s : State) (r : Reg) : Word :=
  if r = TLT_STAT then
    TLT_STAT_PHASE.put (TLT_STAT_BUSY.put (s.reg r) (b2n (s.ldr.isSome || s.clrs != []))) s.tltPhase
  else if r = TLT_ACTVAL 0 then s.actVal 0
  else if r = TLT_ACTVAL 1 then s.actVal 1
  else s.reg r

/-- A load before its verification. -/
def LoadJob.start (svc : Bool) (len : Option Nat) : LoadJob := ⟨svc, len, false, 0, 0, none, [], [], false, [], [], false, false⟩

/-- A discarded write of TLT_CMD (R46). -/
def State.tltDiscard (s : State) (op : Nat) : State := s.logC 0x14 0 0x0D [BitVec.ofNat 8 op]

/-- The block instance holds an rw-s field (R46). -/
def holdsRws (b i : Nat) : Bool := decide (i < blockCount b) && (regCatalogue b).any fun e => e.maskOf [.rws] != 0

/-- The instance is in a clearing (R46). -/
def State.clearing (s : State) (b i : Nat) : Bool :=
  (match s.ldr with | some j => j.live.contains (b, i) | none => false)
    || s.clrs.any fun c => c.started && c.block == b && c.inst == i

/-- The registers of a block instance whose shadow and active values differ in an rw-s field. -/
def State.differing (s : State) (b i : Nat) : List Reg :=
  ((regCatalogue b).filter fun e => e.maskOf [.rws] != 0).flatMap fun e =>
    ((List.range e.count).map fun k => (⟨b, i, e.base + e.stride * k⟩ : Reg)).filter fun r =>
      s.reg r &&& e.maskOf [.rws] != s.act r &&& e.maskOf [.rws]

/-- A block of a core (R15). -/
def coreBlock (b : Nat) : Bool := b == 0x01 || b == 0x02 || b == 0x04

/-- A member held in reset: its entries enter the retained image alone (R43). -/
def State.parkedInst (s : State) (b i : Nat) : Bool := !s.domainUp b i || (coreBlock b && s.role i == 2)

/-- A member that is not waited for: held in reset, or a core that has not been released (R43). -/
def State.readyAtOnce (s : State) (b i : Nat) : Bool :=
  s.parkedInst b i || (coreBlock b && s.role i == 0 && (s.core i).held)

/-- A write of TLT_CMD that includes OP (R46): class 5 work of kind 5 (a load) or 6 (a clearing). -/
def State.tltCmd (s : State) (v : Word) : State :=
  let op := TLT_CMD_OP.get v
  let b := TLT_CMD_BLOCK.get v
  let i := TLT_CMD_INST.get v
  if op = 1 then
    if s.ldr.isSome ∨ s.queueFull 5 then s.tltDiscard op
    else { (s.queueWork 5 ⟨5, 0⟩) with ldr := some (LoadJob.start false none) }
  else if op = 2 then
    if holdsRws b i = false ∨ s.queueFull 5 then s.tltDiscard op
    else { (s.queueWork 5 ⟨6, BitVec.ofNat 64 (b * 256 + i)⟩) with clrs := s.clrs ++ [⟨b, i, false, false⟩] }
  else s.logC 0x14 0 0x0D [BitVec.ofNat 8 op]

/-! The service port (R54 to R59). -/

/-- The highest TARGET and the minimum STEP of an operation (R58). -/
def svcRow (op : Nat) : Nat × Nat := (([(0, 1), (0, 2), (7, 3), (3, 3), (0, 3), (15, 4), (15, 5), (0, 2), (0, 2), (255, 3)] : List (Nat × Nat))[op - 1]?).getD (0, 0)

/-- A TARGET of RESET_DOMAIN (R66). -/
def domainOk (t : Nat) : Bool :=
  decide (t ≤ 3) || (decide (0x10 ≤ t) && decide (t ≤ 0x1F)) || (decide (0x20 ≤ t) && decide (t ≤ 0x26)) || (decide (0x30 ≤ t) && decide (t ≤ 0x33))

/-- What ends a command as it is issued (R58): before firmware only OP 1, an unknown OP, the minimum STEP, the range of TARGET. -/
def State.svcCode (s : State) (op target : Nat) : Option Nat :=
  let st := s.startStep
  if st < 2 ∧ op ≠ 1 then some 0x02
  else if op = 0 ∨ 0x0A < op then some 0x0D
  else if st = 15 ∨ st < (svcRow op).2 then some 0x02
  else if (svcRow op).1 < target ∨ (op = 0x0A ∧ domainOk target = false) then some 0x08
  else none

/-- REG_READ or REG_WRITE of a FOR_ register, which the output stage serves itself (R479). -/
def State.svcDirect (s : State) (op : Nat) : Bool :=
  (op == 8 || op == 9) && s.getF SVP_RADDR SVP_RADDR_BLOCK == 0x13

/-- A command is issued (R56 to R58, R476, R478); class 7 work of kind 7. -/
def State.svcIssue (s : State) (op target len : Nat) : State :=
  let s := s.setF SVP_STAT SVP_STAT_BUSY 1
  let c : SvcCmd := ⟨op, target, len, false, s.svcCode op target, 0, 0, [], true⟩
  if c.code.isSome ∨ s.startStep = 1 ∨ s.svcDirect op = true then { s with svc := some c }
  else if s.queueFull 7 then { s.queueWork 7 ⟨7, 0⟩ with svc := some { c with code := some 0x01, retry := s.busyRetry } }
  else { s.queueWork 7 ⟨7, 0⟩ with svc := some c }

/-- A write of SVP_CMD (R56): LEN is kept for the next command; a write that includes the upper half issues one. -/
def State.svcWrite (s : State) (v mask : Word) : State :=
  if s.svc.isSome then s.setF SVP_STAT SVP_STAT_OVR 1
  else
    let s := if mask &&& 1 = 0 then s else s.setF SVP_CMD SVP_CMD_LEN (SVP_CMD_LEN.get v)
    if mask >>> 32 &&& 1 = 0 then s
    else s.svcIssue (SVP_CMD_OP.get v) (SVP_CMD_TARGET.get v) (s.getF SVP_CMD SVP_CMD_LEN)

/-- The current value of a register of Heartwood, Coppice, the Forester pair or the loader. -/
def State.sysVal (s : State) (r : Reg) : Word :=
  if r.block = 0x13 then s.forVal r
  else if r.block = 0x14 then s.tltVal r
  else s.poolVal r

/-- A write of a register of those blocks. -/
def State.sysWrite (s : State) (w : Who) (r : Reg) (v mask : Word) : State :=
  if r = CPC_APP then (if CPC_APP_DECIDE.mask &&& mask = CPC_APP_DECIDE.mask then s.cpcApp w (v &&& mask) else s)
  else if r.block = 0x13 then s.forWrite w r v mask
  else if r = SVP_CMD then s.svcWrite v mask
  else if r = TLT_CMD then (if TLT_CMD_OP.mask &&& mask = TLT_CMD_OP.mask then s.tltCmd (v &&& mask) else s)
  else s.writeCodes r v mask

end Sys2Proof.Machine
end

