-- ==== Sys2Proof/Machine/RootLink.lean ====
section
/-! DEFINITION. Root links leaving and entering service, mirror repair, hold and configuration accesses (R264 to R278). -/

namespace Sys2Proof.Machine

/-- The interleave set of a link, which for a mirror secondary is that of its primary (R266). -/
def State.linkSet (s : State) (n : Nat) : Option Nat :=
  let has (m i : Nat) : Bool :=
    s.actF (HOM_IL i) HOM_IL_EN == 1 &&
      (List.range (s.actF (HOM_IL i) HOM_IL_NLINK)).any fun w => s.actF (HOM_ILMAP i) (HOM_ILMAP_LINK w) == m
  match (List.range 16).find? (has n) with
  | some i => some i
  | none => if s.pairEn (n / 2) && n % 2 == 1 then (List.range 16).find? (has (n - 1)) else none

/-- The size of HDM decoder 0 in GiB (R266). -/
def State.decoderGib (s : State) (n : Nat) : Nat :=
  match s.linkSet n with
  | some i => s.actF (HOM_IL i) HOM_IL_SIZE / s.actF (HOM_IL i) HOM_IL_NLINK
  | none => 0

/-- The lines of a link's decoder. -/
def State.linkLines (s : State) (n : Nat) : Nat := s.decoderGib n * 2 ^ 22

/-- The line of the request that awaits a memory read of device address `la` on link `n` or its mirror partner. -/
def State.readerOf (s : State) (n la : Nat) : Option Nat :=
  (s.home.find? fun x => x.rdWait &&
    (match s.placeLine x.line with
     | some (k, a) => a == la && (k == n || s.partner n == some k)
     | none => false)).map (·.line)

/-- Change a link's STATE. -/
def State.setRtl (s : State) (n st : Nat) : State := s.setF (RTL_STAT n) RTL_STAT_STATE st

/-- Whether the partner's copy of a device line is complete: in step, or copied so far (R272). -/
def State.partnerHas (s : State) (n la : Nat) : Bool :=
  let k := n / 2
  match s.partner n with
  | none => false
  | some m =>
    let st := s.pairState k
    if st = 1 then s.takesReads m
    else if st = 4 ∨ st = 5 then
      let src := if st = 4 then n / 2 * 2 else n / 2 * 2 + 1
      (m == src && s.takesReads m) ||
        (m != src && (s.takesReads m || s.rtlState m == 6) && decide (la / 256 < s.getF (HOM_MSTAT k) HOM_MSTAT_PROG))
    else if st = 2 then m % 2 == 0 && s.takesReads m
    else if st = 3 then m % 2 == 1 && s.takesReads m
    else false

/-- The home has an answer for the reader of a device line (R233, R273). -/
def State.giveRead (s : State) (n la : Nat) (d : Option (LineData × Bool)) : State :=
  match s.readerOf n la with
  | some l => s.homeData l d
  | none => s

/-- A read of link `n` found no good data: it is repeated on the mirror partner where that has the line, and otherwise it ends as `dead` says (R272, R274). -/
def State.reissue (s : State) (n la : Nat) (dead : State → State) : State :=
  match s.partner n with
  | some m =>
    if s.partnerHas n la && !(s.root n).fix.contains la then
      s.modRoot m fun x => { x with
        rds := if x.rds.contains la then x.rds else x.rds ++ [la]
        fix := x.fix ++ [la] }
    else dead s
  | none => dead s

/-- A mirror pair loses a link (R272, R276): the other half serves alone; a pair whose copying source is lost keeps its state and PROG. -/
def State.pairLoses (s : State) (n : Nat) : State :=
  let k := n / 2
  if s.pairEn k = false then s
  else
    let st := s.pairState k
    if n % 2 = 0 then (if st = 1 ∨ st = 5 then s.setPair k 3 else s)
    else if st = 1 ∨ st = 4 then s.setPair k 2
    else s

/-- Outstanding requests of a link that leaves service (R272, R274, R276): reads go to the partner or end without data, `first` before the others; writes are discarded, which is logged for an unmirrored link. -/
def State.dropRequests (s : State) (n : Nat) (first : Option Nat) : State :=
  let x := s.root n
  let rds := match first with
    | some la => if x.rds.contains la then la :: x.rds.filter fun a => a != la else x.rds
    | none => x.rds
  let lineAt (s : State) (la : Nat) : Nat := (s.readerOf n la).getD 0
  let s := rds.foldl (fun s la =>
    s.reissue n la fun s => if (s.readerOf n la).isSome then (s.logDead n (lineAt s la)).giveRead n la none else s) s
  let s := if (s.partner n).isSome then s
    else x.wrs.foldl (fun s _ => s.log { block := 0x09, inst := n, typ := 0x0A }) s
  s.modRoot n fun y => { y with rds := [], wrs := [], fix := [] }

/-- A link fails with a FAIL code (R265, R274 to R276). (DEDUCED, notes/assumptions/34.md.) -/
def State.failLink (s : State) (n code : Nat) (first : Option Nat) : State :=
  let s := ((s.setRtl n 4).setF (RTL_STAT n) RTL_STAT_FAIL code).pairLoses n
  (s.dropRequests n first).settleWrites

/-- Start the training of a link; `back` as in `RootLink.back`. Its reset output is released (R265). -/
def State.trainLink (s : State) (n back : Nat) : State :=
  ((s.setRtl n 1).setF (RTL_STAT n) RTL_STAT_FAIL 0).modRoot n fun x => { x with rst := false, back := back }

/-- A held link with nothing outstanding leaves service: state 5, reset output asserted (R278). -/
def State.settleHold (s : State) (n : Nat) : State :=
  if s.getF (RTL_CTL n) RTL_CTL_HOLD = 1 ∧ s.inService n = true ∧ (s.root n).rds = [] ∧ (s.root n).wrs = [] then
    (s.setRtl n 5).modRoot n fun x => { x with rst := true }
  else s

/-- The response of a good or poisoned read reaches the home, by way of the mirror partner where that can repair it (R272, R273). -/
def State.readResponse (s : State) (n la : Nat) (bad : Bool) : State :=
  let (d, p0) := s.linkLine n la
  let s := if bad && !p0 then s.setMemLine n la d true else s
  let p := bad || p0
  let again := (s.root n).fix.contains la
  let s := s.modRoot n fun x => { x with rds := x.rds.filter fun a => a != la, fix := x.fix.filter fun a => a != la }
  let s := if p then s.incF (RTL_ERR n) RTL_ERR_POISON else s
  if p = true ∧ again = false then s.reissue n la fun s => s.giveRead n la (some (d, true))
  else
    let s :=
      if again && !p then
        match s.partner n with
        | some m => (s.linkWrite m la 0 d false).log { block := 0x0A, typ := 0x01, addr := (s.readerOf n la).map (· * 256) }
        | none => s
      else s
    s.giveRead n la (some (d, p))

/-- A refused write of a register (R458, R460). -/
def State.refuseReg (s : State) (blk inst off : Nat) : State := s.logC blk inst 0x0A (leBytes 4 off)

/-- REVIVE (R276). -/
def State.revive (s : State) (n : Nat) : State :=
  if s.rtlState n = 7 then (s.setRtl n (s.root n).back).modRoot n fun x => { x with logged := false }
  else s.refuseReg 0x09 n 0x000

/-- HOLD is set (R278). -/
def State.holdSet (s : State) (n : Nat) : State :=
  if s.pairEn (n / 2) && s.pairState (n / 2) == 1 then
    ((s.setPair (n / 2) (if n % 2 = 0 then 3 else 2)).setF (RTL_CTL n) RTL_CTL_HOLD 1).settleHold n
  else s.refuseReg 0x09 n 0x000

/-- HOLD is cleared: the link trains and then takes a copy (R278). -/
def State.holdClear (s : State) (n : Nat) : State :=
  let s := s.setF (RTL_CTL n) RTL_CTL_HOLD 0
  if s.rtlState n = 5 ∨ s.inService n = true then ((s.dropRequests n none).trainLink n 7).settleWrites else s

/-- A write to RTL_CTL (R276, R278): REVIVE and HOLD act, the shadow fields are written by code. -/
def State.rtlCtlWrite (s : State) (n : Nat) (v mask : Word) : State :=
  let r := RTL_CTL n
  let had := s.getF r RTL_CTL_HOLD
  let s := s.writeCodes r v (mask &&& ~~~ RTL_CTL_HOLD.mask)
  if mask &&& 1 = 0 then s
  else
    let s := if RTL_CTL_REVIVE.get v = 1 then s.revive n else s
    let want := RTL_CTL_HOLD.get v
    if want = 1 ∧ had = 0 then s.holdSet n
    else if want = 0 ∧ had = 1 then s.holdClear n
    else s

/-- A dword of configuration space that R267 protects: the BARs of a type 0 header (PRESUMED: dwords 4 to 9), and what the expander's own layout places elsewhere. (PRESUMED, notes/assumptions/35.md.) -/
def cfgProtected (dw : Nat) : Bool := (decide (4 ≤ dw) && decide (dw ≤ 9)) || Config.rootProtected 0 dw

/-- A write to RTL_CFG: GO starts an access (R267). While one is in progress the register keeps its value. -/
def State.rtlCfgWrite (s : State) (n : Nat) (v mask : Word) : State :=
  if (s.root n).cfg then s
  else
    let s := s.writeCodes (RTL_CFG n) v mask
    if s.getF (RTL_CFG n) RTL_CFG_GO = 1 then s.modRoot n fun x => { x with cfg := true } else s

/-- A write within a Root link's window (R267, R276, R278). -/
def State.rtlWrite (s : State) (r : Reg) (v mask : Word) : State :=
  if r.off = 0x000 then s.rtlCtlWrite r.inst v mask
  else if r.off = 0x018 then s.rtlCfgWrite r.inst v mask
  else if 0x10000 ≤ r.off ∧ Config.rootProtected 1 (r.off % 0x10000) = true then s.refuseReg 0x09 r.inst r.off
  else s.writeCodes r v mask

/-- What a read of the register BAR of an expander returns: the expander's own value, a free value (R267). -/
def State.rtlRead (s : State) (r : Reg) : Word :=
  if 0x10000 ≤ r.off then BitVec.ofNat 64 (Config.freeNat s.fresh) else s.reg r

end Sys2Proof.Machine
end

