-- ==== Sys2Proof/Machine/Hub.lean ====
section
/-! DEFINITION. A Glade hub's accesses to memory: lines, physical accesses, the checks of a segment, the dirty log, slice events and interrupts (R292 to R303, R313 to R315). -/

namespace Sys2Proof.Machine

/-! Glades, slices, operations, engines, tasks. -/

/-- The default Glade. -/
def gladeDefault (_ : Nat) : GladeSt := GladeSt.reset

/-- A Glade. -/
def State.glade (s : State) (g : Nat) : GladeSt := Tab.get gladeDefault s.glades g

/-- Change a Glade. -/
def State.modGlade (s : State) (g : Nat) (f : GladeSt → GladeSt) : State :=
  { s with glades := Tab.set gladeDefault s.glades g (f (s.glade g)) }

/-- The default slice. -/
def sliceDefault (_ : Nat) : Slice := Slice.reset

/-- A slice. -/
def State.slice (s : State) (g sl : Nat) : Slice := Tab.get sliceDefault (s.glade g).slices sl

/-- Change a slice. -/
def State.modSlice (s : State) (g sl : Nat) (f : Slice → Slice) : State :=
  s.modGlade g fun x => { x with slices := Tab.set sliceDefault x.slices sl (f (s.slice g sl)) }

/-- A loaded window; none where it is invalid (R300). -/
def Slice.win (x : Slice) (w : Nat) : Option DmaWin := Tab.get (fun _ => none) x.wins w

/-- A loaded ring (R310). -/
def Slice.ring (x : Slice) (q : Nat) : Option CRing := Tab.get (fun _ => none) x.rings q

/-- A tract that is open or closing, by its index (R304). -/
def Slice.tract (x : Slice) (i : Nat) : Option Tract := Tab.get (fun _ => none) x.tracts i

/-- Replace a ring of a slice. -/
def State.setRing (s : State) (g sl q : Nat) (r : Option CRing) : State :=
  s.modSlice g sl fun x => { x with rings := Tab.set (fun _ => none) x.rings q r }

/-- Replace a tract of a slice. -/
def State.setTract (s : State) (g sl i : Nat) (t : Option Tract) : State :=
  s.modSlice g sl fun x => { x with tracts := Tab.set (fun _ => none) x.tracts i t }

/-- A live operation by its handle (R371). -/
def State.op (s : State) (g h : Nat) : Option GOp := (s.glade g).ops.find? fun o => o.handle == h

/-- Change an operation. -/
def State.modOp (s : State) (g h : Nat) (f : GOp → GOp) : State :=
  s.modGlade g fun x => { x with ops := x.ops.map fun o => if o.handle = h then f o else o }

/-- Remove an operation that is live no more. -/
def State.dropOp (s : State) (g h : Nat) : State :=
  s.modGlade g fun x => { x with ops := x.ops.filter fun o => o.handle != h }

/-- STATE of a Glade (R319). -/
def State.gldState (s : State) (g : Nat) : Nat := s.getF (GLD_STAT g) GLD_STAT_STATE

/-- The Glade is out of reset. -/
def State.gladeUp (s : State) (g : Nat) : Bool := s.domainUp 0x0C g

/-- An enabled slice with a Ledger ring (R291, R323). -/
def State.sliceOn (s : State) (g sl : Nat) : Bool :=
  s.actF (GLD_SLC_CTL g sl) GLD_SLC_CTL_EN == 1 && s.actF (LDG_RING g sl) LDG_RING_SIZE != 0

/-- The partition of a slice. -/
def State.slicePart (s : State) (g sl : Nat) : Nat := s.actF (GLD_SLC_CTL g sl) GLD_SLC_CTL_PART

/-- The first tract number of a slice. -/
def State.tbase (s : State) (g sl : Nat) : Nat := s.actF (GLD_SLC_CTL g sl) GLD_SLC_CTL_TBASE

/-- The number of tracts of a slice. -/
def State.tcount (s : State) (g sl : Nat) : Nat := s.actF (GLD_SLC_CTL g sl) GLD_SLC_CTL_TCOUNT

/-- The address of a slice's context block (R298). -/
def State.ctxpa (s : State) (g sl : Nat) : Nat := s.actF (GLD_SLC_CTX g sl) GLD_SLC_CTX_CTXPA * 4096

/-- BOUND of a slice. -/
def State.bound (s : State) (g sl : Nat) : Bool := s.getF (GLD_SLC_CSTAT g sl) GLD_SLC_CSTAT_BOUND == 1

/-- GEN of a slice (R295). -/
def State.gen (s : State) (g sl : Nat) : Nat := s.getF (GLD_SLC_CSTAT g sl) GLD_SLC_CSTAT_GEN

/-! Lines for a hub. -/

/-- What an access of a hub answers: a value, a failure with its STATUS (R312), or a line that must first be had, for which the command is repeated (notes/assumptions/12.md). -/
inductive HubR (α : Type) where
  | ok (a : α) (s : State)
  | fail (st : Nat) (s : State)
  | need (l part : Nat) (wr : Bool)
  deriving DecidableEq

/-- Go on with the value of an access. -/
def HubR.bind {α β : Type} (r : HubR α) (k : α → State → HubR β) : HubR β :=
  match r with
  | .ok a s => k a s
  | .fail st s => .fail st s
  | .need l p w => .need l p w

/-- What stands between a hub and a line. -/
def State.hubAcc (s : State) (l : Nat) (wr : Bool) : LineAcc := if wr then s.accWrite l else s.accRead l

/-- Ask for a line; a line of this module that no other agent holds is read at once (notes/assumptions/12.md). -/
def State.hubReach (s : State) (l part : Nat) (wr : Bool) : State :=
  match s.hubAcc l wr with
  | .need opc =>
    let s := s.request opc l part none
    match s.placeLine l with
    | some (lk, la) =>
      match s.readLink lk la with
      | some n => if (s.root n).rds.contains la && s.inService n && lineHome l == s.self then s.readResponse n la false else s
      | none => s
    | none => s
  | _ => s

/-- Reach a line for reading or writing. -/
def State.hubLine (s : State) (l part : Nat) (wr : Bool) : HubR Unit :=
  if s.threads.any fun e => e.2.defer != 0 && e.2.resv == some l then .need l part wr
  else
    let s := s.hubReach l part wr
    match s.hubAcc l wr with
    | .ok => .ok () s
    | .err st => .fail (if st = 1 then 0x05 else 0x06) (s.takeErr l)
    | _ => .need l part wr

/-- Finish a command: a line it lacks is asked for, and the command leaves everything else as it was. -/
def HubR.run {α : Type} (s0 : State) (r : HubR α) (ok : α → State → State) (fail : Nat → State → State) : State :=
  match r with
  | .ok a s => ok a s
  | .fail st s => fail st s
  | .need l p w => s0.hubReach l p w

/-- Read bytes within one line (R302 step 7): poison fails with 0x06. -/
def State.hubRead1 (s : State) (pa n part : Nat) : HubR (List Byte) :=
  (s.hubLine (lineOf pa) part false).bind fun _ s =>
    let x := s.line (lineOf pa)
    if x.poison then .fail 0x06 s else .ok (lineBytes x.data (pa % 256) n) s

/-- Write bytes within one line: visible to every agent at this instant (R185, R303); every core loses the line, and the reservations on it go (R201). -/
def State.hubWrite1 (s : State) (pa part : Nat) (b : List Byte) : HubR Unit :=
  (s.hubLine (lineOf pa) part true).bind fun _ s =>
    let l := lineOf pa
    let s := (s.dropCores l fun _ => false).clearResv l fun _ => true
    .ok () (s.modLine l fun x => { x with
      st := .m, data := linePut x.data (pa % 256) b, poison := x.poison && decide (b.length < 256) })

/-- Read bytes across lines, `k` lines at most. -/
def State.hubRead : Nat → State → Nat → Nat → Nat → HubR (List Byte)
  | 0, s, _, _, _ => .ok [] s
  | k + 1, s, pa, n, part =>
    if n = 0 then .ok [] s
    else
      let m := min n (256 - pa % 256)
      (s.hubRead1 pa m part).bind fun b s => (State.hubRead k s (pa + m) (n - m) part).bind fun c s => .ok (b ++ c) s

/-- Write bytes across lines, in ascending order. -/
def State.hubWrite : Nat → State → Nat → Nat → List Byte → HubR Unit
  | 0, s, _, _, _ => .ok () s
  | k + 1, s, pa, part, b =>
    if b = [] then .ok () s
    else
      let m := 256 - pa % 256
      (s.hubWrite1 pa part (b.take m)).bind fun _ s => State.hubWrite k s (pa + m) part (b.drop m)

/-- The number of line accesses that cover `n` bytes. -/
def lineFuel (n : Nat) : Nat := n / 256 + 2

/-! Slice events and interrupts (R313). -/

/-- An identifier for a thread; it is discarded and logged where the thread is not of the partition (R313). -/
def State.sendGladeId (s : State) (g part t : Nat) (m : Bool) (id : Nat) : State :=
  if s.part t = part then s.sendId t m id else s.logC 0x0C g 0x0A (leBytes 4 id)

/-- A bit of GLD_SLC_EVT changes from 0 to 1, with the slice event interrupt (R313). -/
def State.setEvt (s : State) (g sl : Nat) (f : Fld) : State :=
  let r := GLD_SLC_EVT g sl
  if s.getF r f = 1 then s
  else
    let s := s.setF r f 1
    if s.getF r GLD_SLC_EVT_EN = 1 then
      s.sendGladeId g (s.slicePart g sl) (s.getF r GLD_SLC_EVT_THREAD) (s.getF r GLD_SLC_EVT_LEVEL == 1)
        (0x1000 * g + 0x10 * sl + 0xF)
    else s

/-- An access under an old generation is discarded and counted (R297). -/
def State.genDrop (s : State) (g sl : Nat) : State :=
  (s.incF (GLD_SLC_CNT g sl) GLD_SLC_CNT_GENDROP).setEvt g sl GLD_SLC_EVT_GENDROP

/-- A failure at step 2, 3 or 4 of R302. -/
def State.winRef (s : State) (g sl : Nat) : State :=
  (s.incF (GLD_SLC_CNT g sl) GLD_SLC_CNT_WINREF).setEvt g sl GLD_SLC_EVT_WINREF

/-- A hub write to the context block failed (R299). -/
def State.ctxErr (s : State) (g sl : Nat) : State :=
  (s.setEvt g sl GLD_SLC_EVT_CTXERR).log {
    block := 0x0C, inst := g, cls := 2, typ := 0x0A, addr := some (s.ctxpa g sl), part := some (s.slicePart g sl) }

/-- Firebreak refuses an access of the hub for a slice: R284 at the Glade host port, and EVT.FBREF (R302 step 5, R313). -/
def State.hubRefuse (s : State) (g sl pa : Nat) (wr : Bool) : State :=
  (s.refuse 1 (s.slicePart g sl) pa wr).setEvt g sl GLD_SLC_EVT_FBREF

/-! Physical accesses (R298, R302). -/

/-- A physical read of a slice's context block, Ledger ring or descriptor, checked by Firebreak for the slice's partition (R302 step 5). -/
def State.physRead (s : State) (g sl pa n : Nat) : HubR (List Byte) :=
  let p := s.slicePart g sl
  if isMem pa && s.memOk p pa false && s.memOk p (pa + n - 1) false then s.hubRead (lineFuel n) pa n p
  else .fail 0x05 (s.hubRefuse g sl pa false)

/-- A physical write. -/
def State.physWrite (s : State) (g sl pa : Nat) (b : List Byte) : HubR Unit :=
  let p := s.slicePart g sl
  if isMem pa && s.memOk p pa true && s.memOk p (pa + b.length - 1) true then s.hubWrite (lineFuel b.length) pa p b
  else .fail 0x05 (s.hubRefuse g sl pa true)

/-! Segments (R301, R302). -/

/-- The failure code of a segment whose slice is unbound or whose GEN is old (R297); no STATUS. -/
def staleGen : Nat := 0x100

/-- Set a page's bit in the dirty log, before the data is written (R315). -/
def State.dirty (s : State) (g sl off : Nat) : HubR Unit :=
  let r := GLD_SLC_DLCFG g sl
  if s.getF r GLD_SLC_DLCFG_EN = 0 then .ok () s
  else if s.getF r GLD_SLC_DLCFG_SPAN * 2 ^ 30 ≤ off then .ok () (s.setF r GLD_SLC_DLCFG_OVF 1)
  else
    let pg := off / 4096
    let pa := s.getF (GLD_SLC_DLPA g sl (s.getF r GLD_SLC_DLCFG_ACT)) GLD_SLC_DLPA_PA * 4096 + pg / 8
    let p := s.slicePart g sl
    if isMem pa && s.memOk p pa true then
      (s.hubRead1 pa 1 p).bind fun b s =>
        s.hubWrite1 pa p [BitVec.ofNat 8 (byteAt b 0 ||| 2 ^ (pg % 8))]
    else .fail 0x05 (s.hubRefuse g sl pa true)

/-- Steps 1 to 6 of R302 for a segment of `n` bytes; the answer is its physical address. -/
def State.segCheck (s : State) (g sl gen off n : Nat) (wr : Bool) : HubR Nat :=
  if s.bound g sl = false ∨ s.gen g sl ≠ gen then .fail staleGen s
  else
    let x := s.slice g sl
    let hit := (List.range 16).findSome? fun w =>
      match x.win w with
      | some y => if y.base ≤ off && decide (off + n - 1 ≤ y.limit) then some y else none
      | none => none
    match hit with
    | none => .fail 0x03 (s.winRef g sl)
    | some w =>
      if (if wr then w.wr else w.rd) = false then .fail 0x04 (s.winRef g sl)
      else
        let pa := (off + w.xoff) % 2 ^ 52
        if isMem pa = false then .fail 0x03 (s.winRef g sl)
        else
          let p := s.slicePart g sl
          if s.memOk p pa wr = false then .fail 0x05 (s.hubRefuse g sl pa wr)
          else if wr && w.log then (s.dirty g sl off).bind fun _ s => .ok pa s
          else .ok pa s

/-- Read slice memory, split into segments of R301, `k` segments at most. -/
def State.segRead : Nat → State → Nat → Nat → Nat → Nat → Nat → HubR (List Byte)
  | 0, s, _, _, _, _, _ => .ok [] s
  | k + 1, s, g, sl, gen, off, n =>
    if n = 0 then .ok [] s
    else
      let m := min n (4096 - off % 4096)
      ((s.segCheck g sl gen off m false).bind fun pa s => s.hubRead (lineFuel m) pa m (s.slicePart g sl)).bind fun b s =>
        (State.segRead k s g sl gen (off + m) (n - m)).bind fun c s => .ok (b ++ c) s

/-- Write slice memory, split into segments. -/
def State.segWrite : Nat → State → Nat → Nat → Nat → Nat → List Byte → HubR Unit
  | 0, s, _, _, _, _, _ => .ok () s
  | k + 1, s, g, sl, gen, off, b =>
    if b = [] then .ok () s
    else
      let m := min b.length (4096 - off % 4096)
      ((s.segCheck g sl gen off m true).bind fun pa s => s.hubWrite (lineFuel m) pa (s.slicePart g sl) (b.take m)).bind fun _ s =>
        State.segWrite k s g sl gen (off + m) (b.drop m)

/-- The segments that cover `n` bytes. -/
def segFuel (n : Nat) : Nat := n / 4096 + 2

/-- Read `n` bytes of a slice's offset space. -/
def State.sread (s : State) (g sl gen off n : Nat) : HubR (List Byte) := s.segRead (segFuel n) g sl gen off n

/-- Write bytes of a slice's offset space. -/
def State.swrite (s : State) (g sl gen off : Nat) (b : List Byte) : HubR Unit := s.segWrite (segFuel b.length) g sl gen off b

/-- The first failed segment of an operation fixes the least it can end with (R302). -/
def State.noteFail (s : State) (g h st : Nat) : State :=
  s.modOp g h fun o => if o.fail = 0 ∧ st < 0x100 then { o with fail := st } else o

end Sys2Proof.Machine
end

