-- ==== Sys2Proof/Machine/TwigTasks.lean ====
section
/-! DEFINITION. The tasks of a Twig engine: banks, readiness, events (R347 to R349, R359 to R365). -/

namespace Sys2Proof.Machine

/-- The default engine. -/
def engDefault (_ : Nat) : TwigEng := TwigEng.reset

/-- An engine. -/
def State.eng (s : State) (e : Nat) : TwigEng := Tab.get engDefault s.engines e

/-- Change an engine. -/
def State.modEng (s : State) (e : Nat) (f : TwigEng → TwigEng) : State :=
  { s with engines := Tab.set engDefault s.engines e (f (s.eng e)) }

/-- The default task. -/
def taskDefault (_ : Nat) : TwigTask := TwigTask.free

/-- A task of an engine. -/
def State.task (s : State) (e t : Nat) : TwigTask := Tab.get taskDefault (s.eng e).tasks t

/-- Replace a task. -/
def State.setTask (s : State) (e t : Nat) (x : TwigTask) : State :=
  s.modEng e fun y => { y with tasks := Tab.set taskDefault y.tasks t x }

/-- Change a task. -/
def State.modTask (s : State) (e t : Nat) (f : TwigTask → TwigTask) : State := s.setTask e t (f (s.task e t))

/-- A byte register of a bank by code 0 to 9. -/
def TwigBank.get8 (b : TwigBank) (c : Nat) : Nat := Tab.get (fun _ => 0) b.r c % 256

/-- Replace a byte register. -/
def TwigBank.set8 (b : TwigBank) (c v : Nat) : TwigBank := { b with r := Tab.set (fun _ => 0) b.r c (v % 256) }

/-- An address register of a bank. -/
def TwigBank.get16 (b : TwigBank) (i : Nat) : Nat := Tab.get (fun _ => 0) b.a i % 65536

/-- Replace an address register. -/
def TwigBank.set16 (b : TwigBank) (i v : Nat) : TwigBank := { b with a := Tab.set (fun _ => 0) b.a i (v % 65536) }

/-- Load an event record into d0 to d7, byte 0 in d0 (R360). -/
def TwigBank.loadEvent (b : TwigBank) (l : List Byte) : TwigBank :=
  (List.range 8).foldl (fun b i => b.set8 i (byteAt l i)) b

/-- The highest usable task of an engine (R359). -/
def State.maxTask (s : State) (e : Nat) : Nat := max 1 (s.getF (TWG_CFG e) TWG_CFG_MAXTASK)

/-- A bank moves to the front of the LRU order (R365). -/
def State.ranBank (s : State) (e t : Nat) : State :=
  s.modEng e fun x => { x with lru := t :: x.lru.filter fun u => u != t }

/-- Show RESIDENT (R343). -/
def State.showResident (s : State) (e : Nat) : State := s.setF (TWG_STAT e) TWG_STAT_RESIDENT (s.eng e).lru.length

/-- A task becomes ready: at once where its bank is resident or a slot is free, otherwise it waits for a slot (R365). -/
def State.makeReady (s : State) (e t : Nat) : State :=
  if (s.task e t).resident then s.modTask e t fun x => { x with st := 1 }
  else if (s.eng e).lru.length < 64 then
    ((s.modTask e t fun x => { x with st := 1, resident := true }).ranBank e t).showResident e
  else s.modTask e t fun x => { x with st := 4 }

/-- The mask bit of an event kind (R360). -/
def kindBit (k : Nat) : Nat :=
  match k with
  | 1 => 0
  | 2 => 0
  | 3 => 1
  | 4 => 2
  | 5 => 3
  | 6 => 4
  | _ => 6

/-- Remove the first element that `f` selects. -/
def takeFirst {α : Type} (f : α → Bool) : List α → Option (α × List α)
  | [] => none
  | a :: t =>
    if f a then some (a, t)
    else
      match takeFirst f t with
      | some (b, r) => some (b, a :: r)
      | none => none

/-- Held events enter the queue as room appears, in order (R362). -/
def TwigTask.pull : Nat → TwigTask → TwigTask
  | 0, x => x
  | n + 1, x =>
    match x.held with
    | [] => x
    | h :: r => if x.evq.length < 16 then TwigTask.pull n { x with evq := x.evq ++ [h], held := r } else x

/-- Take the oldest queued event a mask selects (R360). -/
def TwigTask.takeEvent (x : TwigTask) (mask : Nat) : Option (TwigEvent × TwigTask) :=
  match takeFirst (fun v => bitOf mask (kindBit v.kind)) x.evq with
  | some (v, r) => some (v, TwigTask.pull x.held.length { x with evq := r })
  | none => none

/-- Task 0 leaves its wait at TRAPV: the head of the trap queue moves into TWG_CAUSE (R368). -/
def State.enterTrap (s : State) (e : Nat) (h : TwigTrap) (r : List TwigTrap) : State :=
  let c := TWG_CAUSE e
  let v := (s.eng e).trapv
  let s := (s.modEng e fun x => { x with traps := r }).setReg c
    (BitVec.ofNat 64 (2 ^ 63 + h.task % 1024 * 2 ^ 48 + h.code % 32 * 2 ^ 40 + h.info % 256 * 2 ^ 32 + h.pc % 65536 * 2 ^ 16 + h.addr % 65536))
  (s.modTask e 0 fun x => { x with bank := { x.bank with pc := v } }).makeReady e 0

/-- A waiting task that finds a selected event leaves its wait (R360); traps come before every event (R368). -/
def State.wakeTask (s : State) (e t : Nat) : State :=
  let x := s.task e t
  if x.st ≠ 2 then s
  else if t = 0 ∧ bitOf x.mask 7 = true ∧ (s.eng e).traps ≠ [] then
    match (s.eng e).traps with
    | h :: r => s.enterTrap e h r
    | [] => s
  else
    match x.takeEvent x.mask with
    | some (v, y) =>
      (s.setTask e t { y with bank := { (y.bank.loadEvent v.bytes) with pc := (y.bank.pc + 2) % 65536 } }).makeReady e t
    | none => s

/-- The same port half as an MSI event (R361: byte 2). -/
def sameHalf (v w : TwigEvent) : Bool := v.kind == 4 && w.kind == 4 && byteAt v.bytes 2 == byteAt w.bytes 2

/-- Change the first element equal to `a`. -/
def changeFirst {α : Type} [DecidableEq α] (a : α) (g : α → α) : List α → List α
  | [] => []
  | b :: t => if b = a then g b :: t else b :: changeFirst a g t

/-- Replace the last element that `f` selects. -/
def replaceLast {α : Type} (f : α → Bool) (g : α → α) (l : List α) : List α :=
  let r := l.reverse
  match takeFirst f r with
  | none => l
  | some _ =>
    let pre := r.takeWhile fun a => !f a
    (pre ++ (match r.drop pre.length with | a :: t => g a :: t | [] => [])).reverse

/-- A new MSI event over an old one of the same half: its data, one more merged (R362). -/
def mergeMsi (new old : TwigEvent) : TwigEvent :=
  { new with bytes := [4, BitVec.ofNat 8 (min 255 (byteAt old.bytes 1 + 1))] ++ new.bytes.drop 2 }

/-- Queue an event for a task under the rules of R362. -/
def State.queueEvent (s : State) (e t : Nat) (v : TwigEvent) : State :=
  let x := s.task e t
  if x.st = 0 then s
  else if v.kind = 4 then
    if x.evq.length < 16 then (s.setTask e t { x with evq := x.evq ++ [v] }).wakeTask e t
    else
      let s := s.incF (TWG_STAT e) TWG_STAT_MERGE
      if x.evq.any (sameHalf v) then s.setTask e t { x with evq := replaceLast (sameHalf v) (mergeMsi v) x.evq }
      else s.setTask e t { x with evq := replaceLast (fun w => w.kind == 4) (mergeMsi v) x.evq }
  else
    let dup (w : TwigEvent) : Bool :=
      (v.kind == 5 && w.kind == 5) || (v.kind == 6 && w.kind == 6 && byteAt v.bytes 1 == byteAt w.bytes 1)
    if x.evq.any dup || x.held.any dup then s
    else if x.evq.length < 16 ∧ x.held = [] then (s.setTask e t { x with evq := x.evq ++ [v] }).wakeTask e t
    else s.setTask e t { x with held := x.held ++ [v] }

/-- An OP event (R361). -/
def opEvent (h tract ngcw : Nat) : TwigEvent :=
  ⟨1, [1, 0] ++ leBytes 2 h ++ leBytes 2 tract ++ [BitVec.ofNat 8 ngcw, 0]⟩

/-- An ABANDON event (R361, R373). -/
def abandonEvent (h st : Nat) : TwigEvent := ⟨2, [2, 0] ++ leBytes 2 h ++ [BitVec.ofNat 8 st, 0, 0, 0]⟩

/-- A MOV event (R361). -/
def movEvent (m st tag : Nat) : TwigEvent := ⟨3, [3, BitVec.ofNat 8 m, BitVec.ofNat 8 st, 0] ++ leBytes 2 tag ++ [0, 0]⟩

/-- An MSI event (R361): nothing merged. -/
def msiEvent (half data : Nat) : TwigEvent := ⟨4, [4, 0, BitVec.ofNat 8 half, 0] ++ leBytes 4 data⟩

/-- A TMR event (R361). -/
def tmrEvent : TwigEvent := ⟨5, [5, 0, 0, 0, 0, 0, 0, 0]⟩

/-- An MBX event (R361). -/
def mbxEvent (src task : Nat) : TwigEvent := ⟨6, [6, BitVec.ofNat 8 src] ++ leBytes 2 task ++ [0, 0, 0, 0]⟩

/-- An ENG event (R361). -/
def engEvent (eng st tag : Nat) : TwigEvent := ⟨7, [7, BitVec.ofNat 8 eng, BitVec.ofNat 8 st, 0] ++ leBytes 2 tag ++ [0, 0]⟩

/-- A task starts at a pc with every other register zero (R349, R359). -/
def State.startTask (s : State) (e t pc : Nat) (tract : Option (Nat × Nat)) : State :=
  let old := s.task e t
  let x : TwigTask := { TwigTask.free with
    st := 1, tract := tract, bank := { TwigBank.zero with pc := pc }, resident := old.resident }
  (s.setTask e t x).makeReady e t

/-- A task ends: its bank slot is free, and so is its tract (R359). -/
def State.freeTask (s : State) (e t : Nat) : State :=
  let x := s.task e t
  let s := s.setTask e t TwigTask.free
  let s := (s.modEng e fun y => { y with lru := y.lru.filter fun u => u != t }).showResident e
  match x.tract with
  | some (sl, i) =>
    match (s.slice (e / 2) sl).tract i with
    | some y => s.setTract (e / 2) sl i (some { y with task := none })
    | none => s
  | none => s

end Sys2Proof.Machine
end

