-- ==== Sys2Proof/Machine/LedgerOps.lean ====
section
/-! DEFINITION. The Ledger's entries, its ring space and its writes, and what an operation's record holds (R304 to R312, R323 to R330). -/

namespace Sys2Proof.Machine

/-- N of a slice's Ledger ring (R323). -/
def State.ledgerN (s : State) (g sl : Nat) : Nat :=
  let z := s.actF (LDG_RING g sl) LDG_RING_SIZE
  if z = 0 then 0 else 2 ^ (z + 9)

/-- NEXTSEQ of a slice. -/
def State.nextSeq (s : State) (g sl : Nat) : Nat := (s.reg (LDG_SEQ g sl)).toNat

/-- The live operations of a slice (R326). -/
def State.liveOps (s : State) (g sl : Nat) : List GOp := (s.glade g).ops.filter fun o => o.slice == sl

/-- LOW: the SEQ of the FETCHED entry of the oldest live operation (R327). -/
def State.ledgerLow (s : State) (g sl : Nat) : Nat :=
  (s.liveOps g sl).foldl (fun m o => min m o.fseq) (s.nextSeq g sl)

/-- Free entries of the ring. -/
def State.ledgerRoom (s : State) (g sl : Nat) : Nat :=
  s.ledgerN g sl - (s.nextSeq g sl - s.ledgerLow g sl)

/-- The inequality of R328 for an operation of `n` GCWs. -/
def State.ledgerFits (s : State) (g sl n : Nat) : Bool :=
  decide (n + 5 * ((s.liveOps g sl).length + 1) + 16 ≤ s.ledgerRoom g sl)

/-- The Ledger of the slice has stopped on a failed write (R329). -/
def State.ledgerDown (s : State) (g sl : Nat) : Bool := s.getF (LDG_LSTAT g sl) LDG_LSTAT_STATE == 5

/-- HALT of a slice (R339). -/
def State.halted (s : State) (g sl : Nat) : Bool := s.getF (LDG_CTL g sl) LDG_CTL_HALT == 1

/-- An entry's fields beside SEQ and CRC (R325). -/
structure LedgerEnt where
  kind : Nat
  gen : Nat
  tract : Nat := 0
  sqidx : Nat := 0
  ngcw : Nat := 0
  attempt : Nat := 0
  gcw : List Byte := []
  status : Nat := 0
  rflags : Nat := 0
  cqslot : Nat := 0
  done : Nat := 0
  devstat : Nat := 0
  deriving DecidableEq, Repr

/-- The 64 bytes of an entry (R325). (DEDUCED, notes/assumptions/50.md.) -/
def LedgerEnt.bytes (x : LedgerEnt) (seq : Nat) : List Byte :=
  let b := leBytes 8 seq ++ leBytes 1 x.kind ++ leBytes 1 x.gen ++ leBytes 2 x.tract ++ leBytes 2 x.sqidx ++ leBytes 1 x.ngcw
    ++ leBytes 1 x.attempt ++ (x.gcw ++ List.replicate 32 0).take 32 ++ leBytes 1 x.status ++ leBytes 1 x.rflags
    ++ leBytes 2 x.cqslot ++ leBytes 4 x.done ++ leBytes 4 x.devstat
  b ++ leBytes 4 (crc32c b).toNat

/-- The address of an entry (R325). -/
def State.ledgerPa (s : State) (g sl seq : Nat) : Nat :=
  s.actF (LDG_RING g sl) LDG_RING_BASE * 4096 + 64 * (seq % s.ledgerN g sl)

/-- The failure code of a step whose Ledger write failed (R329); no STATUS. -/
def ledgerFail : Nat := 0x200

/-- A Ledger write failed: STATE 5, WERR, the contained record and with it the M error notification (R329). -/
def State.ledgerBroken (s : State) (g sl : Nat) : State :=
  let r := LDG_LSTAT g sl
  ((s.setF r LDG_LSTAT_WERR 1).setF r LDG_LSTAT_STATE 5).log {
    block := 0x0F, inst := g, cls := 2, typ := 0x0A, addr := some (s.ledgerPa g sl (s.nextSeq g sl)), part := some (s.slicePart g sl) }

/-- Write the next entry of a slice; it is visible before the step goes on (R325, R329). -/
def State.ledgerWrite (s : State) (g sl : Nat) (x : LedgerEnt) : HubR Unit :=
  if s.ledgerDown g sl then .fail ledgerFail s
  else
    let n := s.nextSeq g sl
    match s.physWrite g sl (s.ledgerPa g sl n) (x.bytes n) with
    | .ok _ s => .ok () (s.setReg (LDG_SEQ g sl) (BitVec.ofNat 64 (n + 1)))
    | .fail _ s => .fail ledgerFail (s.ledgerBroken g sl)
    | .need l p w => .need l p w

/-! GCWs (R305, R306). -/

/-- CTRL of an operation's first GCW. -/
def GOp.ctrl (o : GOp) : Nat := le16At (o.gcws.headD []) 0

/-- TAG of an operation. -/
def GOp.tag (o : GOp) : Nat := le16At (o.gcws.headD []) 2

/-- COUNT of an operation. -/
def GOp.count (o : GOp) : Nat := le32At (o.gcws.headD []) 4

/-- DADDR of an operation. -/
def GOp.daddr (o : GOp) : Nat := le64At (o.gcws.headD []) 8

/-- CLASS of an operation. -/
def GOp.cls (o : GOp) : Nat := o.ctrl / 256

/-- The operation has ended, so it is live only for its record (R326). -/
def GOp.hasEnded (o : GOp) : Bool := o.stage != .fetched && o.stage != .ready && o.stage != .issued

/-- Idempotent under R330. -/
def State.idempotent (s : State) (g : Nat) (o : GOp) : Bool :=
  bitOf o.ctrl 7 && bitOf (s.act (LDG_IDEM g (o.cls / 64))).toNat (o.cls % 64)

/-- The completion ring of an operation's tract. -/
def State.opRing (s : State) (g : Nat) (o : GOp) : Nat :=
  match (s.slice g o.slice).tract o.tract with | some t => t.cq | none => 0

/-- The entry of an operation's step, with its GCW copy, its ring and REISSUED (R325, R326). -/
def State.opEnt (s : State) (g : Nat) (o : GOp) (kind : Nat) : LedgerEnt where
  kind := kind
  gen := s.gen g o.slice
  tract := s.tbase g o.slice + o.tract
  sqidx := o.sqidx
  ngcw := o.gcws.length
  attempt := o.attempt
  gcw := o.gcws.headD []
  rflags := 2 * b2n o.reissued + 16 * s.opRing g o

/-- The completion record an ended operation waits to have written. -/
def State.recOfOp (s : State) (g : Nat) (o : GOp) (st done dev : Nat) : CRec where
  handle := o.handle
  tag := o.tag
  tract := s.tbase g o.slice + o.tract
  status := st
  reissued := o.reissued
  gen := o.gen
  cls := o.cls
  done := done
  devstat := dev
  irq := bitOf o.ctrl 4

/-- The 32 bytes of a completion record (R312). -/
def CRec.bytes (r : CRec) (phase : Bool) (pid sqhead : Nat) : List Byte :=
  let b := leBytes 2 r.tag ++ leBytes 2 r.tract ++ leBytes 1 r.status ++ leBytes 1 (b2n phase + 2 * b2n r.reissued)
    ++ leBytes 1 r.gen ++ leBytes 1 r.cls ++ leBytes 4 r.done ++ leBytes 4 r.devstat ++ leBytes 4 pid ++ leBytes 2 sqhead
    ++ leBytes 6 0
  b ++ leBytes 4 (crc32c b).toNat

/-! Ending and issuing operations. -/

/-- An end is decided for an operation that has none yet (R302, R372): a firmware success after a failed segment becomes that failure. -/
def State.endOp (s : State) (g h st done dev : Nat) (hub : Bool) : State :=
  s.modOp g h fun o =>
    if o.hasEnded || o.pend.isSome then o
    else { o with pend := some (if st = 0 then o.fail else st, done, dev), hub := hub }

/-- Nothing charged to an operation is still under way (R372, R397, R432). -/
def State.drained (s : State) (g h : Nat) : Bool :=
  let x := s.glade g
  !(x.movs.any fun m => m.oph == h && (m.skind == 0 || m.dkind == 0)) && !(x.cols.any fun j => j.oph == h) && !(x.barks.any fun j => j.oph == h)

/-- Write the ENDED entry of an operation and queue its record; with NOCMP and status 0 the operation is over (R306, R326). -/
def State.endStep (s : State) (g : Nat) (o : GOp) (st done dev : Nat) : HubR Unit :=
  let norec := bitOf o.ctrl 3 && st == 0
  let e := s.opEnt g o 4
  let e := { e with status := st, done := done, devstat := dev, rflags := b2n norec + e.rflags, gen := o.gen }
  (s.ledgerWrite g o.slice e).bind fun _ s =>
    if norec then .ok () (s.dropOp g o.handle)
    else
      let s := s.modOp g o.handle fun x => { x with stage := .ended, pend := none }
      .ok () (s.modSlice g o.slice fun x => { x with recs := x.recs ++ [(s.opRing g o, s.recOfOp g o st done dev)] })

/-- The ring's identifier is sent (R313). -/
def State.ringInt (s : State) (g sl q : Nat) : State :=
  match (s.slice g sl).ring q with
  | some r =>
    (s.setRing g sl q (some { r with since := 0 })).sendGladeId g (s.slicePart g sl) r.thread r.mlevel (0x1000 * g + 0x10 * sl + q)
  | none => s

/-- The hub keeps CQTAIL and CQPHASE in the ring's descriptor (R310). -/
def State.ringDesc (s : State) (g sl q : Nat) (r : CRing) : HubR Unit :=
  match s.physWrite g sl (s.ctxpa g sl + 0x400 + 32 * q + 0x10) (leBytes 2 r.tail ++ leBytes 1 (b2n r.phase) ++ leBytes 5 0) with
  | .ok _ s => .ok () s
  | .fail _ s => .ok () (s.ctxErr g sl)
  | .need l p w => .need l p w

/-- The ring has room for a record (R311). -/
def CRing.hasRoom (r : CRing) : Bool := !r.stopped && (r.tail + 1) % 2 ^ r.log2 != r.head

/-- Write a held record into the next slot: RECORDED, the record, the tail, the interrupt (R303, R311 to R313, R326). An operation in doubt stays live (R336). -/
def State.recordStep (s : State) (g sl q : Nat) (r : CRing) (x : CRec) : HubR Unit :=
  let o := s.op g x.handle
  let sqhead := match o with
    | some o => (match (s.slice g sl).tract o.tract with | some t => t.head | none => 0)
    | none => 0
  let base : LedgerEnt := match o with
    | some o => { s.opEnt g o 5 with gen := x.gen }
    | none => { kind := 5, gen := x.gen, tract := x.tract }
  let e := { base with
    status := x.status, done := x.done, devstat := x.devstat, cqslot := r.tail,
    rflags := 2 * b2n x.reissued + 4 * b2n r.phase + 16 * q }
  (s.ledgerWrite g sl e).bind fun _ s =>
    let slot := r.tail
    match s.swrite g sl (s.gen g sl) (r.base + 32 * slot) (x.bytes r.phase (s.getF (GLD_SLC_CSTAT g sl) GLD_SLC_CSTAT_PID) sqhead) with
    | .need l p w => .need l p w
    | .fail _ s => .ok () ((s.setRing g sl q (some { r with stopped := true })).setEvt g sl GLD_SLC_EVT_CQERR)
    | .ok _ s =>
      let tail := (slot + 1) % 2 ^ r.log2
      let r := { r with tail := tail, phase := if tail = 0 then !r.phase else r.phase, since := r.since + 1 }
      let s := s.setRing g sl q (some r)
      let s := s.modSlice g sl fun y => { y with recs := y.recs.filter fun p => p.2.handle != x.handle }
      let s := if x.status = 0x0B then s.modOp g x.handle fun o => { o with stage := .doubt slot } else s.dropOp g x.handle
      (s.ringDesc g sl q r).bind fun _ s =>
        .ok () (if r.ien && (x.irq || decide (r.coal + 1 ≤ r.since)) then s.ringInt g sl q else s)

/-- Hand an operation to the task that holds its tract: the ISSUED entry, then the OP event (R326, R361). -/
def State.issueStep (s : State) (g : Nat) (o : GOp) (e t : Nat) (inBank : Bool) : HubR Unit :=
  (if o.stage = .ready then .ok () s else s.ledgerWrite g o.slice (s.opEnt g o 3)).bind fun _ s =>
    let s := s.modOp g o.handle fun x => { x with stage := .issued, gen := s.gen g o.slice }
    let v := opEvent o.handle (s.tbase g o.slice + o.tract) o.gcws.length
    .ok () (if inBank then s.modTask e t fun x => { x with bank := x.bank.loadEvent v.bytes } else s.queueEvent e t v)

/-- An operation may start: it is the first of its tract not yet issued, and with FENCE every earlier one has ended (R306, R308). -/
def State.mayIssue (s : State) (g : Nat) (o : GOp) : Bool :=
  let before := ((s.glade g).ops.takeWhile fun x => x.handle != o.handle).filter fun x => x.slice == o.slice && x.tract == o.tract
  (o.stage == .ready || (o.stage == .fetched && !s.halted g o.slice)) && o.pend.isNone && !s.ledgerDown g o.slice &&
    before.all fun x => x.stage != .fetched && x.stage != .ready && (!bitOf o.ctrl 5 || x.hasEnded)

/-- A record may be written now: its ring has room, the slice is not halted or stopped, and with ORDER every earlier operation of the tract has its record (R308, R311, R339). -/
def State.mayRecord (s : State) (g sl q : Nat) (x : CRec) : Bool :=
  match (s.slice g sl).ring q with
  | none => false
  | some r =>
    let first := match s.op g x.handle with
      | none => true
      | some o =>
        match (s.slice g sl).tract o.tract with
        | some t =>
          !t.order || ((s.glade g).ops.takeWhile fun y => y.handle != o.handle).all fun y =>
            !(y.slice == sl && y.tract == o.tract) || (match y.stage with | .doubt _ => true | _ => false)
        | none => true
    r.hasRoom && !s.halted g sl && !s.ledgerDown g sl && first

end Sys2Proof.Machine
end

