-- ==== Sys2Proof/Machine/CtxBlock.lean ====
section
/-! DEFINITION. What an ended operation leaves behind, and the entries of a slice's context block (R298 to R304, R310, R373, R411). -/

namespace Sys2Proof.Machine

/-- Do a step for each element, stopping at the first that fails. -/
def hubEach {α : Type} (f : State → α → HubR Unit) : List α → State → HubR Unit
  | [], s => .ok () s
  | a :: t, s => (f s a).bind fun _ s => hubEach f t s

/-! Movers and jobs of an operation that has ended. -/

/-- A mover transfer ends: its MOV event, and DONE (R374). -/
def State.movEnd (s : State) (g : Nat) (m : MovXfer) (st : Nat) : State :=
  let s := s.modGlade g fun x => { x with movs := x.movs.erase m }
  let mv := 8 * g + m.mover
  (s.incF (DMV_STAT mv) DMV_STAT_DONE).queueEvent m.eng m.task (movEvent m.mover st m.tag)

/-- When R318 or UNBIND ends an operation, its transfers not yet started end with 0x06, its jobs are abandoned, and the task that holds its tract receives ABANDON (R373, R411, R436). -/
def State.abandon (s : State) (g : Nat) (o : GOp) (st : Nat) : State :=
  let ms := (s.glade g).movs.filter fun m => m.oph == o.handle && m.moved == 0 && (m.skind == 0 || m.dkind == 0)
  let s := ms.foldl (fun s m => s.movEnd g m 0x06) s
  let s := s.modGlade g fun x => { x with
    cols := x.cols.map fun j => if j.oph = o.handle then { j with abandoned := true } else j
    barks := x.barks.map fun j => if j.oph = o.handle then { j with abandoned := true } else j }
  match (s.slice g o.slice).tract o.tract with
  | some t =>
    match t.task with
    | some k => s.queueEvent (2 * g + t.eng) k (abandonEvent o.handle st)
    | none => s
  | none => s

/-! The context block (R298 to R304). -/

/-- Write hub fields of the context block; a failure sets CTXERR (R299). -/
def State.ctxWrite (s : State) (g sl off : Nat) (b : List Byte) : HubR Unit :=
  match s.physWrite g sl (s.ctxpa g sl + off) b with
  | .ok _ s => .ok () s
  | .fail _ s => .ok () (s.ctxErr g sl)
  | .need l p w => .need l p w

/-- TSTATE and SQHEAD of a tract descriptor (R304). -/
def State.tractWrite (s : State) (g sl i st head : Nat) : HubR Unit :=
  s.ctxWrite g sl (0x800 + 64 * i + 0x30) ([BitVec.ofNat 8 st, 0] ++ leBytes 2 head)

/-- The slice header (R299). -/
def State.headerWrite (s : State) (g sl : Nat) : HubR Unit :=
  let r := GLD_SLC_CSTAT g sl
  let b := leBytes 4 (s.getF r GLD_SLC_CSTAT_BOUND + 256 * s.getF r GLD_SLC_CSTAT_GEN) ++ leBytes 4 (s.getF r GLD_SLC_CSTAT_PID)
    ++ leBytes 8 (s.slice g sl).restores ++ leBytes 44 0
  s.ctxWrite g sl 0 (b ++ leBytes 4 (crc32c b).toNat)

/-- A window entry (R300): the RESULT of LOAD_WIN, and the window. -/
def winEntry (b : List Byte) : Nat × Option DmaWin :=
  let base := le64At b 0
  let lim := le64At b 8
  let xo := le64At b 16
  let fl := le32At b 24
  if le32At b 28 ≠ (crc32c (b.take 28)).toNat then (4, none)
  else if 16 ≤ fl ∨ 2 ^ 52 ≤ xo ∨ xo % 4096 ≠ 0 ∨ 2 ^ 47 ≤ base ∨ 2 ^ 47 ≤ lim then (5, none)
  else if lim < base ∨ (bitOf fl 2 && !bitOf fl 1) = true then (5, none)
  else if bitOf fl 0 = false then (0, none)
  else if base % 4096 ≠ 0 ∨ lim % 4096 ≠ 4095 then (5, none)
  else (0, some ⟨base, lim, xo, bitOf fl 1, bitOf fl 2, bitOf fl 3⟩)

/-- A completion ring descriptor (R310): the RESULT of LOAD_CQ, and the ring as R311 resets it. -/
def State.ringEntry (s : State) (g sl : Nat) (b : List Byte) : Nat × Option CRing :=
  let base := le64At b 0
  let l2 := byteAt b 8
  let fl := byteAt b 9
  let th := byteAt b 10
  if le32At b 28 ≠ (crc32c (b.take 16)).toNat then (4, none)
  else if l2 < 4 ∨ 16 < l2 ∨ base % 256 ≠ 0 ∨ 2 ^ 47 ≤ base ∨ 4 ≤ fl ∨ 128 ≤ th ∨ le16At b 14 ≠ 0 ∨ le32At b 24 ≠ 0
      ∨ le32At b 20 ≠ 0 ∨ byteAt b 19 ≠ 0 then (5, none)
  else if bitOf fl 0 && s.part th != s.slicePart g sl then (7, none)
  else (0, some ⟨base, l2, bitOf fl 0, bitOf fl 1, th, byteAt b 11, le16At b 12, 0, 0, true, 0, false⟩)

/-- A tract descriptor (R304): the RESULT of OPEN_TRACT, and the tract with an empty submission ring. -/
def State.tractEntry (s : State) (g sl : Nat) (b : List Byte) : Nat × Option Tract :=
  let base := le64At b 0
  let l2 := byteAt b 8
  let cq := byteAt b 9
  let pt := byteAt b 10
  let fl := byteAt b 11
  let r := GLD_PORT g (pt / 2 % 4)
  let on := if pt % 2 = 0 then s.actF r GLD_PORT_EN0 == 1 else s.actF r GLD_PORT_EN1 == 1
  if le32At b 60 ≠ (crc32c (b.take 48)).toNat then (4, none)
  else if l2 < 4 ∨ 16 < l2 ∨ s.actF (GLD_SLC_RES g sl) GLD_SLC_RES_NCQ ≤ cq ∨ 8 ≤ pt ∨ 4 ≤ fl ∨ base % 256 ≠ 0 ∨ 2 ^ 47 ≤ base
      ∨ fromLe ((b.drop 32).take 16) ≠ 0 ∨ byteAt b 49 ≠ 0 ∨ le64At b 52 ≠ 0 ∨ on = false ∨ bitOf (s.actF r GLD_PORT_PMASK) (s.slicePart g sl) = false then (5, none)
  else (0, some ⟨false, base, l2, cq, pt, fl % 2, bitOf fl 1, le32At b 12, (b.drop 16).take 16, 0, 0, none⟩)

/-- The lowest free handle of a Glade (R371). -/
def State.newHandle (s : State) (g : Nat) : Nat :=
  let used := (s.glade g).ops.map (·.handle)
  freeTid used used.length 0

end Sys2Proof.Machine
end

