-- ==== Sys2Proof/Machine/Replay.lean ====
section
/-! DEFINITION. Restoring a slice and replaying its Ledger after a Glade reset or an adoption (R319, R332 to R337, R341). -/

namespace Sys2Proof.Machine

/-- An entry read from a Ledger ring (R325). -/
structure REnt where
  seq : Nat
  kind : Nat
  gen : Nat
  tract : Nat
  sqidx : Nat
  ngcw : Nat
  attempt : Nat
  gcw : List Byte
  status : Nat
  rflags : Nat
  cqslot : Nat
  done : Nat
  devstat : Nat
  /-- The CRC holds and KIND is 1 to 7. -/
  good : Bool
  deriving DecidableEq, Repr

/-- The entry that 64 bytes hold. -/
def REnt.of (b : List Byte) : REnt where
  seq := le64At b 0
  kind := byteAt b 8
  gen := byteAt b 9
  tract := le16At b 10
  sqidx := le16At b 12
  ngcw := byteAt b 14
  attempt := byteAt b 15
  gcw := (b.drop 16).take 32
  status := byteAt b 48
  rflags := byteAt b 49
  cqslot := le16At b 50
  done := le32At b 52
  devstat := le32At b 56
  good := decide (le32At b 60 = (crc32c (b.take 60)).toNat) && decide (1 ≤ byteAt b 8) && decide (byteAt b 8 ≤ 7)

/-- An entry that cannot be read. -/
def REnt.bad : REnt := { REnt.of [] with good := false }

/-- Completion ring index of an entry. -/
def REnt.ring (e : REnt) : Nat := e.rflags / 16

/-- TAG of an entry's operation. -/
def REnt.tag (e : REnt) : Nat := le16At e.gcw 2

/-- Read the slots of a ring from index `i` on; a poisoned one is bad (R337). -/
def State.readRing : Nat → State → Nat → Nat → Nat → HubR (List REnt)
  | 0, s, _, _, _ => .ok [] s
  | k + 1, s, g, sl, i =>
    let pa := s.actF (LDG_RING g sl) LDG_RING_BASE * 4096 + 64 * i
    match s.physRead g sl pa 64 with
    | .need l p w => .need l p w
    | .fail _ s => (State.readRing k s g sl (i + 1)).bind fun r s => .ok (REnt.bad :: r) s
    | .ok b s => (State.readRing k s g sl (i + 1)).bind fun r s => .ok (REnt.of b :: r) s

/-- Two entries name the same operation: tract, submission index, and TAG where both carry it (R325). -/
def sameOp (a b : REnt) : Bool := a.tract == b.tract && a.sqidx == b.sqidx && a.tag == b.tag

/-- The entries of the live window in order of SEQ, given the slots in index order and the highest SEQ (R333). -/
def liveWindow (n top : Nat) (l : List REnt) : List REnt :=
  let lo := top + 1 - n
  ((List.range (min n (top + 1 - max lo 1))).map fun k => max lo 1 + k).filterMap fun q =>
    match l[q % n]? with
    | some e => if e.good ∧ e.seq = q then some e else none
    | none => none

/-- A slot whose SEQ would fall in the live window fails its check (R333, R337). -/
def windowBad (n top : Nat) (l : List REnt) : Bool :=
  let lo := max (top + 1 - n) 1
  (List.range (top + 1 - lo)).any fun k =>
    match l[(lo + k) % n]? with
    | some e => !e.good
    | none => true

/-- The FETCHED entries that are the latest of their operation, in order. -/
def latestFetched (win : List REnt) : List REnt :=
  win.filter fun e => e.kind == 1 && !(win.any fun f => f.kind == 1 && sameOp e f && decide (e.seq < f.seq))

/-- The continuation GCWs of an operation in chain order, as far as the window holds them. -/
def contOf (win : List REnt) (e : REnt) (log2 : Nat) : List (List Byte) :=
  ((List.range e.ngcw).drop 1).filterMap fun k =>
    (win.find? fun c => c.kind == 2 && c.tract == e.tract && c.ngcw == k && decide (e.seq < c.seq)
      && c.sqidx == (e.sqidx + k) % 2 ^ log2).map (·.gcw)

/-- The latest entry of an operation at or after its FETCHED entry, CONT entries aside. -/
def latestOf (win : List REnt) (e : REnt) : REnt :=
  (win.filter fun x => x.kind != 2 && x.kind != 7 && sameOp e x && decide (e.seq ≤ x.seq)).getLastD e

/-- The GEN, ATTEMPT and REISSUED of the last ISSUED entry of an operation. -/
def lastIssued (win : List REnt) (e : REnt) : REnt :=
  (win.filter fun x => x.kind == 3 && sameOp e x && decide (e.seq ≤ x.seq)).getLastD e

/-- The submission ring of a tract number: its log2 where it is open in the slice. -/
def State.tractLog (s : State) (g sl tr : Nat) : Nat :=
  match (s.slice g sl).tract (tr - s.tbase g sl) with
  | some t => t.log2
  | none => 16

/-- The chain of an operation is complete in the window. -/
def State.chainWhole (s : State) (g sl : Nat) (win : List REnt) (e : REnt) : Bool :=
  (contOf win e (s.tractLog g sl e.tract)).length + 1 == max e.ngcw 1

/-- SQHEAD after the latest complete operation of a tract fetched before a SEQ; `d` where there is none (R334). -/
def State.headAt (s : State) (g sl : Nat) (win : List REnt) (tr seq d : Nat) : Nat :=
  match (win.filter fun e => e.kind == 1 && e.tract == tr && decide (e.seq < seq) && s.chainWhole g sl win e).getLast? with
  | some e => (e.sqidx + max e.ngcw 1) % 2 ^ s.tractLog g sl tr
  | none => d

/-- The entries of a ring that decide its tail: RECORDED with a slot, and RINGRESET. -/
def ringEntries (win : List REnt) (q : Nat) : List REnt :=
  win.filter fun e => e.ring == q && ((e.kind == 5 && !bitOf e.rflags 0) || e.kind == 7)

/-- Tail and phase of a ring after its latest RECORDED entry, unless a RINGRESET follows (R334). -/
def CRing.resume (r : CRing) (win : List REnt) (q : Nat) : CRing :=
  match (ringEntries win q).getLast? with
  | some e =>
    if e.kind = 5 then
      let t := (e.cqslot + 1) % 2 ^ r.log2
      { r with tail := t, phase := if t = 0 then !bitOf e.rflags 2 else bitOf e.rflags 2 }
    else r
  | none => r

/-- The operation of a replayed FETCHED entry (R333). -/
def State.replayOp (s : State) (g sl : Nat) (win : List REnt) (f : REnt) (stage : OpStage) (attempt : Nat) (re : Bool) : GOp where
  handle := s.newHandle g
  slice := sl
  tract := f.tract - s.tbase g sl
  gen := s.gen g sl
  sqidx := f.sqidx
  gcws := f.gcw :: contOf win f (s.tractLog g sl f.tract)
  fseq := f.seq
  stage := stage
  attempt := attempt
  reissued := re
  fail := 0
  pend := none
  hub := false

/-- An operation enters the Glade's list. -/
def State.addOp (s : State) (g : Nat) (o : GOp) : State := s.modGlade g fun x => { x with ops := x.ops ++ [o] }

/-- An operation that ended waits for its record, which is written at once where it may be (R333, R334). -/
def State.replayRec (s : State) (g sl : Nat) (o : GOp) (q st done dev : Nat) : HubR Unit :=
  let c := s.recOfOp g o st done dev
  let s := s.modSlice g sl fun x => { x with recs := x.recs ++ [(q, c)] }
  match (s.slice g sl).ring q with
  | some r => if s.mayRecord g sl q c then s.recordStep g sl q r c else .ok () s
  | none => .ok () s

/-- The record that a RECORDED entry describes is rewritten where R335 asks for it. -/
def State.rewrite (s : State) (g sl : Nat) (win : List REnt) (e : REnt) (cls : Nat) : HubR Unit :=
  let later := win.any fun x => decide (e.seq < x.seq) && x.ring == e.ring && (x.kind == 7 || (x.kind == 5 && !bitOf x.rflags 0))
  match (s.slice g sl).ring e.ring with
  | some r =>
    if later ∨ bitOf e.rflags 0 then .ok () s
    else
      let c : CRec := ⟨0, e.tag, e.tract, e.status, bitOf e.rflags 1, e.gen, cls, e.done, e.devstat, false⟩
      let b := c.bytes (bitOf e.rflags 2) (s.getF (GLD_SLC_CSTAT g sl) GLD_SLC_CSTAT_PID) (s.headAt g sl win e.tract e.seq 0)
      let off := r.base + 32 * e.cqslot
      let put (s : State) : HubR Unit :=
        match s.swrite g sl (s.gen g sl) off b with
        | .need l p w => .need l p w
        | .fail _ s => .ok () ((s.setRing g sl e.ring (some { r with stopped := true })).setEvt g sl GLD_SLC_EVT_CQERR)
        | .ok _ s => .ok () s
      match s.sread g sl (s.gen g sl) off 32 with
      | .need l p w => .need l p w
      | .fail _ s => put s
      | .ok old s => if old = b then .ok () s else put s
  | none => .ok () s

/-- Replay of one operation (R333). -/
def State.replayOne (s : State) (g sl : Nat) (win : List REnt) (f : REnt) : HubR Unit :=
  if s.chainWhole g sl win f = false then .ok () s
  else
    let e := latestOf win f
    let issue (att : Nat) (re : Bool) : HubR Unit :=
      let o := s.replayOp g sl win f .ready att re
      (s.ledgerWrite g sl (s.opEnt g o 3)).bind fun _ s => .ok () (s.addOp g o)
    match e.kind with
    | 1 => issue 0 false
    | 3 =>
      let o := s.replayOp g sl win f .issued e.attempt (bitOf e.rflags 1)
      let idem := s.idempotent g o
      if idem && decide (e.attempt < 2) then issue (e.attempt + 1) true
      else
        let o := { o with gen := e.gen }
        let done := if idem then 2 else 1
        let dev := f.seq % 2 ^ 32
        let x := s.opEnt g o 4
        (s.ledgerWrite g sl { x with status := 0x0B, done := done, devstat := dev, gen := e.gen, attempt := e.attempt }).bind fun _ s =>
          let o := { o with stage := .ended }
          (s.addOp g o).replayRec g sl o e.ring 0x0B done dev
    | 4 =>
      if bitOf e.rflags 0 then .ok () s
      else
        let o := { s.replayOp g sl win f .ended e.attempt (bitOf e.rflags 1) with gen := e.gen }
        (s.addOp g o).replayRec g sl o e.ring e.status e.done e.devstat
    | 5 =>
      let o := { s.replayOp g sl win f (.doubt e.cqslot) e.attempt (bitOf e.rflags 1) with gen := e.gen }
      let s := if e.status = 0x0B ∧ bitOf e.rflags 0 = false then s.addOp g o else s
      s.rewrite g sl win e o.cls
    | _ => .ok () s

/-- A damaged window: LOST, the contained record, every tract closed (R337). -/
def State.replayLost (s : State) (g sl : Nat) : HubR Unit :=
  let r := LDG_LSTAT g sl
  let s := (s.setF r LDG_LSTAT_LOST 1).log { block := 0x0F, inst := g, cls := 2, typ := 0x02, part := some (s.slicePart g sl) }
  let open_ := (s.slice g sl).tracts.filter fun e => e.2.isSome
  (hubEach (fun s (e : Nat × Option Tract) => s.tractWrite g sl e.1 0 (match e.2 with | some t => t.head | none => 0)) open_ s).bind fun _ s =>
    .ok () (s.modSlice g sl fun x => { x with tracts := [] })

/-- Replay of a slice's Ledger (R333 to R337). -/
def State.replay (s : State) (g sl : Nat) : HubR Unit :=
  let n := s.ledgerN g sl
  (State.readRing n s g sl 0).bind fun l s =>
    let top := l.foldl (fun m e => if e.good then max m e.seq else m) 0
    let fin (r : HubR Unit) : HubR Unit := r.bind fun _ s =>
      .ok () (if s.ledgerDown g sl then s else s.setF (LDG_LSTAT g sl) LDG_LSTAT_STATE 1)
    if windowBad n top l then fin (s.replayLost g sl)
    else
      let win := liveWindow n top l
      let s := s.setReg (LDG_SEQ g sl) (BitVec.ofNat 64 (top + 1))
      let s := s.modSlice g sl fun x => { x with
        tracts := x.tracts.map fun e => (e.1, e.2.map fun t => let h := s.headAt g sl win (s.tbase g sl + e.1) (top + 1) t.head; { t with head := h, tail := h })
        rings := x.rings.map fun e => (e.1, e.2.map fun r => r.resume win e.1) }
      let heads := (s.slice g sl).tracts
      fin ((hubEach (fun s (e : Nat × Option Tract) => match e.2 with
          | some t => s.tractWrite g sl e.1 1 t.head
          | none => .ok () s) heads s).bind fun _ s =>
        hubEach (fun s f => s.replayOne g sl win f) (latestFetched win) s)

/-- Reload one entry of the context block at a restore; one that fails its check sets CTXERR (R319). -/
def State.reload (s : State) (g sl off n : Nat) (k : List Byte → State → Nat × State) : HubR Unit :=
  match s.physRead g sl (s.ctxpa g sl + off) n with
  | .need l p w => .need l p w
  | .fail _ s => .ok () (s.ctxErr g sl)
  | .ok b s =>
    let (res, s) := k b s
    .ok () (if res = 0 then s else s.setEvt g sl GLD_SLC_EVT_CTXERR)

/-- A ring as its descriptor holds it at a restore. The head that the hub held is lost, so it is a free value (notes/assumptions/21.md). -/
def State.reloadRing (s : State) (g sl q : Nat) (b : List Byte) : Nat × State :=
  match s.ringEntry g sl b with
  | (res, some r) =>
    let n := 2 ^ r.log2
    let h := s.freeBelow n
    (res, s.tickFree.setRing g sl q (some { r with tail := le16At b 16 % n, phase := bitOf (byteAt b 18) 0, head := h }))
  | (res, none) => (res, s)

/-- Windows, rings and tracts of a slice are reloaded (R319 step 5). -/
def State.reloadAll (s : State) (g sl : Nat) : HubR Unit :=
  let res := GLD_SLC_RES g sl
  (hubEach (fun s w => s.reload g sl (0x200 + 32 * w) 32 fun b s =>
      let (r, x) := winEntry b
      (r, if r = 0 then s.modSlice g sl fun y => { y with wins := Tab.set (fun _ => none) y.wins w x } else s))
    (List.range (s.actF res GLD_SLC_RES_NWIN)) s).bind fun _ s =>
  (hubEach (fun s q => s.reload g sl (0x400 + 32 * q) 32 fun b s => s.reloadRing g sl q b)
    (List.range (s.actF res GLD_SLC_RES_NCQ)) s).bind fun _ s =>
  hubEach (fun s i => s.reload g sl (0x800 + 64 * i) 64 fun b s =>
      if byteAt b 0x30 = 1 ∨ byteAt b 0x30 = 2 then
        match s.tractEntry g sl b with
        | (r, some t) =>
          let h := le16At b 0x32 % 2 ^ t.log2
          (r, s.setTract g sl i (some { t with head := h, tail := h }))
        | (r, none) => (r, s)
      else (0, s))
    (List.range (s.tcount g sl)) s

/-- Restore one enabled slice whose header shows BOUND, then replay its Ledger (R319 steps 5 and 6): whether it was restored. -/
def State.restoreSlice (s : State) (g sl : Nat) : HubR Bool :=
  match s.physRead g sl (s.ctxpa g sl) 64 with
  | .need l p w => .need l p w
  | .fail _ s => .ok false (s.ctxErr g sl)
  | .ok b s =>
    if le32At b 60 ≠ (crc32c (b.take 60)).toNat then .ok false (s.setEvt g sl GLD_SLC_EVT_CTXERR)
    else if byteAt b 0 % 2 = 0 then .ok false s
    else
      let r := GLD_SLC_CSTAT g sl
      let s := ((s.setF r GLD_SLC_CSTAT_BOUND 1).setF r GLD_SLC_CSTAT_PID (le32At b 4)).setF r GLD_SLC_CSTAT_GEN (byteAt b 1 + 1)
      let s := s.modSlice g sl fun x => { x with restores := le64At b 8 + 1, left := byteAt b 1 :: x.left }
      let s := s.setF (LDG_LSTAT g sl) LDG_LSTAT_STATE 6
      (s.headerWrite g sl).bind fun _ s => (s.reloadAll g sl).bind fun _ s => (s.replay g sl).bind fun _ s => .ok true s

/-- Restore a list of slices; RESTORED is set for each restored one (R319 step 7). -/
def State.restoreAll (s : State) (g : Nat) : List Nat → HubR Unit
  | [] => .ok () s
  | sl :: t => (s.restoreSlice g sl).bind fun b s => (s.restoreAll g t).bind fun _ s =>
      .ok () (if b then s.setEvt g sl GLD_SLC_EVT_RESTORED else s)

/-- Adoption of a slice's copied Ledger (R341). -/
def State.adoptStep (s : State) (g sl : Nat) : HubR Unit :=
  let s := s.modSlice g sl fun x => { x with restores := x.restores + 1, wins := [], rings := [] }
  (s.headerWrite g sl).bind fun _ s => (s.reloadAll g sl).bind fun _ s => (s.replay g sl).bind fun _ s =>
    .ok () (s.setEvt g sl GLD_SLC_EVT_RESTORED)

end Sys2Proof.Machine
end

