-- ==== Sys2Proof/Machine/GladeHub.lean ====
section
/-! DEFINITION. The hub's own work: slice commands, fetching GCWs, ending, issuing and recording operations, doorbells (R294 to R311, R318, R338). -/

namespace Sys2Proof.Machine

/-! Slice commands (R294). -/

/-- A command ends: RESULT, and BUSY clears. -/
def State.cmdEnd (s : State) (g sl res : Nat) : State :=
  let r := GLD_SLC_CSTAT g sl
  ((s.setF r GLD_SLC_CSTAT_RESULT res).setF r GLD_SLC_CSTAT_BUSY 0).modSlice g sl fun x => { x with cmd := none }

/-- The next generation of a slice (R295). -/
def State.genNext (s : State) (g sl : Nat) : Nat := (s.gen g sl + 1) % 256

/-- The next generation was left less than 2 × OPTMO ago (R296). -/
def State.genWaits (s : State) (g sl : Nat) : Bool := (s.slice g sl).left.contains (s.genNext g sl)

/-- GEN advances (R295). -/
def State.genAdvance (s : State) (g sl : Nat) : State :=
  let old := s.gen g sl
  (s.setF (GLD_SLC_CSTAT g sl) GLD_SLC_CSTAT_GEN (old + 1)).modSlice g sl fun x => { x with left := old :: x.left }

/-- The requirement of a command (R294): the RESULT where it is not met. -/
def State.cmdCheck (s : State) (g sl op arg : Nat) : Option Nat :=
  let x := s.slice g sl
  let res := GLD_SLC_RES g sl
  if op = 0 ∨ 8 ≤ op then some 8
  else if s.sliceOn g sl = false then some 1
  else
    match op with
    | 1 => if s.bound g sl then some 2 else if 2 ^ 20 ≤ arg then some 3 else none
    | 2 => if s.bound g sl = false then some 2 else if arg ≠ 0 then some 3 else none
    | 3 => if s.bound g sl = false then some 2 else if s.tcount g sl ≤ arg then some 3 else if (x.tract arg).isSome then some 2 else none
    | 4 => if s.tcount g sl ≤ arg then some 3 else match x.tract arg with | some t => if t.closing then some 2 else none | none => some 2
    | 5 => if s.bound g sl = false then some 2 else if s.actF res GLD_SLC_RES_NWIN ≤ arg then some 3 else none
    | 6 =>
      if s.bound g sl = false then some 2
      else if s.actF res GLD_SLC_RES_NCQ ≤ arg then some 3
      else if x.tracts.any (fun e => match e.2 with | some t => t.cq == arg | none => false) then some 2
      else if s.ledgerRoom g sl < 17 + 5 * (s.liveOps g sl).length then some 2
      else none
    | _ => if s.getF (GLD_SLC_DLCFG g sl) GLD_SLC_DLCFG_EN = 0 then some 2 else if arg ≠ 0 then some 3 else none

/-- Read an entry of the context block for a command; RESULT 0x06 where it cannot be read. -/
def State.cmdRead (s : State) (g sl off n : Nat) (k : List Byte → State → HubR Unit) : HubR Unit :=
  match s.physRead g sl (s.ctxpa g sl + off) n with
  | .ok b s => k b s
  | .fail _ s => .ok () (s.cmdEnd g sl 6)
  | .need l p w => .need l p w

/-- UNBIND's end of one operation: ABORTED, or RECORDED without a record for one that has ended (R295, R338). -/
def State.abortStep (s : State) (g : Nat) (o : GOp) : HubR Unit :=
  let drop (s : State) : State := (s.abandon g o 0x0A).dropOp g o.handle
  match o.stage with
  | .doubt _ => .ok () (s.dropOp g o.handle)
  | .ended =>
    (s.ledgerWrite g o.slice { s.opEnt g o 5 with gen := o.gen, rflags := 1 + (s.opEnt g o 5).rflags }).bind
      fun _ s => .ok () (s.dropOp g o.handle)
  | _ => (s.ledgerWrite g o.slice { s.opEnt g o 6 with status := 0x0A, gen := o.gen }).bind fun _ s => .ok () (drop s)

/-- UNBIND (R294, R295, R338). -/
def State.unbindStep (s : State) (g sl : Nat) : HubR Unit :=
  (hubEach (fun s o => s.abortStep g o) (s.liveOps g sl) s).bind fun _ s =>
    let open_ := (s.slice g sl).tracts.filter fun e => e.2.isSome
    (hubEach (fun s (e : Nat × Option Tract) => s.tractWrite g sl e.1 0 (match e.2 with | some t => t.head | none => 0)) open_ s).bind fun _ s =>
      let s := (s.modSlice g sl fun x => { x with tracts := [], wins := [], rings := [], recs := [] }).genAdvance g sl
      ((s.setF (GLD_SLC_CSTAT g sl) GLD_SLC_CSTAT_BOUND 0).headerWrite g sl).bind fun _ s => .ok () (s.cmdEnd g sl 0)

/-- Perform a slice command whose requirement is met; one that must wait leaves BUSY set. -/
def State.cmdRun (s : State) (g sl op arg : Nat) : HubR Unit :=
  match op with
  | 1 =>
    if s.genWaits g sl then .ok () s
    else
      let r := GLD_SLC_CSTAT g sl
      let s := ((s.genAdvance g sl).setF r GLD_SLC_CSTAT_PID arg).setF r GLD_SLC_CSTAT_BOUND 1
      let s := s.modSlice g sl fun x => { x with restores := 0 }
      (s.headerWrite g sl).bind fun _ s => .ok () (s.cmdEnd g sl 0)
  | 2 => if s.genWaits g sl then .ok () s else s.unbindStep g sl
  | 3 =>
    s.cmdRead g sl (0x800 + 64 * arg) 64 fun b s =>
      match s.tractEntry g sl b with
      | (_, some t) => ((s.setTract g sl arg (some t)).tractWrite g sl arg 1 0).bind fun _ s => .ok () (s.cmdEnd g sl 0)
      | (res, none) => .ok () (s.cmdEnd g sl res)
  | 4 =>
    match (s.slice g sl).tract arg with
    | some t => (s.setTract g sl arg (some { t with closing := true })).tractWrite g sl arg 2 t.head
    | none => .ok () (s.cmdEnd g sl 2)
  | 5 =>
    s.cmdRead g sl (0x200 + 32 * arg) 32 fun b s =>
      let (res, w) := winEntry b
      let s := if res = 0 then s.modSlice g sl fun x => { x with wins := Tab.set (fun _ => none) x.wins arg w } else s
      .ok () (s.cmdEnd g sl res)
  | 6 =>
    s.cmdRead g sl (0x400 + 32 * arg) 32 fun b s =>
      match s.ringEntry g sl b with
      | (_, some r) =>
        (s.ledgerWrite g sl { kind := 7, gen := s.gen g sl, rflags := 16 * arg }).bind fun _ s =>
          ((s.setRing g sl arg (some r)).ringDesc g sl arg r).bind fun _ s => .ok () (s.cmdEnd g sl 0)
      | (res, none) => .ok () (s.cmdEnd g sl res)
  | _ =>
    let r := GLD_SLC_DLCFG g sl
    .ok () ((s.setF r GLD_SLC_DLCFG_ACT (1 - s.getF r GLD_SLC_DLCFG_ACT)).cmdEnd g sl 0)

/-- A tract whose operations have ended closes (R308). -/
def State.closeStep (s : State) (g sl i : Nat) (t : Tract) : HubR Unit :=
  (s.tractWrite g sl i 0 t.head).bind fun _ s =>
    let s := s.setTract g sl i none
    .ok () (if (s.slice g sl).cmd = some (4, i) then s.cmdEnd g sl 0 else s)

/-! What the hub can do next. -/

/-- The first element that has an answer. -/
def firstSome {α β : Type} (f : α → Option β) : List α → Option β
  | [] => none
  | a :: t => match f a with | some b => some b | none => firstSome f t

/-- A slice command in progress that does not wait. -/
def State.pumpCmd (s : State) (g : Nat) : Option (HubR Unit) :=
  firstSome (fun (e : Nat × Slice) =>
    match e.2.cmd with
    | none => none
    | some (op, arg) =>
      let closing := match e.2.tract arg with | some t => t.closing | none => false
      if (op = 1 ∨ op = 2) ∧ s.genWaits g e.1 = true then none
      else if op = 4 ∧ closing = true then none
      else if (op = 2 ∨ op = 6) ∧ s.ledgerDown g e.1 = true then none
      else some (s.cmdRun g e.1 op arg)) (s.glade g).slices

/-- An operation whose end is decided and whose transfers and jobs are done (R372). A timeout takes effect once its ENDED entry is written (R318, R329, R373). -/
def State.pumpEnd (s : State) (g : Nat) : Option (HubR Unit) :=
  firstSome (fun (o : GOp) =>
    match o.pend with
    | some (st, done, dev) =>
      if !s.ledgerDown g o.slice && (o.hub || s.drained g o.handle) then
        some ((s.endStep g o st done dev).bind fun _ t =>
          .ok () (if st = 8 ∧ o.hub = true then (t.setEvt g o.slice GLD_SLC_EVT_TIMEOUT).abandon g o 8 else t))
      else none
    | none => none) (s.glade g).ops

/-- A record that may be written. -/
def State.pumpRec (s : State) (g : Nat) : Option (HubR Unit) :=
  firstSome (fun (e : Nat × Slice) =>
    firstSome (fun (p : Nat × CRec) =>
      match e.2.ring p.1 with
      | some r => if s.mayRecord g e.1 p.1 p.2 then some (s.recordStep g e.1 p.1 r p.2) else none
      | none => none) e.2.recs) (s.glade g).slices

/-- A fetched operation whose tract has a task. -/
def State.pumpIssue (s : State) (g : Nat) : Option (HubR Unit) :=
  firstSome (fun (o : GOp) =>
    match (s.slice g o.slice).tract o.tract with
    | some t =>
      match t.task with
      | some k => if s.mayIssue g o then some (s.issueStep g o (2 * g + t.eng) k false) else none
      | none => none
    | none => none) (s.glade g).ops

/-- A closing tract whose operations have ended. -/
def State.pumpClose (s : State) (g : Nat) : Option (HubR Unit) :=
  firstSome (fun (e : Nat × Slice) =>
    firstSome (fun (p : Nat × Option Tract) =>
      match p.2 with
      | some t =>
        if t.closing && (s.liveOps g e.1).all (fun o => o.tract != p.1 || o.hasEnded) then some (s.closeStep g e.1 p.1 t) else none
      | none => none) e.2.tracts) (s.glade g).slices

/-- An adoption that was accepted (R341). -/
def State.pumpAdopt (s : State) (g : Nat) : Option (HubR Unit) :=
  firstSome (fun sl => if s.getF (LDG_LSTAT g sl) LDG_LSTAT_STATE = 6 then some (s.adoptStep g sl) else none) (List.range 256)

/-- The hub's next step, if one is due. -/
def State.pumpPick (s : State) (g : Nat) : Option (HubR Unit) :=
  match s.pumpEnd g with
  | some r => some r
  | none =>
    match s.pumpRec g with
    | some r => some r
    | none =>
      match s.pumpIssue g with
      | some r => some r
      | none =>
        match s.pumpClose g with
        | some r => some r
        | none =>
          match s.pumpAdopt g with
          | some r => some r
          | none => s.pumpCmd g

/-- Do the hub's steps until none is due, or one needs a line (notes/assumptions/12.md). -/
def State.pumpN : Nat → State → Nat → State
  | 0, s, _ => s
  | k + 1, s, g =>
    match s.pumpPick g with
    | none => s
    | some (.ok _ t) => State.pumpN k t g
    | some (.fail _ t) => State.pumpN k t g
    | some (.need l p w) => s.hubReach l p w

/-- The hub works off what is due. -/
def State.pump (s : State) (g : Nat) : State :=
  if s.gladeUp g then State.pumpN (16 + 6 * (s.glade g).ops.length) s g else s

/-- A write of GLD_SLC_CMD (R294). -/
def State.sliceCmd (s : State) (g sl op arg : Nat) : State :=
  let r := GLD_SLC_CSTAT g sl
  if s.getF r GLD_SLC_CSTAT_BUSY = 1 then s.logC 0x0C g 0x0A (leBytes 4 (GLD_SLC_CMD g sl).off)
  else
    match s.cmdCheck g sl op arg with
    | some res =>
      let s := s.cmdEnd g sl res
      if res = 8 then s.logC 0x0C g 0x0D [BitVec.ofNat 8 op] else s
    | none => ((s.setF r GLD_SLC_CSTAT_BUSY 1).modSlice g sl fun x => { x with cmd := some (op, arg) }).pump g

/-! Doorbells (R309, R311). -/

/-- A write of GLD_DB (R309). -/
def State.doorbell (s : State) (g sl tidx tail : Nat) : State :=
  let drop : State := (s.incF (GLD_SLC_CNT g sl) GLD_SLC_CNT_DBDROP).setEvt g sl GLD_SLC_EVT_DBDROP
  if s.bound g sl = false ∨ s.tcount g sl ≤ tidx ∨ s.gldState g ≠ 4 then drop
  else
    match (s.slice g sl).tract tidx with
    | none => drop
    | some t =>
      if t.closing ∨ 2 ^ t.log2 ≤ tail then drop else s.setTract g sl tidx (some { t with tail := tail })

/-- Distance from `a` up to `b` in a ring. -/
def ringDist (n a b : Nat) : Nat := (b + n - a) % n

/-- A write of GLD_CQDB: the head moves, operations in doubt whose record it passes are live no more, and held records find room (R311, R336). -/
def State.cqDoorbell (s : State) (g sl q head : Nat) : State :=
  let drop : State := s.incF (GLD_SLC_CNT g sl) GLD_SLC_CNT_CQDROP
  match (s.slice g sl).ring q with
  | none => drop
  | some r =>
    let n := 2 ^ r.log2
    if s.actF (GLD_SLC_RES g sl) GLD_SLC_RES_NCQ ≤ q ∨ n ≤ head ∨ ringDist n r.head r.tail < ringDist n r.head head then drop
    else
      let gone (o : GOp) : Bool := match o.stage with
        | .doubt k => o.slice == sl && s.opRing g o == q && decide (ringDist n r.head k < ringDist n r.head head)
        | _ => false
      let s := s.modGlade g fun x => { x with ops := x.ops.filter fun o => !gone o }
      (s.setRing g sl q (some { r with head := head })).pump g

/-! Fetching GCWs (R305 to R308). -/

/-- CHAIN of a GCW. -/
def gcwChain (b : List Byte) : Bool := bitOf (byteAt b 0) 6

/-- Read the chain of GCWs from a ring index: the GCWs, and whether the chain has its end before the tail. -/
def State.readChain : Nat → State → Nat → Nat → Tract → Nat → HubR (List (List Byte) × Bool)
  | 0, s, _, _, _, _ => .ok ([], false) s
  | k + 1, s, g, sl, t, i =>
    (s.sread g sl (s.gen g sl) (t.sqBase + 32 * i) 32).bind fun b s =>
      if gcwChain b then
        (State.readChain k s g sl t ((i + 1) % 2 ^ t.log2)).bind fun r s => .ok (b :: r.1, r.2) s
      else .ok ([b], true) s

/-- The format of an operation's GCWs is bad (R306). -/
def gcwBad (l : List (List Byte)) : Bool :=
  decide (8 < l.length) || decide (byteAt (l.headD []) 0 % 4 ≠ 0)
    || ((l.drop 1).any fun b => le16At b 0 &&& 0xFFBF != 0 || le16At b 2 != 0)

/-- Check a scatter list (R307): 0 where it is good, otherwise 0x07; entries `k` at most. -/
def sglCheck : Nat → List Byte → Nat → Nat → Nat
  | 0, _, _, _ => 7
  | k + 1, b, sum, count =>
    let len := le32At b 8
    let fl := le32At b 12
    if len = 0 ∨ fl % 2 ^ 31 ≠ 0 then 7
    else if fl = 2 ^ 31 then (if sum + len = count then 0 else 7)
    else sglCheck k (b.drop 16) (sum + len) count

/-- Read a scatter list entry by entry up to LAST. -/
def State.readSgl : Nat → State → Nat → Nat → Nat → HubR (List Byte)
  | 0, s, _, _, _ => .ok [] s
  | k + 1, s, g, sl, off =>
    (s.sread g sl (s.gen g sl) off 16).bind fun b s =>
      if le32At b 12 ≥ 2 ^ 31 then .ok b s
      else (State.readSgl k s g sl (off + 16)).bind fun r s => .ok (b ++ r) s

/-- FETCHED and CONT entries, then SQHEAD, then the operation is live (R304, R326). -/
def State.fetchEntries (s : State) (g sl i : Nat) (t : Tract) (l : List (List Byte)) (n : Nat) (st : Nat) : HubR Unit :=
  let o : GOp := {
    handle := s.newHandle g, slice := sl, tract := i, gen := s.gen g sl, sqidx := t.head, gcws := l, fseq := s.nextSeq g sl
    stage := .fetched, attempt := 0, reissued := false, fail := 0
    pend := if st = 0 then none else some (st, 0, 0), hub := st != 0 }
  (s.ledgerWrite g sl (s.opEnt g o 1)).bind fun _ s =>
    (hubEach (fun s k => s.ledgerWrite g sl { s.opEnt g o 2 with
        sqidx := (t.head + k) % 2 ^ t.log2, ngcw := k, gcw := (l[k]?).getD [] }) ((List.range l.length).drop 1) s).bind fun _ s =>
      let head := (t.head + n) % 2 ^ t.log2
      ((s.setTract g sl i (some { t with head := head })).ctxWrite g sl (0x800 + 64 * i + 0x32) (leBytes 2 head)).bind fun _ s =>
        .ok () (s.modGlade g fun x => { x with ops := x.ops ++ [o] })

/-- The status with which the hub ends an operation instead of handing it to firmware (R306, R307); 0 none. -/
def State.fetchStatus (s : State) (g sl i : Nat) (l : List (List Byte)) : HubR Nat :=
  let b := l.headD []
  let tag := le16At b 2
  let dup := (s.glade g).ops.any fun o => o.slice == sl && o.tract == i && !o.hasEnded && o.tag == tag
  if gcwBad l || dup then .ok 2 s
  else if bitOf (byteAt b 0) 2 && le32At b 4 != 0 then
    match s.readSgl 257 g sl (le64At b 8) with
    | .ok r s => .ok (sglCheck 256 r 0 (le32At b 4)) s
    | .fail st s => .ok st s
    | .need l p w => .need l p w
  else .ok 0 s

/-- Fetch the next operation of a tract (R306 to R308, R328, R339). Nothing happens where no fetch is due; a fetch that Ledger space forbids shows STATE 4. (DEDUCED, notes/assumptions/49.md.) -/
def State.fetchOp (s : State) (g sl i : Nat) : HubR Unit :=
  match (s.slice g sl).tract i with
  | none => .ok () s
  | some t =>
    let avail := ringDist (2 ^ t.log2) t.head t.tail
    let held := (s.slice g sl).recs.any fun p => p.2.tract == s.tbase g sl + i
    if t.closing ∨ avail = 0 ∨ s.bound g sl = false ∨ s.halted g sl ∨ s.ledgerDown g sl ∨ held ∨ 4096 ≤ (s.glade g).ops.length
        ∨ s.getF (LDG_LSTAT g sl) LDG_LSTAT_STATE = 6 then .ok () s
    else
      match State.readChain avail s g sl t t.head with
      | .need l p w => .need l p w
      | .fail st s => s.fetchEntries g sl i t [List.replicate 32 0] 1 (if st < 0x100 then st else 0x03)
      | .ok (l, whole) s =>
        if whole = false then .ok () s
        else if s.ledgerFits g sl (min 8 l.length) = false then .ok () (s.setF (LDG_LSTAT g sl) LDG_LSTAT_STATE 4)
        else
          (s.fetchStatus g sl i l).bind fun st s =>
            let s := if s.getF (LDG_LSTAT g sl) LDG_LSTAT_STATE = 4 then s.setF (LDG_LSTAT g sl) LDG_LSTAT_STATE 1 else s
            s.fetchEntries g sl i t (l.take 8) l.length st

end Sys2Proof.Machine
end

