-- ==== Sys2Proof/Machine/GladeRegs.lean ====
section
/-! DEFINITION. The registers of the Glades and of the keystore: who may reach which, the fields they compute, and the effects of writes (R293, R314, R331, R359, R361, R374, R416, R417). -/

namespace Sys2Proof.Machine

/-- Instance and slice of a slice page of the hub window, and whether it is the control page (R292). -/
def slicePage (off : Nat) : Option (Nat × Bool) :=
  if 0x100000 ≤ off ∧ off < 0x300000 then some ((off - 0x100000) / 0x2000, off / 0x1000 % 2 == 0) else none

/-- The rule of R293: the slice's own partition, and for the control page S or M level. -/
def State.pageOk (s : State) (w : Who) (g sl : Nat) (ctl : Bool) : Bool :=
  (match w.part with | some p => p == s.slicePart g sl | none => false) && (!ctl || w.lvl != 0)

/-- The access comes from a thread of this or another module. -/
def Who.isCore (w : Who) : Bool :=
  match w.org with
  | .core _ => true
  | .peer _ _ => true
  | _ => false

/-- The access comes from Glade firmware. -/
def Who.isTwig (w : Who) : Bool :=
  match w.org with
  | .twig _ _ => true
  | _ => false

/-- The access may come from the loader: the configuration bus (R17). -/
def Who.isLoader (w : Who) : Bool :=
  match w.org with
  | .config => true
  | _ => false

/-- Whether a block's own rule turns an access away (R293, R331, R417). -/
def State.turnedAway (s : State) (w : Who) (r : Reg) (wr : Bool) : Bool :=
  if r.block = 0x0C then
    match slicePage r.off with
    | some (sl, ctl) => !s.pageOk w r.inst sl ctl
    | none => false
  else if r.block = 0x0F then
    if 0x10000 ≤ r.off ∧ r.off < 0x12000 ∧ r.off % 32 ≠ 0 then
      (w.isCore && !s.pageOk w r.inst ((r.off - 0x10000) / 32) true) || (wr && w.isTwig)
    else wr && (!w.isLoader)
  else if r.block = 0x11 ∧ 0x1000 ≤ r.off then
    (w.isCore && !s.pageOk w r.inst ((r.off - 0x1000) / 16) true) || (wr && (w.isTwig || (r.off % 16 == 0 && !w.isLoader)))
  else r.block == 0x12 && wr && decide (0x1000 ≤ r.off) && decide (r.off < 0x2000) && !w.isLoader

/-! Computed fields. -/

/-- STATE of LDG_LSTAT (R323, R328, R329, R339). -/
def State.ledgerState (s : State) (g sl : Nat) : Nat :=
  let st := s.getF (LDG_LSTAT g sl) LDG_LSTAT_STATE
  if s.ledgerN g sl = 0 then 0
  else if st = 5 ∨ st = 6 then st
  else if s.halted g sl then (if (s.liveOps g sl).any (fun o => o.stage == .issued || o.stage == .ready) then 2 else 3)
  else if st = 4 then 4 else 1

/-- A column job is running: its lane has taken it (R393). -/
def ColJob.running (j : ColJob) : Bool := j.res.isSome

/-- A Bark job is running (R425). -/
def BarkJob.running (j : BarkJob) : Bool := j.res.isSome

/-- COL_QSTAT of a slice. -/
def State.colQstat (s : State) (g sl : Nat) : Word :=
  (List.range 4).foldl (fun w j =>
    let js := (s.glade g).cols.filter fun x => x.slice == sl && x.queue == j
    (COL_QSTAT_DEPTH j).put ((COL_QSTAT_RUN j).put w (b2n (js.any ColJob.running))) js.length) 0

/-- The owner of a keystore slot (R416). -/
def State.slotOwner (s : State) (i : Nat) : Option Nat :=
  let r := KST_OWNER (i / 8)
  if s.actF r (KST_OWNER_V (i % 8)) = 1 then some (s.actF r (KST_OWNER_PART (i % 8))) else none

/-- The key a slot holds (R415). -/
def State.keySlot (s : State) (i : Nat) : Option KeySlot := Tab.get (fun _ => none) s.kst.slots i

/-- KST_ATTR of a slot (R415). -/
def State.keyAttr (s : State) (i : Nat) : Word :=
  match s.keySlot i with
  | some k => BitVec.ofNat 64 (2 ^ 63 + b2n k.k256 * 2 ^ 62 + k.use * 2 ^ 32 + k.label)
  | none => 0

/-- The current value of a register of a Glade or of the keystore. -/
def State.gladeVal (s : State) (r : Reg) : Word :=
  let v := s.reg r
  if r.block = 0x0E ∧ r.off = 0x8 then
    DMV_STAT_DEPTH.put v ((s.glade (r.inst / 8)).movs.filter fun m => m.mover == r.inst % 8).length
  else if r.block = 0x0F ∧ 0x10000 ≤ r.off ∧ r.off % 32 = 16 then
    LDG_LSTAT_STATE.put v (s.ledgerState r.inst ((r.off - 0x10000) / 32))
  else if r.block = 0x10 ∧ r.off = 0 then
    let n := ((s.glade r.inst).cols.filter ColJob.running).length
    COL_STAT_STATE.put (COL_STAT_LANES.put v n) (if n = 0 then 1 else 2)
  else if r.block = 0x10 ∧ 0x400 ≤ r.off ∧ r.off < 0xC00 then s.colQstat r.inst ((r.off - 0x400) / 8)
  else if r.block = 0x11 ∧ r.off = 0 then
    let n := ((s.glade r.inst).barks.filter BarkJob.running).length
    BRK_STAT_STATE.put (BRK_STAT_LANES.put v n) (if n = 0 then 1 else 2)
  else if r.block = 0x11 ∧ 0x1000 ≤ r.off ∧ r.off % 16 = 8 then
    BRK_PG_STAT_DEPTH.put v ((s.glade r.inst).barks.filter fun j => j.slice == (r.off - 0x1000) / 16).length
  else if r.block = 0x12 ∧ 0x10000 ≤ r.off ∧ r.off < 0x18000 then s.keyAttr ((r.off - 0x10000) / 8)
  else if r.block = 0x12 ∧ r.off = 0 then
    let n := s.kst.slots.length
    let v := KST_STAT_NVALID.put v n
    if s.getF KST_STAT KST_STAT_STATE < 2 then KST_STAT_STATE.put v (b2n (decide (n ≠ 0))) else v
  else v

/-- A core reads KST_ATTR only of slots its partition owns (R416). -/
def State.hiddenAttr (s : State) (w : Who) (r : Reg) : Bool :=
  r.block == 0x12 && decide (0x10000 ≤ r.off) && decide (r.off < 0x18000) && w.isCore && s.slotOwner ((r.off - 0x10000) / 8) != w.part

/-! Writes. -/

/-- A write of GLD_SLC_DLCFG (R314): SPAN does not change while EN is 1, and EN is not set with SPAN 0. -/
def State.writeDlcfg (s : State) (g sl : Nat) (v mask : Word) : State :=
  let r := GLD_SLC_DLCFG g sl
  let new := (s.reg r &&& ~~~ mask) ||| (v &&& mask)
  let drop (s : State) : State := s.logC 0x0C g 0x0A (leBytes 4 r.off)
  if s.getF r GLD_SLC_DLCFG_EN = 1 ∧ GLD_SLC_DLCFG_SPAN.get new ≠ s.getF r GLD_SLC_DLCFG_SPAN then
    drop (s.writeCodes r v (mask &&& ~~~ GLD_SLC_DLCFG_SPAN.mask))
  else if s.getF r GLD_SLC_DLCFG_EN = 0 ∧ GLD_SLC_DLCFG_EN.get new = 1 ∧ GLD_SLC_DLCFG_SPAN.get new = 0 then drop s
  else s.writeCodes r v mask

/-- A write of GLD_SLC_DLPA (R314). -/
def State.writeDlpa (s : State) (g sl b : Nat) (v mask : Word) : State :=
  let r := GLD_SLC_DLPA g sl b
  if s.getF (GLD_SLC_DLCFG g sl) GLD_SLC_DLCFG_EN = 1 then s.logC 0x0C g 0x0A (leBytes 4 r.off)
  else s.writeCodes r v mask

/-- A write of a slice page (R293). -/
def State.writePage (s : State) (g sl : Nat) (r : Reg) (v mask : Word) : State :=
  let o := r.off % 0x2000
  if o = 0 then s.sliceCmd g sl (GLD_SLC_CMD_OP.get v) (GLD_SLC_CMD_ARG.get v)
  else if o = 0x18 then s.writeDlcfg g sl v mask
  else if o = 0x20 then s.writeDlpa g sl 0 v mask
  else if o = 0x28 then s.writeDlpa g sl 1 v mask
  else if o = 0x1000 then s.doorbell g sl (GLD_DB_TIDX.get v) (GLD_DB_TAIL.get v)
  else if o = 0x1008 then s.cqDoorbell g sl (GLD_CQDB_RING.get v) (GLD_CQDB_HEAD.get v)
  else s.writeCodes r v mask

/-- A write of LDG_CTL (R339, R341). -/
def State.writeLdgCtl (s : State) (g sl : Nat) (v mask : Word) : State :=
  let r := LDG_CTL g sl
  let s := s.writeCodes r v mask
  let s :=
    if LDG_CTL_ADOPT.get (v &&& mask) = 1 then
      let none_ := (s.slice g sl).tracts.all fun e => e.2.isNone
      if s.bound g sl && none_ && !s.halted g sl && decide (s.ledgerN g sl ≠ 0) then s.setF (LDG_LSTAT g sl) LDG_LSTAT_STATE 6
      else s.logC 0x0F g 0x0A (leBytes 4 r.off)
    else s
  s.pump g

/-- A write of TWG_CFG: discarded where a busy task would lie above MAXTASK. -/
def State.writeTwgCfg (s : State) (e : Nat) (v mask : Word) : State :=
  let r := TWG_CFG e
  let new := (s.reg r &&& ~~~ mask) ||| (v &&& mask)
  let m := max 1 (TWG_CFG_MAXTASK.get new)
  if (s.eng e).tasks.any (fun t => t.2.st != 0 && decide (m < t.1)) then s.logC 0x0D e 0x0A (leBytes 4 r.off)
  else s.writeCodes r v mask

/-- TWG_TSTART: task 0 starts a free task (R359). -/
def State.tstart (s : State) (e t pc : Nat) : State :=
  if s.maxTask e < t ∨ (s.task e t).st ≠ 0 then s.logC 0x0D e 0x0A (leBytes 4 (TWG_TSTART e).off)
  else s.startTask e t pc none

/-- TWG_SIGNAL: an MBX event for a task of this or the sibling engine (R361). -/
def State.signal (s : State) (e : Nat) (sib : Bool) (t src sender : Nat) : State :=
  let d := if sib then (if e % 2 = 0 then e + 1 else e - 1) else e
  if s.maxTask d < t then s.logC 0x0D e 0x0A (leBytes 4 (TWG_SIGNAL e).off)
  else s.queueEvent d t (mbxEvent src sender)

/-- Source and sending task of a TWG_SIGNAL: a task of either engine of the Glade; any other writer counts as the Forester, task 0 (notes/assumptions/22.md). -/
def signalSource (w : Who) (e : Nat) (sib : Bool) : Nat × Nat :=
  match w.org with
  | .twig f t => (if sib then 2 else (if f.val = e then 1 else 2), t.val)
  | _ => (0, 0)

/-- A write of a register of a Glade or of the keystore that its block admits. (DEDUCED, notes/assumptions/48.md.) -/
def State.gladeWrite (s : State) (w : Who) (r : Reg) (v mask : Word) : State :=
  if r.block = 0x0C then
    match slicePage r.off with
    | some (sl, _) => s.writePage r.inst sl r v mask
    | none => s.writeCodes r v mask
  else if r.block = 0x0D then
    if r.off = 0 then s.writeTwgCfg r.inst v mask
    else if r.off = 0x18 then s.tstart r.inst (TWG_TSTART_TASK.get v) (TWG_TSTART_PC.get v)
    else if r.off = 0x20 then
      let sib := TWG_SIGNAL_SIB.get v == 1
      let src := signalSource w r.inst sib
      s.signal r.inst sib (TWG_SIGNAL_TASK.get v) src.1 src.2
    else s.writeCodes r v mask
  else if r.block = 0x0E ∧ r.off = 0 then s.logC 0x0E r.inst 0x0A (leBytes 4 r.off)
  else if r.block = 0x0F ∧ 0x10000 ≤ r.off ∧ r.off < 0x12000 ∧ r.off % 32 = 8 then s.writeLdgCtl r.inst ((r.off - 0x10000) / 32) v mask
  else s.writeCodes r v mask

end Sys2Proof.Machine
end

