-- ==== Sys2Proof/Machine/Ways.lean ====
section
/-! DEFINITION. Corrected-error counts of cache and Canopy ways, and the re-enabling of a way (R219 to R221, R249). -/

namespace Sys2Proof.Machine

/-- The number of a cache: 0 L1I, 1 L1D, 2 L2, 3 L3. -/
def cacheNum : CacheKind → Nat
  | .l1i => 0
  | .l1d => 1
  | .l2 => 2
  | .l3 => 3

/-- The corrected-error count of a way (R219). -/
def State.wayCount (s : State) (k i w : Nat) : Nat :=
  if k = 0 then Tab.get (fun _ => 0) (s.core i).l1iCnt w
  else if k = 1 then Tab.get (fun _ => 0) (s.core i).l1dCnt w
  else (if k = 2 then s.reg (L2C_CECNT i) else s.reg (L3C_CECNT i)).toNat / 16 ^ w % 16

/-- Set the corrected-error count of a way. -/
def State.setWayCount (s : State) (k i w n : Nat) : State :=
  if k = 0 then s.modCore i fun x => { x with l1iCnt := Tab.set (fun _ => 0) x.l1iCnt w n }
  else if k = 1 then s.modCore i fun x => { x with l1dCnt := Tab.set (fun _ => 0) x.l1dCnt w n }
  else
    let r := if k = 2 then L2C_CECNT i else L3C_CECNT i
    let v := (s.reg r).toNat
    s.setReg r (BitVec.ofNat 64 (v - v / 16 ^ w % 16 * 16 ^ w + n % 16 * 16 ^ w))

/-- A corrected error is counted against its way (R218, R219); counts stop at 15. -/
def State.countWay (s : State) (k i w : Nat) : State := s.setWayCount k i w (min (s.wayCount k i w + 1) 15)

/-- A write to a WAYST register re-enables ways: the count of each restarts at zero (R221; R249 for a Canopy bank, by the layout it shares). `old` is the register before the write. -/
def State.reenabled (s : State) (r : Reg) (old : Word) : State :=
  let gone (f : Fld) (w : Nat) : Bool := bitOf (f.get old) w && !bitOf (s.getF r f) w
  if r.block = 0x07 then
    let b := (r.off - 0x100) / 8
    (List.range 16).foldl (fun s w =>
      if gone CNP_WAYST_DIS w then
        let v := (s.reg (CNP_CECNT b)).toNat
        s.setReg (CNP_CECNT b) (BitVec.ofNat 64 (v - v / 16 ^ w % 16 * 16 ^ w))
      else s) s
  else if r.block = 0x05 then
    (List.range 16).foldl (fun s w => if gone L3C_WAYST_L3DIS w then s.setWayCount 3 r.inst w 0 else s) s
  else
    (List.range 16).foldl (fun t w =>
      let t := if gone L2C_WAYST_L2DIS w then t.setWayCount 2 r.inst w 0 else t
      let t := if w < 8 && gone L2C_WAYST_L1DDIS w then t.setWayCount 1 r.inst w 0 else t
      if w < 8 && gone L2C_WAYST_L1IDIS w then t.setWayCount 0 r.inst w 0 else t) s

end Sys2Proof.Machine
end

