-- ==== Sys2Proof/Machine/RegAccess.lean ====
section
/-! DEFINITION. A read or a write of any memory-mapped register, with the register's own effect (R5 to R9 and the registers' chapters). -/

namespace Sys2Proof.Machine

/-- The entries of Canopy in use (R249). -/
def State.canUsed (s : State) : Nat := (s.canopy.filter fun e => e.2.st != .inv).length

/-- The current value of a register. -/
def State.regVal (s : State) (r : Reg) : Word :=
  if r.block = 0x07 ∧ r = CNP_STAT then CNP_STAT_VALID.put (s.reg r) s.canUsed
  else if r.block = 0x09 then s.rtlRead r
  else if inGlade r.block || r.block == 0x12 then s.gladeVal r
  else if r.block = 0x02 ∨ r.block = 0x03 ∨ r.block = 0x13 ∨ r.block = 0x14 then s.sysVal r
  else s.reg r

/-- The sender INFO names for an interrupt (R112, R123): thread and module. A message from another module carries no thread number, which is then a free value. -/
def State.sender (s : State) (w : Who) : Nat :=
  match w.org with
  | .core t => t.val + s.self * 256
  | .peer m _ => s.freeBelow 128 + m.val * 256
  | _ => s.freeBelow 128 + s.self * 256

/-- A write to MYC_IPI (R123). (DEDUCED, notes/assumptions/54.md.) -/
def State.mycIpi (s : State) (w : Who) (v : Nat) : State :=
  let t := v % 128
  let m := bitOf v 8
  let other := match w.part with | some p => decide (p ≠ s.part t) | none => false
  if (m && decide (w.lvl ≠ 3)) || other then
    s.log { block := 0x06, typ := 0x0A, part := w.part, detail := leBytes 4 0x4000 }
  else
    let i := s.sender w
    let s := s.tickFree
    s.modThr t fun x => if m then { x with msi := some i } else { x with ssi := some i }

/-- A write of a register whose block has effects of its own beside the access codes (R8). -/
def State.unitWrite (s : State) (w : Who) (r : Reg) (v mask : Word) : State :=
  if r.block = 0x09 then s.rtlWrite r v mask
  else if inGlade r.block || r.block == 0x12 then
    if s.turnedAway w r true then s.logC r.block r.inst 0x0A (leBytes 4 r.off) else s.gladeWrite w r v mask
  else if r.block = 0x03 ∨ r.block = 0x13 ∨ r.block = 0x14 ∨ r.block = 0x16 then s.sysWrite w r v mask
  else
    let old := s.reg r
    let s := s.writeCodes r v mask
    if r.off = 0x008 ∧ (r.block = 0x04 ∨ r.block = 0x05) ∨ r.block = 0x07 ∧ 0x100 ≤ r.off ∧ r.off < 0x180 then s.reenabled r old else s

/-- Bytes 8k to 8k + 7 of an engine's Forester mailbox area, which the configuration bus reaches at offsets 0x1000 to 0x1FFF (R487, R515). -/
def mboxWord (s : State) (r : Reg) : Word :=
  BitVec.ofNat 64 (fromLe ((List.range 8).map fun i => Tab.get memDefault (s.eng r.inst).mbox (r.off - 0x1000 + i)))

/-- A write of the mailbox area over the configuration bus (R487). -/
def State.mboxWrite (s : State) (r : Reg) (v mask : Word) : State :=
  let w := (mboxWord s r &&& ~~~ mask) ||| (v &&& mask)
  s.modEng r.inst fun x => { x with mbox := memPut x.mbox (r.off - 0x1000) (leBytes 8 w.toNat) }

/-- The access is one of the configuration bus to a mailbox area. -/
def inMbox (w : Who) (r : Reg) : Bool := r.block == 0x0D && decide (0x1000 ≤ r.off) && decide (r.off < 0x2000) && w.isLoader

/-- A read of a register window (R6, R8, R25): the value at the access's size, and the state after it. (DEDUCED, notes/assumptions/44.md.) -/
def State.regRead (s : State) (w : Who) (blk inst off size : Nat) : Word × State :=
  if s.domainUp blk inst = false then (onesAt size, s.logC 0x06 0 0x0A [BitVec.ofNat 8 blk, BitVec.ofNat 8 inst])
  else if accOk off size = false then (onesAt size, s.logC blk inst 0x0A (leBytes 4 off))
  else
    let r : Reg := ⟨blk, inst, off / 8 * 8⟩
    if s.turnedAway w r false then (onesAt size, s.logC blk inst 0x0A (leBytes 4 off))
    else if s.hiddenAttr w r then (0, s)
    else if inMbox w r then (readPart off size (mboxWord s r), s)
    else (readPart off size (visible r (s.regVal r)), s.clearRc r (accMask off size))

/-- A write of a register window (R6, R8, R25). -/
def State.regWrite (s : State) (w : Who) (blk inst off size : Nat) (v : Word) : State :=
  if s.domainUp blk inst = false then s.logC 0x06 0 0x0A [BitVec.ofNat 8 blk, BitVec.ofNat 8 inst]
  else if accOk off size = false then s.logC blk inst 0x0A (leBytes 4 off)
  else
    let r : Reg := ⟨blk, inst, off / 8 * 8⟩
    if blk = 0x06 ∧ off = 0x4000 then s.mycIpi w v.toNat
    else if inMbox w r then s.mboxWrite r (accWord off size v) (accMask off size)
    else s.unitWrite w r (accWord off size v) (accMask off size)

/-- The access reaches the window by a route of R18: a thread's by its device grant, the configuration bus to every block but the service port, the host to the service port over its link and to every other block by REG_READ and REG_WRITE, firmware to its own Glade, a peer's by its device grant (R18, R58, R283). -/
def State.reaches (s : State) (o : Origin) (blk inst off : Nat) : Bool :=
  match o with
  | .core t => s.running t.val && s.devOk (s.part t.val) (.reg blk inst off) && blk != 0x16
  | .peer _ p => s.devOk p.val (.reg blk inst off) && blk != 0x16
  | .config => blk != 0x16
  | .host => s.svcUp && (blk == 0x16 || s.forFw)
  | .twig e _ => inGlade blk && gladeOf blk inst == e.val / 2

/-- A write by an agent that reaches the window; otherwise there is no such access. (DEDUCED, notes/assumptions/67.md.) -/
def State.writeAs (s : State) (o : Origin) (blk inst off size : Nat) (v : Word) : State :=
  if inst < blockCount blk ∧ s.reaches o blk inst off = true then s.regWrite (s.who o) blk inst off size v else s

/-- A read by an agent that reaches the window; its value is kept in `readData`. -/
def State.readAs (s : State) (o : Origin) (blk inst off size : Nat) : State :=
  if inst < blockCount blk ∧ s.reaches o blk inst off = true then
    let (v, s) := s.regRead (s.who o) blk inst off size
    { s with readData := v }
  else s

end Sys2Proof.Machine
end

