-- ==== Sys2Proof/Machine/Access.lean ====
section
/-! DEFINITION. The accesses of a thread: fetch, loads and stores in pieces, the store buffer and its forwarding, device loads and stores and their failures (R79 to R82, R183 to R206, R114). -/

namespace Sys2Proof.Machine

/-! Lines for a thread. -/

/-- End in the consequence of an ERR (R236, R239, R260, R274): a Firebreak violation for a refusal, otherwise a machine check. -/
def State.lineErr (s : State) (st pa kind : Nat) : Ex Unit :=
  let s := s.takeErr (lineOf pa)
  if st = 1 then .exc { code := 0x24, info := kind, addr := some (BitVec.ofNat 64 pa) } s else .mchk pa kind s

/-- Another thread's constrained loop defers requests for the line (R203). -/
def State.deferred (s : State) (l t : Nat) : Bool :=
  (s.threads.any fun e => e.1 != t && e.2.defer != 0 && e.2.resv == some l)

/-- Reach a line for reading, or hold while its request is outstanding; poison is consumed (R463). `k`: 0 through the L1I, 1 through the L1D. -/
def State.reachLine (s : State) (t k pa kind : Nat) : Ex Unit :=
  let l := lineOf pa
  if s.deferred l t then .hold s
  else
  let go (s : State) : Ex Unit :=
    if (s.line l).poison then .mchk pa kind s else .ok () (s.touch t (s.pcore t) k l)
  match s.accRead l with
  | .ok => go s
  | .wait => .hold s
  | .err st => s.lineErr st pa kind
  | .need opc =>
    let s := s.request opc l (s.part t) (some t)
    match s.accRead l with
    | .ok => go s
    | .err st => s.lineErr st pa kind
    | _ => .hold s

/-- Reach a line for writing: owned in E or M by the module. -/
def State.reachOwned (s : State) (t pa : Nat) : LineAcc × State :=
  let l := lineOf pa
  if s.deferred l t then (.wait, s)
  else
    match s.accWrite l with
    | .need opc =>
      let s := s.request opc l (s.part t) (some t)
      (s.accWrite l, s)
    | a => (a, s)

/-- Write bytes of an owned line: visible to every agent at this instant (R185). The other cores lose the line, other agents' reservations on it go (R201), the line is M; fewer than 256 bytes leave poison in place (R463). -/
def State.writeOwned (s : State) (t pa : Nat) (bytes : List Byte) (poison : Bool) : State :=
  let l := lineOf pa
  let c := s.pcore t
  let s := s.dropCores l fun d => d == c
  let s := s.clearResv l fun u => u != t
  let s := s.modLine l fun x => { x with
    st := .m, data := linePut x.data (pa % 256) bytes
    poison := poison || (x.poison && decide (bytes.length < 256)) }
  (s.fillL2 c l).fillL1 c 1 l

/-! The store buffer (R104, R185). -/

/-- The bytes a store-buffer entry of memory covers: start and length. -/
def StoreEnt.range (e : StoreEnt) : Nat × Nat :=
  match e.kind with
  | .mem => (e.pa, e.bytes.length)
  | .clzero => (e.pa / 256 * 256, 256)
  | _ => (e.pa, 0)

/-- The youngest buffered store of the thread that overlaps a load. -/
def sbOverlap (sb : List StoreEnt) (pa n : Nat) : Option StoreEnt :=
  sb.reverse.find? fun e =>
    let r := e.range
    decide (0 < r.2) && decide (r.1 < pa + n) && decide (pa < r.1 + r.2)

/-- The bytes a load takes from a buffered store that covers it whole (R185 rule 4). -/
def StoreEnt.forward (e : StoreEnt) (pa n : Nat) : Option (List Byte) :=
  let r := e.range
  if r.1 ≤ pa ∧ pa + n ≤ r.1 + r.2 then
    some (if e.kind = .clzero then List.replicate n 0 else (e.bytes.drop (pa - r.1)).take n)
  else none

/-- Read bytes of memory within one line: from the thread's own buffered store, or from the line; a partial overlap waits (R185 rules 4 and 5). -/
def State.readMem (s : State) (t pa n kind : Nat) : Ex (List Byte) :=
  match sbOverlap (s.thr t).sb pa n with
  | some e =>
    match e.forward pa n with
    | some b => if e.poison then .mchk pa kind s else .ok b s
    | none => .hold s
  | none => (s.reachLine t 1 pa kind).bind fun _ s => .ok (lineBytes (s.line (lineOf pa)).data (pa % 256) n) s

/-- Entries the buffer can still take (R104). -/
def Thread.sbRoom (x : Thread) : Nat := 48 - x.sb.length

/-- Append stores to the buffer; the thread's own store clears its reservation on the granule (R201). -/
def Thread.push (x : Thread) (l : List StoreEnt) : Thread :=
  let hit := l.any fun e => (e.kind == .mem || e.kind == .clflush || e.kind == .clinv || e.kind == .clzero) &&
    x.resv == some (lineOf e.pa)
  { x with sb := x.sb ++ l, resv := if hit then none else x.resv, defer := if hit then 0 else x.defer }

/-! Device targets (R183, R189 to R196). -/

/-- The key of a device address's target in `failed`. -/
def State.devKey (s : State) (pa : Nat) : Nat :=
  if paModule pa ≠ s.self then 0x20000 + paModule pa
  else match paDst pa with
    | .reg b i _ => b * 256 + i
    | .port x _ => 0x10000 + x
    | .none => 0

/-- The block code and instance of the agent that holds a target (R192). -/
def State.devAgent (s : State) (pa : Nat) : Nat × Nat :=
  if paModule pa ≠ s.self then (0x08, 0)
  else match paDst pa with
    | .reg b i _ => (b, i)
    | .port x _ => (0x0C, x / 8)
    | .none => (0x06, 0)

/-- Mark a target failed; a port half shows it in GLD_PST.FAILED (R193). -/
def State.markFailed (s : State) (key : Nat) : State :=
  let s := if s.failed.contains key then s else { s with failed := key :: s.failed }
  if 0x10000 ≤ key ∧ key < 0x20000 then
    let x := key - 0x10000
    s.setF (GLD_PST (x / 8) (x % 8 / 2) (x % 2)) GLD_PST_FAILED 1
  else s

/-- The record of a device access that fails (R192, R193, R196). (DEDUCED, notes/assumptions/32.md.) -/
def State.logDev (s : State) (t pa cls : Nat) : State :=
  let (b, i) := s.devAgent pa
  s.log { block := b, inst := i, cls := cls, typ := 0x0B, addr := some pa, part := some (s.part t), thread := some t }

/-- The port half of a window is down for accesses (R517). -/
def State.halfDown (s : State) (x : Nat) : Bool :=
  let st := s.getF (GLD_PST (x / 8) (x % 8 / 2) (x % 2)) GLD_PST_STATE
  st == 0 || st == 1 || st == 2 || st == 4 || st == 5 || bitOf s.gladeRst (x / 8)

/-- A thread's outstanding stores to a failed target leave the tracker; the first of them, in program order, becomes the pending failure unless one is pending (R192). -/
def Thread.dropFailed (x : Thread) (f : Nat → Bool) : Thread :=
  let gone := x.trk.filter fun e => f e.pa
  { x with
    trk := x.trk.filter fun e => !f e.pa
    devFail := match x.devFail with | some a => some a | none => (gone.head?).map (·.pa) }

/-- A target fails: it is marked, and every outstanding store to it fails at the same instant (R192). -/
def State.failTarget (s : State) (pa : Nat) : State :=
  let k := s.devKey pa
  let s := s.markFailed k
  (s.threads.filter fun e => e.2.trk != []).foldl (fun s e => s.modThr e.1 fun x => x.dropFailed fun a => s.devKey a == k) s

/-- A device load that fails: all ones, the target marked failed, a contained-class record (R196). -/
def State.lostLoad (s : State) (t pa : Nat) : State := (s.failTarget pa).logDev t pa 2

/-- The value of a device load that is all ones at its size. -/
def onesVal (size : Nat) : BitVec 128 := BitVec.ofNat 128 (2 ^ (8 * size) - 1)

/-- Perform, or send, a device load (R189, R193, R196, R241, R518); its value is kept with the thread. -/
def State.issueLoad (s : State) (t pa size : Nat) : State :=
  let add (s : State) (v : Option (BitVec 128)) (tid : Option Nat) : State :=
    s.modThr t fun x => { x with devLoad := x.devLoad ++ [⟨pa, size, tid, v⟩] }
  if s.failed.contains (s.devKey pa) then add (s.logDev t pa 1) (some (onesVal size)) none
  else if paModule pa ≠ s.self then
    if s.pathLost (paModule pa) then add (s.lostLoad t pa) (some (onesVal size)) none
    else if size ≠ 4 ∧ size ≠ 8 then add s (some (onesVal size)) none
    else
      let tid := s.newTid
      let m : Msg := { s.mkMsg OPC_MRD (paModule pa) (lineOf pa) with
        rqm := s.self, tid := tid, part := s.part t, aux := pa % 256 + 256 * b2n (size == 8) }
      let o : OutTx := ⟨tid, paModule pa, lineOf pa, s.part t, some t, .mrd t⟩
      add ({ s with out := s.out ++ [o] }.send m) none (some tid)
  else match paDst pa with
    | .reg b i o =>
      let (v, s) := s.regRead ⟨.core (Fin.ofNat 128 t), (s.thr t).pl, some (s.part t)⟩ b i o size
      add s (some (v.setWidth 128)) none
    | .port x _ => if s.halfDown x then add (s.lostLoad t pa) (some (onesVal size)) none else add s none none
    | .none => add s (some (onesVal size)) none

/-- The value of device load number `i` of the instruction, performing or awaiting it (R189, R205). (DESIGN CHOICE, notes/assumptions/56.md.) -/
def State.devLoadAt (s : State) (t i pa size : Nat) : Ex (List Byte) :=
  let get (s : State) : Ex (List Byte) :=
    match (s.thr t).devLoad[i]? with
    | some d => (match d.val with | some v => .ok (leBytes size v.toNat) s | none => .hold s)
    | none => .hold s
  match (s.thr t).devLoad[i]? with
  | some _ => get s
  | none => if (s.thr t).sb = [] then get (s.issueLoad t pa size) else .hold s

/-! Pieces (R80, R198, R199). -/

/-- The pieces of an access: cut at line boundaries, and into halves where it is split; (offset, length) in address order. (DEDUCED, notes/assumptions/18.md.) -/
def pieces (ea n : Nat) (split : Bool) : List (Nat × Nat) :=
  let halves := if split && n == 16 then [(0, 8), (8, 8)] else [(0, n)]
  halves.flatMap fun (o, k) =>
    let room := 256 - (ea + o) % 256
    if k ≤ room then [(o, k)] else [(o, room), (o + room, k - room)]

/-- The checks of one piece, up to Firebreak, in the order of R114 (steps 6 to 9): its physical address. `align`: the access as a whole is not naturally aligned. -/
def State.checkPiece (s : State) (t : Nat) (ea : Word) (o : Nat) (a : Acct) (kind : Nat) (misaligned : Bool) : Ex Nat :=
  (s.translate t (ea + BitVec.ofNat 64 o) a kind).bind fun pa s =>
    if isMem pa = false ∧ misaligned = true then .exc { code := 0x04, info := kind, addr := some ea } s
    else if s.accessOk (s.part t) pa (a == .write) then .ok pa s
    else .exc { code := 0x24, info := kind, addr := some (BitVec.ofNat 64 pa) } (s.refuse 0 (s.part t) pa (a == .write))

/-- The bytes of a load, piece by piece in address order (R80, R184, R199). -/
def State.loadPieces (s : State) (t : Nat) (ea : Word) (misaligned : Bool) : List (Nat × Nat) → Nat → Ex (List Byte)
  | [], _ => .ok [] s
  | (o, k) :: r, i =>
    (s.checkPiece t ea o .read 0 misaligned).bind fun pa s =>
      let dev := !isMem pa
      (if dev then s.devLoadAt t i pa k else s.readMem t pa k 0).bind fun b s =>
        (s.loadPieces t ea misaligned r (if dev then i + 1 else i)).bind fun rest s => .ok (b ++ rest) s

/-- Whether 16-aligned 16-byte accesses of the thread's core are atomic (R198, R199). -/
def State.atom16 (s : State) (t : Nat) : Bool := s.actF (HWD_ATOM (s.pcore t)) HWD_ATOM_ATOM16 == 1

/-- The natural alignment of a size (R80). -/
def natAlign (n : Nat) : Nat := if n = 16 then 8 else n

/-- A 16-byte access is split (R198): a floating-point pair, an address not 16-aligned, or ATOM16 = 0; in a device region the pieces are 8-byte transactions in every case. -/
def State.splits (s : State) (t : Nat) (ea : Word) (n : Nat) (fp : Bool) (a : Acct) : Bool :=
  n == 16 && (fp || ea.toNat % 16 != 0 || !s.atom16 t ||
    (match s.translate t ea a 0 with | .ok pa _ => !isMem pa | _ => false))

/-- A load of `n` bytes (R79, R80). -/
def State.load (s : State) (t : Nat) (ea : Word) (n : Nat) (fp : Bool) : Ex (List Byte) :=
  s.loadPieces t ea (ea.toNat % natAlign n != 0) (pieces ea.toNat n (s.splits t ea n fp .read)) 0

/-- The store-buffer entries of a store, every piece checked first (R80). -/
def State.storePieces (s : State) (t : Nat) (ea : Word) (misaligned : Bool) (kind : Nat) (bytes : List Byte) :
    List (Nat × Nat) → Ex (List StoreEnt)
  | [] => .ok [] s
  | (o, k) :: r =>
    (s.checkPiece t ea o .write kind misaligned).bind fun pa s =>
      (s.storePieces t ea misaligned kind bytes r).bind fun rest s =>
        .ok (⟨if isMem pa then .mem else .dev, pa, (bytes.drop o).take k, (s.thr t).pl, false, (s.thr t).pc⟩ :: rest) s

/-- Append checked entries, or wait for room (R104). -/
def State.pushAll (s : State) (t : Nat) (l : List StoreEnt) : Ex Unit :=
  if l.length ≤ (s.thr t).sbRoom then .ok () (s.modThr t fun x => x.push l) else .hold s

/-- A store of bytes (R79, R80, R199). -/
def State.store (s : State) (t : Nat) (ea : Word) (bytes : List Byte) (fp : Bool) : Ex Unit :=
  let n := bytes.length
  (s.storePieces t ea (ea.toNat % natAlign n != 0) 1 bytes (pieces ea.toNat n (s.splits t ea n fp .write))).bind
    fun l s => s.pushAll t l

/-! Instruction fetch (R114 step 1, R121). -/

/-- The checks of the fetch at the thread's pc. A refused fetch at M-base + 0x000 stops the core's threads. -/
def State.fetch (s : State) (t : Nat) : Ex Unit :=
  let x := s.thr t
  (s.translate t x.pc .fetch 6).bind fun pa s =>
    if isMem pa = false then .exc { code := 0x11, info := 6, addr := some x.pc } s
    else if s.memOk (s.part t) pa false then s.reachLine t 0 pa 6
    else
      let s := s.refuse 0 (s.part t) pa false
      if x.pl = 3 ∧ x.pc = s.mbaseOf t then
        let s := s.log { block := 0x0B, cls := 2, typ := 0x0F, part := some (s.part t), thread := some t, detail := leBytes 8 x.pc.toNat }
        .hold ((s.stopThread t .stoppedFetch).stopThread (if t % 2 = 0 then t + 1 else t - 1) .stoppedFetch)
      else .exc { code := 0x24, info := 6, addr := some (BitVec.ofNat 64 pa) } s

/-! Running an instruction. -/

/-- An instruction completes at a next pc: INSTRET and the counters advance, the retry count returns to 0 (R100, R101, R441); `con` marks what a constrained loop may hold (R203). -/
def Thread.retire (x : Thread) (npc : Word) (con : Bool) : Thread :=
  let y := (x.setSr SR_INSTRET (x.srg SR_INSTRET + 1)).pmc 0x02
  { y with pc := npc, retries := 0, devLoad := [], defer := if con then y.defer - 1 else 0 }

/-- Retire in the state. -/
def State.retire (s : State) (t : Nat) (npc : Word) (con : Bool := false) : State := s.modThr t fun x => x.retire npc con

/-- What ends an instruction. -/
def State.finish (t : Nat) (con : Bool) : Ex Word → State
  | .ok npc s => s.retire t npc con
  | .exc c s => s.takeExc t c
  | .mchk pa k s => s.consumePoison t pa k
  | .hold s => s

/-- The lowest level that may execute, floating point, legality and the word of an instruction. -/
structure InsnInfo where
  word : Nat
  legal : Bool := true
  lvl : Nat := 0
  fp : Bool := false
  /-- Class A1 or A3, or a forward branch (R203). -/
  con : Bool := false

/-- The checks before the instruction's own effect, in the order of R114 (steps 1 to 4). -/
def State.precheck (s : State) (t : Nat) (i : InsnInfo) : Ex Unit :=
  (s.fetch t).bind fun _ s =>
    let x := s.thr t
    let trap (c : Nat) : Ex Unit := .exc { code := c, info := i.word, addr := some x.pc } s
    if i.legal = false then trap 0x01
    else if x.pl < i.lvl then trap 0x02
    else if i.fp ∧ x.pstBit PST_FEN = false then trap 0x09
    else .ok () s

/-- A WAIT whose thread has an interrupt pending has ended, enabled or not (R93). -/
def State.wake (s : State) (t : Nat) : State :=
  let x := s.thr t
  if x.run = .running ∧ x.wait = .waitInt ∧ s.intPending x = true then s.setThr t x.endWait else s

/-- A thread executes an instruction: nothing while it is stopped or waits; an event due at the boundary is taken in its place (R128), but none while a device load of the instruction is in progress (R205); otherwise its checks and its effect. (DESIGN CHOICE, notes/assumptions/5.md.). (DESIGN CHOICE, notes/assumptions/9.md.) -/
def State.ais (s : State) (t : Nat) (i : InsnInfo) (body : State → Ex Word) : State :=
  let s := s.wake t
  let x := s.thr t
  if x.run ≠ .running ∨ x.wait ≠ .none then s
  else
    match (if x.devLoad = [] then s.boundary t else none) with
    | some s' => s'
    | none => State.finish t i.con ((s.precheck t i).bind fun _ s => body s)

end Sys2Proof.Machine
end

