-- ==== Sys2Proof/Machine/Operands.lean ====
section
/-! DEFINITION. Operand forms of AIS: W forms, immediates, effective addresses, register pairs, and the instruction shapes built on them (R71, R75 to R80). -/

namespace Sys2Proof.Machine

/-- The W form: the operation on bits [31:0], its 32-bit result sign-extended (R75). -/
def wForm (w : Bool) (f64 : Word → Word → Word) (f32 : BitVec 32 → BitVec 32 → BitVec 32) (a b : Word) : Word :=
  if w then (f32 (a.setWidth 32) (b.setWidth 32)).signExtend 64 else f64 a b

/-- sext(imm16) (R71). -/
def sext16 (i : BitVec 16) : Word := i.signExtend 64

/-- zext(imm16). -/
def zext16 (i : BitVec 16) : Word := i.setWidth 64

/-- A value of 1 or 0. -/
def boolW (b : Bool) : Word := if b then 1 else 0

/-- The info of an instruction by its word. -/
def info (word : Nat) (lvl : Nat := 0) (fp : Bool := false) (con : Bool := false) : InsnInfo where
  word := word
  legal := legalWord word
  lvl := lvl
  fp := fp
  con := con

/-- An instruction that computes one general register from its thread's registers and goes on at pc + 4. -/
def State.alu (s : State) (t word : Nat) (con : Bool) (rd : GReg) (f : Thread → Word) : State :=
  s.ais t (info word 0 false con) fun s =>
    let x := s.thr t
    .ok (x.pc + 4) (s.setThr t (x.setGr rd (f x)))

/-- An OPR instruction without W (R75). -/
def State.opr (s : State) (t fn : Nat) (con : Bool) (rd ra rb : GReg) (f : Word → Word → Word) : State :=
  s.alu t (encOpr false rd.val ra.val rb.val fn) con rd fun x => f (x.gr ra) (x.gr rb)

/-- An OPR instruction with its W form (R75). -/
def State.oprW (s : State) (t fn : Nat) (con w : Bool) (rd ra rb : GReg) (f64 : Word → Word → Word)
    (f32 : BitVec 32 → BitVec 32 → BitVec 32) : State :=
  s.alu t (encOpr w rd.val ra.val rb.val fn) con rd fun x => wForm w f64 f32 (x.gr ra) (x.gr rb)

/-- An I-format integer instruction (R77). -/
def State.opi (s : State) (t op : Nat) (rd ra : GReg) (imm : BitVec 16) (f : Word → Word) : State :=
  s.alu t (encI op rd.val ra.val imm.toNat) true rd fun x => f (x.gr ra)

/-- A SHI instruction (R78). -/
def State.opsh (s : State) (t kind : Nat) (rd ra : GReg) (sh : BitVec 6) (f : Word → Word) : State :=
  s.alu t (encShi kind rd.val ra.val sh.toNat) true rd fun x => f (x.gr ra)

/-- The effective address ra + sext(disp16) (R79). -/
def Thread.ea (x : Thread) (ra : GReg) (disp : BitVec 16) : Word := x.gr ra + sext16 disp

/-- The odd partner of an even register (R79). -/
def oddOf (r : GReg) : GReg := Fin.ofNat 32 (r.val + 1)

/-- Sixteen bytes into a general register pair: the lower-addressed half in the odd register (R79). -/
def Thread.setPair (x : Thread) (rd : GReg) (b : List Byte) : Thread :=
  (x.setGr rd (BitVec.ofNat 64 (fromLe (b.drop 8)))).setGr (oddOf rd) (BitVec.ofNat 64 (fromLe (b.take 8)))

/-- The sixteen bytes of a general register pair (R79). -/
def Thread.pair (x : Thread) (r : GReg) : List Byte := leBytes 8 (x.gr (oddOf r)).toNat ++ leBytes 8 (x.gr r).toNat

/-- Sixteen bytes into a floating-point register pair (R69, R79). -/
def Thread.setFpair (x : Thread) (fd : FReg) (b : List Byte) : Thread :=
  (x.setFr fd.val (BitVec.ofNat 64 (fromLe (b.drop 8)))).setFr (fd.val + 1) (BitVec.ofNat 64 (fromLe (b.take 8)))

/-- The sixteen bytes of a floating-point register pair (R69, R79). -/
def Thread.fpair (x : Thread) (r : FReg) : List Byte :=
  leBytes 8 (x.fr (r.val + 1)).toNat ++ leBytes 8 (x.fr r.val).toNat

/-- A load instruction of `n` bytes into registers (R79). -/
def State.loadInsn (s : State) (t op rd : Nat) (ra : GReg) (disp : BitVec 16) (n : Nat) (fp : Bool)
    (put : Thread → List Byte → Thread) : State :=
  s.ais t (info (encI op rd ra.val disp.toNat) 0 fp) fun s =>
    (s.load t ((s.thr t).ea ra disp) n fp).bind fun b s =>
      let x := s.thr t
      .ok (x.pc + 4) (s.setThr t (put x b))

/-- A store instruction of bytes from registers (R79). -/
def State.storeInsn (s : State) (t op rs : Nat) (ra : GReg) (disp : BitVec 16) (fp : Bool)
    (get : Thread → List Byte) : State :=
  s.ais t (info (encI op rs ra.val disp.toNat) 0 fp) fun s =>
    let x := s.thr t
    (s.store t (x.ea ra disp) (get x) fp).bind fun _ s => .ok (x.pc + 4) s

end Sys2Proof.Machine
end

