-- ==== Sys2Proof/Machine/Atomics.lean ====
section
/-! DEFINITION. The ATOM instructions (R81, R82, R187, R198 to R202). -/

namespace Sys2Proof.Machine

/-- Replace the address a fault names. -/
def Ex.renameAddr {α : Type} (sfa : Option Word) : Ex α → Ex α
  | .exc c s => .exc { c with addr := match sfa with | some a => some a | none => c.addr } s
  | e => e

/-- The checks of a piece at `va` that may lie only in memory (R82, R88, R89, R114 steps 6 to 9): its physical address. `sfa` names the address of a fault other than a Firebreak violation; `mis`: the access is not aligned as its instruction requires. -/
def State.checkMem (s : State) (t : Nat) (va : Word) (sfa : Option Word) (a : Acct) (kind : Nat) (mis : Bool) : Ex Nat :=
  ((s.translate t va a kind).renameAddr sfa).bind fun pa s =>
    if mis then .exc { code := 0x04, info := kind, addr := some (sfa.getD va) } s
    else if isMem pa = false then .exc { code := 0x11, info := kind, addr := some (sfa.getD va) } s
    else if s.memOk (s.part t) pa (a == .write) then .ok pa s
    else .exc { code := 0x24, info := kind, addr := some (BitVec.ofNat 64 pa) } (s.refuse 0 (s.part t) pa (a == .write))

/-- Own a line for an instruction that writes it at once; its poison is consumed where the instruction also reads (R463). -/
def State.ownLine (s : State) (t pa kind : Nat) (reads : Bool) : Ex Unit :=
  match s.reachOwned t pa with
  | (.ok, s) => if reads && (s.line (lineOf pa)).poison then .mchk pa kind s else .ok () s
  | (.err st, s) => s.lineErr st pa kind
  | (_, s) => .hold s

/-- The bytes of an owned line. -/
def State.lineRead (s : State) (pa n : Nat) : List Byte := lineBytes (s.line (lineOf pa)).data (pa % 256) n

/-- The SYNC before an ATOM instruction (R187): every earlier store is visible or accepted. -/
def State.syncBefore (s : State) (t : Nat) : Ex Unit := if (s.thr t).sb = [] then .ok () s else .hold s

/-- A thread writes an owned line itself: its own reservation on the granule goes (R201). -/
def State.writeSelf (s : State) (t pa : Nat) (bytes : List Byte) : State :=
  (s.writeOwned t pa bytes false).clearResv (lineOf pa) fun u => u == t

/-- An 8-byte atomic read and conditional write: `f` gives the new value, or none for no store; rd takes the old value (R81). (DEDUCED, notes/assumptions/14.md.) -/
def State.atom8 (s : State) (t fn : Nat) (rd ra rb : GReg) (f : Thread → Word → Option Word) : State :=
  s.ais t (info (encR 0x23 rd.val ra.val rb.val fn)) fun s =>
    let ea := (s.thr t).gr ra
    (s.checkMem t ea none .write 2 (ea.toNat % 8 != 0)).bind fun pa s =>
      (s.syncBefore t).bind fun _ s =>
        (s.ownLine t pa 2 true).bind fun _ s =>
          let old : Word := BitVec.ofNat 64 (fromLe (s.lineRead pa 8))
          let s := s.touch t (s.pcore t) 1 (lineOf pa)
          let s := match f (s.thr t) old with | some v => s.writeSelf t pa (leBytes 8 v.toNat) | none => s
          let x := s.thr t
          .ok (x.pc + 4) (s.setThr t (x.setGr rd old))

/-- LRSV: a load of 8 bytes that sets the thread's reservation, and starts what may be a constrained loop (R81, R201, R203). -/
def execLrsv (t : Thr) (rd ra : GReg) (s : State) : Host.Outcome State Fault Refusal :=
  .next (s.ais t.val (info (encR 0x23 rd.val ra.val 0 0x000) 0 false true) fun s =>
    let ea := (s.thr t.val).gr ra
    (s.checkMem t.val ea none .read 2 (ea.toNat % 8 != 0)).bind fun pa s =>
      (s.reachLine t.val 1 pa 2).bind fun _ s =>
        (s.readMem t.val pa 8 2).bind fun b s =>
          let x := (s.thr t.val).setGr rd (BitVec.ofNat 64 (fromLe b))
          .ok (x.pc + 4) (s.setThr t.val { x with resv := some (lineOf pa), defer := 16 }))

/-- STCD before its deferred snoops are served: the checks of a store, then a store if the reservation holds and covers the address; the reservation is cleared in both cases (R81, R202). -/
def State.stcd (s : State) (t : Nat) (rd ra rb : GReg) : State :=
  s.ais t (info (encR 0x23 rd.val ra.val rb.val 0x001)) fun s =>
    let ea := (s.thr t).gr ra
    (s.checkMem t ea none .write 2 (ea.toNat % 8 != 0)).bind fun pa s =>
      (s.syncBefore t).bind fun _ s =>
        let fin (s : State) (v : Word) : Ex Word :=
          let x := { (s.thr t).setGr rd v with resv := none, defer := 0 }
          .ok (x.pc + 4) (s.setThr t x)
        if (s.thr t).resv ≠ some (lineOf pa) then fin s 1
        else
          (s.ownLine t pa 2 false).bind fun _ s =>
            if (s.thr t).resv ≠ some (lineOf pa) then fin s 1
            else fin (s.writeOwned t pa (leBytes 8 ((s.thr t).gr rb).toNat) false) 0

/-- CASD: if the doubleword equals rd it is replaced by rb; rd takes the old value (R81). -/
def execCasd (t : Thr) (rd ra rb : GReg) (s : State) : Host.Outcome State Fault Refusal :=
  .next (s.atom8 t.val 0x002 rd ra rb fun x old => if old = x.gr rd then some (x.gr rb) else none)

/-- AADD: adds rb to the doubleword, modulo 2^64 (R81). -/
def execAadd (t : Thr) (rd ra rb : GReg) (s : State) : Host.Outcome State Fault Refusal :=
  .next (s.atom8 t.val 0x004 rd ra rb fun x old => some (old + x.gr rb))

/-- SWPD: replaces the doubleword by rb (R81). -/
def execSwpd (t : Thr) (rd ra rb : GReg) (s : State) : Host.Outcome State Fault Refusal :=
  .next (s.atom8 t.val 0x005 rd ra rb fun x _ => some (x.gr rb))

/-- AAND: and of the doubleword with rb (R81). -/
def execAand (t : Thr) (rd ra rb : GReg) (s : State) : Host.Outcome State Fault Refusal :=
  .next (s.atom8 t.val 0x006 rd ra rb fun x old => some (old &&& x.gr rb))

/-- AOR: or of the doubleword with rb (R81). -/
def execAor (t : Thr) (rd ra rb : GReg) (s : State) : Host.Outcome State Fault Refusal :=
  .next (s.atom8 t.val 0x007 rd ra rb fun x old => some (old ||| x.gr rb))

/-- The physical addresses of the two halves of a CASQ, its first piece checked before its second (R80, R82). -/
def State.casqHalves (s : State) (t : Nat) (ea : Word) : Ex (Nat × Nat) :=
  (s.checkMem t ea none .write 2 (ea.toNat % 8 != 0)).bind fun p s =>
    if ea.toNat % 256 = 248 then
      (s.checkMem t (ea + 8) none .write 2 false).bind fun q s => .ok (p, q) s
    else .ok (p, p + 8) s

/-- CASQ: as CASD on 16 bytes and even register pairs. Where it is split (R198, R199) its two loads come first and its two stores last; no other agent's store comes between them in this model, which R199 allows. -/
def execCasq (t : Thr) (rd ra rb : GReg) (s : State) : Host.Outcome State Fault Refusal :=
  .next (s.ais t.val (info (encR 0x23 rd.val ra.val rb.val 0x003)) fun s =>
    (s.casqHalves t.val ((s.thr t.val).gr ra)).bind fun pq s =>
      (s.syncBefore t.val).bind fun _ s =>
        (s.ownLine t.val pq.1 2 true).bind fun _ s =>
          (s.ownLine t.val pq.2 2 true).bind fun _ s =>
            if s.accWrite (lineOf pq.1) ≠ LineAcc.ok then .hold s
            else
              let old := s.lineRead pq.1 8 ++ s.lineRead pq.2 8
              let x := s.thr t.val
              let s := (s.touch t.val (s.pcore t.val) 1 (lineOf pq.1)).touch t.val (s.pcore t.val) 1 (lineOf pq.2)
              let s :=
                if old = x.pair rd then
                  (s.writeSelf t.val pq.1 ((x.pair rb).take 8)).writeSelf t.val pq.2 ((x.pair rb).drop 8)
                else s
              let y := s.thr t.val
              .ok (y.pc + 4) (s.setThr t.val (y.setPair rd old)))

end Sys2Proof.Machine
end

