-- ==== Sys2Proof/Machine/ColFormat.lean ====
section
/-! DEFINITION. The formats of the column engine: values, run blocks, directory entries, job descriptors, tokens, predicates (R385 to R396, R401 to R407). -/

namespace Sys2Proof.Machine

/-! Values (R385). -/

/-- W of a format byte. -/
def fmtW (f : Nat) : Nat := 2 ^ (f % 4)

/-- L of a format byte. -/
def fmtL (f : Nat) : Nat := 2 ^ (f / 8 % 4)

/-- SIGNED of a format byte. -/
def fmtSigned (f : Nat) : Bool := bitOf f 2

/-- A value of `w` bytes extended (R385). -/
def colExt (sg : Bool) (w x : Nat) : Int := if sg then sextNat (8 * w) x else (x : Int)

/-- An extended value as 64 bits. -/
def colBits (x : Int) : Nat := (x % 2 ^ 64).toNat

/-- Round up to a multiple. -/
def roundUp (x m : Nat) : Nat := (x + m - 1) / m * m

/-- The little-endian values of `w` bytes a byte string holds, `n` at most. -/
def splitLe (w : Nat) : Nat → List Byte → List Nat
  | 0, _ => []
  | n + 1, b => fromLe (b.take w) :: splitLe w n (b.drop w)

/-! Run blocks (R386 to R388). -/

/-- LOFF of a block. -/
def blkLoff (w nruns : Nat) : Nat := 0x20 + roundUp (nruns * w) 8

/-- BLEN of a block. -/
def blkLen (w l nruns : Nat) : Nat := roundUp (blkLoff w nruns + nruns * l) 16

/-- The maximal runs of a row sequence: value and length (R388). -/
def runsOf : List Nat → List (Nat × Nat)
  | [] => []
  | x :: t =>
    match runsOf t with
    | (y, n) :: r => if x = y then (y, n + 1) :: r else (x, 1) :: (y, n) :: r
    | [] => [(x, 1)]

/-- The CRC over the bytes before and after a field of four bytes at `o`. -/
def crcAround (b : List Byte) (o : Nat) : Nat := (crc32c (b.take o ++ b.drop (o + 4))).toNat

/-- A block of rows that starts at `first` (R386, R388): its bytes, with its format byte. -/
def encodeBlock (fmt first : Nat) (rows : List Nat) : Nat × List Byte :=
  let runs := runsOf rows
  let f := fmt % 8 + (if runs.all fun r => decide (r.2 ≤ 256) then 0 else 8)
  let w := fmtW f
  let l := fmtL f
  let n := blkLen w l runs.length
  let head := leBytes 2 0x5243 ++ [1, BitVec.ofNat 8 f] ++ leBytes 4 rows.length ++ leBytes 4 runs.length ++ leBytes 4 n ++ leBytes 8 first
    ++ leBytes 4 0
  let vals := runs.flatMap fun r => leBytes w r.1
  let lens := runs.flatMap fun r => leBytes l (r.2 - 1)
  let vpad := vals ++ List.replicate (blkLoff w runs.length - 0x20 - vals.length) 0
  let body := vpad ++ lens ++ List.replicate (n - blkLoff w runs.length - lens.length) 0
  (f, head ++ leBytes 4 (crc32c (head ++ body)).toNat ++ body)

/-! Directory entries (R389, R390). -/

/-- A directory entry. -/
structure DirEnt where
  first : Nat
  boff : Nat
  minv : Nat
  maxv : Nat
  nrows : Nat
  fmt : Nat
  blen : Nat
  deriving DecidableEq, Repr

/-- The 48 bytes of an entry. -/
def DirEnt.bytes (e : DirEnt) : List Byte :=
  let b := leBytes 8 e.first ++ leBytes 8 e.boff ++ leBytes 8 e.minv ++ leBytes 8 e.maxv ++ leBytes 4 e.nrows ++ leBytes 1 e.fmt
    ++ leBytes 3 0 ++ leBytes 4 e.blen
  b ++ leBytes 4 (crc32c b).toNat

/-- The fields of an entry's bytes. -/
def dirOf (b : List Byte) : DirEnt :=
  ⟨le64At b 0, le64At b 8, le64At b 0x10, le64At b 0x18, le32At b 0x20, byteAt b 0x24, le32At b 0x28⟩

/-- An entry that meets R390 by itself, for a job of format `fmt`. -/
def dirOk (fmt : Nat) (b : List Byte) : Bool :=
  let e := dirOf b
  let sg := fmtSigned fmt
  le32At b 0x2C == (crc32c (b.take 0x2C)).toNat && fromLe ((b.drop 0x25).take 3) == 0
    && e.boff % 16 == 0 && decide (e.boff < 2 ^ 47) && decide (1 ≤ e.nrows) && decide (e.nrows ≤ 65536)
    && decide (e.fmt < 0x18) && e.blen % 16 == 0 && decide (48 ≤ e.blen) && decide (e.blen ≤ blkLen (fmtW e.fmt) (fmtL e.fmt) e.nrows)
    && decide (colExt sg 8 e.minv ≤ colExt sg 8 e.maxv)

/-- The least and the greatest of extended values. -/
def minMax (sg : Bool) (w : Nat) (l : List Nat) : Int × Int :=
  match l with
  | [] => (0, 0)
  | x :: t => t.foldl (fun p y => (min p.1 (colExt sg w y), max p.2 (colExt sg w y))) (colExt sg w x, colExt sg w x)

/-- The runs of a block read whole, where it passes R387 for its entry and the job's format. -/
def decodeBlock (fmt : Nat) (e : DirEnt) (b : List Byte) : Option (List (Nat × Nat)) :=
  let f := byteAt b 3
  let w := fmtW f
  let l := fmtL f
  let nrows := le32At b 4
  let n := le32At b 8
  let blen := le32At b 0xC
  if le16At b 0 ≠ 0x5243 ∨ byteAt b 2 ≠ 1 ∨ le32At b 0x18 ≠ 0 ∨ 0x18 ≤ f ∨ f % 8 ≠ fmt % 8 ∨ nrows = 0 ∨ 65536 < nrows ∨ n = 0 ∨ nrows < n
      ∨ blen ≠ blkLen w l n ∨ le64At b 0x10 ≠ e.first ∨ nrows ≠ e.nrows ∨ f ≠ e.fmt ∨ blen ≠ e.blen ∨ le32At b 0x1C ≠ crcAround b 0x1C then none
  else
    let vals := splitLe w n (b.drop 0x20)
    let lens := (splitLe l n (b.drop (blkLoff w n))).map (· + 1)
    let mm := minMax (fmtSigned fmt) w vals
    let pad := fromLe ((b.drop (0x20 + n * w)).take (blkLoff w n - 0x20 - n * w)) + fromLe (b.drop (blkLoff w n + n * l))
    if pad ≠ 0 ∨ lens.foldl (· + ·) 0 ≠ nrows ∨ colBits mm.1 ≠ e.minv ∨ colBits mm.2 ≠ e.maxv then none
    else some (vals.zip lens)

/-! Job descriptors (R394, R395). -/

def cdType (d : List Byte) : Nat := byteAt d 0
def cdFmt (d : List Byte) : Nat := byteAt d 1
def cdTag (d : List Byte) : Nat := le16At d 2
def cdResume (d : List Byte) : Bool := bitOf (byteAt d 4) 0
def cdOut (d : List Byte) : Nat := byteAt d 4 / 2 % 4
def cdOp (d : List Byte) : Nat := byteAt d 6 % 16
def cdLopen (d : List Byte) : Bool := bitOf (byteAt d 6) 4
def cdHopen (d : List Byte) : Bool := bitOf (byteAt d 6) 5
def cdNval (d : List Byte) : Nat := byteAt d 7
def cdRow0 (d : List Byte) : Nat := le64At d 8
def cdNrows (d : List Byte) : Nat := le64At d 0x10
def cdIn (d : List Byte) : Nat := le64At d 0x18
def cdNent (d : List Byte) : Nat := le32At d 0x20
def cdBlk (d : List Byte) : Nat := le32At d 0x24
def cdOutOff (d : List Byte) : Nat := le64At d 0x28
def cdOlen (d : List Byte) : Nat := le64At d 0x30
def cdDirOff (d : List Byte) : Nat := le64At d 0x38
def cdDlen (d : List Byte) : Nat := le64At d 0x40
def cdBm (d : List Byte) : Nat := le64At d 0x48
def cdStat (d : List Byte) : Nat := le64At d 0x50
def cdTok (d : List Byte) : Nat := le64At d 0x58
def cdTin (d : List Byte) : Nat := le64At d 0x60
def cdVal (d : List Byte) (i : Nat) : Nat := le64At d (0x80 + 8 * i)

/-- One past the last row of a job. -/
def cdEnd (d : List Byte) : Nat := cdRow0 d + cdNrows d

/-- The bytes of a job's input at INOFF. -/
def cdInLen (d : List Byte) : Nat := if cdType d = 1 then cdNrows d * fmtW (cdFmt d) else cdNent d * 48

/-- The values a predicate uses (R401). -/
def opUses (d : List Byte) : Nat :=
  let op := cdOp d
  if op = 0 then 0 else if op ≤ 6 then 1 else if op = 7 then 2 else cdNval d

/-- An area starts aligned and lies below slice offset 2^47. -/
def areaOk (off align len : Nat) : Bool := off % align == 0 && decide (off < 2 ^ 47) && decide (off + len ≤ 2 ^ 47)

/-- STATOFF passes R395. -/
def cdStatOk (d : List Byte) : Bool := areaOk (cdStat d) 64 64

/-- The offsets of a descriptor's failing fields, ascending (R394, R395, R401). BMBASE of a resumed job is checked with its token (R407). (DEDUCED, notes/assumptions/51.md.) -/
def cdBad (d : List Byte) : List Nat :=
  let ty := cdType d
  let w := fmtW (cdFmt d)
  let scan := ty == 3
  let comp := ty == 1
  let fl := le16At d 4
  let bad (o : Nat) (ok : Bool) : List Nat := if ok then [] else [o]
  bad 0x00 (decide (1 ≤ ty) && decide (ty ≤ 3))
    ++ bad 0x01 (decide (cdFmt d < 8))
    ++ bad 0x04 (decide (fl < 8) && (if scan then decide (cdOut d ≠ 3) else cdOut d == 0))
    ++ bad 0x06 (if scan then decide (byteAt d 6 < 64) && decide (cdOp d ≤ 9) && (cdOp d == 7 || (!cdLopen d && !cdHopen d)) else byteAt d 6 == 0)
    ++ bad 0x07 (if scan && (cdOp d == 8 || cdOp d == 9) then decide (1 ≤ cdNval d) && decide (cdNval d ≤ 16) else cdNval d == 0)
    ++ bad 0x08 (decide (cdRow0 d ≤ 2 ^ 48))
    ++ bad 0x10 (decide (2 ^ 48 < cdRow0 d) || decide (cdEnd d ≤ 2 ^ 48))
    ++ bad 0x18 (areaOk (cdIn d) (if comp then w else 16) (cdInLen d))
    ++ bad 0x20 (!comp || cdNent d == 0)
    ++ bad 0x24 (if comp then decide (1 ≤ cdBlk d) && decide (cdBlk d ≤ 65536) else cdBlk d == 0)
    ++ bad 0x28 (if comp then areaOk (cdOutOff d) 16 (cdOlen d)
        else if scan then
          (if cdOut d = 0 then cdOutOff d == 0 else areaOk (cdOutOff d) (if cdOut d = 2 then 8 else 1) (cdOlen d))
        else areaOk (cdOutOff d) w (cdOlen d))
    ++ bad 0x30 (if comp then cdOlen d % 16 == 0
        else if scan then (if cdOut d = 0 then cdOlen d == 0 else cdOut d != 2 || cdOlen d % 8 == 0)
        else cdOlen d % w == 0)
    ++ bad 0x38 (if comp then areaOk (cdDirOff d) 16 (cdDlen d) else cdDirOff d == 0)
    ++ bad 0x40 (comp || cdDlen d == 0)
    ++ bad 0x48 (if scan && cdOut d == 1 then cdResume d || decide (cdBm d ≤ cdRow0 d) else cdBm d == 0)
    ++ bad 0x50 (cdStatOk d)
    ++ bad 0x58 (areaOk (cdTok d) 16 48)
    ++ bad 0x60 (if cdResume d then areaOk (cdTin d) 16 48 else cdTin d == 0)
    ++ bad 0x68 (fromLe ((d.drop 0x68).take 20) == 0)
    ++ bad 0x7C (le32At d 0x7C == crcAround d 0x7C)
    ++ ((List.range 16).filter fun i => decide ((if scan then opUses d else 0) ≤ i) && cdVal d i != 0).map fun i => 0x80 + 8 * i

/-- Two areas share a byte. -/
def overlaps (a b : Nat × Nat) : Bool := decide (0 < a.2) && decide (0 < b.2) && decide (a.1 < b.1 + b.2) && decide (b.1 < a.1 + a.2)

/-- Some two areas of a list overlap. -/
def anyOverlap : List (Nat × Nat) → Bool
  | [] => false
  | a :: t => t.any (overlaps a) || anyOverlap t

/-- The areas a job writes (R396). -/
def cdWrites (d : List Byte) : List (Nat × Nat) :=
  [(cdOutOff d, cdOlen d), (cdDirOff d, cdDlen d), (cdStat d, 64), (cdTok d, 48)]

/-- Every area of a job; `desc` is the descriptor's offset. -/
def cdAreas (desc : Nat) (d : List Byte) : List (Nat × Nat) :=
  [(desc, 256), (cdTin d, if cdResume d then 48 else 0), (cdIn d, cdInLen d)] ++ cdWrites d

/-! Tokens (R406, R407). -/

/-- The 48 bytes of a token. -/
def tokenBytes (ty entry row count sum : Nat) : List Byte :=
  let b := leBytes 1 ty ++ leBytes 1 1 ++ leBytes 2 0 ++ leBytes 4 entry ++ leBytes 8 row ++ leBytes 8 count ++ leBytes 16 sum ++ leBytes 4 0
  b ++ leBytes 4 (crc32c b).toNat

/-- A token is accepted, but for the entry it names (R407). -/
def tokenOk (d t : List Byte) : Bool :=
  let row := le64At t 8
  let scan := cdType d == 3
  le32At t 0x2C == (crc32c (t.take 0x2C)).toNat && byteAt t 1 == 1 && byteAt t 0 == cdType d && le16At t 2 == 0 && le32At t 0x28 == 0
    && (scan || (le64At t 0x10 == 0 && fromLe ((t.drop 0x18).take 16) == 0))
    && decide (cdRow0 d ≤ row) && decide (row < cdEnd d) && (cdType d == 1 || decide (le32At t 4 < cdNent d))

/-! Predicates (R401, R402). -/

/-- VAL(i) under the job's signedness. -/
def predVal (d : List Byte) (i : Nat) : Int := colExt (fmtSigned (cdFmt d)) 8 (cdVal d i)

/-- The set of IN and NOTIN. -/
def predSet (d : List Byte) : List Int := (List.range (cdNval d)).map (predVal d)

/-- The predicate holds of a value (R401). -/
def predHolds (d : List Byte) (x : Int) : Bool :=
  let v := predVal d 0
  match cdOp d with
  | 0 => true
  | 1 => x == v
  | 2 => x != v
  | 3 => decide (x < v)
  | 4 => decide (x ≤ v)
  | 5 => decide (v < x)
  | 6 => decide (v ≤ x)
  | 7 => (if cdLopen d then decide (v < x) else decide (v ≤ x)) && (if cdHopen d then decide (x < predVal d 1) else decide (x ≤ predVal d 1))
  | 8 => (predSet d).contains x
  | _ => !(predSet d).contains x

/-- Some value from `a` to `b` satisfies the predicate (R402). -/
def predPossible (d : List Byte) (a b : Int) : Bool :=
  let v := predVal d 0
  match cdOp d with
  | 0 => decide (a ≤ b)
  | 1 => decide (a ≤ v) && decide (v ≤ b)
  | 2 => decide (a ≤ b) && !(a == v && b == v)
  | 3 => decide (a ≤ b) && decide (a < v)
  | 4 => decide (a ≤ b) && decide (a ≤ v)
  | 5 => decide (a ≤ b) && decide (v < b)
  | 6 => decide (a ≤ b) && decide (v ≤ b)
  | 7 =>
    let lo := if cdLopen d then v + 1 else v
    let hi := if cdHopen d then predVal d 1 - 1 else predVal d 1
    decide (max a lo ≤ min b hi)
  | 8 => (predSet d).any fun x => decide (a ≤ x) && decide (x ≤ b)
  | _ =>
    let hit := ((predSet d).filter fun x => decide (a ≤ x) && decide (x ≤ b)).eraseDups
    decide ((hit.length : Int) < b - a + 1)

end Sys2Proof.Machine
end

