-- ==== Sys2Proof/Machine/Crypto.lean ====
section
/-! DEFINITION. The standard algorithms the spec names: SHA-384 (FIPS 180-4), ECDSA and ECDH over P-384 (FIPS 186-5, SP 800-56A), AES and its modes (FIPS 197, SP 800-38A, B, D, E, F) (R31, R60, R413, R421). The spec cites them; their text is not part of it (notes/assumptions/7.md). -/

namespace Sys2Proof.Machine

/-! SHA-384. -/

/-- Round constants 0 to 15. -/
def shaK0 : List (BitVec 64) :=
  [0x428a2f98d728ae22#64, 0x7137449123ef65cd#64, 0xb5c0fbcfec4d3b2f#64, 0xe9b5dba58189dbbc#64,
   0x3956c25bf348b538#64, 0x59f111f1b605d019#64, 0x923f82a4af194f9b#64, 0xab1c5ed5da6d8118#64,
   0xd807aa98a3030242#64, 0x12835b0145706fbe#64, 0x243185be4ee4b28c#64, 0x550c7dc3d5ffb4e2#64,
   0x72be5d74f27b896f#64, 0x80deb1fe3b1696b1#64, 0x9bdc06a725c71235#64, 0xc19bf174cf692694#64]

/-- Round constants 16 to 31. -/
def shaK1 : List (BitVec 64) :=
  [0xe49b69c19ef14ad2#64, 0xefbe4786384f25e3#64, 0x0fc19dc68b8cd5b5#64, 0x240ca1cc77ac9c65#64,
   0x2de92c6f592b0275#64, 0x4a7484aa6ea6e483#64, 0x5cb0a9dcbd41fbd4#64, 0x76f988da831153b5#64,
   0x983e5152ee66dfab#64, 0xa831c66d2db43210#64, 0xb00327c898fb213f#64, 0xbf597fc7beef0ee4#64,
   0xc6e00bf33da88fc2#64, 0xd5a79147930aa725#64, 0x06ca6351e003826f#64, 0x142929670a0e6e70#64]

/-- Round constants 32 to 47. -/
def shaK2 : List (BitVec 64) :=
  [0x27b70a8546d22ffc#64, 0x2e1b21385c26c926#64, 0x4d2c6dfc5ac42aed#64, 0x53380d139d95b3df#64,
   0x650a73548baf63de#64, 0x766a0abb3c77b2a8#64, 0x81c2c92e47edaee6#64, 0x92722c851482353b#64,
   0xa2bfe8a14cf10364#64, 0xa81a664bbc423001#64, 0xc24b8b70d0f89791#64, 0xc76c51a30654be30#64,
   0xd192e819d6ef5218#64, 0xd69906245565a910#64, 0xf40e35855771202a#64, 0x106aa07032bbd1b8#64]

/-- Round constants 48 to 63. -/
def shaK3 : List (BitVec 64) :=
  [0x19a4c116b8d2d0c8#64, 0x1e376c085141ab53#64, 0x2748774cdf8eeb99#64, 0x34b0bcb5e19b48a8#64,
   0x391c0cb3c5c95a63#64, 0x4ed8aa4ae3418acb#64, 0x5b9cca4f7763e373#64, 0x682e6ff3d6b2b8a3#64,
   0x748f82ee5defb2fc#64, 0x78a5636f43172f60#64, 0x84c87814a1f0ab72#64, 0x8cc702081a6439ec#64,
   0x90befffa23631e28#64, 0xa4506cebde82bde9#64, 0xbef9a3f7b2c67915#64, 0xc67178f2e372532b#64]

/-- Round constants 64 to 79. -/
def shaK4 : List (BitVec 64) :=
  [0xca273eceea26619c#64, 0xd186b8c721c0c207#64, 0xeada7dd6cde0eb1e#64, 0xf57d4f7fee6ed178#64,
   0x06f067aa72176fba#64, 0x0a637dc5a2c898a6#64, 0x113f9804bef90dae#64, 0x1b710b35131c471b#64,
   0x28db77f523047d84#64, 0x32caab7b40c72493#64, 0x3c9ebe0a15c9bebc#64, 0x431d67c49c100d4c#64,
   0x4cc5d4becb3e42b6#64, 0x597f299cfc657e2a#64, 0x5fcb6fab3ad6faec#64, 0x6c44198c4a475817#64]

/-- The initial hash value. -/
def shaInit : List (BitVec 64) :=
  [0xcbbb9d5dc1059ed8#64, 0x629a292a367cd507#64, 0x9159015a3070dd17#64, 0x152fecd8f70e5939#64,
   0x67332667ffc00b31#64, 0x8eb44a8768581511#64, 0xdb0c2e0d64f98fa7#64, 0x47b5481dbefa4fa4#64]

/-- The round constants. -/
def shaK : List (BitVec 64) := shaK0 ++ shaK1 ++ shaK2 ++ shaK3 ++ shaK4

/-- The working variables a to h. -/
structure ShaVars where
  a : BitVec 64
  b : BitVec 64
  c : BitVec 64
  d : BitVec 64
  e : BitVec 64
  f : BitVec 64
  g : BitVec 64
  h : BitVec 64

/-- Rotate right. -/
def rotr (x : BitVec 64) (n : Nat) : BitVec 64 := (x >>> n) ||| (x <<< (64 - n))

/-- One round with its constant and its schedule word. -/
def shaRound (v : ShaVars) (k w : BitVec 64) : ShaVars :=
  let s1 := rotr v.e 14 ^^^ rotr v.e 18 ^^^ rotr v.e 41
  let ch := (v.e &&& v.f) ^^^ (~~~ v.e &&& v.g)
  let t1 := v.h + s1 + ch + k + w
  let s0 := rotr v.a 28 ^^^ rotr v.a 34 ^^^ rotr v.a 39
  let maj := (v.a &&& v.b) ^^^ (v.a &&& v.c) ^^^ (v.b &&& v.c)
  ⟨t1 + (s0 + maj), v.a, v.b, v.c, v.d + t1, v.e, v.f, v.g⟩

/-- Rounds over the constants; the window holds the next sixteen schedule words. -/
def shaRounds : List (BitVec 64) → List (BitVec 64) → ShaVars → ShaVars
  | [], _, v => v
  | k :: ks, win, v =>
    let at_ (i : Nat) : BitVec 64 := (win[i]?).getD 0
    let w1 := at_ 1
    let w14 := at_ 14
    let n := at_ 0 + (rotr w1 1 ^^^ rotr w1 8 ^^^ (w1 >>> 7)) + at_ 9 + (rotr w14 19 ^^^ rotr w14 61 ^^^ (w14 >>> 6))
    shaRounds ks (win.drop 1 ++ [n]) (shaRound v k (at_ 0))

/-- The words of a byte string, big-endian, `n` of them. -/
def beWords : Nat → List (BitVec 8) → List (BitVec 64)
  | 0, _ => []
  | n + 1, b => BitVec.ofNat 64 (fromBe (b.take 8)) :: beWords n (b.drop 8)

/-- Process one block of 128 bytes. -/
def shaBlock (h : List (BitVec 64)) (b : List (BitVec 8)) : List (BitVec 64) :=
  let at_ (i : Nat) : BitVec 64 := (h[i]?).getD 0
  let v := shaRounds shaK (beWords 16 b) ⟨at_ 0, at_ 1, at_ 2, at_ 3, at_ 4, at_ 5, at_ 6, at_ 7⟩
  [at_ 0 + v.a, at_ 1 + v.b, at_ 2 + v.c, at_ 3 + v.d, at_ 4 + v.e, at_ 5 + v.f, at_ 6 + v.g, at_ 7 + v.h]

/-- Process `n` blocks. -/
def shaBlocks : Nat → List (BitVec 64) → List (BitVec 8) → List (BitVec 64)
  | 0, h, _ => h
  | n + 1, h, b => shaBlocks n (shaBlock h (b.take 128)) (b.drop 128)

/-- A message with its padding. -/
def shaPad (b : List (BitVec 8)) : List (BitVec 8) :=
  let z := (111 + 128 - b.length % 128) % 128
  b ++ [0x80] ++ List.replicate z 0 ++ beBytes 16 (8 * b.length)

/-- SHA-384 of a byte string: 48 bytes. -/
def sha384 (b : List (BitVec 8)) : List (BitVec 8) :=
  let p := shaPad b
  ((shaBlocks (p.length / 128) shaInit p).take 6).flatMap fun w => beBytes 8 w.toNat

/-! P-384. -/

/-- The field prime. -/
def p384P : Nat := 2 ^ 384 - 2 ^ 128 - 2 ^ 96 + 2 ^ 32 - 1

/-- The coefficient b; a is −3. -/
def p384B : Nat := 0xb3312fa7e23ee7e4988e056be3f82d19181d9c6efe8141120314088f5013875ac656398d8a2ed19d2a85c8edd3ec2aef

/-- The order of the base point. -/
def p384N : Nat := 0xffffffffffffffffffffffffffffffffffffffffffffffffc7634d81f4372ddf581a0db248b0a77aecec196accc52973

/-- The base point. -/
def p384G : Nat × Nat :=
  (0xaa87ca22be8b05378eb1c71ef320ad746e1d3b628ba79b9859f741e082542a385502f25dbf55296c3a545e3872760ab7,
   0x3617de4a96262c6f5d9e98bf9292dc29f8f41dbd289a147ce9da3113b5f0b8c00a60b1ce1d7e819d7a431d7c90ea0e5f)

/-- A power modulo `m`, over the low `k` bits of the exponent. -/
def powMod (m : Nat) : Nat → Nat → Nat → Nat
  | 0, _, _ => 1 % m
  | k + 1, b, e => (if e % 2 = 1 then b else 1) * powMod m k (b * b % m) (e / 2) % m

/-- The inverse modulo a prime of 384 bits. -/
def invMod (m x : Nat) : Nat := powMod m 384 (x % m) (m - 2)

/-- A point in affine coordinates; none is the point at infinity. -/
abbrev EcPoint := Option (Nat × Nat)

/-- A valid public point: coordinates below p, on the curve (SP 800-56A, SEC 1). -/
def ecValid (x y : Nat) : Bool :=
  decide (x < p384P) && decide (y < p384P) && (y * y % p384P == (x * x * x + (p384P - 3) * x + p384B) % p384P)

/-- A point in Jacobian coordinates: (X / Z², Y / Z³), at infinity where Z is 0. -/
structure JPoint where
  x : Nat
  y : Nat
  z : Nat

/-- The point at infinity. -/
def JPoint.zero : JPoint := ⟨1, 1, 0⟩

/-- A point from its affine coordinates. -/
def JPoint.ofAffine : EcPoint → JPoint
  | some (x, y) => ⟨x, y, 1⟩
  | none => .zero

/-- The affine coordinates of a point. -/
def JPoint.affine (q : JPoint) : EcPoint :=
  let p := p384P
  if q.z = 0 then none
  else
    let w := invMod p q.z
    let w2 := w * w % p
    some (q.x * w2 % p, q.y * (w2 * w % p) % p)

/-- Point doubling; the curve has a = −3. -/
def JPoint.double (q : JPoint) : JPoint :=
  let p := p384P
  let zz := q.z * q.z % p
  let yy := q.y * q.y % p
  let u := 4 * q.x * yy % p
  let m := 3 * (q.x + p - zz) * (q.x + zz) % p
  let x := (m * m + 2 * p - 2 * u) % p
  ⟨x, (m * (u + p - x) + 8 * p - 8 * (yy * yy % p)) % p, 2 * q.y * q.z % p⟩

/-- Point addition. -/
def JPoint.add (a b : JPoint) : JPoint :=
  let p := p384P
  if a.z = 0 then b
  else if b.z = 0 then a
  else
    let za := a.z * a.z % p
    let zb := b.z * b.z % p
    let u := a.x * zb % p
    let v := a.y * zb * b.z % p
    let h := (b.x * za + p - u) % p
    let r := (b.y * za * a.z + p - v) % p
    if h = 0 then (if r = 0 then a.double else .zero)
    else
      let hh := h * h % p
      let g := hh * h % p
      let k := u * hh % p
      let x := (r * r + 3 * p - g - 2 * k) % p
      ⟨x, (r * (k + p - x) + p - v * g % p) % p, h * a.z * b.z % p⟩

/-- A multiple of a point, over the low `k` bits of the scalar. -/
def JPoint.mul : Nat → Nat → JPoint → JPoint
  | 0, _, _ => .zero
  | k + 1, n, q => (if n % 2 = 1 then q else .zero).add (JPoint.mul k (n / 2) q.double)

/-- A multiple of a point by a scalar of 384 bits. -/
def ecMul (n : Nat) (q : EcPoint) : EcPoint := ((JPoint.ofAffine q).mul 384 n).affine

/-- The sum of two multiples of points. -/
def ecSum (m : Nat) (a : EcPoint) (n : Nat) (b : EcPoint) : EcPoint :=
  (((JPoint.ofAffine a).mul 384 m).add ((JPoint.ofAffine b).mul 384 n)).affine

/-- ECDSA verification of a hash by a public key. -/
def ecdsaOk (qx qy : Nat) (hash : List (BitVec 8)) (r s : Nat) : Bool :=
  let n := p384N
  if ecValid qx qy = false ∨ r = 0 ∨ n ≤ r ∨ s = 0 ∨ n ≤ s then false
  else
    let w := invMod n s
    let u1 := fromBe hash * w % n
    let u2 := r * w % n
    match ecSum u1 (some p384G) u2 (some (qx, qy)) with
    | some (x, _) => x % n == r
    | none => false

/-- The public point of a private key. -/
def ecPublic (d : Nat) : EcPoint := ecMul d (some p384G)

/-- The x coordinate of an ECDH product; none at infinity. -/
def ecdhX (d x y : Nat) : Option Nat := (ecMul d (some (x, y))).map (·.1)

/-! AES. -/

/-- Multiply by x in the field of AES. -/
def aesXtime (b : BitVec 8) : BitVec 8 := (b <<< 1) ^^^ (if b.getLsbD 7 then 0x1b#8 else 0)

/-- Multiply in the field of AES, over the low `k` bits of `n`. -/
def aesMulN : Nat → BitVec 8 → Nat → BitVec 8
  | 0, _, _ => 0
  | k + 1, b, n => (if n % 2 = 1 then b else 0) ^^^ aesMulN k (aesXtime b) (n / 2)

/-- Multiply in the field of AES. -/
def aesMul (a b : BitVec 8) : BitVec 8 := aesMulN 8 a b.toNat

/-- The inverse in the field of AES, 0 for 0: the power 254. -/
def aesInv (a : BitVec 8) : BitVec 8 :=
  let a2 := aesMul a a
  let a3 := aesMul a2 a
  let a12 := aesMul (aesMul a3 a3) (aesMul a3 a3)
  let a15 := aesMul a12 a3
  let sq (x : BitVec 8) : BitVec 8 := aesMul x x
  let a240 := sq (sq (sq (sq a15)))
  aesMul (aesMul a240 a12) a2

/-- Rotate a byte left. -/
def rotl8 (b : BitVec 8) (n : Nat) : BitVec 8 := (b <<< n) ||| (b >>> (8 - n))

/-- SubBytes of a byte. -/
def aesSub (a : BitVec 8) : BitVec 8 :=
  let b := aesInv a
  b ^^^ rotl8 b 1 ^^^ rotl8 b 2 ^^^ rotl8 b 3 ^^^ rotl8 b 4 ^^^ 0x63#8

/-- InvSubBytes of a byte. -/
def aesInvSub (a : BitVec 8) : BitVec 8 := aesInv (rotl8 a 1 ^^^ rotl8 a 3 ^^^ rotl8 a 6 ^^^ 0x05#8)

/-- Exclusive or of byte strings, as long as the shorter. -/
def xorBytes (a b : List (BitVec 8)) : List (BitVec 8) := List.zipWith (· ^^^ ·) a b

/-- Extend a key schedule by `n` words: `i` the index of the next word, `nk` the words of the key, `rc` the next round constant, the words newest first. -/
def aesExpand (nk : Nat) : Nat → Nat → BitVec 8 → List (List (BitVec 8)) → List (List (BitVec 8))
  | 0, _, _, ws => ws
  | n + 1, i, rc, ws =>
    let t := ws.headD []
    let first := i % nk == 0
    let t := if first then xorBytes ((t.drop 1 ++ t.take 1).map aesSub) [rc, 0, 0, 0]
      else if nk == 8 && i % 8 == 4 then t.map aesSub else t
    aesExpand nk n (i + 1) (if first then aesXtime rc else rc) (xorBytes ((ws[nk - 1]?).getD []) t :: ws)

/-- Cut a byte string into pieces of `w` bytes, `n` at most. -/
def chop (w : Nat) : Nat → List (BitVec 8) → List (List (BitVec 8))
  | 0, _ => []
  | n + 1, b => if b = [] then [] else b.take w :: chop w n (b.drop w)

/-- The round keys of a key of 16 or 32 bytes, 16 bytes each. -/
def aesKeys (key : List (BitVec 8)) : List (List (BitVec 8)) :=
  let nk := key.length / 4
  let ws := aesExpand nk (4 * (nk + 7) - nk) nk 1 (chop 4 8 key).reverse
  chop 16 15 ws.reverse.flatten

/-- ShiftRows: byte 4c + r comes from column c + r. -/
def aesShift (b : List (BitVec 8)) (dir : Nat) : List (BitVec 8) :=
  (List.range 16).map fun i => (b[(i + dir * 4 * (i % 4)) % 16]?).getD 0

/-- MixColumns with a row of coefficients. -/
def aesMix (co : List (BitVec 8)) (b : List (BitVec 8)) : List (BitVec 8) :=
  (List.range 16).map fun i =>
    (List.range 4).foldl (fun x k => x ^^^ aesMul ((b[i / 4 * 4 + k]?).getD 0) ((co[(k + 4 - i % 4) % 4]?).getD 0)) 0

/-- The rounds after the first key addition. -/
def aesRounds : List (List (BitVec 8)) → List (BitVec 8) → List (BitVec 8)
  | [], b => b
  | k :: ks, b =>
    let b := aesShift (b.map aesSub) 1
    aesRounds ks (xorBytes (if ks.isEmpty then b else aesMix [2, 3, 1, 1] b) k)

/-- Encrypt a block. -/
def aesEnc (keys : List (List (BitVec 8))) (b : List (BitVec 8)) : List (BitVec 8) :=
  aesRounds (keys.drop 1) (xorBytes b (keys.headD []))

/-- The inverse rounds, keys from the last. -/
def aesInvRounds : List (List (BitVec 8)) → List (BitVec 8) → List (BitVec 8)
  | [], b => b
  | k :: ks, b =>
    let b := xorBytes ((aesShift b 3).map aesInvSub) k
    aesInvRounds ks (if ks.isEmpty then b else aesMix [14, 11, 13, 9] b)

/-- Decrypt a block. -/
def aesDec (keys : List (List (BitVec 8))) (b : List (BitVec 8)) : List (BitVec 8) :=
  let r := keys.reverse
  aesInvRounds (r.drop 1) (xorBytes b (r.headD []))

/-! Modes. -/

/-- A block of zeros. -/
def zeroBlock : List (BitVec 8) := List.replicate 16 0

/-- The counter block `n` after `b` in a counter of the last `w` bits (GCM: 32; CTR: 128). -/
def ctrBlock (w : Nat) (b : List (BitVec 8)) (n : Nat) : List (BitVec 8) :=
  let x := fromBe b
  beBytes 16 (x / 2 ^ w * 2 ^ w + (x + n) % 2 ^ w)

/-- Data unit `i` of counter mode. -/
def ctrUnit (keys : List (List (BitVec 8))) (w : Nat) (b : List (BitVec 8)) (i : Nat) (d : List (BitVec 8)) : List (BitVec 8) :=
  xorBytes d (aesEnc keys (ctrBlock w b i))

/-- Multiply in the field of GHASH, over the low `k` bits of `x` from its highest bit on. -/
def gmulN : Nat → Nat → Nat → Nat
  | 0, _, _ => 0
  | k + 1, x, v =>
    (if bitOf x k then v else 0) ^^^ gmulN k x (if v % 2 = 1 then (v / 2) ^^^ (0xe1 * 2 ^ 120) else v / 2)

/-- GHASH of blocks of 16 bytes. -/
def ghash (h : Nat) (l : List (List (BitVec 8))) : Nat := l.foldl (fun y b => gmulN 128 (y ^^^ fromBe b) h) 0

/-- A byte string in blocks, the last padded with zeros. -/
def padBlocks (b : List (BitVec 8)) : List (List (BitVec 8)) :=
  (chop 16 (b.length / 16 + 1) b).map fun x => x ++ List.replicate (16 - x.length) 0

/-- The GCM tag of AAD and ciphertext under a 96-bit IV, 16 bytes. -/
def gcmTag (keys : List (List (BitVec 8))) (iv aad ct : List (BitVec 8)) : List (BitVec 8) :=
  let h := fromBe (aesEnc keys zeroBlock)
  let y := ghash h (padBlocks aad ++ padBlocks ct ++ [beBytes 8 (8 * aad.length) ++ beBytes 8 (8 * ct.length)])
  xorBytes (aesEnc keys (iv ++ [0, 0, 0, 1])) (beBytes 16 y)

/-- Multiply an XTS tweak by alpha. -/
def xtsAlpha (t : Nat) : Nat := (2 * t % 2 ^ 128) ^^^ (if 2 ^ 127 ≤ t then 0x87 else 0)

/-- The tweak of block `n` of a data unit whose tweak is `t`. -/
def xtsTweak : Nat → Nat → Nat
  | 0, t => t
  | n + 1, t => xtsAlpha (xtsTweak n t)

/-- One XTS block under a tweak. -/
def xtsBlock (keys : List (List (BitVec 8))) (dec : Bool) (t : Nat) (b : List (BitVec 8)) : List (BitVec 8) :=
  let tb := leBytes 16 t
  xorBytes (if dec then aesDec keys (xorBytes b tb) else aesEnc keys (xorBytes b tb)) tb

/-- One XTS data unit: key, tweak key, the unit's tweak value, its bytes; ciphertext stealing for a partial last block. -/
def xtsUnit (keys tkeys : List (List (BitVec 8))) (dec : Bool) (iv : Nat) (d : List (BitVec 8)) : List (BitVec 8) :=
  let t0 := fromLe (aesEnc tkeys (leBytes 16 (iv % 2 ^ 128)))
  let m := d.length / 16
  let r := d.length % 16
  let whole := if r = 0 then m else m - 1
  let blk (i : Nat) : List (BitVec 8) := (d.drop (16 * i)).take 16
  let head := (List.range whole).flatMap fun i => xtsBlock keys dec (xtsTweak i t0) (blk i)
  if r = 0 then head
  else
    let last := d.drop (16 * m)
    let ta := xtsTweak (if dec then m else m - 1) t0
    let tz := xtsTweak (if dec then m - 1 else m) t0
    let cc := xtsBlock keys dec ta (blk (m - 1))
    head ++ xtsBlock keys dec tz (last ++ cc.drop r) ++ cc.take r

/-- A CMAC subkey from the one before it. -/
def cmacDbl (x : Nat) : Nat := (2 * x % 2 ^ 128) ^^^ (if 2 ^ 127 ≤ x then 0x87 else 0)

/-- CMAC of a byte string, 16 bytes. -/
def cmac (keys : List (List (BitVec 8))) (d : List (BitVec 8)) : List (BitVec 8) :=
  let k1 := cmacDbl (fromBe (aesEnc keys zeroBlock))
  let full := d ≠ [] ∧ d.length % 16 = 0
  let d' := if full then d else d ++ [0x80]
  let blocks := padBlocks d'
  let last := xorBytes (blocks.getLastD []) (beBytes 16 (if full then k1 else cmacDbl k1))
  aesEnc keys (xorBytes (blocks.dropLast.foldl (fun c b => aesEnc keys (xorBytes c b)) zeroBlock) last)

/-- One step of AES-KW unwrapping, from step `t` down. -/
def kwStep (keys : List (List (BitVec 8))) (n : Nat) : Nat → List (BitVec 8) → List (List (BitVec 8)) → List (BitVec 8) × List (List (BitVec 8))
  | 0, a, r => (a, r)
  | t + 1, a, r =>
    let i := t % n
    let b := aesDec keys (xorBytes a (beBytes 8 (t + 1)) ++ (r[i]?).getD [])
    kwStep keys n t (b.take 8) (r.set i (b.drop 8))

/-- AES-KW unwrapping: the key data where the integrity check holds. -/
def kwUnwrap (key w : List (BitVec 8)) : Option (List (BitVec 8)) :=
  let n := w.length / 8 - 1
  let (a, r) := kwStep (aesKeys key) n (6 * n) (w.take 8) (chop 8 n (w.drop 8))
  if a = List.replicate 8 0xA6 then some r.flatten else none

end Sys2Proof.Machine
end

