-- ==== Sys2Proof/Machine/BarkFormat.lean ====
section
/-! DEFINITION. The job descriptor of Bark and its checks (R413, R414, R426, R427). -/

namespace Sys2Proof.Machine

def bdMode (d : List Byte) : Nat := byteAt d 0
def bdDir (d : List Byte) : Nat := byteAt d 1
def bdTag (d : List Byte) : Nat := le16At d 2
def bdKey (d : List Byte) : Nat := le16At d 4
def bdKey2 (d : List Byte) : Nat := le16At d 6
def bdIvlen (d : List Byte) : Nat := byteAt d 8
def bdTlen (d : List Byte) : Nat := byteAt d 9
def bdDulen (d : List Byte) : Nat := le32At d 0xC
def bdIv (d : List Byte) : List Byte := (d.drop 0x10).take 16
def bdIn (d : List Byte) : Nat := le64At d 0x20
def bdLen (d : List Byte) : Nat := le64At d 0x28
def bdAad (d : List Byte) : Nat := le64At d 0x30
def bdAadLen (d : List Byte) : Nat := le32At d 0x38
def bdOut (d : List Byte) : Nat := le64At d 0x40
def bdTagOff (d : List Byte) : Nat := le64At d 0x48
def bdStat (d : List Byte) : Nat := le64At d 0x50

/-- The mode has AAD. -/
def bdHasAad (d : List Byte) : Bool := bdMode d == 1 || bdMode d == 2

/-- The mode writes data. -/
def bdHasOut (d : List Byte) : Bool := bdMode d != 2 && bdMode d != 6

/-- The mode has a tag. -/
def bdHasTag (d : List Byte) : Bool := bdMode d == 1 || bdMode d == 2 || bdMode d == 6

/-- STATOFF is well formed. -/
def bdStatOk (d : List Byte) : Bool := bdStat d % 32 == 0 && decide (bdStat d < 2 ^ 47)

/-- Offsets of the fields that break R426 or, unused, are not zero (R413): BAD_DESC. -/
def bdBad (d : List Byte) : List Nat :=
  let m := bdMode d
  let bad (o : Nat) (ok : Bool) : List Nat := if ok then [] else [o]
  bad 0x00 (decide (1 ≤ m) && decide (m ≤ 6))
    ++ bad 0x01 (decide (bdDir d ≤ 1))
    ++ bad 0x04 (decide (bdKey d < 4096))
    ++ bad 0x06 (if m = 3 then decide (bdKey2 d < 4096) else bdKey2 d == 0)
    ++ bad 0x08 (m != 6 || bdIvlen d == 0)
    ++ bad 0x09 (bdHasTag d || bdTlen d == 0)
    ++ bad 0x0A (le16At d 0xA == 0)
    ++ bad 0x0C (m == 3 || bdDulen d == 0)
    ++ bad 0x10 (fromLe ((bdIv d).drop (bdIvlen d)) == 0)
    ++ bad 0x20 (decide (bdIn d < 2 ^ 47) && (m != 2 || bdIn d == 0))
    ++ bad 0x28 (m != 2 || bdLen d == 0)
    ++ bad 0x30 (decide (bdAad d < 2 ^ 47) && (bdHasAad d || bdAad d == 0))
    ++ bad 0x38 (bdHasAad d || bdAadLen d == 0)
    ++ bad 0x3C (le32At d 0x3C == 0)
    ++ bad 0x40 (decide (bdOut d < 2 ^ 47) && (bdHasOut d || bdOut d == 0))
    ++ bad 0x48 (decide (bdTagOff d < 2 ^ 47) && (bdHasTag d || bdTagOff d == 0))
    ++ bad 0x50 (bdStatOk d)
    ++ bad 0x58 (fromLe ((d.drop 0x58).take 36) == 0)
    ++ bad 0x7C (le32At d 0x7C == (crc32c (d.take 0x7C)).toNat)

/-- Offsets of the used fields outside R413 and R414: LIMIT. -/
def bdLimit (d : List Byte) : List Nat :=
  let m := bdMode d
  let n := bdLen d
  let t := bdTlen d
  let bad (o : Nat) (ok : Bool) : List Nat := if ok then [] else [o]
  bad 0x08 (m == 6 || bdIvlen d == (if m ≤ 2 then 12 else 16))
    ++ bad 0x09 (if m = 6 then decide (8 ≤ t) && decide (t ≤ 16) else !bdHasTag d || t == 4 || t == 8 || (decide (12 ≤ t) && decide (t ≤ 16)))
    ++ bad 0x0C (m != 3 || (decide (16 ≤ bdDulen d) && decide (bdDulen d ≤ 16777216)))
    ++ bad 0x28 (match m with
        | 1 => decide (n ≤ (if bdDir d = 0 then 2 ^ 32 else 1048576))
        | 2 => true
        | 3 => decide (16 ≤ n) && decide (n ≤ 2 ^ 32) && n % bdDulen d == 0
        | 4 => decide (16 ≤ n) && decide (n ≤ 2 ^ 32) && n % 16 == 0
        | 5 => decide (1 ≤ n) && decide (n ≤ 2 ^ 32)
        | _ => decide (n ≤ 2 ^ 32))
    ++ bad 0x38 (!bdHasAad d || decide (bdAadLen d ≤ 1048576))

/-- Two areas of a job overlap; the output may equal the input exactly (R427). -/
def bdOverlap (desc : Nat) (d : List Byte) : Bool :=
  let out := if bdHasOut d then bdLen d else 0
  let inp := (bdIn d, bdLen d)
  let rest := [(desc, 128), (bdAad d, bdAadLen d), (bdTagOff d, bdTlen d), (bdStat d, 32)]
  anyOverlap (inp :: rest) || rest.any (overlaps (bdOut d, out)) || (bdOut d != bdIn d && overlaps inp (bdOut d, out))

/-- The bits of USE a job needs (R415). -/
def bdUseOk (d : List Byte) (use : Nat) : Bool := bitOf use (bdDir d) && bitOf use (bdMode d + 1)

/-- The bytes of a unit (R429). -/
def bdUnit (d : List Byte) : Nat := if bdMode d = 3 then bdDulen d else 16

/-- CBC over blocks, with the chaining value. -/
def cbcBlocks (keys : List (List Byte)) (dec : Bool) : List Byte → List (List Byte) → List (List Byte)
  | _, [] => []
  | c, b :: t =>
    if dec then xorBytes (aesDec keys b) c :: cbcBlocks keys dec b t
    else
      let e := aesEnc keys (xorBytes b c)
      e :: cbcBlocks keys dec e t

/-- The output units of a job from its input units, under its key and, for XTS, its tweak key (R413, R414). -/
def bdCipher (d : List Byte) (k k2 : List (List Byte)) (us : List (List Byte)) : List (List Byte) :=
  let n := us.length
  let iv := bdIv d
  match bdMode d with
  | 1 => (List.range n).map fun i => ctrUnit k 32 (iv.take 12 ++ [0, 0, 0, 1]) (i + 1) ((us[i]?).getD [])
  | 3 => (List.range n).map fun i => xtsUnit k k2 (bdDir d == 1) (fromLe iv + i) ((us[i]?).getD [])
  | 4 => cbcBlocks k (bdDir d == 1) iv us
  | 5 => (List.range n).map fun i => ctrUnit k 128 iv i ((us[i]?).getD [])
  | _ => []

/-- The tag of a job over its AAD and its data as ciphertext or message. -/
def bdMac (d : List Byte) (k : List (List Byte)) (aad data : List Byte) : List Byte :=
  (if bdMode d = 6 then cmac k data else gcmTag k ((bdIv d).take 12) aad (if bdMode d = 2 then [] else data)).take (bdTlen d)

end Sys2Proof.Machine
end

