-- ==== Sys2Proof/Machine/Bark.lean ====
section
/-! DEFINITION. Bark: submission, jobs and their ends; the keystore's slots, its random bit generator and its device key pair (R415 to R436). -/

namespace Sys2Proof.Machine

/-! Ends of jobs. -/

/-- A job ends: the counters and its ENG event (R424, R435). -/
def State.brkEvent (s : State) (e task : Nat) (page : Option Nat) (st tag : Nat) : State :=
  let g := e / 2
  let s := s.incF (BRK_STAT g) BRK_STAT_JOBS
  let s := if st = 0x0C then s.incF (BRK_STAT g) BRK_STAT_UE else s
  let s := match page with
    | some p =>
      let r := BRK_PG_STAT g p
      let s := s.incF r BRK_PG_STAT_JOBS
      if st = 1 then s.incF r BRK_PG_STAT_TAGFAIL else if st = 4 ∨ st = 9 then s.incF r BRK_PG_STAT_KEYERR else s
    | none => s
  s.queueEvent e task (engEvent 1 st tag)

/-- The jobs of a page, oldest first. -/
def State.brkQueue (s : State) (g sl : Nat) : List BarkJob := (s.glade g).barks.filter fun j => j.slice == sl

/-- A write of BRK_SUB (R424); none where the page is full and the write stalls. -/
def State.brkSub (s : State) (e task v : Nat) : Option State :=
  let g := e / 2
  let h := bitsOf v 63 52
  let live := match s.op g h with | some o => if o.hasEnded then none else some o | none => none
  match live with
  | none => some (s.brkEvent e task none 0x0A 0)
  | some o =>
    if s.actF (GLD_SLC_RES g o.slice) GLD_SLC_RES_BARK = 0 then some (s.brkEvent e task none 0x0B 0)
    else if 16 ≤ (s.brkQueue g o.slice).length then none
    else
      let j : BarkJob := ⟨o.slice, h, o.gen, bitsOf v 46 7 * 128, e, task, false, none, [], []⟩
      some (s.modGlade g fun x => { x with barks := x.barks ++ [j] })

/-! Accesses of a job (R432). -/

/-- A job that ends with nothing released. -/
def brkStop (st : Nat) (detail : Nat := 0) : BarkResult := ⟨st, detail, [], none⟩

/-- The status and DETAIL of a failed access: ACCESS, POISON, or ABANDONED under an old generation. -/
def brkDenied (st : Nat) : Nat × Nat := if st = staleGen then (0x0A, 0) else if st = 6 then (7, 0) else (6, st)

/-- What a failed access leaves: charged to the operation (R302), or counted under an old generation (R297). -/
def State.brkFail (s : State) (g : Nat) (j : BarkJob) (st : Nat) : State :=
  if st = staleGen then s.genDrop g j.slice else s.noteFail g j.oph st

/-- Read slice memory for a job. -/
def State.brkRead (s : State) (g : Nat) (j : BarkJob) (off n : Nat) : HubR (List Byte) := s.sread g j.slice j.gen off n

/-- Go on with a read, or end the job there with nothing released. -/
def brkGo (g : Nat) (j : BarkJob) (r : HubR (List Byte)) (k : List Byte → State → HubR BarkResult) : HubR BarkResult :=
  match r with
  | .ok a s => k a s
  | .fail st s => .ok (brkStop (brkDenied st).1 (brkDenied st).2) (s.brkFail g j st)
  | .need l p w => .need l p w

/-- Read the input unit by unit: the units read, and the failure that stopped the reading. -/
def State.brkUnits : Nat → State → Nat → BarkJob → Nat → Nat → Nat → HubR (List (List Byte) × Option Nat)
  | 0, s, _, _, _, _, _ => .ok ([], none) s
  | f + 1, s, g, j, u, off, n =>
    if n = 0 then .ok ([], none) s
    else
      let m := min u n
      match s.brkRead g j off m with
      | .need l p w => .need l p w
      | .fail st s => .ok ([], some st) (s.brkFail g j st)
      | .ok b s => (State.brkUnits f s g j u (off + m) (n - m)).bind fun r s => .ok (b :: r.1, r.2) s

/-! Keys (R415, R419, R427 step 4). -/

/-- The bytes of a slot's key. -/
def KeySlot.bytes (k : KeySlot) : List Byte := beBytes (if k.k256 then 32 else 16) k.key.toNat

/-- The key bus answers for a slot named by a page (R419, R427). -/
def State.brkKey (s : State) (g sl : Nat) (d : List Byte) (slot : Nat) : Option KeySlot :=
  let r := BRK_PG_KEY g sl
  let base := s.actF r BRK_PG_KEY_KBASE
  if slot < base ∨ base + s.actF r BRK_PG_KEY_KCOUNT ≤ slot ∨ s.slotOwner slot ≠ some (s.slicePart g sl) then none
  else
    match s.keySlot slot with
    | some k => if bdUseOk d k.use then some k else none
    | none => none

/-- The keys of a job and their slots, or the slot at which R427 step 4 fails. -/
def State.brkKeys (s : State) (g sl : Nat) (d : List Byte) : Except Nat (KeySlot × Option KeySlot) :=
  match s.brkKey g sl d (bdKey d) with
  | none => .error (bdKey d)
  | some k =>
    if bdMode d ≠ 3 then .ok (k, none)
    else
      match s.brkKey g sl d (bdKey2 d) with
      | none => .error (bdKey2 d)
      | some k2 =>
        if bdKey d = bdKey2 d ∨ k.k256 ≠ k2.k256 ∨ k.key = k2.key then .error (bdKey2 d) else .ok (k, some k2)

/-! Running a job (R413, R427 to R431). -/

/-- The slice offsets of output units. -/
def unitsAt : Nat → List (List Byte) → List (Nat × List Byte)
  | _, [] => []
  | off, b :: t => (off, b) :: unitsAt (off + b.length) t

/-- The unit a fault strikes, counted from the job's first; the tag stands after the last. -/
def faultUnit : LaneFault → Option Nat
  | .engine u => some u.toNat
  | .check u => some u.toNat
  | _ => none

/-- A second mismatch of a unit, or an uncorrectable error: the job ends with the units before it (R429, R434). -/
def State.brkStruck (s : State) (g : Nat) (j : BarkJob) (fault : LaneFault) (out : List (Nat × List Byte)) : HubR BarkResult :=
  let logged (s : State) (typ : Nat) : State := s.log { block := 0x11, inst := g, cls := 2, typ := typ, part := some (s.slicePart g j.slice) }
  match fault with
  | .check _ => .ok ⟨8, 0, out, none⟩ (logged (s.incF (BRK_STAT g) BRK_STAT_FAULT 2) 0x0E)
  | _ => .ok ⟨0x0C, 0, out, none⟩ (logged s 0x02)

/-- The computation of a job whose keys are fetched. A GCM decryption holds its output back (R431). -/
def State.brkCompute (s : State) (g : Nat) (j : BarkJob) (d : List Byte) (k k2 : List (List Byte)) (fault : LaneFault) : HubR BarkResult :=
  let len := match faultUnit fault with | some u => min (bdLen d) ((u + 1) * bdUnit d) | none => bdLen d
  let before (out : List (Nat × List Byte)) : List (Nat × List Byte) := if bdMode d = 1 ∧ bdDir d = 1 then [] else out
  brkGo g j (s.brkRead g j (bdAad d) (bdAadLen d)) fun aad s =>
    (State.brkUnits (bdLen d / bdUnit d + 1) s g j (bdUnit d) (bdIn d) len).bind fun (us, bad) s =>
      let out := unitsAt (bdOut d) (bdCipher d k k2 us)
      let plainTag := bdMac d k aad us.flatten
      match bad with
      | some st =>
        let dn := brkDenied st
        .ok ⟨dn.1, dn.2, before out, none⟩ s
      | none =>
        let struck := match faultUnit fault with | some u => decide (u * bdUnit d < bdLen d) | none => false
        if struck then s.brkStruck g j fault (before (out.take ((faultUnit fault).getD 0)))
        else if bdHasTag d = false then .ok ⟨0, 0, out, none⟩ s
        else if (faultUnit fault).isSome then s.brkStruck g j fault (before out)
        else if bdDir d = 0 then
          let tag := if bdMode d = 1 then bdMac d k aad (out.flatMap fun p => p.2) else plainTag
          .ok ⟨0, 0, out, some (bdTagOff d, tag)⟩ s
        else
          brkGo g j (s.brkRead g j (bdTagOff d) (bdTlen d)) fun t s =>
            if t = plainTag then .ok ⟨0, 0, out, none⟩ s else .ok (brkStop 1) s

/-- The checks of R427 in order, then the computation. The keys' slots are kept for R419. -/
def State.brkRun (s : State) (g : Nat) (j : BarkJob) (d : List Byte) (fault : LaneFault) : HubR BarkResult :=
  match bdBad d, bdLimit d with
  | o :: _, _ => .ok (brkStop 2 o) s
  | [], o :: _ => .ok (brkStop 3 o) s
  | [], [] =>
    if bdOverlap j.desc d then .ok (brkStop 5) s
    else
      match s.brkKeys g j.slice d with
      | .error slot => .ok (brkStop 4 slot) s
      | .ok (k, k2) =>
        if s.getF KST_STAT KST_STAT_RNGF = 1 then s.brkStruck g j (.engine 0) []
        else
          let s := if fault = .recovered then s.incF (BRK_STAT g) BRK_STAT_FAULT else s
          s.brkCompute g j d (aesKeys k.bytes) (match k2 with | some x => aesKeys x.bytes | none => []) fault

/-- Keep a job's result with it. -/
def State.brkKeep (s : State) (g : Nat) (j : BarkJob) (d : List Byte) (r : BarkResult) : State :=
  let keys := if r.status = 0 ∨ r.status = 1 ∨ (6 ≤ r.status ∧ r.status ≤ 8) ∨ r.status = 0x0C then [bdKey d] ++ (if bdMode d = 3 then [bdKey2 d] else []) else []
  s.modGlade g fun x => { x with barks := changeFirst j (fun y => { y with dbytes := d, res := some r, keys := keys }) x.barks }

/-- A lane takes the oldest job of a page and runs it (R425), where its descriptor names this mode, or none at all. -/
def State.brkJob (s : State) (g sl mode : Nat) (fault : LaneFault) : State :=
  match s.brkQueue g sl with
  | [] => s
  | j :: _ =>
    if s.gladeUp g = false ∨ j.res.isSome ∨ j.abandoned ∨ 4 ≤ ((s.glade g).barks.filter fun x => x.res.isSome).length then s
    else
      match s.brkRead g j j.desc 128 with
      | .need l p w => s.hubReach l p w
      | .fail st t => (t.brkFail g j st).brkKeep g j [] (brkStop (brkDenied st).1 (brkDenied st).2)
      | .ok d t =>
        if 1 ≤ bdMode d ∧ bdMode d ≤ 6 ∧ bdMode d ≠ mode then s
        else (t.brkRun g j d fault).run s (fun r t => t.brkKeep g j d r) fun _ t => t

/-! The end of a job (R429, R432, R434 to R436). -/

/-- The status record (R434). -/
def brkRecord (d : List Byte) (st detail done : Nat) : List Byte :=
  let b := leBytes 1 st ++ leBytes 1 (bdMode d) ++ leBytes 2 (bdTag d) ++ leBytes 4 detail ++ leBytes 8 done ++ leBytes 12 0
  b ++ leBytes 4 (crc32c b).toNat

/-- Release output units in ascending order: the bytes released, and the failure that stopped the release. -/
def State.brkRelease (s : State) (g : Nat) (j : BarkJob) : List (Nat × List Byte) → Nat → HubR (Nat × Option Nat)
  | [], n => .ok (n, none) s
  | (off, b) :: t, n =>
    match s.swrite g j.slice j.gen off b with
    | .need l p w => .need l p w
    | .fail st s => .ok (n, some st) (s.brkFail g j st)
    | .ok _ s => State.brkRelease s g j t (n + b.length)

/-- Output, tag, then the status record: the status the event carries. -/
def State.brkFinish (s : State) (g : Nat) (j : BarkJob) (r : BarkResult) : HubR Nat :=
  let d := j.dbytes
  (State.brkRelease s g j r.out 0).bind fun (done, bad) s =>
    let tag : HubR (Option Nat) := match bad, r.tag with
      | none, some (off, b) =>
        (match s.swrite g j.slice j.gen off b with
        | .need l p w => .need l p w
        | .fail st s => .ok (some st) (s.brkFail g j st)
        | .ok _ s => .ok none s)
      | _, _ => .ok bad s
    tag.bind fun bad s =>
      let (st, detail) := match bad with | some f => brkDenied f | none => (r.status, r.detail)
      if d = [] ∨ st = 0x0A ∨ bdStatOk d = false then .ok st s
      else
        match s.swrite g j.slice j.gen (bdStat d) (brkRecord d st detail done) with
        | .need l p w => .need l p w
        | .fail f s => .ok (brkDenied f).1 (s.brkFail g j f)
        | .ok _ s => .ok st s

/-- The oldest job of a page that has run, or whose operation has ended, ends (R432, R435, R436). (DEDUCED, notes/assumptions/52.md.) -/
def State.brkEnd (s : State) (g sl : Nat) : State :=
  match s.brkQueue g sl with
  | [] => s
  | j :: _ =>
    let gone (s : State) (st tag : Nat) : State :=
      ((s.modGlade g fun x => { x with barks := x.barks.erase j }).brkEvent j.eng j.task (some sl) st tag).pump g
    let tag := if j.dbytes = [] then 0 else bdTag j.dbytes
    if s.gladeUp g = false then s
    else if j.abandoned then gone s 0x0A tag
    else
      match j.res with
      | none => s
      | some r => (s.brkFinish g j r).run s (fun st s => gone s st tag) fun _ s => s

/-- A KEY_GRANT commit takes a slot from a page or changes its owner: running jobs that use it stop with REVOKED (R419). -/
def State.revoke (s : State) (lost : Nat → Nat → Nat → Bool) : State :=
  (List.range 4).foldl (fun s g => s.modGlade g fun x => { x with
    barks := x.barks.map fun j =>
      match j.res with
      | some _ => if j.keys.any (lost g j.slice) then { j with res := some (brkStop 9), keys := [] } else j
      | none => j }) s

/-- GCM_JOB (R413, R430, R431). -/
def execGcmJob (g : Glade) (sl : SliceId) (fault : LaneFault) (s : State) : Host.Outcome State Fault Refusal := .next (s.brkJob g sl 1 fault)

/-- GMAC_JOB (R413, R414). -/
def execGmacJob (g : Glade) (sl : SliceId) (fault : LaneFault) (s : State) : Host.Outcome State Fault Refusal := .next (s.brkJob g sl 2 fault)

/-- XTS_JOB (R413, R414). -/
def execXtsJob (g : Glade) (sl : SliceId) (fault : LaneFault) (s : State) : Host.Outcome State Fault Refusal := .next (s.brkJob g sl 3 fault)

/-- CBC_JOB (R413). -/
def execCbcJob (g : Glade) (sl : SliceId) (fault : LaneFault) (s : State) : Host.Outcome State Fault Refusal := .next (s.brkJob g sl 4 fault)

/-- CTR_JOB (R413, R414). -/
def execCtrJob (g : Glade) (sl : SliceId) (fault : LaneFault) (s : State) : Host.Outcome State Fault Refusal := .next (s.brkJob g sl 5 fault)

/-- CMAC_JOB (R413, R414). -/
def execCmacJob (g : Glade) (sl : SliceId) (fault : LaneFault) (s : State) : Host.Outcome State Fault Refusal := .next (s.brkJob g sl 6 fault)

/-- BARK_JOB_END: output, tag, status record and ENG event of the oldest job of a page (R432 to R436). -/
def execBarkJobEnd (g : Glade) (sl : SliceId) (s : State) : Host.Outcome State Fault Refusal := .next (s.brkEnd g sl)

/-! The keystore (R415, R420 to R422, R428). -/

/-- RNG_HEALTH_FAIL: the random bit generator fails its health test (R428). -/
def execRngHealthFail (s : State) : Host.Outcome State Fault Refusal :=
  .next (
    if s.forFw = false ∨ s.getF KST_STAT KST_STAT_RNGF = 1 then s
    else (s.setF KST_STAT KST_STAT_RNGF 1).log { block := 0x12, cls := 2, typ := 0x0E })

/-- The device key pair `d` is in place: KST_EPUB and EPRDY (R420). -/
def State.setDeviceKey (s : State) (d : Nat) : State :=
  match ecPublic d with
  | none => s
  | some (x, y) =>
    let b := beBytes 48 x ++ beBytes 48 y
    let s := (List.range 12).foldl (fun s k => s.setReg (KST_EPUB k) (BitVec.ofNat 64 (fromLe ((b.drop (8 * k)).take 8)))) s
    { (s.setF KST_STAT KST_STAT_EPRDY 1) with kst := { s.kst with priv := BitVec.ofNat 384 d } }

/-- DEVICE_KEY_PAIR_READY: a key pair drawn by the keystore's generator is ready; EPSER of the first is 1 (R420). -/
def execDeviceKeyPairReady (d : BitVec 384) (s : State) : Host.Outcome State Fault Refusal :=
  let n := d.toNat
  .next (
    if s.forFw = false ∨ s.getF KST_STAT KST_STAT_EPRDY = 1 ∨ n = 0 ∨ p384N ≤ n then s
    else
      let s := if s.getF KST_STAT KST_STAT_EPSER = 0 then s.setF KST_STAT KST_STAT_EPSER 1 else s
      s.setDeviceKey n)

/-- The key pair is destroyed and a new one begun: EPRDY clears, EPSER advances (R420). -/
def State.renewDeviceKey (s : State) : State :=
  let s := (List.range 12).foldl (fun s k => s.setReg (KST_EPUB k) 0) s
  let s := (s.setF KST_STAT KST_STAT_EPRDY 0).incF KST_STAT KST_STAT_EPSER
  { s with kst := { s.kst with priv := 0 } }

/-- The key-encryption key of a load (R421): none where the product is the point at infinity. -/
def kekOf (d unit epser hx hy : Nat) : Option (List Byte) :=
  (ecdhX d hx hy).map fun z =>
    let fixed := "AEMKST01".toUTF8.toList.map (fun b => BitVec.ofNat 8 b.toNat) ++ beBytes 4 unit ++ beBytes 2 epser ++ beBytes 48 hx ++ beBytes 48 hy
    (sha384 (beBytes 4 1 ++ beBytes 48 z ++ fixed)).take 32

/-- One entry of a LOAD_KEYS payload: its slot with what the slot becomes, or its LKERR (R421, R422). -/
def keyEntry (kek e : List Byte) (named : List Nat) : Except Nat (Nat × Option KeySlot) :=
  let attr := e.take 16
  let w := (e.drop 16).take 56
  let slot := le16At attr 0
  let klen := byteAt attr 2
  let use := le32At attr 4
  if 4096 ≤ slot ∨ (klen ≠ 0 ∧ klen ≠ 16 ∧ klen ≠ 32) ∨ byteAt attr 3 ≠ 0 ∨ 256 ≤ use ∨ le32At attr 12 ≠ 0 then .error 7
  else if klen = 0 ∧ fromLe w ≠ 0 then .error 7
  else if klen = 16 ∧ fromLe (w.drop 40) ≠ 0 then .error 7
  else if named.contains slot then .error 6
  else if klen = 0 then .ok (slot, none)
  else
    match kwUnwrap kek (w.take (klen + 24)) with
    | none => .error 4
    | some p =>
      if p.drop klen ≠ attr then .error 5
      else .ok (slot, some ⟨klen == 32, BitVec.ofNat 256 (fromBe (p.take klen)), use, le32At attr 8⟩)

/-- The staging store of a load: entries one after another, or LKERR and the entry it names (R422 step 3). -/
def keyEntries (kek : List Byte) : Nat → Nat → List Byte → List (Nat × Option KeySlot) → Except (Nat × Nat) (List (Nat × Option KeySlot))
  | 0, _, _, acc => .ok acc
  | k + 1, i, b, acc =>
    match keyEntry kek (b.take 72) (acc.map (·.1)) with
    | .error x => .error (x, i)
    | .ok r => keyEntries kek k (i + 1) (b.drop 72) (acc ++ [r])

/-- Steps 2 and 3 of R422 on a payload: LKERR and LKENT, or MODE and the staging store. -/
def State.stageKeys (s : State) (p : List Byte) : Except (Nat × Nat) (Nat × List (Nat × Option KeySlot)) :=
  let n := (p.length - 128) / 72
  let magic := "AEMKEYS1".toUTF8.toList.map fun b => BitVec.ofNat 8 b.toNat
  let hx := fromBe ((p.drop 0x10).take 48)
  let hy := fromBe ((p.drop 0x40).take 48)
  if p.take 8 ≠ magic ∨ 2 ≤ byteAt p 0xA ∨ fromLe ((p.drop 0xB).take 5) ≠ 0 ∨ fromLe ((p.drop 0x70).take 16) ≠ 0 ∨ p.length ≠ 128 + 72 * n
      ∨ 4096 < n then .error (1, 0)
  else if le16At p 8 ≠ s.getF KST_STAT KST_STAT_EPSER then .error (2, 0)
  else if ecValid hx hy = false then .error (3, 0)
  else if s.getF KST_STAT KST_STAT_RNGF = 1 then .error (8, 0)
  else
    match kekOf s.kst.priv.toNat (s.getF SVP_IDENT SVP_IDENT_UNIT) (s.getF KST_STAT KST_STAT_EPSER) hx hy with
    | none => .error (3, 0)
    | some kek =>
      match keyEntries kek n 0 (p.drop 128) [] with
      | .error e => .error e
      | .ok l => .ok (byteAt p 0xA, l)

/-- LOAD_KEYS on a verified payload (R420 to R423): code 0x0A, or the staging store becomes the keystore; a new key pair in every case. -/
def State.loadKeys (s : State) (p : List Byte) : Nat × State :=
  match s.stageKeys p with
  | .error (e, i) => (0x0A, ((s.setF KST_STAT KST_STAT_LKERR e).setF KST_STAT KST_STAT_LKENT i).renewDeviceKey)
  | .ok (mode, l) =>
    let base := if mode = 0 then [] else s.kst.slots
    let s := { s with kst := { s.kst with slots := l.foldl (fun t (e : Nat × Option KeySlot) => Tab.set (fun _ => none) t e.1 e.2) base } }
    (0, ((s.setF KST_STAT KST_STAT_LKERR 0).setF KST_STAT KST_STAT_LKENT 0).renewDeviceKey)

end Sys2Proof.Machine
end

