-- ==== Sys2Proof/Machine/Cmaint.lean ====
section
/-! DEFINITION. Cache maintenance (R97, R215 to R217), the hardware prefetcher (R213) and the disabling of ways (R218 to R222). -/

namespace Sys2Proof.Machine

/-- A CMAINT instruction whose effect is ordered as a store: its check, then an entry in the store buffer (R215, R216). -/
def State.cmaint (s : State) (t fn : Nat) (ra : GReg) (lvl : Nat) (a : Acct) (kind : Nat) (k : StoreKind) : State :=
  s.ais t (info (encR 0x24 0 ra.val 0 fn) lvl) fun s =>
    (s.checkMem t ((s.thr t).gr ra) none a kind false).bind fun pa s =>
      let x := s.thr t
      (s.pushAll t [⟨k, pa / 256 * 256, [], x.pl, false, x.pc⟩]).bind fun _ s =>
        let y := s.thr t
        .ok (y.pc + 4) (s.setThr t (y.pmc 0x4D))

/-- CLWB (R215): checked as a read. -/
def execClwb (t : Thr) (ra : GReg) (s : State) : Host.Outcome State Fault Refusal :=
  .next (s.cmaint t.val 0x000 ra 0 .read 0 .clwb)

/-- CLFLUSH (R215): checked as a read. -/
def execClflush (t : Thr) (ra : GReg) (s : State) : Host.Outcome State Fault Refusal :=
  .next (s.cmaint t.val 0x001 ra 0 .read 0 .clflush)

/-- CLINV (R215): M level, Firebreak only, as a write-type access (R281). (DEDUCED, notes/assumptions/57.md.) -/
def execClinv (t : Thr) (ra : GReg) (s : State) : Host.Outcome State Fault Refusal :=
  .next (s.cmaint t.val 0x002 ra 3 .write 1 .clinv)

/-- CLZERO (R215): checked as a store. -/
def execClzero (t : Thr) (ra : GReg) (s : State) : Host.Outcome State Fault Refusal :=
  .next (s.cmaint t.val 0x003 ra 0 .write 1 .clzero)

/-- ICINV (R215): the line leaves the issuing core's L1I. -/
def execIcinv (t : Thr) (ra : GReg) (s : State) : Host.Outcome State Fault Refusal :=
  .next (s.ais t.val (info (encR 0x24 0 ra.val 0 0x006) 1) fun s =>
    (s.checkMem t.val ((s.thr t.val).gr ra) none .read 0 false).bind fun pa s =>
      let s := s.modCore (s.pcore t.val) fun c => { c with l1i := c.l1i.filter fun e => e.line != lineOf pa }
      let y := s.thr t.val
      .ok (y.pc + 4) (s.setThr t.val (y.pmc 0x4D)))

/-- Whether a hint may be followed: memory, granted, and no unreleased seed line (R213, R215). -/
def State.hintOk (s : State) (p pa : Nat) (wr : Bool) : Bool := isMem pa && s.memOk p pa wr && (s.seedIdx pa).isNone

/-- A hint fetches a line into the L2 of its core: at once where the line may be accessed so, otherwise a request goes out (R215). -/
def State.hintFetch (s : State) (t l : Nat) (own : Bool) : State :=
  if s.deferred l t then s
  else
    match (if own then s.accWrite l else s.accRead l) with
    | .ok => s.fillL2 (s.pcore t) l
    | .need opc =>
      let s := s.request opc l (s.part t) (some t)
      if (if own then s.accWrite l else s.accRead l) = LineAcc.ok then s.fillL2 (s.pcore t) l else s
    | _ => s

/-- PREFR and PREFW: hints that never raise an exception; a refused hint is counted and dropped (R215, R226). -/
def State.prefetch (s : State) (t fn : Nat) (ra : GReg) (own : Bool) : State :=
  s.ais t (info (encR 0x24 0 ra.val 0 fn)) fun s =>
    let s := s.modThr t fun x => x.pmc 0x4D
    let drop := s.modThr t fun x => x.pmc 0x4F
    let s :=
      match s.translate t ((s.thr t).gr ra) (if own then .write else .read) 0 with
      | .ok pa s' => if s'.hintOk (s'.part t) pa own then s'.hintFetch t (lineOf pa) own else drop
      | _ => drop
    .ok ((s.thr t).pc + 4) s

/-- PREFR (R215). -/
def execPrefr (t : Thr) (ra : GReg) (s : State) : Host.Outcome State Fault Refusal :=
  .next (s.prefetch t.val 0x004 ra false)

/-- PREFW (R215). -/
def execPrefw (t : Thr) (ra : GReg) (s : State) : Host.Outcome State Fault Refusal :=
  .next (s.prefetch t.val 0x005 ra true)

/-- A line enters the side buffer of a core; the oldest of 32 leaves unused (R208, R213, R226). -/
def State.sidePut (s : State) (c l : Nat) : State :=
  let x := s.core c
  if x.side.contains l || x.l2.any (fun e => e.line == l) then s
  else
    let s := (s.modLine l fun y => { y with pres := setBit y.pres c true }).pmcCore c 0x4E
    if x.side.length < 32 then s.modCore c fun x => { x with side := x.side ++ [l] }
    else
      match x.side with
      | [] => s
      | m :: r => ((s.modCore c fun x => { x with side := r ++ [l] }).modLine m fun y => { y with pres := setBit y.pres c false }).pmcCore c 0x44

/-- The L2 prefetcher fetches a line of a detected stream; which line is the operand (R213). -/
def execHwPrefetch (c : Pcore) (line : BitVec 43) (s : State) : Host.Outcome State Fault Refusal :=
  let l := line.toNat
  let p := s.corePart c.val
  .next (
    if s.coreActive c.val = false ∨ (s.core c.val).held = true ∨ s.getF (CORE_PF c.val) CORE_PF_EN = 0 ∨ s.hintOk p (l * 256) false = false
        ∨ s.lineDeferred l = true then s
    else
      match s.accRead l with
      | .ok => s.sidePut c.val l
      | .need opc => s.request opc l p none
      | _ => s)

/-! Way disable (R219 to R221). -/

/-- The number of ways that stay enabled when way `w` of a mask goes. -/
def leftWays (n dis w : Nat) : Nat := ((List.range n).filter fun v => !bitOf dis v && v != w).length

/-- Whether disabling a way of an L3 slice keeps the floors of R220. -/
def State.l3Floor (s : State) (k w : Nat) : Bool :=
  let dis := s.getF (L3C_WAYST k) L3C_WAYST_L3DIS
  let seed := if s.actF (L3C_SEED k) L3C_SEED_EN = 1 then s.actF (L3C_SEED k) L3C_SEED_NWAYS else 0
  let ok (v : Nat) : Bool := !bitOf dis v && v != w && decide (v + seed < 16)
  let n := ((List.range 16).filter ok).length
  decide (w + seed < 16) && decide (s.actF (L3C_WAYTH k) L3C_WAYTH_MINWAYS ≤ n) &&
    (List.range 16).all fun p =>
      let m := s.actF (L3C_ALLOC k p) L3C_ALLOC_WAYS
      m == 0 || (List.range 16).any fun v => ok v && bitOf m v

/-- Whether disabling a way of a core's cache (0 L1I, 1 L1D, 2 L2) keeps its floor (R220). -/
def State.coreFloor (s : State) (c k w : Nat) : Bool :=
  let st := s.reg (L2C_WAYST c)
  if k = 2 then decide (s.actF (L2C_WAYTH c) L2C_WAYTH_MINWAYS ≤ leftWays 16 (L2C_WAYST_L2DIS.get st) w)
  else decide (6 ≤ leftWays 8 ((if k = 0 then L2C_WAYST_L1IDIS else L2C_WAYST_L1DDIS).get st) w)

/-- The lines of a way of core `c`'s cache leave it; a line that leaves the L2 leaves the core (R210, R219). -/
def State.flushCoreWay (s : State) (c k w : Nat) : State :=
  let x := s.core c
  if k = 0 then s.modCore c fun x => { x with l1i := x.l1i.filter fun e => e.way != w }
  else if k = 1 then
    let gone := (x.l1d.filter fun e => e.way == w).map (·.line)
    let s := s.modCore c fun x => { x with l1d := x.l1d.filter fun e => e.way != w }
    gone.foldl (fun s l => s.clearResv l fun t => s.pcore t == c) s
  else ((x.l2.filter fun e => e.way == w).map (·.line)).foldl (fun s l => s.coreDrop l c) s

/-- Set a way's DIS bit of a core's cache. -/
def State.setCoreDis (s : State) (c k w : Nat) : State :=
  let f := if k = 0 then L2C_WAYST_L1IDIS else if k = 1 then L2C_WAYST_L1DDIS else L2C_WAYST_L2DIS
  s.setF (L2C_WAYST c) f (setBit (s.getF (L2C_WAYST c) f) w true)

/-- THRESH of a cache's way-disable registers. -/
def State.wayThresh (s : State) (k i : Nat) : Nat :=
  if k = 3 then s.actF (L3C_WAYTH i) L3C_WAYTH_THRESH else s.actF (L2C_WAYTH i) L2C_WAYTH_THRESH

/-- A corrected error counts against its way; at THRESH, where the floors allow the disable, the way stops allocating (R219, R220). -/
def State.wayError (s : State) (k i w : Nat) : State :=
  let s := s.countWay k i w
  let keep := if k = 3 then s.l3Floor i w else s.coreFloor i k w
  if s.wayThresh k i ≠ 0 ∧ s.wayThresh k i ≤ s.wayCount k i w ∧ keep = true ∧ (s.core i).disabling.contains (k * 16 + w) = false then
    s.modCore i fun x => { x with disabling := x.disabling ++ [k * 16 + w] }
  else s

/-- The disable of a way ends: its lines are gone and DIS is set, or the floor withholds it and FLOOR is set; either is logged (R219, R220). It begins when the count reaches THRESH. (DESIGN CHOICE, notes/assumptions/59.md.) -/
def execWayDisableDone (kind : CacheKind) (inst : Pcore) (way : Fin 16) (s : State) : Host.Outcome State Fault Refusal :=
  let k := cacheNum kind
  let i := inst.val
  let w := way.val
  let go := decide (s.wayThresh k i ≠ 0) && decide (s.wayThresh k i ≤ s.wayCount k i w) && (decide (2 ≤ k) || decide (w < 8))
  let s := if go then s.modCore i fun x => { x with disabling := x.disabling.filter fun d => d != k * 16 + w } else s
  .next (
    if go = false then s
    else if k = 3 then
      if bitOf (s.getF (L3C_WAYST i) L3C_WAYST_L3DIS) w then s
      else if s.l3Floor i w then
        let ls := (s.lines.filter fun e => e.2.held && e.2.way == w && l3Slice e.1 == i).map (·.1)
        let s := ls.foldl (fun s l => if (s.line l).st = LineSt.sma then s else s.evictL3 l) s
        (s.setF (L3C_WAYST i) L3C_WAYST_L3DIS (setBit (s.getF (L3C_WAYST i) L3C_WAYST_L3DIS) w true)).logC 0x05 i 0x03 [BitVec.ofNat 8 w, 0]
      else (s.setF (L3C_WAYST i) L3C_WAYST_FLOOR 1).logC 0x05 i 0x03 [BitVec.ofNat 8 w, 1]
    else
      let blk := if k = 2 then 0x04 else 0x01
      let f := if k = 0 then L2C_WAYST_L1IDIS else if k = 1 then L2C_WAYST_L1DDIS else L2C_WAYST_L2DIS
      if bitOf (s.getF (L2C_WAYST i) f) w then s
      else if s.coreFloor i k w then ((s.flushCoreWay i k w).setCoreDis i k w).logC blk i 0x03 [BitVec.ofNat 8 w, 0]
      else (s.setF (L2C_WAYST i) L2C_WAYST_FLOOR 1).logC blk i 0x03 [BitVec.ofNat 8 w, 1])

/-- At the end of a 2^WIN-second window the counts restart at zero (R219). -/
def execWayWindowEnd (l3 : Bool) (s : State) : Host.Outcome State Fault Refusal :=
  .next (
    if l3 then (List.range 72).foldl (fun s k => s.setReg (L3C_CECNT k) 0) s
    else (List.range 72).foldl (fun s c => (s.modCore c fun x => { x with l1iCnt := [], l1dCnt := [] }).setReg (L2C_CECNT c) 0) s)

end Sys2Proof.Machine
end

