-- ==== Sys2Proof/Machine/Column.lean ====
section
/-! DEFINITION. The column engine: submission, the three kinds of job, their ends (R391 to R411). -/

namespace Sys2Proof.Machine

/-! Ends of jobs. -/

/-- A job ends: the counters of COL_STAT and its ENG event (R392, R409). -/
def State.colEvent (s : State) (e task st tag : Nat) : State :=
  let r := COL_STAT (e / 2)
  let s := s.incF r COL_STAT_JOBS
  let s := if st = 6 then s.incF r COL_STAT_VERIFY
    else if 3 ≤ st ∧ st ≤ 5 then s.incF r COL_STAT_BADDATA
    else if st = 0x0B then s.incF r COL_STAT_UE else s
  s.queueEvent e task (engEvent 0 st tag)

/-- A handle's operation is live: fetched and not ended (R371). -/
def State.opLive (s : State) (g h : Nat) : Option GOp :=
  match s.op g h with
  | some o => if o.hasEnded then none else some o
  | none => none

/-- The jobs of a queue, oldest first. -/
def State.colQueue (s : State) (g sl q : Nat) : List ColJob := (s.glade g).cols.filter fun j => j.slice == sl && j.queue == q

/-- A write of COL_SUB (R392); none where the queue is full and the write stalls. -/
def State.colSub (s : State) (e task v : Nat) : Option State :=
  let g := e / 2
  let h := bitsOf v 63 52
  let q := bitsOf v 48 47
  match s.opLive g h with
  | none => some (s.colEvent e task 0x0A 0)
  | some o =>
    if s.actF (GLD_SLC_RES g o.slice) GLD_SLC_RES_COLQ ≤ q then some (s.colEvent e task 0x0C 0)
    else if 16 ≤ (s.colQueue g o.slice q).length then none
    else
      let j : ColJob := ⟨o.slice, q, h, o.gen, bitsOf v 46 6 * 64, e, task, false, none, []⟩
      some (s.modGlade g fun x => { x with cols := x.cols ++ [j] })

/-! Accesses of a job (R397). -/

/-- A job that has done nothing. -/
def ColResult.zero : ColResult := ⟨0, 0, 0, 0, 0, 0, 0, none⟩

/-- A job that ends at this point with a status of R409. -/
def ColResult.stop (r : ColResult) (st : Nat) (detail : Nat := 0) : ColResult := { r with status := st, detail := detail }

/-- The status of a failed access: ACCESS, POISON, or ABANDONED under an old generation. -/
def ColResult.denied (r : ColResult) (st : Nat) : ColResult :=
  if st = staleGen then r.stop 0x0A else if st = 6 then r.stop 9 else r.stop 8 st

/-- What a failed access leaves: charged to the operation (R302), or counted under an old generation (R297). -/
def State.colFail (s : State) (g : Nat) (j : ColJob) (st : Nat) : State :=
  if st = staleGen then s.genDrop g j.slice else s.noteFail g j.oph st

/-- Go on with an access, or end the job there with what it has done. -/
def colGo {α : Type} (g : Nat) (j : ColJob) (acc : ColResult) (r : HubR α) (k : α → State → HubR ColResult) : HubR ColResult :=
  match r with
  | .ok a s => k a s
  | .fail st s => .ok (acc.denied st) (s.colFail g j st)
  | .need l p w => .need l p w

/-- Read slice memory for a job. -/
def State.colRead (s : State) (g : Nat) (j : ColJob) (off n : Nat) : HubR (List Byte) := s.sread g j.slice j.gen off n

/-- Write slice memory for a job. -/
def State.colWrite (s : State) (g : Nat) (j : ColJob) (off : Nat) (b : List Byte) : HubR Unit := s.swrite g j.slice j.gen off b

/-- An uncorrectable error in an engine buffer ends the job with ENGINE (R408). -/
def State.colEngine (s : State) (g : Nat) (j : ColJob) (acc : ColResult) : HubR ColResult :=
  .ok (acc.stop 0x0B) (s.log { block := 0x10, inst := g, cls := 2, typ := 0x02, part := some (s.slicePart g j.slice) })

/-! Compress (R398, R399). -/

/-- Cut and write blocks from row `r` on; `p` and `k` are the bytes and blocks written, `k0` the blocks of the jobs it resumes. -/
def State.colCompress : Nat → State → Nat → ColJob → List Byte → Nat → Nat → Nat → Nat → ColResult → LaneFault → HubR ColResult
  | 0, s, _, _, _, _, _, _, _, acc, _ => .ok acc s
  | f + 1, s, g, j, d, r, p, k, k0, acc, fault =>
    if cdEnd d ≤ r then .ok acc s
    else
      let w := fmtW (cdFmt d)
      let n := min (cdBlk d) (cdEnd d - r)
      colGo g j acc (s.colRead g j (cdIn d + (r - cdRow0 d) * w) (n * w)) fun b s =>
        let rows := splitLe w n b
        let (fb, blk) := encodeBlock (cdFmt d) r rows
        if fault = .engine (BitVec.ofNat 32 k) then s.colEngine g j acc
        else if fault = .check (BitVec.ofNat 32 k) then
          .ok (acc.stop 6 k) (s.log { block := 0x10, inst := g, cls := 2, typ := 0x0E, part := some (s.slicePart g j.slice) })
        else if cdOlen d - p < blk.length ∨ cdDlen d - 48 * k < 48 then
          .ok { acc.stop 1 with token := some (tokenBytes 1 (k0 + k) r 0 0) } s
        else
          let mm := minMax (fmtSigned (cdFmt d)) w rows
          let ent : DirEnt := ⟨r, cdOutOff d + p, colBits mm.1, colBits mm.2, n, fb, blk.length⟩
          colGo g j acc (s.colWrite g j (cdOutOff d + p) blk) fun _ s =>
            colGo g j acc (s.colWrite g j (cdDirOff d + 48 * k) ent.bytes) fun _ s =>
              State.colCompress f s g j d (r + n) (p + blk.length) (k + 1) k0 { acc with
                inRows := acc.inRows + n, inBytes := acc.inBytes + n * w, outBytes := acc.outBytes + blk.length + 48
                count := acc.count + 1 } fault

/-! Decompress and scan (R400 to R404). -/

/-- The runs of a block that cover rows from `r` up to `lim`: value, first row, length. -/
def clipRuns : Nat → Nat → Nat → List (Nat × Nat) → List (Nat × Nat × Nat)
  | _, _, _, [] => []
  | at_, r, lim, (v, n) :: t =>
    let a := max at_ r
    let b := min (at_ + n) lim
    (if a < b then [(v, a, b - a)] else []) ++ clipRuns (at_ + n) r lim t

/-- What the rows of a block add to a job: its matches as (first row, length), COUNT and SUM, and the row at which a row-id list was full. -/
structure ColPart where
  hits : List (Nat × Nat) := []
  count : Nat := 0
  sum : Int := 0
  full : Option Nat := none

/-- Evaluate runs one after another; `room`: row ids that still fit, none where no list is written (R402 to R404). -/
def scanRuns (d : List Byte) : List (Nat × Nat × Nat) → Option Nat → ColPart → ColPart
  | [], _, p => p
  | (v, a, n) :: t, room, p =>
    let x := colExt (fmtSigned (cdFmt d)) (fmtW (cdFmt d)) v
    if p.full.isSome then p
    else if predHolds d x = false then scanRuns d t room p
    else
      let m := match room with | some c => min c n | none => n
      let q : ColPart := { p with
        hits := p.hits ++ (if m = 0 then [] else [(a, m)]), count := p.count + m, sum := p.sum + x * m
        full := if m < n then some (a + m) else none }
      scanRuns d t (room.map fun c => c - m) q

/-- The byte of a bitmap at index `i`: bits of the rows that hit (R403). -/
def bitmapByte (bm i : Nat) (hits : List (Nat × Nat)) : Byte :=
  BitVec.ofNat 8 ((List.range 8).foldl (fun w k =>
    let r := bm + 8 * i + k
    if hits.any fun h => decide (h.1 ≤ r) && decide (r < h.1 + h.2) then w + 2 ^ k else w) 0)

/-- The loop state of a decompress or scan job: the next row, the next entry, the previous entry's end, what has been done, the bits of the last bitmap byte so far and the row ids written. -/
structure ColLoop where
  row : Nat
  ent : Nat
  prev : Option Nat
  acc : ColResult
  last : Byte := 0
  ids : Nat := 0

/-- The row at which the output has no room whatever matches (R400, R403, R405 step 3). -/
def colLimit (d : List Byte) (start : Nat) : Nat :=
  let full := cdEnd d
  if cdType d = 2 then min full (start + cdOlen d / fmtW (cdFmt d))
  else if cdOut d = 1 then min full (cdBm d + 8 * cdOlen d)
  else if cdOut d = 2 ∧ cdOlen d = 0 then start
  else full

/-- Write what rows `a` to `b` − 1 of a block produce, and account for them; `whole` bytes of input were completed. -/
def State.colEmit (s : State) (g : Nat) (j : ColJob) (d : List Byte) (start : Nat) (lp : ColLoop) (b : Nat) (runs : List (Nat × Nat × Nat)) :
    HubR (ColPart × Nat × Byte) :=
  let w := fmtW (cdFmt d)
  if cdType d = 2 then
    let bytes := runs.flatMap fun r => (List.replicate r.2.2 (leBytes w r.1)).flatten
    (s.colWrite g j (cdOutOff d + (lp.row - start) * w) bytes).bind fun _ s => .ok ({}, bytes.length, 0) s
  else
    let room := if cdOut d = 2 then some (cdOlen d / 8 - lp.ids) else none
    let p := scanRuns d runs room {}
    if cdOut d = 1 then
      let bm := cdBm d
      let i0 := (lp.row - bm) / 8
      let i1 := (b - 1 - bm) / 8
      let old : Byte := if lp.row = start ∨ (lp.row - bm) % 8 = 0 then 0 else lp.last
      let bytes := (List.range (i1 + 1 - i0)).map fun k => bitmapByte bm (i0 + k) p.hits ||| (if k = 0 then old else 0)
      let fresh := if lp.row = start ∨ (lp.row - bm) % 8 = 0 then bytes.length else bytes.length - 1
      (s.colWrite g j (cdOutOff d + i0) bytes).bind fun _ s => .ok (p, fresh, bytes.getLastD 0) s
    else if cdOut d = 2 then
      let bytes := p.hits.flatMap fun h => (List.range h.2).flatMap fun k => leBytes 8 (h.1 + k)
      (s.colWrite g j (cdOutOff d + 8 * lp.ids) bytes).bind fun _ s => .ok (p, bytes.length, 0) s
    else .ok (p, 0, 0) s

/-- A 128-bit sum modulo 2^128 (R404). -/
def sum128 (s : Nat) (x : Int) : Nat := (((s : Int) + x) % 2 ^ 128).toNat

/-- The token of a decompress or scan job that stops at a row of an entry (R406). -/
def colToken (d : List Byte) (lp : ColLoop) : ColResult :=
  { lp.acc.stop 1 with token := some (tokenBytes (cdType d) lp.ent lp.row (if cdType d = 3 then lp.acc.count else 0) (if cdType d = 3 then lp.acc.sum else 0)) }

/-- Account for rows up to `b` of an entry; `cost` is counted where its rows are completed. -/
def ColLoop.advance (lp : ColLoop) (b out : Nat) (last : Byte) (p : ColPart) (cost : Nat) : ColLoop :=
  { lp with
    row := b, last := last, ids := lp.ids + p.count
    acc := { lp.acc with
      inRows := lp.acc.inRows + (b - lp.row), inBytes := lp.acc.inBytes + cost, outBytes := lp.acc.outBytes + out
      count := (lp.acc.count + p.count) % 2 ^ 64, sum := sum128 lp.acc.sum p.sum } }

/-- Read entries and the blocks they name (R387, R390, R396, R400, R402, R403). -/
def State.colWalk : Nat → State → Nat → ColJob → List Byte → Nat → ColLoop → LaneFault → HubR ColResult
  | 0, s, _, _, _, _, lp, _ => .ok lp.acc s
  | f + 1, s, g, j, d, start, lp, fault =>
    let stop (st detail : Nat) (s : State) : HubR ColResult := .ok (lp.acc.stop st detail) s
    if cdEnd d ≤ lp.row then .ok lp.acc s
    else if cdNent d ≤ lp.ent then stop 4 (cdNent d) s
    else
      colGo g j lp.acc (s.colRead g j (cdIn d + 48 * lp.ent) 48) fun eb s =>
        let e := dirOf eb
        if fault = .engine (BitVec.ofNat 32 lp.ent) then s.colEngine g j lp.acc
        else
        let chain := match lp.prev with | some x => e.first == x | none => decide (e.first ≤ start)
        if dirOk (cdFmt d) eb = false ∨ chain = false then stop 4 lp.ent s
        else if e.first + e.nrows ≤ lp.row then
          State.colWalk f s g j d start { lp with ent := lp.ent + 1, prev := some (e.first + e.nrows) } fault
        else if colLimit d start ≤ lp.row then .ok (colToken d lp) s
        else
          let last := min (e.first + e.nrows) (cdEnd d)
          let b := min last (colLimit d start)
          let sg := fmtSigned (cdFmt d)
          let skip := cdType d == 3 && !predPossible d (colExt sg 8 e.minv) (colExt sg 8 e.maxv)
          let finish (s : State) (cost : Nat) (x : ColPart × Nat × Byte) : HubR ColResult :=
            let b := x.1.full.getD b
            let lq := lp.advance b x.2.1 x.2.2 x.1 (if b = last then cost else 0)
            if b < last then .ok (colToken d lq) s
            else State.colWalk f s g j d start { lq with ent := lp.ent + 1, prev := some (e.first + e.nrows) } fault
          if skip then
            colGo g j lp.acc (s.colEmit g j d start lp b []) fun x s => finish s 48 x
          else if (cdWrites d).any (overlaps (e.boff, e.blen)) then stop 7 lp.ent s
          else
            colGo g j lp.acc (s.colRead g j e.boff e.blen) fun blk s =>
              match decodeBlock (cdFmt d) e blk with
              | none => stop 5 lp.ent s
              | some runs =>
                colGo g j lp.acc (s.colEmit g j d start lp b (clipRuns e.first lp.row b runs)) fun x s => finish s (48 + e.blen) x

/-! Running a job (R395, R396, R405, R407). -/

/-- The job from its start row; `t` is the token it resumes, if any. -/
def State.colStart (s : State) (g : Nat) (j : ColJob) (d : List Byte) (start : Nat) (t : Option (List Byte)) (fault : LaneFault) : HubR ColResult :=
  let zero := ColResult.zero
  let entry := match t with | some b => le32At b 4 | none => 0
  let full : HubR ColResult := .ok { zero.stop 1 with token := some (tokenBytes 1 entry start 0 0) } s
  if cdType d = 1 ∧ (cdOlen d = 0 ∨ cdDlen d = 0) then full
  else if cdType d = 1 then State.colCompress (cdNrows d / cdBlk d + 2) s g j d start 0 0 entry zero fault
  else
    let acc := match t with
      | some b => { zero with count := le64At b 0x10, sum := fromLe ((b.drop 0x18).take 16) }
      | none => zero
    State.colWalk (cdNent d + 2) s g j d start { row := start, ent := entry, prev := none, acc := acc } fault

/-- A resumed job checks its token first (R407); BMBASE lies at most at its row (R395). -/
def State.colResume (s : State) (g : Nat) (j : ColJob) (d : List Byte) (fault : LaneFault) : HubR ColResult :=
  let zero := ColResult.zero
  colGo g j zero (s.colRead g j (cdTin d) 48) fun t s =>
    let row := le64At t 8
    if tokenOk d t = false then .ok (zero.stop 3) s
    else
      let go (s : State) : HubR ColResult :=
        if cdType d = 3 ∧ cdOut d = 1 ∧ row < cdBm d then .ok (zero.stop 2 0x48) s else s.colStart g j d row (some t) fault
      if cdType d = 1 then go s
      else
        colGo g j zero (s.colRead g j (cdIn d + 48 * le32At t 4) 48) fun eb s =>
          let e := dirOf eb
          if e.first ≤ row ∧ row < e.first + e.nrows then go s else .ok (zero.stop 3) s

/-- The checks of R395, R396 and R405, then the job. -/
def State.colRun (s : State) (g : Nat) (j : ColJob) (d : List Byte) (fault : LaneFault) : HubR ColResult :=
  let zero := ColResult.zero
  match cdBad d with
  | o :: _ => .ok (zero.stop 2 o) s
  | [] =>
    if anyOverlap (cdAreas j.desc d) then .ok (zero.stop 7 0xFFFFFFFF) s
    else if cdNrows d = 0 then .ok zero s
    else if cdResume d then s.colResume g j d fault
    else s.colStart g j d (cdRow0 d) none fault

/-- Keep a job's result with it. -/
def State.colKeep (s : State) (g : Nat) (j : ColJob) (d : List Byte) (r : ColResult) : State :=
  s.modGlade g fun x => { x with cols := changeFirst j (fun y => { y with dbytes := d, res := some r }) x.cols }

/-- A lane takes the oldest job of a queue and runs it (R393), where its descriptor names this kind of job, or none at all. -/
def State.colJob (s : State) (g sl q ty : Nat) (fault : LaneFault) : State :=
  match s.colQueue g sl q with
  | [] => s
  | j :: _ =>
    if s.gladeUp g = false ∨ j.res.isSome ∨ j.abandoned ∨ 4 ≤ ((s.glade g).cols.filter fun x => x.res.isSome).length then s
    else
      match s.colRead g j j.desc 256 with
      | .need l p w => s.hubReach l p w
      | .fail st t => (t.colFail g j st).colKeep g j [] (ColResult.zero.denied st)
      | .ok d t =>
        if 1 ≤ cdType d ∧ cdType d ≤ 3 ∧ cdType d ≠ ty then s
        else (t.colRun g j d fault).run s (fun r t => t.colKeep g j d r) fun _ t => t

/-! The end of a job (R408 to R411). -/

/-- The status record (R408). -/
def colRecord (d : List Byte) (r : ColResult) : List Byte :=
  let b := leBytes 1 r.status ++ leBytes 1 (cdType d) ++ leBytes 2 (cdTag d) ++ leBytes 4 r.detail ++ leBytes 8 r.inRows ++ leBytes 8 r.inBytes
    ++ leBytes 8 r.outBytes ++ leBytes 8 (if cdType d = 2 then 0 else r.count) ++ leBytes 16 (if cdType d = 3 then r.sum else 0) ++ leBytes 4 0
  b ++ leBytes 4 (crc32c b).toNat

/-- The token, if there is one, then the status record (R410): the status the event carries. -/
def State.colFinish (s : State) (g : Nat) (j : ColJob) (r : ColResult) : HubR Nat :=
  let d := j.dbytes
  if r.status = 0x0A ∨ d = [] ∨ (r.status = 2 ∧ cdStatOk d = false) then .ok r.status s
  else
    let record (r : ColResult) (s : State) : HubR Nat :=
      match s.colWrite g j (cdStat d) (colRecord d r) with
      | .need l p w => .need l p w
      | .fail st s => .ok (r.denied st).status (s.colFail g j st)
      | .ok _ s => .ok r.status s
    match r.token with
    | none => record r s
    | some t =>
      match s.colWrite g j (cdTok d) t with
      | .need l p w => .need l p w
      | .fail st s => record (r.denied st) (s.colFail g j st)
      | .ok _ s => record r s

/-- The oldest job of a queue that has run, or whose operation has ended, ends (R408 to R411). -/
def State.colEnd (s : State) (g sl q : Nat) : State :=
  match s.colQueue g sl q with
  | [] => s
  | j :: _ =>
    let gone (s : State) (st tag : Nat) : State :=
      ((s.modGlade g fun x => { x with cols := x.cols.erase j }).colEvent j.eng j.task st tag).pump g
    let tag := if j.dbytes = [] then 0 else cdTag j.dbytes
    if s.gladeUp g = false then s
    else if j.abandoned then gone s 0x0A tag
    else
      match j.res with
      | none => s
      | some r => (s.colFinish g j r).run s (fun st s => gone s st tag) fun _ s => s

/-- COMPRESS_JOB: a compress job runs (R398, R399). -/
def execCompressJob (g : Glade) (sl : SliceId) (q : Fin 4) (fault : LaneFault) (s : State) : Host.Outcome State Fault Refusal :=
  .next (s.colJob g sl q 1 fault)

/-- DECOMPRESS_JOB: a decompress job runs (R400). -/
def execDecompressJob (g : Glade) (sl : SliceId) (q : Fin 4) (fault : LaneFault) (s : State) : Host.Outcome State Fault Refusal :=
  .next (s.colJob g sl q 2 fault)

/-- SCAN_JOB: a scan job runs (R401 to R404). -/
def execScanJob (g : Glade) (sl : SliceId) (q : Fin 4) (fault : LaneFault) (s : State) : Host.Outcome State Fault Refusal :=
  .next (s.colJob g sl q 3 fault)

/-- COLUMN_JOB_END: token, status record and ENG event of the oldest job of a queue (R408 to R411). -/
def execColumnJobEnd (g : Glade) (sl : SliceId) (q : Fin 4) (s : State) : Host.Outcome State Fault Refusal :=
  .next (s.colEnd g sl q)

end Sys2Proof.Machine
end

