-- ==== Sys2Proof/Machine/System.lean ====
section
/-! DEFINITION. System instructions: state registers, barriers, supervisor calls, trap return, translation and its invalidation (R93 to R100, R110, R126, R137, R165 to R178, R186 to R194). -/

namespace Sys2Proof.Machine

/-! State registers (R98, R99). -/

/-- The value MFS reads of a state register (R99). -/
def State.srRead (s : State) (t n : Nat) : Word :=
  let x := s.thr t
  if n = SR_SIP then s.sip x
  else if n = SR_MIP then x.mip
  else if n = SR_TIME then s.time
  else if n = SR_TID then BitVec.ofNat 64 t
  else if n = SR_PCORE then BitVec.ofNat 64 (s.pcore t)
  else if n = SR_PARTN then BitVec.ofNat 64 (s.part t)
  else if n = SR_MBASE then s.mbaseOf t
  else x.srg n

/-- The bits of a state register that MTS writes (R98, R110, R111, R122, R136, R137). -/
def srMask (n : Nat) : Word :=
  if n = SR_PST ∨ n = SR_MSS then 0xE0F3
  else if n = SR_SSS then 0xE0F1
  else if n = SR_SCS ∨ n = SR_MCS then 0x800000FFFFFFFFFF
  else if n = SR_SVB ∨ n = SR_MVB then 0xFFFFFFFFFFFFFFC0
  else if n = SR_SRP ∨ n = SR_MRP ∨ n = SR_FPEA then 0xFFFFFFFFFFFFFFFC
  else if n = SR_SIE then 0x7
  else if n = SR_MIE then 0x15
  else if n = SR_FCS then 0x1FFF
  else if n = SR_FPEI then 0x00011FFFFFFFFFFF
  else if n = SR_ASTAG then 0xFFFF
  else if n = SR_THPR then 0x3
  else if 0x208 ≤ n ∧ n ≤ 0x20F then 0xFF
  else BitVec.allOnes 64

/-- A word under a mask over an older one. -/
def mergeW (old new mask : Word) : Word := (old &&& ~~~ mask) ||| (new &&& mask)

/-- MTS to PST at S or M level; `none` with the cause where it is refused (R110). A thread that comes back below M level with a floating-point trap pending has it due (R127). -/
def Thread.mtsPst (x : Thread) (v : Word) : Except Nat Thread :=
  let pl := PST_PL.get v
  if x.pl = 3 then
    if pl = 2 then .error 0x01
    else
      let y := x.setSr SR_PST (mergeW (x.srg SR_PST) v (srMask SR_PST))
      .ok { y with fpDue := pl != 3 && y.fpPend }
  else if 2 ≤ pl then .error 0x02
  else .ok (x.setSr SR_PST (mergeW (x.srg SR_PST) v 0xF1))

/-- MFS: reads a state register. A read of FCS below M level delivers a pending floating-point trap (R98, R126, R127). -/
def execMfs (t : Thr) (rd : GReg) (n : BitVec 12) (s : State) : Host.Outcome State Fault Refusal :=
  let k := n.toNat
  let lvl := match srRow k with | some r => r.2.1 | none => 0
  let fp := decide (k = SR_FCS ∨ k = SR_FPEA ∨ k = SR_FPEI)
  .next (s.ais t.val (info (0x39 * 2 ^ 26 + rd.val * 2 ^ 21 + k) lvl fp) fun s =>
    let x := s.thr t.val
    if k = SR_FCS ∧ x.pl ≠ 3 ∧ x.fpPend = true then .exc { code := 0x0A } s
    else .ok (x.pc + 4) (s.setThr t.val (x.setGr rd (s.srRead t.val k))))

/-- MTS: writes a state register (R98, R100, R110, R137). -/
def execMts (t : Thr) (ra : GReg) (n : BitVec 12) (s : State) : Host.Outcome State Fault Refusal :=
  let k := n.toNat
  let lvl := match srRow k with | some r => r.2.2.getD 0 | none => 0
  let fp := decide (k = SR_FCS ∨ k = SR_FPEA ∨ k = SR_FPEI)
  let word := 0x3A * 2 ^ 26 + ra.val * 2 ^ 16 + k
  .next (s.ais t.val (info word lvl fp) fun s =>
    let x := s.thr t.val
    let v := x.gr ra
    let trap (c : Nat) : Ex Word := .exc { code := c, info := word, addr := some x.pc } s
    if k = SR_PST then
      match x.mtsPst v with
      | .error c => trap c
      | .ok y => .ok (x.pc + 4) (s.setThr t.val y)
    else if k = SR_TIME then .ok (x.pc + 4) { s with time := v }
    else if k = SR_FCS ∧ (FCS_RM.get v = 0 ∨ 6 ≤ FCS_RM.get v) then trap 0x01
    else .ok (x.pc + 4) (s.setThr t.val (x.setSr k (mergeW (x.srg k) v (srMask k)))))

/-! Barriers (R93, R186, R188, R194). -/

/-- The info of a SYS instruction. -/
def sysInfo (fn : Nat) (lvl : Nat := 0) : InsnInfo := info (encR 0x38 0 0 0 fn) lvl

/-- A waiting instruction of a thread completes. -/
def State.endWaiting (s : State) (t : Nat) : State :=
  (s.modThr t fun x => { x with wait := .none }).retire t ((s.thr t).pc + 4)

/-- An instruction completes if its condition holds, and otherwise the thread waits. -/
def State.orWait (s : State) (t : Nat) (ok : Bool) (w : Wait) : Ex Word :=
  if ok then .ok ((s.thr t).pc + 4) s else .hold (s.modThr t fun x => { x with wait := w })

/-- The condition of SYNC (R186): the loads are performed, since instructions run in order; no store is left in the buffer. -/
def Thread.synced (x : Thread) : Bool := x.sb == []

/-- The condition of DRAIN (R188, R194, R216). -/
def Thread.drained (x : Thread) : Bool := x.sb == [] && x.trk == [] && x.wbs == []

/-- SYNC (R186). -/
def execSync (t : Thr) (s : State) : Host.Outcome State Fault Refusal :=
  .next (s.ais t.val (sysInfo 0x000) fun s => s.orWait t.val (s.thr t.val).synced .sync)

/-- SYNCI: waits as SYNC does. The model keeps no fetched instructions to discard (R93). -/
def execSynci (t : Thr) (s : State) : Host.Outcome State Fault Refusal :=
  .next (s.ais t.val (sysInfo 0x003) fun s => s.orWait t.val (s.thr t.val).synced .synci)

/-- A waiting SYNC or SYNCI completes once its conditions hold (R93, R186). -/
def execSyncComplete (t : Thr) (s : State) : Host.Outcome State Fault Refusal :=
  let x := s.thr t.val
  .next (if x.run = .running ∧ (x.wait = .sync ∨ x.wait = .synci) ∧ x.synced = true then s.endWaiting t.val else s)

/-- The end of a DRAIN: cause 0x12 for a pending device-store failure, which the entry clears (R194). -/
def State.drainEnd (s : State) (t : Nat) : Ex Word :=
  match (s.thr t).devFail with
  | some a => .exc { code := 0x12, addr := some (BitVec.ofNat 64 a) } (s.modThr t fun x => { x with devFail := none })
  | none => .ok ((s.thr t).pc + 4) s

/-- DRAIN (R188, R194). -/
def execDrain (t : Thr) (s : State) : Host.Outcome State Fault Refusal :=
  .next (s.ais t.val (sysInfo 0x001) fun s =>
    if (s.thr t.val).drained then s.drainEnd t.val else .hold (s.modThr t.val fun x => { x with wait := .drain }))

/-- A waiting DRAIN ends (R194). -/
def execDrainEnd (t : Thr) (s : State) : Host.Outcome State Fault Refusal :=
  let x := s.thr t.val
  .next (if x.run = .running ∧ x.wait = .drain ∧ x.drained = true then
      State.finish t.val false ((s.modThr t.val fun x => { x with wait := .none }).drainEnd t.val)
    else s)

/-- FBAR: delivers a pending floating-point trap below M level (R93, R126, R127). -/
def execFbar (t : Thr) (s : State) : Host.Outcome State Fault Refusal :=
  .next (s.ais t.val (sysInfo 0x002) fun s =>
    let x := s.thr t.val
    if x.pl ≠ 3 ∧ x.fpPend = true then .exc { code := 0x0A } s else .ok (x.pc + 4) s)

/-- RETL: trap return; at S level a pending floating-point trap is delivered in its place (R118, R126). -/
def execRetl (t : Thr) (s : State) : Host.Outcome State Fault Refusal :=
  .next (s.ais t.val (sysInfo 0x010 1) fun s =>
    let x := s.thr t.val
    if x.pl ≠ 3 ∧ x.fpPend = true then .exc { code := 0x0A } s
    else match x.retl with
      | some y => .ok y.pc (s.setThr t.val y)
      | none => .exc { code := 0x01, info := (sysInfo 0x010).word, addr := some x.pc } s)

/-- WAIT: stops issue until an interrupt is pending, enabled or not (R93). -/
def execWait (t : Thr) (s : State) : Host.Outcome State Fault Refusal :=
  .next (s.ais t.val (sysInfo 0x011 1) fun s => s.orWait t.val (s.intPending (s.thr t.val)) .waitInt)

/-- BRK: the breakpoint trap (R93). -/
def execBrk (t : Thr) (s : State) : Host.Outcome State Fault Refusal :=
  .next (s.ais t.val (sysInfo 0x012) fun s => .exc { code := 0x05, addr := some (s.thr t.val).pc } s)

/-- PAUSE: a hint, counted (R93, R101). -/
def execPause (t : Thr) (s : State) : Host.Outcome State Fault Refusal :=
  .next (s.ais t.val (sysInfo 0x014) fun s =>
    let x := s.thr t.val
    .ok (x.pc + 4) (s.setThr t.val (x.pmc 0x09)))

/-- SVC: the supervisor call of the thread's level, carrying imm16 (R94, R112). -/
def execSvc (t : Thr) (imm : BitVec 16) (s : State) : Host.Outcome State Fault Refusal :=
  .next (s.ais t.val (info (encI 0x37 0 0 imm.toNat)) fun s =>
    let pl := (s.thr t.val).pl
    .exc { code := if pl = 0 then 0x06 else if pl = 3 then 0x08 else 0x07, info := imm.toNat } s)

/-- A word that is not an instruction raises the illegal-instruction trap (R72); a legal word is not this command's event. -/
def execIllegalInstruction (t : Thr) (w32 : BitVec 32) (s : State) : Host.Outcome State Fault Refusal :=
  .next (if legalWord w32.toNat then s else s.ais t.val (info w32.toNat) fun s => .hold s)

/-! Translation (R164 to R174). -/

/-- TLBWR: one TLB entry from two words (R164, R165). -/
def execTlbwr (t : Thr) (ra rb : GReg) (s : State) : Host.Outcome State Fault Refusal :=
  let word := encR 0x3B 0 ra.val rb.val 0x000
  .next (s.ais t.val (info word 1) fun s =>
    let x := s.thr t.val
    match tlbEntOf (x.gr ra).toNat (x.gr rb).toNat with
    | none => .exc { code := 0x01, info := word, addr := some x.pc } s
    | some e => .ok (x.pc + 4) (s.modCore (s.pcore t.val) fun c => c.tlbWrite e))

/-- A TWALK result: code in [63:59] (R172). -/
def walkRes (code v : Nat) : Word := BitVec.ofNat 64 (code * 2 ^ 59 + v % 2 ^ 59)

/-- The marks a leaf needs (R171 step 8): the bits to OR. -/
def markBits (w : Nat) (wi : Bool) : Nat :=
  (if bitOf w 7 then 0 else 2 ^ 7) + (if wi && bitOf w 3 && !bitOf w 8 then 2 ^ 8 else 0)

/-- The atomic OR of marks into a table entry, and the entry as updated (R171 step 8, R173). -/
def State.walkMark (s : State) (t ea w or : Nat) : Ex Word :=
  if or = 0 then .ok (walkRes 0 w) s
  else if s.memOk (s.part t) ea true = false then .ok (walkRes 4 ea) s
  else
    (s.syncBefore t).bind fun _ s =>
      match s.ownLine t ea 7 true with
      | .exc _ s => .ok (walkRes 4 ea) s
      | e => e.bind fun _ s =>
        let old := fromLe (s.lineRead ea 8)
        .ok (walkRes 0 (old ||| or)) (s.writeSelf t ea (leBytes 8 (old ||| or)))

/-- One step of a table walk (R170 to R173): the result word. A refusal of the read by the line's home counts as no grant. -/
def State.walk (s : State) (t : Nat) (va b : Nat) : Ex Word :=
  let lvl := b % 8
  let c := s.pcore t
  let tag := ((s.thr t).srg SR_ASTAG).toNat % 2 ^ 16
  if b / 2 ^ 52 ≠ 0 ∨ bitsOf b 11 4 ≠ 0 ∨ 4 < lvl ∨ canonical va = false then .ok (walkRes 5 0) s
  else
    let ea := b / 2 ^ 12 * 2 ^ 12 + 8 * bitsOf va (20 + 9 * lvl) (12 + 9 * lvl)
    if bitOf ea 51 then .ok (walkRes 3 ea) s
    else if s.memOk (s.part t) ea false = false then .ok (walkRes 4 ea) s
    else
      match (if 1 ≤ lvl then (s.core c).walkHit tag lvl ea va else none) with
      | some e => .ok (walkRes 0 e.entry.toNat) (s.modCore c fun x => x.walkPut e)
      | none =>
        match s.readMem t ea 8 7 with
        | .exc _ s => .ok (walkRes 4 ea) s
        | e => e.bind fun bytes s =>
          let w := fromLe bytes
          if bitOf w 0 = false then .ok (walkRes 1 w) s
          else if malformed w lvl then .ok (walkRes 2 w) s
          else if bitOf w 1 = false then
            .ok (walkRes 0 w) (s.modCore c fun x => x.walkPut ⟨tag, lvl, ea, walkVa va lvl, BitVec.ofNat 64 w⟩)
          else if s.actF (HWD_XLAT c) HWD_XLAT_ADHW = 1 then s.walkMark t ea w (markBits w (bitOf b 3))
          else .ok (walkRes 0 w) s

/-- TWALK (R170 to R174). (DEDUCED, notes/assumptions/61.md.) -/
def execTwalk (t : Thr) (rd ra rb : GReg) (s : State) : Host.Outcome State Fault Refusal :=
  .next (s.ais t.val (info (encR 0x3B rd.val ra.val rb.val 0x002) 1) fun s =>
    let x := s.thr t.val
    (s.walk t.val (x.gr ra).toNat (x.gr rb).toNat).bind fun v s =>
      let y := s.thr t.val
      .ok (y.pc + 4) (s.setThr t.val (y.setGr rd v)))

/-! Invalidation (R176 to R178, R241). -/

/-- What the threads of physical core `c` have to drain: each with the count of `popped` it must reach (R178). -/
def State.drainsOf (s : State) (c : Nat) : List (Nat × Nat) :=
  let l := s.lcore c
  [2 * l, 2 * l + 1].map fun u => (u, (s.thr u).popped + (s.thr u).sb.length)

/-- The accesses of an invalidation have drained (R178). -/
def State.bcastDrained (s : State) (b : Bcast) : Bool :=
  b.drains.all fun d => decide (d.2 ≤ (s.thr d.1).popped) && (s.thr d.1).trk.all fun e => decide (d.2 ≤ e.seq)

/-- An invalidation is complete on this module (R178). -/
def State.bcastDone (s : State) (b : Bcast) : Bool := b.cores == 0 && s.bcastDrained b

/-- Core `c` performs an invalidation (R176). -/
def State.bcastAt (s : State) (b : Bcast) (c : Nat) : State × Bcast :=
  (s.modCore c fun x => x.invalidate b.fn b.ra.toNat b.rb.toNat,
    { b with cores := setBit b.cores c false, drains := b.drains ++ s.drainsOf c })

/-- The other cores of this module that a broadcast of core `c` waits for: a core held in reset counts as complete at once (R177, R178). -/
def State.bcastCores (s : State) (c : Nat) : Nat :=
  ((List.range 72).filter fun d => d != c && s.inBroadcast c d && !(s.core d).held && !s.leaving d).foldl (fun m d => m + 2 ^ d) 0

/-- Send TLBB to another module (R241). -/
def State.sendTlbb (s : State) (t bgrp : Nat) (b : Bcast) (m : Nat) : State :=
  let tid := s.newTid
  let o : OutTx := ⟨tid, m, 0, s.part t, some t, .tlbb t⟩
  { s with out := s.out ++ [o] }.send { s.mkMsg OPC_TLBB m 0 with
    rqm := s.self, tid := tid, part := s.part t, aux := bgrp + 256 * (b.fn % 16), w0 := b.ra, w1 := b.rb }

/-- Broadcasts of other modules that are complete are answered with TLBA (R241). -/
def State.settleBcasts (s : State) : State :=
  let done := s.inb.filter fun i => s.bcastDone i.b
  done.foldl (fun s i => s.send { s.mkMsg OPC_TLBA i.src 0 with rqm := i.src, tid := i.tid, part := i.part })
    { s with inb := s.inb.filter fun i => !s.bcastDone i.b }

/-- A TLBI or WCI of thread `t` (R176 to R178): its own core acts at once; it completes at once where nothing is awaited. -/
def State.inval (s : State) (t fn : Nat) (ra rb : Option GReg) : State :=
  let n (r : Option GReg) : Nat := match r with | some r => r.val | none => 0
  let v (r : Option GReg) : Word := match r with | some r => (s.thr t).gr r | none => 0
  s.ais t (info (encR 0x3B 0 (n ra) (n rb) (0x010 + fn)) 1) fun s =>
    let c := s.pcore t
    let g := s.actF (HWD_XLAT c) HWD_XLAT_BGRP
    let bc := fn % 2 == 1
    let (s, b) := s.bcastAt ⟨fn, v ra, v rb, if bc then s.bcastCores c else 0, []⟩ c
    let mods := if bc && g != 0 then s.liveOthers else []
    if mods ≠ [] ∧ 4089 ≤ s.out.length + s.home.length then .hold s else
    let s := mods.foldl (fun s m => s.sendTlbb t g b m) s
    s.orWait t (mods == [] && s.bcastDone b) (.inval b (mods.foldl (fun a m => a + 2 ^ m) 0))

/-- TLBI.VA (R176). -/
def execTlbiVa (t : Thr) (ra rb : GReg) (s : State) : Host.Outcome State Fault Refusal := .next (s.inval t.val 0 (some ra) (some rb))
/-- TLBI.VA.B (R177). -/
def execTlbiVaB (t : Thr) (ra rb : GReg) (s : State) : Host.Outcome State Fault Refusal := .next (s.inval t.val 1 (some ra) (some rb))
/-- TLBI.TAG (R176). -/
def execTlbiTag (t : Thr) (rb : GReg) (s : State) : Host.Outcome State Fault Refusal := .next (s.inval t.val 2 none (some rb))
/-- TLBI.TAG.B (R177). -/
def execTlbiTagB (t : Thr) (rb : GReg) (s : State) : Host.Outcome State Fault Refusal := .next (s.inval t.val 3 none (some rb))
/-- TLBI.ALL (R176). -/
def execTlbiAll (t : Thr) (s : State) : Host.Outcome State Fault Refusal := .next (s.inval t.val 4 none none)
/-- TLBI.ALL.B (R177). -/
def execTlbiAllB (t : Thr) (s : State) : Host.Outcome State Fault Refusal := .next (s.inval t.val 5 none none)
/-- WCI.VA (R176). -/
def execWciVa (t : Thr) (ra rb : GReg) (s : State) : Host.Outcome State Fault Refusal := .next (s.inval t.val 8 (some ra) (some rb))
/-- WCI.VA.B (R177). -/
def execWciVaB (t : Thr) (ra rb : GReg) (s : State) : Host.Outcome State Fault Refusal := .next (s.inval t.val 9 (some ra) (some rb))
/-- WCI.TAG (R176). -/
def execWciTag (t : Thr) (rb : GReg) (s : State) : Host.Outcome State Fault Refusal := .next (s.inval t.val 10 none (some rb))
/-- WCI.TAG.B (R177). -/
def execWciTagB (t : Thr) (rb : GReg) (s : State) : Host.Outcome State Fault Refusal := .next (s.inval t.val 11 none (some rb))
/-- WCI.ALL (R176). -/
def execWciAll (t : Thr) (s : State) : Host.Outcome State Fault Refusal := .next (s.inval t.val 12 none none)
/-- WCI.ALL.B (R177). -/
def execWciAllB (t : Thr) (s : State) : Host.Outcome State Fault Refusal := .next (s.inval t.val 13 none none)

/-- A target core receives a broadcast TLBI or WCI and removes the matching entries (R177). -/
def execInvalidationBroadcastReceive (src : InvSrc) (c : Pcore) (s : State) : Host.Outcome State Fault Refusal :=
  .next (match src with
    | .thread t =>
      match (s.thr t.val).wait with
      | .inval b mods =>
        if bitOf b.cores c.val then
          let r := s.bcastAt b c.val
          r.1.modThr t.val fun x => { x with wait := .inval r.2 mods }
        else s
      | _ => s
    | .peer m tid =>
      match s.inb.find? fun i => i.src == m.val && i.tid == tid.toNat with
      | some i =>
        if bitOf i.b.cores c.val then
          let r := s.bcastAt i.b c.val
          ({ r.1 with inb := r.1.inb.map fun j => if j == i then { i with b := r.2 } else j } : State).settleBcasts
        else s
      | none => s)

/-- A TLBI or WCI completes once every target has removed its entries and drained the accesses concerned (R178). -/
def execInvalidationComplete (t : Thr) (s : State) : Host.Outcome State Fault Refusal :=
  .next (match (s.thr t.val).wait with
    | .inval b mods =>
      if (s.thr t.val).run = .running ∧ mods = 0 ∧ s.bcastDone b = true then s.endWaiting t.val else s
    | _ => s)

end Sys2Proof.Machine
end

