-- ==== Sys2Proof/Machine/Stores.lean ====
section
/-! DEFINITION. What happens to a thread between its instructions: buffered stores, device stores and loads and their failures, interrupts and fixed events (R122, R130 to R132, R185, R189 to R196, R203, R216). -/

namespace Sys2Proof.Machine

/-- The head of a store buffer leaves it. -/
def Thread.popStore (x : Thread) : Thread := { x with sb := x.sb.drop 1, popped := x.popped + 1 }

/-- A buffered store that cannot have its line: after a Firebreak refusal at the home the thread takes the violation (R239); otherwise the store is discarded and the thread receives an M error notification (R260). (DEDUCED, notes/assumptions/55.md.) -/
def State.storeErr (s : State) (t : Nat) (e : StoreEnt) (st : Nat) : State :=
  let s := (s.takeErr (lineOf e.pa)).modThr t Thread.popStore
  if st = 1 then
    let c : Cause := { code := 0x24, info := 1, addr := some (BitVec.ofNat 64 e.pa) }
    s.takeM t c e.pc (some 0x100) true
  else s.log { block := 0x01, inst := s.pcore t, cls := 2, typ := 0x0A, addr := some e.pa, part := some (s.part t), thread := some t }

/-- A cache maintenance operation of the thread is already on its way. -/
def State.cmoOut (s : State) (t : Nat) : Bool :=
  (s.home.any fun x => x.src == s.self && x.thr == some t && isCmo x.opc) ||
    s.out.any fun o => match o.kind with | .cmo _ u => u == t | _ => false

/-- Start the CLWB, CLFLUSH or CLINV at the head of a store buffer (R215, R216, R240). -/
def State.startCmo (s : State) (t opc l : Nat) : State :=
  if s.cmoOut t || s.tidsFull then s
  else if lineHome l = s.self then s.homeAccept opc l s.self s.newTid (s.part t) (some t)
  else if s.pathLost (lineHome l) then (s.modThr t Thread.popStore).setLine l Line.none
  else
    let tid := s.newTid
    let o : OutTx := ⟨tid, lineHome l, l, s.part t, some t, .cmo opc t⟩
    { s with out := s.out ++ [o] }.send { s.mkMsg opc (lineHome l) l with rqm := s.self, tid := tid, part := s.part t }

/-- The head of thread `t`'s store buffer becomes visible where it can, and otherwise what it needs is requested (R185, R216). -/
def State.storeVisible (s : State) (t : Nat) : State :=
  match (s.thr t).sb with
  | [] => s
  | e :: _ =>
    let l := lineOf e.pa
    match e.kind with
    | .dev => s
    | .mem =>
      match s.reachOwned t e.pa with
      | (.ok, s) =>
        let s := s.writeOwned t e.pa e.bytes e.poison
        s.modThr t Thread.popStore
      | (.err st, s) => s.storeErr t e st
      | (_, s) => s
    | .clzero =>
      if s.deferred l t then s
      else
        let s := match s.accWrite l with
          | .need opc => s.request (if opc = OPC_RDO then OPC_RDZ else opc) l (s.part t) (some t)
          | _ => s
        match s.accWrite l with
        | .ok => ((s.writeOwned t e.pa (List.replicate 256 0) e.poison).clearResv l fun _ => true).modThr t Thread.popStore
        | .err st => s.storeErr t e st
        | _ => s
    | .clwb => s.startCmo t OPC_CMW l
    | .clflush => s.startCmo t OPC_CMF l
    | .clinv => s.startCmo t OPC_CMI l

/-- STORE_VISIBLE: a buffered store becomes visible to every agent at one instant (R185). -/
def execStoreVisible (t : Thr) (s : State) : Host.Outcome State Fault Refusal := .next (s.storeVisible t.val).settleBcasts

/-! Device stores (R190 to R193). -/

/-- A store of thread `t` to `pa` fails now: at a target already marked failed with a corrected record, otherwise the target is marked and every outstanding store to it fails (R192, R193). -/
def State.failStore (s : State) (t pa : Nat) : State :=
  let due (s : State) : State := s.modThr t fun x => { x with devFail := match x.devFail with | some a => some a | none => some pa }
  due (if s.failed.contains (s.devKey pa) then s.logDev t pa 1 else (s.failTarget pa).logDev t pa 2)

/-- A register window takes 4 and 8 bytes (R6). -/
def regSize (n : Nat) : Bool := n == 4 || n == 8

/-- The target accepts the device store at the head of a store buffer, while the tracker holds fewer than `room` entries (R190 to R193, R241). -/
def State.acceptStore (s : State) (t room : Nat) : State :=
  match (s.thr t).sb with
  | [] => s
  | e :: _ =>
    if e.kind ≠ .dev ∨ room ≤ (s.thr t).trk.length ∨ 2 ≤ s.wind then s
    else
      let seq := (s.thr t).popped
      let enter (s : State) (tid : Option Nat) : State :=
        s.modThr t fun x => { x.popStore with trk := x.trk ++ [⟨e.pa, e.bytes, e.lvl, seq, false, tid⟩] }
      let pop (s : State) : State := (s.modThr t Thread.popStore).settleBcasts
      if s.failed.contains (s.devKey e.pa) then pop (s.failStore t e.pa)
      else if paModule e.pa ≠ s.self then
        if s.pathLost (paModule e.pa) then pop (s.failStore t e.pa)
        else if regSize e.bytes.length = false then pop s
        else if s.tidsFull then s
        else
          let tid := s.newTid
          let m : Msg := { s.mkMsg OPC_MWR (paModule e.pa) (lineOf e.pa) with
            rqm := s.self, tid := tid, part := s.part t, aux := e.pa % 256 + 256 * b2n (e.bytes.length == 8)
            w0 := BitVec.ofNat 64 (fromLe e.bytes) }
          let o : OutTx := ⟨tid, paModule e.pa, lineOf e.pa, s.part t, some t, .mwr t⟩
          enter ({ s with out := s.out ++ [o] }.send m) (some tid)
      else match paDst e.pa with
        | .port x _ => if s.halfDown x then pop (s.failStore t e.pa) else enter s none
        | .reg _ _ _ => enter s none
        | .none => pop s

/-- DEVICE_STORE_ACCEPT: the target accepts the device store at the head of the buffer (R190 to R193, R241). -/
def execDeviceStoreAccept (t : Thr) (s : State) : Host.Outcome State Fault Refusal := .next (s.acceptStore t.val 16)

/-- Remove entry `i` of a thread's tracker. -/
def Thread.dropTrk (x : Thread) (i : Nat) : Thread := { x with trk := dropIdx x.trk i }

/-- DEVICE_STORE_COMPLETE: a register window of this module performs the write; one target performs a thread's stores in order (R188, R189). -/
def execDeviceStoreComplete (t : Thr) (idx : Nat) (s : State) : Host.Outcome State Fault Refusal :=
  .next (match (s.thr t.val).trk[idx]? with
    | some e =>
      let first := !((s.thr t.val).trk.take idx).any fun f => s.devKey f.pa == s.devKey e.pa
      match (if paModule e.pa = s.self then paDst e.pa else DevDst.none) with
      | .reg b i o =>
        if first then
          (((s.modThr t.val fun x => x.dropTrk idx).regWrite ⟨.core t, e.lvl, some (s.part t.val)⟩ b i o e.bytes.length
            (BitVec.ofNat 64 (fromLe e.bytes))).settleBcasts)
        else s
      | _ => s
    | none => s)

/-- DEVICE_STORE_TIMEOUT: DTMO has passed for a store in the tracker, or for the one at the head of the buffer (`idx` past the tracker), which fails (R192). -/
def execDeviceStoreTimeout (t : Thr) (idx : Nat) (s : State) : Host.Outcome State Fault Refusal :=
  .next (match (s.thr t.val).trk[idx]? with
    | some e => (s.failStore t.val e.pa).settleBcasts
    | none =>
      match (s.thr t.val).sb with
      | e :: _ =>
        if e.kind = .dev ∧ idx = (s.thr t.val).trk.length then ((s.modThr t.val Thread.popStore).failStore t.val e.pa).settleBcasts else s
      | [] => s)

/-- The tracker entries of a port half of this module. -/
def State.atPort (s : State) (x : Nat) (e : TrkEnt) : Bool :=
  match (if paModule e.pa = s.self then paDst e.pa else DevDst.none) with
  | .port y _ => y == x
  | _ => false

/-- ZERO_LENGTH_READ_SEND: one zero-length read follows the thread's outstanding writes to a port half (R191). -/
def execZeroLengthReadSend (t : Thr) (target : Nat) (s : State) : Host.Outcome State Fault Refusal :=
  .next (s.modThr t.val fun x => { x with trk := x.trk.map fun e => if s.atPort target e then { e with zlr := true } else e })

/-- ZERO_LENGTH_READ_COMPLETION: the completion of the read completes every write sent before it; Unsupported Request or Completer Abort fails them (R191, R192). -/
def execZeroLengthReadCompletion (t : Thr) (target : Nat) (ok : Bool) (s : State) : Host.Outcome State Fault Refusal :=
  let f (e : TrkEnt) : Bool := s.atPort target e && e.zlr
  .next (
    if ok then (s.modThr t.val fun x => { x with trk := x.trk.filter fun e => !f e }).settleBcasts
    else
      match (s.thr t.val).trk.find? f with
      | some e => (s.failStore t.val e.pa).settleBcasts
      | none => s)

/-- Every device store of a thread that is still incomplete fails, those in the tracker first (R194). -/
def State.failAllStores (s : State) (t : Nat) : State :=
  let s := (s.thr t).trk.foldl (fun s e => if (s.thr t).trk.contains e then s.failStore t e.pa else s) s
  let s := s.modThr t fun x => { x with trk := [] }
  let dev := (s.thr t).sb.filter fun e => e.kind == .dev
  let s := s.modThr t fun x => { x with sb := x.sb.filter fun e => e.kind != .dev, popped := x.popped + dev.length }
  dev.foldl (fun s e => s.failStore t e.pa) s

/-- DRAIN_TIMEOUT: DTMO has passed while a DRAIN waits (R194). -/
def execDrainTimeout (t : Thr) (s : State) : Host.Outcome State Fault Refusal :=
  .next (if (s.thr t.val).run = .running ∧ (s.thr t.val).wait = .drain then (s.failAllStores t.val).settleBcasts else s)

/-! Device loads (R189, R196). -/

/-- Give a value to the first device load of a thread that awaits one and that `f` selects. -/
def giveLoad (f : DevLoad → Bool) (v : BitVec 128) : List DevLoad → List DevLoad
  | [] => []
  | d :: r => if d.val.isNone && f d then { d with val := some v } :: r else d :: giveLoad f v r

/-- DEVICE_LOAD_COMPLETE: a port half returns data, or Unsupported Request or Completer Abort, which fails the load at once (R189, R196). -/
def execDeviceLoadComplete (t : Thr) (ok : Bool) (data : BitVec 128) (s : State) : Host.Outcome State Fault Refusal :=
  .next (match (s.thr t.val).devLoad.find? fun d => d.val.isNone && d.tid.isNone with
    | some d =>
      let give (s : State) (v : BitVec 128) : State := s.modThr t.val fun x => { x with devLoad := giveLoad (fun d => d.tid.isNone) v x.devLoad }
      if ok then give s (data &&& onesVal d.size) else give (s.lostLoad t.val d.pa) (onesVal d.size)
    | none => s)

/-- DEVICE_LOAD_TIMEOUT: a device load without completion within DTMO returns all ones (R196). -/
def execDeviceLoadTimeout (t : Thr) (s : State) : Host.Outcome State Fault Refusal :=
  .next (match (s.thr t.val).devLoad.find? fun d => d.val.isNone with
    | some d =>
      let s := { s with out := s.out.filter fun o => !(d.tid == some o.tid) }
      (s.lostLoad t.val d.pa).modThr t.val fun x => { x with devLoad := giveLoad (fun _ => true) (onesVal d.size) x.devLoad }
    | none => s)

/-! Interrupts and fixed events (R119 to R132). -/

/-- The thread stands at an instruction boundary or in a wait that an event may end (R122). -/
def Thread.open (x : Thread) : Bool :=
  x.run == .running && x.devLoad == [] && (match x.wait with | .none | .sync | .drain | .waitInt => true | _ => false)

/-- No event of higher precedence than an interrupt is due (R128). -/
def Thread.intTurn (x : Thread) : Bool :=
  !x.wtwPend && (x.pstBit PST_MTA || (x.tkoPend.isNone && x.rexPend == []))

/-- S_INTERRUPT_ENTRY (R122, R128). -/
def execSInterruptEntry (t : Thr) (s : State) : Host.Outcome State Fault Refusal :=
  let x := (s.thr t.val)
  .next (
    if x.open = true ∧ x.intTurn = true ∧ x.mInt = none then
      match s.sInt x with
      | some b => (s.setThr t.val x.endWait).takeSInt t.val b x.endWait.pc
      | none => s
    else s)

/-- M_INTERRUPT_ENTRY (R122, R128). -/
def execMInterruptEntry (t : Thr) (s : State) : Host.Outcome State Fault Refusal :=
  let x := (s.thr t.val)
  .next (
    if x.open = true ∧ x.intTurn = true then
      match x.mInt with
      | some b => (s.setThr t.val x.endWait).takeMInt t.val b x.endWait.pc
      | none => s
    else s)

/-- STIMER_MATCH: TIME reaches STCMP, and SIP.STI is pending from then on (R121, R122). (DEDUCED, notes/assumptions/60.md.) -/
def execStimerMatch (t : Thr) (s : State) : Host.Outcome State Fault Refusal :=
  let x := s.thr t.val
  .next (if x.run = .running ∧ s.time < x.srg SR_STCMP then
    { s with time := x.srg SR_STCMP, uptime := s.uptime + (x.srg SR_STCMP - s.time).toNat } else s)

/-- IDENTIFIER_ARRIVE (R122); identifier 0xFFFF is never assigned. -/
def execIdentifierArrive (t : Thr) (mlevel : Bool) (id : BitVec 16) (s : State) : Host.Outcome State Fault Refusal :=
  .next (if id.toNat = 0xFFFF then s else s.sendId t.val mlevel id.toNat)

/-- TAKEOVER_RESUME_ENTRY (R130): the deferred event is taken at a boundary where MTA = 0. -/
def execTakeoverResumeEntry (t : Thr) (s : State) : Host.Outcome State Fault Refusal :=
  let x := s.thr t.val
  .next (if x.open = true ∧ x.wtwPend = false ∧ x.pstBit PST_MTA = false ∧ x.tkoPend.isSome = true then
      (((s.setThr t.val { x with wait := .none }).boundary t.val).getD s)
    else s)

/-- RETRY_EXHAUSTED_NOTIFICATION (R132): after a takeover resume, if both are due. -/
def execRetryExhaustedNotification (t : Thr) (s : State) : Host.Outcome State Fault Refusal :=
  let x := s.thr t.val
  .next (if x.open = true ∧ x.wtwPend = false ∧ x.pstBit PST_MTA = false ∧ x.tkoPend = none ∧ x.rexPend ≠ [] then
      (((s.setThr t.val { x with wait := .none }).boundary t.val).getD s)
    else s)

/-- WINDTHROW_WARNING: every running thread for which it is pending enters M-base + 0x180, whatever MTA and MDT hold (R120). -/
def execWindthrowWarning (s : State) : Host.Outcome State Fault Refusal :=
  .next ((s.runningThreads.filter fun t => (s.thr t).wtwPend).foldl
    (fun s t => ((s.modThr t fun x => { x with wait := .none, devLoad := [] }).boundary t).getD s) s)

end Sys2Proof.Machine
end

