-- ==== Sys2Proof/Machine/Coppice.lean ====
section
/-! DEFINITION. The Coppice controller's commands: decisions, the steps of a takeover, and the self-test of spares (R206, R211, R447 to R457). -/

namespace Sys2Proof.Machine

/-- CPC_APPROVE: a write of CPC_APP with DECIDE 1 (R448). -/
def execCpcApprove (org : Origin) (reqid : BitVec 8) (s : State) : Host.Outcome State Fault Refusal :=
  .next (s.writeAs org 0x03 0 0x018 8 (CPC_APP_REQID.put (CPC_APP_DECIDE.put 0 1) reqid.toNat))

/-- CPC_DECLINE: a write of CPC_APP with DECIDE 2 (R448). -/
def execCpcDecline (org : Origin) (reqid : BitVec 8) (s : State) : Host.Outcome State Fault Refusal :=
  .next (s.writeAs org 0x03 0 0x018 8 (CPC_APP_REQID.put (CPC_APP_DECIDE.put 0 2) reqid.toNat))

/-- CPC_APP_INVALID: a write of CPC_APP with DECIDE 0 or 3 (R448). -/
def execCpcAppInvalid (org : Origin) (val : Word) (s : State) : Host.Outcome State Fault Refusal :=
  .next (if CPC_APP_DECIDE.get val = 0 ∨ CPC_APP_DECIDE.get val = 3 then s.writeAs org 0x03 0 0x018 8 val else s)

/-- APPWAIT_EXPIRE: an undecided request is decided by DEFAULT, which is logged (R449). -/
def execAppwaitExpire (reqid : BitVec 8) (s : State) : Host.Outcome State Fault Refusal :=
  .next (match s.tkos.find? fun k => k.reqid == reqid.toNat && k.decided.isNone with
    | some k =>
      let ok := s.actF CPC_CTL CPC_CTL_DEFAULT == 1
      (s.logC 0x03 0 0x0B [BitVec.ofNat 8 k.reqid, if ok then 1 else 2]).decideReq k ok
    | none => s)

/-! Step 2: the failing core's stores and lines (R206, R211, R455). -/

/-- The head of a store buffer is performed or handed on: a device store to its target, whatever room the tracker has; a store whose line cannot be reached writes its bytes with poison. -/
def State.handOnStore (s : State) (t : Nat) (lost : List Nat) : State :=
  match (s.thr t).sb with
  | [] => s
  | e :: r =>
    if e.kind = .dev then s.acceptStore t 64
    else if lost.contains (lineOf e.pa) ∧ e.kind = .mem then
      let s := s.modThr t fun x => { x with sb := { e with poison := true } :: r }
      (s.log { block := 0x01, inst := s.pcore t, cls := 2, typ := 0x04, addr := some e.pa, part := some (s.part t), thread := some t }).storeVisible t
    else s.storeVisible t

/-- Perform or hand on the buffered stores of a thread, as far as their lines are there. -/
def State.handOnStores : Nat → State → Nat → List Nat → State
  | 0, s, _, _ => s
  | n + 1, s, t, lost =>
    let s' := s.handOnStore t lost
    if (s'.thr t).popped = (s.thr t).popped then s' else State.handOnStores n s' t lost

/-- The lines of a core leave it; a modified line it cannot yield is poisoned (R211, R455). -/
def State.drainCore (s : State) (c : Nat) (lost : List Nat) : State :=
  let held := (s.lines.filter fun e => bitOf e.2.pres c).map (·.1)
  let s := (held.filter fun l => lost.contains l && (s.line l).st == LineSt.m).foldl (fun s l =>
    (s.modLine l fun x => { x with poison := true }).log {
      block := 0x01, inst := c, cls := 2, typ := 0x04, addr := some (l * 256), part := some (s.corePart c) }) s
  (held.foldl (fun s l => s.coreDrop l c) s).modCore c fun x => { x with l1i := [], l1d := [], l2 := [], side := [] }

/-- TAKEOVER_DRAIN_DONE: step 2 ends once no store of the failing core waits; until then the lines its stores need are requested (R453). -/
def execTakeoverDrainDone (c : Pcore) (lost : List Nat) (s : State) : Host.Outcome State Fault Refusal :=
  .next (match s.tkos.find? fun k => k.started && k.failing == c.val && !k.drained with
    | some k =>
      let s := (s.coreThreads c.val).foldl (fun s t => State.handOnStores 49 s t lost) s
      if (s.coreThreads c.val).all fun t => (s.thr t).sb == [] then
        ((s.drainCore c.val lost).modTko k.reqid fun k => { k with drained := true }).settleBcasts
      else s.settleBcasts
    | none => s)

/-- SPARE_ENTRY_CHECK_DONE: step 3 ends for the current candidate `c` (R453, R454). -/
def execSpareEntryCheckDone (c : Pcore) (ok : Bool) (s : State) : Host.Outcome State Fault Refusal :=
  .next (match s.tkos.find? fun k => k.started && k.spare == c.val && !k.checked with
    | some k => if ok then s.modTko k.reqid fun k => { k with checked := true } else s.candidateFails k 2
    | none => s)

/-- Step 7: the threads of the pair resume on the spare, takeover resume pending for each (R130, R453). -/
def State.resumePair (s : State) (f c us : Nat) (k : Takeover) : State :=
  let i := takeoverRec (s.corePart c) f c k.failed us
  let w := (s.recOf i).summary
  let s := (s.log i).incF CPC_STAT CPC_STAT_TAKEOVER
  ((s.coreThreads c).filter fun t => (s.thr t).run == .stoppedRetry).foldl (fun s t =>
    s.modThr t fun x => { x with run := .running, retries := 0, resv := none, defer := 0, tkoPend := some (f, w) }) s

/-- TAKEOVER_TRANSFER: once steps 2, 3 and 4 have ended, the images are sent and checked, roles exchanged, and the threads resume; `us` is the time from step 1 (R453, R454). -/
def execTakeoverTransfer (c : Pcore) (ok : Bool) (us : BitVec 32) (s : State) : Host.Outcome State Fault Refusal :=
  .next (match s.tkos.find? fun k => k.started && k.failing == c.val && k.drained && k.checked && k.decided == some true with
    | some k =>
      if ok then ((s.exchange c.val k.spare).dropTko k.reqid).resumePair c.val k.spare us.toNat k
      else s.candidateFails k 3
    | none => s)

/-- SPARE_SELF_TEST_PASS: a pass of a spare's self-test ends outside the windows of R457: health state 2 or 3 (R456). -/
def execSpareSelfTestPass (c : Pcore) (ok : Bool) (s : State) : Host.Outcome State Fault Refusal :=
  .next (
    if s.pooled c.val = false ∨ s.testPaused c.val = true then s
    else
      let h := CPC_HEALTH c.val
      if ok then
        let t := s.uptime
        (((s.setF h CPC_HEALTH_STATE 2).setF h CPC_HEALTH_STALE 0).incF h CPC_HEALTH_PASSES).modCore c.val fun x => { x with passAt := some t }
      else (s.setF h CPC_HEALTH_STATE 3).logC 0x03 0 0x09 [BitVec.ofNat 8 c.val, 1])

end Sys2Proof.Machine
end

