-- ==== Sys2Proof/Machine/Long.lean ====
section
/-! DEFINITION. LONG instructions, one unit of at most 256 bytes per command (R85 to R88, R124, R125), and the checks of operands in several pieces. -/

namespace Sys2Proof.Machine

/-- A piece of an operand: virtual address, length, type, access kind, and the address its faults name (R112, R124). -/
structure Piece where
  va : Word
  len : Nat
  acc : Acct
  kind : Nat
  sfa : Option Word

/-- Insert a piece in ascending address order. -/
def insPiece (p : Piece) : List Piece → List Piece
  | [] => [p]
  | q :: t => if p.va ≤ q.va then p :: q :: t else q :: insPiece p t

/-- Pieces in ascending address order (R114). -/
def sortPieces (l : List Piece) : List Piece := l.foldr insPiece []

/-- The pieces of an operand, cut at line boundaries. -/
def operand (va : Word) (n : Nat) (a : Acct) (kind : Nat) (sfa : Option Word) : List Piece :=
  (pieces va.toNat n false).map fun p => ⟨va + BitVec.ofNat 64 p.1, p.2, a, kind, sfa⟩

/-- The physical address found for a virtual one. -/
def paAt (m : List (Word × Nat)) (va : Word) : Nat := ((m.find? fun e => e.1 == va).map (·.2)).getD 0

/-- Check pieces in order: their physical addresses by virtual address. -/
def State.checkAll (s : State) (t : Nat) : List Piece → Ex (List (Word × Nat))
  | [] => .ok [] s
  | p :: r =>
    (s.checkMem t p.va p.sfa p.acc p.kind false).bind fun pa s =>
      (s.checkAll t r).bind fun m s => .ok ((p.va, pa) :: m) s

/-- Read the pieces of one operand in order. -/
def State.readAll (s : State) (t : Nat) (m : List (Word × Nat)) : List Piece → Ex (List Byte)
  | [] => .ok [] s
  | p :: r =>
    (s.readMem t (paAt m p.va) p.len p.kind).bind fun b s =>
      (s.readAll t m r).bind fun c s => .ok (b ++ c) s

/-- The physical addresses of an operand's bytes. -/
def byteAddrs (m : List (Word × Nat)) (l : List Piece) : List Nat :=
  l.flatMap fun p => (List.range p.len).map fun i => paAt m p.va + i

/-- Copy one byte at a time in ascending order: a source byte already written in this unit is the byte just copied (R85). `src` pairs each source address with its byte, `dst` lists the destination addresses, and `done` holds the bytes written so far, latest first. -/
def copyBytes : List (Nat × Byte) → List Nat → List (Nat × Byte) → List Byte
  | (sa, b) :: src, d :: dst, done =>
    let v := ((done.find? fun e => e.1 == sa).map (·.2)).getD b
    v :: copyBytes src dst ((d, v) :: done)
  | _, _, _ => []

/-- The length of the next unit: it ends where the first operand reaches a multiple of 256 (R88). -/
def unitLen (a n : Word) : Nat := min n.toNat (256 - a.toNat % 256)

/-- The registers advance by `k` bytes (R86). -/
def Thread.advance (x : Thread) (rd : GReg) (ra : Option GReg) (k : Nat) : Thread :=
  let w : Word := BitVec.ofNat 64 k
  let x := (x.setGr rd (x.gr rd + w)).setGr (oddOf rd) (x.gr (oddOf rd) - w)
  { (match ra with | some r => x.setGr r (x.gr r + w) | none => x) with defer := 0 }

/-- A unit is done: the instruction completes if no length is left, and otherwise executes again (R88, R124). -/
def State.endUnit (s : State) (t : Nat) (rd : GReg) : Ex Word :=
  let x := s.thr t
  if x.gr (oddOf rd) = 0 then .ok (x.pc + 4) s else .hold s

/-- Store a unit at the first operand, which lies in one line. -/
def State.storeUnit (s : State) (t pa : Nat) (bytes : List Byte) : Ex Unit :=
  s.pushAll t [⟨.mem, pa, bytes, (s.thr t).pl, false, (s.thr t).pc⟩]

/-- MVL: copies rd+1 bytes from ra to rd (R85, R86). (DESIGN CHOICE, notes/assumptions/11.md.) -/
def execMvl (t : Thr) (rd ra : GReg) (s : State) : Host.Outcome State Fault Refusal :=
  .next (s.ais t.val (info (encR 0x35 rd.val ra.val 0 0x000)) fun s =>
    let x := s.thr t.val
    let a := x.gr rd
    let b := x.gr ra
    let u := unitLen a (x.gr (oddOf rd))
    if u = 0 then .ok (x.pc + 4) s
    else
      let p := operand a u .write 3 (some a)
      let q := operand b u .read 4 (some b)
      (s.checkAll t.val (sortPieces (p ++ q))).bind fun m s =>
        (s.readAll t.val m q).bind fun src s =>
          let out := copyBytes ((byteAddrs m q).zip src) (byteAddrs m p) []
          (s.storeUnit t.val (paAt m a) out).bind fun _ s =>
            (s.modThr t.val fun x => x.advance rd (some ra) u).endUnit t.val rd)

/-- FLL: stores the byte ra[7:0] into rd+1 bytes from rd (R85, R86). -/
def execFll (t : Thr) (rd ra : GReg) (s : State) : Host.Outcome State Fault Refusal :=
  .next (s.ais t.val (info (encR 0x35 rd.val ra.val 0 0x002)) fun s =>
    let x := s.thr t.val
    let a := x.gr rd
    let u := unitLen a (x.gr (oddOf rd))
    if u = 0 then .ok (x.pc + 4) s
    else
      (s.checkAll t.val (operand a u .write 3 (some a))).bind fun m s =>
        (s.storeUnit t.val (paAt m a) (List.replicate u ((x.gr ra).setWidth 8))).bind fun _ s =>
          (s.modThr t.val fun x => x.advance rd none u).endUnit t.val rd)

/-- The index of the first difference of two byte strings of one length. -/
def firstDiff : List Byte → List Byte → Nat
  | a :: r, b :: q => if a = b then 1 + firstDiff r q else 0
  | _, _ => 0

/-- CML: compares rd+1 bytes at rd with the bytes at ra and stops at the first difference; rb is written only at completion (R85, R86, R124). -/
def execCml (t : Thr) (rd ra rb : GReg) (s : State) : Host.Outcome State Fault Refusal :=
  .next (s.ais t.val (info (encR 0x35 rd.val ra.val rb.val 0x001)) fun s =>
    let x := s.thr t.val
    let a := x.gr rd
    let b := x.gr ra
    let u := unitLen a (x.gr (oddOf rd))
    if u = 0 then .ok (x.pc + 4) (s.setThr t.val (x.setGr rb 0))
    else
      let p := operand a u .read 3 (some a)
      let q := operand b u .read 4 (some b)
      (s.checkAll t.val (sortPieces (p ++ q))).bind fun m s =>
        (s.readAll t.val m p).bind fun v s =>
          (s.readAll t.val m q).bind fun w s =>
            let i := firstDiff v w
            let y := (s.thr t.val).advance rd (some ra) i
            if i < u then
              let lo := decide ((v.drop i).headD 0 < (w.drop i).headD 0)
              .ok (y.pc + 4) (s.setThr t.val (y.setGr rb (if lo then BitVec.allOnes 64 else 1)))
            else if y.gr (oddOf rd) = 0 then .ok (y.pc + 4) (s.setThr t.val (y.setGr rb 0))
            else .hold (s.setThr t.val y))

end Sys2Proof.Machine
end

