-- ==== Sys2Proof/Machine/Decimal.lean ====
section
/-! DEFINITION. The packed-decimal instructions (R89, R152 to R156). -/

namespace Sys2Proof.Machine

/-- The nibbles of a field, high before low (R152). -/
def nibbles (l : List Byte) : List Nat := l.flatMap fun b => [b.toNat / 16, b.toNat % 16]

/-- The first invalid nibble from index `i` on, the last being the sign: its index and code 4 or 5 (R153 step 3). -/
def badNibble : List Nat → Nat → Option (Nat × Nat)
  | [], _ => none
  | [sgn], i => if sgn < 10 then some (i, 5) else none
  | d :: r, i => if d < 10 then badNibble r (i + 1) else some (i, 4)

/-- The rd value for an invalid nibble of operand `opnd` (R156). -/
def badCode (opnd : Nat) (b : Nat × Nat) : Nat :=
  b.2 + opnd * 2 ^ 8 + b.1 / 2 * 2 ^ 16 + (if b.1 % 2 = 0 then 2 ^ 20 else 0)

/-- The number that digits spell. -/
def digitsVal (l : List Nat) : Nat := l.foldl (fun a d => 10 * a + d) 0

/-- The value of a valid field (R152). -/
def packedVal (l : List Byte) : Int :=
  let n := nibbles l
  let v : Int := digitsVal n.dropLast
  let sgn := n.getLastD 0
  if sgn = 0xB ∨ sgn = 0xD then -v else v

/-- The `n` low-order decimal digits of a number, most significant first. -/
def decDigits : Nat → Nat → List Nat
  | 0, _ => []
  | n + 1, v => decDigits n (v / 10) ++ [v % 10]

/-- Pairs of nibbles as bytes. -/
def packNibbles : List Nat → List Byte
  | a :: b :: r => BitVec.ofNat 8 (16 * a + b) :: packNibbles r
  | _ => []

/-- A field of `n` bytes that holds the low-order digits of a result with its sign (R152, R154). -/
def packResult (n : Nat) (v : Int) : List Byte :=
  packNibbles (decDigits (2 * n - 1) v.natAbs ++ [if v < 0 then 0xD else 0xC])

/-- The result of DADD (`sub` false) or DSUB on two valid fields: rd and the bytes stored (R154, R156). A zero result has sign 0xC. -/
def decAdd (sub : Bool) (a b : List Byte) : Nat × List Byte :=
  let r := if sub then packedVal a - packedVal b else packedVal a + packedVal b
  let code := if 10 ^ (2 * a.length - 1) ≤ r.natAbs then 3 else if r = 0 then 0 else if r < 0 then 1 else 2
  (code, packResult a.length r)

/-- The comparison code of DCMP on two valid fields (R155, R156). -/
def decCmp (a b : List Byte) : Nat :=
  if packedVal a = packedVal b then 0 else if packedVal a < packedVal b then 1 else 2

/-- The rd value of the first invalid nibble of the operands, if any (R153 step 3). -/
def decInvalid (a : List Byte) (b : Option (List Byte)) : Option Nat :=
  match badNibble (nibbles a) 0 with
  | some x => some (badCode 0 x)
  | none => match b with
    | none => none
    | some l => (badNibble (nibbles l) 0).map (badCode 1)

/-- The store-buffer entries of a field. -/
def fieldStores (m : List (Word × Nat)) (x : Thread) : List Piece → List Byte → List StoreEnt
  | [], _ => []
  | p :: r, b => ⟨.mem, paAt m p.va, b.take p.len, x.pl, false, x.pc⟩ :: fieldStores m x r (b.drop p.len)

/-- A DEC instruction in the order of R153; `f` gives rd and the bytes stored, if any. `two` tells whether the second operand is used; `wr` whether the first is checked for writing. -/
def State.dec (s : State) (t fn : Nat) (rd ra rb : GReg) (l1 l2 : BitVec 4) (two wr : Bool)
    (f : List Byte → List Byte → Nat × Option (List Byte)) : State :=
  s.ais t (info (encD ra.val rb.val rd.val l1.toNat l2.toNat fn)) fun s =>
    let x := s.thr t
    let p := operand (x.gr ra) (l1.toNat + 1) (if wr then .write else .read) 5 none
    let q := if two then operand (x.gr rb) (l2.toNat + 1) .read 5 none else []
    (s.checkAll t (sortPieces (p ++ q))).bind fun m s =>
      (s.readAll t m p).bind fun a s =>
        (s.readAll t m q).bind fun b s =>
          let (v, out) := match decInvalid a (if two then some b else none) with
            | some c => (c, none)
            | none => f a b
          let stores := match out with | some o => fieldStores m x p o | none => []
          (s.pushAll t stores).bind fun _ s =>
            let y := s.thr t
            .ok (y.pc + 4) (s.setThr t (y.setGr rd (BitVec.ofNat 64 v)))

/-- DADD: first := first + second (R89, R154). -/
def execDadd (t : Thr) (rd ra rb : GReg) (l1 l2 : BitVec 4) (s : State) : Host.Outcome State Fault Refusal :=
  .next (s.dec t.val 0 rd ra rb l1 l2 true true fun a b => let r := decAdd false a b; (r.1, some r.2))

/-- DSUB: first := first − second (R89, R154). -/
def execDsub (t : Thr) (rd ra rb : GReg) (l1 l2 : BitVec 4) (s : State) : Host.Outcome State Fault Refusal :=
  .next (s.dec t.val 1 rd ra rb l1 l2 true true fun a b => let r := decAdd true a b; (r.1, some r.2))

/-- DCMP: compares first with second (R89, R155). -/
def execDcmp (t : Thr) (rd ra rb : GReg) (l1 l2 : BitVec 4) (s : State) : Host.Outcome State Fault Refusal :=
  .next (s.dec t.val 2 rd ra rb l1 l2 true false fun a b => (decCmp a b, none))

/-- DVAL: checks the first operand (R89, R155). -/
def execDval (t : Thr) (rd ra : GReg) (l1 : BitVec 4) (s : State) : Host.Outcome State Fault Refusal :=
  .next (s.dec t.val 3 rd ra 0 l1 0 false false fun _ _ => (0, none))

end Sys2Proof.Machine
end

