-- ==== Sys2Proof/Machine/Softfloat.lean ====
section
/-! DEFINITION. IEEE 754-2019 arithmetic in binary32, binary64 and binary128 by exact computation and one rounding (R73, R135, R136, R142 to R146). Formats and rounding modes carry their codes of R73; an answer is the result's bits and its flags in the order of FCS[4:0]. -/

namespace Sys2Proof.Machine

/-! Flags (R136). -/
def F_NX : Nat := 1
def F_UF : Nat := 2
def F_OF : Nat := 4
def F_DZ : Nat := 8
def F_NV : Nat := 16

/-- The precision p of a format (R147). -/
def fpP (fmt : Nat) : Nat := if fmt = 0 then 24 else if fmt = 1 then 53 else 113

/-- emax of a format (R147), which is also its exponent bias. -/
def fpEmax (fmt : Nat) : Nat := if fmt = 0 then 127 else if fmt = 1 then 1023 else 16383

/-- The width of a format. -/
def fpW (fmt : Nat) : Nat := if fmt = 0 then 32 else if fmt = 1 then 64 else 128

/-- A floating-point datum: a NaN with its trailing significand, an infinity, or ± m × 2^e. (DEDUCED, notes/assumptions/72.md.) -/
inductive Fp where
  | nan (sgn : Bool) (frac : Nat)
  | inf (sgn : Bool)
  | fin (sgn : Bool) (m : Nat) (e : Int)
  deriving DecidableEq, Repr

/-- The sign of a datum. -/
def Fp.sgn : Fp → Bool
  | .nan s _ => s
  | .inf s => s
  | .fin s _ _ => s

/-- The datum with another sign. -/
def Fp.withSgn (s : Bool) : Fp → Fp
  | .nan _ f => .nan s f
  | .inf _ => .inf s
  | .fin _ m e => .fin s m e

/-- The largest biased exponent of a format. -/
def fpEtop (fmt : Nat) : Nat := 2 * fpEmax fmt + 1

/-- The datum that bits encode. -/
def unpack (fmt x : Nat) : Fp :=
  let p := fpP fmt
  let s := bitOf x (fpW fmt - 1)
  let be := bitsOf x (fpW fmt - 2) (p - 1)
  let f := x % 2 ^ (p - 1)
  if be = fpEtop fmt then (if f = 0 then .inf s else .nan s f)
  else if be = 0 then .fin s f (2 - (fpEmax fmt : Int) - (p : Int))
  else .fin s (f + 2 ^ (p - 1)) ((be : Int) + 1 - (fpEmax fmt : Int) - (p : Int))

/-- The sign bit of a format's encoding. -/
def signBit (fmt : Nat) (s : Bool) : Nat := if s then 2 ^ (fpW fmt - 1) else 0

/-- The bits of an infinity. -/
def fpInf (fmt : Nat) (s : Bool) : Nat := signBit fmt s + fpEtop fmt * 2 ^ (fpP fmt - 1)

/-- The bits of a NaN. -/
def fpNan (fmt : Nat) (s : Bool) (frac : Nat) : Nat := fpInf fmt s + frac

/-- The quiet bit of a trailing significand. -/
def quietBit (fmt : Nat) : Nat := 2 ^ (fpP fmt - 2)

/-- The default NaN (R144). -/
def fpDefNan (fmt : Nat) : Nat := fpNan fmt false (quietBit fmt)

/-- The largest finite value. -/
def fpMax (fmt : Nat) (s : Bool) : Nat := fpInf fmt s - 1

/-- A zero. -/
def fpZero (fmt : Nat) (s : Bool) : Nat := signBit fmt s

/-- The number of bits of a number. -/
def bitLen (n : Nat) : Nat := if n = 0 then 0 else n.log2 + 1

/-- Whether a magnitude with remainder `rem` of `2^sh`, and something below where `st`, rounds up (R73, R136). -/
def roundsUp (rm : Nat) (s : Bool) (kept rem sh : Nat) (st : Bool) : Bool :=
  let half := 2 ^ sh / 2
  let above := decide (half < rem) || (rem == half && st)
  let tie := rem == half && !st && sh != 0
  match rm with
  | 1 => decide (sh ≠ 0) && (above || (tie && kept % 2 == 1))
  | 2 => decide (sh ≠ 0) && (above || tie)
  | 4 => !s && (rem != 0 || st)
  | 5 => s && (rem != 0 || st)
  | _ => false

/-- The result of an overflow (R136). -/
def overflow (fmt rm : Nat) (s : Bool) : Nat :=
  if rm = 1 ∨ rm = 2 ∨ (rm = 4 ∧ s = false) ∨ (rm = 5 ∧ s = true) then fpInf fmt s else fpMax fmt s

/-- Keep a magnitude m × 2^e at the quantum 2^q, rounded: the multiple of the quantum, and whether it is inexact. -/
def quantize (rm : Nat) (s : Bool) (m : Nat) (e q : Int) (st : Bool) : Nat × Bool :=
  if q ≤ e then (m * 2 ^ (e - q).toNat, st)
  else
    let sh := (q - e).toNat
    let kept := m / 2 ^ sh
    let rem := m % 2 ^ sh
    (kept + b2n (roundsUp rm s kept rem sh st), rem != 0 || st)

/-- Round ± m × 2^e to a format, with something non-zero below m's last bit where `st`: m then has more bits than the format keeps. -/
def roundFp (fmt rm : Nat) (s : Bool) (m : Nat) (e : Int) (st : Bool := false) : Nat × Nat :=
  if m = 0 then (fpZero fmt s, 0)
  else
    let p : Int := fpP fmt
    let emin : Int := 1 - (fpEmax fmt : Int)
    let top : Int := e + (bitLen m : Int) - 1
    let q := max top emin - (p - 1)
    let r := quantize rm s m e q st
    let tiny := decide (top < emin) &&
      (decide (top + 1 < emin) || (quantize rm s m e (top - (p - 1)) st).1 != 2 ^ fpP fmt)
    let big := (fpEmax fmt : Int) - p + 1
    if big < q ∨ (q = big ∧ 2 ^ fpP fmt ≤ r.1) then (overflow fmt rm s, F_OF + F_NX)
    else
      let bits := signBit fmt s + (q + p - 1 + (fpEmax fmt : Int) - 1).toNat * 2 ^ (fpP fmt - 1) + r.1
      (bits, if r.2 then F_NX + (if tiny then F_UF else 0) else 0)

/-- A signalling NaN. -/
def Fp.isSnan (fmt : Nat) : Fp → Bool
  | .nan _ f => decide (f < quietBit fmt)
  | _ => false

/-- A NaN. -/
def Fp.isNan : Fp → Bool
  | .nan _ _ => true
  | _ => false

/-- A zero. -/
def Fp.isZero : Fp → Bool
  | .fin _ 0 _ => true
  | _ => false

/-- A NaN made quiet (R142). -/
def quieted (fmt f : Nat) : Nat := if f < quietBit fmt then f + quietBit fmt else f

/-- The NaN result of operands, if one is a NaN: the first, made quiet; invalid where any signals (R142). -/
def nanOf (fmt : Nat) (l : List Fp) : Option (Nat × Nat) :=
  let fl := if l.any (Fp.isSnan fmt) then F_NV else 0
  l.findSome? fun x => match x with | .nan s f => some (fpNan fmt s (quieted fmt f), fl) | _ => none

/-- The sign of an exact zero sum of operands of opposite sign (R136). -/
def zeroSign (rm : Nat) : Bool := rm == 5

/-- The exact sum of two finite data, rounded once (R136). -/
def addFin (fmt rm : Nat) (s1 : Bool) (m1 : Nat) (e1 : Int) (s2 : Bool) (m2 : Nat) (e2 : Int) : Nat × Nat :=
  if m1 = 0 ∧ m2 = 0 then (fpZero fmt (if s1 = s2 then s1 else zeroSign rm), 0)
  else
    let e := if m1 = 0 then e2 else if m2 = 0 then e1 else min e1 e2
    let a : Int := m1 * 2 ^ (e1 - e).toNat
    let b : Int := m2 * 2 ^ (e2 - e).toNat
    let v := (if s1 then -a else a) + (if s2 then -b else b)
    if v = 0 then (fpZero fmt (zeroSign rm), 0) else roundFp fmt rm (decide (v < 0)) v.natAbs e

/-- FADD (R90, R144). -/
def fpAdd (fmt rm : Nat) (x y : Fp) : Nat × Nat :=
  match nanOf fmt [x, y] with
  | some r => r
  | none =>
    match x, y with
    | .inf s, .inf t => if s = t then (fpInf fmt s, 0) else (fpDefNan fmt, F_NV)
    | .inf s, _ => (fpInf fmt s, 0)
    | _, .inf t => (fpInf fmt t, 0)
    | .fin s1 m1 e1, .fin s2 m2 e2 => addFin fmt rm s1 m1 e1 s2 m2 e2
    | _, _ => (fpDefNan fmt, F_NV)

/-- A datum with the opposite sign; a NaN keeps its own (R142). -/
def Fp.neg : Fp → Fp
  | .inf s => .inf (!s)
  | .fin s m e => .fin (!s) m e
  | x => x

/-- FSUB (R90). -/
def fpSub (fmt rm : Nat) (x y : Fp) : Nat × Nat := fpAdd fmt rm x y.neg

/-- FMUL (R90, R144). -/
def fpMul (fmt rm : Nat) (x y : Fp) : Nat × Nat :=
  match nanOf fmt [x, y] with
  | some r => r
  | none =>
    let s := x.sgn != y.sgn
    match x, y with
    | .fin _ m1 e1, .fin _ m2 e2 => roundFp fmt rm s (m1 * m2) (e1 + e2)
    | _, _ => if x.isZero || y.isZero then (fpDefNan fmt, F_NV) else (fpInf fmt s, 0)

/-- FDIV (R90, R136, R144). -/
def fpDiv (fmt rm : Nat) (x y : Fp) : Nat × Nat :=
  match nanOf fmt [x, y] with
  | some r => r
  | none =>
    let s := x.sgn != y.sgn
    match x, y with
    | .inf _, .inf _ => (fpDefNan fmt, F_NV)
    | .inf _, _ => (fpInf fmt s, 0)
    | .fin _ _ _, .inf _ => (fpZero fmt s, 0)
    | .fin _ m1 e1, .fin _ m2 e2 =>
      if m2 = 0 then (if m1 = 0 then (fpDefNan fmt, F_NV) else (fpInf fmt s, F_DZ))
      else
        let k := fpP fmt + 3 + bitLen m2
        let n := m1 * 2 ^ k
        roundFp fmt rm s (n / m2) (e1 - e2 - (k : Int)) (n % m2 != 0)
    | _, _ => (fpDefNan fmt, F_NV)

/-- The integer square root of a number below 4^k. -/
def isqrt : Nat → Nat → Nat
  | 0, _ => 0
  | k + 1, n =>
    let r := 2 * isqrt k (n / 4)
    if (r + 1) * (r + 1) ≤ n then r + 1 else r

/-- FSQRT (R90, R144). -/
def fpSqrt (fmt rm : Nat) (x : Fp) : Nat × Nat :=
  match nanOf fmt [x] with
  | some r => r
  | none =>
    match x with
    | .inf s => if s then (fpDefNan fmt, F_NV) else (fpInf fmt false, 0)
    | .fin s m e =>
      if m = 0 then (fpZero fmt s, 0)
      else if s then (fpDefNan fmt, F_NV)
      else
        let k := 2 * (fpP fmt + 3) + (e % 2).toNat
        let n := m * 2 ^ k
        let r := isqrt (bitLen n / 2 + 1) n
        roundFp fmt rm false r ((e - (k : Int)) / 2) (r * r != n)
    | _ => (fpDefNan fmt, F_NV)

/-- fa × fb + fc with one rounding (R92, R144). -/
def fpFma (fmt rm : Nat) (x y z : Fp) : Nat × Nat :=
  let bad := match x, y with
    | .inf _, .fin _ 0 _ => true
    | .fin _ 0 _, .inf _ => true
    | _, _ => false
  match nanOf fmt [x, y, z] with
  | some (r, fl) => (r, if bad then F_NV else fl)
  | none =>
    let s := x.sgn != y.sgn
    if bad then (fpDefNan fmt, F_NV)
    else
      match x, y, z with
      | .fin _ m1 e1, .fin _ m2 e2, .fin s3 m3 e3 => addFin fmt rm s (m1 * m2) (e1 + e2) s3 m3 e3
      | .fin _ _ _, .fin _ _ _, .inf t => (fpInf fmt t, 0)
      | _, _, .inf t => if s = t then (fpInf fmt s, 0) else (fpDefNan fmt, F_NV)
      | _, _, _ => (fpInf fmt s, 0)

/-- The opposite of a rounded result that is not a NaN (R92). -/
def negResult (fmt : Nat) (r : Nat × Nat) : Nat × Nat :=
  if (unpack fmt r.1).isNan then r else (r.1 ^^^ 2 ^ (fpW fmt - 1), r.2)

/-- The order of two data without NaN: −0 below +0 where `zeros` (R145). -/
def fpLt (zeros : Bool) (x y : Fp) : Bool :=
  match x, y with
  | .inf s, .inf t => s && !t
  | .inf s, _ => s
  | _, .inf t => !t
  | .fin s1 m1 e1, .fin s2 m2 e2 =>
    let e := min e1 e2
    let a : Int := m1 * 2 ^ (e1 - e).toNat
    let b : Int := m2 * 2 ^ (e2 - e).toNat
    let v := if s1 then -a else a
    let w := if s2 then -b else b
    decide (v < w) || (zeros && m1 == 0 && m2 == 0 && s1 && !s2)
  | _, _ => false

/-- Equality of two data without NaN. -/
def fpEq (x y : Fp) : Bool := !fpLt false x y && !fpLt false y x

/-- Invalid for a signalling operand. -/
def snanFlag (fmt : Nat) (x y : Fp) : Nat := if x.isSnan fmt || y.isSnan fmt then F_NV else 0

/-- FMIN, FMAX, FMINN and FMAXN (R145): `num` for the number forms, `mx` for the maximum; `xb`, `yb` the operands' bits. -/
def fpMinMax (fmt : Nat) (num mx : Bool) (xb yb : Nat) : Nat × Nat :=
  let x := unpack fmt xb
  let y := unpack fmt yb
  let pick := if mx then (if fpLt true x y then yb else xb) else (if fpLt true y x then yb else xb)
  if num && x.isNan != y.isNan then (if x.isNan then yb else xb, snanFlag fmt x y)
  else match nanOf fmt [x, y] with
    | some r => r
    | none => (pick, 0)

/-- The comparisons FCEQ 0, FCLT 1, FCLE 2 and FCUN 3 (R90, R145). -/
def fpCmp (fmt k : Nat) (x y : Fp) : Bool × Nat :=
  let un := x.isNan || y.isNan
  let fl := if k = 1 ∨ k = 2 then (if un then F_NV else 0) else snanFlag fmt x y
  (if k = 3 then un
   else if un then false
   else if k = 0 then fpEq x y
   else if k = 1 then fpLt false x y
   else !fpLt false y x, fl)

/-- The class mask (R91). -/
def fpClass (fmt : Nat) (x : Fp) : Nat :=
  match x with
  | .nan _ f => if f < quietBit fmt then 2 else 1
  | .inf s => if s then 2 ^ 9 else 2 ^ 8
  | .fin s m _ =>
    if m = 0 then (if s then 2 ^ 3 else 2 ^ 2)
    else if m < 2 ^ (fpP fmt - 1) then (if s then 2 ^ 5 else 2 ^ 4)
    else if s then 2 ^ 7 else 2 ^ 6

/-- FRINT (R90, R144). -/
def fpRint (fmt rm : Nat) (xb : Nat) : Nat × Nat :=
  match unpack fmt xb with
  | .nan s f => (fpNan fmt s (quieted fmt f), if f < quietBit fmt then F_NV else 0)
  | .inf s => (fpInf fmt s, 0)
  | .fin s m e =>
    let r := quantize rm s m e 0 false
    if 0 ≤ e then (xb, 0) else ((roundFp fmt rm s r.1 0).1, if r.2 then F_NX else 0)

/-- FCVT between formats (R142, R143). -/
def fpCvt (src fmt rm : Nat) (x : Fp) : Nat × Nat :=
  match x with
  | .nan s f =>
    let q := quieted src f
    (fpNan fmt s (if fpP src ≤ fpP fmt then q * 2 ^ (fpP fmt - fpP src) else q / 2 ^ (fpP src - fpP fmt)),
      if f < quietBit src then F_NV else 0)
  | .inf s => (fpInf fmt s, 0)
  | .fin s m e => roundFp fmt rm s m e

/-- FCVTIS (`sg`) and FCVTIU (R146): the 64-bit result. -/
def fpToInt (rm : Nat) (sg : Bool) (x : Fp) : Nat × Nat :=
  let hi := if sg then 2 ^ 63 - 1 else 2 ^ 64 - 1
  let lo := if sg then 2 ^ 63 else 0
  match x with
  | .nan _ _ => (hi, F_NV)
  | .inf s => (if s then lo else hi, F_NV)
  | .fin s m e =>
    let r := quantize rm s m e 0 false
    let v : Int := if s then -(r.1 : Int) else r.1
    if v < (if sg then -(2 ^ 63) else 0) then (lo, F_NV)
    else if (hi : Int) < v then (hi, F_NV)
    else ((v % 2 ^ 64).toNat, if r.2 then F_NX else 0)

/-- FCVTSI and FCVTUI: an integer converted to a format. -/
def fpOfInt (fmt rm : Nat) (v : Int) : Nat × Nat := roundFp fmt rm (decide (v < 0)) v.natAbs 0

end Sys2Proof.Machine
end

