-- ==== Sys2Proof/Machine/Flags.lean ====
section
/-! DEFINITION. Floating-point flags and the pending imprecise trap (R136 to R139), and the shapes of floating-point instructions. -/

namespace Sys2Proof.Machine

/-- The rounding mode an rm field selects: FCS.RM where it is zero (R73, R136). -/
def Thread.rmode (x : Thread) (rm : Nat) : Nat := if rm = 0 then FCS_RM.get (x.srg SR_FCS) else rm

/-- A completing floating-point instruction ORs its flags into FCS and, below M level, makes an enabled exception pending or counts it (R138, R139). -/
def Thread.raiseFp (x : Thread) (word fl : Nat) : Thread :=
  let f := x.srg SR_FCS
  let y := x.setSr SR_FCS (f ||| BitVec.ofNat 64 fl)
  let e := fl &&& FCS_EN.get f
  if x.pl = 3 ∨ e = 0 then y
  else
    let i := x.srg SR_FPEI
    if FPEI_PEND.get i = 0 then
      let i := FPEI_WORD.put (FPEI_EXC.put (FPEI_PL.put (FPEI_CNT.put (FPEI_PEND.put i 1) 0) x.pl) e) word
      (y.setSr SR_FPEA (align4 x.pc)).setSr SR_FPEI i
    else y.setSr SR_FPEI (FPEI_CNT.put i (min (FPEI_CNT.get i + 1) 0xFF))

/-- The bits of a floating-point operand in a format (R69). -/
def Thread.fbits (x : Thread) (fmt : Nat) (r : FReg) : Nat :=
  if fmt = 0 then (x.fr r.val).toNat % 2 ^ 32
  else if fmt = 1 then (x.fr r.val).toNat
  else (x.fr r.val).toNat * 2 ^ 64 + (x.fr (r.val + 1)).toNat

/-- A floating-point operand as a datum. -/
def Thread.fop (x : Thread) (fmt : Nat) (r : FReg) : Fp := unpack fmt (x.fbits fmt r)

/-- Write a result in a format; a binary32 result clears bits [63:32] (R69). -/
def Thread.setFbits (x : Thread) (fmt : Nat) (r : FReg) (v : Nat) : Thread :=
  if fmt = 2 then (x.setFr r.val (BitVec.ofNat 64 (v / 2 ^ 64))).setFr (r.val + 1) (BitVec.ofNat 64 v)
  else x.setFr r.val (BitVec.ofNat 64 v)

/-- A floating-point instruction with a floating-point result: `f` gives the bits and the flags. -/
def State.fpu (s : State) (t word fmt : Nat) (fd : FReg) (f : Thread → Nat × Nat) : State :=
  s.ais t (info word 0 true) fun s =>
    let x := s.thr t
    let r := f x
    .ok (x.pc + 4) (s.setThr t ((x.raiseFp word r.2).setFbits fmt fd r.1))

/-- A floating-point instruction with a general register result. -/
def State.fpuG (s : State) (t word : Nat) (rd : GReg) (f : Thread → Nat × Nat) : State :=
  s.ais t (info word 0 true) fun s =>
    let x := s.thr t
    let r := f x
    .ok (x.pc + 4) (s.setThr t ((x.raiseFp word r.2).setGr rd (BitVec.ofNat 64 r.1)))

/-- A two-operand FPR instruction that rounds (R90). -/
def State.fpu2 (s : State) (t fn : Nat) (fmt : BitVec 2) (rm : BitVec 3) (fd fa fb : FReg)
    (f : Nat → Nat → Fp → Fp → Nat × Nat) : State :=
  s.fpu t (encF fd.val fa.val fb.val fmt.toNat rm.toNat fn) fmt.toNat fd fun x =>
    f fmt.toNat (x.rmode rm.toNat) (x.fop fmt.toNat fa) (x.fop fmt.toNat fb)

/-- A fused instruction (R92). -/
def State.fpu3 (s : State) (t op : Nat) (fmt : BitVec 2) (rm : BitVec 3) (fd fa fb fc : FReg) (minus ngt : Bool) : State :=
  s.fpu t (encF4 op fd.val fa.val fb.val fc.val fmt.toNat rm.toNat) fmt.toNat fd fun x =>
    let c := x.fop fmt.toNat fc
    let r := fpFma fmt.toNat (x.rmode rm.toNat) (x.fop fmt.toNat fa) (x.fop fmt.toNat fb) (if minus then c.neg else c)
    if ngt then negResult fmt.toNat r else r

/-- A comparison (R90, R145). -/
def State.fpuCmp (s : State) (t fn k : Nat) (fmt : BitVec 2) (rd : GReg) (fa fb : FReg) : State :=
  s.fpuG t (encF rd.val fa.val fb.val fmt.toNat 0 fn) rd fun x =>
    let r := fpCmp fmt.toNat k (x.fop fmt.toNat fa) (x.fop fmt.toNat fb)
    (b2n r.1, r.2)

/-- FMIN, FMAX, FMINN and FMAXN (R90, R145). -/
def State.fpuMm (s : State) (t fn : Nat) (fmt : BitVec 2) (fd fa fb : FReg) (num mx : Bool) : State :=
  s.fpu t (encF fd.val fa.val fb.val fmt.toNat 0 fn) fmt.toNat fd fun x =>
    fpMinMax fmt.toNat num mx (x.fbits fmt.toNat fa) (x.fbits fmt.toNat fb)

end Sys2Proof.Machine
end

