-- ==== Sys2Proof/Machine/Float.lean ====
section
/-! DEFINITION. The floating-point instructions of AIS (R90 to R92, R135 to R146). -/

namespace Sys2Proof.Machine

/-- FADD: fa + fb (R90). -/
def execFadd (t : Thr) (fmt : BitVec 2) (rm : BitVec 3) (fd fa fb : FReg) (s : State) : Host.Outcome State Fault Refusal :=
  .next (s.fpu2 t.val 0x00 fmt rm fd fa fb fpAdd)

/-- FSUB: fa − fb (R90). -/
def execFsub (t : Thr) (fmt : BitVec 2) (rm : BitVec 3) (fd fa fb : FReg) (s : State) : Host.Outcome State Fault Refusal :=
  .next (s.fpu2 t.val 0x01 fmt rm fd fa fb fpSub)

/-- FMUL: fa × fb (R90). -/
def execFmul (t : Thr) (fmt : BitVec 2) (rm : BitVec 3) (fd fa fb : FReg) (s : State) : Host.Outcome State Fault Refusal :=
  .next (s.fpu2 t.val 0x02 fmt rm fd fa fb fpMul)

/-- FDIV: fa ÷ fb (R90). -/
def execFdiv (t : Thr) (fmt : BitVec 2) (rm : BitVec 3) (fd fa fb : FReg) (s : State) : Host.Outcome State Fault Refusal :=
  .next (s.fpu2 t.val 0x03 fmt rm fd fa fb fpDiv)

/-- FSQRT: √fa (R90). -/
def execFsqrt (t : Thr) (fmt : BitVec 2) (rm : BitVec 3) (fd fa : FReg) (s : State) : Host.Outcome State Fault Refusal :=
  .next (s.fpu t.val (encF fd.val fa.val 0 fmt.toNat rm.toNat 0x04) fmt.toNat fd fun x =>
    fpSqrt fmt.toNat (x.rmode rm.toNat) (x.fop fmt.toNat fa))

/-- FMIN: minimum (R90, R145). -/
def execFmin (t : Thr) (fmt : BitVec 2) (fd fa fb : FReg) (s : State) : Host.Outcome State Fault Refusal :=
  .next (s.fpuMm t.val 0x05 fmt fd fa fb false false)

/-- FMAX: maximum (R90, R145). -/
def execFmax (t : Thr) (fmt : BitVec 2) (fd fa fb : FReg) (s : State) : Host.Outcome State Fault Refusal :=
  .next (s.fpuMm t.val 0x06 fmt fd fa fb false true)

/-- FMINN: minimumNumber (R90, R145). -/
def execFminn (t : Thr) (fmt : BitVec 2) (fd fa fb : FReg) (s : State) : Host.Outcome State Fault Refusal :=
  .next (s.fpuMm t.val 0x07 fmt fd fa fb true false)

/-- FMAXN: maximumNumber (R90, R145). -/
def execFmaxn (t : Thr) (fmt : BitVec 2) (fd fa fb : FReg) (s : State) : Host.Outcome State Fault Refusal :=
  .next (s.fpuMm t.val 0x08 fmt fd fa fb true true)

/-- FNEG: the sign inverted (R90, R145). -/
def execFneg (t : Thr) (fmt : BitVec 2) (fd fa : FReg) (s : State) : Host.Outcome State Fault Refusal :=
  .next (s.fpu t.val (encF fd.val fa.val 0 fmt.toNat 0 0x09) fmt.toNat fd fun x =>
    (x.fbits fmt.toNat fa ^^^ 2 ^ (fpW fmt.toNat - 1), 0))

/-- FABS: the sign cleared (R90, R145). -/
def execFabs (t : Thr) (fmt : BitVec 2) (fd fa : FReg) (s : State) : Host.Outcome State Fault Refusal :=
  .next (s.fpu t.val (encF fd.val fa.val 0 fmt.toNat 0 0x0A) fmt.toNat fd fun x =>
    (x.fbits fmt.toNat fa % 2 ^ (fpW fmt.toNat - 1), 0))

/-- FCPYS: the magnitude of fa with the sign of fb (R90, R145). -/
def execFcpys (t : Thr) (fmt : BitVec 2) (fd fa fb : FReg) (s : State) : Host.Outcome State Fault Refusal :=
  .next (s.fpu t.val (encF fd.val fa.val fb.val fmt.toNat 0 0x0B) fmt.toNat fd fun x =>
    let w := fpW fmt.toNat - 1
    (x.fbits fmt.toNat fa % 2 ^ w + x.fbits fmt.toNat fb / 2 ^ w * 2 ^ w, 0))

/-- FCEQ: 1 if fa = fb, else 0; quiet (R90, R145). -/
def execFceq (t : Thr) (fmt : BitVec 2) (rd : GReg) (fa fb : FReg) (s : State) : Host.Outcome State Fault Refusal :=
  .next (s.fpuCmp t.val 0x0C 0 fmt rd fa fb)

/-- FCLT: 1 if fa < fb, else 0; signalling (R90, R145). -/
def execFclt (t : Thr) (fmt : BitVec 2) (rd : GReg) (fa fb : FReg) (s : State) : Host.Outcome State Fault Refusal :=
  .next (s.fpuCmp t.val 0x0D 1 fmt rd fa fb)

/-- FCLE: 1 if fa ≤ fb, else 0; signalling (R90, R145). -/
def execFcle (t : Thr) (fmt : BitVec 2) (rd : GReg) (fa fb : FReg) (s : State) : Host.Outcome State Fault Refusal :=
  .next (s.fpuCmp t.val 0x0E 2 fmt rd fa fb)

/-- FCUN: 1 if unordered, else 0; quiet (R90, R145). -/
def execFcun (t : Thr) (fmt : BitVec 2) (rd : GReg) (fa fb : FReg) (s : State) : Host.Outcome State Fault Refusal :=
  .next (s.fpuCmp t.val 0x0F 3 fmt rd fa fb)

/-- FCLASS: the class mask of fa (R90, R91). -/
def execFclass (t : Thr) (fmt : BitVec 2) (rd : GReg) (fa : FReg) (s : State) : Host.Outcome State Fault Refusal :=
  .next (s.fpuG t.val (encF rd.val fa.val 0 fmt.toNat 0 0x10) rd fun x => (fpClass fmt.toNat (x.fop fmt.toNat fa), 0))

/-- FRINT: fa rounded to an integral value (R90). -/
def execFrint (t : Thr) (fmt : BitVec 2) (rm : BitVec 3) (fd fa : FReg) (s : State) : Host.Outcome State Fault Refusal :=
  .next (s.fpu t.val (encF fd.val fa.val 0 fmt.toNat rm.toNat 0x11) fmt.toNat fd fun x =>
    fpRint fmt.toNat (x.rmode rm.toNat) (x.fbits fmt.toNat fa))

/-- FCVT: fa, in the format `src`, converted to fmt (R90, R143). -/
def execFcvt (t : Thr) (fmt : BitVec 2) (rm : BitVec 3) (fd fa : FReg) (src : BitVec 2) (s : State) : Host.Outcome State Fault Refusal :=
  .next (s.fpu t.val (encF fd.val fa.val src.toNat fmt.toNat rm.toNat 0x12) fmt.toNat fd fun x =>
    fpCvt src.toNat fmt.toNat (x.rmode rm.toNat) (x.fop src.toNat fa))

/-- FCVTIS: fa to a signed 64-bit integer (R90, R146). -/
def execFcvtis (t : Thr) (fmt : BitVec 2) (rm : BitVec 3) (rd : GReg) (fa : FReg) (s : State) : Host.Outcome State Fault Refusal :=
  .next (s.fpuG t.val (encF rd.val fa.val 0 fmt.toNat rm.toNat 0x13) rd fun x =>
    fpToInt (x.rmode rm.toNat) true (x.fop fmt.toNat fa))

/-- FCVTIU: fa to an unsigned 64-bit integer (R90, R146). -/
def execFcvtiu (t : Thr) (fmt : BitVec 2) (rm : BitVec 3) (rd : GReg) (fa : FReg) (s : State) : Host.Outcome State Fault Refusal :=
  .next (s.fpuG t.val (encF rd.val fa.val 0 fmt.toNat rm.toNat 0x14) rd fun x =>
    fpToInt (x.rmode rm.toNat) false (x.fop fmt.toNat fa))

/-- FCVTSI: a signed 64-bit integer to fmt (R90). -/
def execFcvtsi (t : Thr) (fmt : BitVec 2) (rm : BitVec 3) (fd : FReg) (ra : GReg) (s : State) : Host.Outcome State Fault Refusal :=
  .next (s.fpu t.val (encF fd.val ra.val 0 fmt.toNat rm.toNat 0x15) fmt.toNat fd fun x =>
    fpOfInt fmt.toNat (x.rmode rm.toNat) (x.gr ra).toInt)

/-- FCVTUI: an unsigned 64-bit integer to fmt (R90). -/
def execFcvtui (t : Thr) (fmt : BitVec 2) (rm : BitVec 3) (fd : FReg) (ra : GReg) (s : State) : Host.Outcome State Fault Refusal :=
  .next (s.fpu t.val (encF fd.val ra.val 0 fmt.toNat rm.toNat 0x16) fmt.toNat fd fun x =>
    fpOfInt fmt.toNat (x.rmode rm.toNat) (x.gr ra).toNat)

/-- FMVGF: the raw bits of fa to rd (R90, R145). -/
def execFmvgf (t : Thr) (fmt : BitVec 2) (rd : GReg) (fa : FReg) (s : State) : Host.Outcome State Fault Refusal :=
  .next (s.fpuG t.val (encF rd.val fa.val 0 fmt.toNat 0 0x17) rd fun x => (x.fbits fmt.toNat fa, 0))

/-- FMVFG: raw bits of ra to fd, from [31:0] for binary32 (R90, R145). -/
def execFmvfg (t : Thr) (fmt : BitVec 2) (fd : FReg) (ra : GReg) (s : State) : Host.Outcome State Fault Refusal :=
  .next (s.fpu t.val (encF fd.val ra.val 0 fmt.toNat 0 0x18) fmt.toNat fd fun x =>
    ((x.gr ra).toNat % 2 ^ fpW fmt.toNat, 0))

/-- FMADD: fa × fb + fc with one rounding (R92). -/
def execFmadd (t : Thr) (fmt : BitVec 2) (rm : BitVec 3) (fd fa fb fc : FReg) (s : State) : Host.Outcome State Fault Refusal :=
  .next (s.fpu3 t.val 0x31 fmt rm fd fa fb fc false false)

/-- FMSUB: fa × fb − fc with one rounding (R92). -/
def execFmsub (t : Thr) (fmt : BitVec 2) (rm : BitVec 3) (fd fa fb fc : FReg) (s : State) : Host.Outcome State Fault Refusal :=
  .next (s.fpu3 t.val 0x32 fmt rm fd fa fb fc true false)

/-- FNMADD: −(fa × fb + fc) with one rounding (R92). -/
def execFnmadd (t : Thr) (fmt : BitVec 2) (rm : BitVec 3) (fd fa fb fc : FReg) (s : State) : Host.Outcome State Fault Refusal :=
  .next (s.fpu3 t.val 0x33 fmt rm fd fa fb fc false true)

/-- FNMSUB: −(fa × fb − fc) with one rounding (R92). -/
def execFnmsub (t : Thr) (fmt : BitVec 2) (rm : BitVec 3) (fd fa fb fc : FReg) (s : State) : Host.Outcome State Fault Refusal :=
  .next (s.fpu3 t.val 0x34 fmt rm fd fa fb fc true true)

end Sys2Proof.Machine
end

