-- ==== Sys2Proof/Machine/ForPort.lean ====
section
/-! DEFINITION. The Forester memory port and the work queues (R476, R482 to R484). -/

namespace Sys2Proof.Machine

/-- The base of a partition's mailbox window. -/
def State.mboxBase (s : State) (p : Nat) : Nat := s.actF (FOR_MBOX p) FOR_MBOX_BASE * 2 ^ 22

/-- The accesses the port takes (R484): 1, 2, 4 or 8 bytes naturally aligned, or a write of 64 aligned bytes. -/
def portForm (wr : Bool) (pa n : Nat) : Bool :=
  (n == 1 || n == 2 || n == 4 || n == 8 || (wr && n == 64)) && pa % n == 0

/-- The record of a refused or failed access of the port (R483). -/
def State.portRecord (s : State) (p pa typ : Nat) : State :=
  s.log { block := 0x13, cls := 2, typ := typ, addr := some pa, part := some p }

/-- Whether the port admits an access of partition `p`: in the partition's enabled window, or a write of LOAD_MFW; the check by Firebreak comes after (R483, R484). (DESIGN CHOICE, notes/assumptions/13.md.) -/
def State.portAdmits (s : State) (p pa n : Nat) (wr mfw : Bool) : Bool :=
  portForm wr pa n && isMem pa && (if mfw then wr else s.mboxOn p && decide (s.mboxBase p ≤ pa) && decide (pa + n ≤ s.mboxBase p + 2 ^ 22))

/-- A read through the port: its bytes, or a failure with the record of it (R483). -/
def State.portRead (s : State) (p pa n : Nat) : HubR (List Byte) :=
  if s.portAdmits p pa n false false = false then .fail 0x0A (s.portRecord p pa 0x0A)
  else if s.memOk p pa false = false then .fail 0x0A ((s.refuse 3 p pa false).portRecord p pa 0x0A)
  else
    match s.hubRead 2 pa n p with
    | .ok b s => .ok b s
    | .fail st s => .fail st (s.portRecord p pa (if st = 6 then 0x05 else 0x0B))
    | .need l q w => .need l q w

/-- A write through the port. -/
def State.portWrite (s : State) (p pa : Nat) (b : List Byte) (mfw : Bool := false) : HubR Unit :=
  if s.portAdmits p pa b.length true mfw = false then .fail 0x0A (s.portRecord p pa 0x0A)
  else if s.memOk p pa true = false then .fail 0x0A ((s.refuse 3 p pa true).portRecord p pa 0x0A)
  else
    match s.hubWrite 2 pa p b with
    | .ok _ s => .ok () s
    | .fail st s => .fail st (s.portRecord p pa 0x0B)
    | .need l q w => .need l q w

/-- A read for which a line that the port lacks is asked for, once. -/
def State.portReadNow (s : State) (p pa n : Nat) : HubR (List Byte) :=
  match s.portRead p pa n with
  | .need l q w => (s.hubReach l q w).portRead p pa n
  | r => r

/-- A write for which a line that the port lacks is asked for, once. -/
def State.portWriteNow (s : State) (p pa : Nat) (b : List Byte) (mfw : Bool := false) : HubR Unit :=
  match s.portWrite p pa b mfw with
  | .need l q w => (s.hubReach l q w).portWrite p pa b mfw
  | r => r

end Sys2Proof.Machine
end

