-- ==== Sys2Proof/Machine/Mailbox.lean ====
section
/-! DEFINITION. What the Forester does in a partition's mailbox window: the record ring, and the service of records (R461, R476, R483, R486). -/

namespace Sys2Proof.Machine

/-- Read a word of a mailbox window through the Forester memory port. -/
def State.mboxGet (s : State) (p off n : Nat) : HubR (List Byte) := s.portReadNow p (s.mboxBase p + off) n

/-- Write bytes of a mailbox window through the Forester memory port. -/
def State.mboxPut (s : State) (p off : Nat) (b : List Byte) : HubR Unit := s.portWriteNow p (s.mboxBase p + off) b

/-- The M external interrupt of a mailbox: 0x4000 + 0x10 × p for a response, one more for a record (R486). -/
def State.mboxInt (s : State) (p k : Nat) : State :=
  s.sendId (s.actF (FOR_MBOX p) FOR_MBOX_THREAD) true (0x4000 + 0x10 * p + k)

/-- The records a record ring holds at most (R483). -/
def recRing : Nat := 49152

/-- Place a record in its partition's record ring, or count it in RECSKIP (R486). -/
def State.placeRec (s : State) (p : Nat) (r : Rec) : HubR Unit :=
  (s.mboxGet p 0x18 4).bind fun h s =>
    let m := s.mbox p
    if (m.recTail + 1) % recRing = fromLe h % recRing then
      (s.mboxPut p 0x1C (leBytes 4 (m.recSkip + 1))).bind fun _ s =>
        .ok () (s.modMbox p fun m => { m with recSkip := (m.recSkip + 1) % 2 ^ 32 })
    else
      let t := (m.recTail + 1) % recRing
      (s.mboxPut p (0x100000 + 64 * m.recTail) (r.bytes s.self)).bind fun _ s =>
        (s.mboxPut p 0x14 (leBytes 4 t)).bind fun _ s =>
          .ok () ((s.modMbox p fun m => { m with recTail := t }).mboxInt p 1)

/-- The record goes to a mailbox: its partition's, where that is served; not one of the port's own refusals in the window. -/
def State.recMbox (s : State) (r : Rec) : Option Nat :=
  match r.part with
  | some p =>
    let own := (r.block == 0x13 || r.block == 0x0B) && (match r.addr with
      | some a => decide (s.mboxBase p ≤ a) && decide (a < s.mboxBase p + 2 ^ 22)
      | none => false)
    if (s.mbox p).up && s.mboxOn p && !own then some p else none
  | none => none

/-- A record that the collector holds enters class 3 when it has room (R461, R476). -/
def State.collectMore (s : State) : State :=
  match s.collHeld with
  | r :: t =>
    if (s.queue 3).length < 256 then
      let s : State := { s with collHeld := t }
      (s.setQueue 3 (s.queue 3 ++ [recWork r])).enterLog r
    else s
  | [] => s

/-- The oldest record of a class leaves its queue. -/
def State.recDone (s : State) (c : Nat) : State := (s.setQueue c ((s.queue c).drop 1)).collectMore

/-- The Forester serves one record: class 3 first, then class 6 (R475, R476, R486). -/
def State.serveRecord (s : State) : State :=
  if s.forFw = false ∨ s.fst.lost = true then s
  else
    let c := if s.queue 3 = [] then 6 else 3
    match (s.queue c).head? with
    | none => s
    | some e =>
      match e.rcd with
      | none => s.recDone c
      | some r =>
        match s.recMbox r with
        | none => s.recDone c
        | some p => (s.placeRec p r).run s (fun _ s => s.recDone c) fun _ s => s.recDone c

end Sys2Proof.Machine
end

