-- ==== Sys2Proof/Machine/Grove.lean ====
section
/-! DEFINITION. Messages of the Grove as this module receives them: requests at the home, snoops at a holder, answers at the requester, remote register accesses and broadcasts, set purges, relayed flits (R234 to R251). -/

namespace Sys2Proof.Machine

/-- The message a command's header spells. -/
def hdrMsg (h : Hdr) (opc : Nat) (aux : Nat := 0) (d : Option LineData := none) (w0 w1 : Word := 0) (self : Nat := 0) : Msg where
  opc := opc
  src := h.src.val
  dst := self
  rqm := h.rqm.val
  tid := h.tid.toNat
  rtid := h.rtid.toNat
  st := h.st.toNat
  psn := h.psn
  rly := h.rly
  part := h.part.val
  la := h.la.toNat
  aux := aux
  line := d
  w0 := w0
  w1 := w1

/-- A flit that a receiver refuses is discarded and logged, and the port retrains quickly (R235). -/
def State.badFlit (s : State) (p : Nat) : State :=
  (s.log { block := 0x08, inst := p, cls := 2, typ := 0x0C, detail := [BitVec.ofNat 8 (s.gpState p)] }).quickRetrain p

/-- ST values that are never sent (R236). -/
def stBad (opc st : Nat) : Bool :=
  if opc = OPC_DATA ∨ opc = OPC_GNT ∨ opc = OPC_CMACK then st == 0 || decide (4 ≤ st)
  else if opc = OPC_SRSP ∨ opc = OPC_SRSPD then decide (5 ≤ st)
  else if opc = OPC_ERR then st == 0 || decide (5 ≤ st)
  else false

/-- An answer to message `m` (R234). -/
def State.answer (s : State) (m : Msg) (opc st : Nat) (d : Option (LineData × Bool) := none) : State :=
  s.send { s.mkMsg opc m.src m.la with
    rqm := m.rqm, tid := m.tid, rtid := m.rtid, st := st, part := m.part, aux := m.aux, line := d.map Prod.fst
    psn := (d.map Prod.snd).getD false }

/-! At the home (R239, R240). -/

/-- The requests checked as writes (R281). -/
def reqWrites (opc : Nat) : Bool := opc == OPC_RDO || opc == OPC_UPG || opc == OPC_RDZ || opc == OPC_CMI

/-- A request arrives: Firebreak checks it, and it enters the tracker (R232, R239, R281). -/
def State.onRequest (s : State) (m : Msg) : State :=
  let free := m.opc == OPC_WBK || m.opc == OPC_EVN
  if lineHome m.la ≠ s.self then s.answer m OPC_ERR 1
  else if free || s.memOk m.part (m.la * 256) (reqWrites m.opc) then
    s.homeAccept m.opc m.la m.src m.tid m.part none (m.line.map fun d => (d, m.psn))
  else (s.refuse 2 m.part (m.la * 256) (reqWrites m.opc)).answer m OPC_ERR 1

/-- PWB: a write-back during a set purge, taken while the set is blocked (R240, R248). -/
def State.onPwb (s : State) (m : Msg) : State :=
  match m.line with
  | some d => ((s.memWrite m.la d m.psn).canPut m.la false 0).answer m OPC_WACK 0
  | none => s

/-- All entries of a Canopy set become INV (R248). -/
def State.clearSet (s : State) (set : Nat) : State :=
  (List.range 16).foldl (fun s w => s.setCan (set * 16 + w) CanEnt.free) s

/-- A set purge starts: the set's lines block, SPURGE goes to every live member (R248). -/
def State.startPurge (s : State) (set : Nat) : State :=
  if s.purges.any fun p => p.set == set then s
  else
    let l := s.liveOthers
    let s := (s.incF CNP_STAT CNP_STAT_PURGE).logC 0x07 0 0x02 (leBytes 4 (set * 16))
    if l = [] then (s.clearSet set).homeServe
    else l.foldl (fun s m => s.send (s.mkMsg OPC_SPURGE m set))
      { s with purges := s.purges ++ [⟨set, l.foldl (fun a m => a + 2 ^ m) 0⟩] }

/-- A member's part of a set purge is done, or it is gone; the last one ends the purge (R248). -/
def State.purgeDone (s : State) (set m : Nat) : State :=
  match s.purges.find? fun p => p.set == set && bitOf p.wait m with
  | none => s
  | some p =>
    let w := setBit p.wait m false
    if w = 0 then ((({ s with purges := s.purges.filter fun q => q.set != set } : State).clearSet set).homeServe)
    else { s with purges := s.purges.map fun q => if q.set = set then { q with wait := w } else q }

/-! At a holder (R242). -/

/-- The line leaves every cache of this module. -/
def State.dropLine (s : State) (l : Nat) : State := (s.backInval l).setLine l Line.none

/-- Send the line to the requester a snoop names. -/
def State.supply (s : State) (m : Msg) (st : Nat) (x : Line) : State :=
  s.send { s.mkMsg OPC_DATA m.rqm m.la with
    rqm := m.rqm, tid := m.rtid, rtid := m.rtid, st := st, part := m.part, line := some x.data, psn := x.poison }

/-- The line becomes clean and shared: its cores keep it. -/
def State.toSt (s : State) (l : Nat) (st : LineSt) : State := s.modLine l fun x => { x with st := st }

/-- A snoop is answered by the state of its line (R242). -/
def State.answerSnoop (s : State) (m : Msg) : State :=
  let l := m.la
  let x := s.line l
  let own := x.st == .e || x.st == .m
  let d := some (x.data, x.poison)
  if x.st = LineSt.i ∨ x.st = LineSt.isd ∨ x.st = LineSt.imd then s.answer m OPC_SRSP 0
  else if x.st = LineSt.mia then
    if m.opc = OPC_SNPS then (s.supply m 1 x).answer m OPC_SRSP 4
    else if m.opc = OPC_SNPO then (s.supply m 3 x).answer m OPC_SRSP 4
    else if m.opc = OPC_SNPI then s.answer m OPC_INVACK 0
    else s.answer m OPC_SRSPD 4 d
  else if x.st = LineSt.sma then
    if m.opc = OPC_SNPI ∨ m.opc = OPC_BINV then
      ((s.backInval l).modLine l fun y => { y with st := .imd, pres := 0 }).answer m OPC_INVACK 0
    else s.answer m OPC_SRSP 0
  else if m.opc = OPC_SNPS then
    if own then
      let s := s.supply m 1 x
      if x.st = LineSt.m then (s.toSt l .s).answer m OPC_SRSPD 3 d else (s.toSt l .s).answer m OPC_SRSP 1
    else s.answer m OPC_SRSP 0
  else if m.opc = OPC_SNPO then
    if own then ((s.supply m 3 x).dropLine l).answer m OPC_SRSP (if x.st = LineSt.m then 4 else 2)
    else s.answer m OPC_SRSP 0
  else if m.opc = OPC_SNPW then
    if x.st = LineSt.m then (s.toSt l .e).answer m OPC_SRSPD 3 d
    else if x.st = LineSt.e then s.answer m OPC_SRSP 1
    else s.answer m OPC_SRSP 0
  else if m.opc = OPC_BINV ∧ x.st = LineSt.m then (s.dropLine l).answer m OPC_SRSPD 4 d
  else (s.dropLine l).answer m OPC_INVACK 0

/-- A snoop arrives; while a constrained loop holds the line it is deferred (R203, R237). -/
def State.onSnoop (s : State) (m : Msg) : State :=
  if lineHome m.la = s.self then s
  else if s.lineDeferred m.la then { s with snpQ := s.snpQ ++ [m] }
  else s.answerSnoop m

/-- Serve the snoops and the home's requests that no constrained loop holds any more (R203). -/
def State.serveDeferred (s : State) : State :=
  let now := s.snpQ.filter fun m => !s.lineDeferred m.la
  let s := now.foldl State.answerSnoop { s with snpQ := s.snpQ.filter fun m => s.lineDeferred m.la }
  s.homeServe

/-- SPURGE: modified lines of the set go home by PWB, others are dropped, then PACK (R248). -/
def State.onSpurge (s : State) (m : Msg) : State :=
  let set := m.la % 2 ^ 18
  let ls := (s.lines.filter fun e => lineHome e.1 == m.src && canSet (e.1 % 2 ^ 37) == set && e.2.held).map (·.1)
  let s := ls.foldl (fun s l =>
    let x := s.line l
    let s := s.dropLine l
    if x.st = LineSt.m then s.sendReq OPC_PWB l 0 none (some (x.data, x.poison)) else s) s
  s.send { s.mkMsg OPC_PACK m.src set with rqm := m.rqm, tid := m.tid }

/-! At the requester (R237, R242). -/

/-- The outstanding transaction that an answer from module `src` about a line ends; `f` selects its kind. -/
def State.outOf (s : State) (m : Msg) (f : OutTx → Bool) : Option OutTx :=
  match s.out.find? fun o => f o && o.line == m.la && o.tid == m.rtid with
  | some o => some o
  | none => s.out.find? fun o => f o && o.line == m.la && o.tid == m.tid

/-- A transaction ends. -/
def State.dropOut (s : State) (o : OutTx) : State := { s with out := s.out.filter fun p => p.tid != o.tid }

/-- Requests that obtain a line. -/
def getsLine (o : OutTx) : Bool :=
  match o.kind with
  | .coh c => c == OPC_RDS || c == OPC_RDO || c == OPC_UPG || c == OPC_RDZ
  | _ => false

/-- Acknowledge a grant to the home (R231). -/
def State.sendCmp (s : State) (o : OutTx) : State :=
  s.send { s.mkMsg OPC_CMP (lineHome o.line) o.line with rqm := s.self, tid := o.tid, rtid := o.tid, part := o.part }

/-- DATA: the line arrives with its grant (R242). Counted as supplied by another module's memory or cache (R226). -/
def State.onData (s : State) (m : Msg) : State :=
  match s.outOf m getsLine, m.line with
  | some o, some d =>
    let s := match o.thr with
      | some t => s.modThr t fun x => x.pmc (if m.src = lineHome m.la then 0x4B else 0x49)
      | none => s
    ((s.dropOut o).install m.la (grantSt m.st) d m.psn o.part).sendCmp o
  | _, _ => s

/-- GNT: M without data, for UPG and RDZ (R240, R242). -/
def State.onGnt (s : State) (m : Msg) : State :=
  match s.outOf m getsLine with
  | some o =>
    let s := s.dropOut o
    let s := if (s.line m.la).st = LineSt.sma then s.toSt m.la .m
      else match o.kind with
        | .coh c => if c = OPC_RDZ then s.install m.la .m 0 false o.part else s
        | _ => s
    s.sendCmp o
  | none => s

/-- WACK: the write-back or eviction notice is accepted (R242). -/
def State.onWack (s : State) (m : Msg) : State :=
  match s.outOf m fun o => match o.kind with | .coh c => c == OPC_WBK || c == OPC_EVN || c == OPC_PWB | _ => false with
  | some o =>
    let s := s.dropOut o
    if (s.line m.la).st = LineSt.mia then s.setLine m.la Line.none else s
  | none => s

/-- A thread's own cache maintenance transaction. -/
def isCmoTx (o : OutTx) : Bool := match o.kind with | .cmo _ _ => true | _ => false

/-- CMACK: caches done, memory complete, or both (R216, R240). -/
def State.onCmack (s : State) (m : Msg) : State :=
  match s.outOf m isCmoTx with
  | some o =>
    let done (s : State) : State := match o.thr with
      | some t => s.modThr t fun x => { x with wbs := x.wbs.erase m.la }
      | none => s
    if m.st = 1 then (s.cmoVisible o.thr m.la true).settleBcasts
    else if m.st = 2 then done (s.dropOut o)
    else ((s.dropOut o).cmoVisible o.thr m.la false).settleBcasts
  | none => s

/-- A device load of thread `t` with a transaction identifier returns a value. -/
def State.giveTid (s : State) (t tid : Nat) (v : BitVec 128) : State :=
  s.modThr t fun x => { x with devLoad := giveLoad (fun d => d.tid == some tid) v x.devLoad }

/-- A device store's tracker entry with a transaction identifier leaves (R188). -/
def State.dropTid (s : State) (t tid : Nat) : State :=
  s.modThr t fun x => { x with trk := x.trk.filter fun e => e.tid != some tid }

/-- The Firebreak violation a thread takes for a request that another module refused (R239). -/
def State.farRefusal (s : State) (t pa kind : Nat) (ret : Word) : State :=
  s.takeM t { code := 0x24, info := kind, addr := some (BitVec.ofNat 64 pa) } ret (some 0x100) true

/-- ERR: a request ends in error (R236, R239, R260, R274). -/
def State.onErr (s : State) (m : Msg) : State :=
  match s.out.find? fun o => o.dst == m.src && (o.tid == m.rtid || o.tid == m.tid) with
  | none => s
  | some o =>
    let s := s.dropOut o
    match o.kind with
    | .coh c =>
      if c = OPC_WBK ∨ c = OPC_EVN ∨ c = OPC_PWB then s
      else if (s.line o.line).st = LineSt.sma then s.modLine o.line fun x => { x with st := .s, err := m.st }
      else s.setLine o.line { Line.none with err := m.st }
    | .cmo _ t =>
      match (s.thr t).sb with
      | e :: _ => if lineOf e.pa = o.line then s.storeErr t e m.st else s.modThr t fun x => { x with wbs := x.wbs.erase o.line }
      | [] => s.modThr t fun x => { x with wbs := x.wbs.erase o.line }
    | .mrd t =>
      match (s.thr t).devLoad.find? fun d => d.tid == some o.tid with
      | some d =>
        if m.st = 1 then s.farRefusal t d.pa 0 (s.thr t).pc
        else (s.lostLoad t d.pa).giveTid t o.tid (onesVal d.size)
      | none => s
    | .mwr t =>
      match (s.thr t).trk.find? fun e => e.tid == some o.tid with
      | some e =>
        if m.st = 1 then (s.dropTid t o.tid).farRefusal t e.pa 1 (s.thr t).pc
        else (s.failStore t e.pa).dropTid t o.tid
      | none => s
    | .tlbb _ => s

/-! Remote register accesses and broadcasts (R241, R283). -/

/-- The device address an MRD or MWR names. -/
def Msg.devPa (m : Msg) : Nat := 2 ^ 51 + m.la * 256 + m.aux % 256

/-- The access size an MRD or MWR names. -/
def Msg.accSize (m : Msg) : Nat := if bitOf m.aux 8 then 8 else 4

/-- The check of a remote access at its target (R239, R283, R518). -/
def State.farOk (s : State) (m : Msg) : Bool := paModule m.devPa == s.self && s.devOk m.part (paDst m.devPa)

/-- MRSP: register data, or the completion of a write. -/
def State.sendMrsp (s : State) (m : Msg) (v : Option Word) : State :=
  s.send { s.mkMsg OPC_MRSP m.src m.la with
    rqm := m.rqm, tid := m.tid, rtid := m.tid, part := m.part, aux := m.aux, w0 := v.getD 0, st := b2n v.isSome }

/-- MRD: a remote register read (R241). What a port half returns to another module is the endpoint's answer, a free value here. -/
def State.onMrd (s : State) (m : Msg) : State :=
  if s.farOk m = false then (s.refuse 2 m.part m.devPa false).answer m OPC_ERR 1
  else if s.failed.contains (s.devKey m.devPa) then s.answer m OPC_ERR 4
  else match paDst m.devPa with
    | .reg b i o =>
      let r := s.regRead ⟨.peer (Fin.ofNat 8 m.src) (Fin.ofNat 16 m.part), 0, some m.part⟩ b i o m.accSize
      r.2.sendMrsp m (some r.1)
    | .port x _ => if s.halfDown x then s.answer m OPC_ERR 4 else s.tickFree.sendMrsp m (some (BitVec.ofNat 64 (Config.freeNat s.fresh)))
    | .none => s.answer m OPC_ERR 1

/-- MWR: a remote register write (R241). -/
def State.onMwr (s : State) (m : Msg) : State :=
  if s.farOk m = false then (s.refuse 2 m.part m.devPa true).answer m OPC_ERR 1
  else if s.failed.contains (s.devKey m.devPa) then s.answer m OPC_ERR 4
  else match paDst m.devPa with
    | .reg b i o =>
      (s.regWrite ⟨.peer (Fin.ofNat 8 m.src) (Fin.ofNat 16 m.part), 0, some m.part⟩ b i o m.accSize m.w0).sendMrsp m none
    | .port x _ => if s.halfDown x then s.answer m OPC_ERR 4 else s.sendMrsp m none
    | .none => s.answer m OPC_ERR 1

/-- MRSP at the thread's module (R188, R189). -/
def State.onMrsp (s : State) (m : Msg) : State :=
  match s.out.find? fun o => o.dst == m.src && (o.tid == m.rtid || o.tid == m.tid) with
  | some o =>
    match o.kind with
    | .mrd t => (s.dropOut o).giveTid t o.tid (m.w0.setWidth 128)
    | .mwr t => ((s.dropOut o).dropTid t o.tid).settleBcasts
    | _ => s
  | none => s

/-- TLBB: another module's broadcast acts on the cores of the same group (R177, R178, R241). -/
def State.onTlbb (s : State) (m : Msg) : State :=
  let g := m.aux % 256
  let cores := ((List.range 72).filter fun c =>
    s.coreActive c && !(s.core c).held && !s.leaving c && g != 0 && s.actF (HWD_XLAT c) HWD_XLAT_BGRP == g).foldl (fun a c => a + 2 ^ c) 0
  ({ s with inb := s.inb ++ [⟨m.src, m.tid, m.part, ⟨bitsOf m.aux 11 8, m.w0, m.w1, cores, []⟩⟩] } : State).settleBcasts

/-- Module `m` has answered a thread's broadcast, or is gone (R178, R260). -/
def State.bcastAnswered (s : State) (t m : Nat) : State :=
  s.modThr t fun x => match x.wait with
    | .inval b mods => { x with wait := .inval b (setBit mods m false) }
    | _ => x

/-- TLBA: a member reports its broadcast complete (R241). -/
def State.onTlba (s : State) (m : Msg) : State :=
  match s.out.find? fun o => o.dst == m.src && (o.tid == m.rtid || o.tid == m.tid) with
  | some o =>
    match o.kind with
    | .tlbb t => (s.dropOut o).bcastAnswered t m.src
    | _ => s
  | none => s

/-! Delivery. -/

/-- Act on a message delivered to this module (R235). -/
def State.onMsg (s : State) (m : Msg) : State :=
  if m.opc = OPC_PWB then s.onPwb m
  else if m.opc < 0x10 then s.onRequest m
  else if m.opc = OPC_SPURGE then s.onSpurge m
  else if m.opc < 0x20 then s.onSnoop m
  else if m.opc = OPC_CMP then s.homeCmp m.la m.src
  else if m.opc = OPC_GNT then s.onGnt m
  else if m.opc = OPC_SRSP then s.snoopResponse m.la m.src m.st none
  else if m.opc = OPC_INVACK then s.snoopResponse m.la m.src 2 none
  else if m.opc = OPC_WACK then s.onWack m
  else if m.opc = OPC_CMACK then s.onCmack m
  else if m.opc = OPC_PACK then s.purgeDone (m.la % 2 ^ 18) m.src
  else if m.opc = OPC_ERR then s.onErr m
  else if m.opc = OPC_DATA then s.onData m
  else if m.opc = OPC_SRSPD then s.snoopResponse m.la m.src m.st (m.line.map fun d => (d, m.psn))
  else if m.opc = OPC_MRD then s.onMrd m
  else if m.opc = OPC_MWR then s.onMwr m
  else if m.opc = OPC_TLBB then s.onTlbb m
  else if m.opc = OPC_MRSP then s.onMrsp m
  else if m.opc = OPC_TLBA then s.onTlba m
  else s

/-- The opcodes of R235. -/
def opcodes : List Nat :=
  [0x01, 0x02, 0x03, 0x04, 0x05, 0x06, 0x07, 0x08, 0x09, 0x0A, 0x10, 0x11, 0x12, 0x13, 0x14, 0x15] ++
  [0x20, 0x21, 0x22, 0x23, 0x24, 0x25, 0x26, 0x27, 0x30, 0x31, 0x38, 0x39, 0x3A, 0x3C, 0x3D]

/-- A message in a flit that has arrived on port `p` in order (R235, R253). -/
def State.inFlit (s : State) (p : Nat) (m : Msg) : State :=
  if (s.peer m.src).severed then s
  else if opcodes.contains m.opc = false ∨ stBad m.opc m.st = true then s.badFlit p else s.onMsg m

/-- A message command: its flit arrives on the header's port. -/
def State.rxMsg (s : State) (h : Hdr) (m : Msg) : State :=
  s.rxFlit h.port.val h.lseq.toNat h.lack.toNat fun s => s.inFlit h.port.val { m with dst := s.self }

/-- STCD, after which deferred requests are served (R81, R202, R203). -/
def execStcd (t : Thr) (rd ra rb : GReg) (s : State) : Host.Outcome State Fault Refusal :=
  .next (s.stcd t.val rd ra rb).serveDeferred

/-- RESERVATION_DEFER_EXPIRE: 128 cycles after the LRSV the core no longer defers requests for the granule (R203). -/
def execReservationDeferExpire (t : Thr) (s : State) : Host.Outcome State Fault Refusal :=
  .next (s.modThr t.val fun x => { x with defer := 0 }).serveDeferred

end Sys2Proof.Machine
end

