-- ==== Sys2Proof/Machine/Records.lean ====
section
/-! DEFINITION. Records reported from outside the model, the uncontained triggers and Windthrow, and the errors that scrub finds (R182, R218, R249, R415, R439, R443, R458 to R468). -/

namespace Sys2Proof.Machine

/-- A report names a block of R15, a class and a TYPE that records carry; uncontained events come as triggers (R16, R458, R460, R467). -/
def reportOk (r : Report) : Bool :=
  decide (r.inst.toNat < blockCount r.block.toNat) && (r.cls == 1 || r.cls == 2) && decide (1 ≤ r.typ.toNat) && decide (r.typ.toNat ≤ 0x0F)

/-- ERROR_RECORD: the collector numbers a reported record and hands it on; the Forester serves one record (R461, R476). -/
def execErrorRecord (rep : Report) (s : State) : Host.Outcome State Fault Refusal :=
  let r := rep
  .next (
    if reportOk r = false then s
    else
      (s.log {
        block := r.block.toNat, inst := r.inst.toNat, cls := r.cls.toNat, typ := r.typ.toNat, addr := r.addr.map (·.toNat)
        part := r.part.map (·.val), thread := r.thread.map (·.val), detail := r.detail }).serveRecord)

/-! Windthrow (R465 to R467). -/

/-- The block of an uncontained trigger (R467). -/
def trigBlock (n : Nat) : Nat := (([0x06, 0x0A, 0x14, 0x03, 0x13, 0x15, 0x15, 0x17] : List Nat)[n - 1]?).getD 0

/-- An uncontained trigger: its record, and steps 1 and 2 of Windthrow unless it is under way (R261, R466, R504). (DEDUCED, notes/assumptions/62.md.) -/
def State.trigger (s : State) (n : Nat) : State :=
  let s := s.log { block := trigBlock n, cls := 3, typ := 0x10, detail := [BitVec.ofNat 8 n] }
  if s.wind ≠ 0 then s
  else
    let s := ((List.range 7).filter fun p => s.gpState p == 2).foldl (fun s p => s.modGp p fun x => x.offer .wthrow) s
    s.runningThreads.foldl (fun s t => s.modThr t fun x => { x with wtwPend := true })
      ({ s with wind := 1, windAge := 0, wthrow := true } : State)

/-- Step 3: Mycel and the Root links accept nothing new, what they have not accepted is discarded, and the Glade ports' reset outputs are asserted (R466, R503). -/
def State.windClose (s : State) : State :=
  let s := (List.range 128).foldl (fun s t => s.modThr t fun x => { x with sb := [], popped := x.popped + x.sb.length }) s
  (List.range 4).foldl (fun s g => s.modGlade g fun x => { x with portRst := 0xFF }) { s with wind := 2 }

/-- Step 4: every core is stopped and the Stand clocks are gated (R466). -/
def State.windStop (s : State) : State := s.runningThreads.foldl (fun s t => s.stopThread t .stoppedWind) { s with wind := 3 }

/-- UNCONTAINED_TRIGGER: trigger 1 to 8 of R467, raised by its block. -/
def execUncontainedTrigger (trig : Fin 9) (blk : BitVec 8) (s : State) : Host.Outcome State Fault Refusal :=
  .next (if trig ≠ 0 ∧ trigBlock trig.val = blk.toNat then s.trigger trig.val else s)

/-! Scrub (R468). -/

/-- An image is lost: both threads stop, no takeover is attempted (R443); on a core that a takeover is leaving the error is logged alone (R455). -/
def State.imageLost (s : State) (c : Nat) : State :=
  if s.leaving c then s.logC 0x02 c 0x02
  else
    let s := s.stopCore c .stoppedRetry
    let s := (s.coreThreads c).foldl (fun s t => s.modThr t fun x => { x with run := .stoppedImage }) s
    ((s.tkos.filter fun k => k.failing == c).foldl (fun s k => s.dropTko k.reqid) s).giveUp 0x02 c 4

/-- An error in an entry of a store buffer (R439). -/
def State.sbError (s : State) (t idx : Nat) (ue : Bool) : State :=
  let c := s.pcore t
  match (s.thr t).sb[idx]? with
  | none => s
  | some e =>
    let bad (typ : Nat) : RecIn := { block := 0x01, inst := c, cls := 2, typ := typ, addr := some e.pa, part := some (s.part t), thread := some t }
    if ue = false then s.logC 0x01 c 0x01 (leBytes 4 idx)
    else if e.kind = .mem ∨ e.kind = .clzero then
      (s.log (bad 0x04)).modThr t fun x => { x with sb := x.sb.set idx { e with poison := true } }
    else
      (s.log (bad 0x0A)).modThr t fun x => { x with
        sb := dropIdx x.sb idx, popped := x.popped + 1
        devFail := if e.kind = .dev then (match x.devFail with | some a => some a | none => some e.pa) else x.devFail }

/-- A cache holds a line in a way (0 L1I, 1 L1D, 2 L2, 3 L3). -/
def State.cacheHas (s : State) (k i l w : Nat) : Bool :=
  let x := s.core i
  let ent (c : List CacheEnt) : Bool := c.any fun e => e.line == l && e.way == w
  if k = 0 then ent x.l1i else if k = 1 then ent x.l1d else if k = 2 then ent x.l2
  else (s.line l).held && (s.line l).way == w && l3Slice l == i

/-- The array offset of a cache entry as records name it: set × ways + way. -/
def cacheOff (k l w : Nat) : Nat :=
  if k < 2 then l1Set l * 8 + w else if k = 2 then l2Set l * 16 + w else l3Set l * 16 + w

/-- A clean line leaves a cache whose copy is damaged; it is fetched again on demand (R218). -/
def State.refetch (s : State) (k i l : Nat) : State :=
  if k = 0 then s.modCore i fun x => { x with l1i := x.l1i.filter fun e => e.line != l }
  else if k = 1 then
    (s.modCore i fun x => { x with l1d := x.l1d.filter fun e => e.line != l }).clearResv l fun t => s.pcore t == i
  else if k = 2 then s.coreDrop l i
  else if (s.line l).st = LineSt.sma then s.localInval l
  else s.evictL3 l

/-- An error in a line of a cache (R218). -/
def State.cacheError (s : State) (k i l w : Nat) (ue : Bool) : State :=
  let blk := if k < 2 then 0x01 else if k = 2 then 0x04 else 0x05
  let off := leBytes 4 (cacheOff k l w)
  if s.cacheHas k i l w = false then s
  else if ue = false ∧ k ≠ 0 then (s.logC blk i 0x01 off).wayError k i w
  else if k ≠ 0 ∧ (s.line l).st = LineSt.m then
    (s.modLine l fun x => { x with poison := true }).log {
      block := blk, inst := i, cls := 2, typ := 0x04, addr := some (l * 256), part := s.regionPart (l * 256) }
  else ((s.refetch k i l).logC blk i 0x02 off).wayError k i w

/-- A corrected error of Canopy counts against its way; the eighth in a window disables the way, each of its entries evicted first, or sets FLOOR (R249). -/
def State.canopyCount (s : State) (set w : Nat) : State :=
  let b := set % 16
  let v := (s.reg (CNP_CECNT b)).toNat
  let n := min (v / 16 ^ w % 16 + 1) 15
  let s := s.setReg (CNP_CECNT b) (BitVec.ofNat 64 (v - v / 16 ^ w % 16 * 16 ^ w + n * 16 ^ w))
  if n ≠ 8 ∨ s.canWayOn (set * 16 + w) = false then s
  else if leftWays 16 (s.getF (CNP_WAYST b) CNP_WAYST_DIS) w < 8 then
    (s.setF (CNP_WAYST b) CNP_WAYST_FLOOR 1).logC 0x07 0 0x03 [BitVec.ofNat 8 w, 1]
  else
    let l := s.canopy.filter fun e => e.1 % 16 == w && e.1 / 16 % 16 == b && (e.2.st == .sh || e.2.st == .ex)
    let s : State := { s with canDis := s.canDis ++ [b * 16 + w] }
    l.foldl (fun s e => s.homeAccept OPC_CMF (canLine s.self (e.1 / 16) e.2.tag) s.self s.newTid 0 none) s

/-- A way being disabled whose entries are all INV is disabled (R249). -/
def State.settleCanopy (s : State) : State :=
  s.canDis.foldl (fun s d =>
    if s.canopy.any fun e => e.1 % 16 == d % 16 && e.1 / 16 % 16 == d / 16 && e.2.st != .inv then s
    else
      let r := CNP_WAYST (d / 16)
      ({ (s.setF r CNP_WAYST_DIS (setBit (s.getF r CNP_WAYST_DIS) (d % 16) true)) with
        canDis := s.canDis.filter fun x => x != d } : State).logC 0x07 0 0x03 [BitVec.ofNat 8 (d % 16), 0]) s

/-- An error in an rw-s active value or a Firebreak entry: corrected, or reloaded from the retained image (R467, R468). -/
def State.activeError (s : State) (r : Reg) (ue : Bool) : State :=
  if r.rwsMask = 0 then s
  else if ue then
    ((match s.retainedOf r with
      | some v => s.setAct r (v &&& r.rwsMask)
      | none => s).logC r.block r.inst 0x02 (leBytes 4 r.off))
  else s.logC r.block r.inst 0x01 (leBytes 4 r.off)

/-- A correctable error in a TLB entry: the entry leaves the TLB and the micro-TLBs, and the next access misses (R163, R182). -/
def State.tlbError (s : State) (c va tag way : Nat) : State :=
  match tlbFind (s.core c).tlb va tag with
  | none => s
  | some e => (s.modCore c fun x => x.tlbDrop fun f => f == e).logC 0x01 c 0x01 (leBytes 4 (e.set * 8 + way))

/-- A correctable error in a walk-cache entry: the entry is removed (R182). -/
def State.walkError (s : State) (c tag lvl ea va way : Nat) : State :=
  match (s.core c).walkHit tag lvl ea va with
  | none => s
  | some e => (s.modCore c fun x => { x with wc := x.wc.filter fun f => f != e }).logC 0x01 c 0x01 (leBytes 4 (walkSet e.ea * 8 + way))

/-- ARRAY_SCRUB: an error that scrub, or an access, finds in an array (R182, R218, R248, R415, R439, R468). -/
def execArrayScrub (hit : ScrubHit) (s : State) : Host.Outcome State Fault Refusal :=
  .next (match hit with
    | .heartwood t ue =>
      let c := s.pcore t.val
      if (s.thr t.val).run = .held then s
      else if ue then s.imageLost c
      else (s.incF (HWD_STAT c) HWD_STAT_CE).logC 0x02 c 0x01 (leBytes 4 (t.val % 2))
    | .storeBuf t idx ue => s.sbError t.val idx.val ue
    | .cache k i l w ue => s.cacheError (cacheNum k) i.val l.toNat w.val ue
    | .canopy set w ue =>
      -- `ue` is also an entry whose STATE is 4 to 7, purged in the same way (R248)
      if ue then s.startPurge set.toNat
      else (s.logC 0x07 0 0x01 (leBytes 4 (set.toNat * 16 + w.val))).canopyCount set.toNat w.val
    | .active b i o ue => s.activeError ⟨b, i, o⟩ ue
    | .keystore k ue =>
      if ue then
        ({ s with kst := { s.kst with slots := Tab.set (fun _ => none) s.kst.slots k.val none } } : State).log {
          block := 0x12, cls := 2, typ := 0x02, part := s.slotOwner k.val, detail := leBytes 4 k.val }
      else s.logC 0x12 0 0x01 (leBytes 4 k.val)
    | .tlb c va tag w => s.tlbError c.val va.toNat tag.toNat w.val
    | .walk c tag lvl ea va w => s.walkError c.val tag.toNat lvl.val ea.toNat va.toNat w.val)

end Sys2Proof.Machine
end

