-- ==== Sys2Proof/Machine/GladeReset.lean ====
section
/-! DEFINITION. Blocks that enter or leave reset: registers at their reset values, "img" fields from the retained image, and the reset of a Glade (R13, R40, R66, R192, R291, R319). -/

namespace Sys2Proof.Machine

/-- The registers of a block instance return to their reset values. -/
def State.resetRegs (s : State) (blk inst : Nat) : State :=
  let keep (k : Nat) : Bool := !((Reg.ofKey k).block == blk && (Reg.ofKey k).inst == inst)
  { s with
    regs := s.regs.filter fun e => keep e.1
    active := s.active.filter fun e => keep e.1 }

/-- A block that leaves a reset takes its "img" fields from the retained image, as active and shadow values alike (R40). -/
def State.fromRetained (s : State) (blk inst : Nat) : State :=
  (s.retained.filter fun e => (Reg.ofKey e.1).block == blk && (Reg.ofKey e.1).inst == inst).foldl
    (fun s e => match e.2, (Reg.ofKey e.1).spec? with
      | some v, some sp =>
        let r := Reg.ofKey e.1
        let m := sp.maskOf [.rws]
        (s.setReg r ((s.reg r &&& ~~~ m) ||| (v &&& m))).setAct r (v &&& m)
      | _, _ => s) s

/-- The block instances of a Glade (R515). -/
def gladeInsts (g : Nat) : List (Nat × Nat) :=
  [(0x0C, g), (0x0D, 2 * g), (0x0D, 2 * g + 1), (0x0F, g), (0x10, g), (0x11, g)] ++ (List.range 8).map fun m => (0x0E, 8 * g + m)

/-- The first outstanding store to a port half: thread and address. -/
def State.firstToHalf (s : State) (x : Nat) : Option (Nat × Nat) :=
  s.threads.findSome? fun e => (e.2.trk.find? fun k => s.devKey k.pa == 0x10000 + x).map fun k => (e.1, k.pa)

/-- A port half is lost: its window is marked failed and every outstanding store to it fails (R192, R291). -/
def State.failHalf (s : State) (x : Nat) : State :=
  match s.firstToHalf x with
  | some (t, pa) => (s.failTarget pa).logDev t pa 2
  | none => s.markFailed (0x10000 + x)

/-- The failed mark of a port half is cleared (R193, R291). -/
def State.unmarkHalf (s : State) (x : Nat) : State :=
  { (s.setF (GLD_PST (x / 8) (x % 8 / 2) (x % 2)) GLD_PST_FAILED 0) with failed := s.failed.filter fun k => k != 0x10000 + x }

/-- The service command whose target enters a reset ends with 0x0C (R66). -/
def State.svcLosesTarget (s : State) (hit : SvcCmd → Bool) : State :=
  match s.svc with
  | some c => if hit c && c.code.isNone then { s with svc := some { c with code := some 0x0C } } else s
  | none => s

/-- A Glade reset, up to the awaiting state (R66, R319 steps 1 and 2, R411, R436). -/
def State.gladeReset (s : State) (g : Nat) : State :=
  let n := s.getF (GLD_STAT g) GLD_STAT_RESETS
  let live := (List.range 8).filter fun h => (s.firstToHalf (8 * g + h)).isSome
  let s := live.foldl (fun s h => s.failHalf (8 * g + h)) s
  let s := (List.range 8).foldl (fun s h => s.unmarkHalf (8 * g + h)) s
  let s := (gladeInsts g).foldl (fun s i => (s.resetRegs i.1 i.2).fromRetained i.1 i.2) s
  let s := { s with
    glades := Tab.set gladeDefault s.glades g GladeSt.reset
    engines := Tab.set engDefault (Tab.set engDefault s.engines (2 * g) TwigEng.reset) (2 * g + 1) TwigEng.reset
    gladeRst := setBit s.gladeRst g true }
  let s := s.setF (GLD_STAT g) GLD_STAT_RESETS (min (n + 1) 0xFFFF)
  s.svcLosesTarget fun c => (c.op == 3 && c.target / 2 == g) || (c.op == 4 && c.target == g)

end Sys2Proof.Machine
end

