-- ==== Sys2Proof/Machine/GladeRows.lean ====
section
/-! DEFINITION. The commands of the Glades and of the Ledger: inbound requests, port halves, slice commands, doorbells, fetching and binding, timeouts, restore and adoption (12_glades.md, 13_ledger.md). -/

namespace Sys2Proof.Machine

/-! Ports (R287 to R291). -/

/-- The status register of a port half, 2p + h. -/
def halfPst (g ph : Nat) : Reg := GLD_PST g (ph / 2) (ph % 2)

/-- A port half is active. -/
def State.halfUp (s : State) (g ph : Nat) : Bool := s.gladeUp g && s.getF (halfPst g ph) GLD_PST_STATE == 3

/-- A port half is enabled by the active configuration (R287). -/
def State.halfEnabled (s : State) (g ph : Nat) : Bool :=
  let r := GLD_PORT g (ph / 2)
  if ph % 2 = 0 then s.actF r GLD_PORT_EN0 == 1 else s.actF r GLD_PORT_EN1 == 1 && s.actF r GLD_PORT_BIF == 1

/-- Answer an inbound request with Unsupported Request (1) or Completer Abort (2), counted in UR. -/
def State.refuseTlp (s : State) (g ph st : Nat) : State :=
  { s.incF (halfPst g ph) GLD_PST_UR with outAns := some (st, []) }

/-- An inbound K = 0 request names a slice the port may not address, or one that is off (R290). -/
def State.portRefuses (s : State) (g ph sl : Nat) : Bool :=
  !s.sliceOn g sl || !bitOf (s.actF (GLD_PORT g (ph / 2)) GLD_PORT_PMASK) (s.slicePart g sl)

/-- Write an inbound request segment by segment; a segment that fails performs no part of its access (R301, R302). -/
def State.inSegs : Nat → State → Nat → Nat → Nat → Nat → List Byte → HubR Unit
  | 0, s, _, _, _, _, _ => .ok () s
  | k + 1, s, g, sl, gen, off, b =>
    if b = [] then .ok () s
    else
      let m := min b.length (4096 - off % 4096)
      match s.swrite g sl gen off (b.take m) with
      | .need l p w => .need l p w
      | .fail st s => State.inSegs k (if st = staleGen then s.genDrop g sl else s) g sl gen (off + m) (b.drop m)
      | .ok _ s => State.inSegs k s g sl gen (off + m) (b.drop m)

/-- INBOUND_WRITE: an endpoint's write with K = 0 (R290, R297, R302). -/
def execInboundWrite (g : Glade) (ph : PortHalf) (addr : Word) (bytes : List Byte) (s : State) : Host.Outcome State Fault Refusal :=
  let a := addr.toNat
  let sl := bitsOf a 62 55
  .next (
    if s.halfUp g ph = false ∨ bitOf a 63 = true then s
    else if s.portRefuses g ph sl then (s.refuseTlp g ph 1).logC 0x0C g 0x0A [BitVec.ofNat 8 sl]
    else (State.inSegs (segFuel bytes.length) s g sl (bitsOf a 54 47) (a % 2 ^ 47) bytes).run s (fun _ s => s) fun _ s => s)

/-- INBOUND_READ: an endpoint's read with K = 0; its data or its refusal is the answer (R290, R297, R302). -/
def execInboundRead (g : Glade) (ph : PortHalf) (addr : Word) (len : Nat) (s : State) : Host.Outcome State Fault Refusal :=
  let a := addr.toNat
  let sl := bitsOf a 62 55
  .next (
    if s.halfUp g ph = false ∨ bitOf a 63 = true then s
    else if s.portRefuses g ph sl then (s.refuseTlp g ph 1).logC 0x0C g 0x0A [BitVec.ofNat 8 sl]
    else (s.sread g sl (bitsOf a 54 47) (a % 2 ^ 47) len).run s (fun b s => { s with outAns := some (0, b) }) fun st s =>
      if st = 6 then { s with outAns := some (3, []) }
      else (if st = staleGen then s.genDrop g sl else s).refuseTlp g ph 2)

/-- A received MSI-X message names its engine and task (R363). -/
def State.msix (s : State) (g ph a data : Nat) : State :=
  if a / 2 ^ 16 ≠ 2 ^ 47 ∨ a % 32 ≠ 0 then s.refuseTlp g ph 1
  else
    let e := 2 * g + b2n (bitOf a 15)
    let t := bitsOf a 14 5
    if s.maxTask e < t ∨ (s.task e t).st = 0 then s.incF (TWG_STAT e) TWG_STAT_MSIDROP
    else s.queueEvent e t (msiEvent ph data)

/-- MSIX_MESSAGE: an inbound write with K = 1 (R287, R363). -/
def execMsixMessage (g : Glade) (ph : PortHalf) (addr : Word) (data : BitVec 32) (s : State) : Host.Outcome State Fault Refusal :=
  .next (if s.halfUp g ph = false ∨ bitOf addr.toNat 63 = false then s else s.msix g ph addr.toNat data.toNat)

/-- INBOUND_K1_OTHER: every other K = 1 request is answered with Unsupported Request (R287, R289). -/
def execInboundK1Other (g : Glade) (ph : PortHalf) (addr : Word) (s : State) : Host.Outcome State Fault Refusal :=
  .next (if s.halfUp g ph = false ∨ bitOf addr.toNat 63 = false then s else s.refuseTlp g ph 1)

/-- INTX_MESSAGE: MSI and INTx messages are discarded and counted in UR (R289). -/
def execIntxMessage (g : Glade) (ph : PortHalf) (s : State) : Host.Outcome State Fault Refusal :=
  .next (if s.halfUp g ph then s.incF (halfPst g ph) GLD_PST_UR else s)

/-- AER_EVENT: an AER event on a Glade port half, 8g + 2p + h, or on a Root link's CXL.io (R263, R289). -/
def execAerEvent (root : Bool) (inst : Fin 32) (corr : Bool) (s : State) : Host.Outcome State Fault Refusal :=
  let n := inst.val
  .next (
    if root then
      if 16 ≤ n ∨ s.domainUp 0x09 n = false then s
      else (s.incF (RTL_ERR n) (if corr then RTL_ERR_CORR else RTL_ERR_UNCORR)).log {
        block := 0x09, inst := n, cls := if corr then 1 else 2, typ := 0x0C }
    else if s.gladeUp (n / 8) = false then s
    else (s.incF (halfPst (n / 8) (n % 8)) (if corr then GLD_PST_CORR else GLD_PST_UNCORR)).log {
      block := 0x0C, inst := n / 8, cls := if corr then 1 else 2, typ := 0x0C, detail := [BitVec.ofNat 8 (n % 8 / 2), BitVec.ofNat 8 (n % 2)] })

/-- PORT_HALF_UP: a training half reaches STATE 3, at a speed up to MAXSPD and a width up to its lanes; its failed mark clears (R288, R291). -/
def execPortHalfUp (g : Glade) (ph : PortHalf) (speed width : BitVec 4) (s : State) : Host.Outcome State Fault Refusal :=
  let r := halfPst g ph
  let cfg := GLD_PORT g (ph / 2)
  let lanes := if s.actF cfg GLD_PORT_BIF = 1 then 4 else 8
  let w := width.toNat
  .next (
    if s.gladeUp g = false ∨ s.getF r GLD_PST_STATE ≠ 2 ∨ speed.toNat = 0 ∨ s.actF cfg GLD_PORT_MAXSPD < speed.toNat
        ∨ lanes < w ∨ (w ≠ 1 ∧ w ≠ 2 ∧ w ≠ 4 ∧ w ≠ 8) then s
    else
      (((s.setF r GLD_PST_STATE 3).setF r GLD_PST_SPEED speed.toNat).setF r GLD_PST_WIDTH w).unmarkHalf (8 * g.val + ph.val))

/-- End with 0x09 the operations of the tracts bound to a half that are issued and not over (R291). -/
def State.endOnHalf (s : State) (g ph : Nat) : State :=
  ((s.glade g).ops.filter fun o => o.stage == .issued &&
    (match (s.slice g o.slice).tract o.tract with | some t => t.port == ph | none => false)).foldl
    (fun s o => s.endOp g o.handle 9 0 0 true) s

/-- A half goes down and retrains (R291). -/
def State.halfDrops (s : State) (g ph : Nat) : State :=
  let r := halfPst g ph
  let s := (s.endOnHalf g ph).failHalf (8 * g + ph)
  let s := s.log { block := 0x0C, inst := g, cls := 2, typ := 0x0C, detail := [BitVec.ofNat 8 (ph / 2), BitVec.ofNat 8 (ph % 2), 4] }
  (((s.setF r GLD_PST_STATE 2).setF r GLD_PST_SPEED 0).setF r GLD_PST_WIDTH 0).pump g

/-- PORT_HALF_DOWN: an active half loses its link (R291). -/
def execPortHalfDown (g : Glade) (ph : PortHalf) (s : State) : Host.Outcome State Fault Refusal :=
  .next (if s.halfUp g ph then s.halfDrops g ph else s)

/-! Slice commands (R294). -/

/-- A write of GLD_SLC_CMD. -/
def State.writeSliceCmd (s : State) (org : Origin) (g sl op arg : Nat) : State :=
  s.writeAs org 0x0C g (GLD_SLC_CMD g sl).off 8 (BitVec.ofNat 64 (op * 2 ^ 60 + arg))

/-- BIND (R294, R295, R296). -/
def execBind (org : Origin) (g : Glade) (s : SliceId) (arg : BitVec 32) (st : State) : Host.Outcome State Fault Refusal :=
  .next (st.writeSliceCmd org g s 1 arg.toNat)

/-- UNBIND (R294, R295, R338). -/
def execUnbind (org : Origin) (g : Glade) (s : SliceId) (arg : BitVec 32) (st : State) : Host.Outcome State Fault Refusal :=
  .next (st.writeSliceCmd org g s 2 arg.toNat)

/-- OPEN_TRACT (R294, R304). -/
def execOpenTract (org : Origin) (g : Glade) (s : SliceId) (arg : BitVec 32) (st : State) : Host.Outcome State Fault Refusal :=
  .next (st.writeSliceCmd org g s 3 arg.toNat)

/-- CLOSE_TRACT (R294, R308). -/
def execCloseTract (org : Origin) (g : Glade) (s : SliceId) (arg : BitVec 32) (st : State) : Host.Outcome State Fault Refusal :=
  .next (st.writeSliceCmd org g s 4 arg.toNat)

/-- LOAD_WIN (R294, R300). -/
def execLoadWin (org : Origin) (g : Glade) (s : SliceId) (arg : BitVec 32) (st : State) : Host.Outcome State Fault Refusal :=
  .next (st.writeSliceCmd org g s 5 arg.toNat)

/-- LOAD_CQ (R294, R310, R311). -/
def execLoadCq (org : Origin) (g : Glade) (s : SliceId) (arg : BitVec 32) (st : State) : Host.Outcome State Fault Refusal :=
  .next (st.writeSliceCmd org g s 6 arg.toNat)

/-- DLSWAP (R294, R316). -/
def execDlswap (org : Origin) (g : Glade) (s : SliceId) (arg : BitVec 32) (st : State) : Host.Outcome State Fault Refusal :=
  .next (st.writeSliceCmd org g s 7 arg.toNat)

/-- SLICE_CMD_UNKNOWN_OP: OP 0 and 8 to 15 end with RESULT 0x08 (R294). -/
def execSliceCmdUnknownOp (org : Origin) (g : Glade) (s : SliceId) (op : BitVec 4) (st : State) : Host.Outcome State Fault Refusal :=
  .next (if 1 ≤ op.toNat ∧ op.toNat ≤ 7 then st else st.writeSliceCmd org g s op.toNat 0)

/-- GEN_WAIT_ELAPSED: 2 × OPTMO has passed since a departure: that of the generation a command waits for, otherwise the oldest (R296). -/
def execGenWaitElapsed (g : Glade) (s : SliceId) (st : State) : Host.Outcome State Fault Refusal :=
  let x := st.slice g s
  let waits := match x.cmd with | some (op, _) => (op == 1 || op == 2) && st.genWaits g s | none => false
  let nxt := st.genNext g s
  .next (if waits then (st.modSlice g s fun x => { x with left := x.left.filter fun k => k != nxt }).pump g
    else st.modSlice g s fun x => { x with left := x.left.dropLast })

/-! Doorbells (R309, R311). -/

/-- DOORBELL: a write of GLD_DB (R309). -/
def execDoorbell (org : Origin) (g : Glade) (s : SliceId) (val : Word) (st : State) : Host.Outcome State Fault Refusal :=
  .next (st.writeAs org 0x0C g (GLD_DB g s).off 8 val)

/-- CQ_DOORBELL: a write of GLD_CQDB (R311). -/
def execCqDoorbell (org : Origin) (g : Glade) (s : SliceId) (val : Word) (st : State) : Host.Outcome State Fault Refusal :=
  .next (st.writeAs org 0x0C g (GLD_CQDB g s).off 8 val)

/-! Fetching and binding (R306 to R308, R359). -/

/-- The slice that owns a tract number, and the tract's index in it. -/
def State.tractOwner (s : State) (g tr : Nat) : Option (Nat × Nat) :=
  ((List.range 256).find? fun sl => s.sliceOn g sl && decide (s.tbase g sl ≤ tr) && decide (tr < s.tbase g sl + s.tcount g sl)).map
    fun sl => (sl, tr - s.tbase g sl)

/-- Tasks the slice may run at once (R308). -/
def State.taskShare (s : State) (g sl : Nat) : Nat := s.actF (GLD_SLC_RES g sl) GLD_SLC_RES_TASKS

/-- Tracts of a slice that a task holds. -/
def State.tasksRun (s : State) (g sl : Nat) : Nat :=
  ((s.slice g sl).tracts.filter fun e => match e.2 with | some t => t.task.isSome | none => false).length

/-- GCW_FETCH: the hub fetches the next operation of a tract (R306, R308, R326, R328). -/
def execGcwFetch (g : Glade) (tract : Fin 65536) (s : State) : Host.Outcome State Fault Refusal :=
  .next (match s.tractOwner g tract with
    | none => s
    | some (sl, i) =>
      if s.gladeUp g = false ∨ s.taskShare g sl = 0 then s
      else ((s.fetchOp g sl i).run s (fun _ s => s) fun _ s => s).pump g)

/-- The first operation of a tract that a task has not had. -/
def State.firstOp (s : State) (g sl i : Nat) : Option GOp :=
  (s.glade g).ops.find? fun o => o.slice == sl && o.tract == i && (o.stage == .fetched || o.stage == .ready) && o.pend.isNone

/-- Start a task for a tract with its first operation in d0 to d7 (R359). -/
def State.bindTask (s : State) (g sl i : Nat) (t : Tract) (k : Nat) : HubR Unit :=
  let go (s : State) : HubR Unit :=
    match s.firstOp g sl i with
    | none => .ok () s
    | some o =>
      if s.mayIssue g o = false then .ok () s
      else
        let e := 2 * g + t.eng
        let s := (s.startTask e k (s.eng e).workv (some (sl, i)))
        let s := match (s.slice g sl).tract i with
          | some t => s.setTract g sl i (some { t with task := some k })
          | none => s
        s.issueStep g o e k true
  match s.firstOp g sl i with
  | some _ => go s
  | none => (s.fetchOp g sl i).bind fun _ s => go s

/-- TRACT_TASK_BIND: a tract with an unfetched GCW, or with an operation that no task has, is bound to a free task of its engine (R308, R359). -/
def execTractTaskBind (g : Glade) (tract : Fin 65536) (task : TaskId) (s : State) : Host.Outcome State Fault Refusal :=
  .next (match s.tractOwner g tract with
    | none => s
    | some (sl, i) =>
      match (s.slice g sl).tract i with
      | none => s
      | some t =>
        let e := 2 * g.val + t.eng
        let k := task.val
        if s.gladeUp g = false ∨ t.task.isSome = true ∨ s.taskShare g sl ≤ s.tasksRun g sl ∨ s.getF (TWG_CFG e) TWG_CFG_RUN = 0
            ∨ k = 0 ∨ k < s.getF (TWG_CFG e) TWG_CFG_WBASE ∨ s.maxTask e < k ∨ (s.task e k).st ≠ 0 then s
        else ((s.bindTask g sl i t k).run s (fun _ s => s) fun _ s => s).pump g)

/-! Timeouts (R313, R318, R329). -/

/-- OPERATION_TIMEOUT: an operation has not ended OPTMO after its fetch (R318). -/
def execOperationTimeout (g : Glade) (op : Fin 4096) (s : State) : Host.Outcome State Fault Refusal :=
  .next (match s.op g op with
    | some o =>
      if o.hasEnded || o.hub then s
      else (s.modOp g op fun o => { o with pend := some (8, 0, 0), hub := true }).pump g
    | none => s)

/-- COALESCE_TIMEOUT: CTIME has passed since the first record after the last interrupt (R313). -/
def execCoalesceTimeout (g : Glade) (s : SliceId) (q : Fin 16) (st : State) : Host.Outcome State Fault Refusal :=
  .next (match (st.slice g s).ring q with
    | some r => if r.ien && decide (r.ctime ≠ 0) && decide (r.since ≠ 0) && st.gladeUp g then st.ringInt g s q else st
    | none => st)

/-- LEDGER_WRITE_RETRY: the write is tried again; where it may be made the Ledger returns to STATE 1 and the held steps go on (R329). -/
def execLedgerWriteRetry (g : Glade) (s : SliceId) (st : State) : Host.Outcome State Fault Refusal :=
  .next (
    if st.ledgerDown g s = false ∨ st.gladeUp g = false then st
    else
      let pa := st.ledgerPa g s (st.nextSeq g s)
      if isMem pa && st.memOk (st.slicePart g s) pa true then (st.setF (LDG_LSTAT g s) LDG_LSTAT_STATE 1).pump g
      else (st.hubRefuse g s pa true).ledgerBroken g s)

/-! Registers with a row of their own. -/

/-- DIRTY_LOG_CONFIG_WRITE: a write of GLD_SLC_DLCFG, or of GLD_SLC_DLPA(s, 0) or (s, 1) (R314). -/
def execDirtyLogConfigWrite (org : Origin) (g : Glade) (s : SliceId) (reg : Fin 3) (val : Word) (st : State) :
    Host.Outcome State Fault Refusal :=
  .next (st.writeAs org 0x0C g ((GLD_SLC_DLCFG g s).off + 8 * reg.val) 8 val)

/-- LDG_HALT_WRITE: a write of LDG_CTL.HALT (R339). -/
def execLdgHaltWrite (org : Origin) (g : Glade) (s : SliceId) (halt : Bool) (st : State) : Host.Outcome State Fault Refusal :=
  .next (st.writeAs org 0x0F g (LDG_CTL g s).off 8 (BitVec.ofNat 64 (b2n halt)))

/-- ADOPT: a write of LDG_CTL.ADOPT (R341). -/
def execAdopt (org : Origin) (g : Glade) (s : SliceId) (st : State) : Host.Outcome State Fault Refusal :=
  .next (st.writeAs org 0x0F g (LDG_CTL g s).off 8 2)

/-! Leaving reset (R319). -/

/-- The port halves of a Glade are released and train, as the active configuration has them (R288, R319 step 6, R503). -/
def State.releasePorts (s : State) (g : Nat) (phs : List Nat) : State :=
  phs.foldl (fun s ph =>
    let two := s.actF (GLD_PORT g (ph / 2)) GLD_PORT_BIF
    let st := if ph % 2 = 1 ∧ two = 0 then 5 else if s.halfEnabled g ph then 2 else 0
    let s := (((s.setF (halfPst g ph) GLD_PST_STATE st).setF (halfPst g ph) GLD_PST_SPEED 0).setF (halfPst g ph) GLD_PST_WIDTH 0)
    s.modGlade g fun x => { x with portRst := setBit x.portRst ph (st != 2) }) s

/-- GLADE_RESTORE_DONE: slices restored, ports released, Ledgers replayed, STATE 4 (R319 steps 5 to 7). -/
def execGladeRestoreDone (g : Glade) (s : State) : Host.Outcome State Fault Refusal :=
  .next (
    if s.gladeUp g = false ∨ s.gldState g ≠ 3 then s
    else
      (s.restoreAll g ((List.range 256).filter fun sl => s.sliceOn g sl)).run s
        (fun _ s => ((s.releasePorts g (List.range 8)).setF (GLD_STAT g) GLD_STAT_STATE 4).pump g) fun _ s => s)

end Sys2Proof.Machine
end

