-- ==== Sys2Proof/Machine/GroveMsgs.lean ====
section
/-! DEFINITION. The commands of the Grove's messages (R235): each is a message in a flit that arrives on a port. -/

namespace Sys2Proof.Machine

/-- RDS: read request (R240). -/
def execRds (h : Hdr) (s : State) : Host.Outcome State Fault Refusal := .next (s.rxMsg h (hdrMsg h OPC_RDS))

/-- RDO: read-for-ownership request (R240). -/
def execRdo (h : Hdr) (s : State) : Host.Outcome State Fault Refusal := .next (s.rxMsg h (hdrMsg h OPC_RDO))

/-- UPG: upgrade from S to M (R240). -/
def execUpg (h : Hdr) (s : State) : Host.Outcome State Fault Refusal := .next (s.rxMsg h (hdrMsg h OPC_UPG))

/-- RDZ: ownership without data (R240). -/
def execRdz (h : Hdr) (s : State) : Host.Outcome State Fault Refusal := .next (s.rxMsg h (hdrMsg h OPC_RDZ))

/-- EVN: eviction notice (R240). -/
def execEvn (h : Hdr) (s : State) : Host.Outcome State Fault Refusal := .next (s.rxMsg h (hdrMsg h OPC_EVN))

/-- CMW: CLWB request at the home (R240). -/
def execCmw (h : Hdr) (s : State) : Host.Outcome State Fault Refusal := .next (s.rxMsg h (hdrMsg h OPC_CMW))

/-- CMF: CLFLUSH request at the home (R240). -/
def execCmf (h : Hdr) (s : State) : Host.Outcome State Fault Refusal := .next (s.rxMsg h (hdrMsg h OPC_CMF))

/-- CMI: CLINV request at the home (R240). -/
def execCmi (h : Hdr) (s : State) : Host.Outcome State Fault Refusal := .next (s.rxMsg h (hdrMsg h OPC_CMI))

/-- SNPS: snoop that supplies the requester and keeps S (R242). -/
def execSnps (h : Hdr) (s : State) : Host.Outcome State Fault Refusal := .next (s.rxMsg h (hdrMsg h OPC_SNPS))

/-- SNPO: snoop that supplies the requester and goes to I (R242). -/
def execSnpo (h : Hdr) (s : State) : Host.Outcome State Fault Refusal := .next (s.rxMsg h (hdrMsg h OPC_SNPO))

/-- SNPI: invalidating snoop (R242). -/
def execSnpi (h : Hdr) (s : State) : Host.Outcome State Fault Refusal := .next (s.rxMsg h (hdrMsg h OPC_SNPI))

/-- SNPW: snoop that writes modified data home (R242). -/
def execSnpw (h : Hdr) (s : State) : Host.Outcome State Fault Refusal := .next (s.rxMsg h (hdrMsg h OPC_SNPW))

/-- BINV: back-invalidation (R242). -/
def execBinv (h : Hdr) (s : State) : Host.Outcome State Fault Refusal := .next (s.rxMsg h (hdrMsg h OPC_BINV))

/-- SPURGE: set purge at a member (R248). -/
def execSpurge (h : Hdr) (s : State) : Host.Outcome State Fault Refusal := .next (s.rxMsg h (hdrMsg h OPC_SPURGE))

/-- CMP: the requester's acknowledgement (R231). -/
def execCmp (h : Hdr) (s : State) : Host.Outcome State Fault Refusal := .next (s.rxMsg h (hdrMsg h OPC_CMP))

/-- GNT: grant without data (R242). -/
def execGnt (h : Hdr) (s : State) : Host.Outcome State Fault Refusal := .next (s.rxMsg h (hdrMsg h OPC_GNT))

/-- SRSP: snoop response without data (R244). -/
def execSrsp (h : Hdr) (s : State) : Host.Outcome State Fault Refusal := .next (s.rxMsg h (hdrMsg h OPC_SRSP))

/-- INVACK: acknowledgement of an SNPI (R233). -/
def execInvack (h : Hdr) (s : State) : Host.Outcome State Fault Refusal := .next (s.rxMsg h (hdrMsg h OPC_INVACK))

/-- WACK: acceptance of a WBK, EVN or PWB (R242). -/
def execWack (h : Hdr) (s : State) : Host.Outcome State Fault Refusal := .next (s.rxMsg h (hdrMsg h OPC_WACK))

/-- CMACK: progress of cache maintenance (R240). -/
def execCmack (h : Hdr) (s : State) : Host.Outcome State Fault Refusal := .next (s.rxMsg h (hdrMsg h OPC_CMACK))

/-- PACK: a member's set purge is done (R248). -/
def execPack (h : Hdr) (s : State) : Host.Outcome State Fault Refusal := .next (s.rxMsg h (hdrMsg h OPC_PACK))

/-- ERR: a request ends in error (R236). -/
def execErr (h : Hdr) (s : State) : Host.Outcome State Fault Refusal := .next (s.rxMsg h (hdrMsg h OPC_ERR))

/-- TLBA: a broadcast is complete on a member (R241). -/
def execTlba (h : Hdr) (s : State) : Host.Outcome State Fault Refusal := .next (s.rxMsg h (hdrMsg h OPC_TLBA))

/-- WBK: write-back of an M line (R240). -/
def execWbk (h : Hdr) (data : LineData) (s : State) : Host.Outcome State Fault Refusal :=
  .next (s.rxMsg h (hdrMsg h OPC_WBK 0 (some data)))

/-- PWB: write-back during a set purge (R248). -/
def execPwb (h : Hdr) (data : LineData) (s : State) : Host.Outcome State Fault Refusal :=
  .next (s.rxMsg h (hdrMsg h OPC_PWB 0 (some data)))

/-- DATA: a line with its grant (R242). -/
def execData (h : Hdr) (data : LineData) (s : State) : Host.Outcome State Fault Refusal :=
  .next (s.rxMsg h (hdrMsg h OPC_DATA 0 (some data)))

/-- SRSPD: a snoop response with modified data (R242). -/
def execSrspd (h : Hdr) (data : LineData) (s : State) : Host.Outcome State Fault Refusal :=
  .next (s.rxMsg h (hdrMsg h OPC_SRSPD 0 (some data)))

/-- MRD: remote register read (R241). -/
def execMrd (h : Hdr) (lo : BitVec 8) (size8 : Bool) (s : State) : Host.Outcome State Fault Refusal :=
  .next (s.rxMsg h (hdrMsg h OPC_MRD (lo.toNat + 256 * b2n size8)))

/-- MWR: remote register write (R241). -/
def execMwr (h : Hdr) (lo : BitVec 8) (size8 : Bool) (val : Word) (s : State) : Host.Outcome State Fault Refusal :=
  .next (s.rxMsg h (hdrMsg h OPC_MWR (lo.toNat + 256 * b2n size8) none val))

/-- TLBB: a broadcast TLBI or WCI of another module (R241). -/
def execTlbb (h : Hdr) (bgrp : BitVec 8) (fn : BitVec 4) (ra rb : Word) (s : State) : Host.Outcome State Fault Refusal :=
  .next (s.rxMsg h (hdrMsg h OPC_TLBB (bgrp.toNat + 256 * fn.toNat) none ra rb))

/-- MRSP: data for an MRD, or completion of an MWR (R241). -/
def execMrsp (h : Hdr) (val : Word) (s : State) : Host.Outcome State Fault Refusal :=
  .next (s.rxMsg h (hdrMsg h OPC_MRSP 0 none val))

/-- UNKNOWN_OPCODE: a flit that holds an opcode or ST value of no message (R235). -/
def execUnknownOpcode (p : GrovePort) (s : State) : Host.Outcome State Fault Refusal :=
  .next (if s.gpState p.val = 2 then s.badFlit p.val else s)

end Sys2Proof.Machine
end

