-- ==== Sys2Proof/Machine/GroveLink.lean ====
section
/-! DEFINITION. The Grove's link layer as events: retry, retraining, loss of a port or a peer, relays, training (R251 to R263). -/

namespace Sys2Proof.Machine

/-! Widths (R256). -/

/-- The lanes of a group of `n` lanes are all good. -/
def lanesGood (ok n g : Nat) : Bool := ok / 2 ^ (n * g) % 2 ^ n == 2 ^ n - 1

/-- The widest width whose lanes are all good, lower group first: WIDTH and GRP; WIDTH 0 where no group of four is left (R256, R257). -/
def widest (ok : Nat) : Nat × Nat :=
  if lanesGood ok 16 0 then (3, 0)
  else match (List.range 2).find? (lanesGood ok 8) with
    | some g => (2, g)
    | none => match (List.range 4).find? (lanesGood ok 4) with
      | some g => (1, g)
      | none => (0, 0)

/-- Show the width of a port, counting a reduction (R257). -/
def State.setWidth (s : State) (p : Nat) : State :=
  let w := widest (s.getF (GRV_STAT p) GRV_STAT_LANEOK)
  let old := s.getF (GRV_STAT p) GRV_STAT_WIDTH
  let s := if w.1 < old then s.incF (GRV_ERR p) GRV_ERR_WIDTHDN else s
  (s.setF (GRV_STAT p) GRV_STAT_WIDTH w.1).setF (GRV_STAT p) GRV_STAT_GRP w.2

/-- The identity check of step 4 (R255). -/
def State.identOk (s : State) (p : Nat) (i : PortIdent) : Bool :=
  i.gid.toNat == s.actF GRV_GROUP GRV_GROUP_GID && i.modn.val == s.gpPeer p && bitOf i.memb.toNat s.self
    && s.member i.modn.val && i.peer.val == s.self

/-- A port's contained-class record (R255, R257), its STATE in DETAIL. -/
def State.logPort (s : State) (p st : Nat) : State :=
  s.log { block := 0x08, inst := p, cls := 2, typ := 0x0C, detail := [BitVec.ofNat 8 st] }

/-- The last flit a port has delivered in order, as RESUME carries it (R258, R259). -/
def GPort.delivered (x : GPort) : Nat := (x.rxSeq + 4095) % 4096

/-- A port enters service: it carries the buckets assigned to it, and those that no active port of its bundle carries; credits are initialised, RESUME is sent (R251, R254, R259). -/
def State.portUp (s : State) (p : Nat) : State :=
  let m := s.gpPeer p
  let mine := (s.gp p).buckets
  let s := ((s.bundle m).filter fun q => q != p).foldl (fun s q => s.modGp q fun x => { x with
    buckets := x.buckets ^^^ (x.buckets &&& mine) }) s
  let s := s.setF (GRV_STAT p) GRV_STAT_STATE 2
  let free := (List.range 8).filter fun b => (s.bucketPort m b).isNone
  let s := s.modGp p fun x => { x with
    buckets := free.foldl (fun a b => setBit a b true) x.buckets, cred := [], qrFail := 0, replays := 0, resumeFor := []
    ctl := .resume p x.delivered :: x.ctl }
  (s.refreshRoutes).unstall m

/-- A commit of the GROVE record assigns the buckets of a bundle round-robin to its ports in ascending order; those of a port that is not up go to the lowest-numbered active one for the time being (R251). -/
def State.assignBuckets (s : State) (m : Nat) : State :=
  let l := s.bundle m
  let own (p : Nat) : Nat := (List.range 8).foldl (fun a b => setBit a b (l[b % l.length]? == some p)) 0
  let s := l.foldl (fun s p => s.modGp p fun x => { x with buckets := own p }) s
  match l.find? s.gpUp with
  | some q => s.modGp q fun x => { x with buckets := (l.filter fun p => !s.gpUp p).foldl (fun a p => a ||| own p) x.buckets }
  | none => s

/-! Severance (R260). -/

/-- Canopy forgets a severed peer; memory of lines it owned is poisoned (R260). -/
def State.severCanopy (s : State) (m : Nat) : State :=
  s.canopy.foldl (fun s (i, e) =>
    if bitOf e.pres m then
      if e.st = CanSt.ex then
        let l := canLine s.self (i / 16) e.tag
        let s := match s.memRead l with
          | (s, .now d _) => s.memWrite l d true
          | _ => match s.placeLine l with
            | some (lk, la) => s.memWrite l (s.linkLine lk la).1 true
            | none => s
        s.setCan i CanEnt.free
      else if e.st = CanSt.sh then
        let w := setBit e.pres m false
        s.setCan i (if w = 0 then CanEnt.free else { e with pres := w })
      else s
    else s) s

/-- The home's requests go on without a severed peer: those of the peer are discarded, and its outstanding responses count as SRSP ST 0 (R260). -/
def State.severHome (s : State) (m : Nat) : State :=
  let s := { s with home := s.home.filter fun x => x.src != m }
  let waits := s.home.filter fun x => bitOf x.wait m
  let s := waits.foldl (fun s x => match x.evict with
    | some i => s.snoopResponse (canLine s.self (i / 16) (s.can i).tag) m 0 none
    | none => s.snoopResponse x.line m 0 none) s
  let s := s.purges.foldl (fun s p => s.purgeDone p.set m) s
  s.homeServe

/-- This module's own business with a severed peer ends (R260). -/
def State.severOut (s : State) (m : Nat) : State :=
  (s.out.filter fun o => o.dst == m).foldl (fun s o =>
    let s := s.dropOut o
    match o.kind with
    | .coh c => if c = OPC_WBK ∨ c = OPC_EVN ∨ c = OPC_PWB then s else s.setLine o.line { Line.none with err := 2 }
    | .cmo _ t =>
      match (s.thr t).sb with
      | e :: _ => if lineOf e.pa = o.line then s.storeErr t e 2 else s.modThr t fun x => { x with wbs := x.wbs.erase o.line }
      | [] => s.modThr t fun x => { x with wbs := x.wbs.erase o.line }
    | .mrd t =>
      match (s.thr t).devLoad.find? fun d => d.tid == some o.tid with
      | some d => (s.lostLoad t d.pa).giveTid t o.tid (onesVal d.size)
      | none => s
    | .mwr t =>
      match (s.thr t).trk.find? fun e => e.tid == some o.tid with
      | some e => s.failStore t e.pa
      | none => s
    | .tlbb t => s.bcastAnswered t m) s

/-- This module severs a peer (R260). -/
def State.sever (s : State) (m : Nat) : State :=
  if (s.peer m).severed || m == s.self then s
  else
    let s := s.log { block := 0x08, inst := ((s.bundle m).head?).getD 0, cls := 2, typ := 0x0C, detail := [4] }
    let s := s.setPeer m { Peer.reset with severed := true }
    let s := (s.bundle m).foldl (fun s p => s.modGp p fun x => { GPort.reset with buckets := x.buckets }) s
    let s := s.refreshRoutes
    let s := s.severCanopy m
    let ls := (s.lines.filter fun e => lineHome e.1 == m).map (·.1)
    let s := ls.foldl (fun s l => s.dropLine l) s
    let s := (s.severOut m).markFailed (0x20000 + m)
    let s := { s with inb := s.inb.filter fun i => i.src != m, snpQ := s.snpQ.filter fun q => q.src != m }
    (s.severHome m).settleBcasts

/-! Loss of a port (R257, R258). -/

/-- The bodies of a lost port's flits go out again, in order, over the new path. -/
def State.resend (s : State) (m : Nat) (l : List FlitBody) : State :=
  l.foldl (fun s b => match b with
    | .msg x => s.send x
    | b => match (List.range 7).find? fun p => s.gpUp p && (s.gpPeer p == m || some (s.gpPeer p) == s.relay m) with
      | some p => s.modGp p fun y => y.offer b
      | none => s) s

/-- A port is lost: recorded, and both ends exchange RESUME over another path (R257, R258). (DEDUCED, notes/assumptions/53.md.) -/
def State.portLost (s : State) (p : Nat) : State :=
  let m := s.gpPeer p
  let s := (s.setF (GRV_STAT p) GRV_STAT_STATE 4).logPort p 4
  let s := s.modGp p fun x => { x with resumeFor := [p], qrFail := 0 }
  let s := s.refreshRoutes
  let via := match (s.bundle m).find? s.gpUp with
    | some q => some q
    | none => match s.relay m with
      | some v => (s.bundle v).find? s.gpUp
      | none => none
  match via with
  | some q => s.modGp q fun x => { x with ctl := .resume p (s.gp p).delivered :: x.ctl }
  | none => s

/-- RESUME for a lost port: its buffer is replayed from the other end's number over the new path, then stalled traffic follows (R258). -/
def State.resumeLost (s : State) (lost lseq : Nat) : State :=
  let m := s.gpPeer lost
  let s := if s.gpUp lost then s.portLost lost else s
  let x := (s.gp lost).ack lseq
  let again := x.buf.map (·.body) ++ x.waitQ
  let s := s.setGp lost { GPort.reset with rxSeq := x.rxSeq, txSeq := x.txSeq, ctl := x.ctl }
  let s := match (s.bundle m).find? s.gpUp with
    | some q => s.modGp q fun y => { y with buckets := y.buckets ||| x.buckets }
    | none => s
  (s.resend m again).unstall m

/-- NAK: the sender replays from the flit named; after 8 replays without progress the port retrains quickly (R253). -/
def execNak (p : GrovePort) (lseq : BitVec 12) (s : State) : Host.Outcome State Fault Refusal :=
  .next (
    if s.gpState p.val ≠ 2 then s
    else
      let s := s.modGp p.val fun x => x.ack ((lseq.toNat + 4095) % 4096)
      if (s.gp p.val).buf = [] then s
      else
        let s := s.incF (GRV_ERR p.val) GRV_ERR_REPLAY
        if 7 ≤ (s.gp p.val).replays then (s.modGp p.val fun x => { x with replays := 0 }).quickRetrain p.val
        else s.modGp p.val fun x => { x with replays := x.replays + 1 })

/-- FLIT_CRC_FAILURE: the flit is discarded and NAK asks for the one expected (R253). -/
def execFlitCrcFailure (p : GrovePort) (s : State) : Host.Outcome State Fault Refusal :=
  .next (
    if s.gpState p.val ≠ 2 then s
    else (s.incF (GRV_ERR p.val) GRV_ERR_CRCERR).modGp p.val fun x => { x with ctl := .nak x.rxSeq :: x.ctl })

/-- IDLE_FLIT: LACK and returned credits (R252). -/
def execIdleFlit (p : GrovePort) (lack : BitVec 12) (vc : BitVec 3) (cred : BitVec 13) (s : State) : Host.Outcome State Fault Refusal :=
  .next (if s.gpState p.val ≠ 2 then s else s.modGp p.val fun x => (x.ack lack.toNat).credit vc.toNat cred.toNat)

/-- A relayed flit at its final receiver: delivered once and in order by its pair sequence (R252, R258). -/
def State.finalFlit (s : State) (p : Nat) (f : Relayed) : State :=
  let m := f.first.val
  let s := s.modPeer m fun x => { x with pbuf := x.pbuf.filter fun y => !covered f.pack.toNat y.lseq }
  if f.pseq.toNat ≠ (s.peer m).prx then s
  else
    let s := s.modPeer m fun x => { x with prx := (x.prx + 1) % 4096 }
    let w := f.data.toNat
    s.inFlit p { hdrMsg f.h f.opc.toNat f.aux.toNat with
      dst := s.self
      line := if f.opc.toNat = OPC_WBK ∨ f.opc.toNat = OPC_PWB ∨ vcOf f.opc.toNat = 3 then some f.data else none
      w0 := BitVec.ofNat 64 w, w1 := BitVec.ofNat 64 (w / 2 ^ 64) }

/-- RELAYED_FLIT: forwarded whole by a relay, delivered by its final receiver; a relay forwards once, by a direct port (R251). -/
def execRelayedFlit (p : GrovePort) (f : Relayed) (s : State) : Host.Outcome State Fault Refusal :=
  .next (s.rxFlit p.val f.lseq.toNat f.lack.toNat fun s =>
    if f.final.val = s.self then s.finalFlit p.val f
    else
      match (s.bundle f.final.val).find? s.gpUp with
      | some q =>
        let m : Msg := { hdrMsg f.h f.opc.toNat f.aux.toNat (some f.data) with dst := f.final.val }
        s.modGp q fun x => x.offer (.relayed f.first.val f.final.val f.pseq.toNat f.pack.toNat (some m))
      | none => s)

/-- RESUME: for this port after a retrain its buffer is kept from the other end's number on; for a lost port it is replayed over the new path (R258, R259). -/
def execResume (p lost : GrovePort) (lseq : BitVec 12) (s : State) : Host.Outcome State Fault Refusal :=
  .next (
    if s.gpState p.val ≠ 2 then s
    else if lost = p then s.modGp p.val fun x => x.ack lseq.toNat
    else if s.gpState lost.val = 4 ∧ (s.gp lost.val).resumeFor = [] then s
    else s.resumeLost lost.val lseq.toNat)

/-- WTHROW: the peer is severed at once (R260). -/
def execWthrow (m : Module) (s : State) : Host.Outcome State Fault Refusal :=
  .next (if s.member m.val then s.sever m.val else s)

/-- FLIT_TIMEOUT: no valid flit for 2 µs (R257). -/
def execFlitTimeout (p : GrovePort) (s : State) : Host.Outcome State Fault Refusal := .next (s.quickRetrain p.val)

/-- LANE_FAIL: the port retrains narrower, or is lost where no group of four good lanes remains (R256, R257). -/
def execLaneFail (p : GrovePort) (lane : Fin 16) (s : State) : Host.Outcome State Fault Refusal :=
  .next (
    if s.gpUp p.val = false ∨ bitOf (s.getF (GRV_STAT p.val) GRV_STAT_LANEOK) lane.val = false then s
    else
      let ok := setBit (s.getF (GRV_STAT p.val) GRV_STAT_LANEOK) lane.val false
      let s := s.setF (GRV_STAT p.val) GRV_STAT_LANEOK ok
      if (widest ok).1 = 0 then s.portLost p.val else s.quickRetrain p.val)

/-- QUICK_RETRAIN_DONE: active again at the widest good width; a peer that fails the identity check is severed; the second failure in succession loses the port (R254 to R257, R260). -/
def execQuickRetrainDone (p : GrovePort) (ok : Bool) (ident : PortIdent) (s : State) : Host.Outcome State Fault Refusal :=
  .next (
    if s.gpState p.val ≠ 3 then s
    else if ok = false then
      if 1 ≤ (s.gp p.val).qrFail then s.portLost p.val
      else (s.modGp p.val fun x => { x with qrFail := x.qrFail + 1 }).incF (GRV_ERR p.val) GRV_ERR_QRETRAIN
    else if s.identOk p.val ident = false then
      (((s.setF (GRV_STAT p.val) GRV_STAT_STATE 0).logPort p.val 0).refreshRoutes).sever (s.gpPeer p.val)
    else ((s.setWidth p.val).portUp p.val))

/-- QUICK_RETRAIN_TIMEOUT: not active within 1 ms of the first quick retrain (R257). -/
def execQuickRetrainTimeout (p : GrovePort) (s : State) : Host.Outcome State Fault Refusal :=
  .next (if s.gpState p.val = 3 then s.portLost p.val else s)

/-- GROVE_PORT_TRAINED: full training ends with the identity check; the port is active, or marked down. A severed peer that trains again has been added, which clears its failed mark (R254, R255, R260, R261). -/
def execGrovePortTrained (p : GrovePort) (lanes : BitVec 16) (ident : PortIdent) (s : State) : Host.Outcome State Fault Refusal :=
  let n := p.val
  .next (
    if s.gpState n ≠ 1 ∨ (widest lanes.toNat).1 = 0 then s
    else
      let s := ((s.setF (GRV_STAT n) GRV_STAT_PEERMOD ident.modn.val).setF (GRV_STAT n) GRV_STAT_PEERPORT ident.port.val).setF
        (GRV_STAT n) GRV_STAT_LANEOK lanes.toNat
      let m := s.gpPeer n
      if s.identOk n ident = false then
        let was := s.live m
        let s := ((s.setF (GRV_STAT n) GRV_STAT_STATE 0).logPort n 0).refreshRoutes
        if was then s.sever m else s
      else
        let s := { s.modPeer m fun x => { x with severed := false } with failed := s.failed.filter fun k => k != 0x20000 + m }
        ((s.setF (GRV_STAT n) GRV_STAT_WIDTH 0).setWidth n).portUp n)

/-- SEVERANCE_TIMEOUT: no path to a peer has returned within SEVT (R260). -/
def execSeveranceTimeout (m : Module) (s : State) : Host.Outcome State Fault Refusal :=
  .next (if s.member m.val = true ∧ s.direct m.val = false ∧ s.relay m.val = none then s.sever m.val else s)

/-- GROVE_TRAIN_TIMEOUT: a port whose peer has not trained in time is marked down, and training stops (R64, R65, R66). -/
def execGroveTrainTimeout (p : GrovePort) (s : State) : Host.Outcome State Fault Refusal :=
  .next (if s.gpState p.val = 1 then ((s.setF (GRV_STAT p.val) GRV_STAT_STATE 0).logPort p.val 0).refreshRoutes else s)

end Sys2Proof.Machine
end

