-- ==== Sys2Proof/Machine/PowerBase.lean ====
section
/-! DEFINITION. The frequency control of the Stands: targets, caps, voltages (R3, R498, R508 to R510). -/

namespace Sys2Proof.Machine

/-- The fused nominal of the bin in units of 25 MHz (R2, R3). -/
def State.nominal (s : State) : Nat := if s.getF SVP_IDENT SVP_IDENT_BIN = 0x38 then 152 else 168

/-- The all-core target as the controller uses it: FREQ clamped (R3). -/
def State.freqOf (s : State) (st : Nat) : Nat := max 32 (min (s.actF (CLK_STAND st) CLK_STAND_FREQ) s.nominal)

/-- The boost target as the controller uses it; below FREQ it acts as FREQ (R3). -/
def State.boostOf (s : State) (st : Nat) : Nat := max (s.freqOf st) (min (s.actF (CLK_STAND st) CLK_STAND_BOOSTF) 200)

/-- The target without limits: BOOSTF where the Stand may boost, FREQ otherwise (R508). -/
def State.fullTarget (s : State) (st : Nat) : Nat :=
  if s.actF (CLK_STAND st) CLK_STAND_BOOSTEN = 1 then s.boostOf st else s.freqOf st

/-- The target with the boost withdrawn where the controller has withdrawn it (R508). -/
def State.target (s : State) (st : Nat) : Nat := if s.pwr.boostOff then s.freqOf st else s.fullTarget st

/-- The package power limit as the controller uses it (R508). -/
def State.pl1 (s : State) : Nat := min (s.actF PWR_LIMIT PWR_LIMIT_PL1) 480

/-- The highest FREQ of the four Stands: where the common cap starts and is lifted (R508). -/
def State.topFreq (s : State) : Nat := (List.range 4).foldl (fun m st => max m (s.freqOf st)) 0

/-- The emergency caps on a Stand (R509). -/
def State.emergency (s : State) (st : Nat) : List Nat :=
  (if s.pwr.prochot then [64] else []) ++ (if s.pwr.hot then [32] else [])
    ++ (Tab.get (fun _ => none) s.pwr.excess st).toList

/-- The lowest of some caps and a frequency (R509). -/
def capped (f : Nat) (caps : List Nat) : Nat := caps.foldl min f

/-- The frequency a Stand is to run at: its target under the common cap and the emergency caps (R508, R509). -/
def State.wanted (s : State) (st : Nat) : Nat := capped (s.target st) (s.pwr.cap.toList ++ s.emergency st)

/-- The voltage in mV for a frequency, clamped to the fused maximum and the rail's range (R493, R498). -/
def voltOf (st f : Nat) : Nat := max 600 (min 1100 (min (Config.vMax st) (Config.vfCurve st f)))

/-- EFF of a Stand. -/
def State.eff (s : State) (st : Nat) : Nat := s.getF (CLK_STAND st) CLK_STAND_EFF

/-- Whether a Stand is held by an AVSBus error (R498). -/
def State.avsHeld (s : State) (st : Nat) : Bool := bitOf s.pwr.hold st

/-- A Stand parked: in warm reset, or with every core failed or held in reset (R510). -/
def State.parked (s : State) (st : Nat) : Bool :=
  bitOf s.standRst st || (List.range 18).all fun i => (s.core (18 * st + i)).held || s.role (18 * st + i) == 2

/-- The reasons in force on a Stand by LIMIT code: throttling, temperature, PROCHOT#, current, and a boost that is held (R508, R509). -/
def State.reasons (s : State) (st : Nat) : List Nat :=
  s.pwr.throttling.toList ++ (if s.pwr.hot then [2] else []) ++ (if s.pwr.prochot then [3] else [])
    ++ (if (Tab.get (fun _ => none) s.pwr.excess st).isSome then [4] else [])
    ++ (if s.pwr.boostOff && s.actF (CLK_STAND st) CLK_STAND_BOOSTEN == 1 then [5] else [])

/-- LIMIT: the lowest-numbered reason in force where EFF lies below the target (R509). -/
def State.showLimit (s : State) (st : Nat) : State :=
  s.setF (CLK_STAND st) CLK_STAND_LIMIT (if s.eff st < s.fullTarget st then capped 15 (s.reasons st) % 15 else 0)

/-- Change the waiting raise of a Stand. -/
def State.setRaise (s : State) (st : Nat) (v : Option Nat) : State :=
  { s with pwr := { s.pwr with raise := Tab.set (fun _ => none) s.pwr.raise st v } }

/-- Set a Stand's frequency; its voltage follows downwards (R498). -/
def State.setEff (s : State) (st f : Nat) : State :=
  ((s.setF (CLK_STAND st) CLK_STAND_EFF f).setF (PWR_RAIL st) PWR_RAIL_VSET (voltOf st f)).setRaise st none

/-- Bring one Stand toward the frequency wanted: down at once, up when the voltage has risen (R498, R508, R509). A Stand held by an AVSBus error follows the emergency caps alone. -/
def State.steer (s : State) (st : Nat) : State :=
  let w := if s.avsHeld st then capped (s.eff st) (s.emergency st) else s.wanted st
  let s :=
    if w < s.eff st then s.setEff st w
    else if s.eff st < w then
      if voltOf st w ≤ s.getF (PWR_RAIL st) PWR_RAIL_VSET ∧ Tab.get (fun _ => none) s.pwr.raise st = none then s.setEff st w
      else (s.setF (PWR_RAIL st) PWR_RAIL_VSET (voltOf st w)).setRaise st (some w)
    else s.setRaise st none
  s.showLimit st

/-- The Stand clocks run: step 6 of R63 has come, and Windthrow has not gated them (R466). -/
def State.standClocks (s : State) : Bool := s.clocksUp && decide (s.wind < 3)

/-- Bring every Stand toward the frequency wanted. -/
def State.steerAll (s : State) : State := if s.standClocks then (List.range 4).foldl State.steer s else s

/-- The Stand PLLs lock at the committed rates (R63 step 6). -/
def State.lockStands (s : State) : State := ((List.range 4).foldl (fun s st => s.setEff st (s.freqOf st)) s).steerAll

/-- The record of a clamped request (R3, R460). -/
def State.clampRec (s : State) (v : Nat) : State := s.logC 0x15 0 0x0D (leBytes 4 v)

/-- A commit has changed the registers `ch`, of which some are frequencies or the power limit: what lies out of range is clamped and logged, and the Stands follow (R3). -/
def State.retarget (s : State) (ch : List Reg) : State :=
  let s := ((List.range 4).filter fun st => ch.contains (CLK_STAND st)).foldl (fun s st =>
    let f := s.actF (CLK_STAND st) CLK_STAND_FREQ
    let b := s.actF (CLK_STAND st) CLK_STAND_BOOSTF
    let s := if f ≠ s.freqOf st then s.clampRec f else s
    if 200 < b then s.clampRec b else s) s
  let p := s.actF PWR_LIMIT PWR_LIMIT_PL1
  (if 480 < p ∧ ch.contains PWR_LIMIT = true then s.clampRec p else s).steerAll

/-- The voltage of a parked Stand falls to 0.60 V, and rises again before the Stand runs (R510). -/
def State.parkVolt (s : State) (st : Nat) : State :=
  if s.parked st then s.setF (PWR_RAIL st) PWR_RAIL_VSET 600
  else if s.getF (PWR_RAIL st) PWR_RAIL_VSET < voltOf st (s.eff st) then s.setF (PWR_RAIL st) PWR_RAIL_VSET (voltOf st (s.eff st))
  else s

end Sys2Proof.Machine
end

