-- ==== Sys2Proof/Machine/Image.lean ====
section
/-! DEFINITION. The objects the host stages in BAR2: the staging area, object containers, and the verification of a Tilet image up to its entries (R27 to R36, R52 steps 1 to 9, R54, R60, R61, R521). -/

namespace Sys2Proof.Machine

/-- The size of the staging area: the lower half of BAR2 (R54). -/
def stageSize : Nat := 2 ^ 27

/-- The first bytes of the staging area. -/
def State.staged (s : State) (n : Nat) : List Byte := (List.range n).map fun i => Tab.get memDefault s.bar2 i

/-- A little-endian field of an object. -/
def rdLe (b : List Byte) (off n : Nat) : Nat := fromLe ((b.drop off).take n)

/-- Bytes `a` to `e` (exclusive) are zero. -/
def zeroIn (b : List Byte) (a e : Nat) : Bool := ((b.drop a).take (e - a)).all fun x => x == 0

/-- An ECDSA P-384 signature with SHA-384 verifies under a key of 96 bytes (R31, R32). -/
def sigOk (key msg sig : List Byte) : Bool :=
  ecdsaOk (fromBe (key.take 48)) (fromBe (key.drop 48)) (sha384 msg) (fromBe (sig.take 48)) (fromBe (sig.drop 48))

/-- The bytes of a key kept as a number. -/
def keyBytes (k : BitVec 768) : List Byte := beBytes 96 k.toNat

/-- The hash of the root key that the fuses hold (R53). -/
def State.rootHashIs (s : State) (key : List Byte) : Bool := fromBe (sha384 key) == s.rootHash.toNat

/-! Object containers (R60, R61). -/

/-- A verified container. -/
structure Container where
  serial : Nat
  loadpa : Nat
  payload : List Byte
  deriving DecidableEq, Repr

/-- The payload limit of a KIND (R53): for machine firmware the carve-out's size. -/
def kindLimit (kind carve : Nat) : Nat :=
  if kind = 1 then 96 * 1024 else if kind = 2 ∨ kind = 3 then 32 * 1024 else if kind = 4 then carve else 2 ^ 20

/-- The key a container of this KIND and SIGNER is checked under (R61). -/
def State.containerKey (s : State) (kind signer : Nat) (b : List Byte) : Option (List Byte) :=
  if kind = 1 then (if signer = 0 then some ((b.drop 64).take 96) else none)
  else if signer = 0 then s.rootKey.map keyBytes
  else if signer = 1 ∧ kind ≠ 2 then s.ownerKey.map keyBytes
  else none

/-- The format of a container's header after its CRC (R60); `none` passes. The order of the checks is the model's (notes/assumptions/30.md). -/
def headerCode (b : List Byte) (kind carve : Nat) : Option Nat :=
  let k := rdLe b 8 2
  let len := rdLe b 0xC 4
  let pa := rdLe b 0x18 8
  if b.take 8 ≠ (("AEMOBJ01".toList.map fun c => BitVec.ofNat 8 c.toNat) : List Byte) ∨ k = 0 ∨ 6 ≤ k ∨ rdLe b 0xA 2 ≠ 64 then some 0x03
  else if k ≠ kind then some 0x09
  else if len = 0 ∨ len % 4 ≠ 0 ∨ zeroIn b 0x20 0x3C = false ∨ (if k = 4 then pa % 256 ≠ 0 else pa ≠ 0) then some 0x03
  else if kindLimit k carve < len ∨ (k = 2 ∧ len ≠ 32768) then some 0x07
  else none

/-- Verify a staged container (R60, R61): its result code, or what it holds. -/
def State.container (s : State) (kind len carve : Nat) : Except Nat Container :=
  if len < 64 ∨ stageSize < len then .error 0x0E
  else
    let b := s.staged len
    if rdLe b 0x3C 4 ≠ (crc32c (b.take 0x3C)).toNat then .error 0x04
    else
      match headerCode b kind carve with
      | some c => .error c
      | none =>
        let start := if kind = 1 then 160 else 64
        let pos := start + rdLe b 0xC 4
        let signer := rdLe b (pos + 2) 2
        if len ≠ pos + 104 then .error 0x0E
        else if kind = 1 ∧ s.rootHashIs ((b.drop 64).take 96) = false then .error 0x05
        else if rdLe b pos 2 ≠ 0x5347 ∨ rdLe b (pos + 4) 4 ≠ 96 then .error 0x06
        else
          match s.containerKey kind signer b with
          | none => .error 0x06
          | some key =>
            if sigOk key (b.take (pos + 8)) (b.drop (pos + 8)) then
              .ok ⟨rdLe b 0x10 8, rdLe b 0x18 8, (b.drop start).take (rdLe b 0xC 4)⟩
            else .error 0x06

/-! The Tilet image. -/

/-- What stops a verification: the code of R50 and the offset of R521. -/
abbrev Rej := Nat × Nat

/-- A record of an image (R29). -/
structure ImgRec where
  off : Nat
  group : Nat
  typ : Nat
  payload : List Byte
  deriving DecidableEq, Repr

/-- A verified image. -/
structure Image where
  part : Bool
  serial : Nat
  root : BitVec 768
  owner : Option (BitVec 768)
  ents : List ImgEnt
  deriving DecidableEq, Repr

/-- The bit of BINS that permits a bin (R28). -/
def binBit (bin : Nat) : Nat := if bin = 0x42 then 1 else if bin = 0x38 then 2 else 0

/-- Step 3 of R52: the header fields in offset order; `none` passes. -/
def State.imgHeader (s : State) (b : List Byte) : Option Nat :=
  let bins := byteAt b 0x1A
  let m := byteAt b 0x1B
  let unit := rdLe b 0x1C 4
  if b.take 8 ≠ (("TILETIMG".toList.map fun c => BitVec.ofNat 8 c.toNat) : List Byte) ∨ rdLe b 8 2 ≠ 1 ∨ rdLe b 0xA 2 ≠ 128
      ∨ 2 ≤ rdLe b 0xC 4 then some 0x02
  else if rdLe b 0x18 2 ≠ s.getF SVP_IDENT SVP_IDENT_PART then some 0x04
  else if 4 ≤ bins then some 0x02
  else if bins &&& binBit (s.getF SVP_IDENT SVP_IDENT_BIN) = 0 ∨ (m ≠ 0xFF ∧ m ≠ s.self)
      ∨ (unit ≠ 0 ∧ unit ≠ s.getF SVP_IDENT SVP_IDENT_UNIT) then some 0x04
  else if rdLe b 0x20 8 = 0 ∨ zeroIn b 0x34 0x7C = false then some 0x02
  else none

/-- Step 6 of R52 from offset `pos`: the records up to END, which must end at `limit` (R29, R30, R36). -/
def imgRecords (b : List Byte) (limit : Nat) : Nat → Nat → Except Rej (List ImgRec)
  | 0, pos => .error (0x0A, pos)
  | n + 1, pos =>
    let g := rdLe b pos 2
    let t := rdLe b (pos + 2) 2
    let len := rdLe b (pos + 4) 4
    let next := pos + 12 + len
    let bad := decide (limit < next) || decide (4096 ≤ g) || len % 4 != 0 || (len == 0 && (t != 0 || g != 0)) || (t == 0 && len != 0)
      || (decide (t ≤ 3) && g != 0) || (decide (0x10 ≤ t) && decide (t ≤ 0x1D) && len % 16 != 0)
    if bad then .error (0x0A, pos)
    else if rdLe b (pos + 8 + len) 4 ≠ (crc32c ((b.drop pos).take (8 + len))).toNat then .error (0x08, pos)
    else
      let r : ImgRec := ⟨pos, g, t, (b.drop (pos + 8)).take len⟩
      if len = 0 then (if next = limit then .ok [r] else .error (0x0A, pos))
      else (imgRecords b limit n next).map fun l => r :: l

/-- The delegation certificate of R33: the owner's key and PERM. -/
def State.deleg (s : State) (r : ImgRec) (root : List Byte) (serial : Nat) : Except Rej (List Byte × Nat) :=
  let p := r.payload
  let unit := rdLe p 4 4
  if p.length ≠ 224 ∨ 2 ^ 14 ≤ rdLe p 0x10 8 ∨ sigOk root (p.take 0x80) (p.drop 0x80) = false
      ∨ (unit ≠ 0 ∧ unit ≠ s.getF SVP_IDENT SVP_IDENT_UNIT) ∨ serial < rdLe p 0x18 8 ∨ rdLe p 0 4 ≠ 1 then .error (0x06, r.off)
  else .ok ((p.drop 0x20).take 96, rdLe p 0x10 8)

/-- Step 7 of R52 after the signature header: ROOTKEY, then DELEG; the root key, the owner key and PERM (R32, R33). -/
def State.imgKeys (s : State) (l : List ImgRec) (signer serial : Nat) : Except Rej (List Byte × Option (List Byte × Nat)) :=
  match l with
  | [] => .error (0x05, 0x80)
  | r :: t =>
    if r.typ ≠ 1 ∨ r.payload.length ≠ 96 ∨ s.rootHashIs r.payload = false then .error (0x05, r.off)
    else
      match t.find? fun x => x.typ == 1 with
      | some x => .error (0x05, x.off)
      | none =>
        let second := (t.head?).getD r
        if signer = 1 then
          if second.typ ≠ 2 then .error (0x06, second.off)
          else
            match s.deleg second r.payload serial with
            | .error e => .error e
            | .ok o =>
              match (t.drop 1).find? fun x => x.typ == 2 with
              | some x => .error (0x06, x.off)
              | none => .ok (r.payload, some o)
        else
          match t.find? fun x => x.typ == 2 with
          | some x => .error (0x06, x.off)
          | none => .ok (r.payload, none)

/-- The blocks a record TYPE may reach (R36); `none` for a TYPE that is none of the table's. -/
def typeBlocks : Nat → Option (List Nat)
  | 0x00 => some []
  | 0x01 => some []
  | 0x02 => some []
  | 0x03 => some []
  | 0x10 => some [0x02, 0x03]
  | 0x11 => some [0x15]
  | 0x12 => some [0x02, 0x0B, 0x13]
  | 0x13 => some [0x0B]
  | 0x14 => some [0x05]
  | 0x15 => some [0x04, 0x05]
  | 0x16 => some [0x01, 0x0C]
  | 0x17 => some [0x09, 0x0A]
  | 0x18 => some [0x0A]
  | 0x19 => some [0x07, 0x08, 0x0A]
  | 0x1A => some [0x0C]
  | 0x1B => some [0x0C, 0x0F, 0x10, 0x11]
  | 0x1C => some [0x11, 0x12]
  | 0x1D => some [0x06, 0x08, 0x09, 0x15, 0x17]
  | _ => none

/-- The rw-s bits of a register; 0 where it has none (R35). -/
def rwsBits (r : Reg) : Word := match r.spec? with | some sp => sp.maskOf [.rws] | none => 0

/-- The entries of a record (R35): each passes its checks, and names no register that its group has named (R52 step 9). -/
def recEntries (r : ImgRec) (allowed : List Nat) (seen : List ImgEnt) : Nat → List Byte → Except Rej (List ImgEnt)
  | 0, _ => .ok seen
  | n + 1, p =>
    if p = [] then .ok seen
    else
      let e : ImgEnt := ⟨byteAt p 0, byteAt p 1, rdLe p 4 4, BitVec.ofNat 64 (rdLe p 8 8), r.group, r.typ, r.off⟩
      let m := rwsBits ⟨e.block, e.inst, e.off⟩
      if allowed.contains e.block = false ∨ blockCount e.block ≤ e.inst ∨ m = 0 ∨ rdLe p 2 2 ≠ 0 ∨ e.val &&& ~~~ m ≠ 0 then
        .error (0x0B, r.off)
      else if (seen.any fun x => x.group == e.group && x.block == e.block && x.inst == e.inst && x.off == e.off) then .error (0x0C, r.off)
      else recEntries r allowed (seen ++ [e]) n (p.drop 16)

/-- Step 9 of R52: types, owner permissions and entries, in image order. -/
def imgEntries (perm : Option Nat) : List ImgRec → List ImgEnt → Except Rej (List ImgEnt)
  | [], seen => .ok seen
  | r :: t, seen =>
    match typeBlocks r.typ with
    | none => .error (0x09, r.off)
    | some bl =>
      if r.typ < 0x10 then imgEntries perm t seen
      else if (match perm with | some q => !bitOf q (r.typ - 0x10) | none => false) then .error (0x12, r.off)
      else
        match recEntries r bl seen (r.payload.length / 16 + 1) r.payload with
        | .error e => .error e
        | .ok seen => imgEntries perm t seen

/-- Steps 6 to 9 of R52 on an image whose header has passed. -/
def State.imgBody (s : State) (b : List Byte) (len : Nat) : Except Rej Image :=
  let limit := len - 104
  match imgRecords b limit (len / 12 + 1) 0x80 with
  | .error e => .error e
  | .ok l =>
    let signer := rdLe b (limit + 2) 2
    let serial := rdLe b 0x20 8
    if l.length ≠ rdLe b 0x14 4 then .error (0x0A, ((l.getLast?).map (·.off)).getD 0)
    else if rdLe b limit 2 ≠ 0x5347 ∨ 2 ≤ signer ∨ rdLe b (limit + 4) 4 ≠ 96 then .error (0x07, 0)
    else
      match s.imgKeys l signer serial with
      | .error e => .error e
      | .ok (root, own) =>
        let key := match own with | some o => o.1 | none => root
        if sigOk key (b.take (limit + 8)) (b.drop (limit + 8)) = false then .error (0x07, 0)
        else
          match imgEntries (own.map (·.2)) l [] with
          | .error e => .error e
          | .ok es =>
            .ok ⟨rdLe b 0xC 4 % 2 == 1, serial, BitVec.ofNat 768 (fromBe root), own.map fun o => BitVec.ofNat 768 (fromBe o.1), es⟩

/-- Steps 1 to 9 of R52 on the staged image; `len`: the staged length of a LOAD_TILET. -/
def State.imgVerify (s : State) (len : Option Nat) : Except Rej Image :=
  let hdr := s.staged 128
  let n := rdLe hdr 0x10 4
  let tlt := (s.reg TLT_SERIAL).toNat
  if n < 128 ∨ 2 ^ 26 < n ∨ (match len with | some k => decide (k < 128) || k != n | none => false) = true then .error (0x01, 0)
  else if rdLe hdr 0x7C 4 ≠ (crc32c (hdr.take 0x7C)).toNat then .error (0x03, 0)
  else
    match s.imgHeader hdr with
    | some c => .error (c, 0)
    | none =>
      let part := rdLe hdr 0xC 4 == 1
      if rdLe hdr 0x28 8 ≠ (if part then tlt else 0) then .error (0x0D, 0)
      else if part = true ∧ rdLe hdr 0x20 8 ≤ tlt then .error (0x0E, 0)
      else s.imgBody (s.staged n) n

end Sys2Proof.Machine
end

