-- ==== Sys2Proof/Machine/ImageCheck.lean ====
section
/-! DEFINITION. The structural checks of a Tilet image, R52 step 10: R37 and every statement that extends it, in ascending order of their labels; the ranges that only a register's table states come after them (notes/assumptions/31.md). -/

namespace Sys2Proof.Machine

/-- The register values once every group has committed: the committed values overlaid by the image's entries, the highest group last (R37). (DEDUCED, notes/assumptions/77.md.) -/
def State.finalVal (s : State) (es : List ImgEnt) (r : Reg) : Word :=
  let l := es.filter fun e => e.block == r.block && e.inst == r.inst && e.off == r.off
  match l.foldl (fun a e => match a with | some x => if x.group ≤ e.group then some e else some x | none => some e) (none : Option ImgEnt) with
  | some e => e.val
  | none => (s.retainedOf r).getD 0

/-- A check: the registers that take part in its first failing instance; none where it passes. -/
abbrev Chk := Option (List Reg)

/-- A check of one instance. -/
def failIf (b : Bool) (l : List Reg) : Chk := if b then some l else none

/-- The first failing instance among several. -/
def failAny {α : Type} (l : List α) (f : α → Chk) : Chk := l.findSome? f

/-- The pairs of a list, each once. -/
def pairsOf {α : Type} : List α → List (α × α)
  | [] => []
  | a :: t => (t.map fun b => (a, b)) ++ pairsOf t

section
variable (v : Reg → Word)

/-- A field of the final values. -/
def fv (r : Reg) (f : Fld) : Nat := f.get (v r)

/-- The cores that would be active. -/
def fActive : List Nat := (List.range 72).filter fun c => fv v (HWD_ROLE c) HWD_ROLE_ROLE == 0

/-- The partition of a core. -/
def fPart (c : Nat) : Nat := fv v (HWD_PART c) HWD_PART_PART

/-- The partitions with an active core. -/
def fParts : List Nat := (List.range 16).filter fun p => (fActive v).any fun c => fPart v c == p

/-- The register and byte of the grant of a memory address (R280). -/
def fGrant (pa : Nat) : Reg × Nat :=
  let e := pa / 2 ^ 48 % 8 * 32768 + pa / 2 ^ 30 % 2 ^ 15
  (FBK_GRANT (e / 8), (v (FBK_GRANT (e / 8))).toNat / 2 ^ (8 * (e % 8)) % 256)

/-- The 1 GiB regions of a range. -/
def regionsOf (pa len : Nat) : List Nat := (List.range ((pa + len - 1) / 2 ^ 30 + 1 - pa / 2 ^ 30)).map fun i => pa / 2 ^ 30 + i

/-- A range lies in memory granted to a partition; `own`: the module it must belong to (R280, R281). -/
def fGranted (pa len p : Nat) (wr : Bool) (own : Option Nat) : Chk :=
  let rs := regionsOf pa len
  let ok (r : Nat) : Bool :=
    let a := r * 2 ^ 30
    let b := (fGrant v a).2
    decide (a < 2 ^ 51) && a / 2 ^ 45 % 8 == 0 && (match own with | some m => a / 2 ^ 48 % 8 == m | none => true)
      && bitOf b 7 && b % 16 == p && (!wr || bitOf b 6)
  failIf (!rs.all ok) (rs.map fun r => (fGrant v (r * 2 ^ 30)).1)

/-- A granted check that names one register more. -/
def withReg (r : Reg) (c : Chk) : Chk := c.map fun l => r :: l

/-! R37. -/

def chkSpares : Chk :=
  failIf (((List.range 72).filter fun c => fv v (HWD_ROLE c) HWD_ROLE_ROLE == 1 || fv v (HWD_ROLE c) HWD_ROLE_ROLE == 2).length != 8)
    ((List.range 72).map HWD_ROLE)

def chkLcores : Chk :=
  failAny (List.range 64) fun l =>
    let cs := (fActive v).filter fun c => fv v (HWD_ROLE c) HWD_ROLE_LCORE == l
    if cs = [] then some ((List.range 72).map HWD_ROLE) else failIf (cs.length != 1) (cs.map HWD_ROLE)

/-- The enabled interleave sets. -/
def fSets : List Nat := (List.range 16).filter fun i => fv v (HOM_IL i) HOM_IL_EN == 1

def nlinkOk (n : Nat) : Bool := n == 1 || n == 2 || n == 4 || n == 8 || n == 16

def chkNlink : Chk := failAny (fSets v) fun i => failIf (!nlinkOk (fv v (HOM_IL i) HOM_IL_NLINK)) [HOM_IL i]

def chkFreq : Chk :=
  failAny (List.range 4) fun k =>
    let f := fv v (CLK_STAND k) CLK_STAND_FREQ
    failIf (decide (f < 32) || decide (200 < f) || decide (200 < fv v (CLK_STAND k) CLK_STAND_BOOSTF)) [CLK_STAND k]

/-! Values that the active cores of a partition share (R169, R197, R200). -/

/-- Two active cores of one partition differ in a field. -/
def chkShared (r : Nat → Reg) (f : List Fld) : Chk :=
  failAny (fParts v) fun p =>
    let cs := (fActive v).filter fun c => fPart v c == p
    match cs with
    | [] => none
    | c :: t => failIf (t.any fun d => f.any fun x => fv v (r c) x != fv v (r d) x) (cs.map r ++ cs.map HWD_PART)

def chkBgrp : Chk :=
  failAny (pairsOf (fActive v)) fun (c, d) =>
    let b := fv v (HWD_XLAT c) HWD_XLAT_BGRP
    failIf (b != 0 && b == fv v (HWD_XLAT d) HWD_XLAT_BGRP && fPart v c != fPart v d) [HWD_XLAT c, HWD_XLAT d, HWD_PART c, HWD_PART d]

def chkDtmo : Chk :=
  failAny (fActive v) fun c =>
    let d := fv v (CORE_TMO c) CORE_TMO_DTMO
    failIf (decide (d < 10) || decide (100000 < d)) [CORE_TMO c]

/-! Caches (R221, R223, R224). -/

def chkMinways : Chk :=
  (failAny (List.range 72) fun c => failIf (decide (fv v (L2C_WAYTH c) L2C_WAYTH_MINWAYS < 8)) [L2C_WAYTH c]).or
    (failAny (List.range 72) fun k => failIf (decide (fv v (L3C_WAYTH k) L3C_WAYTH_MINWAYS < 4)) [L3C_WAYTH k])

/-- Registers of the 72 instances differ under some fields. -/
def chkSame (r : Nat → Reg) (m : Word) : Chk :=
  failIf ((List.range 72).any fun k => v (r k) &&& m != v (r 0) &&& m) ((List.range 72).map r)

def chkThresh : Chk :=
  let m := L2C_WAYTH_WIN.mask ||| L2C_WAYTH_THRESH.mask
  (chkSame v L2C_WAYTH m).or (chkSame v L3C_WAYTH m)

def chkL3Same : Chk :=
  ((failAny (List.range 16) fun p => chkSame v (fun k => L3C_ALLOC k p) (BitVec.allOnes 64)).or
    (chkSame v L3C_SEED (BitVec.allOnes 64))).or
    (failAny (List.range 16) fun p => chkSame v (fun k => L3C_SEEDP k p) (BitVec.allOnes 64))

/-- The enabled slices of a Glade. -/
def fSlices (g : Nat) : List Nat := (List.range 256).filter fun i => fv v (GLD_SLC_CTL g i) GLD_SLC_CTL_EN == 1

/-- The enabled slices of the module, by Glade. -/
def fAllSlices : List (Nat × Nat) := (List.range 4).flatMap fun g => (fSlices v g).map fun i => (g, i)

/-- The slices of the L3 that contribute to the seed area. -/
def fSeedSlices : Nat := ((List.range 72).filter fun k => fv v (L3C_SEED k) L3C_SEED_EN == 1).length

def fSeedWays : Nat := fv v (L3C_SEED 0) L3C_SEED_NWAYS

def chkNonSeedWay : Chk :=
  let n := if fSeedSlices v = 0 then 0 else fSeedWays v
  let owners := (List.range 16).filter fun p =>
    (fParts v).contains p || (fAllSlices v).any fun x => fv v (GLD_SLC_CTL x.1 x.2) GLD_SLC_CTL_PART == p
  failAny owners fun p => failIf (fv v (L3C_ALLOC 0 p) L3C_ALLOC_WAYS % 2 ^ (16 - n) == 0) [L3C_ALLOC 0 p, L3C_SEED 0]

/-- The carve-outs: partition, offset, length, first byte. -/
def fCarves : List (Nat × Nat × Nat × Nat) :=
  ((List.range 16).map fun p =>
    let r := L3C_SEEDP 0 p
    (p, fv v r L3C_SEEDP_OFF, fv v r L3C_SEEDP_LEN, fv v r L3C_SEEDP_PABASE)).filter fun x => x.2.2.1 != 0

def chkSeedRange : Chk :=
  failAny (fCarves v) fun (p, o, l, _) => failIf (decide (fSeedWays v * fSeedSlices v * 256 < (o + l) * 1024)) [L3C_SEEDP 0 p, L3C_SEED 0]

def chkSeedOverlap : Chk :=
  failAny (pairsOf (fCarves v)) fun ((p, o, l, _), (q, o', l', _)) =>
    failIf (decide (o < o' + l') && decide (o' < o + l)) [L3C_SEEDP 0 p, L3C_SEEDP 0 q]

def chkSeedGrant : Chk :=
  failAny (fCarves v) fun (p, _, l, b) => withReg (L3C_SEEDP 0 p) (fGranted v (b * 2 ^ 20) (l * 2 ^ 20) p false none)

def chkSeedNone : Chk := failIf (fSeedWays v != 0 && fSeedSlices v == 0) [L3C_SEED 0]

/-! The Grove (R250). -/

def chkSelf (self : Nat) : Chk := failIf (!bitOf (fv v GRV_GROUP GRV_GROUP_MEMB) self) [GRV_GROUP]

def chkPeers (self : Nat) : Chk :=
  failAny (List.range 7) fun p =>
    let m := fv v GRV_PMAP (GRV_PMAP_PEER p)
    failIf (fv v GRV_PMAP (GRV_PMAP_EN p) == 1 && (!bitOf (fv v GRV_GROUP GRV_GROUP_MEMB) m || m == self)) [GRV_GROUP, GRV_PMAP]

def chkSevt : Chk :=
  let t := fv v GRV_GROUP GRV_GROUP_SEVT
  failIf (t == 0 || decide (1000 < t)) [GRV_GROUP]

/-! Root links and interleave sets (R268 to R270). -/

/-- The links of an enabled set. -/
def fLinks (i : Nat) : List Nat := (List.range (fv v (HOM_IL i) HOM_IL_NLINK)).map fun w => fv v (HOM_ILMAP i) (HOM_ILMAP_LINK w)

/-- The secondaries of the enabled mirror pairs. -/
def fSecondaries : List Nat := ((List.range 8).filter fun k => bitOf (fv v HOM_MIRROR HOM_MIRROR_PAIR) k).map fun k => 2 * k + 1

/-- The registers that say which links are used. -/
def setRegs : List Reg := HOM_MIRROR :: (fSets v).flatMap fun i => [HOM_IL i, HOM_ILMAP i]

def linkUsed (n : Nat) : Bool := (fSets v).any (fun i => (fLinks v i).contains n) || (fSecondaries v).contains n

def chkLinkEn (want : Nat) : Chk :=
  failAny (List.range 16) fun n =>
    failIf (fv v (RTL_CTL n) RTL_CTL_EN == want && linkUsed v n != (want == 1)) (RTL_CTL n :: setRegs v)

def chkMtmo : Chk :=
  failAny (List.range 16) fun n =>
    let t := fv v (RTL_CTL n) RTL_CTL_MTMO
    failIf (decide (t < 100) || decide (50000 < t)) [RTL_CTL n]

def chkSetRange : Chk :=
  (failAny (pairsOf (fSets v)) fun (i, j) =>
    let b (k : Nat) := fv v (HOM_IL k) HOM_IL_BASE
    let e (k : Nat) := b k + fv v (HOM_IL k) HOM_IL_SIZE
    failIf (decide (b i < e j) && decide (b j < e i)) [HOM_IL i, HOM_IL j]).or
  (failAny (fSets v) fun i =>
    let z := fv v (HOM_IL i) HOM_IL_SIZE
    failIf (z == 0 || decide (32768 < fv v (HOM_IL i) HOM_IL_BASE + z)) [HOM_IL i])

def chkSetSize : Chk :=
  failAny (fSets v) fun i =>
    let z := fv v (HOM_IL i) HOM_IL_SIZE
    let n := fv v (HOM_IL i) HOM_IL_NLINK
    failIf (z % n != 0 || decide (2048 < z / n)) [HOM_IL i]

def chkLinkTwice : Chk :=
  (failAny (fSets v) fun i =>
    failIf (!decide (fLinks v i).Nodup || (fLinks v i).any fun n => (fSecondaries v).contains n) [HOM_IL i, HOM_ILMAP i, HOM_MIRROR]).or
  (failAny (pairsOf (fSets v)) fun (i, j) =>
    failIf ((fLinks v i).any fun n => (fLinks v j).contains n) [HOM_IL i, HOM_ILMAP i, HOM_IL j, HOM_ILMAP j])

def chkLinkBeyond : Chk :=
  failAny (fSets v) fun i => failIf ((v (HOM_ILMAP i)).toNat / 16 ^ fv v (HOM_IL i) HOM_IL_NLINK != 0) [HOM_IL i, HOM_ILMAP i]

def chkGrantInSet (self : Nat) : Chk :=
  failAny (List.range 4096) fun j =>
    failAny (List.range 8) fun e =>
      let r := 8 * j + e
      let inSet := (fSets v).any fun i =>
        decide (fv v (HOM_IL i) HOM_IL_BASE ≤ r) && decide (r < fv v (HOM_IL i) HOM_IL_BASE + fv v (HOM_IL i) HOM_IL_SIZE)
      failIf (fv v (FBK_GRANT (self * 4096 + j)) (FBK_GRANT_V e) == 1 && !inSet)
        (FBK_GRANT (self * 4096 + j) :: (List.range 16).map HOM_IL)

/-! Slices (R292, R323, R324, R391, R418). -/

def chkTracts : Chk :=
  failAny (List.range 4) fun g =>
    let b (i : Nat) := fv v (GLD_SLC_CTL g i) GLD_SLC_CTL_TBASE
    let e (i : Nat) := b i + fv v (GLD_SLC_CTL g i) GLD_SLC_CTL_TCOUNT
    (failAny (pairsOf (fSlices v g)) fun (i, j) =>
      failIf (decide (b i < e j) && decide (b j < e i) && decide (b i < e i) && decide (b j < e j)) [GLD_SLC_CTL g i, GLD_SLC_CTL g j]).or
    (failAny (fSlices v g) fun i => failIf (decide (65536 < e i)) [GLD_SLC_CTL g i])

def chkSliceRes : Chk :=
  failAny (fAllSlices v) fun (g, i) =>
    let r := GLD_SLC_RES g i
    failIf (decide (2046 < fv v r GLD_SLC_RES_TASKS) || decide (16 < fv v r GLD_SLC_RES_NWIN) || decide (4 < fv v r GLD_SLC_RES_COLQ)) [r]

/-- The sum of a resource over the enabled slices of a Glade exceeds a limit. -/
def chkSum (f : Fld) (n : Nat) : Chk :=
  failAny (List.range 4) fun g =>
    failIf (decide (n < (fSlices v g).foldl (fun a i => a + fv v (GLD_SLC_RES g i) f) 0)) ((fSlices v g).map (GLD_SLC_RES g))

/-- A slice's context block: first byte and length (R292). -/
def fCtx (g i : Nat) : Nat × Nat := (fv v (GLD_SLC_CTX g i) GLD_SLC_CTX_CTXPA * 4096, 2048 + 64 * fv v (GLD_SLC_CTL g i) GLD_SLC_CTL_TCOUNT)

def chkCtx (self : Nat) : Chk :=
  failAny (fAllSlices v) fun (g, i) =>
    let c := fCtx v g i
    withReg (GLD_SLC_CTX g i) (withReg (GLD_SLC_CTL g i) (fGranted v c.1 c.2 (fv v (GLD_SLC_CTL g i) GLD_SLC_CTL_PART) true (some self)))

def chkRingSize : Chk :=
  failAny ((List.range 4).flatMap fun g => (List.range 256).map fun i => (g, i)) fun (g, i) =>
    failIf (decide (8 ≤ fv v (LDG_RING g i) LDG_RING_SIZE)) [LDG_RING g i]

/-- A slice's Ledger ring: first byte and length; length 0 with SIZE 0 (R323). -/
def fRing (g i : Nat) : Nat × Nat :=
  let z := fv v (LDG_RING g i) LDG_RING_SIZE
  (fv v (LDG_RING g i) LDG_RING_BASE * 4096, if z = 0 then 0 else 64 * 2 ^ (z + 9))

/-- The enabled slices with a ring. -/
def fRings : List (Nat × Nat) := (fAllSlices v).filter fun (g, i) => (fRing v g i).2 != 0

def chkRingGrant (self : Nat) : Chk :=
  failAny (fRings v) fun (g, i) =>
    let c := fRing v g i
    withReg (LDG_RING g i) (withReg (GLD_SLC_CTL g i) (fGranted v c.1 c.2 (fv v (GLD_SLC_CTL g i) GLD_SLC_CTL_PART) true (some self)))

/-- Two ranges overlap. -/
def rangesMeet (a b : Nat × Nat) : Bool := decide (a.1 < b.1 + b.2) && decide (b.1 < a.1 + a.2)

def chkRingOverlap : Chk :=
  (failAny (pairsOf (fRings v)) fun ((g, i), (h, j)) => failIf (rangesMeet (fRing v g i) (fRing v h j)) [LDG_RING g i, LDG_RING h j]).or
  (failAny (fRings v) fun (g, i) => failAny (fAllSlices v) fun (h, j) =>
    failIf (rangesMeet (fRing v g i) (fCtx v h j)) [LDG_RING g i, GLD_SLC_CTX h j, GLD_SLC_CTL h j])

/-- The enabled slices with a Bark page. -/
def fBarks : List (Nat × Nat) := (fAllSlices v).filter fun (g, i) => fv v (GLD_SLC_RES g i) GLD_SLC_RES_BARK == 1

def chkKeyRange : Chk :=
  failAny (fBarks v) fun (g, i) =>
    failIf (decide (4096 < fv v (BRK_PG_KEY g i) BRK_PG_KEY_KBASE + fv v (BRK_PG_KEY g i) BRK_PG_KEY_KCOUNT)) [BRK_PG_KEY g i, GLD_SLC_RES g i]

def chkKeyOwner : Chk :=
  failAny (fBarks v) fun (g, i) =>
    failAny (List.range (fv v (BRK_PG_KEY g i) BRK_PG_KEY_KCOUNT)) fun k =>
      let n := fv v (BRK_PG_KEY g i) BRK_PG_KEY_KBASE + k
      let r := KST_OWNER (n / 8)
      failIf (fv v r (KST_OWNER_V (n % 8)) != 1 || fv v r (KST_OWNER_PART (n % 8)) != fv v (GLD_SLC_CTL g i) GLD_SLC_CTL_PART)
        [BRK_PG_KEY g i, r, GLD_SLC_CTL g i]

def chkKeyNone : Chk :=
  failAny ((List.range 4).flatMap fun g => (List.range 256).map fun i => (g, i)) fun (g, i) =>
    failIf (fv v (BRK_PG_KEY g i) BRK_PG_KEY_KCOUNT != 0 && !(fBarks v).contains (g, i)) [BRK_PG_KEY g i, GLD_SLC_RES g i, GLD_SLC_CTL g i]

/-! M-bases, mailboxes, limits and device grants (R445, R482, R507, R516). -/

def chkMbase : Chk :=
  failAny (fParts v) fun p => withReg (FBK_MBASE p) (fGranted v (fv v (FBK_MBASE p) FBK_MBASE_MBASE * 4096) 4096 p true none)

/-- The enabled mailboxes. -/
def fMboxes : List Nat := (List.range 16).filter fun p => fv v (FOR_MBOX p) FOR_MBOX_EN == 1

def chkMboxGrant (self : Nat) : Chk :=
  failAny (fMboxes v) fun p => withReg (FOR_MBOX p) (fGranted v (fv v (FOR_MBOX p) FOR_MBOX_BASE * 2 ^ 22) (2 ^ 22) p true (some self))

def chkMboxThread : Chk :=
  failAny (fMboxes v) fun p =>
    match (fActive v).find? fun c => fv v (HWD_ROLE c) HWD_ROLE_LCORE == fv v (FOR_MBOX p) FOR_MBOX_THREAD / 2 with
    | some c => failIf (fPart v c != p) [FOR_MBOX p, HWD_PART c]
    | none => some [FOR_MBOX p]

def chkBoost : Chk :=
  let l := (List.range 4).filter fun k => fv v (CLK_STAND k) CLK_STAND_BOOSTEN == 1
  failIf (decide (2 ≤ l.length)) (l.map CLK_STAND)

def chkLimits : Chk :=
  let tw := fv v PWR_LIMIT PWR_LIMIT_TW
  let tt := fv v THM_LIMIT THM_LIMIT_TTHROT
  let hy := fv v THM_LIMIT THM_LIMIT_HYST
  ((failIf (decide (fv v PWR_LIMIT PWR_LIMIT_PL1 < 100)) [PWR_LIMIT]).or (failIf (tw == 0 || decide (100 < tw)) [PWR_LIMIT])).or
    (failIf (decide (tt < 70) || decide (95 < tt) || hy == 0 || decide (10 < hy)) [THM_LIMIT])

/-- A device target that R516 reserves. -/
def reservedTarget (t : Nat) : Bool :=
  (decide (86 ≤ t) && decide (t ≤ 95)) || (decide (119 ≤ t) && decide (t ≤ 127)) || decide (192 ≤ t)
    || (decide (128 ≤ t) && decide (t < 160) && decide (6 ≤ t % 8))

def chkDgrant : Chk :=
  failAny ((List.range 16).flatMap fun p => (List.range 4).map fun i => (p, i)) fun (p, i) =>
    failIf ((List.range 64).any fun b => bitOf (v (FBK_DGRANT p i)).toNat b && reservedTarget (64 * i + b)) [FBK_DGRANT p i]

/-! Ranges that a register's table states. -/

def chkTables : Chk :=
  let app := fv v CPC_CTL CPC_CTL_APPWAIT
  [failIf (decide (8 < fSeedWays v)) [L3C_SEED 0],
   (failAny ((List.range 4).flatMap fun g => (List.range 4).map fun p => (g, p)) fun (g, p) =>
     let sp := fv v (GLD_PORT g p) GLD_PORT_MAXSPD
     failIf (sp == 0 || decide (7 ≤ sp) || (fv v (GLD_PORT g p) GLD_PORT_EN1 == 1 && fv v (GLD_PORT g p) GLD_PORT_BIF == 0)) [GLD_PORT g p]),
   (failAny (List.range 4) fun g =>
     let t := fv v (GLD_TMO g) GLD_TMO_OPTMO
     failIf (t == 0 || decide (60000 < t)) [GLD_TMO g]),
   failIf (decide (app < 20) || decide (170 < app)) [CPC_CTL]].findSome? id

end

/-- The first failing condition of R52 step 10: the registers that take part in it. `self`: this module's number. -/
def structural (v : Reg → Word) (self : Nat) (es : List ImgEnt) : Chk :=
  ([chkSpares v, chkLcores v, chkNlink v, chkFreq v, chkShared v HWD_XLAT [HWD_XLAT_ADHW, HWD_XLAT_BGRP], chkBgrp v, chkDtmo v,
    chkShared v CORE_TMO [CORE_TMO_DTMO], chkShared v HWD_ATOM [HWD_ATOM_ATOM16], chkMinways v, chkThresh v, chkL3Same v] : List Chk).findSome? id |>.or <|
  ([chkNonSeedWay v, chkSeedRange v, chkSeedOverlap v, chkSeedGrant v, chkSeedNone v, chkSelf v self, chkPeers v self, chkSevt v,
    chkLinkEn v 1, chkLinkEn v 0, chkMtmo v] : List Chk).findSome? id |>.or <|
  ([chkSetRange v, chkSetSize v, chkLinkTwice v, chkLinkBeyond v, chkGrantInSet v self, chkTracts v, chkSliceRes v, chkSum v GLD_SLC_RES_TASKS 2046,
    chkCtx v self, chkRingSize v, chkRingGrant v self, chkRingOverlap v] : List Chk).findSome? id |>.or <|
  ([chkSum v GLD_SLC_RES_COLQ 64, chkKeyRange v, chkKeyOwner v, chkKeyNone v,
    (failAny es fun e => failIf (e.block == 0x02 && e.off == 0x008 && decide (2 ≤ HWD_ROLE_ROLE.get e.val)) [⟨e.block, e.inst, e.off⟩]),
    chkMbase v, chkMboxGrant v self, chkMboxThread v, chkBoost v, chkLimits v, chkDgrant v, chkTables v] : List Chk).findSome? id

/-- Verify the staged image (R52): the first failure, or the image (R521 for the offset of a structural failure). -/
def State.verifyImage (s : State) (len : Option Nat) : Except Rej Image :=
  match s.imgVerify len with
  | .error e => .error e
  | .ok i =>
    match structural (s.finalVal i.ents) s.self i.ents with
    | none => .ok i
    | some l =>
      let hit := (i.ents.filter fun e => l.contains ⟨e.block, e.inst, e.off⟩).map (·.roff)
      .error (0x0C, hit.foldl min (hit.headD 0))

end Sys2Proof.Machine
end

