-- ==== Sys2Proof/Machine/Unmet.lean ====
section
/-! DEFINITION. The commit preconditions: what refuses a commit with code 0x11 (R48, R225, R263, R272, R317, R324, R391, R419, R446). -/

namespace Sys2Proof.Machine

/-- The active value a register has after a commit of the members `ms`. -/
def State.nv (s : State) (ms : List (Nat × Nat)) (r : Reg) : Word :=
  if ms.contains (r.block, r.inst) then s.reg r &&& r.rwsMask else s.act r

/-- A register whose active value the commit of `ms` changes. -/
def State.chg (s : State) (ms : List (Nat × Nat)) (r : Reg) : Bool := s.nv ms r != s.act r

/-- The first of some registers whose condition is broken. -/
def firstBad (l : List (Bool × Reg)) : Option Reg := (l.find? fun e => e.1).map (·.2)

section
variable (s : State) (ms : List (Nat × Nat))

/-- A field after the commit. -/
def nf (r : Reg) (f : Fld) : Nat := f.get (s.nv ms r)

/-- A 1 GiB region of this module's table is granted in a table of values. -/
def granted (v : Reg → Word) (e : Nat) : Bool := (FBK_GRANT_V (e % 8)).get (v (FBK_GRANT (e / 8))) == 1

/-- The regions of an enabled interleave set (R270). -/
def setRegions (w : Word) (self : Nat) : List Nat :=
  if HOM_IL_EN.get w = 1 then (List.range (HOM_IL_SIZE.get w)).map fun i => self * 32768 + HOM_IL_BASE.get w + i else []

/-- R48: a changed interleave set contains a region granted now, or once every group of the image has committed (`fin`). -/
def unmetIl (fin : Reg → Word) : Option Reg :=
  firstBad ((List.range 16).flatMap fun i =>
    let hot : Bool := ((setRegions (s.act (HOM_IL i)) s.self) ++ (setRegions (s.nv ms (HOM_IL i)) s.self)).any fun e =>
      granted s.act e || granted fin e
    [(s.chg ms (HOM_IL i) && hot, HOM_IL i), (s.chg ms (HOM_ILMAP i) && hot, HOM_ILMAP i)])

/-- R446: a failed core's ROLE. -/
def unmetRole : Option Reg :=
  firstBad ((List.range 72).map fun c => (s.role c == 2 && nf s ms (HWD_ROLE c) HWD_ROLE_ROLE != 2, HWD_ROLE c))

/-- The lines of every unreleased carve-out (R224). -/
def State.carveLines (s : State) : List Nat :=
  if s.actF (L3C_SEED 0) L3C_SEED_NWAYS = 0 then []
  else
    (List.range 16).flatMap fun p =>
      let r := L3C_SEEDP 0 p
      (List.range (s.actF r L3C_SEEDP_LEN * 4096)).map fun i => s.actF r L3C_SEEDP_PABASE * 4096 + i

/-- A write of a line finds a link that accepts it (R225). -/
def State.acceptsLine (s : State) (l : Nat) : Bool :=
  match s.placeLine l with
  | some (lk, _) => (s.writeLinks lk).any s.takesWrites
  | none => false

/-- The commit releases the seed ways (R225). -/
def releases : Bool :=
  s.actF (L3C_SEED 0) L3C_SEED_NWAYS != 0 && nf s ms (L3C_SEED 0) L3C_SEED_NWAYS == 0

/-- R225: a Root link that serves a carve-out cannot accept the writes of its release. -/
def unmetSeed : Option Reg := firstBad [(releases s ms && !s.carveLines.all s.acceptsLine, L3C_SEED 0)]

/-- R272: a pair that is disabled while its primary holds no complete copy. -/
def unmetPair : Option Reg :=
  firstBad [((List.range 8).any fun k =>
    s.pairEn k && !bitOf (nf s ms HOM_MIRROR HOM_MIRROR_PAIR) k && (s.pairState k == 3 || s.pairState k == 5), HOM_MIRROR)]

/-- The members that the commit removes from the group. -/
def removedMembers : List Nat :=
  (List.range 8).filter fun m => s.member m && !bitOf (nf s ms GRV_GROUP GRV_GROUP_MEMB) m && m != s.self

/-- R263: a grant names memory of a member that is removed. -/
def unmetMember : Option Reg :=
  firstBad [((removedMembers s ms).any fun m => (List.range 32768).any fun o => granted (s.nv ms) (m * 32768 + o), GRV_GROUP)]

/-! Slices and ports (R317, R324, R391, R419). -/

variable (g : Nat)

/-- The open or closing tracts of a slice, by index. -/
def State.tractsOf (s : State) (g sl : Nat) : List (Nat × Tract) :=
  (s.slice g sl).tracts.filterMap fun e => e.2.map fun t => (e.1, t)

/-- The tracts of a slice keep their numbers in the range after the commit. -/
def tractsKept (sl : Nat) : Bool :=
  let r := GLD_SLC_CTL g sl
  let b := nf s ms r GLD_SLC_CTL_TBASE
  let n := nf s ms r GLD_SLC_CTL_TCOUNT
  (s.tractsOf g sl).all fun e => decide (b ≤ s.tbase g sl + e.1) && decide (s.tbase g sl + e.1 < b + n)

/-- The broken preconditions of one slice. -/
def unmetSlice (sl : Nat) : List (Bool × Reg) :=
  let c := GLD_SLC_CTL g sl
  let r := GLD_SLC_RES g sl
  let gone := s.actF c GLD_SLC_CTL_EN == 1
    && (nf s ms c GLD_SLC_CTL_EN == 0 || nf s ms c GLD_SLC_CTL_PART != s.slicePart g sl)
  let nw := nf s ms r GLD_SLC_RES_NWIN
  let nq := nf s ms r GLD_SLC_RES_NCQ
  let nc := nf s ms r GLD_SLC_RES_COLQ
  [(gone && s.bound g sl, c),
   (s.chg ms c && !tractsKept s ms g sl, c),
   (s.chg ms r && (List.range 16).any (fun w => decide (nw ≤ w) && ((s.slice g sl).win w).isSome), r),
   (s.chg ms r && (s.tractsOf g sl).any (fun e => decide (nq ≤ e.2.cq)), r),
   (s.chg ms r && (s.glade g).cols.any (fun j => j.slice == sl && decide (nc ≤ j.queue)), r),
   (s.actF r GLD_SLC_RES_BARK == 1 && nf s ms r GLD_SLC_RES_BARK == 0 && (s.glade g).barks.any (fun j => j.slice == sl), r),
   (s.chg ms (GLD_SLC_CTX g sl) && s.bound g sl, GLD_SLC_CTX g sl)]

/-- A half that a change of its port disables or retrains (R317). -/
def halfChanges (p h : Nat) : Bool :=
  let r := GLD_PORT g p
  let en := if h = 0 then GLD_PORT_EN0 else GLD_PORT_EN1
  s.actF r en != nf s ms r en || s.actF r GLD_PORT_BIF != nf s ms r GLD_PORT_BIF
    || s.actF r GLD_PORT_MAXSPD != nf s ms r GLD_PORT_MAXSPD

/-- The open tracts of a Glade, each with its slice. -/
def State.openTracts (s : State) (g : Nat) : List (Nat × Tract) :=
  (s.glade g).slices.flatMap fun e => (s.tractsOf g e.1).map fun t => (e.1, t.2)

/-- The broken preconditions of one port. -/
def unmetPort (p : Nat) : List (Bool × Reg) :=
  let r := GLD_PORT g p
  let m := nf s ms r GLD_PORT_PMASK
  [(s.chg ms r && (s.openTracts g).any (fun t => t.2.port / 2 == p &&
      (halfChanges s ms g p (t.2.port % 2) || (s.actF r GLD_PORT_PMASK != m && !bitOf m (s.slicePart g t.1)))), r)]

/-- The slices of a Glade that hold state or are bound. -/
def unmetGlade : Option Reg :=
  firstBad ((List.range 256).flatMap (unmetSlice s ms g) ++ (List.range 4).flatMap (unmetPort s ms g))

/-- R324: the ring of a bound slice changes. -/
def unmetRing : Option Reg :=
  firstBad ((List.range 256).map fun sl => (s.chg ms (LDG_RING g sl) && s.bound g sl, LDG_RING g sl))

/-- The regions of a bound slice's Ledger ring. -/
def State.ringRegions (s : State) (g sl : Nat) : List Nat :=
  if s.ledgerN g sl = 0 then []
  else regionsOf (s.actF (LDG_RING g sl) LDG_RING_BASE * 4096) (s.ledgerN g sl * 64)

/-- R324: a grant that is removed, or loses WR, holds the ring of a bound slice. -/
def unmetGrant : Option Reg :=
  firstBad ((List.range 4).flatMap fun g => ((List.range 256).filter fun sl => s.bound g sl).flatMap fun sl =>
    (s.ringRegions g sl).map fun r =>
      let e := r / 2 ^ 18 % 8 * 32768 + r % 2 ^ 15
      let f := FBK_GRANT (e / 8)
      (s.chg ms f && (nf s ms f (FBK_GRANT_V (e % 8)) == 0 || nf s ms f (FBK_GRANT_WR (e % 8)) == 0
        || nf s ms f (FBK_GRANT_PART (e % 8)) != s.slicePart g sl), f))

/-- A condition that concerns one block. -/
def onBlock (b : Nat) (c : Option Reg) : Option Reg := if ms.any fun m => m.1 == b then c else none

/-- What refuses the commit of `ms`, beside R48. -/
def State.unmet : Option Reg :=
  ([onBlock ms 0x02 (unmetRole s ms), onBlock ms 0x05 (unmetSeed s ms), onBlock ms 0x08 (unmetMember s ms),
    onBlock ms 0x0A (unmetPair s ms), onBlock ms 0x0B (unmetGrant s ms)]
    ++ (List.range 4).map (fun g => if ms.contains (0x0C, g) then unmetGlade s ms g else none)
    ++ (List.range 4).map (fun g => if ms.contains (0x0F, g) then unmetRing s ms g else none)).findSome? fun x => x

end
end Sys2Proof.Machine
end

