-- ==== Sys2Proof/Machine/Clearing.lean ====
section
/-! DEFINITION. What a commit does in each block whose active values it changes (R41, R47 to R49, R225, R251, R263, R272, R285, R317, R324, R419, R482). -/

namespace Sys2Proof.Machine

/-! Cores (R49, R446, R450, R457). -/

/-- The physical core that runs logical core `l` after the commit of `ms`. -/
def State.nextCore (s : State) (ms : List (Nat × Nat)) (l : Nat) : Option Nat :=
  (List.range 72).find? fun c => nf s ms (HWD_ROLE c) HWD_ROLE_ROLE == 0 && nf s ms (HWD_ROLE c) HWD_ROLE_LCORE == l

/-- The physical core that runs logical core `l` now, if any. -/
def State.coreNow (s : State) (l : Nat) : Option Nat :=
  (List.range 72).find? fun c => s.coreActive c && s.lcore c == l

/-- Logical core `l` changes partition with the commit (R49). -/
def State.partMoves (s : State) (ms : List (Nat × Nat)) (l : Nat) : Bool :=
  match s.coreNow l, s.nextCore ms l with
  | some a, some b => s.corePart a != nf s ms (HWD_PART b) HWD_PART_PART
  | _, _ => false

/-- The commit gives physical core `c` another role or logical core. -/
def State.roleMoves (s : State) (ms : List (Nat × Nat)) (c : Nat) : Bool :=
  let r := nf s ms (HWD_ROLE c) HWD_ROLE_ROLE
  s.role c != r || (r == 0 && s.lcore c != nf s ms (HWD_ROLE c) HWD_ROLE_LCORE)

/-- The commit stops or moves the threads of physical core `c`. -/
def State.coreMoves (s : State) (ms : List (Nat × Nat)) (c : Nat) : Bool :=
  s.roleMoves ms c || (s.role c == 0 && s.partMoves ms (s.lcore c))

/-- The threads of an active core have finished the work that a move of them waits for (R41 step 2). -/
def State.threadsQuiet (s : State) (c : Nat) : Bool :=
  (s.coreThreads c).all fun t =>
    let x := s.thr t
    x.sb == [] && x.trk == [] && !s.cmoOut t && (x.run != .running || x.devLoad == [])

/-- A core as a fresh one, its physical wear kept. -/
def Core.renew (x : Core) (held : Bool) : Core :=
  { Core.reset with held := held, l1iCnt := x.l1iCnt, l1dCnt := x.l1dCnt, disabling := x.disabling }

/-- Before the actives change: the moving cores give up their lines and their part in broadcasts; threads that change partition stop and their state is discarded (R49). -/
def State.coresLeave (s : State) (ms : List (Nat × Nat)) : State :=
  let cs := (List.range 72).filter fun c => s.role c == 0 && s.coreMoves ms c
  let s' := cs.foldl (fun s c => (s.drainCore c []).skipCore c) s
  let ls := (List.range 64).filter fun l => s.partMoves ms l
    && (match s.coreNow l with | some c => !(s.core c).held | none => false)
  ls.foldl (fun s l => [2 * l, 2 * l + 1].foldl (fun s t => (s.stopThread t .held).setThr t Thread.reset) s) s'

/-- The health state of a core follows its new role (R456, R457). -/
def State.roleHealth (s : State) (c : Nat) : State :=
  let r := CPC_HEALTH c
  if s.role c = 1 then (s.setF r CPC_HEALTH_STATE 1).setF r CPC_HEALTH_STALE (b2n (s.testPaused c))
  else (s.setF r CPC_HEALTH_STATE 0).setF r CPC_HEALTH_STALE 0

/-- After the actives have changed: moved cores start empty, and a core that takes over a logical core is held or runs as the one before it was. -/
def State.coresJoin (old : State) (ms : List (Nat × Nat)) (s : State) : State :=
  let s := ((List.range 72).filter fun c => old.coreMoves ms c).foldl (fun s c =>
    let held := if s.role c = 0 then (match old.coreNow (s.lcore c) with | some a => (old.core a).held | none => true) else true
    s.modCore c fun x => x.renew held) s
  ((List.range 72).filter fun c => old.role c != s.role c).foldl State.roleHealth s

/-- Threads that a partition change stopped start again (R49). -/
def State.restartThreads (s : State) : State :=
  ((List.range 128).filter fun t => (s.thr t).run == .held
    && (match s.coreNow (t / 2) with | some c => !(s.core c).held && s.domainUp 0x02 c | none => false)).foldl
    (fun s t => s.startThread t 1) s

/-! Memory (R225, R272, R285). -/

/-- The value of a seed line: the module's modified copy, or the line's own store (R225). -/
def State.seedLine (s : State) (l j : Nat) : LineData × Bool :=
  if (s.line l).st = LineSt.m then ((s.line l).data, (s.line l).poison)
  else (s.memLine seedLink (j * 256), s.memPois seedLink (j * 256))

/-- The release writes every carve-out line to memory and sets RELEASED (R225). -/
def State.releaseSeed (old s : State) : State :=
  let s := old.carveLines.foldl (fun s l =>
    match old.seedIdx (l * 256) with
    | some j => s.memWrite l (old.seedLine l j).1 (old.seedLine l j).2
    | none => s) s
  ((List.range 72).filter fun k => old.actF (L3C_SEED k) L3C_SEED_NWAYS != 0).foldl
    (fun s k => s.setF (L3C_SEED k) L3C_SEED_RELEASED 1) s

/-- A change of HOM_MIRROR: a pair enabled live copies to its secondary; a disabled pair shows state 0 (R272). -/
def State.mirrorChange (old s : State) : State :=
  (List.range 8).foldl (fun s k =>
    if old.pairEn k = s.pairEn k then s
    else if s.pairEn k then
      let n := 2 * k + 1
      let s := s.setPair k 4
      if s.inService n then
        let st := s.rtlState n
        (s.setRtl n 6).modRoot n fun x => { x with back := st }
      else s
    else s.setPair k 0) s

/-- The regions of the grant table that a change takes from their partition, or makes read-only, with that partition (R285). -/
def lostGrants (old s : State) (r : Reg) : List (Nat × Nat) :=
  (List.range 8).filterMap fun i =>
    let p := old.actF r (FBK_GRANT_PART i)
    let had := old.actF r (FBK_GRANT_V i) == 1
    let keeps := s.actF r (FBK_GRANT_V i) == 1 && s.actF r (FBK_GRANT_PART i) == p
      && (s.actF r (FBK_GRANT_WR i) == 1 || old.actF r (FBK_GRANT_WR i) == 0)
    if had && !keeps then some (8 * ((r.off - 0x40000) / 8) + i, p) else none

/-- A line lies in a region of the grant table. -/
def lineIn (l e : Nat) : Bool := l / 2 ^ 40 % 8 == e / 32768 && l / 2 ^ 22 % 2 ^ 18 == e % 32768

/-- The cores of a partition give up their lines of a region (R285). -/
def State.flushRegion (s : State) (e p : Nat) : State :=
  let ls := (s.lines.filter fun x => x.2.pres != 0 && lineIn x.1 e).map (·.1)
  ls.foldl (fun s l => s.dropCores l fun c => s.corePart c != p) s

/-! Root links and the Grove (R251, R255, R256, R263, R265). -/

/-- A link enabled live trains; a link disabled leaves service, its reset output asserted. -/
def State.linkChange (old s : State) (n : Nat) : State :=
  let a := old.actF (RTL_CTL n) RTL_CTL_EN
  let b := s.actF (RTL_CTL n) RTL_CTL_EN
  if a = b then s
  else if b = 1 then s.trainLink n (if n % 2 = 1 ∧ s.pairEn (n / 2) = true then 7 else 0)
  else
    let s := (((s.setRtl n 0).setF (RTL_STAT n) RTL_STAT_FAIL 0).pairLoses n).dropRequests n none
    (s.modRoot n fun _ => RootLink.reset).settleWrites

/-- A port trains from the start: by RESET_DOMAIN, or named by a commit. The retry buffer and the sequence counters stay (R259). -/
def State.trainPort (s : State) (p : Nat) : State :=
  ((((s.setF (GRV_STAT p) GRV_STAT_STATE 1).setF (GRV_STAT p) GRV_STAT_WIDTH 0).setF (GRV_STAT p) GRV_STAT_GRP 0).modGp p fun x =>
    { x with qrFail := 0, replays := 0 }).refreshRoutes

/-- One port at a GROVE commit that names it: a port that is new, down, lost or led elsewhere trains; a narrow one retrains over every lane; a disabled one carries nothing. -/
def State.portChange (old s : State) (p : Nat) : State :=
  if s.gpEn p = false then
    if old.gpEn p = false ∧ s.gpState p = 5 then s
    else (((s.setF (GRV_STAT p) GRV_STAT_STATE 5).setF (GRV_STAT p) GRV_STAT_WIDTH 0).setF (GRV_STAT p) GRV_STAT_GRP 0).setGp p GPort.reset
  else if old.gpEn p = false ∨ old.gpPeer p ≠ s.gpPeer p then (s.setGp p GPort.reset).trainPort p
  else if s.gpState p = 0 ∨ s.gpState p = 4 ∨ s.gpState p = 5 then s.trainPort p
  else if s.gpState p = 2 ∧ s.getF (GRV_STAT p) GRV_STAT_WIDTH < 3 then
    (s.setF (GRV_STAT p) GRV_STAT_LANEOK 0xFFFF).quickRetrain p
  else s

/-- A GROVE commit: the ports, the buckets and the routes (R249, R251). -/
def State.groveChange (old s : State) (train : Bool) : State :=
  let s := if train then (List.range 7).foldl (fun s p => s.portChange (old := old) p) s else s
  ((List.range 8).foldl State.assignBuckets s).refreshRoutes

/-- PREPARE of a GROVE commit that removes members: their Canopy entries are recalled and their lines written back (R263). -/
def State.recall (s : State) (m : Nat) : State :=
  let own := s.canopy.filter fun e => (e.2.st == .sh || e.2.st == .ex) && bitOf e.2.pres m
  let s := own.foldl (fun s e => s.homeAccept OPC_CMF (canLine s.self (e.1 / 16) e.2.tag) s.self s.newTid 0 none) s
  ((s.lines.filter fun e => lineHome e.1 == m && e.2.held).map (·.1)).foldl State.evictL3 s

/-- Nothing is left between this module and one that is removed (R263). -/
def State.recalled (s : State) (m : Nat) : Bool :=
  !(s.canopy.any fun e => e.2.st != .inv && bitOf e.2.pres m) && !(s.lines.any fun e => lineHome e.1 == m)
    && !(s.out.any fun o => o.dst == m)

/-! Glades (R317, R324, R419). -/

/-- The port of a Glade whose halves change is reset and retrained (R317). -/
def State.gladePortChange (old s : State) (ms : List (Nat × Nat)) (g p : Nat) : State :=
  let hs := (List.range 2).filter fun h => halfChanges old ms g p h
  if s.gldState g ≠ 4 then s
  else
    let s := hs.foldl (fun s h => if s.halfUp g (2 * p + h) then s.failHalf (8 * g + 2 * p + h) else s) s
    s.releasePorts g (hs.map fun h => 2 * p + h)

/-- A tract range that moves keeps its tracts' numbers; rings and windows beyond the new counts are gone (R317). -/
def State.sliceChange (old s : State) (g sl : Nat) : State :=
  let d : Int := (old.tbase g sl : Int) - (s.tbase g sl : Int)
  let nq := s.actF (GLD_SLC_RES g sl) GLD_SLC_RES_NCQ
  let nw := s.actF (GLD_SLC_RES g sl) GLD_SLC_RES_NWIN
  let mv (i : Nat) : Nat := ((i : Int) + d).toNat
  let s := s.modSlice g sl fun x => { x with
    tracts := (x.tracts.foldl (fun t e => Tab.set (fun _ => none) t (mv e.1) e.2) [])
    rings := x.rings.filter fun e => decide (e.1 < nq)
    wins := x.wins.filter fun e => decide (e.1 < nw) }
  s.modGlade g fun x => { x with ops := x.ops.map fun (o : GOp) => if o.slice = sl then { o with tract := mv o.tract } else o }

/-- A slot leaves a page's range, or changes owner (R419). -/
def slotLost (old s : State) (g sl k : Nat) : Bool :=
  let r := BRK_PG_KEY g sl
  let inR (x : State) : Bool := decide (x.actF r BRK_PG_KEY_KBASE ≤ k)
    && decide (k < x.actF r BRK_PG_KEY_KBASE + x.actF r BRK_PG_KEY_KCOUNT)
  (inR old && !inR s) || old.slotOwner k != s.slotOwner k

/-! Mailboxes (R482). -/

/-- A mailbox that the commit enables, disables or moves starts again; each unanswered request is logged (R482). -/
def State.mboxChange (old s : State) (p : Nat) : State :=
  let r := FOR_MBOX p
  if old.actF r FOR_MBOX_EN = s.actF r FOR_MBOX_EN ∧ old.actF r FOR_MBOX_BASE = s.actF r FOR_MBOX_BASE then s
  else
    let m := s.mbox p
    let s := (ringSlots m.reqHead m.reqTail).foldl (fun s _ => s.logC 0x13 0 0x0A (leBytes 4 (0x200 + 8 * p))) s
    let q := (s.queue 7).filter fun e => e.work != ⟨4, BitVec.ofNat 64 p⟩
    (s.setQueue 7 q).modMbox p fun _ => Mbox.down

/-! The commit. -/

/-- The registers of a member that a commit changes. -/
def State.changes (s : State) (ms : List (Nat × Nat)) : List Reg := ms.flatMap fun m => s.differing m.1 m.2

/-- The member's shadow values become active and enter the retained image (R38, R40). -/
def State.activate (s : State) (ch : List Reg) : State :=
  ch.foldl (fun s r => let v := s.reg r &&& r.rwsMask; (s.setAct r v).retain r v) s

/-- What the changed registers `ch` of the members `ms` do; `named`: the commit names the ports of the Grove. -/
def State.effects (old : State) (ms : List (Nat × Nat)) (ch : List Reg) (named : Bool) (s : State) : State :=
  let on (b : Nat) : List Reg := ch.filter fun r => r.block == b
  let s := if on 0x02 = [] then s else State.coresJoin old ms s
  let s := if releases old ms then State.releaseSeed old s else s
  let s := if (on 0x0A).contains HOM_MIRROR then State.mirrorChange old s else s
  let s := (on 0x09).foldl (fun s r => State.linkChange old s r.inst) s
  let s := if named || on 0x08 != [] then State.groveChange old s true else s
  let s := ((on 0x0B).filter fun r => decide (0x40000 ≤ r.off)).foldl (fun s r =>
    (lostGrants old s r).foldl (fun s e => s.flushRegion e.1 e.2) s) s
  let s := ((on 0x0C).filter fun r => decide (0x40 ≤ r.off) && decide (r.off < 0x60)).foldl
    (fun s r => State.gladePortChange old s ms r.inst ((r.off - 0x40) / 8)) s
  let s := (((on 0x0C).filter fun r => decide (0x10000 ≤ r.off) && decide (r.off < 0x12000)).map
    fun r => (r.inst, (r.off - 0x10000) / 32)).eraseDups.foldl (fun s e => State.sliceChange old s e.1 e.2) s
  let s := ((on 0x0F).filter fun r => decide (0x10000 ≤ r.off)).foldl
    (fun s r => s.setReg (LDG_SEQ r.inst ((r.off - 0x10000) / 32)) 1) s
  let s := if on 0x11 = [] ∧ on 0x12 = [] then s else s.revoke (slotLost old s)
  let s := ((on 0x13).filter fun r => decide (0x200 ≤ r.off) && decide (r.off < 0x280)).foldl
    (fun s r => State.mboxChange old s ((r.off - 0x200) / 8)) s
  if on 0x15 = [] then s else s.retarget ch

/-- The members' new values act (R41 step 4). -/
def State.commitMembers (s : State) (ms : List (Nat × Nat)) (named : Bool) : State :=
  let ch := s.changes ms
  let s1 := if ms.any fun m => m.1 == 0x02 then s.coresLeave ms else s
  State.effects s ms ch named (s1.activate ch)

/-- A member's shadow values return to its active ones (R42). -/
def State.revert (s : State) (ms : List (Nat × Nat)) : State :=
  (s.changes ms).foldl (fun s r => s.setReg r ((s.reg r &&& ~~~ r.rwsMask) ||| (s.act r &&& r.rwsMask))) s

/-- Writes held while the members' commit was in progress reach the shadow (R10). -/
def State.releaseHeld (s : State) (ms : List (Nat × Nat)) : State :=
  let mine (e : Nat × Word × Word) : Bool := ms.contains ((Reg.ofKey e.1).block, (Reg.ofKey e.1).inst)
  let s' := (s.heldW.filter mine).foldl (fun s e =>
    let r := Reg.ofKey e.1
    s.setReg r ((s.reg r &&& ~~~ e.2.1) ||| (e.2.2 &&& e.2.1))) s
  { s' with heldW := s.heldW.filter fun e => !mine e }

/-- A member has finished the work its changed fields govern (R41 step 2, R42, R49, R251, R263). -/
def State.memberReady (s : State) (ms : List (Nat × Nat)) (b i : Nat) : Bool :=
  if coreBlock b && s.inTakeover i then false
  else if b = 0x02 then s.role i != 0 || !s.coreMoves ms i || s.threadsQuiet i
  else if b = 0x08 then
    (removedMembers s ms).all s.recalled
      && (s.chg ms GRV_PMAP == false || (List.range 7).all fun p => (s.gp p).buf == [] && (s.gp p).waitQ == [] || !s.gpUp p)
  else true

end Sys2Proof.Machine
end

