-- ==== Sys2Proof/Machine/Loader.lean ====
section
/-! DEFINITION. The loader's sequence: verification, the clearings of commit groups and of single block instances, COMMIT, ABORT and the end of a load (R41 to R52, R63, R521). -/

namespace Sys2Proof.Machine

/-! The ends of loads and of clearings. -/

/-- A load or a block clearing ends with a code (R46, R521). -/
def State.tltEnd (s : State) (code off : Nat) : State :=
  ((s.setF TLT_STAT TLT_STAT_REJ code).setF TLT_STAT TLT_STAT_DONE 1).setF TLT_ERROFF TLT_ERROFF_OFFSET off

/-- The result of the service command in progress is known (R59). -/
def State.svcResult (s : State) (code data : Nat) : State :=
  match s.svc with
  | some c => if c.code.isNone then { s with svc := some { c with code := some code, data := data } } else s
  | none => s

/-- A load ends, and with it the LOAD_TILET it serves (R45, R58, R59). -/
def State.loadEnds (s : State) (j : LoadJob) (code off : Nat) : State :=
  let s : State := { (s.workDone 5 5 0).tltEnd code off with ldr := none }
  if j.svc then s.svcResult (if code = 0 then 0 else 0x0B) code else s

/-- The last group has committed (R45, R61). -/
def State.loadDone (s : State) (j : LoadJob) : State :=
  let s := s.setReg TLT_SERIAL (BitVec.ofNat 64 j.serial)
  let s : State := { s with
    rootKey := some j.root
    ownerKey := (match j.owner with | some k => some k | none => s.ownerKey) }
  s.loadEnds j 0 0

/-! One commit group (R41 to R44). -/

/-- The register an entry writes. -/
def ImgEnt.reg (e : ImgEnt) : Reg := ⟨e.block, e.inst, e.off⟩

/-- The entries of a commit group. -/
def LoadJob.entsOf (j : LoadJob) (g : Nat) : List ImgEnt := j.ents.filter fun e => e.group == g

/-- The members of a commit group (R41). -/
def membersOf (es : List ImgEnt) : List (Nat × Nat) := (es.map fun e => (e.block, e.inst)).eraseDups

/-- The commit groups of some entries, ascending (R41). -/
def groupsOf (es : List ImgEnt) : List Nat := (List.range 4096).filter fun g => es.any fun e => e.group == g

/-- The first record in image order among some entries' records (R521). -/
def firstRec (es : List ImgEnt) : Nat := (es.map (·.roff)).foldl min ((es.head?.map (·.roff)).getD 0)

/-- The record of the entry that writes a register; where none does, the group's first record (R521). -/
def recOfReg (es : List ImgEnt) (r : Reg) : Nat :=
  match es.find? fun e => e.reg == r with
  | some e => e.roff
  | none => firstRec es

/-- The group is aborted and the load with it (R42). -/
def State.abortGroup (s : State) (j : LoadJob) (code off : Nat) : State := (s.revert j.live).loadEnds j code off

/-- The entries of some members reach their shadow registers (R41). -/
def State.shadowWrite (s : State) (es : List ImgEnt) (ms : List (Nat × Nat)) : State :=
  (es.filter fun e => ms.contains (e.block, e.inst)).foldl (fun s e =>
    let m := e.reg.rwsMask
    s.setReg e.reg ((s.reg e.reg &&& ~~~ m) ||| (e.val &&& m))) s

/-- R446 for an entry of the image: the ROLE of a failed core. -/
def roleEntry (s : State) (es : List ImgEnt) : Option Reg :=
  (es.find? fun e => e.reg == HWD_ROLE e.inst && s.role e.inst == 2 && HWD_ROLE_ROLE.get e.val != 2).map ImgEnt.reg

/-- COMMIT of a group, or its abort (R41 steps 3 and 4, R42, R43). (DEDUCED, notes/assumptions/25.md.) -/
def State.commitGroup (s : State) (j : LoadJob) (es : List ImgEnt) : State :=
  let up := (membersOf es).filter fun m => !s.parkedInst m.1 m.2
  match (roleEntry s es).or (s.unmet up) with
  | some r => s.abortGroup j 0x11 (recOfReg es r)
  | none =>
    let s := s.commitMembers up (es.any fun e => e.reg == GRV_PMAP)
    let s := es.foldl (fun s e => s.retain e.reg e.val) s
    { s with ldr := some { j with commit := true } }

/-- One look at the group in its clearing: members that have left a reset join it, those that need no wait are ready, and once every one is, COMMIT follows (R41, R43). -/
def State.settleGroup (s : State) : State :=
  match s.ldr with
  | none => s
  | some j =>
    match j.groups with
    | [] => s
    | g :: _ =>
      if j.going = false ∨ j.commit = true then s
      else
        let es := j.entsOf g
        let up := (membersOf es).filter fun m => !s.parkedInst m.1 m.2
        let s := s.shadowWrite es (up.filter fun m => !j.live.contains m)
        let j := { j with live := up, ready := up.filter fun m => j.ready.contains m || s.readyAtOnce m.1 m.2 }
        if j.ready.length = up.length then s.commitGroup j es else { s with ldr := some j }

/-- The next group's clearing begins, once no block clearing holds one of its members (R41, R46, R48, R263). -/
def State.startGroup (s : State) : State :=
  match s.ldr with
  | none => s
  | some j =>
    match j.groups with
    | [] => s
    | g :: _ =>
      let es := j.entsOf g
      let ms := membersOf es
      if j.verified = false ∨ j.going = true ∨ j.commit = true ∨ (s.clrs.any fun c => c.started && ms.contains (c.block, c.inst)) = true then s
      else
        let up := ms.filter fun m => !s.parkedInst m.1 m.2
        let j := { j with going := true, live := up, ready := [] }
        let s := (s.setF TLT_STAT TLT_STAT_GROUP g).shadowWrite es up
        match (if up.contains (0x0A, 0) then unmetIl s up (s.finalVal j.ents) else none) with
        | some r => s.abortGroup j 0x11 (recOfReg es r)
        | none =>
          let s := if up.contains (0x08, 0) then (removedMembers s up).foldl State.recall s else s
          { s with ldr := some j }.settleGroup

/-! Block clearings (R46). -/

/-- A block clearing ends. -/
def State.clrEnds (s : State) (c : ClrJob) (code : Nat) : State :=
  let s := ((s.workDone 5 6 (c.block * 256 + c.inst)).tltEnd code 0)
  { s with clrs := s.clrs.erase c }

/-- COMMIT of a block clearing, or its abort; a member held in reset takes its values when it leaves it (R43, R46). -/
def State.commitClear (s : State) (c : ClrJob) : State :=
  let m := (c.block, c.inst)
  let done : State → State := fun s => { s with clrs := s.clrs.map fun x => if x == c then { c with started := true, commit := true } else x }
  if s.parkedInst c.block c.inst then
    match (if c.block = 0x02 then unmetRole s [m] else none) with
    | some _ => (s.revert [m]).clrEnds c 0x11
    | none => done ((s.differing c.block c.inst).foldl (fun s r => s.retain r (s.reg r &&& r.rwsMask)) s)
  else
    match s.unmet [m] with
    | some _ => (s.revert [m]).clrEnds c 0x11
    | none => done (s.commitMembers [m] false)

/-- A block clearing begins (R46, R48, R263); a member that need not be waited for, or that changes nothing, commits at once. -/
def State.startClear (s : State) (c : ClrJob) : State :=
  let m := (c.block, c.inst)
  if c.block = 0x0A ∧ (unmetIl s [m] s.act).isSome = true then (s.revert [m]).clrEnds c 0x11
  else
    let s := if c.block = 0x08 then (removedMembers s [m]).foldl State.recall s else s
    if s.readyAtOnce c.block c.inst ∨ s.differing c.block c.inst = [] then s.commitClear c
    else { s with clrs := s.clrs.map fun x => if x == c then { c with started := true } else x }

/-- A block clearing waits for another clearing of its instance (R46). -/
def State.clrWaits (s : State) (c : ClrJob) : Bool :=
  (match s.ldr with
    | some j => j.going && (match j.groups with | g :: _ => (membersOf (j.entsOf g)).contains (c.block, c.inst) | [] => false)
    | none => false)
    || s.clrs.any fun x => x.started && x.block == c.block && x.inst == c.inst

/-- Block clearings that wait for nothing begin, oldest first. -/
def State.startClears (s : State) : State :=
  s.clrs.foldl (fun s c => if c.started || s.clrWaits c || !s.clrs.contains c then s else s.startClear c) s

/-- Whatever of the loader can go on goes on. -/
def State.settleLoader (s : State) : State := if s.forFw = false ∨ s.fst.lost = true then s else (s.startGroup.settleGroup).startClears

/-! The full image of the start (R43, R63 step 5, R64). -/

/-- Every group of the full image enters the retained image, and its values are those that the blocks take as they leave reset. -/
def State.bootImage (s : State) (es : List ImgEnt) : State :=
  let gs := groupsOf es
  let s := gs.foldl (fun s g => (es.filter fun e => e.group == g).foldl (fun s e =>
    let m := e.reg.rwsMask
    ((s.setReg e.reg ((s.reg e.reg &&& ~~~ m) ||| (e.val &&& m))).setAct e.reg (e.val &&& m)).retain e.reg e.val) s) s
  let s := (List.range 8).foldl (fun s k => if s.pairEn k then s.setPair k 1 else s) s
  let s := ((List.range 8).foldl State.assignBuckets s).refreshRoutes
  let s := (List.range 72).foldl State.roleHealth s
  let s := s.retarget ((es.map ImgEnt.reg).eraseDups.filter fun r => r.block == 0x15)
  match gs.getLast? with
  | some g => s.setF TLT_STAT TLT_STAT_GROUP g
  | none => s

/-! The commands. -/

/-- IMAGE_VERIFY_DONE: the first failure ends the load; a full image at STEP 2 commits at once, and any other goes on to the clearings of its groups (R41, R51, R52, R63 step 5). -/
def execImageVerifyDone (s : State) : Host.Outcome State Fault Refusal :=
  .next (match s.ldr with
    | none => s
    | some j =>
      if j.verified then s
      else
        match s.verifyImage j.len with
        | .error e => s.loadEnds j e.1 e.2
        | .ok i =>
          let gs := groupsOf i.ents
          let j := { j with verified := true, serial := i.serial, root := i.root, owner := i.owner, ents := i.ents, groups := gs }
          if i.part = false ∧ s.startStep = 2 then
            ((s.bootImage i.ents).setF SVP_STAT SVP_STAT_STEP 3).loadDone j
          else if gs = [] then s.loadDone j
          else { s with ldr := some j }.settleLoader)

/-- A write of TLT_CMD (R46). -/
def State.tltWrite (s : State) (org : Origin) (v : Word) : State := (s.writeAs org 0x14 0 0x010 8 v).settleLoader

/-- TLT_CMD_LOAD: OP 1 (R46, R52). -/
def execTltCmdLoad (org : Origin) (s : State) : Host.Outcome State Fault Refusal := .next (s.tltWrite org (TLT_CMD_OP.put 0 1))

/-- TLT_CMD_CLEAR: OP 2 (R46). -/
def execTltCmdClear (org : Origin) (blk inst : BitVec 8) (s : State) : Host.Outcome State Fault Refusal :=
  .next (s.tltWrite org (TLT_CMD_INST.put (TLT_CMD_BLOCK.put (TLT_CMD_OP.put 0 2) blk.toNat) inst.toNat))

/-- TLT_CMD_IGNORED_OP: OP 0 or 3 to 15 (R46). -/
def execTltCmdIgnoredOp (org : Origin) (op : BitVec 4) (s : State) : Host.Outcome State Fault Refusal :=
  .next (if op = 1 ∨ op = 2 then s else s.tltWrite org (TLT_CMD_OP.put 0 op.toNat))

/-- A member of the loader's group, or of a block clearing, reports READY (R41 step 2). -/
def State.memberReports (s : State) (b i : Nat) : State :=
  let clr : State :=
    match s.clrs.find? fun c => c.started && !c.commit && c.block == b && c.inst == i with
    | some c => if s.memberReady [(b, i)] b i then s.commitClear c else s
    | none => s
  match s.ldr with
  | some j =>
    if j.going && !j.commit && j.live.contains (b, i) && !j.ready.contains (b, i) then
      if s.memberReady j.live b i then { s with ldr := some { j with ready := j.ready ++ [(b, i)] } }.settleGroup else s
    else clr
  | none => clr

/-- READY: a member reports READY once the work that its changed fields govern has ended; COMMIT follows the last (R41, R42). -/
def execReady (blk inst : Nat) (s : State) : Host.Outcome State Fault Refusal :=
  .next ((s.settleLoader).memberReports blk inst)

/-- The members report COMMITTED and resume; the next group begins, or the load ends (R10, R41 steps 5 and 6, R45, R49). -/
def State.groupCommitted (s : State) (j : LoadJob) : State :=
  let s := (s.releaseHeld j.live).restartThreads
  let j := { j with groups := j.groups.drop 1, going := false, live := [], ready := [], commit := false, retried := false }
  if j.groups = [] then s.loadDone j else { s with ldr := some j }

/-- The member of a block clearing reports COMMITTED and resumes (R46). -/
def State.clrCommitted (s : State) (c : ClrJob) : State :=
  ((s.releaseHeld [(c.block, c.inst)]).restartThreads).clrEnds c 0

/-- COMMITTED: the loader's group in COMMIT ends its clearing, or the oldest block clearing does (R41, R45, R46). -/
def execCommitted (s : State) : Host.Outcome State Fault Refusal :=
  let s := s.settleLoader
  let clr : State :=
    match s.clrs.find? fun c => c.commit with
    | some c => s.clrCommitted c
    | none => s
  .next ((match s.ldr with
    | some j => if j.commit then s.groupCommitted j else clr
    | none => clr).settleLoader)

/-- A member that has not reported READY keeps its bound: no takeover of it is in progress (R42). -/
def State.overdue (s : State) (m : Nat × Nat) : Bool := !(coreBlock m.1 && s.inTakeover m.2)

/-- CLEARING_TIMEOUT: a READY bound expires; the loader's group, or the oldest block clearing that waits, is aborted (R42, R46). -/
def execClearingTimeout (s : State) : Host.Outcome State Fault Refusal :=
  let s := s.settleLoader
  let clr : State :=
    match s.clrs.find? fun c => c.started && !c.commit && s.overdue (c.block, c.inst) with
    | some c => (s.revert [(c.block, c.inst)]).clrEnds c 0x10
    | none => s
  .next ((match s.ldr with
    | some j =>
      if j.going && !j.commit then
        if (j.live.filter fun m => !j.ready.contains m).any s.overdue then
          s.abortGroup j 0x10 (match j.groups with | g :: _ => firstRec (j.entsOf g) | [] => 0)
        else s
      else clr
    | none => clr).settleLoader)

/-- A takeover of the Forester before COMMIT aborts the clearings in progress; each is tried once more (R44). -/
def State.clearingsRetry (s : State) : State :=
  let cs := s.clrs.filter fun c => c.started && !c.commit
  let s : State := cs.foldl (fun s c =>
    { s.revert [(c.block, c.inst)] with clrs := s.clrs.map fun x => if x == c then { c with started := false } else x }) s
  match s.ldr with
  | some j =>
    if j.going && !j.commit && !j.retried then
      { (s.revert j.live).setF TLT_STAT TLT_STAT_REJ 0x10 with
        ldr := some { j with going := false, live := [], ready := [], retried := true } }
    else s
  | none => s

end Sys2Proof.Machine
end

