-- ==== Sys2Proof/Machine/Service.lean ====
section
/-! DEFINITION. The service port's commands (R54 to R66, R381 to R383, R422, R479 to R481): what each does as it is served, and its end. -/

namespace Sys2Proof.Machine

/-- Change the service command in progress. -/
def State.modSvc (s : State) (f : SvcCmd → SvcCmd) : State := { s with svc := s.svc.map f }

/-- The command is under way; its result comes later. -/
def State.svcWaits (s : State) : State := s.modSvc fun c => { c with begun := true }

/-- The staged container of a KIND is verified, and what it holds is used (R60 to R62). -/
def State.withContainer (s : State) (kind len carve : Nat) (k : Container → State) : State :=
  match s.container kind len carve with
  | .error e => s.svcResult e 0
  | .ok c => k c

/-! LOAD_FOR_FW (R63 step 4, R472, R481). -/

/-- The Forester's RAM holds new firmware, and its processor stands before its first instruction in bank 0. -/
def State.enterFirmware (s : State) (fw : List Byte) : State :=
  let s : State := { s with fst := { s.fst with banks := [], busy := 0, trapped := 0, last := 0, ram := memPut [] 0 fw, fcb := 0, fpg := 0 } }
  let s := (s.vectorBank 0 0x0000).kickDog
  ([2, 3, 4, 5, 6, 7].filter fun c => s.queue c != []).foldl (fun s c => s.vectorBank (c - 1) 0x40) s

/-- Firmware starts on both units, or on the only one: the claims of R472, STEP = 2 (R63 step 4). -/
def State.startFirmware (s : State) (fw : List Byte) : State :=
  let b := s.getF FOR_CLAIM FOR_CLAIM_ACTIVE
  let alone := s.getF FOR_CLAIM FOR_CLAIM_STBY == 1
  let s := (s.setF FOR_CLAIM FOR_CLAIM_CLAIMA (if b = 1 then 0 else 2)).setF FOR_CLAIM FOR_CLAIM_CLAIMB (if b = 1 then 2 else if alone then 0 else 1)
  ((s.setF FOR_CLAIM FOR_CLAIM_LATCH 2).setF SVP_STAT SVP_STAT_CLAIM b).enterFirmware fw |>.setF SVP_STAT SVP_STAT_STEP 2

/-- LOAD_FOR_FW as it is served: the first start, or a live reload up to its handover. -/
def State.loadForFw (s : State) (len : Nat) : State :=
  if s.startStep = 1 then s.withContainer 1 len 0 fun c => (s.startFirmware c.payload).svcResult 0 0
  else if s.getF FOR_CLAIM FOR_CLAIM_STBY ≠ 0 ∨ s.getF FOR_CLAIM FOR_CLAIM_LATCH = 0xFF then s.svcResult 0x02 0
  else s.withContainer 1 len 0 fun _ => (s.setF FOR_CLAIM FOR_CLAIM_STBY 3).svcWaits

/-! LOAD_TILET (R46, R58). -/

def State.loadTilet (s : State) (len : Nat) : State :=
  let part := byteAt (s.staged 16) 0xC % 2 == 1
  if part = decide (s.startStep = 2) then s.svcResult 0x02 0
  else if s.ldr.isSome then s.svcResult 0x0B 0x0F
  else if s.queueFull 5 then
    let r := s.busyRetry
    ((s.incF (FOR_QSTAT 4) FOR_QSTAT_FULL).svcResult 0x01 0).modSvc fun c => { c with retry := r }
  else ({ s.queueWork 5 ⟨5, 0⟩ with ldr := some (LoadJob.start true (some len)) } : State).svcWaits

/-! LOAD_UCODE and LOAD_GLADE_FW (R319, R359, R368, R381, R383). -/

/-- The microwords of a payload: bits [23:0] of each 4 bytes. -/
def microWords : Nat → List Byte → Tab (BitVec 24)
  | i, a :: b :: c :: _ :: t =>
    let w : BitVec 24 := BitVec.ofNat 24 (fromLe [a, b, c])
    if w = 0 then microWords (i + 1) t else (i, w) :: microWords (i + 1) t
  | _, _ => []

/-- An image enters a store of an engine: its words, version and VAL. -/
def State.fillStore (s : State) (e k serial : Nat) (p : List Byte) : State :=
  let w := microWords 0 p
  let s := s.modEng e fun x => if k = 0 then { x with store0 := w } else { x with store1 := w }
  let v := TWG_MCVER e k
  ((s.setF v TWG_MCVER_SERIAL (serial % 2 ^ 32)).setF v TWG_MCVER_HASH (fromBe ((sha384 p).take 4))).setF (TWG_MCSTAT e)
    (if k = 0 then TWG_MCSTAT_VAL0 else TWG_MCSTAT_VAL1) 1

/-- The active store of an engine holds a valid image. -/
def State.storeOk (s : State) (e : Nat) : Bool :=
  let r := TWG_MCSTAT e
  s.getF r (if s.getF r TWG_MCSTAT_ACT = 0 then TWG_MCSTAT_VAL0 else TWG_MCSTAT_VAL1) == 1

def State.loadUcode (s : State) (e len : Nat) : State :=
  let g := e / 2
  let r := TWG_MCSTAT e
  s.withContainer 2 len 0 fun c =>
    if bitOf s.gladeRst g then
      let s := (s.fillStore e 0 c.serial c.payload).setF r TWG_MCSTAT_ACT 0
      (if s.storeOk (2 * g) && s.storeOk (2 * g + 1) then s.setF (GLD_STAT g) GLD_STAT_STATE 2 else s).svcResult 0 0
    else ((s.fillStore e (1 - s.getF r TWG_MCSTAT_ACT) c.serial c.payload).setF r TWG_MCSTAT_SWAP 1).svcWaits

/-- Firmware starts on an engine: task 0 is ready at 0x0000 and every other task is free (R359). -/
def State.startEngine (s : State) (e : Nat) (fw : List Byte) : State :=
  (s.modEng e fun x => { x with
    local_ := memPut x.local_ 0 fw
    tasks := [(0, { TwigTask.free with st := 1, resident := true })]
    lru := [0] }).showResident e

def State.loadGladeFw (s : State) (g len : Nat) (starts : Bool) : State :=
  if s.gldState g ≠ 2 ∨ bitOf s.gladeRst g = false then s.svcResult 0x02 0
  else s.withContainer 3 len 0 fun c =>
    if starts = false then s.svcResult 0x0C 0
    else
      let s := (gladeInsts g).foldl (fun s i => s.fromRetained i.1 i.2) { s with gladeRst := setBit s.gladeRst g false }
      (((s.startEngine (2 * g) c.payload).startEngine (2 * g + 1) c.payload).setF (GLD_STAT g) GLD_STAT_STATE 3).svcResult 0 0

/-! LOAD_KEYS (R420, R422). -/

def State.loadKeyObject (s : State) (len : Nat) : State :=
  if s.getF KST_STAT KST_STAT_EPRDY = 0 then s.svcResult 0x02 0
  else s.withContainer 5 len 0 fun c => let (code, s') := s.loadKeys c.payload; s'.svcResult code 0

/-! LOAD_MFW (R63 step 10, R224, R483, R484). -/

/-- The copy of a payload: 64 bytes at a time, and its last bytes 4 at a time. (DEDUCED, notes/assumptions/42.md.) -/
def State.copyOut : Nat → State → Nat → Nat → List Byte → HubR Unit
  | 0, s, _, _, _ => .ok () s
  | n + 1, s, p, pa, b =>
    if b = [] then .ok () s
    else
      let k := if 64 ≤ b.length then 64 else 4
      (s.portWriteNow p pa (b.take k) true).bind fun _ s => State.copyOut n s p (pa + k) (b.drop k)

def State.loadMfw (s : State) (p len : Nat) : State :=
  let r := L3C_SEEDP 0 p
  let size := s.actF r L3C_SEEDP_LEN * 2 ^ 20
  let base := s.actF r L3C_SEEDP_PABASE * 2 ^ 20
  if s.actF (L3C_SEED 0) L3C_SEED_NWAYS = 0 ∨ s.getF (L3C_SEED 0) L3C_SEED_RELEASED = 1 ∨ size = 0 then s.svcResult 0x02 0
  else s.withContainer 4 len size fun c =>
    if c.loadpa < base ∨ base + size < c.loadpa + c.payload.length then s.svcResult 0x02 0
    else
      (State.copyOut (c.payload.length / 4 + 1) s p c.loadpa c.payload).run s
        (fun _ s => ({ s with mfw := setBit s.mfw p true } : State).svcResult 0 0) fun _ s => s.svcResult 0x07 0

/-! RELEASE and the start of cores (R63 step 11, R64, R68, R119). -/

/-- A core that fails its self-test is replaced through the Coppice sequencer: the first candidate that passes its own (R64, R450, R453, R454). -/
def State.replaceCore : Nat → State → Nat → List Nat → Nat → State × Option Nat
  | 0, s, _, _, _ => (s, none)
  | n + 1, s, f, bad, failed =>
    match s.candidate f s.staleMap with
    | none => (s, none)
    | some c =>
      if bad.contains c then State.replaceCore n (s.spareFails c 2) f bad (failed + 1)
      else
        let us := s.freeBelow (2 ^ 32)
        let s := (s.tickFree.exchange f c).log (takeoverRec (s.corePart f) f c failed us)
        (s.incF CPC_STAT CPC_STAT_TAKEOVER, some c)

/-- Both threads of an active core enter M-base + 0x000 (R119). -/
def State.startCore (s : State) (c reason : Nat) : State :=
  (s.coreThreads c).foldl (fun s t => s.startThread t reason) (s.modCore c fun x => { x with held := false })

/-- Active cores leave reset: those of `bad` fail their self-test and are replaced; a logical core for which no spare is left stays stopped (R64, R65, R132). -/
def State.startCores (s : State) (cs bad : List Nat) (reason : Nat) : State :=
  let (s, lost) := cs.foldl (fun (a : State × List Nat) c =>
    if bad.contains c then
      match State.replaceCore 9 a.1 c bad 0 with
      | (s, some n) => (s.startCore n 3, a.2)
      | (s, none) => (s, a.2 ++ [c])
    else (a.1.startCore c reason, a.2)) (s, [])
  lost.foldl (fun s c =>
    let s := (s.coreThreads c).foldl (fun s t => s.modThr t fun x => { x with run := .stoppedRetry }) s
    s.giveUp 0x03 c 1) s

/-- The active cores of a partition that are held in reset in a Stand that is out of it. (DESIGN CHOICE, notes/assumptions/39.md.) -/
def State.heldCores (s : State) (p : Nat) : List Nat :=
  (List.range 72).filter fun c => s.coreActive c && s.corePart c == p && (s.core c).held && !bitOf s.standRst (standOf c)

def State.release (s : State) (p : Nat) (bad : List Nat) : State :=
  if bitOf s.mfw p = false then s.svcResult 0x02 0
  else
    let s := (s.startCores (s.heldCores p) bad 0).setF SVP_STAT SVP_STAT_STEP 6
    ((List.range 4).foldl State.parkVolt { s with released := setBit s.released p true }).svcResult 0 0

/-! REG_READ and REG_WRITE (R18, R58, R479). -/

/-- The register that SVP_RADDR names: block, instance, offset. -/
def State.svpAddr (s : State) : Nat × Nat × Nat :=
  (s.getF SVP_RADDR SVP_RADDR_BLOCK, s.getF SVP_RADDR SVP_RADDR_INST, s.getF SVP_RADDR SVP_RADDR_OFF)

/-- A window that the configuration bus reaches (R18). -/
def busWindow (b i : Nat) : Bool := decide (i < blockCount b) && b != 0x16

def State.svpRegRead (s : State) : State :=
  let (b, i, o) := s.svpAddr
  let (v, s) := if busWindow b i then s.regRead (s.who .host) b i o 8 else (0, s)
  (s.setReg SVP_RDATA v).svcResult 0 0

def State.svpRegWrite (s : State) : State :=
  let (b, i, o) := s.svpAddr
  (if busWindow b i then s.regWrite (s.who .host) b i o 8 (s.reg SVP_RDATA) else s).svcResult 0 0

/-! RESET_DOMAIN (R21, R66, R275, R455). -/

/-- The registers of a core return to their reset values and take the retained image; what belongs to its ways stays (R40, R66, R221). -/
def State.coreRegs (s : State) (c : Nat) : State :=
  let w := s.reg (L2C_WAYST c)
  let n := s.reg (L2C_CECNT c)
  let s := ([0x01, 0x02, 0x04] : List Nat).foldl (fun s b => (s.resetRegs b c).fromRetained b c) s
  (s.setReg (L2C_WAYST c) w).setReg (L2C_CECNT c) n

/-- The cores of a Stand. -/
def standCores (st : Nat) : List Nat := (List.range 18).map fun i => 18 * st + i

/-- Entry to a Stand's warm reset: threads stop, what they have completed is handed on as far as it can be, their state is discarded, and their lines leave the cores (R66). (DEDUCED, notes/assumptions/38.md.) -/
def State.standReset (s : State) (st : Nat) : State :=
  if bitOf s.standRst st then s
  else
    let cs := standCores st
    let act := cs.filter s.coreActive
    let ts := act.flatMap s.coreThreads
    let s := s.openWindow fun c => standOf c == st
    let s := ts.foldl (fun s t => State.handOnStores 49 (s.stopThread t .held) t []) s
    let s := act.foldl (fun s c => (s.drainCore c []).skipCore c) s
    let s := ts.foldl (fun s t => let k := (s.thr t).trk; s.setThr t { Thread.reset with trk := k }) s
    let s := cs.foldl (fun s c => (s.modCore c fun x => x.renew true).coreRegs c) s
    ({ s with standRst := setBit s.standRst st true }.parkVolt st).settleBcasts

/-- RESET_DOMAIN of a Root link (R275, R276, R278): a link in service retrains; one that is not is reset and trains; one that trains goes on. (DEDUCED, notes/assumptions/40.md.) -/
def State.linkReset (s : State) (n : Nat) : State :=
  let st := s.rtlState n
  if st = 2 ∨ st = 3 then s.trainLink n st
  else if st = 0 ∨ st = 1 then s
  else ((s.dropRequests n none).trainLink n 7).settleWrites

/-- A domain whose reset can be asked for: otherwise the code that ends the request (R66). -/
def State.resetRefused (s : State) (t : Nat) : Option Nat :=
  if domainOk t = false then some 0x08
  else if 0x10 ≤ t ∧ t < 0x20 ∧ s.actF (RTL_CTL (t - 0x10)) RTL_CTL_EN = 0 then some 0x02
  else if 0x20 ≤ t ∧ t < 0x30 ∧ s.gpEn (t - 0x20) = false then some 0x02
  else none

/-- The reset of a Stand waits for the takeovers that hold one of its cores (R455). -/
def State.resetWaits (s : State) (t : Nat) : Bool := decide (t < 4) && !bitOf s.standRst t && (standCores t).any s.inTakeover

/-- The reset of a domain begins. -/
def State.resetStart (s : State) (t : Nat) : State :=
  if t < 4 then s.standReset t
  else if t < 0x20 then s.linkReset (t - 0x10)
  else if t < 0x30 then (if s.clocksUp ∧ s.gpState (t - 0x20) ≠ 1 then s.trainPort (t - 0x20) else s)
  else s.gladeReset (t - 0x30)

/-- The reset of a domain has ended. (DEDUCED, notes/assumptions/41.md.) -/
def State.resetOver (s : State) (t : Nat) : Bool :=
  if t < 4 then !bitOf s.standRst t
  else if t < 0x20 then s.actF (RTL_CTL (t - 0x10)) RTL_CTL_EN == 0 || (s.rtlState (t - 0x10) != 0 && s.rtlState (t - 0x10) != 1)
  else if t < 0x30 then !s.gpEn (t - 0x20) || (s.clocksUp && s.gpState (t - 0x20) != 1 && s.gpState (t - 0x20) != 3)
  else true

def State.resetDomain (s : State) (t : Nat) : State :=
  match s.resetRefused t with
  | some k => s.svcResult k 0
  | none => if s.resetWaits t then s else (s.svcWaits).resetStart t

/-! The commands. -/

/-- The command in progress is served, once (R58); a Forester that has lost the claim serves nothing (R474). -/
def State.svcBegin (s : State) : State :=
  match s.svc with
  | none => s
  | some c =>
    if c.begun ∨ c.code.isSome ∨ (s.fst.lost ∧ s.svcDirect c.op = false) then s
    else
      match c.op with
      | 0x01 => s.loadForFw c.len
      | 0x02 => s.loadTilet c.len
      | 0x03 => s.loadUcode c.target c.len
      | 0x04 => s.loadGladeFw c.target c.len c.starts
      | 0x05 => s.loadKeyObject c.len
      | 0x06 => s.loadMfw c.target c.len
      | 0x07 => s.release c.target c.bad
      | 0x08 => s.svpRegRead
      | 0x09 => s.svpRegWrite
      | _ => s.resetDomain c.target

/-- The host writes a command to SVP_CMD (R56); `bad` and `starts` say what the cores' self-tests and the Glade's start come to. (DESIGN CHOICE, notes/assumptions/24.md.) -/
def State.svcSend (s : State) (op target len : Nat) (bad : List Nat := []) (starts : Bool := true) : State :=
  let w : Word := BitVec.ofNat 64 (op * 2 ^ 56 + target * 2 ^ 48 + len)
  let s' := s.writeAs .host 0x16 0 0x010 8 w
  (if s.svc.isSome then s' else s'.modSvc fun c => { c with bad := bad, starts := starts }).svcBegin

/-- LOAD_FOR_FW (R58, R63 step 4, R481). -/
def execLoadForFw (target : BitVec 8) (len : BitVec 32) (s : State) : Host.Outcome State Fault Refusal :=
  .next (s.svcSend 0x01 target.toNat len.toNat)

/-- LOAD_TILET (R58). -/
def execLoadTilet (target : BitVec 8) (len : BitVec 32) (s : State) : Host.Outcome State Fault Refusal :=
  .next (s.svcSend 0x02 target.toNat len.toNat)

/-- LOAD_UCODE (R58, R381, R383). -/
def execLoadUcode (target : BitVec 8) (len : BitVec 32) (s : State) : Host.Outcome State Fault Refusal :=
  .next (s.svcSend 0x03 target.toNat len.toNat)

/-- LOAD_GLADE_FW (R58, R319); `started`: the Glade leaves reset (R65). -/
def execLoadGladeFw (target : BitVec 8) (len : BitVec 32) (started : Bool) (s : State) : Host.Outcome State Fault Refusal :=
  .next (s.svcSend 0x04 target.toNat len.toNat [] started)

/-- LOAD_KEYS (R58, R422). -/
def execLoadKeys (target : BitVec 8) (len : BitVec 32) (s : State) : Host.Outcome State Fault Refusal :=
  .next (s.svcSend 0x05 target.toNat len.toNat)

/-- LOAD_MFW (R58, R63 step 10). -/
def execLoadMfw (target : BitVec 8) (len : BitVec 32) (s : State) : Host.Outcome State Fault Refusal :=
  .next (s.svcSend 0x06 target.toNat len.toNat)

/-- RELEASE (R58, R63 step 11, R64); `bad`: the cores that fail their self-test. -/
def execRelease (target : BitVec 8) (len : BitVec 32) (bad : List Pcore) (s : State) : Host.Outcome State Fault Refusal :=
  .next (s.svcSend 0x07 target.toNat len.toNat (bad.map (·.val)))

/-- REG_READ (R58). -/
def execRegRead (target : BitVec 8) (len : BitVec 32) (s : State) : Host.Outcome State Fault Refusal :=
  .next (s.svcSend 0x08 target.toNat len.toNat)

/-- REG_WRITE (R58). -/
def execRegWrite (target : BitVec 8) (len : BitVec 32) (s : State) : Host.Outcome State Fault Refusal :=
  .next (s.svcSend 0x09 target.toNat len.toNat)

/-- RESET_DOMAIN (R58, R66). -/
def execResetDomain (target : BitVec 8) (len : BitVec 32) (s : State) : Host.Outcome State Fault Refusal :=
  .next (s.svcSend 0x0A target.toNat len.toNat)

/-- SVP_CMD_UNKNOWN_OP: an OP that R58 does not list. -/
def execSvpCmdUnknownOp (op target : BitVec 8) (len : BitVec 32) (s : State) : Host.Outcome State Fault Refusal :=
  .next (if op = 0 ∨ 0x0A < op.toNat then s.svcSend op.toNat target.toNat len.toNat else s)

/-- SVP_CMD_SET_LEN: a 4-byte write of the lower half (R56). -/
def execSvpCmdSetLen (len : BitVec 32) (s : State) : Host.Outcome State Fault Refusal :=
  .next (s.writeAs .host 0x16 0 0x010 4 (len.setWidth 64))

/-- MSI-X vector 0 for a DONE that changes from 0 to 1: at once, or with others at the end of the interval in progress (R57, R480). -/
def State.doneMsix (s : State) : State :=
  if s.msixBusy then { s with msixDue := true } else { s with msixBusy := true, msixSent := s.msixSent + 1 }

/-- A command ends with its result (R57, R59). -/
def State.svcEnd (s : State) (c : SvcCmd) (code : Nat) : State :=
  let r := SVP_RESP
  let s := (((s.setF r SVP_RESP_CODE code).setF r SVP_RESP_OP c.op).setF r SVP_RESP_RETRY c.retry).setF r SVP_RESP_DATA c.data
  let was := s.getF SVP_STAT SVP_STAT_DONE
  let s := ((s.setF SVP_STAT SVP_STAT_BUSY 0).setF SVP_STAT SVP_STAT_DONE 1).workDone 7 7 0
  let s : State := { s with svc := none }
  if was = 0 then s.doneMsix else s

/-- SVP_COMMAND_DONE: the command in progress ends, once its result is known (R57). -/
def execSvpCommandDone (s : State) : Host.Outcome State Fault Refusal :=
  let s := s.svcBegin
  .next (match s.svc with
    | none => s
    | some c =>
      match c.code with
      | some k => s.svcEnd c k
      | none => if c.begun && c.op == 0x0A && s.resetOver c.target then s.svcEnd c 0 else s)

/-- MSIX_COALESCE_TIMER: 10 µs have passed since the last message; one message signals what has come meanwhile (R57, R480). -/
def execMsixCoalesceTimer (s : State) : Host.Outcome State Fault Refusal :=
  .next (
    if s.msixDue then { s with msixDue := false, msixSent := s.msixSent + 1 }
    else { s with msixBusy := false })

/-! The service port itself (R53 to R57). -/

/-- SVC_LINK_TRAINED: the link is up (R63 step 3); ROM self-test has ended (R63: earliest step 2). -/
def execSvcLinkTrained (s : State) : Host.Outcome State Fault Refusal :=
  .next (if s.pwrok = true ∧ s.startStep ≠ 0 then { s with svcUp := true } else s)

/-- SVC_LINK_RESET: the service-port domain alone is reset; the start, a command in progress and its result stay (R57). (DEDUCED, notes/assumptions/43.md.) -/
def execSvcLinkReset (s : State) : Host.Outcome State Fault Refusal :=
  let s := (((s.setReg SVP_RADDR 0).setReg SVP_RDATA 0).setReg SVP_CMD 0).setF SVP_STAT SVP_STAT_OVR 0
  .next { s.setF SVP_STAT SVP_STAT_LOCKDROP 0 with svcUp := false, msixBusy := false, msixDue := false }

/-- BAR2_WRITE: stored in the staging area; what reaches the retained area, or comes while a command is in progress, is discarded and counted once for the write (R54, R55). -/
def execBar2Write (off : Nat) (bytes : List Byte) (s : State) : Host.Outcome State Fault Refusal :=
  let e := off + bytes.length
  .next (
    if s.svcUp = false ∨ bytes = [] ∨ 2 ^ 28 < e then s
    else
      let s' := if s.svc.isSome ∨ stageSize < e then s.incF SVP_STAT SVP_STAT_LOCKDROP else s
      if s.svc.isSome ∨ stageSize ≤ off then s'
      else { s' with bar2 := memPut s'.bar2 off (bytes.take (stageSize - off)) })

/-! The start sequence (R63 to R65). -/

/-- A start that has failed (R65). -/
def State.startFails (s : State) (code : Nat) : State := (s.setF SVP_STAT SVP_STAT_FAIL code).setF SVP_STAT SVP_STAT_STEP 15

/-- ROM_SELF_TEST_DONE: the fuses are read and the Forester units have passed or failed (R53, R63 step 2, R65, R472). -/
def execRomSelfTestDone (aOk bOk fuseOk pllOk : Bool) (fuses : Fuses) (s : State) : Host.Outcome State Fault Refusal :=
  .next (
    if s.pwrok = false ∨ s.startStep ≠ 0 then s
    else
      let s : State := if fuseOk then { s.setReg SVP_IDENT fuses.ident with rootHash := fuses.rootHash } else s
      if aOk = false ∧ bOk = false then s.startFails 1
      else if fuseOk = false then s.startFails 2
      else if pllOk = false then s.startFails 3
      else
        let s :=
          if aOk && bOk then s
          else ((s.setF FOR_CLAIM FOR_CLAIM_STBY 1).setF FOR_CLAIM FOR_CLAIM_ACTIVE (b2n (!aOk))).logC 0x13 0 0x0E
        s.setF SVP_STAT SVP_STAT_STEP 1)

/-- CLOCKS_SEED_READY: the PLLs are locked and the carve-outs zeroed: STEP 4, and training begins; or the start fails (R63 step 6, R65, R255, R265). -/
def execClocksSeedReady (ok : Bool) (s : State) : Host.Outcome State Fault Refusal :=
  .next (
    if s.startStep ≠ 3 then s
    else if ok = false then s.startFails 4
    else
      let s := ({ s with standRst := 0 } : State).setF SVP_STAT SVP_STAT_STEP 4
      let s := (List.range 4).foldl State.parkVolt s.lockStands
      let s := ((List.range 16).filter fun n => s.actF (RTL_CTL n) RTL_CTL_EN == 1).foldl (fun s n => s.trainLink n 0) s
      (List.range 7).foldl (fun s p => s.setF (GRV_STAT p) GRV_STAT_STATE (if s.gpEn p then 1 else 5)) s)

/-- TRAINING_ENDED: no link and no port trains any more: STEP 5 (R63 step 7). -/
def execTrainingEnded (s : State) : Host.Outcome State Fault Refusal :=
  let links := (List.range 16).any fun n => s.rtlState n == 1
  let ports := (List.range 7).any fun p => s.gpState p == 1
  .next (if s.startStep = 4 ∧ links = false ∧ ports = false then s.setF SVP_STAT SVP_STAT_STEP 5 else s)

/-- STAND_RESET_EXIT: the Stand leaves its warm reset; the active cores of released partitions start (R40, R66, R119). -/
def execStandResetExit (st : Stand) (bad : List Pcore) (s : State) : Host.Outcome State Fault Refusal :=
  .next (
    if s.standClocks = false ∨ bitOf s.standRst st = false then s
    else
      let cs := standCores st
      let s := cs.foldl (fun s c => ([0x01, 0x02, 0x04] : List Nat).foldl (fun s b => s.fromRetained b c) s) { s with standRst := setBit s.standRst st false }
      let go := cs.filter fun c => s.coreActive c && bitOf s.released (s.corePart c)
      (s.startCores go (bad.map (·.val)) 2).parkVolt st)

end Sys2Proof.Machine
end

