-- ==== Sys2Proof/Machine/Forester.lean ====
section
/-! DEFINITION. The commands of the Forester pair: takeover, watchdog, work, output stages, handover, mailboxes, memory port (R470 to R486). -/

namespace Sys2Proof.Machine

/-- Forester firmware runs and a unit holds the claim. -/
def State.forRuns (s : State) : Bool := s.forFw && !s.fst.lost

/-- The claim passes to the other unit, whose claim is one greater than the latch; `old` is the claim left to the former unit (R472, R473, R477). -/
def State.claimMoves (s : State) (old : Nat) : State :=
  let n := s.getF FOR_CLAIM FOR_CLAIM_LATCH + 1
  let b := 1 - s.getF FOR_CLAIM FOR_CLAIM_ACTIVE
  let s := (s.setF FOR_CLAIM FOR_CLAIM_CLAIMA (if b = 1 then old else n)).setF FOR_CLAIM FOR_CLAIM_CLAIMB (if b = 1 then n else old)
  (((s.setF FOR_CLAIM FOR_CLAIM_LATCH n).setF FOR_CLAIM FOR_CLAIM_ACTIVE b).setF SVP_STAT SVP_STAT_CLAIM b).kickDog

/-- The fast interrupt: a tick or a claim event enters bank 7, unless that is at work (R475). -/
def State.fastInt (s : State) : State := if bitOf s.fst.busy 7 then s else s.vectorBank 7 0x20

/-- A takeover (R44, R473): the claim passes, the failed unit stays in reset with claim 0, bank 0 enters the takeover vector. (DEDUCED, notes/assumptions/75.md.) -/
def State.forTakeover (s : State) (cause : Nat) : State :=
  let s := s.claimMoves 0
  let s := (s.setF FOR_CLAIM FOR_CLAIM_STBY 2).setF FOR_CLAIM FOR_CLAIM_CAUSE cause
  let s : State := { s with fst := { s.fst with trapped := setBit s.fst.trapped 0 false } }
  let s := (s.vectorBank 0 0x10).fastInt
  let s := s.log { block := 0x13, cls := 2, typ := 0x0E, detail := [BitVec.ofNat 8 cause] }
  s.clearingsRetry.settleLoader

/-- A live reload is given up: the old firmware stays active (R481). -/
def State.reloadFails (s : State) : State := (s.setF FOR_CLAIM FOR_CLAIM_STBY 0).svcResult 0x0C 0

/-- The active unit fails (R473, R474, R481). -/
def State.unitFails (s : State) (cause : Nat) : State :=
  let st := s.getF FOR_CLAIM FOR_CLAIM_STBY
  if s.forRuns = false then s
  else if st = 3 then s.reloadFails
  else if st = 0 ∧ s.getF FOR_CLAIM FOR_CLAIM_LATCH < 0xFF then s.forTakeover cause
  else ({ s with fst := { s.fst with lost := true } } : State).trigger 5

/-- FORESTER_TAKEOVER: the active unit fails; causes 1 to 4 of R473. -/
def execForesterTakeover (cause : Fin 5) (s : State) : Host.Outcome State Fault Refusal :=
  .next (if cause.val = 0 then s else s.unitFails cause.val)

/-- WATCHDOG_EXPIRE (R473, R477). (DESIGN CHOICE, notes/assumptions/8.md.) -/
def execWatchdogExpire (s : State) : Host.Outcome State Fault Refusal := .next (s.unitFails 4)

/-- WATCHDOG_KICK: only the claim holder's counts (R477). -/
def execWatchdogKick (unitB : Bool) (s : State) : Host.Outcome State Fault Refusal :=
  .next (if s.forRuns = true ∧ s.getF FOR_CLAIM FOR_CLAIM_ACTIVE = b2n unitB then s.kickDog else s)

/-- FORESTER_TICK: the fast interrupt (R475). (DESIGN CHOICE, notes/assumptions/66.md.) -/
def execForesterTick (s : State) : Host.Outcome State Fault Refusal := .next (if s.forRuns then s.fastInt else s)

/-! Work from outside (R476). -/

/-- A telemetry sample enters class 4; a full queue has it replace the queued one of its sensor (R476). -/
def State.sampleWork (s : State) (w : Work) : State :=
  let q := s.queue 4
  if q.length < 256 then s.queueWork 4 w
  else (s.setQueue 4 (q.map fun e => if e.work.kind == w.kind then ⟨w, none⟩ else e)).incF (FOR_QSTAT 3) FOR_QSTAT_FULL

/-- FORESTER_WORK_ARRIVAL: an item that firmware serves; records come by ERROR_RECORD, and the kinds below 8 are queued by the commands they belong to (R476). -/
def execForesterWorkArrival (cls : Fin 8) (work : Work) (s : State) : Host.Outcome State Fault Refusal :=
  let c := cls.val
  .next (
    if s.forRuns = false then s
    else if c = 4 then s.sampleWork work
    else if (c = 1 ∨ c = 2 ∨ c = 5 ∨ c = 7) ∧ 8 ≤ work.kind.toNat then s.queueWork c work
    else s)

/-! Output stages (R471). -/

def stageNum : Stage → Nat
  | .svp => 0
  | .cpcApp => 1
  | .power => 2
  | .commit => 3

/-- What an accepted command does; none where the stage takes no such command. -/
def State.stageDoes (s : State) (st : Stage) (c : StageCmd) : Option State :=
  match st, c with
  | .svp, .respond code data =>
    some (match s.svc with
      | some k => if code.toNat ≤ 0x0E then s.svcEnd { k with data := if k.code.isSome then k.data else data.toNat } (k.code.getD code.toNat) else s
      | none => s)
  | .cpcApp, .cpcApp v => some (s.writeAs .config 0x03 0 0x018 8 v)
  | .power, .power off v => some (s.writeAs .config 0x15 0 (off.toNat / 8 * 8) 8 v)
  | .commit, .commit => some s.settleLoader
  | _, _ => none

/-- A sequence number a stage has accepted already: the last one, or one before it (R471). (DESIGN CHOICE, notes/assumptions/63.md.) -/
def State.seqTaken (s : State) (st seq : Nat) : Bool :=
  match Tab.get (fun _ => none) s.fst.seqs st with
  | some l => decide ((l + 65536 - seq) % 65536 < 32768)
  | none => false

/-- OUTPUT_STAGE_COMMAND: a claim below the latch is discarded and logged, a sequence number already accepted is discarded; any other of a unit that holds its claim is accepted (R471). -/
def execOutputStageCommand (stage : Stage) (claim : BitVec 8) (seq : BitVec 16) (cmd : StageCmd) (s : State) : Host.Outcome State Fault Refusal :=
  let k := claim.toNat
  let n := stageNum stage
  .next (
    if s.forRuns = false then s
    else if k < s.getF FOR_CLAIM FOR_CLAIM_LATCH then s.logC 0x13 0 0x0D [BitVec.ofNat 8 k]
    else if k ≠ s.getF FOR_CLAIM FOR_CLAIM_CLAIMA ∧ k ≠ s.getF FOR_CLAIM FOR_CLAIM_CLAIMB then s
    else if s.seqTaken n seq.toNat then s
    else
      match s.stageDoes stage cmd with
      | some s' => { s' with fst := { s'.fst with seqs := Tab.set (fun _ => none) s'.fst.seqs n (some seq.toNat) } }
      | none => s)

/-- LOG_HEAD_WRITE: a write of FOR_LOGSTAT (R479). -/
def execLogHeadWrite (org : Origin) (val : Word) (s : State) : Host.Outcome State Fault Refusal :=
  .next (s.writeAs org 0x13 0 0x080 8 val)

/-- HANDOVER_QUIESCED: steps 3 to 5 of a live reload: the unit with the new firmware takes the claim, and the other becomes its standby; or a unit fails before step 4 (R481). (DESIGN CHOICE, notes/assumptions/26.md.) -/
def execHandoverQuiesced (ok : Bool) (s : State) : Host.Outcome State Fault Refusal :=
  .next (
    if s.forRuns = false ∨ s.getF FOR_CLAIM FOR_CLAIM_STBY ≠ 3 then s
    else if ok = false then s.reloadFails
    else
      match s.container 1 ((s.svc.map (·.len)).getD 0) 0 with
      | .error _ => s.reloadFails
      | .ok c =>
        let s := (s.claimMoves (s.getF FOR_CLAIM FOR_CLAIM_LATCH)).incF FOR_CLAIM FOR_CLAIM_HANDOVERS
        ((s.setF FOR_CLAIM FOR_CLAIM_STBY 0).enterFirmware c.payload).svcResult 0 0)

/-! Mailboxes (R482 to R486). -/

/-- FOR_MBDB: a write of a mailbox doorbell (R482). -/
def execForMbdb (org : Origin) (p : Part) (val : Word) (s : State) : Host.Outcome State Fault Refusal :=
  .next (s.writeAs org 0x13 0 (0x300 + 8 * p) 8 val)

/-- A line of a mailbox window can be written: it is a seed line, or its Root link is in service (R482). -/
def State.lineServed (s : State) (l : Nat) : Bool :=
  (s.seedIdx (l * 256)).isSome || match s.placeLine l with
    | some (lk, _) => (s.writeLinks lk).any s.inService
    | none => false

/-- The memory behind a mailbox's window can be written (R482). -/
def State.mboxMemory (s : State) (p : Nat) : Bool :=
  s.clocksUp && (List.range 16384).all fun i => s.lineServed (s.mboxBase p / 256 + i)

/-- The bytes of MAGIC (R483). -/
def mboxMagic : List Byte := "FORMBX01".toList.map fun c => BitVec.ofNat 8 c.toNat

/-- MAILBOX_INIT: MAGIC and the ring indices are written, and the mailbox is served from then on (R482). -/
def execMailboxInit (p : Part) (s : State) : Host.Outcome State Fault Refusal :=
  .next (
    if s.forRuns = false ∨ s.mboxOn p = false ∨ (s.mbox p).up = true then s
    else if s.mboxMemory p = false then s
    else
      (((s.mboxPut p 0x00 mboxMagic).bind fun _ s => (s.mboxPut p 0x08 (leBytes 8 0)).bind fun _ s =>
        (s.mboxPut p 0x10 (leBytes 8 0)).bind fun _ s => s.mboxPut p 0x18 (leBytes 8 0)).run s
        (fun _ s => s.modMbox p fun _ => { Mbox.down with up := true }) fun _ s => s))

/-- The 64 bytes of request `n`, in reads of 8 bytes. -/
def State.requestBytes (s : State) (p n : Nat) : Nat → HubR (List Byte)
  | 0 => .ok [] s
  | k + 1 => (s.requestBytes p n k).bind fun b s => (s.mboxGet p (0x1000 + 64 * n + 8 * k) 8).bind fun c s => .ok (b ++ c) s

/-- A request has been dealt with: REQHEAD goes past it, and class 7 work that is done leaves its queue. -/
def State.requestPast (s : State) (p : Nat) : HubR Unit :=
  let h := ((s.mbox p).reqHead + 1) % 256
  (s.mboxPut p 0x08 (leBytes 4 h)).bind fun _ s =>
    let s := s.modMbox p fun m => { m with reqHead := h, busy := m.busy.filter fun x => x != (h + 255) % 256, reset := none }
    .ok () (if (s.mbox p).reqTail = h then s.setQueue 7 ((s.queue 7).filter fun e => e.work != ⟨4, BitVec.ofNat 64 p⟩) else s)

/-- A response (R485): OP and TAG of the request, CODE, RETRY and a CRC. -/
def responseBytes (b : List Byte) (code retry : Nat) : List Byte :=
  let h := b.take 1 ++ [BitVec.ofNat 8 code] ++ (b.drop 2).take 2 ++ leBytes 2 retry ++ List.replicate 54 0
  h ++ leBytes 4 (crc32c h).toNat

/-- Answer the oldest request (R483, R485, R486). -/
def State.mboxAnswer (s : State) (p : Nat) (b : List Byte) (code retry : Nat) : HubR Unit :=
  let t := (s.mbox p).rspTail
  (s.mboxPut p (0x5000 + 64 * t) (responseBytes b code retry)).bind fun _ s =>
    (s.mboxPut p 0x0C (leBytes 4 ((t + 1) % 256))).bind fun _ s =>
      ((s.modMbox p fun m => { m with rspTail := (t + 1) % 256 }).mboxInt p 0).requestPast p

/-- A partition without PRIV may name a domain: a Stand whose active cores, or a Glade whose enabled slices, all belong to it (R485). -/
def State.mayReset (s : State) (p t : Nat) : Bool :=
  s.actF (FOR_MBOX p) FOR_MBOX_PRIV == 1
    || (decide (t < 4) && ((standCores t).filter s.coreActive).all fun c => s.corePart c == p)
    || (decide (0x30 ≤ t) && decide (t ≤ 0x33) && (List.range 256).all fun sl =>
        s.actF (GLD_SLC_CTL (t - 0x30) sl) GLD_SLC_CTL_EN == 0 || s.slicePart (t - 0x30) sl == p)

/-- RESET_DOMAIN of a mailbox: refused, waiting for a takeover, over at once, or answered when the domain has left its reset (R455, R485). -/
def State.mboxReset (s : State) (p : Nat) (b : List Byte) : HubR Unit :=
  let t := byteAt b 1
  match (if s.mayReset p t then s.resetRefused t else some 0x02) with
  | some k => s.mboxAnswer p b k 0
  | none =>
    if s.resetWaits t then .ok () s
    else
      let s := s.resetStart t
      if s.resetOver t then s.mboxAnswer p b 0 0 else .ok () (s.modMbox p fun m => { m with reset := some t })

/-- The oldest request of a mailbox is served by the row of its OP (R476, R478, R483, R485); one that cannot be read is passed over, and while the response ring is full it waits. -/
def State.mboxServe (s : State) (p : Nat) (row : Nat → Bool) (act : State → List Byte → HubR Unit) : HubR Unit :=
  let m := s.mbox p
  (s.mboxGet p 0x10 4).bind fun h s =>
    if (m.rspTail + 1) % 256 = fromLe h % 256 then .ok () s
    else
      match s.requestBytes p m.reqHead 8 with
      | .need l q w => .need l q w
      | .fail _ s => s.requestPast p
      | .ok b s =>
        if m.busy.contains m.reqHead then s.mboxAnswer p b 0x01 s.busyRetry
        else if rdLe b 0x3C 4 ≠ (crc32c (b.take 0x3C)).toNat then s.mboxAnswer p b 0x03 0
        else if row (byteAt b 0) = false then .ok () s
        else act s b

/-- One row serves its mailbox, where that has a request. (DESIGN CHOICE, notes/assumptions/27.md.) -/
def State.mboxRow (s : State) (p : Nat) (row : Nat → Bool) (act : State → List Byte → HubR Unit) : State :=
  let m := s.mbox p
  if s.forRuns = false ∨ s.mboxOn p = false ∨ m.up = false ∨ m.reqHead = m.reqTail then s
  else (s.mboxServe p row act).run s (fun _ s => s) fun _ s => s

/-- MBOX_RESET_DOMAIN (R485); a reset under way is answered once the domain has left it. -/
def execMboxResetDomain (p : Part) (s : State) : Host.Outcome State Fault Refusal :=
  .next (s.mboxRow p (· == 1) fun s b =>
    match (s.mbox p).reset with
    | some t => if s.resetOver t then s.mboxAnswer p b 0 0 else .ok () s
    | none => s.mboxReset p b)

/-- MBOX_PING (R485). -/
def execMboxPing (p : Part) (s : State) : Host.Outcome State Fault Refusal :=
  .next (s.mboxRow p (· == 2) fun s b => s.mboxAnswer p b 0 0)

/-- MBOX_UNKNOWN_OP (R485). -/
def execMboxUnknownOp (p : Part) (s : State) : Host.Outcome State Fault Refusal :=
  .next (s.mboxRow p (fun o => o != 1 && o != 2) fun s b => s.mboxAnswer p b 0x0D 0)

/-- FORESTER_MEMORY_ACCESS: an access of firmware through the Forester memory port; those of LOAD_MFW are its own alone (R483, R484). -/
def execForesterMemoryAccess (p : Part) (acc : PortAccess) (s : State) : Host.Outcome State Fault Refusal :=
  let a := acc.addr.toNat
  let mfw := acc.mfw && (match s.svc with | some c => c.op == 6 && c.target == p.val && c.code.isNone | none => false)
  .next (
    if s.forRuns = false ∨ (acc.wr = true ∧ acc.data.length ≠ acc.size) then s
    else if acc.wr then (s.portWriteNow p a acc.data mfw).run s (fun _ s => s) fun _ s => s
    else (s.portReadNow p a acc.size).run s (fun b s => { s with readData := BitVec.ofNat 64 (fromLe b) }) fun _ s => s)

end Sys2Proof.Machine
end

