-- ==== Sys2Proof/Machine/Integer.lean ====
section
/-! DEFINITION. The integer instructions of AIS: OPR, the I format, SHI and the CRC-32C updates (R75 to R78, R133, R134). -/

namespace Sys2Proof.Machine

/-- The signed quotient at `n` bits: rounded toward zero, saturated (R134). -/
def quotS (n : Nat) (a b : Int) : Int :=
  if b = 0 then (if a < 0 then -(2 ^ (n - 1)) else 2 ^ (n - 1) - 1)
  else if a = -(2 ^ (n - 1)) ∧ b = -1 then 2 ^ (n - 1) - 1
  else a.tdiv b

/-- The signed remainder at `n` bits, with the sign of the dividend; zero where no quotient is representable (R134). -/
def remS (n : Nat) (a b : Int) : Int :=
  if b = 0 then 0 else if a = -(2 ^ (n - 1)) ∧ b = -1 then 0 else a.tmod b

/-- The unsigned quotient at `n` bits: all ones for divisor zero (R134). -/
def quotU (n a b : Nat) : Nat := if b = 0 then 2 ^ n - 1 else a / b

/-- The unsigned remainder: zero for divisor zero (R134). -/
def remU (a b : Nat) : Nat := if b = 0 then 0 else a % b

/-- Leading zeros of a number of `n` bits. -/
def clzN : Nat → Nat → Nat
  | 0, _ => 0
  | n + 1, v => if bitOf v n then 0 else 1 + clzN n v

/-- Trailing zeros of a number of `n` bits. -/
def ctzN : Nat → Nat → Nat
  | 0, _ => 0
  | n + 1, v => if v % 2 = 1 then 0 else 1 + ctzN n (v / 2)

/-- One bits of a number of `n` bits. -/
def popN : Nat → Nat → Nat
  | 0, _ => 0
  | n + 1, v => v % 2 + popN n (v / 2)

/-- The shift amount rb[5:0], or rb[4:0] with W (R75). -/
def shamt {n : Nat} (m : Nat) (b : BitVec n) : Nat := b.toNat % m

/-- The integer a number of `n` bits stands for, as a word of that width. -/
def ofI (n : Nat) (i : Int) : BitVec n := BitVec.ofInt n i

/-- Byte order reversed. -/
def bswap (a : Word) : Word := BitVec.ofNat 64 (fromLe (leBytes 8 a.toNat).reverse)

/-- A CRC-32C update of ra[31:0], zero-extended (R76). -/
def crcW (a : Word) (l : List Byte) : Word := (crcBytes (a.setWidth 32) l).setWidth 64

/-- ADD: the sum (R75). -/
def execAdd (t : Thr) (w : Bool) (rd ra rb : GReg) (s : State) : Host.Outcome State Fault Refusal :=
  .next (s.oprW t.val 0x000 true w rd ra rb (fun a b => a + b) fun a b => a + b)

/-- SUB: the difference (R75). -/
def execSub (t : Thr) (w : Bool) (rd ra rb : GReg) (s : State) : Host.Outcome State Fault Refusal :=
  .next (s.oprW t.val 0x001 true w rd ra rb (fun a b => a - b) fun a b => a - b)

/-- AND: the conjunction (R75). -/
def execAnd (t : Thr) (rd ra rb : GReg) (s : State) : Host.Outcome State Fault Refusal :=
  .next (s.opr t.val 0x002 true rd ra rb fun a b => a &&& b)

/-- OR: the disjunction (R75). -/
def execOr (t : Thr) (rd ra rb : GReg) (s : State) : Host.Outcome State Fault Refusal :=
  .next (s.opr t.val 0x003 true rd ra rb fun a b => a ||| b)

/-- XOR: the exclusive or (R75). -/
def execXor (t : Thr) (rd ra rb : GReg) (s : State) : Host.Outcome State Fault Refusal :=
  .next (s.opr t.val 0x004 true rd ra rb fun a b => a ^^^ b)

/-- ANDN: ra and not rb (R75). -/
def execAndn (t : Thr) (rd ra rb : GReg) (s : State) : Host.Outcome State Fault Refusal :=
  .next (s.opr t.val 0x005 true rd ra rb fun a b => a &&& ~~~ b)

/-- ORN: ra or not rb (R75). -/
def execOrn (t : Thr) (rd ra rb : GReg) (s : State) : Host.Outcome State Fault Refusal :=
  .next (s.opr t.val 0x006 true rd ra rb fun a b => a ||| ~~~ b)

/-- XNOR: the complement of the exclusive or (R75). -/
def execXnor (t : Thr) (rd ra rb : GReg) (s : State) : Host.Outcome State Fault Refusal :=
  .next (s.opr t.val 0x007 true rd ra rb fun a b => ~~~ (a ^^^ b))

/-- SLL: left shift (R75). -/
def execSll (t : Thr) (w : Bool) (rd ra rb : GReg) (s : State) : Host.Outcome State Fault Refusal :=
  .next (s.oprW t.val 0x008 true w rd ra rb (fun a b => a <<< shamt 64 b) fun a b => a <<< shamt 32 b)

/-- SRL: logical right shift (R75). -/
def execSrl (t : Thr) (w : Bool) (rd ra rb : GReg) (s : State) : Host.Outcome State Fault Refusal :=
  .next (s.oprW t.val 0x009 true w rd ra rb (fun a b => a >>> shamt 64 b) fun a b => a >>> shamt 32 b)

/-- SRA: arithmetic right shift (R75). -/
def execSra (t : Thr) (w : Bool) (rd ra rb : GReg) (s : State) : Host.Outcome State Fault Refusal :=
  .next (s.oprW t.val 0x00A true w rd ra rb (fun a b => a.sshiftRight (shamt 64 b)) fun a b => a.sshiftRight (shamt 32 b))

/-- ROR: rotate right (R75). -/
def execRor (t : Thr) (w : Bool) (rd ra rb : GReg) (s : State) : Host.Outcome State Fault Refusal :=
  .next (s.oprW t.val 0x00B true w rd ra rb (fun a b => a.rotateRight (shamt 64 b)) fun a b => a.rotateRight (shamt 32 b))

/-- SLT: 1 if ra < rb signed, else 0 (R75). -/
def execSlt (t : Thr) (rd ra rb : GReg) (s : State) : Host.Outcome State Fault Refusal :=
  .next (s.opr t.val 0x00C true rd ra rb fun a b => boolW (a.slt b))

/-- SLTU: 1 if ra < rb unsigned, else 0 (R75). -/
def execSltu (t : Thr) (rd ra rb : GReg) (s : State) : Host.Outcome State Fault Refusal :=
  .next (s.opr t.val 0x00D true rd ra rb fun a b => boolW (a.ult b))

/-- MIN: signed minimum (R75). -/
def execMin (t : Thr) (rd ra rb : GReg) (s : State) : Host.Outcome State Fault Refusal :=
  .next (s.opr t.val 0x00E true rd ra rb fun a b => if a.slt b then a else b)

/-- MAX: signed maximum (R75). -/
def execMax (t : Thr) (rd ra rb : GReg) (s : State) : Host.Outcome State Fault Refusal :=
  .next (s.opr t.val 0x00F true rd ra rb fun a b => if a.slt b then b else a)

/-- MINU: unsigned minimum (R75). -/
def execMinu (t : Thr) (rd ra rb : GReg) (s : State) : Host.Outcome State Fault Refusal :=
  .next (s.opr t.val 0x010 true rd ra rb fun a b => if a.ult b then a else b)

/-- MAXU: unsigned maximum (R75). -/
def execMaxu (t : Thr) (rd ra rb : GReg) (s : State) : Host.Outcome State Fault Refusal :=
  .next (s.opr t.val 0x011 true rd ra rb fun a b => if a.ult b then b else a)

/-- CMOVZ: rd takes ra if rb = 0, else it is unchanged (R75). -/
def execCmovz (t : Thr) (rd ra rb : GReg) (s : State) : Host.Outcome State Fault Refusal :=
  .next (s.alu t.val (encOpr false rd.val ra.val rb.val 0x012) true rd fun x => if x.gr rb = 0 then x.gr ra else x.gr rd)

/-- CMOVNZ: rd takes ra if rb ≠ 0, else it is unchanged (R75). -/
def execCmovnz (t : Thr) (rd ra rb : GReg) (s : State) : Host.Outcome State Fault Refusal :=
  .next (s.alu t.val (encOpr false rd.val ra.val rb.val 0x013) true rd fun x => if x.gr rb ≠ 0 then x.gr ra else x.gr rd)

/-- MUL: the low half of the product (R75). -/
def execMul (t : Thr) (w : Bool) (rd ra rb : GReg) (s : State) : Host.Outcome State Fault Refusal :=
  .next (s.oprW t.val 0x020 true w rd ra rb (fun a b => a * b) fun a b => a * b)

/-- MULH: the high half of the signed product (R75). -/
def execMulh (t : Thr) (rd ra rb : GReg) (s : State) : Host.Outcome State Fault Refusal :=
  .next (s.opr t.val 0x021 true rd ra rb fun a b => ofI 64 (a.toInt * b.toInt / 2 ^ 64))

/-- MULHU: the high half of the unsigned product (R75). -/
def execMulhu (t : Thr) (rd ra rb : GReg) (s : State) : Host.Outcome State Fault Refusal :=
  .next (s.opr t.val 0x022 true rd ra rb fun a b => BitVec.ofNat 64 (a.toNat * b.toNat / 2 ^ 64))

/-- MULHSU: the high half of signed ra by unsigned rb (R75). -/
def execMulhsu (t : Thr) (rd ra rb : GReg) (s : State) : Host.Outcome State Fault Refusal :=
  .next (s.opr t.val 0x023 true rd ra rb fun a b => ofI 64 (a.toInt * (b.toNat : Int) / 2 ^ 64))

/-- DIV: signed quotient, with the cases of R134 (R75). -/
def execDiv (t : Thr) (w : Bool) (rd ra rb : GReg) (s : State) : Host.Outcome State Fault Refusal :=
  .next (s.oprW t.val 0x028 false w rd ra rb (fun a b => ofI 64 (quotS 64 a.toInt b.toInt)) fun a b => ofI 32 (quotS 32 a.toInt b.toInt))

/-- REM: signed remainder, with the cases of R134 (R75). -/
def execRem (t : Thr) (w : Bool) (rd ra rb : GReg) (s : State) : Host.Outcome State Fault Refusal :=
  .next (s.oprW t.val 0x02A false w rd ra rb (fun a b => ofI 64 (remS 64 a.toInt b.toInt)) fun a b => ofI 32 (remS 32 a.toInt b.toInt))

/-- DIVU: unsigned quotient, with the cases of R134 (R75). -/
def execDivu (t : Thr) (w : Bool) (rd ra rb : GReg) (s : State) : Host.Outcome State Fault Refusal :=
  .next (s.oprW t.val 0x029 false w rd ra rb (fun a b => BitVec.ofNat 64 (quotU 64 a.toNat b.toNat)) fun a b => BitVec.ofNat 32 (quotU 32 a.toNat b.toNat))

/-- REMU: unsigned remainder, with the cases of R134 (R75). -/
def execRemu (t : Thr) (w : Bool) (rd ra rb : GReg) (s : State) : Host.Outcome State Fault Refusal :=
  .next (s.oprW t.val 0x02B false w rd ra rb (fun a b => BitVec.ofNat 64 (remU a.toNat b.toNat)) fun a b => BitVec.ofNat 32 (remU a.toNat b.toNat))

/-- CLZ: leading zero count (R75). -/
def execClz (t : Thr) (w : Bool) (rd ra : GReg) (s : State) : Host.Outcome State Fault Refusal :=
  .next (s.oprW t.val 0x030 true w rd ra 0 (fun a _ => BitVec.ofNat 64 (clzN 64 a.toNat)) fun a _ => BitVec.ofNat 32 (clzN 32 a.toNat))

/-- CTZ: trailing zero count (R75). -/
def execCtz (t : Thr) (w : Bool) (rd ra : GReg) (s : State) : Host.Outcome State Fault Refusal :=
  .next (s.oprW t.val 0x031 true w rd ra 0 (fun a _ => BitVec.ofNat 64 (ctzN 64 a.toNat)) fun a _ => BitVec.ofNat 32 (ctzN 32 a.toNat))

/-- POPC: count of one bits (R75). -/
def execPopc (t : Thr) (w : Bool) (rd ra : GReg) (s : State) : Host.Outcome State Fault Refusal :=
  .next (s.oprW t.val 0x032 true w rd ra 0 (fun a _ => BitVec.ofNat 64 (popN 64 a.toNat)) fun a _ => BitVec.ofNat 32 (popN 32 a.toNat))

/-- BSWAP: byte order reversed (R75). -/
def execBswap (t : Thr) (rd ra : GReg) (s : State) : Host.Outcome State Fault Refusal :=
  .next (s.opr t.val 0x033 true rd ra 0 fun a _ => bswap a)

/-- SEXTB: ra[7:0] sign-extended (R75). -/
def execSextb (t : Thr) (rd ra : GReg) (s : State) : Host.Outcome State Fault Refusal :=
  .next (s.opr t.val 0x034 true rd ra 0 fun a _ => sextW 8 a.toNat)

/-- SEXTH: ra[15:0] sign-extended (R75). -/
def execSexth (t : Thr) (rd ra : GReg) (s : State) : Host.Outcome State Fault Refusal :=
  .next (s.opr t.val 0x035 true rd ra 0 fun a _ => sextW 16 a.toNat)

/-- ZEXTW: ra[31:0] zero-extended (R75). -/
def execZextw (t : Thr) (rd ra : GReg) (s : State) : Host.Outcome State Fault Refusal :=
  .next (s.opr t.val 0x036 true rd ra 0 fun a _ => a &&& 0xFFFFFFFF#64)

/-- CRC32CB: CRC-32C update by the byte rb[7:0] (R75, R76). -/
def execCrc32cb (t : Thr) (rd ra rb : GReg) (s : State) : Host.Outcome State Fault Refusal :=
  .next (s.opr t.val 0x040 true rd ra rb fun a b => crcW a [b.setWidth 8])

/-- CRC32CD: CRC-32C update by the eight bytes of rb, byte 0 first (R75, R76). -/
def execCrc32cd (t : Thr) (rd ra rb : GReg) (s : State) : Host.Outcome State Fault Refusal :=
  .next (s.opr t.val 0x041 true rd ra rb fun a b => crcW a (leBytes 8 b.toNat))

/-- ADDI: ra + sext(imm16) (R77). -/
def execAddi (t : Thr) (rd ra : GReg) (imm : BitVec 16) (s : State) : Host.Outcome State Fault Refusal :=
  .next (s.opi t.val 0x02 rd ra imm fun a => a + sext16 imm)

/-- ADDIW: sext32(ra[31:0] + sext(imm16)) (R77). -/
def execAddiw (t : Thr) (rd ra : GReg) (imm : BitVec 16) (s : State) : Host.Outcome State Fault Refusal :=
  .next (s.opi t.val 0x0C rd ra imm fun a => (a.setWidth 32 + imm.signExtend 32).signExtend 64)

/-- ANDI: ra & zext(imm16) (R77). -/
def execAndi (t : Thr) (rd ra : GReg) (imm : BitVec 16) (s : State) : Host.Outcome State Fault Refusal :=
  .next (s.opi t.val 0x03 rd ra imm fun a => a &&& zext16 imm)

/-- ORI: ra | zext(imm16) (R77). -/
def execOri (t : Thr) (rd ra : GReg) (imm : BitVec 16) (s : State) : Host.Outcome State Fault Refusal :=
  .next (s.opi t.val 0x04 rd ra imm fun a => a ||| zext16 imm)

/-- XORI: ra ^ zext(imm16) (R77). -/
def execXori (t : Thr) (rd ra : GReg) (imm : BitVec 16) (s : State) : Host.Outcome State Fault Refusal :=
  .next (s.opi t.val 0x05 rd ra imm fun a => a ^^^ zext16 imm)

/-- SLTI: 1 if ra < sext(imm16) signed, else 0 (R77). -/
def execSlti (t : Thr) (rd ra : GReg) (imm : BitVec 16) (s : State) : Host.Outcome State Fault Refusal :=
  .next (s.opi t.val 0x06 rd ra imm fun a => boolW (a.slt (sext16 imm)))

/-- SLTIU: 1 if ra < sext(imm16) compared unsigned, else 0 (R77). -/
def execSltiu (t : Thr) (rd ra : GReg) (imm : BitVec 16) (s : State) : Host.Outcome State Fault Refusal :=
  .next (s.opi t.val 0x07 rd ra imm fun a => boolW (a.ult (sext16 imm)))

/-- ORIS: ra | (zext(imm16) × 2^16) (R77). -/
def execOris (t : Thr) (rd ra : GReg) (imm : BitVec 16) (s : State) : Host.Outcome State Fault Refusal :=
  .next (s.opi t.val 0x09 rd ra imm fun a => a ||| (zext16 imm <<< 16))

/-- LUI: sext(imm16) × 2^16 (R77). -/
def execLui (t : Thr) (rd : GReg) (imm : BitVec 16) (s : State) : Host.Outcome State Fault Refusal :=
  .next (s.opi t.val 0x08 rd 0 imm fun _ => sext16 imm <<< 16)

/-- ADDPC: pc + sext(imm16) × 2^16 (R77). -/
def execAddpc (t : Thr) (rd : GReg) (imm : BitVec 16) (s : State) : Host.Outcome State Fault Refusal :=
  .next (s.alu t.val (encI 0x0A rd.val 0 imm.toNat) true rd fun x => x.pc + (sext16 imm <<< 16))

/-- SLLI: left shift by an immediate (R78). -/
def execSlli (t : Thr) (rd ra : GReg) (sh : BitVec 6) (s : State) : Host.Outcome State Fault Refusal :=
  .next (s.opsh t.val 0 rd ra sh fun a => a <<< sh.toNat)

/-- SRLI: logical right shift by an immediate (R78). -/
def execSrli (t : Thr) (rd ra : GReg) (sh : BitVec 6) (s : State) : Host.Outcome State Fault Refusal :=
  .next (s.opsh t.val 1 rd ra sh fun a => a >>> sh.toNat)

/-- SRAI: arithmetic right shift by an immediate (R78). -/
def execSrai (t : Thr) (rd ra : GReg) (sh : BitVec 6) (s : State) : Host.Outcome State Fault Refusal :=
  .next (s.opsh t.val 2 rd ra sh fun a => a.sshiftRight sh.toNat)

/-- RORI: rotate right by an immediate (R78). -/
def execRori (t : Thr) (rd ra : GReg) (sh : BitVec 6) (s : State) : Host.Outcome State Fault Refusal :=
  .next (s.opsh t.val 3 rd ra sh fun a => a.rotateRight sh.toNat)

/-- SLLIW: left shift of bits [31:0]; imm[5] = 1 is an illegal word (R78). -/
def execSlliw (t : Thr) (rd ra : GReg) (sh : BitVec 6) (s : State) : Host.Outcome State Fault Refusal :=
  .next (s.opsh t.val 4 rd ra sh fun a => (a.setWidth 32 <<< sh.toNat).signExtend 64)

/-- SRLIW: logical right shift of bits [31:0]; imm[5] = 1 is an illegal word (R78). -/
def execSrliw (t : Thr) (rd ra : GReg) (sh : BitVec 6) (s : State) : Host.Outcome State Fault Refusal :=
  .next (s.opsh t.val 5 rd ra sh fun a => (a.setWidth 32 >>> sh.toNat).signExtend 64)

/-- SRAIW: arithmetic right shift of bits [31:0]; imm[5] = 1 is an illegal word (R78). -/
def execSraiw (t : Thr) (rd ra : GReg) (sh : BitVec 6) (s : State) : Host.Outcome State Fault Refusal :=
  .next (s.opsh t.val 6 rd ra sh fun a => ((a.setWidth 32).sshiftRight sh.toNat).signExtend 64)

end Sys2Proof.Machine
end

