-- ==== Sys2Proof/Machine/Memory.lean ====
section
/-! DEFINITION. Branches and jumps, loads and stores (R79, R80, R83, R84, R198, R199). -/

namespace Sys2Proof.Machine

/-- A B-format branch: to pc + 4 × sext(disp16) where the condition holds; it counts as a completed branch (R83, R101). -/
def State.branch (s : State) (t op : Nat) (ra rb : GReg) (disp : BitVec 16) (c : Word → Word → Bool) : State :=
  s.ais t (info (encI op ra.val rb.val disp.toNat) 0 false (decide (0 < disp.toInt))) fun s =>
    let x := s.thr t
    .ok (x.pc + (if c (x.gr ra) (x.gr rb) then sext16 disp <<< 2 else 4)) (s.setThr t (x.pmc 0x03))

/-- The target of J and JAL: pc + 4 × sext(disp26) (R84). -/
def jumpTarget (pc : Word) (disp : BitVec 26) : Word := pc + (disp.signExtend 64 <<< 2)

/-- BEQ: branch if equal (R83). -/
def execBeq (t : Thr) (ra rb : GReg) (disp : BitVec 16) (s : State) : Host.Outcome State Fault Refusal :=
  .next (s.branch t.val 0x28 ra rb disp fun a b => a == b)

/-- BNE: branch if not equal (R83). -/
def execBne (t : Thr) (ra rb : GReg) (disp : BitVec 16) (s : State) : Host.Outcome State Fault Refusal :=
  .next (s.branch t.val 0x29 ra rb disp fun a b => a != b)

/-- BLT: branch if signed less than (R83). -/
def execBlt (t : Thr) (ra rb : GReg) (disp : BitVec 16) (s : State) : Host.Outcome State Fault Refusal :=
  .next (s.branch t.val 0x2A ra rb disp fun a b => a.slt b)

/-- BGE: branch if signed greater or equal (R83). -/
def execBge (t : Thr) (ra rb : GReg) (disp : BitVec 16) (s : State) : Host.Outcome State Fault Refusal :=
  .next (s.branch t.val 0x2B ra rb disp fun a b => !a.slt b)

/-- BLTU: branch if unsigned less than (R83). -/
def execBltu (t : Thr) (ra rb : GReg) (disp : BitVec 16) (s : State) : Host.Outcome State Fault Refusal :=
  .next (s.branch t.val 0x2C ra rb disp fun a b => a.ult b)

/-- BGEU: branch if unsigned greater or equal (R83). -/
def execBgeu (t : Thr) (ra rb : GReg) (disp : BitVec 16) (s : State) : Host.Outcome State Fault Refusal :=
  .next (s.branch t.val 0x2D ra rb disp fun a b => !a.ult b)

/-- J: jump to pc + 4 × sext(disp26) (R84). -/
def execJ (t : Thr) (disp : BitVec 26) (s : State) : Host.Outcome State Fault Refusal :=
  .next (s.ais t.val (info (encJ 0x2E disp.toNat)) fun s =>
    let x := s.thr t.val
    .ok (jumpTarget x.pc disp) (s.setThr t.val (x.pmc 0x03)))

/-- JAL: pc + 4 to g31, then as J (R84). -/
def execJal (t : Thr) (disp : BitVec 26) (s : State) : Host.Outcome State Fault Refusal :=
  .next (s.ais t.val (info (encJ 0x2F disp.toNat)) fun s =>
    let x := s.thr t.val
    .ok (jumpTarget x.pc disp) (s.setThr t.val ((x.setGr 31 (x.pc + 4)).pmc 0x03)))

/-- JALR: pc + 4 to rd and a jump to the address in ra, which must be a multiple of 4 (R84). -/
def execJalr (t : Thr) (rd ra : GReg) (s : State) : Host.Outcome State Fault Refusal :=
  .next (s.ais t.val (info (encOpr false rd.val ra.val 0 0x038)) fun s =>
    let x := s.thr t.val
    let a := x.gr ra
    if a.toNat % 4 ≠ 0 then .exc { code := 0x03, addr := some a } s
    else .ok a (s.setThr t.val ((x.setGr rd (x.pc + 4)).pmc 0x03)))

/-- LB: load 1 byte, sign-extended (R79). -/
def execLb (t : Thr) (rd ra : GReg) (disp : BitVec 16) (s : State) : Host.Outcome State Fault Refusal :=
  .next (s.loadInsn t.val 0x10 rd.val ra disp 1 false fun x b => x.setGr rd (sextW 8 (fromLe b)))

/-- LBU: load 1 byte, zero-extended (R79). -/
def execLbu (t : Thr) (rd ra : GReg) (disp : BitVec 16) (s : State) : Host.Outcome State Fault Refusal :=
  .next (s.loadInsn t.val 0x11 rd.val ra disp 1 false fun x b => x.setGr rd (BitVec.ofNat 64 (fromLe b)))

/-- LH: load 2 bytes, sign-extended (R79). -/
def execLh (t : Thr) (rd ra : GReg) (disp : BitVec 16) (s : State) : Host.Outcome State Fault Refusal :=
  .next (s.loadInsn t.val 0x12 rd.val ra disp 2 false fun x b => x.setGr rd (sextW 16 (fromLe b)))

/-- LHU: load 2 bytes, zero-extended (R79). -/
def execLhu (t : Thr) (rd ra : GReg) (disp : BitVec 16) (s : State) : Host.Outcome State Fault Refusal :=
  .next (s.loadInsn t.val 0x13 rd.val ra disp 2 false fun x b => x.setGr rd (BitVec.ofNat 64 (fromLe b)))

/-- LW: load 4 bytes, sign-extended (R79). -/
def execLw (t : Thr) (rd ra : GReg) (disp : BitVec 16) (s : State) : Host.Outcome State Fault Refusal :=
  .next (s.loadInsn t.val 0x14 rd.val ra disp 4 false fun x b => x.setGr rd (sextW 32 (fromLe b)))

/-- LWU: load 4 bytes, zero-extended (R79). -/
def execLwu (t : Thr) (rd ra : GReg) (disp : BitVec 16) (s : State) : Host.Outcome State Fault Refusal :=
  .next (s.loadInsn t.val 0x15 rd.val ra disp 4 false fun x b => x.setGr rd (BitVec.ofNat 64 (fromLe b)))

/-- LD: load 8 bytes (R79). -/
def execLd (t : Thr) (rd ra : GReg) (disp : BitVec 16) (s : State) : Host.Outcome State Fault Refusal :=
  .next (s.loadInsn t.val 0x16 rd.val ra disp 8 false fun x b => x.setGr rd (BitVec.ofNat 64 (fromLe b)))

/-- LDQ: load a general register pair; rd is even (R79). -/
def execLdq (t : Thr) (rd ra : GReg) (disp : BitVec 16) (s : State) : Host.Outcome State Fault Refusal :=
  .next (s.loadInsn t.val 0x17 rd.val ra disp 16 false fun x b => x.setPair rd b)

/-- SB: store 1 byte (R79). -/
def execSb (t : Thr) (rs ra : GReg) (disp : BitVec 16) (s : State) : Host.Outcome State Fault Refusal :=
  .next (s.storeInsn t.val 0x18 rs.val ra disp false fun x => leBytes 1 (x.gr rs).toNat)

/-- SH: store 2 bytes (R79). -/
def execSh (t : Thr) (rs ra : GReg) (disp : BitVec 16) (s : State) : Host.Outcome State Fault Refusal :=
  .next (s.storeInsn t.val 0x19 rs.val ra disp false fun x => leBytes 2 (x.gr rs).toNat)

/-- SW: store 4 bytes (R79). -/
def execSw (t : Thr) (rs ra : GReg) (disp : BitVec 16) (s : State) : Host.Outcome State Fault Refusal :=
  .next (s.storeInsn t.val 0x1A rs.val ra disp false fun x => leBytes 4 (x.gr rs).toNat)

/-- SD: store 8 bytes (R79). -/
def execSd (t : Thr) (rs ra : GReg) (disp : BitVec 16) (s : State) : Host.Outcome State Fault Refusal :=
  .next (s.storeInsn t.val 0x1B rs.val ra disp false fun x => leBytes 8 (x.gr rs).toNat)

/-- STQ: store a general register pair; rs is even (R79). -/
def execStq (t : Thr) (rs ra : GReg) (disp : BitVec 16) (s : State) : Host.Outcome State Fault Refusal :=
  .next (s.storeInsn t.val 0x1C rs.val ra disp false fun x => x.pair rs)

/-- FLW: load 4 bytes into a floating-point register, bits [63:32] zero (R79). -/
def execFlw (t : Thr) (fd : FReg) (ra : GReg) (disp : BitVec 16) (s : State) : Host.Outcome State Fault Refusal :=
  .next (s.loadInsn t.val 0x1D fd.val ra disp 4 true fun x b => x.setFr fd.val (BitVec.ofNat 64 (fromLe b)))

/-- FLD: load 8 bytes into a floating-point register (R79). -/
def execFld (t : Thr) (fd : FReg) (ra : GReg) (disp : BitVec 16) (s : State) : Host.Outcome State Fault Refusal :=
  .next (s.loadInsn t.val 0x1E fd.val ra disp 8 true fun x b => x.setFr fd.val (BitVec.ofNat 64 (fromLe b)))

/-- FLQ: load a floating-point register pair; fd is even (R79). -/
def execFlq (t : Thr) (fd : FReg) (ra : GReg) (disp : BitVec 16) (s : State) : Host.Outcome State Fault Refusal :=
  .next (s.loadInsn t.val 0x1F fd.val ra disp 16 true fun x b => x.setFpair fd b)

/-- FSW: store 4 bytes of a floating-point register (R79). -/
def execFsw (t : Thr) (fs : FReg) (ra : GReg) (disp : BitVec 16) (s : State) : Host.Outcome State Fault Refusal :=
  .next (s.storeInsn t.val 0x20 fs.val ra disp true fun x => leBytes 4 (x.fr fs.val).toNat)

/-- FSD: store 8 bytes of a floating-point register (R79). -/
def execFsd (t : Thr) (fs : FReg) (ra : GReg) (disp : BitVec 16) (s : State) : Host.Outcome State Fault Refusal :=
  .next (s.storeInsn t.val 0x21 fs.val ra disp true fun x => leBytes 8 (x.fr fs.val).toNat)

/-- FSQ: store a floating-point register pair; fs is even (R79). -/
def execFsq (t : Thr) (fs : FReg) (ra : GReg) (disp : BitVec 16) (s : State) : Host.Outcome State Fault Refusal :=
  .next (s.storeInsn t.val 0x22 fs.val ra disp true fun x => x.fpair fs)

end Sys2Proof.Machine
end

