-- ==== Sys2Proof/Machine/Package.lean ====
section
/-! DEFINITION. The commands of the package: power, clocks, temperature, boundary scan and the telemetry port (R493 to R513). -/

namespace Sys2Proof.Machine

/-! Power-up and power-down (R63, R493 to R496, R502). -/

/-- The targets of the rails in mV; rails 0 to 3 at their boot value (R493). -/
def railNominal (i : Nat) : Nat := (([850, 850, 850, 850, 850, 800, 900, 1200, 850, 1800] : List Nat)[i]?).getD 0

/-- Every reference input, by number: SYSREF, LREF0, LREF1, GREF, FOSC, FOSC_ALT (R500). -/
def refField (i : Nat) : Fld :=
  (([CLK_REF_SYSOK, CLK_REF_LREF0OK, CLK_REF_LREF1OK, CLK_REF_GREFOK, CLK_REF_FOSCOK, CLK_REF_FALTOK] : List Fld)[i]?).getD CLK_REF_SYSOK

/-- PWROK_ASSERT: PWROK rises with every rail in regulation and every reference running; MODID is sampled (R63, R495, R502). -/
def execPwrokAssert (strap : Module) (s : State) : Host.Outcome State Fault Refusal :=
  .next (
    if s.pwrok then s
    else
      let s := { s with pwrok := true, uptime := 0 }.setF GRV_GROUP GRV_GROUP_SELF strap.val
      let s := (List.range 6).foldl (fun s i => s.setF CLK_REF (refField i) 1) s
      (List.range 10).foldl (fun s i =>
        (s.setF (PWR_RAIL i) PWR_RAIL_VSET (railNominal i)).setF (PWR_RAIL i) PWR_RAIL_AVS (b2n (decide (i < 4)))) s)

/-- PWROK_DEASSERT: low for 100 ns or longer is a power-down, after which only the fuses keep their content (R53, R496). -/
def execPwrokDeassert (longPulse : Bool) (s : State) : Host.Outcome State Fault Refusal :=
  .next (
    if longPulse = false ∨ s.pwrok = false then s
    else
      ({ State.reset with pending := s.pending, fresh := s.fresh, rootHash := s.rootHash } : State).setReg SVP_IDENT (s.reg SVP_IDENT))

/-! Records and sensors. -/

/-- The DETAIL of a thermal or power record: event, index, value (R511). -/
def powerDetail (ev idx v : Nat) : List Byte := [BitVec.ofNat 8 ev, BitVec.ofNat 8 idx] ++ leBytes 2 v

/-- A corrected-class thermal or power record (R511). -/
def State.powerRec (s : State) (ev idx v : Nat) : State := s.logC 0x15 0 0x11 (powerDetail ev idx v)

/-- A signed byte in degrees Celsius. -/
def degC (b : Nat) : Int := sextNat 8 b

/-- Tj reaches a threshold register value. -/
def tjAtLeast (tj : Nat) (t : Nat) : Bool := decide ((t : Int) ≤ degC tj)

/-- One reduction: counted, and as a thermal one where temperature is its reason (R508, R509). -/
def State.reduction (s : State) (thermal : Bool) : State :=
  let s := s.incF PWR_STAT PWR_STAT_THROT
  if thermal then s.incF THM_STAT THM_STAT_THROT else s

/-- Tj as the hottest sensor reads it: the emergency cap at 95 °C, and THERMTRIP# with trigger 8 at 105 °C (R509). -/
def State.junction (s : State) (tj idx : Nat) : State :=
  let s := (s.setF THM_STAT THM_STAT_TJ tj).setF THM_STAT THM_STAT_HOT idx
  let hot := tjAtLeast tj 95
  let rises := hot && !s.pwr.hot
  let s : State := { s with pwr := { s.pwr with hot := hot } }
  let s := if rises then (s.logC 0x17 0 0x11 (powerDetail 8 idx (tj % 256))).reduction true else s
  let s := s.steerAll
  if tjAtLeast tj 105 && !s.thermtrip then ({ s with thermtrip := true } : State).trigger 8 else s

/-! The I3C target (R506). -/

/-- STATUS of the I3C map. -/
def State.i3cStatus (s : State) : Nat :=
  let caps := s.pwr.throttling.isSome || s.pwr.prochot || s.pwr.hot || s.pwr.excess != []
  b2n (s.wind != 0) + 2 * b2n caps + 4 * b2n s.thermtrip + 8 * b2n s.fst.lost

/-- Tj has reached TTHROT. -/
def State.tjAbove (s : State) : Bool := tjAtLeast (s.getF THM_STAT THM_STAT_TJ) (s.actF THM_LIMIT THM_LIMIT_TTHROT)

/-- An in-band interrupt carrying STATUS is raised when STATUS changes or Tj crosses TTHROT, where the controller has enabled it. -/
def State.i3cSettle (s : State) : State :=
  let st := s.i3cStatus
  let ab := s.tjAbove
  let x := s.i3c
  if s.pwrok = false ∨ (st = x.status ∧ ab = x.above) then s
  else { s with i3c := { x with
    status := st, above := ab
    due := if x.ibi && x.addr.isSome then some st else x.due } }

/-- A byte of the I3C map. -/
def State.i3cAt (s : State) (o : Nat) : Byte :=
  let v : Nat :=
    if o = 0 then s.getF THM_STAT THM_STAT_TJ
    else if o = 1 then s.getF THM_STAT THM_STAT_HOT
    else if o < 4 then s.getF PWR_STAT PWR_STAT_PKGW / 256 ^ (o - 2)
    else if o < 8 then s.eff (o - 4)
    else if o = 8 then s.i3cStatus
    else if o < 0x10 then 0
    else if o < 0x30 then s.getF (THM_SENS (o - 0x10)) THM_SENS_TEMP
    else if o < 0x44 then s.getF (PWR_RAIL ((o - 0x30) / 2)) PWR_RAIL_VOUT / 256 ^ (o % 2)
    else if o < 0x58 then s.getF (PWR_RAIL ((o - 0x44) / 2)) PWR_RAIL_IOUT / 256 ^ (o % 2)
    else if o < 0x5C then s.rseq / 256 ^ (o - 0x58)
    else 0
  BitVec.ofNat 8 v

/-- Change the I3C target. -/
def State.modI3c (s : State) (f : I3cSt → I3cSt) : State := if s.pwrok then { s with i3c := f s.i3c } else s

/-- SETDASA: the static address 0x30 + module takes a dynamic address. -/
def execSetdasa (addr : BitVec 7) (s : State) : Host.Outcome State Fault Refusal :=
  .next (s.modI3c fun x => { x with addr := match x.addr with | some a => some a | none => some addr.toNat })

/-- ENTDAA: a target without a dynamic address takes the one assigned. -/
def execEntdaa (addr : BitVec 7) (s : State) : Host.Outcome State Fault Refusal :=
  .next (s.modI3c fun x => { x with addr := match x.addr with | some a => some a | none => some addr.toNat })

/-- RSTDAA: the dynamic address is given up. -/
def execRstdaa (s : State) : Host.Outcome State Fault Refusal := .next (s.modI3c fun x => { x with addr := none })

/-- ENEC: bit 0 enables in-band interrupts. -/
def execEnec (ev : BitVec 8) (s : State) : Host.Outcome State Fault Refusal :=
  .next (s.modI3c fun x => { x with ibi := x.ibi || ev.getLsbD 0 })

/-- DISEC: bit 0 disables in-band interrupts. -/
def execDisec (ev : BitVec 8) (s : State) : Host.Outcome State Fault Refusal :=
  .next (s.modI3c fun x => { x with ibi := x.ibi && !ev.getLsbD 0 })

/-- A direct read command: the target answers bytes that this spec leaves to MIPI and the maker; without a dynamic address it does not answer. (PRESUMED, notes/assumptions/29.md.) -/
def State.i3cGet (s : State) (k n : Nat) : State :=
  if s.pwrok && s.i3c.addr.isSome then { s with outAns := some (0, (List.range n).map (Config.i3cByte k)) } else s

/-- GETPID: the 6-byte provisioned ID. -/
def execGetpid (s : State) : Host.Outcome State Fault Refusal := .next (s.i3cGet 0 6)

/-- GETBCR. -/
def execGetbcr (s : State) : Host.Outcome State Fault Refusal := .next (s.i3cGet 1 1)

/-- GETDCR. -/
def execGetdcr (s : State) : Host.Outcome State Fault Refusal := .next (s.i3cGet 2 1)

/-- GETSTATUS. -/
def execGetstatus (s : State) : Host.Outcome State Fault Refusal := .next (s.i3cGet 3 2)

/-- GETMWL. -/
def execGetmwl (s : State) : Host.Outcome State Fault Refusal := .next (s.i3cGet 4 2)

/-- GETMRL: a length, and the payload size of in-band interrupts. -/
def execGetmrl (s : State) : Host.Outcome State Fault Refusal := .next (s.i3cGet 5 3)

/-- I3C_PRIVATE_WRITE: the first byte is the offset; later bytes are discarded. -/
def execI3cPrivateWrite (bytes : List Byte) (s : State) : Host.Outcome State Fault Refusal :=
  .next (match bytes with
    | [] => s
    | b :: _ => s.modI3c fun x => if x.addr.isSome then { x with off := b.toNat } else x)

/-- I3C_PRIVATE_READ: bytes from the offset upward, all of one moment; zero past 0xFF. -/
def execI3cPrivateRead (len : Nat) (s : State) : Host.Outcome State Fault Refusal :=
  .next (
    if s.pwrok && s.i3c.addr.isSome then { s with outAns := some (0, (List.range len).map fun i => s.i3cAt (s.i3c.off + i)) }
    else s)

/-! The controller's evaluation (R508). -/

/-- The evaluations in the averaging window of PL1. -/
def State.window (s : State) : Nat := max 1 (100 * s.actF PWR_LIMIT PWR_LIMIT_TW)

/-- The power average over TW exceeds `pc` per cent of PL1, and reaches it for `ge`. -/
def State.avgOver (s : State) (pc : Nat) (ge : Bool) : Bool :=
  let l := s.pwr.power.take s.window
  let a := l.foldl (· + ·) 0 * 100
  let b := s.pl1 * 10 * l.length * pc
  if ge then decide (b ≤ a) else decide (b < a)

/-- Throttling starts, or goes on for another reason; its start is logged (R508, R511). -/
def State.throttle (s : State) (why tj w idx : Nat) : State :=
  let starts := s.pwr.throttling.isNone
  let s : State := { s with pwr := { s.pwr with throttling := some why, good := 0 } }
  if starts then s.powerRec 1 (if why = 2 then idx else 0) (if why = 2 then tj else w) else s

/-- Reduce: the boost first, then the common cap by 100 MHz down to 0.8 GHz. -/
def State.reduce (s : State) (why tj w idx : Nat) : State :=
  let s := (s.throttle why tj w idx).reduction (why == 2)
  let boosts := !s.pwr.boostOff && (List.range 4).any fun st => s.freqOf st < s.fullTarget st
  if boosts then { s with pwr := { s.pwr with boostOff := true } }
  else
    let c := (s.pwr.cap.getD s.topFreq) - 4
    { s with pwr := { s.pwr with cap := some (max 32 c) } }

/-- Raise: the cap by 100 MHz until it is lifted, which ends throttling; ten such evaluations with the cap lifted restore the boost. -/
def State.raise (s : State) (tj w idx : Nat) : State :=
  let cap := match s.pwr.cap with
    | some c => if s.topFreq ≤ c + 4 then none else some (c + 4)
    | none => none
  let s : State := { s with pwr := { s.pwr with cap := cap } }
  if cap.isSome then { s with pwr := { s.pwr with good := 0 } }
  else
    let s := match s.pwr.throttling with
      | some why => (s.powerRec 2 (if why = 2 then idx else 0) (if why = 2 then tj else w))
      | none => s
    let n := s.pwr.good + 1
    { s with pwr := { s.pwr with throttling := none, good := min n 10, boostOff := s.pwr.boostOff && decide (n < 10) } }

/-- The decision of one evaluation. (DEDUCED, notes/assumptions/28.md.) -/
def State.control (s : State) (tj w idx : Nat) : State :=
  let tt := s.actF THM_LIMIT THM_LIMIT_TTHROT
  let hy := s.actF THM_LIMIT THM_LIMIT_HYST
  let power := s.avgOver 100 false || decide (6200 < w)
  if power || tjAtLeast tj tt then s.reduce (if power then 1 else 2) tj w idx
  else if decide (degC tj ≤ (tt : Int) - (hy : Int)) && !s.avgOver 95 true && decide (w * 100 < 6200 * 95) then s.raise tj w idx
  else { s with pwr := { s.pwr with good := 0 } }

/-- The hottest of the sensors, the lowest-numbered of equals: value and index. -/
def hottest (l : List (BitVec 8)) : Nat × Nat :=
  (List.range l.length).foldl (fun a k =>
    let v := ((l[k]?).getD 0).toNat
    if degC a.1 < degC v then (v, k) else a) (((l.head?).getD 0).toNat, 0)

/-- The sensors' readings enter THM_SENS. -/
def State.setSensors (s : State) (l : List (BitVec 8)) : State :=
  (List.range 32).foldl (fun s k =>
    let v := ((l[k]?).getD 0).toNat
    let s := s.setF (THM_SENS k) THM_SENS_TEMP v
    if degC (s.getF (THM_SENS k) THM_SENS_MAX) < degC v then s.setF (THM_SENS k) THM_SENS_MAX v else s) s

/-- THM_LIFE follows the seconds since PWROK rose and the average Tj (R513). -/
def State.setLife (s : State) (secs avg tj : Nat) : State :=
  let d := secs - s.getF THM_LIFE THM_LIFE_SECONDS
  let s := (s.setF THM_LIFE THM_LIFE_SECONDS (max secs (s.getF THM_LIFE THM_LIFE_SECONDS))).setF THM_LIFE THM_LIFE_TJAVG avg
  if tjAtLeast tj 96 then s.incF THM_LIFE THM_LIFE_OVER95 d else s

/-- CONTROLLER_EVALUATION: every 100 µs the sensors are read and the limits evaluated (R508). -/
def execControllerEvaluation (tele : Telemetry) (s : State) : Host.Outcome State Fault Refusal :=
  .next (
    if s.pwrok = false ∨ tele.temps.length ≠ 32 then s
    else
      let (tj, idx) := hottest tele.temps
      let w := tele.pkgW.toNat
      let s := (s.setSensors tele.temps).setLife tele.seconds.toNat tele.tjAvg.toNat tj
      let s := s.setF PWR_STAT PWR_STAT_PKGW w
      let s := if s.getF PWR_STAT PWR_STAT_PEAKW < w then s.setF PWR_STAT PWR_STAT_PEAKW w else s
      let s : State := { s with pwr := { s.pwr with power := (w :: s.pwr.power).take s.window } }
      let s := if s.standClocks then (List.range 4).foldl State.parkVolt (s.control tj w idx) else s
      (s.junction tj idx).i3cSettle)

/-! Regulators (R494, R497, R498). -/

/-- AVS_VOLTAGE_DONE: a voltage write succeeds; a waiting raise proceeds, a hold ends (R498). -/
def execAvsVoltageDone (st : Stand) (s : State) : Host.Outcome State Fault Refusal :=
  .next (
    if s.standClocks = false then s
    else
      let s : State := { s with pwr := { s.pwr with hold := setBit s.pwr.hold st.val false } }
      match Tab.get (fun _ => none) s.pwr.raise st.val with
      | some f => (s.setEff st.val (min f (s.wanted st.val))).steer st.val
      | none => s.steer st.val)

/-- AVS_ERROR: the Stand is held at its frequency, and the error is logged (R498, R511). -/
def execAvsError (st : Stand) (s : State) : Host.Outcome State Fault Refusal :=
  .next (
    if s.pwrok = false then s
    else
      let s : State := { s with pwr := { s.pwr with hold := setBit s.pwr.hold st.val true } }
      (s.setRaise st.val none).powerRec 5 st.val 0)

/-- PMBUS_POLL: a regulator answers, or stays silent; the third silent poll marks it STALE (R497). -/
def execPmbusPoll (rail : Fin 10) (ans : RailAnswer) (s : State) : Host.Outcome State Fault Refusal :=
  let r := PWR_RAIL rail.val
  .next (
    if s.pwrok = false then s
    else match ans with
      | .reading mv dA _ =>
        let s : State := { s with pwr := { s.pwr with miss := Tab.set (fun _ => 0) s.pwr.miss rail.val 0 } }
        ((s.setF r PWR_RAIL_VOUT mv.toNat).setF r PWR_RAIL_IOUT dA.toNat).setF r PWR_RAIL_STALE 0
      | .silent =>
        let n := min (Tab.get (fun _ => 0) s.pwr.miss rail.val + 1) 3
        let s : State := { s with pwr := { s.pwr with miss := Tab.set (fun _ => 0) s.pwr.miss rail.val n } }
        if n = 3 ∧ s.getF r PWR_RAIL_STALE = 0 then (s.setF r PWR_RAIL_STALE 1).powerRec 5 rail.val 0 else s)

/-- PMB_ALERT: STATUS_WORD is read (R497); the spec gives the module no action on its value. -/
def execPmbAlert (_rail : Fin 10) (_status : BitVec 16) (s : State) : Host.Outcome State Fault Refusal := .next s

/-- The tolerance of a rail in per cent (R493). -/
def railTol (i : Nat) : Nat := if i = 6 then 2 else if i = 9 then 5 else 3

/-- The absolute maximum of a rail in mV (R494). -/
def railMax (i : Nat) : Nat := if i = 7 then 1350 else if i = 9 then 1980 else 1250

/-- The target of a rail: VSET for rails 0 to 3 (R494). -/
def State.railTarget (s : State) (i : Nat) : Nat := if i < 4 then s.getF (PWR_RAIL i) PWR_RAIL_VSET else railNominal i

/-- RAIL_OUT_OF_TOLERANCE: a warning beyond the tolerance, trigger 7 beyond 8 % for 2 µs (R494). Beyond the absolute maximum no behaviour is stated. (DEDUCED, notes/assumptions/64.md.) -/
def execRailOutOfTolerance (rail : Fin 10) (mv : BitVec 16) (for2us : Bool) (s : State) : Host.Outcome State Fault Refusal :=
  let i := rail.val
  let v := mv.toNat
  let t := s.railTarget i
  let d := if t ≤ v then v - t else t - v
  if s.pwrok = false then .next s
  else if railMax i < v then .fault .beyondRatings
  else
    .next (
      let s :=
        if railTol i * t < d * 100 then
          (s.setF PWR_STAT PWR_STAT_RAILWARN (setBit (s.getF PWR_STAT PWR_STAT_RAILWARN) i true)).powerRec 4 i v
        else s
      if for2us = true ∧ 8 * t < d * 100 then s.trigger 7 else s)

/-! Emergency caps (R509). -/

/-- PROCHOT_ASSERT: every Stand is capped at 1.6 GHz. -/
def execProchotAssert (s : State) : Host.Outcome State Fault Refusal :=
  .next (
    if s.pwrok = false ∨ s.pwr.prochot = true then s
    else (((({ s with pwr := { s.pwr with prochot := true } } : State).powerRec 3 0 64).reduction false).steerAll).i3cSettle)

/-- PROCHOT_RELEASE: the cap lifts 100 µs after the signal rose. -/
def execProchotRelease (s : State) : Host.Outcome State Fault Refusal :=
  .next (
    if s.pwr.prochot = false then s
    else ((({ s with pwr := { s.pwr with prochot := false } } : State).steerAll)).i3cSettle)

/-- STAND_OVERCURRENT: a current above 140 A halves the Stand's frequency; the cap ends with the current. -/
def execStandOvercurrent (st : Stand) (high : Bool) (s : State) : Host.Outcome State Fault Refusal :=
  let set (s : State) (v : Option Nat) : State := { s with pwr := { s.pwr with excess := Tab.set (fun _ => none) s.pwr.excess st.val v } }
  let had := (Tab.get (fun _ => none) s.pwr.excess st.val).isSome
  .next (
    if s.standClocks = false ∨ high = had then s
    else if high then
      let f := s.eff st.val / 2
      ((((set s (some f)).powerRec 1 st.val f).reduction false).steerAll).i3cSettle
    else
      let s := (set s none).steerAll
      (s.powerRec 2 st.val (s.eff st.val)).i3cSettle)

/-- TJ_EMERGENCY: Tj passes 95 °C upwards or downwards. -/
def execTjEmergency (hot : Bool) (tj : BitVec 8) (idx : Fin 32) (s : State) : Host.Outcome State Fault Refusal :=
  .next (if s.pwrok = false ∨ hot ≠ tjAtLeast tj.toNat 95 then s else (s.junction tj.toNat idx.val).i3cSettle)

/-- THERMTRIP: Tj reaches 105 °C: trigger 8, and THERMTRIP# until PWROK falls. -/
def execThermtrip (tj : BitVec 8) (idx : Fin 32) (s : State) : Host.Outcome State Fault Refusal :=
  .next (if s.pwrok = false ∨ tjAtLeast tj.toNat 105 = false then s else (s.junction tj.toNat idx.val).i3cSettle)

/-! Reference clocks (R500). -/

/-- LREF0 or LREF1 is lost: every Root link and port half it serves goes down (R22, R500). (DEDUCED, notes/assumptions/73.md.) -/
def State.lrefLost (s : State) (k : Nat) : State :=
  let s := ((List.range 8).map fun i => 8 * k + i).foldl (fun s n =>
    let st := s.rtlState n
    if st = 0 ∨ st = 4 ∨ st = 5 then s else s.failLink n 8 none) s
  [2 * k, 2 * k + 1].foldl (fun s g => (List.range 8).foldl (fun s ph => if s.halfUp g ph then s.halfDrops g ph else s) s) s

/-- FOSC or FOSC_ALT is lost: the domains switch to the other, or trigger 6 is raised. -/
def State.foscLost (s : State) (alt : Bool) : State :=
  if alt then
    if s.getF CLK_REF CLK_REF_ONALT = 1 ∨ s.getF CLK_REF CLK_REF_FOSCOK = 0 then s.trigger 6 else s
  else if s.getF CLK_REF CLK_REF_FALTOK = 0 then s.trigger 6
  else if s.getF CLK_REF CLK_REF_ONALT = 1 then s
  else (s.setF CLK_REF CLK_REF_ONALT 1).powerRec 7 4 0

/-- REFERENCE_LOSS: the loss is counted and logged, and the device acts (R500). -/
def execReferenceLoss (i : Fin 6) (s : State) : Host.Outcome State Fault Refusal :=
  let f := refField i.val
  .next (
    if s.pwrok = false ∨ s.getF CLK_REF f = 0 then s
    else
      let s := (s.setF CLK_REF f 0).incF CLK_REF CLK_REF_LOSS
      let s := s.log {
        block := 0x15, cls := if i.val = 1 ∨ i.val = 2 ∨ i.val = 3 then 2 else 1, typ := 0x11, detail := powerDetail 6 i.val 0 }
      if i.val = 0 then s.trigger 6
      else if i.val < 3 then s.lrefLost (i.val - 1)
      else if i.val = 3 then ((List.range 7).filter fun p => s.gpState p == 1 || s.gpUp p).foldl State.portLost s
      else s.foscLost (i.val == 5))

/-- REFERENCE_RETURN: a lost input is back; ONALT stays until the next power-up (R500). -/
def execReferenceReturn (i : Fin 6) (s : State) : Host.Outcome State Fault Refusal :=
  .next (
    if s.pwrok = false ∨ s.getF CLK_REF (refField i.val) = 1 then s
    else (s.setF CLK_REF (refField i.val) 1).powerRec 9 i.val 0)

/-! Boundary scan (R505). -/

/-- The STEPs at which EXTEST, CLAMP and HIGHZ take effect. -/
def State.scanStep (s : State) : Bool := s.startStep == 0 || s.startStep == 1 || s.startStep == 2 || s.startStep == 15

/-- Boundary scan begins: self-test of the spares pauses (R457). -/
def State.startScan (s : State) : State := if s.scan then s else { s.openWindow (fun _ => true) with scan := true }

/-- An instruction that drives the pins: at other STEPs it acts as BYPASS and is logged. -/
def State.pinInstr (s : State) (i : JtagIr) : State :=
  let s := s.startScan
  if s.scanStep then { s with jtag := i } else ({ s with jtag := .bypass } : State).logC 0x15 0 0x0D

/-- BYPASS, and every code that names no other instruction. -/
def execBypass (_code : BitVec 8) (s : State) : Host.Outcome State Fault Refusal := .next { s with jtag := .bypass }

/-- IDCODE: reads 0x1647_256B. -/
def execIdcode (s : State) : Host.Outcome State Fault Refusal :=
  .next { s with jtag := .idcode, outAns := some (0, leBytes 4 0x1647256B) }

/-- SAMPLE/PRELOAD. -/
def execSamplePreload (s : State) : Host.Outcome State Fault Refusal := .next { s.startScan with jtag := .sample }

/-- EXTEST. -/
def execExtest (s : State) : Host.Outcome State Fault Refusal := .next (s.pinInstr .extest)

/-- CLAMP. -/
def execClamp (s : State) : Host.Outcome State Fault Refusal := .next (s.pinInstr .clamp)

/-- HIGHZ. -/
def execHighz (s : State) : Host.Outcome State Fault Refusal := .next (s.pinInstr .highz)

/-- TEST_LOGIC_RESET: IDCODE is selected, boundary scan ends. -/
def execTestLogicReset (s : State) : Host.Outcome State Fault Refusal := .next { s with jtag := .idcode, scan := false }

end Sys2Proof.Machine
end

