-- ==== Sys2Proof/Machine/RegRows.lean ====
section
/-! DEFINITION. The commands that are accesses to registers (R5 to R13, R25, R123, R221, R249). -/

namespace Sys2Proof.Machine

/-- REGISTER_WRITE: a write acts by access code and by the register's own rules (R6 to R8). -/
def execRegisterWrite (org : Origin) (blk inst off size : Nat) (val : Word) (s : State) : Host.Outcome State Fault Refusal :=
  .next (s.writeAs org blk inst off size val)

/-- RC_FIELD_READ: a read returns the value and clears the rc fields it returned whole (R6, R8). -/
def execRcFieldRead (org : Origin) (blk inst off size : Nat) (s : State) : Host.Outcome State Fault Refusal :=
  .next (s.readAs org blk inst off size)

/-- UNCLOCKED_ACCESS_COMPLETE: an access to a domain without a clock or in reset ends with all ones or is discarded, and is logged (R25). -/
def execUnclockedAccessComplete (org : Origin) (blk inst off : Nat) (wr : Bool) (s : State) : Host.Outcome State Fault Refusal :=
  .next (
    if s.domainUp blk inst then s
    else if wr then s.writeAs org blk inst off 8 0
    else s.readAs org blk inst off 8)

/-- MYC_IPI: a write of MYC_IPI (R123). -/
def execMycIpi (org : Origin) (val : Word) (s : State) : Host.Outcome State Fault Refusal :=
  .next (s.writeAs org 0x06 0 0x4000 8 val)

/-- WAY_REENABLE: a write of L2C_WAYST or L3C_WAYST (R220, R221). -/
def execWayReenable (org : Origin) (l3 : Bool) (inst : Pcore) (val : Word) (s : State) : Host.Outcome State Fault Refusal :=
  .next (s.writeAs org (if l3 then 0x05 else 0x04) inst.val 0x008 8 val)

/-- CANOPY_WAY_REENABLE: a write of CNP_WAYST (R249). -/
def execCanopyWayReenable (org : Origin) (bank : Fin 16) (val : Word) (s : State) : Host.Outcome State Fault Refusal :=
  .next (s.writeAs org 0x07 0 (0x100 + 8 * bank.val) 8 val)

/-- CANOPY_WINDOW_END: the counts of every Canopy bank restart (R249). -/
def execCanopyWindowEnd (s : State) : Host.Outcome State Fault Refusal :=
  .next ((List.range 16).foldl (fun s b => s.setReg (CNP_CECNT b) 0) s)

end Sys2Proof.Machine
end

