-- ==== Sys2Proof/Machine/Retry.lean ====
section
/-! DEFINITION. Instruction retry: detection, the return to the Heartwood image, and the count that exhausts a core (R205, R439 to R444). -/

namespace Sys2Proof.Machine

/-- A thread returns to its checkpoint: the instruction in progress is discarded, a waiting SYNC, DRAIN or WAIT executes again, the values of its device loads stay, and the reservation is lost (R129, R205). -/
def Thread.rollBack (x : Thread) : Thread :=
  { x with
    wait := (match x.wait with | .inval b m => .inval b m | _ => .none)
    resv := none, defer := 0, retries := x.retries + 1 }

/-- The record of a retry (R440, R460). -/
def State.retryRec (s : State) (t check n : Nat) : RecIn where
  block := 0x02
  inst := s.pcore t
  typ := 0x06
  part := some (s.part t)
  thread := some t
  detail := [BitVec.ofNat 8 check, BitVec.ofNat 8 n] ++ List.replicate 6 0 ++ leBytes 8 (s.thr t).pc.toNat

/-- A retry counts for its core; at RRATE a preventive request is raised, unless one is pending (R444). -/
def State.countRetry (s : State) (c : Nat) : State :=
  let s := (s.incF (HWD_STAT c) HWD_STAT_RETRY).modCore c fun x => { x with retryWin := x.retryWin + 1 }
  let n := s.actF CPC_CTL CPC_CTL_RRATE
  if n ≠ 0 ∧ (s.core c).retryWin = n ∧ (s.tkos.any fun k => k.failing == c) = false then s.raiseReq c true else s

/-- A check fails in an instruction of a running thread: a retry, or, while the count is 3, the retries of the core are exhausted (R440 to R442). -/
def State.checkFails (s : State) (t check : Nat) : State :=
  if (s.thr t).retries < 3 then
    let s := s.modThr t Thread.rollBack
    (s.log (s.retryRec t check (s.thr t).retries)).countRetry (s.pcore t)
  else s.exhausted (s.pcore t)

/-- INSTRUCTION_RETRY: check 1 to 6 of R460 fails (R440). (DEDUCED, notes/assumptions/36.md.) -/
def execInstructionRetry (t : Thr) (check : Fin 7) (s : State) : Host.Outcome State Fault Refusal :=
  .next (if s.running t.val = true ∧ check ≠ 0 then s.checkFails t.val check.val else s)

/-- HANG_DETECT: a thread that is in no wait completes nothing for 2^24 cycles (R439). -/
def execHangDetect (t : Thr) (s : State) : Host.Outcome State Fault Refusal :=
  let x := s.thr t.val
  .next (if s.running t.val = true ∧ x.wait = .none ∧ x.devLoad = [] then s.checkFails t.val 5 else s)

/-- RETRY_WINDOW_END: the counts of preventive sparing restart (R444). (DEDUCED, notes/assumptions/74.md.) -/
def execRetryWindowEnd (s : State) : Host.Outcome State Fault Refusal :=
  .next ((List.range 72).foldl (fun s c => s.modCore c fun x => { x with retryWin := 0 }) s)

end Sys2Proof.Machine
end

