-- ==== Sys2Proof/Machine/RootRows.lean ====
section
/-! DEFINITION. The commands of the Root links: training, responses of the expanders, timeouts, holds, configuration accesses, mirror copies and patrol scrub (R264 to R278). -/

namespace Sys2Proof.Machine

/-- The FAIL code of a training step that missed its bound (R265); 0 for a number that is no such step. -/
def trainFail (step : Nat) : Nat :=
  match step with
  | 1 => 1
  | 2 => 3
  | 3 => 4
  | 4 => 2
  | 5 => 5
  | 6 => 6
  | 7 => 9
  | _ => 0

/-- A link fails during a training from its reset: logged under 0x09 with its FAIL code (R65, R265). -/
def State.failTraining (s : State) (n code : Nat) : State :=
  (s.failLink n code none).log { block := 0x09, inst := n, cls := 2, typ := 0x0C, detail := [BitVec.ofNat 8 code] }

/-- The link is in a training from its reset, not in a retrain of R275. -/
def State.training (s : State) (n : Nat) : Bool :=
  s.rtlState n == 1 && ((s.root n).back == 0 || (s.root n).back == 7)

/-- The link retrains (R275). -/
def State.retraining (s : State) (n : Nat) : Bool :=
  s.rtlState n == 1 && ((s.root n).back == 2 || (s.root n).back == 3)

/-- ROOT_LINK_TRAIN_TIMEOUT (R265). -/
def execRootLinkTrainTimeout (n : Link) (step : Fin 8) (s : State) : Host.Outcome State Fault Refusal :=
  .next (if s.training n.val = true ∧ trainFail step.val ≠ 0 then s.failTraining n.val (trainFail step.val) else s)

/-- A link that trained again after a failure or a hold: an unmirrored one is fenced; the copying source of its pair serves again; any other mirrored half receives a copy (R272, R276, R278). -/
def State.afterTraining (s : State) (n st : Nat) : State :=
  let k := n / 2
  let s := s.modRoot n fun x => { x with back := st }
  if s.pairEn k = false then s.setRtl n 7
  else if (n % 2 = 0 ∧ s.pairState k = 4) ∨ (n % 2 = 1 ∧ s.pairState k = 5) then
    (s.setRtl n st).modRoot n fun x => { x with logged := false }
  else (s.setRtl n 6).setPair k (if n % 2 = 0 then 5 else 4)

/-- ROOT_LINK_IN_SERVICE: a training or a retrain ends with the link up (R264 to R266, R275, R276); `capq` is its static capacity in units of 256 MiB. -/
def execRootLinkInService (n : Link) (x4 : Bool) (capq : Nat) (s : State) : Host.Outcome State Fault Refusal :=
  let st := if x4 then 3 else 2
  .next (
    if s.retraining n.val then s.setRtl n.val st
    else if s.training n.val then
      let s := s.setF (RTL_STAT n.val) RTL_STAT_CAPQ (min capq 8192)
      if capq < s.decoderGib n.val * 4 then s.failTraining n.val 9
      else if (s.root n.val).back = 0 then s.setRtl n.val st
      else s.afterTraining n.val st
    else s)

/-- CXL_READ_RESPONSE: the expander answers an outstanding read (R272, R273). While the link retrains nothing arrives. -/
def execCxlReadResponse (n : Link) (la : Nat) (poison : Bool) (s : State) : Host.Outcome State Fault Refusal :=
  .next (
    if (s.root n.val).rds.contains la && (s.inService n.val || s.rtlState n.val == 6) then
      (s.readResponse n.val la poison).settleHold n.val
    else s)

/-- Remove the first outstanding write of a device line. -/
def dropWr (la : Nat) : List RootWr → List RootWr
  | [] => []
  | w :: t => if w.la = la then t else w :: dropWr la t

/-- CXL_WRITE_COMPLETION: an expander completes a write (R216, R272). -/
def execCxlWriteCompletion (n : Link) (la : Nat) (s : State) : Host.Outcome State Fault Refusal :=
  .next (
    match (s.root n.val).wrs.find? fun w => w.la == la with
    | some w =>
      if s.inService n.val || s.rtlState n.val == 6 then
        let s := s.setMemLine n.val la w.data w.poison
        ((s.modRoot n.val fun x => { x with wrs := dropWr la x.wrs }).settleWrites).settleHold n.val
      else s
    | none => s)

/-- MTMO_EXPIRE: an outstanding request has had no response within MTMO; the link fails with FAIL 7 (R274). -/
def execMtmoExpire (n : Link) (la : Nat) (wr : Bool) (s : State) : Host.Outcome State Fault Refusal :=
  let x := s.root n.val
  let out := if wr then x.wrs.any fun w => w.la == la else x.rds.contains la
  .next (
    if out && (s.inService n.val || s.rtlState n.val == 6) then
      (s.incF (RTL_ERR n.val) RTL_ERR_TMO).failLink n.val 7 (if wr then none else some la)
    else s)

/-- ROOT_LINK_DOWN: a link in service starts to retrain, and its requests stall (R275). -/
def execRootLinkDown (n : Link) (s : State) : Host.Outcome State Fault Refusal :=
  .next (if s.inService n.val then (s.setRtl n.val 1).modRoot n.val fun x => { x with back := s.rtlState n.val } else s)

/-- ROOT_LINK_RETRAIN_TIMEOUT: the link did not return within 300 ms (R275). -/
def execRootLinkRetrainTimeout (n : Link) (s : State) : Host.Outcome State Fault Refusal :=
  .next (if s.retraining n.val then s.failLink n.val 8 none else s)

/-- REVIVE: a write of RTL_CTL.REVIVE = 1 (R276). -/
def execRevive (org : Origin) (n : Link) (s : State) : Host.Outcome State Fault Refusal :=
  .next (s.writeAs org 0x09 n.val 0x000 8 ((s.reg (RTL_CTL n.val)) ||| RTL_CTL_REVIVE.mask))

/-- HOLD_SET: a write of RTL_CTL.HOLD = 1 (R278). -/
def execHoldSet (org : Origin) (n : Link) (s : State) : Host.Outcome State Fault Refusal :=
  .next (s.writeAs org 0x09 n.val 0x000 8 (RTL_CTL_HOLD.put (s.reg (RTL_CTL n.val)) 1))

/-- HOLD_CLEAR: a write of RTL_CTL.HOLD = 0 (R278). -/
def execHoldClear (org : Origin) (n : Link) (s : State) : Host.Outcome State Fault Refusal :=
  .next (s.writeAs org 0x09 n.val 0x000 8 (RTL_CTL_HOLD.put (s.reg (RTL_CTL n.val)) 0))

/-- RTL_CFG_GO: a write of RTL_CFG, whose GO starts an access (R267). -/
def execRtlCfgGo (org : Origin) (n : Link) (val : Word) (s : State) : Host.Outcome State Fault Refusal :=
  .next (s.writeAs org 0x09 n.val 0x018 8 (RTL_CFG_GO.put val 1))

/-- RTL_CFG_DONE: the access ends; a read returns its data, all ones where it fails; a write R267 protects was discarded (R267). -/
def execRtlCfgDone (n : Link) (ok : Bool) (data : BitVec 32) (s : State) : Host.Outcome State Fault Refusal :=
  .next (
    if (s.root n.val).cfg then
      let r := RTL_CFG n.val
      let s := (s.setF r RTL_CFG_GO 0).modRoot n.val fun x => { x with cfg := false }
      if s.getF r RTL_CFG_WR = 0 then s.setF r RTL_CFG_DATA (if ok then data.toNat else 0xFFFFFFFF)
      else if cfgProtected (s.getF r RTL_CFG_REG) then s.refuseReg 0x09 n.val 0x018
      else s
    else s)

/-- A request has left HQ for the device line, so a copy or a scrub of it waits (R231). -/
def State.lineBusy (s : State) (n la : Nat) : Bool :=
  s.home.any fun x => x.st != .hq &&
    (match s.placeLine x.line with
     | some (k, a) => a / 256 == la / 256 && (k == n || s.partner n == some k)
     | none => false)

/-- The pair's copy is complete: in step, the target in service at its width (R272). -/
def State.copyEnd (s : State) (k target : Nat) : State :=
  let s := s.setPair k 1
  if s.rtlState target = 6 then (s.setRtl target (s.root target).back).modRoot target fun x => { x with logged := false } else s

/-- MIRROR_COPY_LINE: the home copies the next line of a pair (R272). -/
def execMirrorCopyLine (k : Fin 8) (s : State) : Host.Outcome State Fault Refusal :=
  let st := s.pairState k.val
  let src := if st = 4 then 2 * k.val else 2 * k.val + 1
  let dst := if st = 4 then 2 * k.val + 1 else 2 * k.val
  let prog := s.getF (HOM_MSTAT k.val) HOM_MSTAT_PROG
  let la := prog * 256
  .next (
    if (st = 4 ∨ st = 5) ∧ s.inService src = true ∧ (s.rtlState dst = 6 ∨ s.inService dst = true) ∧ s.lineBusy src la = false then
      let (d, p) := s.linkLine src la
      let s := if (s.root dst).wrs.any fun w => w.la == la then s else s.setMemLine dst la d p
      if s.linkLines src ≤ prog + 1 then s.copyEnd k.val dst
      else s.setF (HOM_MSTAT k.val) HOM_MSTAT_PROG (prog + 1)
    else s)

/-- The poisoned line scrub found is repaired from the mirror partner's good copy, or left poisoned and logged (R272, R277). -/
def State.scrubFix (s : State) (n la : Nat) : State :=
  let s := s.incF HOM_SCRUB HOM_SCRUB_FOUND
  match s.partner n with
  | some m =>
    let (d, p) := s.linkLine m la
    if s.partnerHas n la = false then s
    else if p then s.incF (RTL_ERR m) RTL_ERR_POISON
    else (s.setMemLine n la d false).incF HOM_SCRUB HOM_SCRUB_FIXED |>.log { block := 0x0A, typ := 0x01 }
  | none => s.log { block := 0x0A, typ := 0x04 }

/-- Every link in service has completed the present pass: PASSES counts it, and the next one starts (R277). -/
def State.scrubPass (s : State) : State :=
  let l := (List.range 16).filter s.inService
  if l.all fun n => (s.root n).swept then
    (s.incF HOM_SCRUB HOM_SCRUB_PASSES) |> fun s => l.foldl (fun s n => s.modRoot n fun x => { x with swept := false }) s
  else s

/-- PATROL_SCRUB_LINE: scrub reads the next line of a link in service; nothing moves into a cache (R277). -/
def execPatrolScrubLine (n : Link) (poison : Bool) (s : State) : Host.Outcome State Fault Refusal :=
  let x := s.root n.val
  let la := x.scrub * 256
  .next (
    if s.inService n.val = true ∧ s.getF HOM_SCRUB HOM_SCRUB_PERIOD ≠ 0 ∧ x.swept = false ∧ s.lineBusy n.val la = false
        ∧ s.linkLines n.val ≠ 0 then
      let (d, p) := s.linkLine n.val la
      let s := if poison && !p then s.setMemLine n.val la d true else s
      let s := if poison || p then (s.incF (RTL_ERR n.val) RTL_ERR_POISON).scrubFix n.val la else s
      let last := decide (s.linkLines n.val ≤ x.scrub + 1)
      let s := s.modRoot n.val fun y => { y with scrub := if last then 0 else y.scrub + 1, swept := last }
      if last then s.scrubPass else s
    else s)

end Sys2Proof.Machine
end

