-- ==== Sys2Proof/Machine/TwigMem.lean ====
section
/-! DEFINITION. What a Twig instruction reaches: banks, traps, the local maps, the register window with its latch (R344 to R349, R355, R367 to R376, R519, R520). -/

namespace Sys2Proof.Machine

/-- What a Twig access or instruction answers: a value, a trap with its CODE, INFO and ADDR (R367), or that it waits. -/
inductive TwR (α : Type) where
  | ok (a : α) (s : State)
  | trap (code info addr : Nat) (s : State)
  | hold (s : State)
  deriving DecidableEq

/-- Go on with the value. -/
def TwR.bind {α β : Type} (r : TwR α) (k : α → State → TwR β) : TwR β :=
  match r with
  | .ok a s => k a s
  | .trap c i a s => .trap c i a s
  | .hold s => .hold s

/-! Banks (R347, R349, R475). -/

/-- The bank of a processor. -/
def State.pBank (s : State) (p : TwigProc) : TwigBank :=
  match p with
  | .engine e t => (s.task e t).bank
  | .forester b => Tab.get bankDefault s.fst.banks b

/-- Replace the bank of a processor. -/
def State.setPBank (s : State) (p : TwigProc) (b : TwigBank) : State :=
  match p with
  | .engine e t => s.modTask e t fun x => { x with bank := b }
  | .forester k => { s with fst := { s.fst with banks := Tab.set bankDefault s.fst.banks k b } }

/-- Change the bank of a processor. -/
def State.modPBank (s : State) (p : TwigProc) (f : TwigBank → TwigBank) : State := s.setPBank p (f (s.pBank p))

/-- Task 0 of an engine; bank 0 of a Forester processor, which handles its traps (notes/assumptions/23.md). -/
def isZero (p : TwigProc) : Bool :=
  match p with
  | .engine _ t => t.val == 0
  | .forester b => b.val == 0

/-- The rank of a Forester bank: the fast interrupt first, then the work classes (R475, R476). -/
def bankRank (b : Nat) : Nat := if b = 7 then 0 else b + 1

/-- A Forester bank has work and runs next. -/
def State.bankRuns (s : State) (b : Nat) : Bool :=
  let can (k : Nat) : Bool := bitOf s.fst.busy k && !bitOf s.fst.trapped k
  s.forFw && !s.fst.lost && can b && (List.range 8).all fun k => !can k || decide (bankRank b ≤ bankRank k)

/-- The processor may execute its next instruction (R359, R364, R365, R383, R475). -/
def State.pRuns (s : State) (p : TwigProc) : Bool :=
  match p with
  | .engine e t =>
    let x := s.task e t
    s.gladeUp (e / 2) && decide (3 ≤ s.gldState (e / 2)) && s.getF (TWG_MCSTAT e) TWG_MCSTAT_SWAP == 0
      && x.st == 1 && x.resident && x.stall.isNone
  | .forester b => s.bankRuns b

/-! Traps (R367 to R370, R475). -/

/-- A trap in task 0 halts the engine: the hub logs it and resets the Glade (R370). -/
def State.haltEngine (s : State) (e code : Nat) : State :=
  (s.log { block := 0x0D, inst := e, cls := 2, typ := 0x0E, detail := [BitVec.ofNat 8 code] }).gladeReset (e / 2)

/-- A trap of a processor; `pc` is what it saves. -/
def State.pTrap (s : State) (p : TwigProc) (code info addr pc : Nat) : State :=
  match p with
  | .engine e t =>
    if t.val = 0 then s.haltEngine e code
    else
      let s := s.modTask e t fun x => { x with st := 3, cause := code, bank := { x.bank with pc := pc } }
      (s.modEng e fun x => { x with traps := x.traps ++ [⟨t.val, code, info, pc, addr⟩] }).wakeTask e 0
  | .forester b =>
    let s := s.modPBank p fun x => { x with pc := pc }
    let s := { s with fst := { s.fst with trapped := setBit s.fst.trapped b true, last := b.val } }
    if b.val = 0 then s else s.vectorBank 0 0x30

/-! The local maps (R344, R519). -/

/-- The row of a local address: 1 local RAM, 2 window, 3 shared or paged RAM, 4 mailbox area, 5 the 16 bytes at 0xF000, 6 reserved, 7 ROM. -/
def locRow (p : TwigProc) (a : Nat) : Nat :=
  if a < 0x8000 then 1
  else if a < 0xC000 then 2
  else if 0xF800 ≤ a then 7
  else if 0xF010 ≤ a then 6
  else if 0xF000 ≤ a then 5
  else match p with
    | .engine _ _ => if a < 0xE000 then 3 else 4
    | .forester _ => 3

/-- Bytes of one row, none past 0xFFFF. -/
def oneRow (p : TwigProc) (a n : Nat) : Bool := decide (a + n ≤ 0x10000) && locRow p a == locRow p (a + n - 1)

/-- A row is fetched from. -/
def rowFetch (r : Nat) : Bool := r == 1 || r == 7

/-- A row is loaded from. -/
def rowLoad (r : Nat) : Bool := r != 6

/-- A row is stored to. -/
def rowStore (r : Nat) : Bool := r != 6 && r != 7

/-- The ROM: the two stubs (R368); the spec states no other byte. -/
def romByte (a : Nat) : Byte :=
  let stub := [0x1F, 0x01, 0x00, 0xD0, 0x10, 0xF8]
  if a = 0xF800 then 0x00 else if a = 0xF801 then 0x02
  else if 0xF810 ≤ a ∧ a < 0xF816 then (stub[a - 0xF810]?).getD 0
  else Config.twigRom a

/-- The RAM offset of a paged address of a Forester processor (R519). -/
def State.forPaged (s : State) (a : Nat) : Nat := 0x8000 + 0x3000 * (s.fst.fpg % 8) + (a - 0xC000)

/-- The bytes at 0xF000: the vector table (R344), or FCB and FPG (R519). -/
def State.topByte (s : State) (p : TwigProc) (a : Nat) : Byte :=
  match p with
  | .engine e _ => ((leBytes 2 (s.eng e).trapv ++ leBytes 2 (s.eng e).workv)[a - 0xF000]?).getD 0
  | .forester _ => ((leBytes 8 s.fst.fcb ++ leBytes 8 s.fst.fpg)[a - 0xF000]?).getD 0

/-- A byte of a local address outside the window. -/
def State.locByte (s : State) (p : TwigProc) (a : Nat) : Byte :=
  match locRow p a, p with
  | 1, .engine e _ => Tab.get memDefault (s.eng e).local_ a
  | 1, .forester _ => Tab.get memDefault s.fst.ram a
  | 3, .engine e _ => Tab.get memDefault (s.glade (e / 2)).shared (a - 0xC000)
  | 3, .forester _ => Tab.get memDefault s.fst.ram (s.forPaged a)
  | 4, .engine e _ => Tab.get memDefault (s.eng e).mbox (a - 0xE000)
  | 5, _ => s.topByte p a
  | 7, _ => romByte a
  | _, _ => 0

/-- Write a byte at 0xF000: TRAPV, WORKV, FCB and FPG; the rest is ignored. -/
def State.setTop (s : State) (p : TwigProc) (a : Nat) (b : Byte) : State :=
  let i := a - 0xF000
  let put (l : List Byte) (i m : Nat) : Nat := (BitVec.ofNat 64 (fromLe (l.set i b))).toNat &&& m
  match p with
  | .engine e _ =>
    if i < 2 then s.modEng e fun x => { x with trapv := put (leBytes 2 x.trapv) i 0xFFFF }
    else if i < 4 then s.modEng e fun x => { x with workv := put (leBytes 2 x.workv) (i - 2) 0xFFFF }
    else s
  | .forester _ =>
    if i < 8 then { s with fst := { s.fst with fcb := put (leBytes 8 s.fst.fcb) i 0xFFFF00FF } }
    else { s with fst := { s.fst with fpg := put (leBytes 8 s.fst.fpg) (i - 8) 7 } }

/-- Write a byte of a local address outside the window; the last byte of the mailbox area queues class 7 work (R487): kind 2, the engine. -/
def State.setLocByte (s : State) (p : TwigProc) (a : Nat) (b : Byte) : State :=
  match locRow p a, p with
  | 1, .engine e _ => s.modEng e fun x => { x with local_ := Tab.set memDefault x.local_ a b }
  | 1, .forester _ => { s with fst := { s.fst with ram := Tab.set memDefault s.fst.ram a b } }
  | 3, .engine e _ => s.modGlade (e / 2) fun x => { x with shared := Tab.set memDefault x.shared (a - 0xC000) b }
  | 3, .forester _ => { s with fst := { s.fst with ram := Tab.set memDefault s.fst.ram (s.forPaged a) b } }
  | 4, .engine e _ =>
    let s := s.modEng e fun x => { x with mbox := Tab.set memDefault x.mbox (a - 0xE000) b }
    if a = 0xEFFF then s.queueWork 7 ⟨2, BitVec.ofNat 64 e⟩ else s
  | 5, _ => s.setTop p a b
  | _, _ => s

/-- Write consecutive bytes. -/
def State.setLocBytes (s : State) (p : TwigProc) (a : Nat) : List Byte → State
  | [] => s
  | b :: t => (s.setLocByte p a b).setLocBytes p (a + 1) t

/-- An aligned 8-byte word of an engine's RAM holds an uncorrectable error (R355). -/
def State.badWord (s : State) (p : TwigProc) (a : Nat) : Bool :=
  match p with
  | .engine e _ => if locRow p a = 3 then (s.glade (e / 2)).sharedBad.contains (a / 8) else (s.eng e).bad.contains (a / 8)
  | .forester _ => false

/-- The first word with an uncorrectable error among `n` bytes. -/
def State.firstBad (s : State) (p : TwigProc) (a n : Nat) : Option Nat :=
  ((List.range n).find? fun i => s.badWord p (a + i)).map fun i => (a + i) / 8 * 8

/-- Clear the errors of the words that `n` bytes cover whole (R355). -/
def State.mendWords (s : State) (p : TwigProc) (a n : Nat) : State :=
  match p with
  | .engine e _ =>
    let keep (w : Nat) : Bool := !(decide (a ≤ 8 * w) && decide (8 * w + 8 ≤ a + n))
    let s := s.modEng e fun x => { x with bad := x.bad.filter keep }
    s.modGlade (e / 2) fun x => { x with sharedBad := x.sharedBad.filter keep }
  | .forester _ => s

/-- The checks of the fetch of one or two words at pc (R344, R355). -/
def State.pFetch (s : State) (p : TwigProc) (words : Nat) : TwR Unit :=
  let pc := (s.pBank p).pc
  let one (a : Nat) (k : TwR Unit) : TwR Unit :=
    if rowFetch (locRow p a) = false then .trap 3 0 a s
    else match s.firstBad p a 2 with
      | some w => .trap 5 0 w s
      | none => k
  one pc (if words = 2 then (if 0x10000 ≤ pc + 2 then .trap 3 0 0 s else one (pc + 2) (.ok () s)) else .ok () s)

/-- The checks of a data access outside the window: row, privilege, errors (R344, R355). Kinds: 1 load, 2 store, 3 ldm, 4 stm. -/
def State.locCheck (s : State) (p : TwigProc) (a n kind : Nat) : TwR Unit :=
  let wr := kind == 2 || kind == 4
  let r := locRow p a
  if oneRow p a n = false ∨ (if wr then rowStore r else rowLoad r) = false ∨ (r = 2 ∧ 3 ≤ kind) then .trap 3 kind a s
  else
    match p with
    | .engine _ _ => if r = 5 ∧ wr = true ∧ isZero p = false then .trap 2 kind a s else .ok () s
    | .forester _ => .ok () s

/-! The register window of an engine (R345, R346, R371 to R376). -/

/-- The operation that TWG_T_OPSEL selects, where it is live (R371). -/
def State.selOp (s : State) (e t : Nat) : Option (GOp × Tract) :=
  match s.opLive (e / 2) (s.task e t).opsel with
  | some o => ((s.slice (e / 2) o.slice).tract o.tract).map fun x => (o, x)
  | none => none

/-- TWG_T_OPINFO. -/
def State.opInfo (s : State) (e t : Nat) : Nat :=
  match s.selOp e t with
  | some (o, x) =>
    o.slice * 2 ^ 56 + o.gen * 2 ^ 48 + (s.tbase (e / 2) o.slice + o.tract) % 65536 * 2 ^ 32 + o.tag * 2 ^ 16 + o.cls * 256 + x.port % 8 * 32 + 16
      + o.gcws.length % 16
  | none => 0

/-- Eight bytes of the operation view at a window address from 0x80C0 (R371). -/
def State.opView (s : State) (e t a : Nat) : Nat :=
  match s.selOp e t with
  | none => 0
  | some (o, x) =>
    if a = 0x80C0 then x.qid
    else if a < 0x80D8 then fromLe ((x.tparam.drop (a - 0x80C8)).take 8)
    else if a < 0x8100 then 0
    else fromLe ((((o.gcws[(a - 0x8100) / 32]?).getD []).drop (a % 32)).take 8)

/-- The block instance and offset that TWG_T_XADDR names (R376): the instances of one Glade follow one another at their stride. -/
def xTarget (e x : Nat) : Option (Nat × Nat × Nat) :=
  let b := bitsOf x 63 56
  let o := x % 2 ^ 24
  let g := e / 2
  if b = 0x0D then some (b, 2 * g + o / 0x2000 % 2, o % 0x2000)
  else if b = 0x0E then some (b, 8 * g + o / 0x100 % 8, o % 0x100)
  else if b = 0x0C ∨ b = 0x0F ∨ b = 0x10 ∨ b = 0x11 then some (b, g, o)
  else none

/-- A task's own origin. -/
def twigWho (e t : Nat) : Who := ⟨.twig (Fin.ofNat 8 e) (Fin.ofNat 1024 t), 3, none⟩

/-- The checks of a task's write to a TWG_ register: task 0 alone, and no task above MAXTASK (R344, R367). `kind`, `a`: INFO and ADDR of a privileged fault. -/
def State.twgCheck (s : State) (t inst off v kind a : Nat) : TwR Unit :=
  let tk := bitsOf v 41 32
  let d := if off = 0x20 ∧ bitOf v 63 = true then (if inst % 2 = 0 then inst + 1 else inst - 1) else inst
  if t ≠ 0 then .trap 2 kind a s
  else if (off = 0x18 ∨ off = 0x20) ∧ s.maxTask d < tk then .trap 7 2 tk s
  else .ok () s

/-- A mover's descriptor as queued (R374): one that is invalid keeps a kind that no table names. -/
def State.movDesc (s : State) (e t m : Nat) (d : List Byte) : MovXfer :=
  let g := e / 2
  let sk := byteAt d 0x14
  let dk := byteAt d 0x15
  let oph := le16At d 0x18
  let src := le64At d 0
  let dst := le64At d 8
  let len := le32At d 0x10
  let ram (a : Nat) : Bool := decide (a + len ≤ 0x8000) || (decide (0xC000 ≤ a) && decide (a + len ≤ 0xE000))
  let side (k a : Nat) : Bool := if k = 0 then decide (a < 2 ^ 63) else if k = 2 then ram a else true
  let ok := decide (sk ≤ 2) && decide (dk ≤ 2) && decide (len ≤ 16777216) && decide (byteAt d 0x16 < 8) && byteAt d 0x17 == 0 && le32At d 0x1C == 0
    && side sk src && side dk dst && ((sk != 0 && dk != 0) || (s.opLive g oph).isSome)
  ⟨m, e, t, src, dst, len, if ok then sk else 0xFF, if ok then dk else 0xFF, byteAt d 0x16, oph, le16At d 0x1A, 0⟩

/-- A write of DMV_SUB(m) by a task (R374): the descriptor is copied; a full queue stalls. -/
def State.dmvSub (s : State) (e t m v : Nat) : TwR Unit :=
  let p : TwigProc := .engine (Fin.ofNat 8 e) (Fin.ofNat 1024 t)
  let tk := bitsOf v 41 32
  let a := v % 65536
  let row := locRow p a
  if s.maxTask e < tk then .trap 7 2 tk s
  else if 16 ≤ ((s.glade (e / 2)).movs.filter fun x => x.mover == m).length then .hold s
  else if a % 8 ≠ 0 ∨ oneRow p a 32 = false ∨ (row ≠ 1 ∧ row ≠ 3) then
    .ok () (s.modGlade (e / 2) fun x => { x with movs := x.movs ++ [⟨m, e, tk, 0, 0, 0, 0xFF, 0xFF, 0, 0, 0, 0⟩] })
  else
    match s.firstBad p a 32 with
    | some w => .trap 5 2 w s
    | none =>
      let d := (List.range 32).map fun i => s.locByte p (a + i)
      .ok () (s.modGlade (e / 2) fun x => { x with movs := x.movs ++ [s.movDesc e tk m d] })

/-- A write of TWG_T_POST (R372). -/
def State.post (s : State) (e t v : Nat) : State :=
  let g := e / 2
  let h := v % 4096
  let st := bitsOf v 63 56
  let pdev := (s.task e t).pdev
  let drop (s : State) : State := s.logC 0x0C g 0x0A (leBytes 4 h)
  match s.op g h with
  | none => drop s
  | some o =>
    if o.hasEnded ∨ o.pend.isSome then drop s
    else if s.bound g o.slice = false ∨ s.gen g o.slice ≠ o.gen then drop (s.genDrop g o.slice)
    else
      let good := st == 0 || st == 1 || st == 0x0C || decide (0x80 ≤ st)
      let s := if good then s else s.logC 0x0C g 0x0A [BitVec.ofNat 8 st]
      (s.endOp g h (if good then st else 1) (pdev / 2 ^ 32) (pdev % 2 ^ 32) false).pump g

/-- The port half TWG_T_PADDR names, and whether its request is permitted (R375). -/
def State.portPermits (s : State) (g x : Nat) : Bool :=
  let ty := bitsOf x 63 62
  let size := 2 ^ bitsOf x 61 60
  let ph := bitsOf x 59 57
  let st := s.getF (GLD_PST g (ph / 2) (ph % 2)) GLD_PST_STATE
  decide (ty ≠ 3) && (ty == 0 || decide (size ≤ 4)) && x % 2 ^ 48 % size == 0 && st == 3

/-- Put a task's request on its port half; the task stalls until it is done (R346, R375). A refused one sends nothing (ST 3): none. -/
def State.portRequest (s : State) (e t : Nat) (b : List Byte) (stall : TwigStall) : Option State :=
  let g := e / 2
  let x := (s.task e t).paddr
  if s.portPermits g x then
    some ({ (s.modTask e t fun y => { y with stall := some stall }) with
      portTx := some (8 * g + bitsOf x 59 57, bitsOf x 63 62 * 2 ^ 48 + x % 2 ^ 48, b) })
  else none

/-- Read a register of the window whole (R346). `ld`, `insn`: what waits where the read is a port request. -/
def State.winRead (s : State) (e t a : Nat) (ld : Option (Bool × Nat × Nat)) (insn : Bool) : TwR Nat :=
  let x := s.task e t
  let reg (b i o : Nat) : TwR Nat :=
    let (v, s) := s.regRead (twigWho e t) b i o 8
    .ok v.toNat s
  if a < 0x80C0 then
    if a = 0x8000 then .ok (t * 2 ^ 32 + (s.eng e).win) s
    else if a = 0x8008 then .ok x.opsel s
    else if a = 0x8010 then .ok (s.opInfo e t) s
    else if a = 0x8030 then .ok x.pdev s
    else if a = 0x8040 then (if x.timer = 0 then .ok 0 s else .ok (1 + s.freeBelow x.timer) s.tickFree)
    else if a = 0x8048 then .ok x.xaddr s
    else if a = 0x8050 then
      match xTarget e x.xaddr with
      | none => .trap 6 1 a s
      | some (b, i, o) => reg b i o
    else if a = 0x8058 then .ok x.paddr s
    else if a = 0x8060 then
      match s.portRequest e t [] ⟨false, ld, insn⟩ with
      | some s => .hold s
      | none => .ok (2 ^ 64 - 1) (s.modTask e t fun y => { y with pstat := 3, pdata := 2 ^ 64 - 1 })
    else if a = 0x8068 then .ok x.pstat s
    else .ok 0 s
  else if a < 0x8200 then .ok (s.opView e t a) s
  else if a < 0x8800 then reg 0x0D e (a - 0x8200)
  else if a < 0x9000 then reg 0x0E (8 * (e / 2) + (a - 0x8800) / 0x100) (a % 0x100)
  else if a = 0xA000 ∨ a = 0xB000 then .ok 0 s
  else .trap 3 1 a s

/-- A stall of a submission: the write waits (R374, R392, R424). -/
def ofStall (s : State) (r : Option State) : TwR Unit :=
  match r with
  | some s => .ok () s
  | none => .hold s

/-- Write a register of the window whole, with the latch's 8 bytes (R346). -/
def State.winWrite (s : State) (e t a v : Nat) (insn : Bool) : TwR Unit :=
  let mod (f : TwigTask → TwigTask) : TwR Unit := .ok () (s.modTask e t f)
  let reg (s : State) (b i o : Nat) : State := s.regWrite (twigWho e t) b i o 8 (BitVec.ofNat 64 v)
  if a < 0x80C0 then
    if a = 0x8000 then (if t = 0 then .ok () (s.modEng e fun y => { y with win := v % 1024 }) else .trap 2 2 a s)
    else if a = 0x8008 then mod fun x => { x with opsel := v % 4096 }
    else if a = 0x8030 then mod fun x => { x with pdev := v }
    else if a = 0x8038 then .ok () (s.post e t v)
    else if a = 0x8040 then mod fun x => { x with timer := v % 2 ^ 32 }
    else if a = 0x8048 then mod fun x => { x with xaddr := v &&& 0xFF00000000FFFFFF }
    else if a = 0x8050 then
      match xTarget e (s.task e t).xaddr with
      | none => .trap 6 2 a s
      | some (b, i, o) =>
        if b = 0x0D then (s.twgCheck t i o v 2 a).bind fun _ s => .ok () (reg s b i o)
        else if b = 0x0E ∧ o = 0 then s.dmvSub e t (i % 8) v
        else .ok () (reg s b i o)
    else if a = 0x8058 then mod fun x => { x with paddr := v &&& 0xFE00FFFFFFFFFFFF }
    else if a = 0x8060 then
      let n := 2 ^ bitsOf (s.task e t).paddr 61 60
      let s := s.modTask e t fun y => { y with pdata := v }
      match s.portRequest e t (leBytes n v) ⟨true, none, insn⟩ with
      | some s => .hold s
      | none => .ok () (s.modTask e t fun y => { y with pstat := 3 })
    else .ok () s
  else if a < 0x8200 then .ok () s
  else if a < 0x8800 then (s.twgCheck t e (a - 0x8200) v 2 a).bind fun _ s => .ok () (reg s 0x0D e (a - 0x8200))
  else if a < 0x9000 then
    if a % 0x100 = 0 then s.dmvSub e t ((a - 0x8800) / 0x100) v else .ok () (reg s 0x0E (8 * (e / 2) + (a - 0x8800) / 0x100) (a % 0x100))
  else if a = 0xA000 then ofStall s (s.colSub e t v)
  else if a = 0xB000 then ofStall s (s.brkSub e t v)
  else .trap 3 2 a s

/-- An address of the window that the table of R345 gives a register. -/
def winHas (a : Nat) : Bool := decide (a < 0x9000) || (decide (0xA000 ≤ a) && decide (a < 0xA008)) || (decide (0xB000 ≤ a) && decide (a < 0xB008))

/-- A register that only task 0 writes: BWIN and the TWG_ block (R344, R367). -/
def winZero (a : Nat) : Bool := decide (a < 0x8008) || (decide (0x8200 ≤ a) && decide (a < 0x8800))

/-! The configuration window of a Forester processor (R519, R520). -/

/-- The size of a block's register window (R515). -/
def blockWindow (b : Nat) : Nat :=
  if b = 0x06 then 0x10000 else if b = 0x09 ∨ b = 0x0F ∨ b = 0x12 then 0x20000 else if b = 0x0B ∨ b = 0x13 then 0x80000
  else if b = 0x0C then 0x400000 else if b = 0x0D ∨ b = 0x11 then 0x2000 else if b = 0x0E then 0x100 else if b = 0x16 then 0x100000 else 0x1000

/-- What an address of the configuration window selects: a register of a block, or an address of a mailbox window. -/
def State.cfgTarget (s : State) (a : Nat) : Option (Sum (Nat × Nat × Nat) (Nat × Nat)) :=
  let b := s.fst.fcb / 2 ^ 24 % 256
  let i := s.fst.fcb / 2 ^ 16 % 256
  let o := s.fst.fcb % 256 * 0x4000 + (a - 0x8000)
  if b = 0xFF then (if i < 16 ∧ s.mboxOn i = true then some (.inr (i, s.mboxBase i + o)) else none)
  else if b = 0 ∨ 0x18 ≤ b ∨ blockCount b ≤ i ∨ blockWindow b ≤ s.fst.fcb % 256 * 0x4000 then none
  else some (.inl (b, i, o))

/-! Loads and stores (R346, R355, R483, R484). -/

/-- A memory read of a Forester processor through BLOCK 0xFF as an answer of a Twig access: the spec states no value for one that fails, which is free. -/
def forMem (s : State) (n : Nat) (r : HubR (List Byte)) : TwR (List Byte) :=
  match r with
  | .ok b s => .ok b s
  | .fail _ s => .ok (leBytes n (s.freeBelow 65536)) s.tickFree
  | .need l p w => .hold (s.hubReach l p w)

/-- The name of a window register in the latch's tag: the window's register number, with the selected window of a Forester processor (R349, R519). -/
def State.winTag (s : State) (p : TwigProc) (a : Nat) : Nat :=
  match p with
  | .engine _ _ => (a - 0x8000) / 8
  | .forester _ => s.fst.fcb * 2048 + (a - 0x8000) / 8

/-- A register behind the window, read whole. -/
def State.winReg (s : State) (p : TwigProc) (a : Nat) (ld : Option (Bool × Nat × Nat)) : TwR Nat :=
  match p with
  | .engine e t => s.winRead e t a ld true
  | .forester _ =>
    match s.cfgTarget a with
    | some (.inl (b, i, o)) =>
      if b = 0x16 then .ok 0 s
      else
        let (v, s) := s.regRead (s.who .config) b i o 8
        .ok v.toNat s
    | _ => .trap 3 1 a s

/-- A register behind the window, written whole. -/
def State.winSet (s : State) (p : TwigProc) (a v : Nat) : TwR Unit :=
  match p with
  | .engine e t => s.winWrite e t a v true
  | .forester _ =>
    match s.cfgTarget a with
    | some (.inl (b, i, o)) => if b = 0x16 then .ok () s else .ok () (s.regWrite (s.who .config) b i o 8 (BitVec.ofNat 64 v))
    | _ => .trap 3 2 a s

/-- The window address is one an access of this processor may name. -/
def State.winOk (s : State) (p : TwigProc) (a : Nat) : Bool :=
  match p with
  | .engine _ _ => winHas a
  | .forester _ => (s.cfgTarget a).isSome

/-- A load of 1 or 2 bytes from the window (R346). -/
def State.winLoad (s : State) (p : TwigProc) (a n : Nat) (ld : Option (Bool × Nat × Nat)) : TwR (List Byte) :=
  if n = 2 ∧ a % 2 = 1 then .trap 4 1 a s
  else if s.winOk p a = false then .trap 3 1 a s
  else
    match (match p with | .forester _ => s.cfgTarget a | _ => none) with
    | some (.inr (q, pa)) => forMem s n (s.portRead q pa n)
    | _ =>
      let b := s.pBank p
      let r := s.winTag p a
      let i := a % 8
      if i ≠ 0 ∧ b.tag = some r then .ok ((leBytes 8 b.latch).drop i |>.take n) s
      else
        (s.winReg p (a / 8 * 8) ld).bind fun v s =>
          .ok ((leBytes 8 v).drop i |>.take n) (s.modPBank p fun b => { b with latch := v, tag := some r })

/-- A store of 1 or 2 bytes to the window (R346). -/
def State.winStore (s : State) (p : TwigProc) (a : Nat) (bytes : List Byte) : TwR Unit :=
  let n := bytes.length
  if n = 2 ∧ a % 2 = 1 then .trap 4 2 a s
  else if s.winOk p a = false then .trap 3 2 a s
  else if (match p with | .engine _ t => decide (t.val ≠ 0) && winZero a | .forester _ => false) then .trap 2 2 a s
  else
    match (match p with | .forester _ => s.cfgTarget a | _ => none) with
    | some (.inr (q, pa)) =>
      (match s.portWrite q pa bytes with
      | .ok _ s => .ok () s
      | .fail _ s => .ok () s
      | .need l p w => .hold (s.hubReach l p w))
    | _ =>
      let b := s.pBank p
      let r := s.winTag p a
      let old := if b.tag = some r then leBytes 8 b.latch else leBytes 8 0
      let i := a % 8
      let new := fromLe (old.take i ++ bytes ++ old.drop (i + n))
      if i + n = 8 then
        (s.winSet p (a / 8 * 8) new).bind fun _ t => .ok () (t.modPBank p fun b => { b with latch := new, tag := some r })
      else .ok () (s.setPBank p { b with latch := new, tag := some r })

/-- A load of 1 or 2 bytes (R355). `ld` as in the stall of a port request. -/
def State.pLoad (s : State) (p : TwigProc) (a n : Nat) (ld : Option (Bool × Nat × Nat)) : TwR (List Byte) :=
  (s.locCheck p a n 1).bind fun _ s =>
    if locRow p a = 2 then s.winLoad p a n ld
    else
      match s.firstBad p a n with
      | some w => .trap 5 1 w s
      | none => .ok ((List.range n).map fun i => s.locByte p (a + i)) s

/-- A store of 1 or 2 bytes (R355). -/
def State.pStore (s : State) (p : TwigProc) (a : Nat) (bytes : List Byte) : TwR Unit :=
  (s.locCheck p a bytes.length 2).bind fun _ s =>
    if locRow p a = 2 then s.winStore p a bytes
    else
      match s.firstBad p a bytes.length with
      | some w => .trap 5 2 w s
      | none => .ok () (s.setLocBytes p a bytes)

end Sys2Proof.Machine
end

