-- ==== Sys2Proof/Machine/Twig.lean ====
section
/-! DEFINITION. The Twig instruction set (R347 to R360, R366 to R369, R384): one meaning for each row, over one processor of a Glade engine or of the Forester. -/

namespace Sys2Proof.Machine

/-! Running an instruction. -/

/-- A completed instruction of a task: its bank was run last (R365). -/
def State.pRan (s : State) (p : TwigProc) : State :=
  match p with
  | .engine e t => (s.modTask e t fun x => { x with filled := false }).ranBank e t
  | .forester _ => s

/-- Set the pc of a processor. -/
def State.setPc (s : State) (p : TwigProc) (pc : Nat) : State := s.modPBank p fun b => { b with pc := pc % 65536 }

/-- Execute an instruction of `words` words: its fetch, then its effect, which answers the next pc. A trap saves the instruction's own pc, software traps the next (R351, R367). (DEDUCED, notes/assumptions/45.md.) -/
def State.twig (s : State) (p : TwigProc) (words : Nat) (body : Nat → State → TwR Nat) : State :=
  if s.pRuns p = false then s
  else
    let pc := (s.pBank p).pc
    match (s.pFetch p words).bind fun _ s => body pc s with
    | .ok npc t => (t.setPc p npc).pRan p
    | .trap c i a t => t.pTrap p c i a (if c = 8 then (pc + 2) % 65536 else pc)
    | .hold t => t

/-- The illegal-instruction trap (R354). -/
def illegal (s : State) : TwR Nat := .trap 1 0 0 s

/-- Write a byte register of the processor. -/
def State.set8 (s : State) (p : TwigProc) (r v : Nat) : State := s.modPBank p fun b => b.set8 r v

/-- Write an address register. -/
def State.set16 (s : State) (p : TwigProc) (a v : Nat) : State := s.modPBank p fun b => b.set16 a v

/-- An effect that only changes the bank; the next instruction follows. -/
def State.twigBank (s : State) (p : TwigProc) (f : TwigBank → TwigBank) : State :=
  s.twig p 1 fun pc s => .ok (pc + 2) (s.modPBank p f)

/-! Loads and stores (R350, R355). -/

/-- TWIG_LD: a byte register from disp(b) (R355). -/
def execTwigLd (p : TwigProc) (r : BitVec 4) (b : ANum) (disp : BitVec 6) (s : State) : Host.Outcome State Fault Refusal :=
  let c := r.toNat
  .next (s.twig p 1 fun pc s =>
    if 10 ≤ c then illegal s
    else
      let a := ((s.pBank p).get16 b + disp.toNat) % 65536
      (s.pLoad p a 1 (some (false, c, a % 8))).bind fun l s => .ok (pc + 2) (s.set8 p c (fromLe l)))

/-- TWIG_ST: a byte register to disp(b) (R355). -/
def execTwigSt (p : TwigProc) (r : BitVec 4) (b : ANum) (disp : BitVec 6) (s : State) : Host.Outcome State Fault Refusal :=
  let c := r.toNat
  .next (s.twig p 1 fun pc s =>
    if 10 ≤ c then illegal s
    else (s.pStore p (((s.pBank p).get16 b + disp.toNat) % 65536) (leBytes 1 ((s.pBank p).get8 c))).bind fun _ s => .ok (pc + 2) s)

/-- TWIG_LD_ADDR: an address register from disp(b), little-endian (R355). -/
def execTwigLdAddr (p : TwigProc) (a b : ANum) (disp : BitVec 6) (s : State) : Host.Outcome State Fault Refusal :=
  .next (s.twig p 1 fun pc s =>
    let x := ((s.pBank p).get16 b + disp.toNat) % 65536
    (s.pLoad p x 2 (some (true, a.val, x % 8))).bind fun l s => .ok (pc + 2) (s.set16 p a (fromLe l)))

/-- TWIG_ST_ADDR: an address register to disp(b) (R355). -/
def execTwigStAddr (p : TwigProc) (a b : ANum) (disp : BitVec 6) (s : State) : Host.Outcome State Fault Refusal :=
  .next (s.twig p 1 fun pc s =>
    (s.pStore p (((s.pBank p).get16 b + disp.toNat) % 65536) (leBytes 2 ((s.pBank p).get16 a))).bind fun _ s => .ok (pc + 2) s)

/-- The registers of an ldm or stm mask in ascending bit order: code 0 to 9 by 1 byte, address register 0 to 3 by 2 (R357). -/
def multiRegs (mask : Nat) : List (Bool × Nat) :=
  (bitList 14 mask).map fun i => if i < 10 then (false, i) else (true, i - 10)

/-- The bytes a register takes in an ldm or stm. -/
def multiLen (r : Bool × Nat) : Nat := if r.1 then 2 else 1

/-- The bytes an ldm or stm transfers. -/
def multiBytes (mask : Nat) : Nat := (multiRegs mask).foldl (fun n r => n + multiLen r) 0

/-- Load registers one after another; a value for the base is held aside (R357). -/
def State.ldmRegs (s : State) (p : TwigProc) (b : Nat) : List (Bool × Nat) → Nat → Option Nat → TwR (Option Nat)
  | [], _, held => .ok held s
  | r :: t, a, held =>
    let n := multiLen r
    match s.firstBad p a n with
    | some w => .trap 5 3 w s
    | none =>
      let v := fromLe ((List.range n).map fun i => s.locByte p (a + i))
      if r = (true, b) then State.ldmRegs s p b t (a + n) (some v)
      else State.ldmRegs (if r.1 then s.set16 p r.2 v else s.set8 p r.2 v) p b t (a + n) held

/-- LDM: load the registers of a mask from consecutive bytes (R357). -/
def execLdm (p : TwigProc) (w : Bool) (b : ANum) (mask : BitVec 14) (s : State) : Host.Outcome State Fault Refusal :=
  let m := mask.toNat
  .next (s.twig p 2 fun pc s =>
    if w = true ∧ bitOf m (10 + b.val) = true then illegal s
    else if m = 0 then .ok (pc + 4) s
    else
      let base := (s.pBank p).get16 b
      (s.locCheck p base (multiBytes m) 3).bind fun _ s =>
        (s.ldmRegs p b (multiRegs m) base none).bind fun held s =>
          .ok (pc + 4) (match held with
            | some v => s.set16 p b v
            | none => if w then s.set16 p b (base + multiBytes m) else s))

/-- Store registers one after another; a word that the whole transfer covers is replaced, with its error (R355, R357). -/
def State.stmRegs (s : State) (p : TwigProc) (base n : Nat) : List (Bool × Nat) → Nat → TwR Unit
  | [], _ => .ok () s
  | r :: t, a =>
    let k := multiLen r
    let whole (w : Nat) : Bool := decide (base ≤ w) && decide (w + 8 ≤ base + n)
    match ((List.range k).find? fun i => s.badWord p (a + i) && !whole ((a + i) / 8 * 8)) with
    | some i => .trap 5 4 ((a + i) / 8 * 8) s
    | none =>
      let bk := s.pBank p
      State.stmRegs (s.setLocBytes p a (leBytes k (if r.1 then bk.get16 r.2 else bk.get8 r.2))) p base n t (a + k)

/-- STM: store the registers of a mask to consecutive bytes (R357). -/
def execStm (p : TwigProc) (w : Bool) (b : ANum) (mask : BitVec 14) (s : State) : Host.Outcome State Fault Refusal :=
  let m := mask.toNat
  .next (s.twig p 2 fun pc s =>
    if m = 0 then .ok (pc + 4) s
    else
      let base := (s.pBank p).get16 b
      let n := multiBytes m
      (s.locCheck p base n 4).bind fun _ s =>
        (s.stmRegs p base n (multiRegs m) base).bind fun _ s =>
          let s := s.mendWords p base n
          .ok (pc + 4) (if w then s.set16 p b (base + n) else s))

/-! The ALU (R352). -/

/-- The code of accumulator N. -/
def accCode (n : Bool) : Nat := 8 + b2n n

/-- An accumulator's carry. -/
def TwigBank.carry (b : TwigBank) (n : Bool) : Bool := if n then b.c1 else b.c0

/-- Replace an accumulator's carry. -/
def TwigBank.setCarry (b : TwigBank) (n c : Bool) : TwigBank := if n then { b with c1 := c } else { b with c0 := c }

/-- The value of an ALU source. -/
def TwigBank.aluSrc (b : TwigBank) (x : AluSrc) : Nat :=
  match x with
  | .imm v => v.toNat
  | .acc m => b.get8 (accCode m)

/-- acN := f acN source carry, with a carry where the function writes one (R352). -/
def State.twigAlu (s : State) (p : TwigProc) (n : Bool) (src : AluSrc) (f : Nat → Nat → Nat → Nat × Option Bool) : State :=
  s.twigBank p fun b =>
    let r := f (b.get8 (accCode n)) (b.aluSrc src) (b2n (b.carry n))
    let b := b.set8 (accCode n) r.1
    match r.2 with
    | some c => b.setCarry n c
    | none => b

/-- TWIG_ADD (R352). -/
def execTwigAdd (p : TwigProc) (n : Bool) (src : AluSrc) (s : State) : Host.Outcome State Fault Refusal :=
  .next (s.twigAlu p n src fun x y _ => (x + y, some (decide (256 ≤ x + y))))

/-- TWIG_ADC (R352). -/
def execTwigAdc (p : TwigProc) (n : Bool) (src : AluSrc) (s : State) : Host.Outcome State Fault Refusal :=
  .next (s.twigAlu p n src fun x y c => (x + y + c, some (decide (256 ≤ x + y + c))))

/-- TWIG_SUB: carry 1 on borrow (R352). -/
def execTwigSub (p : TwigProc) (n : Bool) (src : AluSrc) (s : State) : Host.Outcome State Fault Refusal :=
  .next (s.twigAlu p n src fun x y _ => (x + 256 - y, some (decide (x < y))))

/-- TWIG_SBC: carry 1 on borrow (R352). -/
def execTwigSbc (p : TwigProc) (n : Bool) (src : AluSrc) (s : State) : Host.Outcome State Fault Refusal :=
  .next (s.twigAlu p n src fun x y c => (x + 512 - y - c, some (decide (x < y + c))))

/-- TWIG_AND (R352). -/
def execTwigAnd (p : TwigProc) (n : Bool) (src : AluSrc) (s : State) : Host.Outcome State Fault Refusal :=
  .next (s.twigAlu p n src fun x y _ => (x &&& y, none))

/-- TWIG_OR (R352). -/
def execTwigOr (p : TwigProc) (n : Bool) (src : AluSrc) (s : State) : Host.Outcome State Fault Refusal :=
  .next (s.twigAlu p n src fun x y _ => (x ||| y, none))

/-- TWIG_XOR (R352). -/
def execTwigXor (p : TwigProc) (n : Bool) (src : AluSrc) (s : State) : Host.Outcome State Fault Refusal :=
  .next (s.twigAlu p n src fun x y _ => (x ^^^ y, none))

/-- A shift by single steps of value and carry; amount 0 changes neither (R352). -/
def shiftN (f : Nat → Bool → Nat × Bool) : Nat → Nat → Bool → Nat × Bool
  | 0, x, c => (x, c)
  | k + 1, x, c => shiftN f k (f x c).1 (f x c).2

/-- A shift of an accumulator (R352). -/
def State.twigShift (s : State) (p : TwigProc) (n : Bool) (amt : Nat) (f : Nat → Bool → Nat × Bool) : State :=
  s.twigBank p fun b =>
    let r := shiftN f amt (b.get8 (accCode n)) (b.carry n)
    (b.set8 (accCode n) r.1).setCarry n r.2

/-- SHL: left, zeros in; carry the last bit out (R352). -/
def execShl (p : TwigProc) (n : Bool) (amt : BitVec 3) (s : State) : Host.Outcome State Fault Refusal :=
  .next (s.twigShift p n amt.toNat fun x _ => (x * 2 % 256, bitOf x 7))

/-- SHR: right, zeros in (R352). -/
def execShr (p : TwigProc) (n : Bool) (amt : BitVec 3) (s : State) : Host.Outcome State Fault Refusal :=
  .next (s.twigShift p n amt.toNat fun x _ => (x / 2, bitOf x 0))

/-- ASR: right, bit 7 kept (R352). -/
def execAsr (p : TwigProc) (n : Bool) (amt : BitVec 3) (s : State) : Host.Outcome State Fault Refusal :=
  .next (s.twigShift p n amt.toNat fun x _ => (x / 2 + (if bitOf x 7 then 128 else 0), bitOf x 0))

/-- ROL: rotate left; carry the last bit rotated (R352). -/
def execRol (p : TwigProc) (n : Bool) (amt : BitVec 3) (s : State) : Host.Outcome State Fault Refusal :=
  .next (s.twigShift p n amt.toNat fun x _ => (x * 2 % 256 + x / 128 % 2, bitOf x 7))

/-- TWIG_ROR: rotate right; carry the last bit rotated (R352). -/
def execTwigRor (p : TwigProc) (n : Bool) (amt : BitVec 3) (s : State) : Host.Outcome State Fault Refusal :=
  .next (s.twigShift p n amt.toNat fun x _ => (x / 2 + x % 2 * 128, bitOf x 0))

/-- RLC: 9-bit rotate left through the carry (R352). -/
def execRlc (p : TwigProc) (n : Bool) (amt : BitVec 3) (s : State) : Host.Outcome State Fault Refusal :=
  .next (s.twigShift p n amt.toNat fun x c => (x * 2 % 256 + b2n c, bitOf x 7))

/-- RRC: 9-bit rotate right through the carry (R352). -/
def execRrc (p : TwigProc) (n : Bool) (amt : BitVec 3) (s : State) : Host.Outcome State Fault Refusal :=
  .next (s.twigShift p n amt.toNat fun x c => (x / 2 + b2n c * 128, bitOf x 0))

/-! Moves (R348, R350). -/

/-- LDI: an 8-bit immediate (R350). -/
def execLdi (p : TwigProc) (r : BitVec 4) (imm : BitVec 8) (s : State) : Host.Outcome State Fault Refusal :=
  .next (s.twig p 1 fun pc s => if 10 ≤ r.toNat then illegal s else .ok (pc + 2) (s.set8 p r.toNat imm.toNat))

/-- TWIG_MOV: a byte register to a byte register (R350). -/
def execTwigMov (p : TwigProc) (r src : BitVec 4) (s : State) : Host.Outcome State Fault Refusal :=
  .next (s.twig p 1 fun pc s =>
    if 10 ≤ r.toNat ∨ 10 ≤ src.toNat then illegal s else .ok (pc + 2) (s.set8 p r.toNat ((s.pBank p).get8 src.toNat)))

/-- MOV_ADDR_ADDR (R350). -/
def execMovAddrAddr (p : TwigProc) (a b : ANum) (s : State) : Host.Outcome State Fault Refusal :=
  .next (s.twigBank p fun x => x.set16 a (x.get16 b))

/-- MOV_ADDR_DATA_PAIR: a := d(2k+1):d(2k) (R350). -/
def execMovAddrDataPair (p : TwigProc) (a : ANum) (k : BitVec 2) (s : State) : Host.Outcome State Fault Refusal :=
  .next (s.twigBank p fun x => x.set16 a (x.get8 (2 * k.toNat + 1) * 256 + x.get8 (2 * k.toNat)))

/-- MOV_DATA_PAIR_ADDR: d(2k+1):d(2k) := a (R350). -/
def execMovDataPairAddr (p : TwigProc) (k : BitVec 2) (a : ANum) (s : State) : Host.Outcome State Fault Refusal :=
  .next (s.twigBank p fun x => (x.set8 (2 * k.toNat) (x.get16 a)).set8 (2 * k.toNat + 1) (x.get16 a / 256))

/-- tsr of a task of an engine (R347), or of a Forester bank: ready or trapped, no task fields (notes/assumptions/23.md). -/
def State.tsr (s : State) (p : TwigProc) : Nat :=
  let b := s.pBank p
  let cc := b2n b.c1 * 2 + b2n b.c0
  match p with
  | .engine e t =>
    let x := s.task e t
    x.st * 2 ^ 13 + x.cause * 2 ^ 8 + b2n x.tract.isSome * 128 + (if t.val = 0 then 4 else 0) + cc
  | .forester k => (if bitOf s.fst.trapped k then 3 else 1) * 2 ^ 13 + (if k.val = 0 then 4 else 0) + cc

/-- MOV_ADDR_TSR (R350). -/
def execMovAddrTsr (p : TwigProc) (a : ANum) (s : State) : Host.Outcome State Fault Refusal :=
  .next (s.twig p 1 fun pc s => .ok (pc + 2) (s.set16 p a (s.tsr p)))

/-- ADDA: a signed 10-bit immediate, modulo 2^16 (R350). -/
def execAdda (p : TwigProc) (a : ANum) (imm : BitVec 10) (s : State) : Host.Outcome State Fault Refusal :=
  .next (s.twigBank p fun x => x.set16 a ((x.get16 a : Int) + sextNat 10 imm.toNat + 65536).toNat)

/-- LDA: a 16-bit immediate (R350). -/
def execLda (p : TwigProc) (a : ANum) (imm : BitVec 16) (s : State) : Host.Outcome State Fault Refusal :=
  .next (s.twig p 2 fun pc s => .ok (pc + 4) (s.set16 p a imm.toNat))

/-! Branches and jumps (R351, R353). -/

/-- The operands of a compare and branch (R353). -/
def TwigBank.cmpPair (b : TwigBank) (x : CmpOpd) : Nat × Nat :=
  match x with
  | .form0 i j => (b.get8 (accCode i), b.get8 (accCode j))
  | .form1 i v => (b.get8 (accCode i), v.toNat)
  | .form2 i j => (b.get16 i, b.get16 j)

/-- A compare and branch (R353). -/
def State.cmpBranch (s : State) (p : TwigProc) (x : CmpOpd) (disp : BitVec 8) (c : Nat → Nat → Bool) : State :=
  s.twig p 2 fun pc s =>
    let v := (s.pBank p).cmpPair x
    .ok (if c v.1 v.2 then ((pc : Int) + 4 + 2 * sextNat 8 disp.toNat + 65536).toNat else pc + 4) s

/-- CBEQ (R353). -/
def execCbeq (p : TwigProc) (opd : CmpOpd) (disp : BitVec 8) (s : State) : Host.Outcome State Fault Refusal :=
  .next (s.cmpBranch p opd disp fun x y => x == y)

/-- CBNE (R353). -/
def execCbne (p : TwigProc) (opd : CmpOpd) (disp : BitVec 8) (s : State) : Host.Outcome State Fault Refusal :=
  .next (s.cmpBranch p opd disp fun x y => x != y)

/-- CBLT (R353). -/
def execCblt (p : TwigProc) (opd : CmpOpd) (disp : BitVec 8) (s : State) : Host.Outcome State Fault Refusal :=
  .next (s.cmpBranch p opd disp fun x y => decide (x < y))

/-- CBGE (R353). -/
def execCbge (p : TwigProc) (opd : CmpOpd) (disp : BitVec 8) (s : State) : Host.Outcome State Fault Refusal :=
  .next (s.cmpBranch p opd disp fun x y => decide (y ≤ x))

/-- A jump; an odd target is the alignment fault at the jump (R351). -/
def jumpTo (target : Nat) (s : State) : TwR Nat := if target % 2 = 1 then .trap 4 0 target s else .ok target s

/-- TWIG_J (R350). -/
def execTwigJ (p : TwigProc) (target : BitVec 16) (s : State) : Host.Outcome State Fault Refusal :=
  .next (s.twig p 2 fun _ s => jumpTo target.toNat s)

/-- JL: the address of the next instruction to c, then the jump (R351). -/
def execJl (p : TwigProc) (c : ANum) (target : BitVec 16) (s : State) : Host.Outcome State Fault Refusal :=
  .next (s.twig p 2 fun pc s => (jumpTo target.toNat s).bind fun t s => .ok t (s.set16 p c (pc + 4)))

/-- JR (R351). -/
def execJr (p : TwigProc) (b : ANum) (s : State) : Host.Outcome State Fault Refusal :=
  .next (s.twig p 1 fun _ s => jumpTo ((s.pBank p).get16 b) s)

/-! Other banks (R366, R369). -/

/-- The bank that mfb, mtb and rsm of a processor act on: that of task BWIN.WIN, or the Forester bank that trapped last (notes/assumptions/23.md). -/
def State.otherProc (s : State) (p : TwigProc) : TwigProc :=
  match p with
  | .engine e _ => .engine e (Fin.ofNat 1024 (s.eng e).win)
  | .forester _ => .forester (Fin.ofNat 8 s.fst.last)

/-- The other bank at hand: not above MAXTASK, resident, and not held by a port request (R366). -/
def State.otherBank (s : State) (p : TwigProc) : TwR TwigProc :=
  let o := s.otherProc p
  match p with
  | .engine e _ =>
    let w := (s.eng e).win
    let x := s.task e w
    if s.maxTask e < w then .trap 7 2 w s
    else if x.st = 0 ∨ x.resident = true then (if x.stall.isSome then .hold s else .ok o s)
    else if (s.eng e).lru.length < 64 ∧ x.bad = false then
      .ok o (((s.modTask e w fun x => { x with resident := true }).ranBank e w).showResident e)
    else .hold (s.modEng e fun y => { y with need := some w })
  | .forester _ => .ok o s

/-- A 16-bit register of a bank by code 10 to 15 (R347). -/
def State.reg16 (s : State) (o : TwigProc) (c : Nat) : Nat :=
  if c = 10 then s.tsr o else if c = 11 then (s.pBank o).pc else (s.pBank o).get16 (c - 12)

/-- The pairs of codes mfb and mtb move between (R366). -/
def moveOk (own other : Nat) : Bool := if own < 10 then decide (other < 10) else decide (12 ≤ own) && decide (10 ≤ other)

/-- MFB: task 0 reads a register of the other bank (R366). -/
def execMfb (p : TwigProc) (own other : BitVec 4) (s : State) : Host.Outcome State Fault Refusal :=
  let x := own.toNat
  let y := other.toNat
  .next (s.twig p 1 fun pc s =>
    if moveOk x y = false then illegal s
    else if isZero p = false then .trap 2 0 0 s
    else
      (s.otherBank p).bind fun o s =>
        .ok (pc + 2) (if x < 10 then s.set8 p x ((s.pBank o).get8 y) else s.set16 p (x - 12) (s.reg16 o y)))

/-- Write a 16-bit register of the other bank: tsr takes its carry bits alone, pc an even address (R347, R366). -/
def State.set16Code (s : State) (o : TwigProc) (c v : Nat) : State :=
  if c = 10 then s.modPBank o fun b => { b with c0 := bitOf v 0, c1 := bitOf v 1 }
  else if c = 11 then s.modPBank o fun b => { b with pc := v / 2 * 2 }
  else s.set16 o (c - 12) v

/-- The bank holds a task's registers: a free task has none (R349). -/
def State.hasBank (s : State) (o : TwigProc) : Bool :=
  match o with
  | .engine e t => (s.task e t).st != 0
  | .forester _ => true

/-- MTB: task 0 writes a register of the other bank (R366). -/
def execMtb (p : TwigProc) (own other : BitVec 4) (s : State) : Host.Outcome State Fault Refusal :=
  let x := own.toNat
  let y := other.toNat
  .next (s.twig p 1 fun pc s =>
    if moveOk x y = false then illegal s
    else if isZero p = false then .trap 2 0 0 s
    else
      (s.otherBank p).bind fun o s =>
        let b := s.pBank p
        .ok (pc + 2) (if s.hasBank o = false then s else if x < 10 then s.set8 o y (b.get8 x) else s.set16Code o y (b.get16 (x - 12))))

/-- RSM: task 0 resumes (K = 0) or frees (K = 1) the trapped task (R369). -/
def execRsm (p : TwigProc) (k : Bool) (s : State) : Host.Outcome State Fault Refusal :=
  .next (s.twig p 1 fun pc s =>
    if isZero p = false then .trap 2 0 0 s
    else
      match p with
      | .engine e _ =>
        let w := (s.eng e).win
        if (s.task e w).st ≠ 3 then .ok (pc + 2) s
        else .ok (pc + 2) (if k then (s.freeTask e w).pump (e / 2) else s.makeReady e w)
      | .forester _ =>
        let o := s.fst.last
        if bitOf s.fst.trapped o = false then .ok (pc + 2) s
        else .ok (pc + 2) { s with fst := { s.fst with
          trapped := setBit s.fst.trapped o false, busy := if k then setBit s.fst.busy o false else s.fst.busy } })

/-! Waiting and trapping (R351, R359, R360, R368). -/

/-- A task that holds an operation still live (R359): one it was handed and that has not ended. -/
def State.holdsLive (s : State) (e t : Nat) : Bool :=
  match (s.task e t).tract with
  | some (sl, i) => (s.glade (e / 2)).ops.any fun o => o.slice == sl && o.tract == i && o.stage == .issued && o.pend.isNone
  | none => false

/-- Take the oldest selected event, or wait for one (R360). -/
def State.takeOrWait (s : State) (e t mask pc : Nat) : TwR Nat :=
  match (s.task e t).takeEvent mask with
  | some (v, y) => .ok (pc + 2) (s.setTask e t { y with bank := y.bank.loadEvent v.bytes })
  | none => .hold (s.modTask e t fun x => { x with st := 2, mask := mask })

/-- wait of a task (R359, R360, R368): a task that ends, enters TRAPV or waits does not go on past it. -/
def State.waitTask (s : State) (e t mask pc : Nat) : TwR Nat :=
  if bitOf mask 5 then
    if s.holdsLive e t then .trap 9 0 0 s else .hold ((s.freeTask e t).pump (e / 2))
  else if mask = 0 then .ok (pc + 2) s
  else if t = 0 ∧ bitOf mask 7 = true then
    match (s.eng e).traps with
    | h :: r => .hold (s.enterTrap e h r)
    | [] => s.takeOrWait e t mask pc
  else s.takeOrWait e t mask pc

/-- A Forester bank ends the work it is in: the oldest item of its class that firmware alone serves is done, and where another waits the bank goes on at its vector (R475, R476, notes/assumptions/23.md). -/
def State.bankDone (s : State) (b pc : Nat) : TwR Nat :=
  let mine (e : QEnt) : Bool := e.rcd.isNone && (b == 3 || e.work.kind == 2 || decide (8 ≤ e.work.kind.toNat))
  let idle (s : State) : State := { s with fst := { s.fst with busy := setBit s.fst.busy b false } }
  if b = 7 then .ok (pc + 2) (idle s)
  else
    let q := s.queue (b + 1)
    let s := match q.find? mine with
      | some e => s.setQueue (b + 1) (q.erase e)
      | none => s
    if (s.queue (b + 1)).any mine then .ok 0x40 s else .ok (pc + 2) (idle s)

/-- TWIG_WAIT: a task takes the oldest selected event, waits, or ends (R359, R360); a Forester bank has no more work (notes/assumptions/23.md). -/
def execTwigWait (p : TwigProc) (mask : BitVec 8) (s : State) : Host.Outcome State Fault Refusal :=
  let m := mask.toNat
  .next (s.twig p 1 fun pc s =>
    if bitOf m 7 = true ∧ isZero p = false then illegal s
    else
      match p with
      | .engine e t => s.waitTask e t m pc
      | .forester b => s.bankDone b pc)

/-- TRAP: a software trap with its code (R351, R367). -/
def execTrap (p : TwigProc) (code : BitVec 8) (s : State) : Host.Outcome State Fault Refusal :=
  .next (s.twig p 1 fun _ s => .trap 8 code.toNat 0 s)

/-- TWIG_NOP (R351). -/
def execTwigNop (p : TwigProc) (s : State) : Host.Outcome State Fault Refusal :=
  .next (s.twig p 1 fun pc s => .ok (pc + 2) s)

/-! Reserved encodings (R350 to R354). -/

/-- A system word is one of R351's. -/
def sysLegal (w : Nat) (zero : Bool) : Bool :=
  let lo := w % 256
  match w / 256 % 16 with
  | 1 => zero || lo < 128
  | 2 => true
  | 3 => lo < 2
  | 4 => lo == 0
  | 5 => lo % 64 == 0
  | _ => false

/-- Whether a first word with its second word is an encoding of R350 to R353. `zero`: task 0. -/
def twigLegal (w ext : Nat) (zero : Bool) : Bool :=
  let r := w / 256 % 16
  match w / 4096 with
  | 0x0 => sysLegal w zero
  | 0x1 => r < 10
  | 0x2 => r < 10
  | 0x3 => !bitOf w 10
  | 0x4 => w % 256 == 0 && ext < 2 ^ 14 && !(!bitOf w 11 && bitOf w 10 && bitOf ext (10 + w / 256 % 4))
  | 0x5 => bitsOf w 10 8 != 7 || (bitsOf w 7 5 != 7 && bitsOf w 4 3 == 0)
  | 0x6 => bitsOf w 10 8 != 7 && w % 128 == 0
  | 0x7 => r < 10
  | 0x8 => r < 10 && w / 16 % 16 < 10 && w % 16 == 0
  | 0x9 => w % 64 == 0 && (bitsOf w 9 8 != 3 || bitsOf w 7 6 == 0)
  | 0xA => true
  | 0xB => w % 1024 == 0
  | 0xC =>
    match bitsOf w 9 8 with
    | 0 => ext % 2 ^ 14 == 0
    | 1 => bitsOf ext 14 8 == 0
    | 2 => ext % 2 ^ 12 == 0
    | _ => false
  | 0xD => !bitOf w 10 && w % 256 == 0 && (bitOf w 11 || bitsOf w 9 8 == 0)
  | 0xE => w % 8 == 0 && moveOk (bitsOf w 10 7) (bitsOf w 6 3)
  | _ => false

/-- The opcodes that take a second word (R350). -/
def twigTwo (w : Nat) : Bool :=
  let o := w / 4096
  o == 4 || o == 0xB || o == 0xC || o == 0xD

/-- TWIG_ILLEGAL: a reserved encoding traps before any access or register write (R354); an encoding that is none is no such event. -/
def execTwigIllegal (p : TwigProc) (w16 ext : BitVec 16) (s : State) : Host.Outcome State Fault Refusal :=
  .next (
    if twigLegal w16.toNat ext.toNat (isZero p) then s
    else s.twig p (if twigTwo w16.toNat then 2 else 1) fun _ s => illegal s)

end Sys2Proof.Machine
end

