-- ==== Sys2Proof/Machine/TwigRows.lean ====
section
/-! DEFINITION. What a Glade engine does beside its instructions: bank fills, task registers, port requests, movers, microcode swaps and scrub (R346, R359 to R383, R392, R424, R487). -/

namespace Sys2Proof.Machine

/-! Bank fills (R365, R366). -/

/-- The bank that a fill evicts: run least recently among those that may be (R365). -/
def State.victim (s : State) (e : Nat) : Option Nat :=
  (s.eng e).lru.reverse.find? fun t => t != 0 && (s.task e t).stall.isNone && !(s.task e t).filled

/-- A bank is spilled; a ready task without a bank waits for a slot (R365). -/
def State.spill (s : State) (e t : Nat) : State :=
  let s := s.modTask e t fun x => { x with resident := false, filled := false, st := if x.st = 1 then 4 else x.st }
  (s.modEng e fun y => { y with lru := y.lru.filter fun u => u != t }).incF (TWG_STAT e) TWG_STAT_SPILL

/-- A task's image is read into a free slot; one that fails its check makes the task trap with zero registers, and halts the engine where mfb or mtb asked for it (R365, R366, R370). -/
def State.fill (s : State) (e : Nat) (t : TaskId) (ok : Bool) : State :=
  let asked := (s.eng e).need == some t.val
  let s := s.modEng e fun y => { y with need := if asked then none else y.need }
  let good := ok && !(s.task e t).bad
  let s := s.modTask e t fun x => { x with
    resident := true, filled := true, bad := false, st := if x.st = 4 then 1 else x.st, bank := if good then x.bank else TwigBank.zero }
  let s := (s.ranBank e t).showResident e
  if good then s
  else if asked then s.haltEngine e 7
  else s.pTrap (.engine (Fin.ofNat 8 e) t) 7 1 0 0

/-- BANK_FILL: a task that waits for a bank slot, or whose bank mfb or mtb needs, is filled, over a victim where no slot is free (R365, R366). -/
def execBankFill (e : Engine) (task : TaskId) (ok : Bool) (s : State) : Host.Outcome State Fault Refusal :=
  let x := s.task e task
  .next (
    if s.gladeUp (e / 2) = false ∨ x.resident ∨ (x.st ≠ 4 ∧ ((s.eng e).need ≠ some task.val ∨ x.st = 0)) then s
    else if (s.eng e).lru.length < 64 then s.fill e task ok
    else
      match s.victim e with
      | some v => (s.spill e v).fill e task ok
      | none => s)

/-! Register accesses of a task (R346). -/

/-- A task writes a register of its window: the latch holds what it wrote. The store that makes the access advances the pc by itself. -/
def State.taskWrite (s : State) (e : Engine) (t : TaskId) (a : Nat) (v : Word) : State :=
  let p : TwigProc := .engine e t
  if s.pRuns p = false then s
  else
    match s.winWrite e t a v.toNat false with
    | .ok _ s => s.modPBank p fun b => { b with latch := v.toNat, tag := some ((a - 0x8000) / 8) }
    | .trap c i x s => s.pTrap p c i x (s.pBank p).pc
    | .hold s => s

/-- A task reads a register of its window into the latch. -/
def State.taskRead (s : State) (e : Engine) (t : TaskId) (a : Nat) : State :=
  let p : TwigProc := .engine e t
  if s.pRuns p = false then s
  else
    match s.winRead e t a none false with
    | .ok v s => s.modPBank p fun b => { b with latch := v, tag := some ((a - 0x8000) / 8) }
    | .trap c i x s => s.pTrap p c i x (s.pBank p).pc
    | .hold s => s

/-- TWG_T_POST: a task posts the end of an operation (R372). -/
def execTwgTPost (e : Engine) (task : TaskId) (val : Word) (s : State) : Host.Outcome State Fault Refusal :=
  .next (s.taskWrite e task 0x8038 val)

/-- TWG_T_TIMER_WRITE: a task arms or disarms its timer (R373). -/
def execTwgTTimerWrite (e : Engine) (task : TaskId) (val : Word) (s : State) : Host.Outcome State Fault Refusal :=
  .next (s.taskWrite e task 0x8040 val)

/-- TMR_EXPIRE: an armed timer runs out and its event is queued (R361, R373). -/
def execTmrExpire (e : Engine) (task : TaskId) (s : State) : Host.Outcome State Fault Refusal :=
  .next (
    if s.gladeUp (e / 2) = false ∨ (s.task e task).timer = 0 then s
    else (s.modTask e task fun x => { x with timer := 0 }).queueEvent e task tmrEvent)

/-- XDATA_READ: a task reads the register that XADDR names (R376). -/
def execXdataRead (e : Engine) (task : TaskId) (s : State) : Host.Outcome State Fault Refusal := .next (s.taskRead e task 0x8050)

/-- XDATA_WRITE: a task writes the register that XADDR names (R376). -/
def execXdataWrite (e : Engine) (task : TaskId) (val : Word) (s : State) : Host.Outcome State Fault Refusal :=
  .next (s.taskWrite e task 0x8050 val)

/-- PDATA_READ: a task issues a PCIe read (R375). -/
def execPdataRead (e : Engine) (task : TaskId) (s : State) : Host.Outcome State Fault Refusal := .next (s.taskRead e task 0x8060)

/-- PDATA_WRITE: a task issues a PCIe write (R375). -/
def execPdataWrite (e : Engine) (task : TaskId) (val : Word) (s : State) : Host.Outcome State Fault Refusal :=
  .next (s.taskWrite e task 0x8060 val)

/-- What a load that waited writes into its register: `v` the register of the window whole. -/
def State.endLoad (s : State) (p : TwigProc) (ld : Bool × Nat × Nat) (v : Nat) : State :=
  let x := v / 2 ^ (8 * ld.2.2)
  if ld.1 then s.set16 p ld.2.1 x else s.set8 p ld.2.1 x

/-- PORT_REQUEST_DONE: a task's port request ends: PSTAT, a read's data or all ones, and the instruction that made it (R346, R375). -/
def execPortRequestDone (e : Engine) (task : TaskId) (st : BitVec 2) (data : Word) (s : State) : Host.Outcome State Fault Refusal :=
  let p : TwigProc := .engine e task
  let x := s.task e task
  .next (
    match x.stall with
    | none => s
    | some w =>
      if s.gladeUp (e / 2) = false ∨ st.toNat = 3 then s
      else
        let n := 2 ^ bitsOf x.paddr 61 60
        let v := if w.wr then x.pdata else if st.toNat = 0 then data.toNat % 2 ^ (8 * n) else 2 ^ 64 - 1
        let s := s.modTask e task fun x => { x with stall := none, pstat := st.toNat, pdata := v }
        let s := s.modPBank p fun b => { b with latch := v, tag := some 12 }
        let s := match w.ld with | some l => s.endLoad p l v | none => s
        if w.insn then (s.setPc p ((s.pBank p).pc + 2)).pRan p else s)

/-- DMV_SUB: a task submits a transfer to mover m (R374). -/
def execDmvSub (e : Engine) (task : TaskId) (m : Fin 8) (val : Word) (s : State) : Host.Outcome State Fault Refusal :=
  .next (s.taskWrite e task (0x8800 + 0x100 * m.val) val)

/-- TWG_TSTART: task 0 starts a free task (R359, R367). -/
def execTwgTstart (e : Engine) (task : TaskId) (val : Word) (s : State) : Host.Outcome State Fault Refusal :=
  .next (s.taskWrite e task 0x8218 val)

/-- TWG_SIGNAL: task 0 sends an MBX event (R361, R362, R367). -/
def execTwgSignal (e : Engine) (task : TaskId) (val : Word) (s : State) : Host.Outcome State Fault Refusal :=
  .next (s.taskWrite e task 0x8220 val)

/-- TWG_CFG_WRITE: task 0 sets MAXTASK, WBASE and RUN (R359). -/
def execTwgCfgWrite (e : Engine) (task : TaskId) (val : Word) (s : State) : Host.Outcome State Fault Refusal :=
  .next (s.taskWrite e task 0x8200 val)

/-- COL_SUB: a task submits a column job (R392). -/
def execColSub (e : Engine) (task : TaskId) (val : Word) (s : State) : Host.Outcome State Fault Refusal :=
  .next (s.taskWrite e task 0xA000 val)

/-- BRK_SUB: a task submits a Bark job (R424). -/
def execBrkSub (e : Engine) (task : TaskId) (val : Word) (s : State) : Host.Outcome State Fault Refusal :=
  .next (s.taskWrite e task 0xB000 val)

/-! Movers (R374). -/

/-- The status of a slice segment that failed (R374). -/
def movStatus (st : Nat) : Nat :=
  if st = staleGen then 6 else if st = 3 ∨ st = 4 then 2 else if st = 6 then 4 else 3

/-- What a failed segment leaves: charged to the operation (R302), or counted under an old generation (R297). -/
def State.movFail (s : State) (g sl oph st : Nat) : State := if st = staleGen then s.genDrop g sl else s.noteFail g oph st

/-- The length of the next segment: to the end of the transfer, or of a page of a slice side (R301). -/
def MovXfer.segment (m : MovXfer) : Nat :=
  let left := m.len - m.moved
  let lim (k a : Nat) : Nat := if k = 0 then 4096 - (a + m.moved) % 4096 else 4096
  min left (min (lim m.skind m.src) (lim m.dkind m.dst))

/-- The port half of a transfer is active. -/
def State.movPort (s : State) (g : Nat) (m : MovXfer) : Bool := s.getF (GLD_PST g (m.port / 2) (m.port % 2)) GLD_PST_STATE == 3

/-- The bytes of a segment from its source, or its status (R374). -/
def State.movRead (s : State) (g : Nat) (m : MovXfer) (n : Nat) (portOk : Bool) (port : List Byte) : HubR (Except Nat (List Byte)) :=
  if m.skind = 0 then
    let sl := bitsOf m.src 62 55
    match s.sread g sl (bitsOf m.src 54 47) (m.src % 2 ^ 47 + m.moved) n with
    | .ok b s => .ok (.ok b) s
    | .fail st s => .ok (.error (movStatus st)) (s.movFail g sl m.oph st)
    | .need l p w => .need l p w
  else if m.skind = 1 then
    if portOk && s.movPort g m && decide (n ≤ port.length) then .ok (.ok (port.take n)) s else .ok (.error 5) s
  else
    let p : TwigProc := .engine (Fin.ofNat 8 m.eng) 0
    if (s.firstBad p (m.src + m.moved) n).isSome then .ok (.error 4) s
    else .ok (.ok ((List.range n).map fun i => s.locByte p (m.src + m.moved + i))) s

/-- Write a segment to its destination: its status, 0 where it is written (R374). -/
def State.movWrite (s : State) (g : Nat) (m : MovXfer) (b : List Byte) (portOk : Bool) : HubR Nat :=
  if m.dkind = 0 then
    let sl := bitsOf m.dst 62 55
    match s.swrite g sl (bitsOf m.dst 54 47) (m.dst % 2 ^ 47 + m.moved) b with
    | .ok _ s => .ok 0 s
    | .fail st s => .ok (movStatus st) (s.movFail g sl m.oph st)
    | .need l p w => .need l p w
  else if m.dkind = 1 then
    if portOk && s.movPort g m then .ok 0 { s with portTx := some (8 * g + m.port % 8, m.dst + m.moved, b) } else .ok 5 s
  else .ok 0 (s.setLocBytes (.engine (Fin.ofNat 8 m.eng) 0) (m.dst + m.moved) b)

/-- Keep how far a transfer has come. -/
def State.movKeep (s : State) (g : Nat) (m : MovXfer) (n : Nat) : State :=
  s.modGlade g fun x => { x with movs := changeFirst m (fun y => { y with moved := y.moved + n }) x.movs }

/-- The next segment of a transfer, or its end (R374). -/
def State.movStep (s : State) (g : Nat) (m : MovXfer) (portOk : Bool) (port : List Byte) : State :=
  let done (s : State) (m : MovXfer) (st : Nat) : State := (s.movEnd g m st).pump g
  let charged := m.skind == 0 || m.dkind == 0
  if 2 < m.skind then done s m 1
  else if m.moved = m.len then done s m 0
  else if charged && (s.opLive g m.oph).isNone then done s m 6
  else
    let n := m.segment
    ((s.movRead g m n portOk port).bind fun b s =>
      match b with
      | .error st => .ok st s
      | .ok b => s.movWrite g m b portOk).run s
      (fun st s =>
        if st ≠ 0 then done s m st
        else
          let s := s.movKeep g m n
          if m.moved + n = m.len then done s { m with moved := m.moved + n } 0 else s)
      fun _ s => s

/-- MOVER_TRANSFER: mover j mod 8 of Glade j div 8 moves the next segment of the transfer at the head of its queue; with the port's answer and the data it returns (R374). (DESIGN CHOICE, notes/assumptions/46.md.) -/
def execMoverTransfer (mv : Fin 32) (portOk : Bool) (portBytes : List Byte) (s : State) : Host.Outcome State Fault Refusal :=
  let g := mv.val / 8
  .next (
    if s.gladeUp g = false then s
    else
      match (s.glade g).movs.find? fun x => x.mover == mv.val % 8 with
      | some m => s.movStep g m portOk portBytes
      | none => s)

/-! Mailbox, microcode, scrub (R381 to R383, R487). -/

/-- ENGINE_MAILBOX_STORE: a store of an engine's task to its Forester mailbox area; byte 0xEFFF queues class 7 work (R343, R487). -/
def execEngineMailboxStore (e : Engine) (addr : BitVec 16) (bytes : List Byte) (s : State) : Host.Outcome State Fault Refusal :=
  let a := addr.toNat
  .next (
    if s.gladeUp (e / 2) = false ∨ a < 0xE000 ∨ 0xF000 < a + bytes.length then s
    else s.setLocBytes (.engine e 0) a bytes)

/-- The service command that loads an engine's microcode ends (R383). -/
def State.swapEnds (s : State) (e : Nat) : State :=
  match s.svc with
  | some c => if c.op = 3 ∧ c.target = e ∧ c.code = none then { s with svc := some { c with code := some 0 } } else s
  | none => s

/-- MICROCODE_SWAP_DONE: every instruction has reached its END: ACT inverts and dispatch resumes (R383). -/
def execMicrocodeSwapDone (e : Engine) (s : State) : Host.Outcome State Fault Refusal :=
  let r := TWG_MCSTAT e
  .next (
    if s.gladeUp (e / 2) = false ∨ s.getF r TWG_MCSTAT_SWAP = 0 ∨ ((s.eng e).tasks.any fun x => x.2.stall.isSome) = true then s
    else ((s.setF r TWG_MCSTAT_ACT (1 - s.getF r TWG_MCSTAT_ACT)).setF r TWG_MCSTAT_SWAP 0).swapEnds e)

/-- TWIG_SCRUB: what a pass of the scrub finds (R382). -/
def execTwigScrub (e : Engine) (found : TwigScrub) (s : State) : Host.Outcome State Fault Refusal :=
  let r := TWG_MCSTAT e
  let contained (s : State) : State := s.log { block := 0x0D, inst := e, cls := 2, typ := 0x02 }
  .next (
    if s.gladeUp (e / 2) = false then s
    else
      match found with
      | .clean => s
      | .micro store _ ue =>
        if ue = false then s.incF r TWG_MCSTAT_CE
        else if s.getF r TWG_MCSTAT_ACT = b2n store then s.haltEngine e 0
        else (s.setF r (if store then TWG_MCSTAT_VAL1 else TWG_MCSTAT_VAL0) 0).logC 0x0D e 0x02
      | .localRam addr ue =>
        let a := addr.toNat
        let row := locRow (.engine e 0) a
        if ue = false then s.incF (TWG_STAT e) TWG_STAT_CE
        else if row = 3 then contained (s.modGlade (e / 2) fun x => { x with sharedBad := a / 8 :: x.sharedBad.filter fun w => w != a / 8 })
        else if row = 1 ∨ row = 4 then contained (s.modEng e fun x => { x with bad := a / 8 :: x.bad.filter fun w => w != a / 8 })
        else s
      | .spill task ue =>
        if ue = false then s.incF (TWG_STAT e) TWG_STAT_CE
        else if (s.task e task).st = 0 ∨ (s.task e task).resident then s
        else contained (s.modTask e task fun x => { x with bad := true }))

end Sys2Proof.Machine
end

