-- ==== Sys2Proof/Machine/Dispatch.lean ====
section
/-! DEFINITION. One arm per command: each a direct call of the command's meaning. -/

namespace Sys2Proof.Machine

/-- The effect of a command on everything but the queue. -/
def exec (i : Instr) (s : State) : Host.Outcome State Fault Refusal :=
  match i with
  | .registerWrite org blk inst off size val => Sys2Proof.Machine.execRegisterWrite org blk inst off size val s
  | .rcFieldRead org blk inst off size => Sys2Proof.Machine.execRcFieldRead org blk inst off size s
  | .unclockedAccessComplete org blk inst off wr => Sys2Proof.Machine.execUnclockedAccessComplete org blk inst off wr s
  | .tltCmdLoad org => Sys2Proof.Machine.execTltCmdLoad org s
  | .tltCmdClear org blk inst => Sys2Proof.Machine.execTltCmdClear org blk inst s
  | .tltCmdIgnoredOp org op => Sys2Proof.Machine.execTltCmdIgnoredOp org op s
  | .imageVerifyDone => Sys2Proof.Machine.execImageVerifyDone s
  | .ready blk inst => Sys2Proof.Machine.execReady blk inst s
  | .committed => Sys2Proof.Machine.execCommitted s
  | .clearingTimeout => Sys2Proof.Machine.execClearingTimeout s
  | .pwrokAssert strap => Sys2Proof.Machine.execPwrokAssert strap s
  | .romSelfTestDone aOk bOk fuseOk pllOk fuses => Sys2Proof.Machine.execRomSelfTestDone aOk bOk fuseOk pllOk fuses s
  | .svcLinkTrained => Sys2Proof.Machine.execSvcLinkTrained s
  | .svcLinkReset => Sys2Proof.Machine.execSvcLinkReset s
  | .bar2Write off bytes => Sys2Proof.Machine.execBar2Write off bytes s
  | .svpCmdSetLen len => Sys2Proof.Machine.execSvpCmdSetLen len s
  | .loadForFw target len => Sys2Proof.Machine.execLoadForFw target len s
  | .loadTilet target len => Sys2Proof.Machine.execLoadTilet target len s
  | .loadUcode target len => Sys2Proof.Machine.execLoadUcode target len s
  | .loadGladeFw target len started => Sys2Proof.Machine.execLoadGladeFw target len started s
  | .loadKeys target len => Sys2Proof.Machine.execLoadKeys target len s
  | .loadMfw target len => Sys2Proof.Machine.execLoadMfw target len s
  | .release target len bad => Sys2Proof.Machine.execRelease target len bad s
  | .regRead target len => Sys2Proof.Machine.execRegRead target len s
  | .regWrite target len => Sys2Proof.Machine.execRegWrite target len s
  | .resetDomain target len => Sys2Proof.Machine.execResetDomain target len s
  | .svpCmdUnknownOp op target len => Sys2Proof.Machine.execSvpCmdUnknownOp op target len s
  | .svpCommandDone => Sys2Proof.Machine.execSvpCommandDone s
  | .msixCoalesceTimer => Sys2Proof.Machine.execMsixCoalesceTimer s
  | .clocksSeedReady ok => Sys2Proof.Machine.execClocksSeedReady ok s
  | .trainingEnded => Sys2Proof.Machine.execTrainingEnded s
  | .groveTrainTimeout p => Sys2Proof.Machine.execGroveTrainTimeout p s
  | .standResetExit st bad => Sys2Proof.Machine.execStandResetExit st bad s
  | .illegalInstruction t w32 => Sys2Proof.Machine.execIllegalInstruction t w32 s
  | .add t w rd ra rb => Sys2Proof.Machine.execAdd t w rd ra rb s
  | .sub t w rd ra rb => Sys2Proof.Machine.execSub t w rd ra rb s
  | .and t rd ra rb => Sys2Proof.Machine.execAnd t rd ra rb s
  | .or t rd ra rb => Sys2Proof.Machine.execOr t rd ra rb s
  | .xor t rd ra rb => Sys2Proof.Machine.execXor t rd ra rb s
  | .andn t rd ra rb => Sys2Proof.Machine.execAndn t rd ra rb s
  | .orn t rd ra rb => Sys2Proof.Machine.execOrn t rd ra rb s
  | .xnor t rd ra rb => Sys2Proof.Machine.execXnor t rd ra rb s
  | .sll t w rd ra rb => Sys2Proof.Machine.execSll t w rd ra rb s
  | .srl t w rd ra rb => Sys2Proof.Machine.execSrl t w rd ra rb s
  | .sra t w rd ra rb => Sys2Proof.Machine.execSra t w rd ra rb s
  | .ror t w rd ra rb => Sys2Proof.Machine.execRor t w rd ra rb s
  | .slt t rd ra rb => Sys2Proof.Machine.execSlt t rd ra rb s
  | .sltu t rd ra rb => Sys2Proof.Machine.execSltu t rd ra rb s
  | .min t rd ra rb => Sys2Proof.Machine.execMin t rd ra rb s
  | .max t rd ra rb => Sys2Proof.Machine.execMax t rd ra rb s
  | .minu t rd ra rb => Sys2Proof.Machine.execMinu t rd ra rb s
  | .maxu t rd ra rb => Sys2Proof.Machine.execMaxu t rd ra rb s
  | .cmovz t rd ra rb => Sys2Proof.Machine.execCmovz t rd ra rb s
  | .cmovnz t rd ra rb => Sys2Proof.Machine.execCmovnz t rd ra rb s
  | .mul t w rd ra rb => Sys2Proof.Machine.execMul t w rd ra rb s
  | .mulh t rd ra rb => Sys2Proof.Machine.execMulh t rd ra rb s
  | .mulhu t rd ra rb => Sys2Proof.Machine.execMulhu t rd ra rb s
  | .mulhsu t rd ra rb => Sys2Proof.Machine.execMulhsu t rd ra rb s
  | .div t w rd ra rb => Sys2Proof.Machine.execDiv t w rd ra rb s
  | .divu t w rd ra rb => Sys2Proof.Machine.execDivu t w rd ra rb s
  | .rem t w rd ra rb => Sys2Proof.Machine.execRem t w rd ra rb s
  | .remu t w rd ra rb => Sys2Proof.Machine.execRemu t w rd ra rb s
  | .clz t w rd ra => Sys2Proof.Machine.execClz t w rd ra s
  | .ctz t w rd ra => Sys2Proof.Machine.execCtz t w rd ra s
  | .popc t w rd ra => Sys2Proof.Machine.execPopc t w rd ra s
  | .bswap t rd ra => Sys2Proof.Machine.execBswap t rd ra s
  | .sextb t rd ra => Sys2Proof.Machine.execSextb t rd ra s
  | .sexth t rd ra => Sys2Proof.Machine.execSexth t rd ra s
  | .zextw t rd ra => Sys2Proof.Machine.execZextw t rd ra s
  | .jalr t rd ra => Sys2Proof.Machine.execJalr t rd ra s
  | .crc32cb t rd ra rb => Sys2Proof.Machine.execCrc32cb t rd ra rb s
  | .crc32cd t rd ra rb => Sys2Proof.Machine.execCrc32cd t rd ra rb s
  | .addi t rd ra imm => Sys2Proof.Machine.execAddi t rd ra imm s
  | .addiw t rd ra imm => Sys2Proof.Machine.execAddiw t rd ra imm s
  | .andi t rd ra imm => Sys2Proof.Machine.execAndi t rd ra imm s
  | .ori t rd ra imm => Sys2Proof.Machine.execOri t rd ra imm s
  | .xori t rd ra imm => Sys2Proof.Machine.execXori t rd ra imm s
  | .slti t rd ra imm => Sys2Proof.Machine.execSlti t rd ra imm s
  | .sltiu t rd ra imm => Sys2Proof.Machine.execSltiu t rd ra imm s
  | .lui t rd imm => Sys2Proof.Machine.execLui t rd imm s
  | .oris t rd ra imm => Sys2Proof.Machine.execOris t rd ra imm s
  | .addpc t rd imm => Sys2Proof.Machine.execAddpc t rd imm s
  | .slli t rd ra sh => Sys2Proof.Machine.execSlli t rd ra sh s
  | .srli t rd ra sh => Sys2Proof.Machine.execSrli t rd ra sh s
  | .srai t rd ra sh => Sys2Proof.Machine.execSrai t rd ra sh s
  | .rori t rd ra sh => Sys2Proof.Machine.execRori t rd ra sh s
  | .slliw t rd ra sh => Sys2Proof.Machine.execSlliw t rd ra sh s
  | .srliw t rd ra sh => Sys2Proof.Machine.execSrliw t rd ra sh s
  | .sraiw t rd ra sh => Sys2Proof.Machine.execSraiw t rd ra sh s
  | .lb t rd ra disp => Sys2Proof.Machine.execLb t rd ra disp s
  | .lbu t rd ra disp => Sys2Proof.Machine.execLbu t rd ra disp s
  | .lh t rd ra disp => Sys2Proof.Machine.execLh t rd ra disp s
  | .lhu t rd ra disp => Sys2Proof.Machine.execLhu t rd ra disp s
  | .lw t rd ra disp => Sys2Proof.Machine.execLw t rd ra disp s
  | .lwu t rd ra disp => Sys2Proof.Machine.execLwu t rd ra disp s
  | .ld t rd ra disp => Sys2Proof.Machine.execLd t rd ra disp s
  | .ldq t rd ra disp => Sys2Proof.Machine.execLdq t rd ra disp s
  | .sb t rs ra disp => Sys2Proof.Machine.execSb t rs ra disp s
  | .sh t rs ra disp => Sys2Proof.Machine.execSh t rs ra disp s
  | .sw t rs ra disp => Sys2Proof.Machine.execSw t rs ra disp s
  | .sd t rs ra disp => Sys2Proof.Machine.execSd t rs ra disp s
  | .stq t rs ra disp => Sys2Proof.Machine.execStq t rs ra disp s
  | .flw t fd ra disp => Sys2Proof.Machine.execFlw t fd ra disp s
  | .fld t fd ra disp => Sys2Proof.Machine.execFld t fd ra disp s
  | .flq t fd ra disp => Sys2Proof.Machine.execFlq t fd ra disp s
  | .fsw t fs ra disp => Sys2Proof.Machine.execFsw t fs ra disp s
  | .fsd t fs ra disp => Sys2Proof.Machine.execFsd t fs ra disp s
  | .fsq t fs ra disp => Sys2Proof.Machine.execFsq t fs ra disp s
  | .lrsv t rd ra => Sys2Proof.Machine.execLrsv t rd ra s
  | .stcd t rd ra rb => Sys2Proof.Machine.execStcd t rd ra rb s
  | .casd t rd ra rb => Sys2Proof.Machine.execCasd t rd ra rb s
  | .casq t rd ra rb => Sys2Proof.Machine.execCasq t rd ra rb s
  | .aadd t rd ra rb => Sys2Proof.Machine.execAadd t rd ra rb s
  | .swpd t rd ra rb => Sys2Proof.Machine.execSwpd t rd ra rb s
  | .aand t rd ra rb => Sys2Proof.Machine.execAand t rd ra rb s
  | .aor t rd ra rb => Sys2Proof.Machine.execAor t rd ra rb s
  | .beq t ra rb disp => Sys2Proof.Machine.execBeq t ra rb disp s
  | .bne t ra rb disp => Sys2Proof.Machine.execBne t ra rb disp s
  | .blt t ra rb disp => Sys2Proof.Machine.execBlt t ra rb disp s
  | .bge t ra rb disp => Sys2Proof.Machine.execBge t ra rb disp s
  | .bltu t ra rb disp => Sys2Proof.Machine.execBltu t ra rb disp s
  | .bgeu t ra rb disp => Sys2Proof.Machine.execBgeu t ra rb disp s
  | .j t disp => Sys2Proof.Machine.execJ t disp s
  | .jal t disp => Sys2Proof.Machine.execJal t disp s
  | .mvl t rd ra => Sys2Proof.Machine.execMvl t rd ra s
  | .cml t rd ra rb => Sys2Proof.Machine.execCml t rd ra rb s
  | .fll t rd ra => Sys2Proof.Machine.execFll t rd ra s
  | .dadd t rd ra rb l1 l2 => Sys2Proof.Machine.execDadd t rd ra rb l1 l2 s
  | .dsub t rd ra rb l1 l2 => Sys2Proof.Machine.execDsub t rd ra rb l1 l2 s
  | .dcmp t rd ra rb l1 l2 => Sys2Proof.Machine.execDcmp t rd ra rb l1 l2 s
  | .dval t rd ra l1 => Sys2Proof.Machine.execDval t rd ra l1 s
  | .fadd t fmt rm fd fa fb => Sys2Proof.Machine.execFadd t fmt rm fd fa fb s
  | .fsub t fmt rm fd fa fb => Sys2Proof.Machine.execFsub t fmt rm fd fa fb s
  | .fmul t fmt rm fd fa fb => Sys2Proof.Machine.execFmul t fmt rm fd fa fb s
  | .fdiv t fmt rm fd fa fb => Sys2Proof.Machine.execFdiv t fmt rm fd fa fb s
  | .fsqrt t fmt rm fd fa => Sys2Proof.Machine.execFsqrt t fmt rm fd fa s
  | .fmin t fmt fd fa fb => Sys2Proof.Machine.execFmin t fmt fd fa fb s
  | .fmax t fmt fd fa fb => Sys2Proof.Machine.execFmax t fmt fd fa fb s
  | .fminn t fmt fd fa fb => Sys2Proof.Machine.execFminn t fmt fd fa fb s
  | .fmaxn t fmt fd fa fb => Sys2Proof.Machine.execFmaxn t fmt fd fa fb s
  | .fneg t fmt fd fa => Sys2Proof.Machine.execFneg t fmt fd fa s
  | .fabs t fmt fd fa => Sys2Proof.Machine.execFabs t fmt fd fa s
  | .fcpys t fmt fd fa fb => Sys2Proof.Machine.execFcpys t fmt fd fa fb s
  | .fceq t fmt rd fa fb => Sys2Proof.Machine.execFceq t fmt rd fa fb s
  | .fclt t fmt rd fa fb => Sys2Proof.Machine.execFclt t fmt rd fa fb s
  | .fcle t fmt rd fa fb => Sys2Proof.Machine.execFcle t fmt rd fa fb s
  | .fcun t fmt rd fa fb => Sys2Proof.Machine.execFcun t fmt rd fa fb s
  | .fclass t fmt rd fa => Sys2Proof.Machine.execFclass t fmt rd fa s
  | .frint t fmt rm fd fa => Sys2Proof.Machine.execFrint t fmt rm fd fa s
  | .fcvt t fmt rm fd fa src => Sys2Proof.Machine.execFcvt t fmt rm fd fa src s
  | .fcvtis t fmt rm rd fa => Sys2Proof.Machine.execFcvtis t fmt rm rd fa s
  | .fcvtiu t fmt rm rd fa => Sys2Proof.Machine.execFcvtiu t fmt rm rd fa s
  | .fcvtsi t fmt rm fd ra => Sys2Proof.Machine.execFcvtsi t fmt rm fd ra s
  | .fcvtui t fmt rm fd ra => Sys2Proof.Machine.execFcvtui t fmt rm fd ra s
  | .fmvgf t fmt rd fa => Sys2Proof.Machine.execFmvgf t fmt rd fa s
  | .fmvfg t fmt fd ra => Sys2Proof.Machine.execFmvfg t fmt fd ra s
  | .fmadd t fmt rm fd fa fb fc => Sys2Proof.Machine.execFmadd t fmt rm fd fa fb fc s
  | .fmsub t fmt rm fd fa fb fc => Sys2Proof.Machine.execFmsub t fmt rm fd fa fb fc s
  | .fnmadd t fmt rm fd fa fb fc => Sys2Proof.Machine.execFnmadd t fmt rm fd fa fb fc s
  | .fnmsub t fmt rm fd fa fb fc => Sys2Proof.Machine.execFnmsub t fmt rm fd fa fb fc s
  | .sync t => Sys2Proof.Machine.execSync t s
  | .syncComplete t => Sys2Proof.Machine.execSyncComplete t s
  | .drain t => Sys2Proof.Machine.execDrain t s
  | .drainEnd t => Sys2Proof.Machine.execDrainEnd t s
  | .drainTimeout t => Sys2Proof.Machine.execDrainTimeout t s
  | .fbar t => Sys2Proof.Machine.execFbar t s
  | .synci t => Sys2Proof.Machine.execSynci t s
  | .retl t => Sys2Proof.Machine.execRetl t s
  | .wait t => Sys2Proof.Machine.execWait t s
  | .brk t => Sys2Proof.Machine.execBrk t s
  | .pause t => Sys2Proof.Machine.execPause t s
  | .svc t imm => Sys2Proof.Machine.execSvc t imm s
  | .mfs t rd n => Sys2Proof.Machine.execMfs t rd n s
  | .mts t ra n => Sys2Proof.Machine.execMts t ra n s
  | .tlbwr t ra rb => Sys2Proof.Machine.execTlbwr t ra rb s
  | .twalk t rd ra rb => Sys2Proof.Machine.execTwalk t rd ra rb s
  | .tlbiVa t ra rb => Sys2Proof.Machine.execTlbiVa t ra rb s
  | .tlbiVaB t ra rb => Sys2Proof.Machine.execTlbiVaB t ra rb s
  | .tlbiTag t rb => Sys2Proof.Machine.execTlbiTag t rb s
  | .tlbiTagB t rb => Sys2Proof.Machine.execTlbiTagB t rb s
  | .tlbiAll t => Sys2Proof.Machine.execTlbiAll t s
  | .tlbiAllB t => Sys2Proof.Machine.execTlbiAllB t s
  | .wciVa t ra rb => Sys2Proof.Machine.execWciVa t ra rb s
  | .wciVaB t ra rb => Sys2Proof.Machine.execWciVaB t ra rb s
  | .wciTag t rb => Sys2Proof.Machine.execWciTag t rb s
  | .wciTagB t rb => Sys2Proof.Machine.execWciTagB t rb s
  | .wciAll t => Sys2Proof.Machine.execWciAll t s
  | .wciAllB t => Sys2Proof.Machine.execWciAllB t s
  | .invalidationBroadcastReceive src c => Sys2Proof.Machine.execInvalidationBroadcastReceive src c s
  | .invalidationComplete t => Sys2Proof.Machine.execInvalidationComplete t s
  | .clwb t ra => Sys2Proof.Machine.execClwb t ra s
  | .clflush t ra => Sys2Proof.Machine.execClflush t ra s
  | .clinv t ra => Sys2Proof.Machine.execClinv t ra s
  | .clzero t ra => Sys2Proof.Machine.execClzero t ra s
  | .prefr t ra => Sys2Proof.Machine.execPrefr t ra s
  | .prefw t ra => Sys2Proof.Machine.execPrefw t ra s
  | .icinv t ra => Sys2Proof.Machine.execIcinv t ra s
  | .sInterruptEntry t => Sys2Proof.Machine.execSInterruptEntry t s
  | .mInterruptEntry t => Sys2Proof.Machine.execMInterruptEntry t s
  | .stimerMatch t => Sys2Proof.Machine.execStimerMatch t s
  | .identifierArrive t mlevel id => Sys2Proof.Machine.execIdentifierArrive t mlevel id s
  | .mycIpi org val => Sys2Proof.Machine.execMycIpi org val s
  | .takeoverResumeEntry t => Sys2Proof.Machine.execTakeoverResumeEntry t s
  | .retryExhaustedNotification t => Sys2Proof.Machine.execRetryExhaustedNotification t s
  | .windthrowWarning => Sys2Proof.Machine.execWindthrowWarning s
  | .storeVisible t => Sys2Proof.Machine.execStoreVisible t s
  | .deviceStoreAccept t => Sys2Proof.Machine.execDeviceStoreAccept t s
  | .deviceStoreComplete t idx => Sys2Proof.Machine.execDeviceStoreComplete t idx s
  | .deviceStoreTimeout t idx => Sys2Proof.Machine.execDeviceStoreTimeout t idx s
  | .zeroLengthReadSend t target => Sys2Proof.Machine.execZeroLengthReadSend t target s
  | .zeroLengthReadCompletion t target ok => Sys2Proof.Machine.execZeroLengthReadCompletion t target ok s
  | .deviceLoadComplete t ok data => Sys2Proof.Machine.execDeviceLoadComplete t ok data s
  | .deviceLoadTimeout t => Sys2Proof.Machine.execDeviceLoadTimeout t s
  | .reservationDeferExpire t => Sys2Proof.Machine.execReservationDeferExpire t s
  | .hwPrefetch c line => Sys2Proof.Machine.execHwPrefetch c line s
  | .wayDisableDone kind inst way => Sys2Proof.Machine.execWayDisableDone kind inst way s
  | .wayWindowEnd l3 => Sys2Proof.Machine.execWayWindowEnd l3 s
  | .wayReenable org l3 inst val => Sys2Proof.Machine.execWayReenable org l3 inst val s
  | .rds h => Sys2Proof.Machine.execRds h s
  | .rdo h => Sys2Proof.Machine.execRdo h s
  | .upg h => Sys2Proof.Machine.execUpg h s
  | .rdz h => Sys2Proof.Machine.execRdz h s
  | .wbk h data => Sys2Proof.Machine.execWbk h data s
  | .evn h => Sys2Proof.Machine.execEvn h s
  | .cmw h => Sys2Proof.Machine.execCmw h s
  | .cmf h => Sys2Proof.Machine.execCmf h s
  | .cmi h => Sys2Proof.Machine.execCmi h s
  | .pwb h data => Sys2Proof.Machine.execPwb h data s
  | .snps h => Sys2Proof.Machine.execSnps h s
  | .snpo h => Sys2Proof.Machine.execSnpo h s
  | .snpi h => Sys2Proof.Machine.execSnpi h s
  | .snpw h => Sys2Proof.Machine.execSnpw h s
  | .binv h => Sys2Proof.Machine.execBinv h s
  | .spurge h => Sys2Proof.Machine.execSpurge h s
  | .cmp h => Sys2Proof.Machine.execCmp h s
  | .gnt h => Sys2Proof.Machine.execGnt h s
  | .srsp h => Sys2Proof.Machine.execSrsp h s
  | .invack h => Sys2Proof.Machine.execInvack h s
  | .wack h => Sys2Proof.Machine.execWack h s
  | .cmack h => Sys2Proof.Machine.execCmack h s
  | .pack h => Sys2Proof.Machine.execPack h s
  | .err h => Sys2Proof.Machine.execErr h s
  | .data h data => Sys2Proof.Machine.execData h data s
  | .srspd h data => Sys2Proof.Machine.execSrspd h data s
  | .mrd h lo size8 => Sys2Proof.Machine.execMrd h lo size8 s
  | .mwr h lo size8 val => Sys2Proof.Machine.execMwr h lo size8 val s
  | .tlbb h bgrp fn ra rb => Sys2Proof.Machine.execTlbb h bgrp fn ra rb s
  | .mrsp h val => Sys2Proof.Machine.execMrsp h val s
  | .tlba h => Sys2Proof.Machine.execTlba h s
  | .unknownOpcode p => Sys2Proof.Machine.execUnknownOpcode p s
  | .canopyWayReenable org bank val => Sys2Proof.Machine.execCanopyWayReenable org bank val s
  | .nak p lseq => Sys2Proof.Machine.execNak p lseq s
  | .flitCrcFailure p => Sys2Proof.Machine.execFlitCrcFailure p s
  | .relayedFlit p f => Sys2Proof.Machine.execRelayedFlit p f s
  | .resume p lost lseq => Sys2Proof.Machine.execResume p lost lseq s
  | .wthrow m => Sys2Proof.Machine.execWthrow m s
  | .flitTimeout p => Sys2Proof.Machine.execFlitTimeout p s
  | .laneFail p lane => Sys2Proof.Machine.execLaneFail p lane s
  | .quickRetrainDone p ok ident => Sys2Proof.Machine.execQuickRetrainDone p ok ident s
  | .quickRetrainTimeout p => Sys2Proof.Machine.execQuickRetrainTimeout p s
  | .grovePortTrained p lanes ident => Sys2Proof.Machine.execGrovePortTrained p lanes ident s
  | .severanceTimeout m => Sys2Proof.Machine.execSeveranceTimeout m s
  | .rootLinkTrainTimeout n step => Sys2Proof.Machine.execRootLinkTrainTimeout n step s
  | .rootLinkInService n x4 capq => Sys2Proof.Machine.execRootLinkInService n x4 capq s
  | .cxlReadResponse n la poison => Sys2Proof.Machine.execCxlReadResponse n la poison s
  | .cxlWriteCompletion n la => Sys2Proof.Machine.execCxlWriteCompletion n la s
  | .mtmoExpire n la wr => Sys2Proof.Machine.execMtmoExpire n la wr s
  | .rootLinkDown n => Sys2Proof.Machine.execRootLinkDown n s
  | .rootLinkRetrainTimeout n => Sys2Proof.Machine.execRootLinkRetrainTimeout n s
  | .revive org n => Sys2Proof.Machine.execRevive org n s
  | .holdSet org n => Sys2Proof.Machine.execHoldSet org n s
  | .holdClear org n => Sys2Proof.Machine.execHoldClear org n s
  | .rtlCfgGo org n val => Sys2Proof.Machine.execRtlCfgGo org n val s
  | .rtlCfgDone n ok data => Sys2Proof.Machine.execRtlCfgDone n ok data s
  | .mirrorCopyLine k => Sys2Proof.Machine.execMirrorCopyLine k s
  | .patrolScrubLine n poison => Sys2Proof.Machine.execPatrolScrubLine n poison s
  | .inboundWrite g ph addr bytes => Sys2Proof.Machine.execInboundWrite g ph addr bytes s
  | .inboundRead g ph addr len => Sys2Proof.Machine.execInboundRead g ph addr len s
  | .msixMessage g ph addr data => Sys2Proof.Machine.execMsixMessage g ph addr data s
  | .inboundK1Other g ph addr => Sys2Proof.Machine.execInboundK1Other g ph addr s
  | .portHalfUp g ph speed width => Sys2Proof.Machine.execPortHalfUp g ph speed width s
  | .portHalfDown g ph => Sys2Proof.Machine.execPortHalfDown g ph s
  | .bind org g sl arg => Sys2Proof.Machine.execBind org g sl arg s
  | .unbind org g sl arg => Sys2Proof.Machine.execUnbind org g sl arg s
  | .openTract org g sl arg => Sys2Proof.Machine.execOpenTract org g sl arg s
  | .closeTract org g sl arg => Sys2Proof.Machine.execCloseTract org g sl arg s
  | .loadWin org g sl arg => Sys2Proof.Machine.execLoadWin org g sl arg s
  | .loadCq org g sl arg => Sys2Proof.Machine.execLoadCq org g sl arg s
  | .dlswap org g sl arg => Sys2Proof.Machine.execDlswap org g sl arg s
  | .sliceCmdUnknownOp org g sl op => Sys2Proof.Machine.execSliceCmdUnknownOp org g sl op s
  | .genWaitElapsed g sl => Sys2Proof.Machine.execGenWaitElapsed g sl s
  | .doorbell org g sl val => Sys2Proof.Machine.execDoorbell org g sl val s
  | .cqDoorbell org g sl val => Sys2Proof.Machine.execCqDoorbell org g sl val s
  | .gcwFetch g tract => Sys2Proof.Machine.execGcwFetch g tract s
  | .tractTaskBind g tract task => Sys2Proof.Machine.execTractTaskBind g tract task s
  | .operationTimeout g op => Sys2Proof.Machine.execOperationTimeout g op s
  | .coalesceTimeout g sl q => Sys2Proof.Machine.execCoalesceTimeout g sl q s
  | .dirtyLogConfigWrite org g sl reg val => Sys2Proof.Machine.execDirtyLogConfigWrite org g sl reg val s
  | .gladeRestoreDone g => Sys2Proof.Machine.execGladeRestoreDone g s
  | .ledgerWriteRetry g sl => Sys2Proof.Machine.execLedgerWriteRetry g sl s
  | .ldgHaltWrite org g sl halt => Sys2Proof.Machine.execLdgHaltWrite org g sl halt s
  | .adopt org g sl => Sys2Proof.Machine.execAdopt org g sl s
  | .twigLd p r b disp => Sys2Proof.Machine.execTwigLd p r b disp s
  | .twigSt p r b disp => Sys2Proof.Machine.execTwigSt p r b disp s
  | .twigLdAddr p a b disp => Sys2Proof.Machine.execTwigLdAddr p a b disp s
  | .twigStAddr p a b disp => Sys2Proof.Machine.execTwigStAddr p a b disp s
  | .ldm p w b mask => Sys2Proof.Machine.execLdm p w b mask s
  | .stm p w b mask => Sys2Proof.Machine.execStm p w b mask s
  | .twigAdd p n src => Sys2Proof.Machine.execTwigAdd p n src s
  | .twigAdc p n src => Sys2Proof.Machine.execTwigAdc p n src s
  | .twigSub p n src => Sys2Proof.Machine.execTwigSub p n src s
  | .twigSbc p n src => Sys2Proof.Machine.execTwigSbc p n src s
  | .twigAnd p n src => Sys2Proof.Machine.execTwigAnd p n src s
  | .twigOr p n src => Sys2Proof.Machine.execTwigOr p n src s
  | .twigXor p n src => Sys2Proof.Machine.execTwigXor p n src s
  | .shl p n amt => Sys2Proof.Machine.execShl p n amt s
  | .shr p n amt => Sys2Proof.Machine.execShr p n amt s
  | .asr p n amt => Sys2Proof.Machine.execAsr p n amt s
  | .rol p n amt => Sys2Proof.Machine.execRol p n amt s
  | .twigRor p n amt => Sys2Proof.Machine.execTwigRor p n amt s
  | .rlc p n amt => Sys2Proof.Machine.execRlc p n amt s
  | .rrc p n amt => Sys2Proof.Machine.execRrc p n amt s
  | .ldi p r imm => Sys2Proof.Machine.execLdi p r imm s
  | .twigMov p r src => Sys2Proof.Machine.execTwigMov p r src s
  | .movAddrAddr p a b => Sys2Proof.Machine.execMovAddrAddr p a b s
  | .movAddrDataPair p a k => Sys2Proof.Machine.execMovAddrDataPair p a k s
  | .movDataPairAddr p k a => Sys2Proof.Machine.execMovDataPairAddr p k a s
  | .movAddrTsr p a => Sys2Proof.Machine.execMovAddrTsr p a s
  | .adda p a imm => Sys2Proof.Machine.execAdda p a imm s
  | .lda p a imm => Sys2Proof.Machine.execLda p a imm s
  | .cbeq p opd disp => Sys2Proof.Machine.execCbeq p opd disp s
  | .cbne p opd disp => Sys2Proof.Machine.execCbne p opd disp s
  | .cblt p opd disp => Sys2Proof.Machine.execCblt p opd disp s
  | .cbge p opd disp => Sys2Proof.Machine.execCbge p opd disp s
  | .twigJ p target => Sys2Proof.Machine.execTwigJ p target s
  | .jl p c target => Sys2Proof.Machine.execJl p c target s
  | .jr p b => Sys2Proof.Machine.execJr p b s
  | .mfb p own other => Sys2Proof.Machine.execMfb p own other s
  | .mtb p own other => Sys2Proof.Machine.execMtb p own other s
  | .twigWait p mask => Sys2Proof.Machine.execTwigWait p mask s
  | .trap p code => Sys2Proof.Machine.execTrap p code s
  | .rsm p k => Sys2Proof.Machine.execRsm p k s
  | .twigNop p => Sys2Proof.Machine.execTwigNop p s
  | .twigIllegal p w16 ext => Sys2Proof.Machine.execTwigIllegal p w16 ext s
  | .bankFill e task ok => Sys2Proof.Machine.execBankFill e task ok s
  | .twgTPost e task val => Sys2Proof.Machine.execTwgTPost e task val s
  | .twgTTimerWrite e task val => Sys2Proof.Machine.execTwgTTimerWrite e task val s
  | .tmrExpire e task => Sys2Proof.Machine.execTmrExpire e task s
  | .xdataRead e task => Sys2Proof.Machine.execXdataRead e task s
  | .xdataWrite e task val => Sys2Proof.Machine.execXdataWrite e task val s
  | .pdataRead e task => Sys2Proof.Machine.execPdataRead e task s
  | .pdataWrite e task val => Sys2Proof.Machine.execPdataWrite e task val s
  | .portRequestDone e task st data => Sys2Proof.Machine.execPortRequestDone e task st data s
  | .dmvSub e task m val => Sys2Proof.Machine.execDmvSub e task m val s
  | .moverTransfer mv portOk portBytes => Sys2Proof.Machine.execMoverTransfer mv portOk portBytes s
  | .twgTstart e task val => Sys2Proof.Machine.execTwgTstart e task val s
  | .twgSignal e task val => Sys2Proof.Machine.execTwgSignal e task val s
  | .twgCfgWrite e task val => Sys2Proof.Machine.execTwgCfgWrite e task val s
  | .engineMailboxStore e addr bytes => Sys2Proof.Machine.execEngineMailboxStore e addr bytes s
  | .microcodeSwapDone e => Sys2Proof.Machine.execMicrocodeSwapDone e s
  | .twigScrub e found => Sys2Proof.Machine.execTwigScrub e found s
  | .colSub e task val => Sys2Proof.Machine.execColSub e task val s
  | .compressJob g sl q fault => Sys2Proof.Machine.execCompressJob g sl q fault s
  | .decompressJob g sl q fault => Sys2Proof.Machine.execDecompressJob g sl q fault s
  | .scanJob g sl q fault => Sys2Proof.Machine.execScanJob g sl q fault s
  | .columnJobEnd g sl q => Sys2Proof.Machine.execColumnJobEnd g sl q s
  | .brkSub e task val => Sys2Proof.Machine.execBrkSub e task val s
  | .gcmJob g sl fault => Sys2Proof.Machine.execGcmJob g sl fault s
  | .gmacJob g sl fault => Sys2Proof.Machine.execGmacJob g sl fault s
  | .xtsJob g sl fault => Sys2Proof.Machine.execXtsJob g sl fault s
  | .cbcJob g sl fault => Sys2Proof.Machine.execCbcJob g sl fault s
  | .ctrJob g sl fault => Sys2Proof.Machine.execCtrJob g sl fault s
  | .cmacJob g sl fault => Sys2Proof.Machine.execCmacJob g sl fault s
  | .barkJobEnd g sl => Sys2Proof.Machine.execBarkJobEnd g sl s
  | .deviceKeyPairReady d => Sys2Proof.Machine.execDeviceKeyPairReady d s
  | .rngHealthFail => Sys2Proof.Machine.execRngHealthFail s
  | .instructionRetry t check => Sys2Proof.Machine.execInstructionRetry t check s
  | .hangDetect t => Sys2Proof.Machine.execHangDetect t s
  | .cpcApprove org reqid => Sys2Proof.Machine.execCpcApprove org reqid s
  | .cpcDecline org reqid => Sys2Proof.Machine.execCpcDecline org reqid s
  | .cpcAppInvalid org val => Sys2Proof.Machine.execCpcAppInvalid org val s
  | .appwaitExpire reqid => Sys2Proof.Machine.execAppwaitExpire reqid s
  | .takeoverDrainDone c lost => Sys2Proof.Machine.execTakeoverDrainDone c lost s
  | .spareEntryCheckDone c ok => Sys2Proof.Machine.execSpareEntryCheckDone c ok s
  | .takeoverTransfer c ok us => Sys2Proof.Machine.execTakeoverTransfer c ok us s
  | .spareSelfTestPass c ok => Sys2Proof.Machine.execSpareSelfTestPass c ok s
  | .errorRecord rep => Sys2Proof.Machine.execErrorRecord rep s
  | .uncontainedTrigger trig blk => Sys2Proof.Machine.execUncontainedTrigger trig blk s
  | .arrayScrub hit => Sys2Proof.Machine.execArrayScrub hit s
  | .foresterTakeover cause => Sys2Proof.Machine.execForesterTakeover cause s
  | .watchdogExpire => Sys2Proof.Machine.execWatchdogExpire s
  | .watchdogKick unitB => Sys2Proof.Machine.execWatchdogKick unitB s
  | .foresterTick => Sys2Proof.Machine.execForesterTick s
  | .foresterWorkArrival cls work => Sys2Proof.Machine.execForesterWorkArrival cls work s
  | .outputStageCommand stage claim seq cmd => Sys2Proof.Machine.execOutputStageCommand stage claim seq cmd s
  | .logHeadWrite org val => Sys2Proof.Machine.execLogHeadWrite org val s
  | .handoverQuiesced ok => Sys2Proof.Machine.execHandoverQuiesced ok s
  | .forMbdb org p val => Sys2Proof.Machine.execForMbdb org p val s
  | .mboxResetDomain p => Sys2Proof.Machine.execMboxResetDomain p s
  | .mboxPing p => Sys2Proof.Machine.execMboxPing p s
  | .mboxUnknownOp p => Sys2Proof.Machine.execMboxUnknownOp p s
  | .mailboxInit p => Sys2Proof.Machine.execMailboxInit p s
  | .foresterMemoryAccess p acc => Sys2Proof.Machine.execForesterMemoryAccess p acc s
  | .pwrokDeassert longPulse => Sys2Proof.Machine.execPwrokDeassert longPulse s
  | .controllerEvaluation tele => Sys2Proof.Machine.execControllerEvaluation tele s
  | .avsVoltageDone st => Sys2Proof.Machine.execAvsVoltageDone st s
  | .avsError st => Sys2Proof.Machine.execAvsError st s
  | .pmbusPoll rail ans => Sys2Proof.Machine.execPmbusPoll rail ans s
  | .pmbAlert rail status => Sys2Proof.Machine.execPmbAlert rail status s
  | .railOutOfTolerance rail mv for2us => Sys2Proof.Machine.execRailOutOfTolerance rail mv for2us s
  | .prochotAssert => Sys2Proof.Machine.execProchotAssert s
  | .prochotRelease => Sys2Proof.Machine.execProchotRelease s
  | .standOvercurrent st high => Sys2Proof.Machine.execStandOvercurrent st high s
  | .tjEmergency hot tj idx => Sys2Proof.Machine.execTjEmergency hot tj idx s
  | .thermtrip tj idx => Sys2Proof.Machine.execThermtrip tj idx s
  | .referenceLoss ref => Sys2Proof.Machine.execReferenceLoss ref s
  | .referenceReturn ref => Sys2Proof.Machine.execReferenceReturn ref s
  | .bypass code => Sys2Proof.Machine.execBypass code s
  | .idcode => Sys2Proof.Machine.execIdcode s
  | .samplePreload => Sys2Proof.Machine.execSamplePreload s
  | .extest => Sys2Proof.Machine.execExtest s
  | .clamp => Sys2Proof.Machine.execClamp s
  | .highz => Sys2Proof.Machine.execHighz s
  | .testLogicReset => Sys2Proof.Machine.execTestLogicReset s
  | .setdasa addr => Sys2Proof.Machine.execSetdasa addr s
  | .entdaa addr => Sys2Proof.Machine.execEntdaa addr s
  | .rstdaa => Sys2Proof.Machine.execRstdaa s
  | .enec ev => Sys2Proof.Machine.execEnec ev s
  | .disec ev => Sys2Proof.Machine.execDisec ev s
  | .getpid => Sys2Proof.Machine.execGetpid s
  | .getbcr => Sys2Proof.Machine.execGetbcr s
  | .getdcr => Sys2Proof.Machine.execGetdcr s
  | .getstatus => Sys2Proof.Machine.execGetstatus s
  | .getmwl => Sys2Proof.Machine.execGetmwl s
  | .getmrl => Sys2Proof.Machine.execGetmrl s
  | .i3cPrivateWrite bytes => Sys2Proof.Machine.execI3cPrivateWrite bytes s
  | .i3cPrivateRead len => Sys2Proof.Machine.execI3cPrivateRead len s
  | .retryWindowEnd => Sys2Proof.Machine.execRetryWindowEnd s
  | .canopyWindowEnd => Sys2Proof.Machine.execCanopyWindowEnd s
  | .aerEvent root inst corr => Sys2Proof.Machine.execAerEvent root inst corr s
  | .intxMessage g ph => Sys2Proof.Machine.execIntxMessage g ph s
  | .idleFlit p lack vc cred => Sys2Proof.Machine.execIdleFlit p lack vc cred s

end Sys2Proof.Machine
end

