-- ==== Sys2Proof/Machine/Tick.lean ====
section
/-! DEFINITION. What a tick of the clock does while no command waits: one nanosecond passes, and what waits for nothing goes on (notes/assumptions/6.md). -/

namespace Sys2Proof.Machine

/-- The cycles of a Stand's clock in nanosecond `n` since power-up: EFF counts 25 MHz (R100, R508). -/
def State.cyclesAt (s : State) (st n : Nat) : Nat := (n + 1) * s.eff st / 40 - n * s.eff st / 40

/-- One thread's CYCLE and its counters of cycles (R100, R101). -/
def Thread.cycle (x : Thread) (n : Nat) : Thread :=
  let y := (x.setSr SR_CYCLE (x.srg SR_CYCLE + BitVec.ofNat 64 n)).pmc 0x01 n
  if 48 ≤ x.sb.length then y.pmc 0x07 n else y

/-- The threads count the cycles of this nanosecond. -/
def State.countCycles (s : State) : State :=
  s.runningThreads.foldl (fun s t =>
    let n := s.cyclesAt (standOf (s.pcore t)) s.uptime
    if n = 0 then s else s.modThr t fun x => x.cycle n) s

/-- The time bases advance (R100, R457). -/
def State.passTime (s : State) : State := { s with time := s.time + 1, uptime := s.uptime + 1 }

/-- Windthrow advances: step 3 at 5 µs, step 4 at 20 µs (R466). -/
def State.windTick (s : State) : State :=
  if s.wind = 0 ∨ s.wind = 3 then s
  else
    let s : State := { s with windAge := s.windAge + 1 }
    if s.wind = 1 ∧ 5000 ≤ s.windAge then s.windClose
    else if s.wind = 2 ∧ 20000 ≤ s.windAge then s.windStop
    else s

/-- What waits for nothing goes on: deferred snoops, Canopy ways, Glade pumps, one record, the loader, the service command, the I3C target. -/
def State.settle (s : State) : State :=
  let s := s.serveDeferred.settleCanopy
  let s := (List.range 4).foldl (fun s g => if s.gladeUp g then s.pump g else s) s
  ((s.serveRecord.settleLoader).svcBegin).i3cSettle

/-- One nanosecond passes; before PWROK nothing runs (R496). -/
def State.tick (s : State) : State := if s.pwrok then (s.countCycles.passTime.windTick).settle else s

end Sys2Proof.Machine
end

