-- ==== Sys2Proof/Safety.lean ====
section
/-! DEFINITION. What counts as a safe run, and the terms the statements use: a thread ready to perform an instruction, and the state after its fetch. -/

namespace Sys2Proof

/-- A run of `n` steps that ends in a state: no fault and no refusal stopped it. -/
def Safe (n : Nat) (s : Machine.State) : Prop := ∃ t, Host.Core.run core n s = .next t

end Sys2Proof

namespace Sys2Proof.Machine

/-- An instruction's part that went on without an exception, a machine check or a wait. -/
def Ex.isOk {α : Type} : Ex α → Bool
  | .ok _ _ => true
  | _ => false

/-- The state an instruction's part leaves. -/
def Ex.state {α : Type} : Ex α → State
  | .ok _ s => s
  | .exc _ s => s
  | .mchk _ _ s => s
  | .hold s => s

/-- The value an instruction's part gives, if it went on. -/
def Ex.value? {α : Type} : Ex α → Option α
  | .ok a _ => some a
  | _ => none

/-- The state once the thread has fetched its instruction (R114 step 1). -/
def State.fetched (s : State) (t : Nat) : State := (s.fetch t).state

/-- The thread runs and starts an instruction: it waits for nothing, no event is due at the boundary (R128), its fetch succeeds, and its level and PST.FEN allow an instruction of level `lvl` that is floating-point or not (R114 steps 1 to 4). -/
def State.ready (s : State) (t lvl : Nat) (fp : Bool) : Bool :=
  (s.thr t).run == .running && (s.thr t).wait == .none && (s.thr t).devLoad == [] && (s.boundary t).isNone
    && (s.fetch t).isOk && decide (lvl ≤ ((s.fetched t).thr t).pl) && (!fp || ((s.fetched t).thr t).pstBit PST_FEN)

end Sys2Proof.Machine
end

