-- ==== Sys2Proof/WellFormed.lean ====
section
/-! DEFINITION. The well-formed commands: the bounds on operands that their types do not give. -/

namespace Sys2Proof

/-- The access sizes an agent of the module or of the Grove can issue to a register window (R6, R98, R205). -/
def accessSize (n : Nat) : Bool := n == 1 || n == 2 || n == 4 || n == 8 || n == 16

/-- The bounds: block codes and instances of R515, offsets within the largest window, access sizes, CXL.mem device addresses, payload lengths. Every other operand is bounded by its type. -/
def Instr.wf : Instr → Bool
  | .registerWrite _ blk inst off size _ => decide (blk < 256) && decide (inst < 256) && decide (off < 2 ^ 32) && accessSize size
  | .rcFieldRead _ blk inst off size => decide (blk < 256) && decide (inst < 256) && decide (off < 2 ^ 32) && accessSize size
  | .unclockedAccessComplete _ blk inst off _ => decide (blk < 256) && decide (inst < 256) && decide (off < 2 ^ 32)
  | .bar2Write off bytes => decide (off + bytes.length ≤ 2 ^ 28)
  | .cxlReadResponse _ la _ => decide (la < 2 ^ 41) && decide (la % 256 = 0)
  | .cxlWriteCompletion _ la => decide (la < 2 ^ 41) && decide (la % 256 = 0)
  | .mtmoExpire _ la _ => decide (la < 2 ^ 41) && decide (la % 256 = 0)
  | .inboundWrite _ _ _ bytes => decide (bytes.length ≤ 4096)
  | .inboundRead _ _ _ len => decide (len ≤ 4096)
  | .moverTransfer _ _ bytes => decide (bytes.length ≤ 2 ^ 24)
  | .i3cPrivateWrite bytes => decide (bytes.length ≤ 256)
  | .i3cPrivateRead len => decide (len ≤ 256)
  | _ => true

end Sys2Proof
end

