-- ==== Sys2Proof/Certificates/Slice0/Obligations.lean ====
section
/-! DEFINITION. The statements about the model, with the terms they are stated in. -/

open Sys2Proof Sys2Proof.Machine

/-- For every command c, queue q and state s whose queue is c followed by q: step of s is exec of c on s with the queue q. The queue is the model's own: a block takes commands from outside, first in, first out. (00_scope.md) -/
def Obligations.StepRunsFrontCommand : Prop :=
  ∀ (c : Instr) (q : List Instr) (s : State), s.pending = c :: q → step s = exec c { s with pending := q }

/-- For every state with an empty queue: with PWROK low nothing changes, and with PWROK high one nanosecond passes, in which the running threads count their cycles, TIME advances by 1 (it counts at 1 GHz), Windthrow advances, and what waits for nothing goes on. That the tick stands in place of idling is the model's choice (notes/assumptions/6.md). (04_cores.md, 19_package.md) -/
def Obligations.StepIdleIsTick : Prop :=
  ∀ s : State, s.pending = [] →
    (s.pwrok = false → step s = .next s) ∧
    (s.pwrok = true → step s = .next ({ s.countCycles with
        time := s.countCycles.time + 1, uptime := s.countCycles.uptime + 1 } : State).windTick.settle)

namespace Sys2Proof.Machine

/-- An operation on 64 bits, or on bits [31:0] with the result sign-extended where W is 1 (R75). -/
def atWidth (w : Bool) (f : (n : Nat) → BitVec n → BitVec n → BitVec n) (a b : Word) : Word :=
  if w then (f 32 (a.setWidth 32) (b.setWidth 32)).signExtend 64 else f 64 a b

/-- The quotient at `n` bits of R134: rounded toward zero, and where none is representable the nearest representable value in the direction of the dividend's sign. -/
def divSat (n : Nat) (a b : Int) : Int :=
  if b = 0 then (if a < 0 then -(2 ^ (n - 1)) else 2 ^ (n - 1) - 1) else min (a.tdiv b) (2 ^ (n - 1) - 1)

/-- What an integer instruction computes (R75 to R78, R134): its thread, whether a constrained loop may hold it (R203), its destination, and the value from the thread as it stands. -/
def intOp : Instr → Option (Thr × Bool × GReg × (Thread → Word))
  | .add t w rd ra rb => some (t, true, rd, fun x => atWidth w (fun _ a b => a + b) (x.gr ra) (x.gr rb))
  | .sub t w rd ra rb => some (t, true, rd, fun x => atWidth w (fun _ a b => a - b) (x.gr ra) (x.gr rb))
  | .and t rd ra rb => some (t, true, rd, fun x => let a := x.gr ra; let b := x.gr rb; a &&& b)
  | .or t rd ra rb => some (t, true, rd, fun x => let a := x.gr ra; let b := x.gr rb; a ||| b)
  | .xor t rd ra rb => some (t, true, rd, fun x => let a := x.gr ra; let b := x.gr rb; a ^^^ b)
  | .andn t rd ra rb => some (t, true, rd, fun x => let a := x.gr ra; let b := x.gr rb; a &&& ~~~b)
  | .orn t rd ra rb => some (t, true, rd, fun x => let a := x.gr ra; let b := x.gr rb; a ||| ~~~b)
  | .xnor t rd ra rb => some (t, true, rd, fun x => let a := x.gr ra; let b := x.gr rb; ~~~(a ^^^ b))
  | .sll t w rd ra rb => some (t, true, rd, fun x => atWidth w (fun n a b => a <<< (b.toNat % n)) (x.gr ra) (x.gr rb))
  | .srl t w rd ra rb => some (t, true, rd, fun x => atWidth w (fun n a b => a >>> (b.toNat % n)) (x.gr ra) (x.gr rb))
  | .sra t w rd ra rb => some (t, true, rd, fun x => atWidth w (fun n a b => a.sshiftRight (b.toNat % n)) (x.gr ra) (x.gr rb))
  | .ror t w rd ra rb => some (t, true, rd, fun x => atWidth w (fun n a b => a.rotateRight (b.toNat % n)) (x.gr ra) (x.gr rb))
  | .slt t rd ra rb => some (t, true, rd, fun x => let a := x.gr ra; let b := x.gr rb; if a.toInt < b.toInt then 1 else 0)
  | .sltu t rd ra rb => some (t, true, rd, fun x => let a := x.gr ra; let b := x.gr rb; if a.toNat < b.toNat then 1 else 0)
  | .min t rd ra rb => some (t, true, rd, fun x => let a := x.gr ra; let b := x.gr rb; if a.toInt ≤ b.toInt then a else b)
  | .max t rd ra rb => some (t, true, rd, fun x => let a := x.gr ra; let b := x.gr rb; if a.toInt ≤ b.toInt then b else a)
  | .minu t rd ra rb => some (t, true, rd, fun x => let a := x.gr ra; let b := x.gr rb; if a.toNat ≤ b.toNat then a else b)
  | .maxu t rd ra rb => some (t, true, rd, fun x => let a := x.gr ra; let b := x.gr rb; if a.toNat ≤ b.toNat then b else a)
  | .mul t w rd ra rb => some (t, true, rd, fun x => atWidth w (fun _ a b => a * b) (x.gr ra) (x.gr rb))
  | .mulh t rd ra rb => some (t, true, rd, fun x => let a := x.gr ra; let b := x.gr rb; BitVec.ofInt 64 (a.toInt * b.toInt / 2 ^ 64))
  | .mulhu t rd ra rb => some (t, true, rd, fun x => let a := x.gr ra; let b := x.gr rb; BitVec.ofNat 64 (a.toNat * b.toNat / 2 ^ 64))
  | .mulhsu t rd ra rb => some (t, true, rd, fun x => let a := x.gr ra; let b := x.gr rb; BitVec.ofInt 64 (a.toInt * (b.toNat : Int) / 2 ^ 64))
  | .div t w rd ra rb => some (t, false, rd, fun x => atWidth w (fun n a b => BitVec.ofInt n (divSat n a.toInt b.toInt)) (x.gr ra) (x.gr rb))
  | .divu t w rd ra rb => some (t, false, rd, fun x => atWidth w (fun n a b => if b.toNat = 0 then BitVec.allOnes n else BitVec.ofNat n (a.toNat / b.toNat)) (x.gr ra) (x.gr rb))
  | .rem t w rd ra rb => some (t, false, rd, fun x => atWidth w (fun n a b => if b.toInt = 0 then 0 else BitVec.ofInt n (a.toInt - b.toInt * a.toInt.tdiv b.toInt)) (x.gr ra) (x.gr rb))
  | .remu t w rd ra rb => some (t, false, rd, fun x => atWidth w (fun n a b => if b.toNat = 0 then 0 else BitVec.ofNat n (a.toNat % b.toNat)) (x.gr ra) (x.gr rb))
  | .crc32cb t rd ra rb => some (t, true, rd, fun x => let a := x.gr ra; let b := x.gr rb; (crcBytes (a.setWidth 32) [b.setWidth 8]).setWidth 64)
  | .crc32cd t rd ra rb => some (t, true, rd, fun x => let a := x.gr ra; let b := x.gr rb; (crcBytes (a.setWidth 32) (leBytes 8 b.toNat)).setWidth 64)
  | .cmovz t rd ra rb => some (t, true, rd, fun x => if x.gr rb = 0 then x.gr ra else x.gr rd)
  | .cmovnz t rd ra rb => some (t, true, rd, fun x => if x.gr rb = 0 then x.gr rd else x.gr ra)
  | .clz t w rd ra => some (t, true, rd, fun x => atWidth w (fun n a _ => BitVec.ofNat n (n - a.toNat.size)) (x.gr ra) 0)
  | .ctz t w rd ra => some (t, true, rd, fun x => atWidth w (fun n a _ => BitVec.ofNat n (((List.range n).find? fun i => a.getLsbD i).getD n)) (x.gr ra) 0)
  | .popc t w rd ra => some (t, true, rd, fun x => atWidth w (fun n a _ => BitVec.ofNat n ((List.range n).countP fun i => a.getLsbD i)) (x.gr ra) 0)
  | .bswap t rd ra => some (t, true, rd, fun x => let a := x.gr ra; BitVec.ofNat 64 (fromLe (leBytes 8 a.toNat).reverse))
  | .sextb t rd ra => some (t, true, rd, fun x => let a := x.gr ra; (a.setWidth 8).signExtend 64)
  | .sexth t rd ra => some (t, true, rd, fun x => let a := x.gr ra; (a.setWidth 16).signExtend 64)
  | .zextw t rd ra => some (t, true, rd, fun x => let a := x.gr ra; (a.setWidth 32).setWidth 64)
  | .addi t rd ra imm => some (t, true, rd, fun x => let a := x.gr ra; let i := imm.signExtend 64; a + i)
  | .andi t rd ra imm => some (t, true, rd, fun x => let a := x.gr ra; let z := imm.setWidth 64; a &&& z)
  | .ori t rd ra imm => some (t, true, rd, fun x => let a := x.gr ra; let z := imm.setWidth 64; a ||| z)
  | .xori t rd ra imm => some (t, true, rd, fun x => let a := x.gr ra; let z := imm.setWidth 64; a ^^^ z)
  | .slti t rd ra imm => some (t, true, rd, fun x => let a := x.gr ra; if a.toInt < imm.toInt then 1 else 0)
  | .sltiu t rd ra imm => some (t, true, rd, fun x => let a := x.gr ra; let i := imm.signExtend 64; if a.toNat < i.toNat then 1 else 0)
  | .oris t rd ra imm => some (t, true, rd, fun x => let a := x.gr ra; let z := imm.setWidth 64; a ||| (z <<< 16))
  | .addiw t rd ra imm => some (t, true, rd, fun x => let a := x.gr ra; (a.setWidth 32 + imm.signExtend 32).signExtend 64)
  | .lui t rd imm => some (t, true, rd, fun _ => imm.signExtend 64 * 65536)
  | .addpc t rd imm => some (t, true, rd, fun x => x.pc + imm.signExtend 64 * 65536)
  | .slli t rd ra sh => some (t, true, rd, fun x => let a := x.gr ra; a <<< sh.toNat)
  | .srli t rd ra sh => some (t, true, rd, fun x => let a := x.gr ra; a >>> sh.toNat)
  | .srai t rd ra sh => some (t, true, rd, fun x => let a := x.gr ra; a.sshiftRight sh.toNat)
  | .rori t rd ra sh => some (t, true, rd, fun x => let a := x.gr ra; a.rotateRight sh.toNat)
  | .slliw t rd ra sh => some (t, true, rd, fun x => (((x.gr ra).setWidth 32) <<< sh.toNat).signExtend 64)
  | .srliw t rd ra sh => some (t, true, rd, fun x => (((x.gr ra).setWidth 32) >>> sh.toNat).signExtend 64)
  | .sraiw t rd ra sh => some (t, true, rd, fun x => (((x.gr ra).setWidth 32).sshiftRight sh.toNat).signExtend 64)
  | _ => none

/-- The state after an instruction of thread `t` that leaves the thread as `y` and goes on at `npc`. -/
def State.goesOn (s : State) (t : Thr) (y : Thread) (npc : Word) (con : Bool := false) : State :=
  (s.setThr t.val y).retire t.val npc con

end Sys2Proof.Machine

/-- For every OPR, I-format and SHI instruction with a legal word, every thread that is ready to perform it, and every operand (g0 as destination included): exec answers the state after the fetch with rd holding the value the instruction's row gives, retired at pc + 4. Nothing else of the state changes beyond what completing an instruction changes. (R134) -/
def Obligations.IntegerResults : Prop :=
  ∀ (i : Instr) (t : Thr) (con : Bool) (rd : GReg) (f : Thread → Word) (w : Nat) (s : State),
    intOp i = some (t, con, rd, f) → aisWord i = some (t, w) → legalWord w = true → s.ready t.val 0 false = true →
    exec i s = .next ((s.fetched t.val).goesOn t (((s.fetched t.val).thr t.val).setGr rd (f ((s.fetched t.val).thr t.val)))
      (((s.fetched t.val).thr t.val).pc + 4) con)

namespace Sys2Proof.Machine

/-- What a branch or a jump does (R83, R84): its thread, whether a constrained loop may hold it (a forward branch, R203), the register it links into, and from the thread the address it goes to and whether that address is one. -/
def jumpOp : Instr → Option (Thr × Bool × GReg × (Thread → Word))
  | .beq t ra rb d => some (t, decide (0 < d.toInt), 0, fun x => if x.gr ra = x.gr rb then x.pc + d.signExtend 64 * 4 else x.pc + 4)
  | .bne t ra rb d => some (t, decide (0 < d.toInt), 0, fun x => if x.gr ra = x.gr rb then x.pc + 4 else x.pc + d.signExtend 64 * 4)
  | .blt t ra rb d => some (t, decide (0 < d.toInt), 0, fun x =>
      if (x.gr ra).toInt < (x.gr rb).toInt then x.pc + d.signExtend 64 * 4 else x.pc + 4)
  | .bge t ra rb d => some (t, decide (0 < d.toInt), 0, fun x =>
      if (x.gr ra).toInt < (x.gr rb).toInt then x.pc + 4 else x.pc + d.signExtend 64 * 4)
  | .bltu t ra rb d => some (t, decide (0 < d.toInt), 0, fun x =>
      if (x.gr ra).toNat < (x.gr rb).toNat then x.pc + d.signExtend 64 * 4 else x.pc + 4)
  | .bgeu t ra rb d => some (t, decide (0 < d.toInt), 0, fun x =>
      if (x.gr ra).toNat < (x.gr rb).toNat then x.pc + 4 else x.pc + d.signExtend 64 * 4)
  | .j t d => some (t, false, 0, fun x => x.pc + d.signExtend 64 * 4)
  | .jal t d => some (t, false, 31, fun x => x.pc + d.signExtend 64 * 4)
  | .jalr t rd ra => some (t, false, rd, fun x => x.gr ra)
  | _ => none

/-- The one jump whose target can be misaligned (R84). -/
def isJalr : Instr → Bool
  | .jalr _ _ _ => true
  | _ => false

end Sys2Proof.Machine

/-- For every B-format branch, J, JAL and JALR, every ready thread and all operands, except a JALR to an address that is not a multiple of 4: exec answers the state after the fetch, the return address pc + 4 in the link register where the row has one (JALR reads ra before the write), one completed branch counted, and pc at the target if the condition holds, otherwise at pc + 4. For every ready thread and every JALR whose ra is not a multiple of 4: exec answers the state in which the thread has taken exception 0x03, with that address, from the state after the fetch: no register of the instruction is written. (R83, R84) -/
def Obligations.JumpResults : Prop :=
  (∀ (i : Instr) (t : Thr) (con : Bool) (rd : GReg) (f : Thread → Word) (s : State),
    jumpOp i = some (t, con, rd, f) → s.ready t.val 0 false = true →
    let x := (s.fetched t.val).thr t.val
    (isJalr i = true → (f x).toNat % 4 = 0) →
    exec i s = .next ((s.fetched t.val).goesOn t ((x.setGr rd (x.pc + 4)).pmc 0x03) (f x) con)) ∧
  (∀ (t : Thr) (rd ra : GReg) (s : State), s.ready t.val 0 false = true →
    (((s.fetched t.val).thr t.val).gr ra).toNat % 4 ≠ 0 →
    exec (.jalr t rd ra) s =
      .next ((s.fetched t.val).takeExc t.val { code := 0x03, addr := some (((s.fetched t.val).thr t.val).gr ra) }))

namespace Sys2Proof.Machine

/-- A load (R79): thread, base, displacement, size, floating-point or not, and what its bytes (lowest address first) do to the thread. -/
def loadOp : Instr → Option (Thr × GReg × BitVec 16 × Nat × Bool × (Thread → List Byte → Thread))
  | .lb t rd ra d => some (t, ra, d, 1, false, fun x b => x.setGr rd ((BitVec.ofNat 8 (fromLe b)).signExtend 64))
  | .lbu t rd ra d => some (t, ra, d, 1, false, fun x b => x.setGr rd (BitVec.ofNat 64 (fromLe b)))
  | .lh t rd ra d => some (t, ra, d, 2, false, fun x b => x.setGr rd ((BitVec.ofNat 16 (fromLe b)).signExtend 64))
  | .lhu t rd ra d => some (t, ra, d, 2, false, fun x b => x.setGr rd (BitVec.ofNat 64 (fromLe b)))
  | .lw t rd ra d => some (t, ra, d, 4, false, fun x b => x.setGr rd ((BitVec.ofNat 32 (fromLe b)).signExtend 64))
  | .lwu t rd ra d => some (t, ra, d, 4, false, fun x b => x.setGr rd (BitVec.ofNat 64 (fromLe b)))
  | .ld t rd ra d => some (t, ra, d, 8, false, fun x b => x.setGr rd (BitVec.ofNat 64 (fromLe b)))
  | .ldq t rd ra d => some (t, ra, d, 16, false, fun x b =>
      (x.setGr rd (BitVec.ofNat 64 (fromLe (b.drop 8)))).setGr (oddOf rd) (BitVec.ofNat 64 (fromLe (b.take 8))))
  | .flw t fd ra d => some (t, ra, d, 4, true, fun x b => x.setFr fd.val (BitVec.ofNat 64 (fromLe b)))
  | .fld t fd ra d => some (t, ra, d, 8, true, fun x b => x.setFr fd.val (BitVec.ofNat 64 (fromLe b)))
  | .flq t fd ra d => some (t, ra, d, 16, true, fun x b =>
      (x.setFr fd.val (BitVec.ofNat 64 (fromLe (b.drop 8)))).setFr (fd.val + 1) (BitVec.ofNat 64 (fromLe (b.take 8))))
  | _ => none

/-- A store (R79): thread, base, displacement, floating-point or not, and its bytes, lowest address first. -/
def storeOp : Instr → Option (Thr × GReg × BitVec 16 × Bool × (Thread → List Byte))
  | .sb t rs ra d => some (t, ra, d, false, fun x => leBytes 1 (x.gr rs).toNat)
  | .sh t rs ra d => some (t, ra, d, false, fun x => leBytes 2 (x.gr rs).toNat)
  | .sw t rs ra d => some (t, ra, d, false, fun x => leBytes 4 (x.gr rs).toNat)
  | .sd t rs ra d => some (t, ra, d, false, fun x => leBytes 8 (x.gr rs).toNat)
  | .stq t rs ra d => some (t, ra, d, false, fun x => leBytes 8 (x.gr (oddOf rs)).toNat ++ leBytes 8 (x.gr rs).toNat)
  | .fsw t fs ra d => some (t, ra, d, true, fun x => leBytes 4 (x.fr fs.val).toNat)
  | .fsd t fs ra d => some (t, ra, d, true, fun x => leBytes 8 (x.fr fs.val).toNat)
  | .fsq t fs ra d => some (t, ra, d, true, fun x => leBytes 8 (x.fr (fs.val + 1)).toNat ++ leBytes 8 (x.fr fs.val).toNat)
  | _ => none

/-- The line of a memory access of `n` bytes at `pa` is readable by the thread: Firebreak lets its partition read it, the module holds the line, nobody defers it, it is not poisoned, no store of the thread's buffer overlaps it, and the access lies in one line. -/
def State.readable (s : State) (t pa n : Nat) : Bool :=
  isMem pa && s.memOk (s.part t) pa false && !s.deferred (lineOf pa) t && s.accRead (lineOf pa) == .ok
    && !(s.line (lineOf pa)).poison && (sbOverlap (s.thr t).sb pa n).isNone && decide (pa % 256 + n ≤ 256)

end Sys2Proof.Machine

/-- For every load with a legal word, every thread that is ready (with PST.FEN for FLW, FLD and FLQ) and whose bytes the access at ra + sext(disp16) delivers: exec answers the state after that access with the bytes in the destination, sign-extended, zero-extended or as a register pair as the row says, retired at pc + 4. With g0 as destination nothing is written and the rest is the same. (R69, R79) -/
def Obligations.LoadResults : Prop :=
  ∀ (i : Instr) (t : Thr) (ra : GReg) (d : BitVec 16) (n : Nat) (fp : Bool) (put : Thread → List Byte → Thread) (w : Nat)
    (s : State) (b : List Byte),
    loadOp i = some (t, ra, d, n, fp, put) → aisWord i = some (t, w) → legalWord w = true → s.ready t.val 0 fp = true →
    let e := (s.fetched t.val).load t.val (((s.fetched t.val).thr t.val).gr ra + d.signExtend 64) n fp
    e.value? = some b →
    exec i s = .next (e.state.goesOn t (put (e.state.thr t.val) b) ((e.state.thr t.val).pc + 4))

/-- For every store with a legal word and every ready thread (with PST.FEN for FSW, FSD and FSQ) whose checks and buffer let the store of the register's bytes (little-endian, a pair's odd register at the lower address) at ra + sext(disp16) go on: exec answers the state with that store made and the thread retired at pc + 4. (R79) -/
def Obligations.StoreResults : Prop :=
  ∀ (i : Instr) (t : Thr) (ra : GReg) (d : BitVec 16) (fp : Bool) (get : Thread → List Byte) (w : Nat) (s : State),
    storeOp i = some (t, ra, d, fp, get) → aisWord i = some (t, w) → legalWord w = true → s.ready t.val 0 fp = true →
    let x := (s.fetched t.val).thr t.val
    let e := (s.fetched t.val).store t.val (x.gr ra + d.signExtend 64) (get x) fp
    e.isOk = true →
    exec i s = .next (e.state.goesOn t (e.state.thr t.val) ((e.state.thr t.val).pc + 4))

/-- For a thread whose accesses are untranslated at an address, and 1, 2, 4 or 8 bytes there that lie in one readable line: the load delivers the line's bytes at the address, lowest address first, and of the thread's registers it changes none. For a thread whose accesses are untranslated at an address, a store of 1 to 8 bytes there that lies in one line which Firebreak lets its partition write, with room in the buffer: the store appends one entry with that physical address and those bytes to the thread's buffer. No line of the L3 and no byte of memory changes, nor any register. (04_cores.md, 08_ordering.md) -/
def Obligations.MemoryAccesses : Prop :=
  (∀ (s : State) (t : Thr) (ea : Word) (n : Nat), n ∈ [1, 2, 4, 8] → (s.thr t.val).translated ea.toNat = false →
    s.readable t.val (ea.toNat % 2 ^ 52) n = true →
    let e := s.load t.val ea n false
    e.value? = some (leBytes n ((s.line (lineOf (ea.toNat % 2 ^ 52))).data.toNat / 2 ^ (8 * (ea.toNat % 256)))) ∧
    (∀ r, (e.state.thr t.val).gr r = (s.thr t.val).gr r) ∧ (∀ r, (e.state.thr t.val).fr r = (s.thr t.val).fr r) ∧
    (e.state.thr t.val).pc = (s.thr t.val).pc ∧ (e.state.thr t.val).sb = (s.thr t.val).sb) ∧
  (∀ (s : State) (t : Thr) (ea : Word) (b : List Byte), b.length ∈ [1, 2, 4, 8] →
    (s.thr t.val).translated ea.toNat = false →
    let pa := ea.toNat % 2 ^ 52
    isMem pa = true → s.memOk (s.part t.val) pa true = true → pa % 256 + b.length ≤ 256 → (s.thr t.val).sb.length < 48 →
    let e := s.store t.val ea b false
    e.isOk = true ∧
    (e.state.thr t.val).sb = (s.thr t.val).sb ++ [⟨.mem, pa, b, (s.thr t.val).pl, false, (s.thr t.val).pc⟩] ∧
    e.state.lines = s.lines ∧ e.state.mem = s.mem ∧ (e.state.thr t.val).g = (s.thr t.val).g ∧
    (e.state.thr t.val).f = (s.thr t.val).f ∧ (e.state.thr t.val).sr = (s.thr t.val).sr ∧
    ∀ u, u ≠ t.val → e.state.thr u = s.thr u)

namespace Sys2Proof.Machine

/-- An 8-byte atomic read and write (R81): thread, rd, address register, and the value stored over the old one, if any. -/
def atomOp : Instr → Option (Thr × GReg × GReg × (Thread → Word → Option Word))
  | .casd t rd ra rb => some (t, rd, ra, fun x old => if old = x.gr rd then some (x.gr rb) else none)
  | .aadd t rd ra rb => some (t, rd, ra, fun x old => some (old + x.gr rb))
  | .swpd t rd ra rb => some (t, rd, ra, fun x _ => some (x.gr rb))
  | .aand t rd ra rb => some (t, rd, ra, fun x old => some (old &&& x.gr rb))
  | .aor t rd ra rb => some (t, rd, ra, fun x old => some (old ||| x.gr rb))
  | _ => none

/-- The doubleword of memory in the line the module holds at a physical address. -/
def State.dword (s : State) (pa : Nat) : Word := BitVec.ofNat 64 (fromLe (s.lineRead pa 8))

end Sys2Proof.Machine

/-- For every thread, 8-aligned physical address of memory and value: after the write of an atomic instruction the eight bytes at the address read as the value, every other byte of that line reads as before, the line is in state M, the thread holds no reservation on it, and no byte of the expanders' memory has changed. For each of these instructions, a ready thread with an empty store buffer whose address passes the checks of an atomic access and whose line it comes to own unpoisoned: exec answers the state in which the row's value (for CASD only where the old doubleword equals rd) has been written to the line at that address in one step with the read, rd holds the old doubleword, and the thread goes on at pc + 4. (R81, R185) -/
def Obligations.AtomicResults : Prop :=
  (∀ (s : State) (t : Thr) (pa : Nat) (v : Word), pa % 8 = 0 →
    let u := s.writeSelf t.val pa (leBytes 8 v.toNat)
    u.lineRead pa 8 = leBytes 8 v.toNat ∧
    (∀ k, k < 256 → k < pa % 256 ∨ pa % 256 + 8 ≤ k →
      lineBytes (u.line (lineOf pa)).data k 1 = lineBytes (s.line (lineOf pa)).data k 1) ∧
    (u.line (lineOf pa)).st = .m ∧ (u.thr t.val).resv ≠ some (lineOf pa) ∧ u.mem = s.mem) ∧
  (∀ (i : Instr) (t : Thr) (rd ra : GReg) (f : Thread → Word → Option Word) (s : State) (pa : Nat),
    atomOp i = some (t, rd, ra, f) → s.ready t.val 0 false = true →
    let ea := ((s.fetched t.val).thr t.val).gr ra
    let c := (s.fetched t.val).checkMem t.val ea none .write 2 (ea.toNat % 8 != 0)
    c.value? = some pa → (c.state.thr t.val).sb = [] →
    let o := c.state.ownLine t.val pa 2 true
    o.isOk = true →
    let u := o.state.touch t.val (o.state.pcore t.val) 1 (lineOf pa)
    let v := match f (u.thr t.val) (o.state.dword pa) with
      | some v => u.writeSelf t.val pa (leBytes 8 v.toNat)
      | none => u
    exec i s = .next (v.goesOn t ((v.thr t.val).setGr rd (o.state.dword pa)) ((v.thr t.val).pc + 4)))

/-- For ready threads. LRSV, where its address passes the checks and its bytes are read: rd holds the 8 bytes and the thread's reservation is the 256-byte granule. STCD with no reservation on the granule: rd is 1, nothing is stored. STCD with the reservation, once the line is owned: rb is written to the line and rd is 0. In both cases the reservation is cleared. CASQ, with both halves checked and owned: the 16 bytes are compared with the pair rd, replaced by the pair rb where equal, and rd takes the old pair (its odd register the lower-addressed half). Each goes on at pc + 4 once the snoops that a reservation deferred have been served. (R81) -/
def Obligations.ReservedPairResults : Prop :=
  (∀ (t : Thr) (rd ra : GReg) (s : State) (pa : Nat) (b : List Byte), s.ready t.val 0 false = true →
    let ea := ((s.fetched t.val).thr t.val).gr ra
    let c := (s.fetched t.val).checkMem t.val ea none .read 2 (ea.toNat % 8 != 0)
    c.value? = some pa →
    let r := c.state.reachLine t.val 1 pa 2
    r.isOk = true →
    let m := r.state.readMem t.val pa 8 2
    m.value? = some b →
    exec (.lrsv t rd ra) s = .next (m.state.goesOn t
      { (m.state.thr t.val).setGr rd (BitVec.ofNat 64 (fromLe b)) with resv := some (lineOf pa), defer := 16 }
      (((m.state.thr t.val).setGr rd (BitVec.ofNat 64 (fromLe b))).pc + 4) true)) ∧
  (∀ (t : Thr) (rd ra rb : GReg) (s : State) (pa : Nat), s.ready t.val 0 false = true →
    let ea := ((s.fetched t.val).thr t.val).gr ra
    let c := (s.fetched t.val).checkMem t.val ea none .write 2 (ea.toNat % 8 != 0)
    c.value? = some pa → (c.state.thr t.val).sb = [] →
    ((c.state.thr t.val).resv ≠ some (lineOf pa) →
      exec (.stcd t rd ra rb) s = .next (c.state.goesOn t
        { (c.state.thr t.val).setGr rd 1 with resv := none, defer := 0 } (((c.state.thr t.val).setGr rd 1).pc + 4)).serveDeferred) ∧
    (let o := c.state.ownLine t.val pa 2 false
     (c.state.thr t.val).resv = some (lineOf pa) → o.isOk = true → (o.state.thr t.val).resv = some (lineOf pa) →
      let w := o.state.writeOwned t.val pa (leBytes 8 ((o.state.thr t.val).gr rb).toNat) false
      exec (.stcd t rd ra rb) s = .next (w.goesOn t
        { (w.thr t.val).setGr rd 0 with resv := none, defer := 0 } (((w.thr t.val).setGr rd 0).pc + 4)).serveDeferred)) ∧
  (∀ (t : Thr) (rd ra rb : GReg) (s : State) (p q : Nat), s.ready t.val 0 false = true → rd.val % 2 = 0 → rb.val % 2 = 0 →
    let c := (s.fetched t.val).casqHalves t.val (((s.fetched t.val).thr t.val).gr ra)
    c.value? = some (p, q) → (c.state.thr t.val).sb = [] →
    let o := c.state.ownLine t.val p 2 true
    o.isOk = true →
    let o2 := o.state.ownLine t.val q 2 true
    o2.isOk = true → o2.state.accWrite (lineOf p) = LineAcc.ok →
    let old := o2.state.lineRead p 8 ++ o2.state.lineRead q 8
    let x := o2.state.thr t.val
    let u := (o2.state.touch t.val (o2.state.pcore t.val) 1 (lineOf p)).touch t.val
      ((o2.state.touch t.val (o2.state.pcore t.val) 1 (lineOf p)).pcore t.val) 1 (lineOf q)
    let v := if old = x.pair rd then (u.writeSelf t.val p ((x.pair rb).take 8)).writeSelf t.val q ((x.pair rb).drop 8) else u
    exec (.casq t rd ra rb) s = .next (v.goesOn t ((v.thr t.val).setPair rd old) ((v.thr t.val).pc + 4)))

/-- For every memory given as a function from addresses to bytes, every source and destination address and every length: storing the bytes that the unit's copy gives at the destination leaves the memory that copying one byte at a time in ascending order leaves, also where the operands overlap. For ready threads and legal words. With rd+1 zero: MVL and FLL go on at pc + 4 with every register unchanged, CML with rb 0. Otherwise, where the unit's bytes pass their checks: MVL stores the source bytes as if one byte at a time in ascending order and advances rd and ra, FLL stores ra[7:0] into the unit and advances rd, CML advances to the first difference; the length in rd+1 falls by as much, the instruction completes at pc + 4 when it reaches zero (CML also at a difference, rb then -1 or +1 as the first operand's byte is lower or higher) and otherwise is executed again. (R86) -/
def Obligations.LongResults : Prop :=
  (∀ (m : Nat → Byte) (a d n : Nat),
    let src := (List.range n).map fun i => (a + i, m (a + i))
    let dst := (List.range n).map fun i => d + i
    let out := copyBytes src dst []
    out.length = n ∧
    ∀ k, (if d ≤ k ∧ k < d + n then out.getD (k - d) 0 else m k) =
      ((List.range n).foldl (fun m i => fun j => if j = d + i then m (a + i) else m j) m) k) ∧
  ((∀ (t : Thr) (rd ra rb : GReg) (s : State), s.ready t.val 0 false = true →
    ((s.fetched t.val).thr t.val).gr (oddOf rd) = 0 →
    let x := (s.fetched t.val).thr t.val
    (legalWord (encR 0x35 rd.val ra.val 0 0x000) = true → exec (.mvl t rd ra) s = .next ((s.fetched t.val).retire t.val (x.pc + 4))) ∧
    (legalWord (encR 0x35 rd.val ra.val 0 0x002) = true → exec (.fll t rd ra) s = .next ((s.fetched t.val).retire t.val (x.pc + 4))) ∧
    (legalWord (encR 0x35 rd.val ra.val rb.val 0x001) = true →
      exec (.cml t rd ra rb) s = .next ((s.fetched t.val).goesOn t (x.setGr rb 0) (x.pc + 4)))) ∧
  (∀ (t : Thr) (rd ra rb : GReg) (s : State) (m : List (Word × Nat)) (b c : List Byte), s.ready t.val 0 false = true →
    let f := s.fetched t.val
    let x := f.thr t.val
    let u := unitLen (x.gr rd) (x.gr (oddOf rd))
    x.gr (oddOf rd) ≠ 0 →
    (legalWord (encR 0x35 rd.val ra.val 0 0x000) = true →
      let p := operand (x.gr rd) u .write 3 (some (x.gr rd))
      let q := operand (x.gr ra) u .read 4 (some (x.gr ra))
      let e := f.checkAll t.val (sortPieces (p ++ q))
      e.value? = some m → (e.state.readAll t.val m q).value? = some b →
      let w := (e.state.readAll t.val m q).state.storeUnit t.val (paAt m (x.gr rd)) (copyBytes ((byteAddrs m q).zip b) (byteAddrs m p) [])
      w.isOk = true →
      let y := w.state.modThr t.val fun x => x.advance rd (some ra) u
      exec (.mvl t rd ra) s = .next (if (y.thr t.val).gr (oddOf rd) = 0 then y.retire t.val ((y.thr t.val).pc + 4) else y)) ∧
    (legalWord (encR 0x35 rd.val ra.val 0 0x002) = true →
      let e := f.checkAll t.val (operand (x.gr rd) u .write 3 (some (x.gr rd)))
      e.value? = some m →
      let w := e.state.storeUnit t.val (paAt m (x.gr rd)) (List.replicate u ((x.gr ra).setWidth 8))
      w.isOk = true →
      let y := w.state.modThr t.val fun x => x.advance rd none u
      exec (.fll t rd ra) s = .next (if (y.thr t.val).gr (oddOf rd) = 0 then y.retire t.val ((y.thr t.val).pc + 4) else y)) ∧
    (legalWord (encR 0x35 rd.val ra.val rb.val 0x001) = true →
      let p := operand (x.gr rd) u .read 3 (some (x.gr rd))
      let q := operand (x.gr ra) u .read 4 (some (x.gr ra))
      let e := f.checkAll t.val (sortPieces (p ++ q))
      e.value? = some m → (e.state.readAll t.val m p).value? = some b →
      let r := (e.state.readAll t.val m p).state.readAll t.val m q
      r.value? = some c →
      let y := (r.state.thr t.val).advance rd (some ra) (firstDiff b c)
      exec (.cml t rd ra rb) s = .next (
        if firstDiff b c < u then
          r.state.goesOn t (y.setGr rb (if (b.drop (firstDiff b c)).headD 0 < (c.drop (firstDiff b c)).headD 0 then -1 else 1)) (y.pc + 4)
        else if y.gr (oddOf rd) = 0 then r.state.goesOn t (y.setGr rb 0) (y.pc + 4)
        else r.state.setThr t.val y))))

namespace Sys2Proof.Machine

/-- A decimal instruction (R89): thread, first and second operand (register, length - 1), rd, whether the second is used, whether the first is written, function code. -/
def decOp : Instr → Option (Thr × GReg × GReg × GReg × BitVec 4 × BitVec 4 × Nat)
  | .dadd t rd ra rb l1 l2 => some (t, rd, ra, rb, l1, l2, 0)
  | .dsub t rd ra rb l1 l2 => some (t, rd, ra, rb, l1, l2, 1)
  | .dcmp t rd ra rb l1 l2 => some (t, rd, ra, rb, l1, l2, 2)
  | .dval t rd ra l1 => some (t, rd, ra, 0, l1, 0, 3)
  | _ => none

/-- The value of a valid packed-decimal field, bytes in address order: every digit nibble but the last, which is the sign (R152). -/
def decValue (l : List Byte) : Int :=
  let v := l.foldl (fun (a : Nat) b => a * 100 + b.toNat / 16 * 10 + b.toNat % 16) 0
  let s := (l.getLastD 0).toNat % 16
  let d : Nat := (v - s) / 10
  if s = 0xB ∨ s = 0xD then -(d : Int) else d

/-- Every digit of a field is 0 to 9 and its sign 0xA to 0xF (R152). -/
def decValid (l : List Byte) : Bool :=
  l != [] && l.all (fun b => decide (b.toNat / 16 < 10)) && l.dropLast.all (fun b => decide (b.toNat % 16 < 10))
    && decide (10 ≤ (l.getLastD 0).toNat % 16)

end Sys2Proof.Machine

/-- For valid packed fields of at most 16 bytes: the code of DADD is 3 if the sum needs more digits than the first field holds, else 0, 1 or 2 as the sum is zero, negative or positive; the bytes stored are a valid field as long as the first whose value, without overflow, is the sum; DSUB likewise with the difference; DCMP's code is 0, 1 or 2 as the first is equal to, lower than or higher than the second. For ready threads, where the bytes of both fields (DVAL: the first alone) pass their checks and are read, and room in the buffer lets the result be stored: exec answers the state with rd holding the code and, for DADD and DSUB on valid fields, the low digits of the sum or difference stored over the first field; DCMP, DVAL and any instruction whose fields hold an invalid nibble store nothing. The thread goes on at pc + 4. (R89, R152) -/
def Obligations.DecimalResults : Prop :=
  (∀ (sub : Bool) (a b : List Byte), decValid a = true → decValid b = true → a.length ≤ 16 → b.length ≤ 16 →
    let v := if sub then decValue a - decValue b else decValue a + decValue b
    let r := decAdd sub a b
    r.1 = (if 10 ^ (2 * a.length - 1) ≤ v.natAbs then 3 else if v = 0 then 0 else if v < 0 then 1 else 2) ∧
    r.2.length = a.length ∧ decValid r.2 = true ∧
    (v.natAbs < 10 ^ (2 * a.length - 1) → decValue r.2 = v) ∧
    decCmp a b = (if decValue a = decValue b then 0 else if decValue a < decValue b then 1 else 2)) ∧
  (∀ (i : Instr) (t : Thr) (rd ra rb : GReg) (l1 l2 : BitVec 4) (fn : Nat) (s : State) (m : List (Word × Nat)) (a b : List Byte),
    decOp i = some (t, rd, ra, rb, l1, l2, fn) → s.ready t.val 0 false = true →
    let f := s.fetched t.val
    let x := f.thr t.val
    let p := operand (x.gr ra) (l1.toNat + 1) (if fn < 2 then .write else .read) 5 none
    let q := if fn = 3 then [] else operand (x.gr rb) (l2.toNat + 1) .read 5 none
    let e := f.checkAll t.val (sortPieces (p ++ q))
    e.value? = some m → (e.state.readAll t.val m p).value? = some a →
    let r := (e.state.readAll t.val m p).state.readAll t.val m q
    r.value? = some b →
    let bad := decInvalid a (if fn = 3 then none else some b)
    let code := match bad with
      | some c => c
      | none => if fn = 0 then (decAdd false a b).1 else if fn = 1 then (decAdd true a b).1 else if fn = 2 then decCmp a b else 0
    let out := if bad.isNone ∧ fn < 2 then fieldStores m x p (decAdd (fn == 1) a b).2 else []
    let w := r.state.pushAll t.val out
    w.isOk = true →
    exec i s = .next (w.state.goesOn t ((w.state.thr t.val).setGr rd (BitVec.ofNat 64 code)) ((w.state.thr t.val).pc + 4)))

namespace Sys2Proof.Machine

/-- Where a floating-point instruction writes: a floating-point register in a format, or a general register. -/
inductive FpDst where
  | f (fmt : Nat) (r : FReg)
  | g (r : GReg)

/-- Write a result there (R69): binary32 in bits [31:0] with bits [63:32] zero, binary64 whole, binary128 in an even-odd pair, high half in the even register. -/
def Thread.putFp (x : Thread) (v : Nat) : FpDst → Thread
  | .f 2 r => (x.setFr r.val (BitVec.ofNat 64 (v / 2 ^ 64))).setFr (r.val + 1) (BitVec.ofNat 64 v)
  | .f _ r => x.setFr r.val (BitVec.ofNat 64 v)
  | .g r => x.setGr r (BitVec.ofNat 64 v)

/-- The rounding mode of an instruction: its rm field, or FCS.RM where that is zero (R73, R136). -/
def Thread.rounding (x : Thread) (rm : BitVec 3) : Nat :=
  if rm = 0 then (x.srg SR_FCS).toNat / 2 ^ 10 % 8 else rm.toNat

/-- What a floating-point instruction computes (R90 to R92): thread, destination, result bits and flags (NV 16, DZ 8, OF 4, UF 2, NX 1). -/
def fpOp : Instr → Option (Thr × FpDst × (Thread → Nat × Nat))
  | .fadd t fmt rm fd fa fb => some (t, .f fmt.toNat fd, fun x => fpAdd fmt.toNat (x.rounding rm) (x.fop fmt.toNat fa) (x.fop fmt.toNat fb))
  | .fsub t fmt rm fd fa fb => some (t, .f fmt.toNat fd, fun x => fpSub fmt.toNat (x.rounding rm) (x.fop fmt.toNat fa) (x.fop fmt.toNat fb))
  | .fmul t fmt rm fd fa fb => some (t, .f fmt.toNat fd, fun x => fpMul fmt.toNat (x.rounding rm) (x.fop fmt.toNat fa) (x.fop fmt.toNat fb))
  | .fdiv t fmt rm fd fa fb => some (t, .f fmt.toNat fd, fun x => fpDiv fmt.toNat (x.rounding rm) (x.fop fmt.toNat fa) (x.fop fmt.toNat fb))
  | .fsqrt t fmt rm fd fa => some (t, .f fmt.toNat fd, fun x => fpSqrt fmt.toNat (x.rounding rm) (x.fop fmt.toNat fa))
  | .fmin t fmt fd fa fb => some (t, .f fmt.toNat fd, fun x => fpMinMax fmt.toNat false false (x.fbits fmt.toNat fa) (x.fbits fmt.toNat fb))
  | .fmax t fmt fd fa fb => some (t, .f fmt.toNat fd, fun x => fpMinMax fmt.toNat false true (x.fbits fmt.toNat fa) (x.fbits fmt.toNat fb))
  | .fminn t fmt fd fa fb => some (t, .f fmt.toNat fd, fun x => fpMinMax fmt.toNat true false (x.fbits fmt.toNat fa) (x.fbits fmt.toNat fb))
  | .fmaxn t fmt fd fa fb => some (t, .f fmt.toNat fd, fun x => fpMinMax fmt.toNat true true (x.fbits fmt.toNat fa) (x.fbits fmt.toNat fb))
  | .fneg t fmt fd fa => some (t, .f fmt.toNat fd, fun x => let h := 2 ^ (fpW fmt.toNat - 1); let v := x.fbits fmt.toNat fa; (if v < h then v + h else v - h, 0))
  | .fabs t fmt fd fa => some (t, .f fmt.toNat fd, fun x => (x.fbits fmt.toNat fa % 2 ^ (fpW fmt.toNat - 1), 0))
  | .fcpys t fmt fd fa fb => some (t, .f fmt.toNat fd, fun x => let h := 2 ^ (fpW fmt.toNat - 1); (x.fbits fmt.toNat fa % h + x.fbits fmt.toNat fb / h * h, 0))
  | .fceq t fmt rd fa fb => some (t, .g rd, fun x => let c := fpCmp fmt.toNat 0 (x.fop fmt.toNat fa) (x.fop fmt.toNat fb); (if c.1 then 1 else 0, c.2))
  | .fclt t fmt rd fa fb => some (t, .g rd, fun x => let c := fpCmp fmt.toNat 1 (x.fop fmt.toNat fa) (x.fop fmt.toNat fb); (if c.1 then 1 else 0, c.2))
  | .fcle t fmt rd fa fb => some (t, .g rd, fun x => let c := fpCmp fmt.toNat 2 (x.fop fmt.toNat fa) (x.fop fmt.toNat fb); (if c.1 then 1 else 0, c.2))
  | .fcun t fmt rd fa fb => some (t, .g rd, fun x => let c := fpCmp fmt.toNat 3 (x.fop fmt.toNat fa) (x.fop fmt.toNat fb); (if c.1 then 1 else 0, c.2))
  | .fclass t fmt rd fa => some (t, .g rd, fun x => (fpClass fmt.toNat (x.fop fmt.toNat fa), 0))
  | .frint t fmt rm fd fa => some (t, .f fmt.toNat fd, fun x => fpRint fmt.toNat (x.rounding rm) (x.fbits fmt.toNat fa))
  | .fcvt t fmt rm fd fa src => some (t, .f fmt.toNat fd, fun x => fpCvt src.toNat fmt.toNat (x.rounding rm) (x.fop src.toNat fa))
  | .fcvtis t fmt rm rd fa => some (t, .g rd, fun x => fpToInt (x.rounding rm) true (x.fop fmt.toNat fa))
  | .fcvtiu t fmt rm rd fa => some (t, .g rd, fun x => fpToInt (x.rounding rm) false (x.fop fmt.toNat fa))
  | .fcvtsi t fmt rm fd ra => some (t, .f fmt.toNat fd, fun x => fpOfInt fmt.toNat (x.rounding rm) (x.gr ra).toInt)
  | .fcvtui t fmt rm fd ra => some (t, .f fmt.toNat fd, fun x => fpOfInt fmt.toNat (x.rounding rm) (x.gr ra).toNat)
  | .fmvgf t fmt rd fa => some (t, .g rd, fun x => (x.fbits fmt.toNat fa, 0))
  | .fmvfg t fmt fd ra => some (t, .f fmt.toNat fd, fun x => ((x.gr ra).toNat % 2 ^ fpW fmt.toNat, 0))
  | .fmadd t fmt rm fd fa fb fc => some (t, .f fmt.toNat fd, fun x => fpFma fmt.toNat (x.rounding rm) (x.fop fmt.toNat fa) (x.fop fmt.toNat fb) (x.fop fmt.toNat fc))
  | .fmsub t fmt rm fd fa fb fc => some (t, .f fmt.toNat fd, fun x => fpFma fmt.toNat (x.rounding rm) (x.fop fmt.toNat fa) (x.fop fmt.toNat fb) (x.fop fmt.toNat fc).neg)
  | .fnmadd t fmt rm fd fa fb fc => some (t, .f fmt.toNat fd, fun x => negResult fmt.toNat (fpFma fmt.toNat (x.rounding rm) (x.fop fmt.toNat fa) (x.fop fmt.toNat fb) (x.fop fmt.toNat fc)))
  | .fnmsub t fmt rm fd fa fb fc => some (t, .f fmt.toNat fd, fun x => negResult fmt.toNat (fpFma fmt.toNat (x.rounding rm) (x.fop fmt.toNat fa) (x.fop fmt.toNat fb) (x.fop fmt.toNat fc).neg))
  | _ => none

end Sys2Proof.Machine

/-- For every thread, instruction word and set of flags: completing a floating-point instruction ORs the flags into FCS[4:0]. At M level, or with no raised flag enabled, FPEA and FPEI are unchanged. Below M level with an enabled one: if FPEI.PEND was 0, FPEA takes the pc, FPEI takes the word, the enabled flags, the level, CNT 0 and PEND 1; otherwise CNT counts one, stopping at 0xFF, and the rest stays. No other register changes. For every FPR and fused instruction with a legal word and every ready thread with PST.FEN: exec answers the state after the fetch with the flags raised (ORed into FCS, an enabled one made pending or counted below M level) and then the result of the row's operation, rounded by the instruction's mode, in the destination, retired at pc + 4. The arithmetic of each operation is the model's own function for it. (R139) -/
def Obligations.FloatingPointResults : Prop :=
  (∀ (x : Thread) (w fl : Nat), fl < 32 → w < 2 ^ 32 →
    let y := x.raiseFp w fl
    y.srg SR_FCS = x.srg SR_FCS ||| BitVec.ofNat 64 fl ∧
    (let e := fl &&& ((x.srg SR_FCS).toNat / 2 ^ 5 % 2 ^ 5)
     (x.pl = 3 ∨ e = 0 → y.srg SR_FPEI = x.srg SR_FPEI ∧ y.srg SR_FPEA = x.srg SR_FPEA) ∧
     (x.pl ≠ 3 → e ≠ 0 → x.fpPend = false →
       y.fpPend = true ∧ y.srg SR_FPEA = x.pc &&& 0xFFFFFFFFFFFFFFFC ∧ FPEI_EXC.get (y.srg SR_FPEI) = e ∧
       FPEI_CNT.get (y.srg SR_FPEI) = 0 ∧ FPEI_WORD.get (y.srg SR_FPEI) = w ∧ (x.pl ≤ 1 → FPEI_PL.get (y.srg SR_FPEI) = x.pl)) ∧
     (x.pl ≠ 3 → e ≠ 0 → x.fpPend = true →
       y.srg SR_FPEA = x.srg SR_FPEA ∧ FPEI_CNT.get (y.srg SR_FPEI) = min (FPEI_CNT.get (x.srg SR_FPEI) + 1) 0xFF ∧
       FPEI_EXC.get (y.srg SR_FPEI) = FPEI_EXC.get (x.srg SR_FPEI))) ∧
    (∀ n, n ≠ SR_FCS → n ≠ SR_FPEI → n ≠ SR_FPEA → y.srg n = x.srg n) ∧ y.g = x.g ∧ y.f = x.f ∧ y.pc = x.pc) ∧
  (∀ (i : Instr) (t : Thr) (d : FpDst) (f : Thread → Nat × Nat) (w : Nat) (s : State),
    fpOp i = some (t, d, f) → aisWord i = some (t, w) → legalWord w = true → s.ready t.val 0 true = true →
    let x := (s.fetched t.val).thr t.val
    exec i s = .next ((s.fetched t.val).goesOn t ((x.raiseFp w (f x).2).putFp (f x).1 d) (x.pc + 4)))

namespace Sys2Proof.Machine

/-- Waiting, or no longer waiting. -/
def Thread.waits (x : Thread) (w : Wait) : Thread := { x with wait := w }

/-- The instruction word of a SYS instruction (R93). -/
def sysWord (fn : Nat) : Nat := 0x38 * 2 ^ 26 + fn

end Sys2Proof.Machine

/-- For ready threads. SYNC and SYNCI complete with the store buffer empty, otherwise the thread waits and completes at SYNC_COMPLETE once it is. DRAIN completes when no store, device store or owed write-back is left and no device-store failure is pending; a pending failure is raised as cause 0x12 with the failed address and cleared; otherwise the thread waits and ends the same way at DRAIN_END. FBAR completes where no floating-point trap is pending or the level is M, and else raises cause 0x0A. PAUSE completes and is counted. WAIT completes if an interrupt is pending, enabled or not, and otherwise the thread waits. DRAIN_TIMEOUT during a waiting DRAIN fails every device store of the thread that is left: none remains in its tracker or buffer and, if there was one, a failure is pending. (R93, R186, R188, R194, 08_ordering.md) -/
def Obligations.BarrierResults : Prop :=
  ∀ (t : Thr) (s : State),
    let f := s.fetched t.val
    let x := f.thr t.val
    let on := f.retire t.val (x.pc + 4)
    (s.ready t.val 0 false = true →
      exec (.sync t) s = .next (if x.sb = [] then on else f.setThr t.val (x.waits .sync)) ∧
      exec (.synci t) s = .next (if x.sb = [] then on else f.setThr t.val (x.waits .synci)) ∧
      exec (.drain t) s = .next (if x.sb = [] ∧ x.trk = [] ∧ x.wbs = [] then
          (match x.devFail with
            | none => on
            | some a => (f.setThr t.val { x with devFail := none }).takeExc t.val { code := 0x12, addr := some (BitVec.ofNat 64 a) })
        else f.setThr t.val (x.waits .drain)) ∧
      exec (.fbar t) s = .next (if x.pl ≠ 3 ∧ x.fpPend = true then f.takeExc t.val { code := 0x0A } else on) ∧
      exec (.pause t) s = .next (f.goesOn t (x.pmc 0x09) (x.pc + 4))) ∧
    (s.ready t.val 1 false = true →
      exec (.wait t) s = .next (if f.intPending x = true then on else f.setThr t.val (x.waits .waitInt))) ∧
    (let y := s.thr t.val
     y.run = .running →
      ((y.wait = .sync ∨ y.wait = .synci) → y.sb = [] →
        exec (.syncComplete t) s = .next ((s.setThr t.val (y.waits .none)).retire t.val (y.pc + 4))) ∧
      (y.wait = .drain → y.sb = [] → y.trk = [] → y.wbs = [] → y.devFail = none →
        exec (.drainEnd t) s = .next ((s.setThr t.val (y.waits .none)).retire t.val (y.pc + 4))) ∧
      (y.wait = .drain → ∃ u, exec (.drainTimeout t) s = .next u ∧ (u.thr t.val).trk = [] ∧
        (∀ e ∈ (u.thr t.val).sb, e.kind ≠ .dev) ∧ (u.thr t.val).wait = .drain ∧
        ((y.trk ≠ [] ∨ ∃ e ∈ y.sb, e.kind = .dev) → (u.thr t.val).devFail.isSome = true)))

/-- For ready threads at S level with no floating-point trap pending: after RETL the pc is SRP, PL, STA, SGIE, FEN and STR are those of SSS (whose PL bit 1 is zero), and MDT, MTA and MGIE are unchanged. At M level with MSS.PL not 0b10: the pc is MRP and PST is MSS. In both cases no general, floating-point or other state register changes but the counts of completed instructions, and the reservation is gone. At M level with MSS.PL = 0b10 the illegal-instruction exception is taken. At U level the privileged-instruction exception is taken. (R118) -/
def Obligations.ReturnResults : Prop :=
  ∀ (t : Thr) (s : State),
    let f := s.fetched t.val
    let x := f.thr t.val
    (s.ready t.val 1 false = true → x.pl = 1 → x.fpPend = false → ∃ y, exec (.retl t) s = .next (f.goesOn t y (x.srg SR_SRP)) ∧
      (∀ g ∈ [PST_PL, PST_STA, PST_SGIE, PST_FEN, PST_STR], g.get (y.srg SR_PST) = g.get (x.srg SR_SSS)) ∧
      (∀ g ∈ [PST_MDT, PST_MTA, PST_MGIE], g.get (y.srg SR_PST) = g.get (x.srg SR_PST)) ∧
      (∀ n, n ≠ SR_PST → y.srg n = x.srg n) ∧ y.g = x.g ∧ y.f = x.f ∧ y.resv = none) ∧
    (s.ready t.val 1 false = true → x.pl = 3 → PST_PL.get (x.srg SR_MSS) ≠ 2 →
      ∃ y, exec (.retl t) s = .next (f.goesOn t y (x.srg SR_MRP)) ∧ y.srg SR_PST = x.srg SR_MSS ∧
      (∀ n, n ≠ SR_PST → y.srg n = x.srg n) ∧ y.g = x.g ∧ y.f = x.f ∧ y.resv = none) ∧
    (s.ready t.val 1 false = true → x.pl = 3 → PST_PL.get (x.srg SR_MSS) = 2 →
      exec (.retl t) s = .next (f.takeExc t.val { code := 0x01, info := sysWord 0x010, addr := some x.pc })) ∧
    (s.ready t.val 0 false = true → x.pl = 0 →
      exec (.retl t) s = .next (f.takeExc t.val { code := 0x02, info := sysWord 0x010, addr := some x.pc }))

/-- For ready threads: SVC raises cause 0x06, 0x07 or 0x08 as the level is U, S or M, with imm16 as INFO and no address. BRK raises cause 0x05 with the pc. A word that is no legal instruction word raises cause 0x01 with the word as INFO and the pc as address. Each from the state after the fetch, with no register written but those of the entry. (R94) -/
def Obligations.CallResults : Prop :=
  ∀ (t : Thr) (imm : BitVec 16) (w : BitVec 32) (s : State), s.ready t.val 0 false = true →
    let f := s.fetched t.val
    let x := f.thr t.val
    (x.pl = 0 → exec (.svc t imm) s = .next (f.takeExc t.val { code := 0x06, info := imm.toNat })) ∧
    (x.pl = 1 → exec (.svc t imm) s = .next (f.takeExc t.val { code := 0x07, info := imm.toNat })) ∧
    (x.pl = 3 → exec (.svc t imm) s = .next (f.takeExc t.val { code := 0x08, info := imm.toNat })) ∧
    exec (.brk t) s = .next (f.takeExc t.val { code := 0x05, addr := some x.pc }) ∧
    (legalWord w.toNat = false →
      exec (.illegalInstruction t w) s = .next (f.takeExc t.val { code := 0x01, info := w.toNat, addr := some x.pc }))

namespace Sys2Proof.Machine

/-- The lowest level that may execute an instruction, where that is above U (R93, R96, R97, R98). -/
def lowestLevel : Instr → Option (Thr × Nat)
  | .retl t => some (t, 1)
  | .wait t => some (t, 1)
  | .tlbwr t _ _ => some (t, 1)
  | .twalk t _ _ _ => some (t, 1)
  | .tlbiVa t _ _ => some (t, 1)
  | .tlbiVaB t _ _ => some (t, 1)
  | .tlbiTag t _ => some (t, 1)
  | .tlbiTagB t _ => some (t, 1)
  | .tlbiAll t => some (t, 1)
  | .tlbiAllB t => some (t, 1)
  | .wciVa t _ _ => some (t, 1)
  | .wciVaB t _ _ => some (t, 1)
  | .wciTag t _ => some (t, 1)
  | .wciTagB t _ => some (t, 1)
  | .wciAll t => some (t, 1)
  | .wciAllB t => some (t, 1)
  | .icinv t _ => some (t, 1)
  | .clinv t _ => some (t, 3)
  | .mfs t _ n => (srRow n.toNat).map fun r => (t, r.2.1)
  | .mts t _ n => (srRow n.toNat).bind fun r => r.2.2.map fun l => (t, l)
  | _ => none

end Sys2Proof.Machine

/-- For every instruction of AIS whose word is not legal (an odd register named as half of a pair, a reserved fmt or rm, an amount a W shift does not take, a state number that cannot be accessed) and every ready thread: exec answers the state after the fetch in which the illegal-instruction exception is taken with the word as INFO. Nothing else has happened. For every instruction with a lowest level above the thread's (RETL, WAIT, the MMU rows, ICINV at S; CLINV at M; MFS and MTS as the state register's row says), a legal word and a thread otherwise ready: exec answers the state after the fetch in which exception 0x02 is taken, with the instruction word as INFO and the pc as address. (R70, R75, R93, R98) -/
def Obligations.InstructionExceptions : Prop :=
  (∀ (i : Instr) (t : Thr) (w : Nat) (s : State), aisWord i = some (t, w) → legalWord w = false → s.ready t.val 0 false = true →
    exec i s = .next ((s.fetched t.val).takeExc t.val { code := 0x01, info := w, addr := some ((s.fetched t.val).thr t.val).pc })) ∧
  (∀ (i : Instr) (t : Thr) (l w : Nat) (s : State), lowestLevel i = some (t, l) → aisWord i = some (t, w) → legalWord w = true →
    s.ready t.val 0 false = true → ((s.fetched t.val).thr t.val).pl < l →
    exec i s = .next ((s.fetched t.val).takeExc t.val { code := 0x02, info := w, addr := some ((s.fetched t.val).thr t.val).pc }))

namespace Sys2Proof.Machine

/-- The return pc of a synchronous exception (R117): past an SVC, otherwise the instruction's own pc; bits [1:0] read as zero. -/
def Thread.returnPc (x : Thread) (code : Nat) : Word :=
  (if code = 0x06 ∨ code = 0x07 ∨ code = 0x08 then x.pc + 4 else x.pc) &&& 0xFFFFFFFFFFFFFFFC

/-- The registers an entry leaves alone: g, f, and every state register but those listed. -/
def Thread.keeps (y x : Thread) (but : List Nat) : Prop := y.g = x.g ∧ y.f = x.f ∧ ∀ n, n ∉ but → y.srg n = x.srg n

end Sys2Proof.Machine

/-- For every state, thread below M level and exception that R112 takes at S level, with no floating-point trap pending. With STA = 0: SSS is the old PST, SRP the return pc, SCS the cause, SFA the address where one is named and otherwise unchanged; PL is S, STA 1, SGIE 0 and every other field of PST is unchanged; pc is SVB; no other register and no other thread changes. With STA = 1 (and MTA = 0): the thread enters M level with cause 0x15, MFA holding the address the displaced cause names or the current SFA, and SRP, SSS, SCS and SFA are unchanged. The pending floating-point trap with STA = 1 is such an exception: cause 0x15 with 0x0A as INFO, MFA the current SFA. (R115) -/
def Obligations.EntryToSLevel : Prop :=
  (∀ (s : State) (t : Thr) (c : Cause), takenAtM c.code (s.thr t.val).pl = false → c.int = false → c.code ≠ 0x0A →
    (s.thr t.val).fpPend = false →
    let x := s.thr t.val
    let u := s.takeExc t.val c
    let y := u.thr t.val
    (x.pstBit PST_STA = false →
      y.srg SR_SSS = x.srg SR_PST ∧ y.srg SR_SRP = x.returnPc c.code ∧
      y.srg SR_SCS = BitVec.ofNat 64 (c.code % 256 * 2 ^ 32 + c.info % 2 ^ 32) ∧ y.srg SR_SFA = c.addr.getD (x.srg SR_SFA) ∧
      y.pl = 1 ∧ y.pstBit PST_STA = true ∧ y.pstBit PST_SGIE = false ∧
      (∀ g ∈ [PST_MDT, PST_MTA, PST_MGIE, PST_FEN, PST_STR], g.get (y.srg SR_PST) = g.get (x.srg SR_PST)) ∧
      y.pc = x.srg SR_SVB ∧ y.keeps x [SR_PST, SR_SSS, SR_SRP, SR_SCS, SR_SFA] ∧ ∀ v, v ≠ t.val → u.thr v = s.thr v) ∧
    (x.pstBit PST_STA = true → x.pstBit PST_MTA = false →
      y.srg SR_MSS = x.srg SR_PST ∧ y.srg SR_MRP = x.returnPc c.code ∧
      y.srg SR_MCS = BitVec.ofNat 64 (0x15 * 2 ^ 32 + c.code % 256) ∧ y.srg SR_MFA = c.addr.getD (x.srg SR_SFA) ∧
      y.pl = 3 ∧ y.pc = x.srg SR_MVB ∧ y.keeps x [SR_PST, SR_MSS, SR_MRP, SR_MCS, SR_MFA])) ∧
  (∀ (s : State) (t : Thr), (s.thr t.val).pl ≠ 3 → (s.thr t.val).pstBit PST_STA = true → (s.thr t.val).pstBit PST_MTA = false →
    let x := s.thr t.val
    let y := (s.takeExc t.val { code := 0x0A }).thr t.val
    y.srg SR_MSS = x.srg SR_PST ∧ y.srg SR_MRP = (x.pc &&& 0xFFFFFFFFFFFFFFFC) ∧ y.srg SR_MCS = 0x150000000A ∧ y.srg SR_MFA = x.srg SR_SFA ∧
    y.pl = 3 ∧ y.pstBit PST_MTA = true ∧ y.pc = x.srg SR_MVB ∧ y.keeps x [SR_PST, SR_MSS, SR_MRP, SR_MCS, SR_MFA, SR_FPEI])

/-- For every state, thread and exception that R112 takes at M level. With MTA = 0: MSS is the old PST, MRP the return pc, MCS the cause, MFA the address where one is named and otherwise unchanged; PL is M, MTA 1, MGIE 0, every other field of PST unchanged; pc is MVB, or M-base + 0x100 for a Firebreak violation; no other register and no other thread changes. With MTA = 1 and MDT = 0: pc is M-base + 0x140, MCS holds cause 0x25 with the original code, MFA the pc of the instruction, MDT is 1, and MRP and MSS keep their values. With MTA = 1 and MDT = 1: the thread stops and the record is one of the contained class under block code 0x01. (R116) -/
def Obligations.EntryToMLevel : Prop :=
  ∀ (s : State) (t : Thr) (c : Cause), takenAtM c.code (s.thr t.val).pl = true → c.int = false →
    let x := s.thr t.val
    let u := s.takeExc t.val c
    let y := u.thr t.val
    (x.pstBit PST_MTA = false →
      y.srg SR_MSS = x.srg SR_PST ∧ y.srg SR_MRP = x.returnPc c.code ∧
      y.srg SR_MCS = BitVec.ofNat 64 (c.code % 256 * 2 ^ 32 + c.info % 2 ^ 32) ∧ y.srg SR_MFA = c.addr.getD (x.srg SR_MFA) ∧
      y.pl = 3 ∧ y.pstBit PST_MTA = true ∧ y.pstBit PST_MGIE = false ∧
      (∀ g ∈ [PST_MDT, PST_STA, PST_SGIE, PST_FEN, PST_STR], g.get (y.srg SR_PST) = g.get (x.srg SR_PST)) ∧
      y.pc = (if c.code = 0x24 then s.mbaseOf t.val + 0x100 else x.srg SR_MVB) ∧
      y.keeps x [SR_PST, SR_MSS, SR_MRP, SR_MCS, SR_MFA] ∧ ∀ v, v ≠ t.val → u.thr v = s.thr v) ∧
    (x.pstBit PST_MTA = true → x.pstBit PST_MDT = false →
      y.pc = s.mbaseOf t.val + 0x140 ∧ y.srg SR_MCS = BitVec.ofNat 64 (0x25 * 2 ^ 32 + c.code % 256) ∧ y.srg SR_MFA = x.pc ∧
      y.pstBit PST_MDT = true ∧ y.pl = 3 ∧ y.srg SR_MRP = x.srg SR_MRP ∧ y.srg SR_MSS = x.srg SR_MSS ∧
      y.keeps x [SR_PST, SR_MCS, SR_MFA]) ∧
    (x.pstBit PST_MTA = true → x.pstBit PST_MDT = true →
      y.run = .stoppedTrap ∧ (s.thr (if t.val % 2 = 0 then t.val + 1 else t.val - 1)).run =
        (u.thr (if t.val % 2 = 0 then t.val + 1 else t.val - 1)).run ∧
      u = (s.log { block := 0x01, inst := s.pcore t.val, cls := 2, typ := 0x0F, part := some (s.part t.val), thread := some t.val
                   detail := leBytes 8 x.pc.toNat }).stopThread t.val .stoppedTrap)

namespace Sys2Proof.Machine

/-- The state registers that MTS stores under a mask of writable bits, and nothing more: number, mask (R98, R99, R110, R111, R137). -/
def plainSrs : List (Nat × Word) := [
  (0x001, 0x800000FFFFFFFFFF), (0x002, 0xFFFFFFFFFFFFFFC0), (0x003, 0xFFFFFFFFFFFFFFFC), (0x004, 0xE0F1),
  (0x005, 0xFFFFFFFFFFFFFFFF), (0x006, 0xFFFFFFFFFFFFFFFF), (0x008, 0x7), (0x00A, 0xFFFFFFFFFFFFFFFF), (0x020, 0xFFFF), (0x034, 0x3),
  (0x100, 0x800000FFFFFFFFFF), (0x101, 0xFFFFFFFFFFFFFFC0), (0x102, 0xFFFFFFFFFFFFFFFC), (0x103, 0xE0F3),
  (0x104, 0xFFFFFFFFFFFFFFFF), (0x105, 0xFFFFFFFFFFFFFFFF), (0x10A, 0x15), (0x011, 0xFFFFFFFFFFFFFFFC), (0x012, 0x00011FFFFFFFFFFF)]
  ++ (List.range 8).map (fun i => (0x200 + i, BitVec.allOnes 64)) ++ (List.range 8).map fun i => (0x208 + i, 0xFF)

/-- What MFS reads (R99): the registers with a value of their own, and otherwise the register as stored. -/
def State.mfsValue (s : State) (t : Thr) (n : Nat) : Word :=
  let x := s.thr t.val
  if n = 0x009 then
    BitVec.ofNat 64 ((if x.sq ≠ [] ∨ x.sOvf = true then 4 else 0) + (if (x.srg 0x00A).toNat ≤ s.time.toNat then 2 else 0)
      + (if x.ssi ≠ none then 1 else 0))
  else if n = 0x10B then
    BitVec.ofNat 64 ((if x.mci ≠ none then 16 else 0) + (if x.mq ≠ [] ∨ x.mOvf = true then 4 else 0) + (if x.msi ≠ none then 1 else 0))
  else if n = 0x030 then s.time
  else if n = 0x033 then BitVec.ofNat 64 t.val
  else if n = 0x106 then BitVec.ofNat 64 (s.pcore t.val)
  else if n = 0x107 then BitVec.ofNat 64 (s.part t.val)
  else if n = 0x108 then BitVec.ofNat 64 (s.mbase (s.part t.val))
  else x.srg n

end Sys2Proof.Machine

/-- For ready threads at the level the register's row asks (with PST.FEN for FCS, FPEA and FPEI). MFS of register n puts its value in rd: SIP and MIP from the pending interrupts, TIME from the module's time base, TID, PCORE, PARTN and MBASE as R99 says, otherwise the stored value; an MFS of FCS below M level with a floating-point trap pending raises cause 0x0A in place. MTS replaces exactly the writable bits of the register; to TIME it sets the module's time base; to PST at M level (PL not 0b10) every field, at S level (PL 0b00 or 0b01) only PL, STA, SGIE, FEN and STR. No other register changes. (R98, R99, R100, R110) -/
def Obligations.StateRegisterAccess : Prop :=
  ∀ (t : Thr) (r : GReg) (n : BitVec 12) (s : State),
    let f := s.fetched t.val
    let x := f.thr t.val
    let fp := decide (n.toNat = 0x010 ∨ n.toNat = 0x011 ∨ n.toNat = 0x012)
    let v := x.gr r
    (∀ e, srRow n.toNat = some e → s.ready t.val e.2.1 fp = true →
      exec (.mfs t r n) s = .next (
        if n.toNat = 0x010 ∧ x.pl ≠ 3 ∧ x.fpPend = true then f.takeExc t.val { code := 0x0A }
        else f.goesOn t (x.setGr r (f.mfsValue t n.toNat)) (x.pc + 4))) ∧
    (∀ m, (n.toNat, m) ∈ plainSrs → ((srRow n.toNat).bind (·.2.2)).all (fun l => s.ready t.val l fp) = true →
      exec (.mts t r n) s = .next (f.goesOn t (x.setSr n.toNat ((x.srg n.toNat &&& ~~~ m) ||| (v &&& m))) (x.pc + 4))) ∧
    (n.toNat = 0x010 → s.ready t.val 0 true = true → 1 ≤ v.toNat / 2 ^ 10 % 8 → v.toNat / 2 ^ 10 % 8 ≤ 5 →
      exec (.mts t r n) s = .next (f.goesOn t (x.setSr 0x010 ((x.srg 0x010 &&& ~~~ 0x1FFF) ||| (v &&& 0x1FFF))) (x.pc + 4))) ∧
    (n.toNat = 0x030 → s.ready t.val 3 false = true →
      exec (.mts t r n) s = .next (({ f with time := v } : State).retire t.val (x.pc + 4))) ∧
    (n.toNat = 0x000 → s.ready t.val 3 false = true → v.toNat % 4 ≠ 2 → ∃ y, exec (.mts t r n) s = .next (f.goesOn t y (x.pc + 4)) ∧
      y.srg 0x000 = (x.srg 0x000 &&& ~~~ 0xE0F3) ||| (v &&& 0xE0F3) ∧ y.keeps x [0x000]) ∧
    (n.toNat = 0x000 → s.ready t.val 1 false = true → x.pl ≠ 3 → v.toNat % 4 < 2 →
      exec (.mts t r n) s = .next (f.goesOn t (x.setSr 0x000 ((x.srg 0x000 &&& ~~~ 0xF1) ||| (v &&& 0xF1))) (x.pc + 4))) ∧
    (n.toNat = 0x000 → s.ready t.val 1 false = true → x.pl ≠ 3 → 2 ≤ v.toNat % 4 → ∃ w, aisWord (.mts t r n) = some (t, w) ∧
      exec (.mts t r n) s = .next (f.takeExc t.val { code := 0x02, info := w, addr := some x.pc }))

namespace Sys2Proof.Machine

/-- A local or broadcast TLBI or WCI (R96): thread, function code less 0x010, and the operand registers. -/
def invalOp : Instr → Option (Thr × Nat × Option GReg × Option GReg)
  | .tlbiVa t ra rb => some (t, 0, some ra, some rb)
  | .tlbiVaB t ra rb => some (t, 1, some ra, some rb)
  | .tlbiTag t rb => some (t, 2, none, some rb)
  | .tlbiTagB t rb => some (t, 3, none, some rb)
  | .tlbiAll t => some (t, 4, none, none)
  | .tlbiAllB t => some (t, 5, none, none)
  | .wciVa t ra rb => some (t, 8, some ra, some rb)
  | .wciVaB t ra rb => some (t, 9, some ra, some rb)
  | .wciTag t rb => some (t, 10, none, some rb)
  | .wciTagB t rb => some (t, 11, none, some rb)
  | .wciAll t => some (t, 12, none, none)
  | .wciAllB t => some (t, 13, none, none)
  | _ => none

/-- What an invalidation removes (R176): of the TLB for codes below 8, of the walk cache from 8 on; by address and tag (a global TLB entry whatever its tag), by tag (no global TLB entry), or all. -/
def goneTlb (fn : Nat) (va tag : Nat) (e : TlbEnt) : Bool :=
  if fn < 2 then e.hits va tag else if fn < 4 then !e.g && e.tag == tag else fn < 6
def goneWalk (fn : Nat) (va tag : Nat) (e : WalkEnt) : Bool :=
  if fn = 8 ∨ fn = 9 then e.tag == tag && e.va == va % 2 ^ 57 / 2 ^ (12 + 9 * e.level)
  else if fn = 10 ∨ fn = 11 then e.tag == tag else decide (12 ≤ fn)

end Sys2Proof.Machine

/-- While a thread waits for its broadcast TLBI or WCI: INVALIDATION_BROADCAST_RECEIVE at a core that has not yet performed it lets the core remove the matching entries and marks it done, with what the core's threads then have to drain noted; a second one at the same core does nothing. INVALIDATION_COMPLETE, once no core and no module is awaited and what had to drain has, lets the thread go on at pc + 4. For every TLBI and WCI of a ready thread at S level or above whose core is the whole broadcast group (always so for the local forms; for a broadcast, no other core of the partition and no other module takes part) and whose core's threads have no store or device store on its way: exec answers the state in which the core has lost exactly the TLB and micro-TLB entries, or walk-cache entries, the operands select, and the thread goes on at pc + 4. (R177, R178, R241, R96, R176) -/
def Obligations.InvalidationResults : Prop :=
  ((∀ (t : Thr) (c : Pcore) (b : Bcast) (m : Nat) (s : State), (s.thr t.val).wait = .inval b m →
    (bitOf b.cores c.val = true → exec (.invalidationBroadcastReceive (.thread t) c) s = .next
      ((s.setCore c.val ((s.core c.val).invalidate b.fn b.ra.toNat b.rb.toNat)).modThr t.val fun x => x.waits (.inval { b with
        cores := setBit b.cores c.val false
        drains := b.drains ++ (s.setCore c.val ((s.core c.val).invalidate b.fn b.ra.toNat b.rb.toNat)).drainsOf c.val } m))) ∧
    (bitOf b.cores c.val = false → exec (.invalidationBroadcastReceive (.thread t) c) s = .next s)) ∧
  (∀ (t : Thr) (b : Bcast) (s : State), (s.thr t.val).run = .running → (s.thr t.val).wait = .inval b 0 → b.cores = 0 →
    (∀ d ∈ b.drains, d.2 ≤ (s.thr d.1).popped ∧ ∀ e ∈ (s.thr d.1).trk, d.2 ≤ e.seq) →
    exec (.invalidationComplete t) s = .next ((s.modThr t.val fun x => x.waits .none).retire t.val ((s.thr t.val).pc + 4)))) ∧
  (∀ (i : Instr) (t : Thr) (fn : Nat) (ra rb : Option GReg) (s : State), invalOp i = some (t, fn, ra, rb) → s.ready t.val 1 false = true →
    let f := s.fetched t.val
    let x := f.thr t.val
    let c := f.pcore t.val
    let va := match ra with | some r => (x.gr r).toNat | none => 0
    let tag := match rb with | some r => (x.gr r).toNat % 2 ^ 16 | none => 0
    (fn % 2 = 1 → f.bcastCores c = 0 ∧ f.actF (HWD_XLAT c) HWD_XLAT_BGRP = 0) →
    (∀ u ∈ f.coreThreads c, (f.thr u).sb = [] ∧ (f.thr u).trk = []) →
    ∃ g : State, exec i s = .next (g.retire t.val (x.pc + 4)) ∧
      (g.core c).tlb = (f.core c).tlb.filter (fun e => !(decide (fn < 8) && goneTlb fn va tag e)) ∧
      (g.core c).utlbI = (f.core c).utlbI.filter (fun e => !(decide (fn < 8) && goneTlb fn va tag e)) ∧
      (g.core c).utlbD = (f.core c).utlbD.filter (fun e => !(decide (fn < 8) && goneTlb fn va tag e)) ∧
      (g.core c).wc = (f.core c).wc.filter (fun e => !(decide (8 ≤ fn) && goneWalk fn va tag e)) ∧
      (∀ d, d ≠ c → g.core d = f.core d) ∧ g.threads = f.threads ∧ g.regs = f.regs)

/-- For ready threads at S level or above. TLBWR with words that spell an entry: every older entry for the same page that the new one replaces is gone, the new entry is first, a full set of eight loses its least recently used entry, and the thread goes on at pc + 4; with words of R165 the illegal-instruction trap is taken. TWALK with a malformed operand (a bit of rb outside the base, LEVEL above 4, an address not canonical) writes code 5; with a table address in device space code 3 and that address; with a table Firebreak lets the partition not read code 4 and that address; and where the entry is read, code 1 with V = 0, code 2 malformed, code 0 and the entry otherwise (with ADHW 0). rd takes the answer and the thread goes on at pc + 4. (R164, R165, R170, R171, R172) -/
def Obligations.TranslationResults : Prop :=
  (∀ (t : Thr) (ra rb : GReg) (s : State), s.ready t.val 1 false = true →
    let f := s.fetched t.val
    let x := f.thr t.val
    (∀ e, tlbEntOf (x.gr ra).toNat (x.gr rb).toNat = some e →
      exec (.tlbwr t ra rb) s = .next ((f.modCore (f.pcore t.val) fun c => c.tlbWrite e).retire t.val (x.pc + 4)) ∧
      (((f.core (f.pcore t.val)).tlbWrite e).tlb.head? = some e) ∧
      (∀ o ∈ ((f.core (f.pcore t.val)).tlbWrite e).tlb.drop 1, e.clashes o = false ∧ o ∈ (f.core (f.pcore t.val)).tlb)) ∧
    (tlbEntOf (x.gr ra).toNat (x.gr rb).toNat = none →
      exec (.tlbwr t ra rb) s = .next (f.takeExc t.val { code := 0x01, info := encR 0x3B 0 ra.val rb.val 0x000, addr := some x.pc }))) ∧
  (∀ (t : Thr) (rd ra rb : GReg) (s : State), s.ready t.val 1 false = true →
    let f := s.fetched t.val
    let x := f.thr t.val
    let va := (x.gr ra).toNat
    let b := (x.gr rb).toNat
    let ea := b / 4096 * 4096 + 8 * (va / 2 ^ (12 + 9 * (b % 8)) % 512)
    let out (g : State) (code v : Nat) : Host.Outcome State Fault Refusal :=
      .next (g.goesOn t ((g.thr t.val).setGr rd (BitVec.ofNat 64 (code * 2 ^ 59 + v % 2 ^ 59))) ((g.thr t.val).pc + 4))
    ((b / 2 ^ 52 ≠ 0 ∨ b / 16 % 256 ≠ 0 ∨ 4 < b % 8 ∨ canonical va = false) → exec (.twalk t rd ra rb) s = out f 5 0) ∧
    (b / 2 ^ 52 = 0 → b / 16 % 256 = 0 → b % 8 ≤ 4 → canonical va = true →
      (2 ^ 51 ≤ ea → exec (.twalk t rd ra rb) s = out f 3 ea) ∧
      (ea < 2 ^ 51 → f.memOk (f.part t.val) ea false = false → exec (.twalk t rd ra rb) s = out f 4 ea) ∧
      (∀ l, ea < 2 ^ 51 → f.memOk (f.part t.val) ea false = true → b % 8 = 0 →
        let e := f.readMem t.val ea 8 7
        e.value? = some l →
        let w := fromLe l
        (w % 2 = 0 → exec (.twalk t rd ra rb) s = out e.state 1 w) ∧
        (w % 2 = 1 → malformed w 0 = true → exec (.twalk t rd ra rb) s = out e.state 2 w) ∧
        (w % 2 = 1 → malformed w 0 = false → w / 2 % 2 = 1 → f.actF (HWD_XLAT (f.pcore t.val)) HWD_XLAT_ADHW = 0 →
          e.state.active = f.active → exec (.twalk t rd ra rb) s = out e.state 0 w))))

namespace Sys2Proof.Machine

/-- A CMAINT instruction that acts through the store buffer (R97, R215, R216): thread, address register, lowest level, whether its check is a write's, and the kind of its entry. -/
def cmaintOp : Instr → Option (Thr × GReg × Nat × Bool × StoreKind)
  | .clwb t ra => some (t, ra, 0, false, .clwb)
  | .clflush t ra => some (t, ra, 0, false, .clflush)
  | .clinv t ra => some (t, ra, 3, true, .clinv)
  | .clzero t ra => some (t, ra, 0, true, .clzero)
  | _ => none

/-- The hints of R215: thread and address register. -/
def hintOp : Instr → Option (Thr × GReg)
  | .prefr t ra => some (t, ra)
  | .prefw t ra => some (t, ra)
  | _ => none

end Sys2Proof.Machine

/-- For every one of the four, a ready thread (at M level for CLINV) whose address is untranslated memory that its partition may access as the row asks, with room in the store buffer: exec answers the state in which the buffer has one more entry, of the row's kind and at the first byte of the line, made at the thread's level and pc; the thread counts event 0x4D, loses its own reservation on that line where the row is not CLWB, and goes on at pc + 4. No other thread, no line and no byte of memory changes. (R97, R215, R216) -/
def Obligations.MaintenanceBuffered : Prop :=
  ∀ (i : Instr) (t : Thr) (ra : GReg) (lvl : Nat) (wr : Bool) (k : StoreKind) (s : State), cmaintOp i = some (t, ra, lvl, wr, k) →
    s.ready t.val lvl false = true →
    let f := s.fetched t.val
    let x := f.thr t.val
    let pa := (x.gr ra).toNat % 2 ^ 52
    x.translated (x.gr ra).toNat = false → isMem pa = true → f.memOk (f.part t.val) pa wr = true → x.sb.length < 48 →
    let hit := k ≠ .clwb ∧ x.resv = some (lineOf pa)
    exec i s = .next (f.goesOn t
      (({ x with
          sb := x.sb ++ [⟨k, pa / 256 * 256, [], x.pl, false, x.pc⟩]
          resv := if hit then none else x.resv
          defer := if hit then 0 else x.defer } : Thread).pmc 0x4D) (x.pc + 4))

/-- ICINV of a ready thread at S level or above, at an untranslated address of memory that its partition may read: the line is gone from the L1I of the thread's own core, and the thread goes on at pc + 4. PREFR and PREFW of any ready thread, whatever the address: exec answers a state in which the thread stands at pc + 4 with its general, floating-point and state registers (but INSTRET and the performance counters), store buffer and mode as before. HW_PREFETCH: with CORE_PF.EN = 0 nothing changes; with EN = 1, on an active core out of reset, for a line of memory outside unreleased seed memory that the core's partition may read, that nobody defers, that the module holds and the core does not, with room in the side buffer: the line is in the core's side buffer and marked as held by the core, and its state, data and poison are as before. (R97, R213, R215, R226) -/
def Obligations.HintResults : Prop :=
  (∀ (t : Thr) (ra : GReg) (s : State), s.ready t.val 1 false = true →
    let f := s.fetched t.val
    let x := f.thr t.val
    let pa := (x.gr ra).toNat % 2 ^ 52
    x.translated (x.gr ra).toNat = false → isMem pa = true → f.memOk (f.part t.val) pa false = true →
    let c := f.pcore t.val
    exec (.icinv t ra) s = .next ((f.setCore c { (f.core c) with l1i := (f.core c).l1i.filter fun e => e.line != lineOf pa }).goesOn t
      (x.pmc 0x4D) (x.pc + 4))) ∧
  (∀ (i : Instr) (t : Thr) (ra : GReg) (s : State), hintOp i = some (t, ra) → s.ready t.val 0 false = true →
    let x := (s.fetched t.val).thr t.val
    ∃ u : State, exec i s = .next u ∧ (u.thr t.val).pc = x.pc + 4 ∧ (u.thr t.val).sb = x.sb ∧ (u.thr t.val).run = .running ∧
      (u.thr t.val).keeps x (SR_INSTRET :: (List.range 8).map SR_PMC)) ∧
  (∀ (c : Pcore) (line : BitVec 43) (s : State),
    (s.getF (CORE_PF c.val) CORE_PF_EN = 0 → exec (.hwPrefetch c line) s = .next s) ∧
    (s.getF (CORE_PF c.val) CORE_PF_EN ≠ 0 → s.coreActive c.val = true → (s.core c.val).held = false →
      s.hintOk (s.corePart c.val) (line.toNat * 256) false = true → s.lineDeferred line.toNat = false →
      s.accRead line.toNat = LineAcc.ok → line.toNat ∉ (s.core c.val).side →
      (∀ e ∈ (s.core c.val).l2, e.line ≠ line.toNat) → (s.core c.val).side.length < 32 →
      ∃ u : State, exec (.hwPrefetch c line) s = .next u ∧ (u.core c.val).side = (s.core c.val).side ++ [line.toNat] ∧
        u.line line.toNat = { (s.line line.toNat) with pres := setBit (s.line line.toNat).pres c.val true } ∧
        u.mem = s.mem ∧ (∀ d, d ≠ c.val → u.core d = s.core d)))

namespace Sys2Proof.Machine

/-- The way-disable register of a core's cache and its DIS field (R219); the L3's for `l3`. -/
def wayReg (k : CacheKind) (i : Nat) : Reg × Fld × Fld × Nat :=
  match k with
  | .l1i => (L2C_WAYST i, L2C_WAYST_L1IDIS, L2C_WAYST_FLOOR, 0x01)
  | .l1d => (L2C_WAYST i, L2C_WAYST_L1DDIS, L2C_WAYST_FLOOR, 0x01)
  | .l2 => (L2C_WAYST i, L2C_WAYST_L2DIS, L2C_WAYST_FLOOR, 0x04)
  | .l3 => (L3C_WAYST i, L3C_WAYST_L3DIS, L3C_WAYST_FLOOR, 0x05)

/-- The entries of a core's caches that a way disable concerns. -/
def Core.tags (c : Core) (k : CacheKind) : List CacheEnt :=
  match k with | .l1i => c.l1i | .l1d => c.l1d | .l2 => c.l2 | .l3 => []

/-- A way may be disabled under the floors of R220. -/
def State.floorOk (s : State) (k : CacheKind) (i w : Nat) : Bool := if k = .l3 then s.l3Floor i w else s.coreFloor i (cacheNum k) w

end Sys2Proof.Machine

/-- WAY_DISABLE_DONE of an enabled way whose count of corrected errors has reached a THRESH that is not 0: where the floors of R220 allow it, the way's DIS bit is set, no entry of a core's cache remains in the way, and a corrected record of TYPE 0x03 under the cache's block names the way; where they do not, FLOOR is set and DIS keeps its value, with the same record marked 1. Below THRESH, or with THRESH 0, nothing changes. WAY_WINDOW_END sets every corrected-error count of the L3 slices, or of the cores' caches, to zero. WAY_REENABLE by the configuration bus: DIS and FLOOR lose exactly the bits written with 1, and the counts of the ways re-enabled are zero. (R219, R220, R221) -/
def Obligations.WayResults : Prop :=
  (∀ (k : CacheKind) (i : Pcore) (w : Fin 16) (s : State), (cacheNum k < 2 → w.val < 8) →
    let (r, dis, floor, blk) := wayReg k i.val
    (s.wayThresh (cacheNum k) i.val = 0 ∨ s.wayCount (cacheNum k) i.val w.val < s.wayThresh (cacheNum k) i.val →
      exec (.wayDisableDone k i w) s = .next s) ∧
    (s.wayThresh (cacheNum k) i.val ≠ 0 → s.wayThresh (cacheNum k) i.val ≤ s.wayCount (cacheNum k) i.val w.val →
      bitOf (s.getF r dis) w.val = false →
      (s.floorOk k i.val w.val = true → ∃ g u : State, exec (.wayDisableDone k i w) s = .next u ∧
        u = g.logC blk i.val 0x03 [BitVec.ofNat 8 w.val, 0] ∧ g.getF r dis = setBit (s.getF r dis) w.val true ∧
        ∀ e ∈ (u.core i.val).tags k, e.way ≠ w.val) ∧
      (s.floorOk k i.val w.val = false → exec (.wayDisableDone k i w) s = .next
        (((s.modCore i.val fun x => { x with disabling := x.disabling.filter fun d => d != cacheNum k * 16 + w.val }).setF r floor 1).logC
          blk i.val 0x03 [BitVec.ofNat 8 w.val, 1])))) ∧
  (∀ s : State, ∃ u : State, exec (.wayWindowEnd true) s = .next u ∧ (∀ i < 72, u.reg (L3C_CECNT i) = 0) ∧ u.cores = s.cores ∧
    u.threads = s.threads) ∧
  (∀ s : State, ∃ u : State, exec (.wayWindowEnd false) s = .next u ∧ (∀ i < 72, u.reg (L2C_CECNT i) = 0 ∧ (u.core i).l1iCnt = [] ∧
    (u.core i).l1dCnt = [] ∧ (u.core i).l2 = (s.core i).l2) ∧ u.threads = s.threads) ∧
  (∀ (i : Pcore) (v : Word) (s : State), s.domainUp 0x05 i.val = true →
    ∃ u : State, exec (.wayReenable .config true i v) s = .next u ∧
      u.reg (L3C_WAYST i.val) = s.reg (L3C_WAYST i.val) &&& ~~~ (v &&& 0xFFFF000080000000) ∧
      (∀ w < 16, bitOf (s.getF (L3C_WAYST i.val) L3C_WAYST_L3DIS) w = true → bitOf (L3C_WAYST_L3DIS.get v) w = true →
        u.wayCount 3 i.val w = 0) ∧ u.cores = s.cores ∧ u.lines = s.lines) ∧
  (∀ (i : Pcore) (v : Word) (s : State), s.domainUp 0x04 i.val = true →
    ∃ u : State, exec (.wayReenable .config false i v) s = .next u ∧
      u.reg (L2C_WAYST i.val) = s.reg (L2C_WAYST i.val) &&& ~~~ (v &&& 0xFFFFFFFF80000000) ∧
      (∀ w < 16, bitOf (s.getF (L2C_WAYST i.val) L2C_WAYST_L2DIS) w = true → bitOf (L2C_WAYST_L2DIS.get v) w = true →
        u.wayCount 2 i.val w = 0) ∧ u.lines = s.lines)

namespace Sys2Proof.Machine

/-- A thread that an interrupt may enter now: it runs, stands at a boundary or in a wait of SYNC, DRAIN or WAIT, and no fixed event precedes (R122, R128). -/
abbrev Thread.mayEnter (x : Thread) : Prop :=
  x.run = .running ∧ x.devLoad = [] ∧ (x.wait = .none ∨ x.wait = .sync ∨ x.wait = .drain) ∧ x.wtwPend = false ∧ x.tkoPend = none ∧ x.rexPend = []

/-- What an entry to S level leaves (R115): cause word, return pc, and the registers it saves, from the thread before it. -/
def Thread.enteredS (y x : Thread) (cause ret : Word) : Prop :=
  y.srg SR_SCS = cause ∧ y.srg SR_SRP = (ret &&& 0xFFFFFFFFFFFFFFFC) ∧ y.srg SR_SSS = x.srg SR_PST ∧ y.pc = x.srg SR_SVB ∧ y.pl = 1 ∧
  y.pstBit PST_STA = true ∧ y.pstBit PST_SGIE = false ∧ y.wait = .none ∧ y.resv = none ∧ y.keeps x [SR_PST, SR_SCS, SR_SRP, SR_SSS]

/-- What an entry to M level leaves (R116). -/
def Thread.enteredM (y x : Thread) (cause ret pc : Word) (more : List Nat) : Prop :=
  y.srg SR_MCS = cause ∧ y.srg SR_MRP = (ret &&& 0xFFFFFFFFFFFFFFFC) ∧ y.srg SR_MSS = x.srg SR_PST ∧ y.pc = pc ∧ y.pl = 3 ∧
  y.pstBit PST_MTA = true ∧ y.pstBit PST_MGIE = false ∧ y.wait = .none ∧ y.resv = none ∧ y.keeps x ([SR_PST, SR_MCS, SR_MRP, SR_MSS] ++ more)

end Sys2Proof.Machine

/-- For a thread that may be entered. S_INTERRUPT_ENTRY, no M interrupt and no floating-point trap being due: the enabled pending S interrupt of highest precedence is taken at S level, with cause 0x03 and the oldest identifier of the queue, which leaves it, for SEI; cause 0x01 and the sender, SSI being cleared, for SSI; cause 0x02 for STI. M_INTERRUPT_ENTRY: MCI takes cause 0x14, puts the summary into MCE and clears MCI; MEI takes cause 0x13 and the oldest identifier, which leaves the queue; MSI takes cause 0x11 and the sender and is cleared. The entry saves PST and the pc of the next or abandoned instruction, enters SVB or MVB, and changes no other register and no other thread. (R122) -/
def Obligations.InterruptEntries : Prop :=
  (∀ (t : Thr) (s : State), (s.thr t.val).mayEnter → (s.thr t.val).mInt = none → (s.thr t.val).fpPend = false →
    let x := s.thr t.val
    (s.sInt x = some 2 → ∀ id q, x.sq = id :: q → x.sOvf = false → ∃ u : State, exec (.sInterruptEntry t) s = .next u ∧
      (u.thr t.val).enteredS x (BitVec.ofNat 64 (2 ^ 63 + 3 * 2 ^ 32 + id % 2 ^ 32)) x.pc ∧ (u.thr t.val).sq = q ∧ (u.thr t.val).ssi = x.ssi ∧
      ∀ v, v ≠ t.val → u.thr v = s.thr v) ∧
    (s.sInt x = some 0 → ∀ i, x.ssi = some i → ∃ u : State, exec (.sInterruptEntry t) s = .next u ∧
      (u.thr t.val).enteredS x (BitVec.ofNat 64 (2 ^ 63 + 1 * 2 ^ 32 + i % 2 ^ 32)) x.pc ∧ (u.thr t.val).ssi = none ∧ (u.thr t.val).sq = x.sq ∧
      ∀ v, v ≠ t.val → u.thr v = s.thr v) ∧
    (s.sInt x = some 1 → ∃ u : State, exec (.sInterruptEntry t) s = .next u ∧
      (u.thr t.val).enteredS x (BitVec.ofNat 64 (2 ^ 63 + 2 * 2 ^ 32)) x.pc ∧ (u.thr t.val).sq = x.sq ∧ (u.thr t.val).ssi = x.ssi ∧
      ∀ v, v ≠ t.val → u.thr v = s.thr v)) ∧
  (∀ (t : Thr) (s : State), (s.thr t.val).mayEnter →
    let x := s.thr t.val
    (x.mInt = some 4 → ∀ w, x.mci = some w → ∃ u : State, exec (.mInterruptEntry t) s = .next u ∧
      (u.thr t.val).enteredM x (BitVec.ofNat 64 (2 ^ 63 + 0x14 * 2 ^ 32)) x.pc (x.srg SR_MVB) [SR_MCE] ∧ (u.thr t.val).srg SR_MCE = w ∧
      (u.thr t.val).mci = none ∧ ∀ v, v ≠ t.val → u.thr v = s.thr v) ∧
    (x.mInt = some 2 → ∀ id q, x.mq = id :: q → x.mOvf = false → ∃ u : State, exec (.mInterruptEntry t) s = .next u ∧
      (u.thr t.val).enteredM x (BitVec.ofNat 64 (2 ^ 63 + 0x13 * 2 ^ 32 + id % 2 ^ 32)) x.pc (x.srg SR_MVB) [] ∧ (u.thr t.val).mq = q ∧
      ∀ v, v ≠ t.val → u.thr v = s.thr v) ∧
    (x.mInt = some 0 → ∀ i, x.msi = some i → ∃ u : State, exec (.mInterruptEntry t) s = .next u ∧
      (u.thr t.val).enteredM x (BitVec.ofNat 64 (2 ^ 63 + 0x11 * 2 ^ 32 + i % 2 ^ 32)) x.pc (x.srg SR_MVB) [] ∧ (u.thr t.val).msi = none ∧
      ∀ v, v ≠ t.val → u.thr v = s.thr v))

/-- STIMER_MATCH of a running thread whose STCMP lies ahead: TIME is STCMP, as much time has passed, and SIP.STI reads 1 (that the row advances TIME to the match is the model's choice, log entry 6). IDENTIFIER_ARRIVE of an identifier other than 0xFFFF: one already queued is dropped; with 16 queued the overflow mark is set; otherwise the identifier is queued last; the other queue is as before. MYC_IPI of a running thread that the device grants let write it, with Mycel's clock running, for a target in its own partition: bit 8 clear sets the target's SSI, bit 8 set (at M level only) its MSI, with the sender's thread and module as INFO, and nothing else of the target changes; bit 8 set from below M level is discarded and logged. (R121, R122, R123) -/
def Obligations.InterruptSources : Prop :=
  (∀ (t : Thr) (s : State), (s.thr t.val).run = .running → s.time < (s.thr t.val).srg SR_STCMP →
    ∃ u : State, exec (.stimerMatch t) s = .next u ∧ u.time = (s.thr t.val).srg SR_STCMP ∧ (s.sip (s.thr t.val)).getLsbD 1 = false ∧
      (u.sip (u.thr t.val)).getLsbD 1 = true ∧ u.threads = s.threads ∧ u.uptime = s.uptime + (u.time - s.time).toNat) ∧
  (∀ (t : Thr) (m : Bool) (id : BitVec 16) (s : State), id.toNat ≠ 0xFFFF →
    let x := s.thr t.val
    let q := if m then x.mq else x.sq
    ∃ u : State, exec (.identifierArrive t m id) s = .next u ∧
      (let y := u.thr t.val
       (if m then y.mq else y.sq) = (if id.toNat ∈ q ∨ 16 ≤ q.length then q else q ++ [id.toNat]) ∧
       (if m then y.mOvf else y.sOvf) = ((if m then x.mOvf else x.sOvf) || (decide (id.toNat ∉ q) && decide (16 ≤ q.length))) ∧
       (if m then y.sq = x.sq ∧ y.sOvf = x.sOvf else y.mq = x.mq ∧ y.mOvf = x.mOvf) ∧ y.keeps x [] ∧ y.pc = x.pc) ∧
      ∀ v, v ≠ t.val → u.thr v = s.thr v) ∧
  (∀ (t : Thr) (v : Word) (s : State), s.running t.val = true → s.devOk (s.part t.val) (.reg 0x06 0 0x4000) = true →
    s.domainUp 0x06 0 = true → s.part (v.toNat % 128) = s.part t.val →
    let d := v.toNat % 128
    (v.getLsbD 8 = false → exec (.mycIpi (.core t) v) s =
      .next (({ s with fresh := s.fresh + 1 } : State).setThr d { (s.thr d) with ssi := some (t.val + s.self * 256) })) ∧
    (v.getLsbD 8 = true → (s.thr t.val).pl = 3 → exec (.mycIpi (.core t) v) s =
      .next (({ s with fresh := s.fresh + 1 } : State).setThr d { (s.thr d) with msi := some (t.val + s.self * 256) })) ∧
    (v.getLsbD 8 = true → (s.thr t.val).pl ≠ 3 → exec (.mycIpi (.core t) v) s =
      .next (s.log { block := 0x06, typ := 0x0A, part := some (s.part t.val), detail := [0x00, 0x40, 0, 0] })))

/-- TAKEOVER_RESUME_ENTRY of a running thread with MTA = 0 at a boundary, no warning pending: cause 0x23 with the core it left, MCE the summary of the takeover record, pc M-base + 0x0C0; the event is no longer pending. With MTA = 1 nothing changes. RETRY_EXHAUSTED_NOTIFICATION, no takeover resume being due: cause 0x22 with the failed logical core, MCE the summary, pc M-base + 0x080; the oldest notification leaves. WINDTHROW_WARNING: every running thread for which it is pending enters M-base + 0x180 with cause 0x26, whatever MTA and MDT hold, and the others stay as they are. (R119, R128, R130) -/
def Obligations.FixedEventEntries : Prop :=
  (∀ (t : Thr) (s : State) (c : Nat) (w : Word), let x := s.thr t.val
    x.run = .running → x.devLoad = [] → (x.wait = .none ∨ x.wait = .sync ∨ x.wait = .drain) → x.wtwPend = false → x.tkoPend = some (c, w) →
    (x.pstBit PST_MTA = true → exec (.takeoverResumeEntry t) s = .next s) ∧
    (x.pstBit PST_MTA = false → ∃ u : State, exec (.takeoverResumeEntry t) s = .next u ∧
      (u.thr t.val).enteredM x (BitVec.ofNat 64 (0x23 * 2 ^ 32 + c % 2 ^ 32)) x.pc (s.mbaseOf t.val + 0xC0) [SR_MCE] ∧
      (u.thr t.val).srg SR_MCE = w ∧ (u.thr t.val).tkoPend = none ∧ (u.thr t.val).rexPend = x.rexPend ∧ ∀ v, v ≠ t.val → u.thr v = s.thr v)) ∧
  (∀ (t : Thr) (s : State) (c : Nat) (w : Word) (r : List (Nat × Word)), let x := s.thr t.val
    x.run = .running → x.devLoad = [] → (x.wait = .none ∨ x.wait = .sync ∨ x.wait = .drain) → x.wtwPend = false → x.tkoPend = none →
    x.rexPend = (c, w) :: r →
    (x.pstBit PST_MTA = true → exec (.retryExhaustedNotification t) s = .next s) ∧
    (x.pstBit PST_MTA = false → ∃ u : State, exec (.retryExhaustedNotification t) s = .next u ∧
      (u.thr t.val).enteredM x (BitVec.ofNat 64 (0x22 * 2 ^ 32 + c % 2 ^ 32)) x.pc (s.mbaseOf t.val + 0x80) [SR_MCE] ∧
      (u.thr t.val).srg SR_MCE = w ∧ (u.thr t.val).rexPend = r ∧ ∀ v, v ≠ t.val → u.thr v = s.thr v)) ∧
  (∀ s : State, ∃ u : State, exec .windthrowWarning s = .next u ∧
    ∀ t < 128, let x := s.thr t
      (x.run = .running → x.wtwPend = true →
        (u.thr t).enteredM x (BitVec.ofNat 64 (0x26 * 2 ^ 32)) x.pc (s.mbaseOf t + 0x180) [] ∧ (u.thr t).wtwPend = false) ∧
      (x.run ≠ .running ∨ x.wtwPend = false → u.thr t = x))

/-- For a thread whose store buffer's oldest entry is a store to memory, with the line owned and not deferred: the line holds the entry's bytes at its address and every other byte as before, is in state M with no core but the thread's holding it, the entry has left the buffer, and no byte of the expanders' memory has changed. Where the line is not owned, it is requested and, until it is, the entry stays. For a CLZERO entry of an owned line: the whole line is zero. For a CLWB, CLFLUSH or CLINV of a line whose home is this module, no other of the thread being on its way: the home receives CMW, CMF or CMI. With an empty buffer nothing changes but broadcasts that are now complete. (R185) -/
def Obligations.StoreBecomesVisible : Prop :=
  ∀ (t : Thr) (e : StoreEnt) (r : List StoreEnt) (s : State), (s.thr t.val).sb = e :: r →
    let l := lineOf e.pa
    (e.kind = .mem → e.pa % 256 + e.bytes.length ≤ 256 → s.deferred l t.val = false →
      (s.accWrite l = LineAcc.ok → ∃ u : State, exec (.storeVisible t) s = .next u ∧
        lineBytes (u.line l).data (e.pa % 256) e.bytes.length = e.bytes ∧
        (∀ k < 256, k < e.pa % 256 ∨ e.pa % 256 + e.bytes.length ≤ k → lineBytes (u.line l).data k 1 = lineBytes (s.line l).data k 1) ∧
        (u.line l).st = .m ∧ (∀ c < 72, c ≠ s.pcore t.val → bitOf (u.line l).pres c = false) ∧ (u.thr t.val).sb = r ∧ u.mem = s.mem) ∧
      (∀ opc, s.accWrite l = LineAcc.need opc → (s.request opc l (s.part t.val) (some t.val)).accWrite l = LineAcc.wait →
        exec (.storeVisible t) s = .next (s.request opc l (s.part t.val) (some t.val)).settleBcasts)) ∧
    (e.kind = .clzero → e.pa % 256 = 0 → s.deferred l t.val = false → s.accWrite l = LineAcc.ok →
      ∃ u : State, exec (.storeVisible t) s = .next u ∧ (u.line l).data = 0 ∧ (u.line l).st = .m ∧ (u.line l).poison = e.poison ∧
        (u.thr t.val).sb = r ∧ u.mem = s.mem) ∧
    (∀ opc, (e.kind = .clwb ∧ opc = OPC_CMW ∨ e.kind = .clflush ∧ opc = OPC_CMF ∨ e.kind = .clinv ∧ opc = OPC_CMI) →
      s.cmoOut t.val = false → s.tidsFull = false → lineHome l = s.self →
      exec (.storeVisible t) s = .next (s.homeAccept opc l s.self s.newTid (s.part t.val) (some t.val)).settleBcasts)

/-- DEVICE_STORE_ACCEPT of a device store at the head of the buffer to a register window or to a port half that is up of this module, the target not failed, fewer than 16 stores outstanding: it moves to the end of the tracker; with 16 outstanding nothing changes. DEVICE_STORE_COMPLETE of an outstanding store to a register window, no earlier one to the same target outstanding: it leaves the tracker and the register is written at the store's level and partition; otherwise nothing changes. DEVICE_STORE_TIMEOUT of an outstanding store to a target not yet failed: the target is marked failed, no store of any thread to it is outstanding any more, and the pending failure of each thread that had one, unless one was pending, is its first such store in program order. (R192) -/
def Obligations.DeviceStores : Prop :=
  (∀ (t : Thr) (e : StoreEnt) (r : List StoreEnt) (s : State), (s.thr t.val).sb = e :: r → e.kind = .dev → s.wind < 2 →
    let x := s.thr t.val
    (16 ≤ x.trk.length → exec (.deviceStoreAccept t) s = .next s) ∧
    (x.trk.length < 16 → s.devKey e.pa ∉ s.failed → paModule e.pa = s.self →
      (match paDst e.pa with | .reg _ _ _ => true | .port h _ => !s.halfDown h | .none => false) = true →
      exec (.deviceStoreAccept t) s = .next (s.setThr t.val
        { x with sb := r, popped := x.popped + 1, trk := x.trk ++ [⟨e.pa, e.bytes, e.lvl, x.popped, false, none⟩] }))) ∧
  (∀ (t : Thr) (i : Nat) (e : TrkEnt) (b k o : Nat) (s : State), (s.thr t.val).trk[i]? = some e → paModule e.pa = s.self →
    paDst e.pa = .reg b k o →
    let x := s.thr t.val
    ((∃ f ∈ x.trk.take i, s.devKey f.pa = s.devKey e.pa) → exec (.deviceStoreComplete t i) s = .next s) ∧
    ((∀ f ∈ x.trk.take i, s.devKey f.pa ≠ s.devKey e.pa) → exec (.deviceStoreComplete t i) s = .next
      ((s.setThr t.val { x with trk := x.trk.take i ++ x.trk.drop (i + 1) }).regWrite ⟨.core t, e.lvl, some (s.part t.val)⟩ b k o
        e.bytes.length (BitVec.ofNat 64 (fromLe e.bytes))).settleBcasts)) ∧
  (∀ (t : Thr) (i : Nat) (e : TrkEnt) (s : State), (s.thr t.val).trk[i]? = some e → s.devKey e.pa ∉ s.failed →
    ∃ u : State, exec (.deviceStoreTimeout t i) s = .next u ∧ s.devKey e.pa ∈ u.failed ∧
      ∀ v < 128, (u.thr v).trk = (s.thr v).trk.filter (fun f => s.devKey f.pa != s.devKey e.pa) ∧
        (u.thr v).devFail = (match (s.thr v).devFail with
          | some a => some a
          | none => ((s.thr v).trk.find? fun f => s.devKey f.pa == s.devKey e.pa).map (·.pa)) ∧
        (u.thr v).keeps (s.thr v) [] ∧ (u.thr v).pc = (s.thr v).pc)

/-- ZERO_LENGTH_READ_SEND marks exactly the thread's outstanding writes to that port half. ZERO_LENGTH_READ_COMPLETION with success: exactly the marked writes to it are complete and leave the tracker. DEVICE_LOAD_COMPLETE for the oldest port load of the thread that awaits its data: with success its value is the data cut to its size; without, it is all ones and the target is marked failed. DEVICE_LOAD_TIMEOUT: the oldest load without data has all ones, and its target is marked failed. RESERVATION_DEFER_EXPIRE: the thread defers nothing any more; with no snoop and no request waiting that is all that changes. (R189, R191, R192, R196, R203) -/
def Obligations.PortStoresAndLoads : Prop :=
  (∀ (t : Thr) (h : Nat) (s : State), exec (.zeroLengthReadSend t h) s = .next (s.setThr t.val { (s.thr t.val) with
    trk := (s.thr t.val).trk.map fun e => if s.atPort h e then { e with zlr := true } else e })) ∧
  (∀ (t : Thr) (h : Nat) (s : State), exec (.zeroLengthReadCompletion t h true) s = .next (s.setThr t.val { (s.thr t.val) with
    trk := (s.thr t.val).trk.filter fun e => !(s.atPort h e && e.zlr) }).settleBcasts) ∧
  (∀ (t : Thr) (h : Nat) (e : TrkEnt) (s : State), ((s.thr t.val).trk.find? fun e => s.atPort h e && e.zlr) = some e →
    s.devKey e.pa ∉ s.failed → ∃ u : State, exec (.zeroLengthReadCompletion t h false) s = .next u ∧ s.devKey e.pa ∈ u.failed ∧
      (∀ f ∈ (u.thr t.val).trk, s.devKey f.pa ≠ s.devKey e.pa) ∧ (u.thr t.val).devFail ≠ none) ∧
  (∀ (t : Thr) (a b : List DevLoad) (d : DevLoad) (v : BitVec 128) (s : State), (s.thr t.val).devLoad = a ++ d :: b →
    (∀ x ∈ a, x.val ≠ none ∨ x.tid ≠ none) → d.val = none → d.tid = none →
    exec (.deviceLoadComplete t true v) s = .next (s.setThr t.val { (s.thr t.val) with
      devLoad := a ++ { d with val := some (v &&& onesVal d.size) } :: b }) ∧
    ∃ u : State, exec (.deviceLoadComplete t false v) s = .next u ∧ (u.thr t.val).devLoad = a ++ { d with val := some (onesVal d.size) } :: b ∧
      s.devKey d.pa ∈ u.failed ∧ (u.thr t.val).keeps (s.thr t.val) []) ∧
  (∀ (t : Thr) (a b : List DevLoad) (d : DevLoad) (s : State), (s.thr t.val).devLoad = a ++ d :: b → (∀ x ∈ a, x.val ≠ none) →
    d.val = none → ∃ u : State, exec (.deviceLoadTimeout t) s = .next u ∧
      (u.thr t.val).devLoad = a ++ { d with val := some (onesVal d.size) } :: b ∧ s.devKey d.pa ∈ u.failed ∧
      (u.thr t.val).keeps (s.thr t.val) []) ∧
  (∀ (t : Thr) (s : State), (∃ u : State, exec (.reservationDeferExpire t) s = .next u ∧ (u.thr t.val).defer = 0) ∧
    (s.snpQ = [] → s.home = [] → exec (.reservationDeferExpire t) s = .next (s.setThr t.val { (s.thr t.val) with defer := 0 })))

namespace Sys2Proof.Machine

/-- A message's flit arrives in order (R253) on an active port, from a peer that is not severed. -/
def State.inOrder (s : State) (h : Hdr) : Bool :=
  s.gpState h.port.val == 2 && (s.gp h.port.val).rxSeq == h.lseq.toNat && !(s.peer h.src.val).severed

/-- The state once the link layer has taken the flit: LACK frees the retry buffer, the next flit is expected (R253). -/
def State.taken (s : State) (h : Hdr) : State :=
  (s.modGp h.port.val fun x => x.ack h.lack.toNat).modGp h.port.val fun x => { x with rxSeq := (x.rxSeq + 1) % 4096 }

/-- The requests that Firebreak checks: opcode, and whether as a write (R239, R281). -/
def groveReq : Instr → Option (Hdr × Nat × Bool)
  | .rds h => some (h, OPC_RDS, false)
  | .rdo h => some (h, OPC_RDO, true)
  | .upg h => some (h, OPC_UPG, true)
  | .rdz h => some (h, OPC_RDZ, true)
  | .cmw h => some (h, OPC_CMW, false)
  | .cmf h => some (h, OPC_CMF, false)
  | .cmi h => some (h, OPC_CMI, true)
  | _ => none

/-- An answer of this module to a message: to `dst`, echoing its identifiers (R234). -/
def State.reply1 (s : State) (h : Hdr) (opc st : Nat) (dst : Nat) (tid : Nat) (d : Option (LineData × Bool)) : Msg :=
  { s.mkMsg opc dst h.la.toNat with
    rqm := h.rqm.val, tid := tid, rtid := h.rtid.toNat, st := st, part := h.part.val, line := d.map Prod.fst, psn := (d.map Prod.snd).getD false }

/-- The home's answer to a request (R234). -/
def State.homeMsg (s : State) (h : Hdr) (opc st : Nat) : Msg :=
  { s.mkMsg opc h.src.val h.la.toNat with rqm := h.src.val, tid := h.tid.toNat, rtid := h.tid.toNat, st := st, part := h.part.val }

/-- The tracker entry of a request of another module. -/
def newTx (h : Hdr) (opc : Nat) : HomeTx :=
  { line := h.la.toNat, opc := opc, src := h.src.val, tid := h.tid.toNat, part := h.part.val, thr := none, st := .hq, wait := 0,
    data := none, direct := false, grant := 0, keep := 0, evict := none, rdWait := false, dead := false, acked := false }

/-- A line of this module that nobody holds, with nothing else in progress at the home and room in its Canopy set. -/
abbrev State.quietLine (s : State) (l i : Nat) : Prop :=
  s.home = [] ∧ s.purges = [] ∧ s.lineDeferred l = false ∧ s.canIdx l = none ∧ (s.line l).held = false ∧
  (((List.range 16).map fun w => canSet l * 16 + w).filter s.canWayOn).find? (fun i => (s.can i).st == .inv) = some i

end Sys2Proof.Machine

/-- For each request in order on an active port about a line of this module. Refused by Firebreak: counted, recorded, and answered ERR ST 1. Otherwise it enters the tracker behind the earlier ones. For a line nobody holds, nothing else being in progress: RDS (grant E), RDO and UPG (as RDO, grant M) have a Canopy entry reserved and the line's read outstanding at its Root link, and nothing sent; RDZ is granted with GNT ST 3 at once; CMW, CMF and CMI, no write being outstanding, answer CMACK ST 3. WBK of the recorded owner writes memory and frees the entry, from any other module it changes neither memory nor Canopy; EVN removes the module from the entry; PWB writes memory; each answers WACK. (R231, R232, R239, R240, R243, R246) -/
def Obligations.GroveRequestResults : Prop :=
  (∀ (i : Instr) (h : Hdr) (opc : Nat) (wr : Bool) (s : State), groveReq i = some (h, opc, wr) → s.inOrder h = true →
    lineHome h.la.toNat = s.self →
    let g := s.taken h
    let l := h.la.toNat
    (g.memOk h.part.val (l * 256) wr = false → ∃ v : State, v = g.refuse 2 h.part.val (l * 256) wr ∧
      exec i s = .next (v.send (v.reply1 h OPC_ERR 1 h.src.val h.tid.toNat none))) ∧
    (g.memOk h.part.val (l * 256) wr = true →
      exec i s = .next ({ g with home := g.home ++ [newTx h opc] } : State).homeServe ∧
      (h.src.val ≠ s.self → ∀ j, g.quietLine l j →
        (∀ lk a n, opc = OPC_RDS ∨ opc = OPC_RDO ∨ opc = OPC_UPG → g.seedIdx (l * 256) = none → g.placeLine l = some (lk, a) →
          g.readLink lk a = some n → g.takesReads n = true → ∃ u : State, exec i s = .next u ∧
            u.home = [{ newTx h (if opc = OPC_RDS then OPC_RDS else OPC_RDO) with
              st := .hm, grant := if opc = OPC_RDS then 2 else 3, rdWait := true }] ∧
            u.can j = ⟨.sh, canTag l, 0, 0⟩ ∧ a ∈ (u.root n).rds ∧ u.mem = g.mem ∧ u.gports = g.gports ∧ u.peers = g.peers) ∧
        (opc = OPC_RDZ → ∃ u : State, exec i s = .next u ∧ u.home = [{ newTx h opc with st := .hc, grant := 3 }] ∧ u.can j = ⟨.sh, canTag l, 0, 0⟩ ∧
          u.mem = g.mem ∧ u.gports = (g.send (g.homeMsg h OPC_GNT 3)).gports ∧ u.peers = (g.send (g.homeMsg h OPC_GNT 3)).peers) ∧
        (opc = OPC_CMW ∨ opc = OPC_CMF ∨ opc = OPC_CMI → g.writesOut l = false → ∃ u : State, exec i s = .next u ∧ u.home = [] ∧
          u.mem = g.mem ∧ u.canopy = g.canopy ∧ u.gports = (g.send (g.homeMsg h OPC_CMACK 3)).gports ∧
          u.peers = (g.send (g.homeMsg h OPC_CMACK 3)).peers)))) ∧
  (∀ (h : Hdr) (d : LineData) (s : State), s.inOrder h = true → lineHome h.la.toNat = s.self → h.src.val ≠ s.self →
    let g := s.taken h
    let l := h.la.toNat
    let w := g.send (g.homeMsg h OPC_WACK 0)
    g.home = [] → g.purges = [] → g.lineDeferred l = false → (g.canOf l).st ≠ .pnd →
    (∃ u : State, exec (.wbk h d) s = .next u ∧ u.home = [] ∧ u.gports = w.gports ∧ u.peers = w.peers ∧
      ((g.canOf l).st = .ex → (g.canOf l).owner = h.src.val → u.mem = (g.memWrite l d h.psn).mem ∧ u.roots = (g.memWrite l d h.psn).roots ∧
        ∀ i, g.canIdx l = some i → u.can i = CanEnt.free) ∧
      ((g.canOf l).st ≠ .ex ∨ (g.canOf l).owner ≠ h.src.val → u.mem = g.mem ∧ u.roots = g.roots ∧ u.canopy = g.canopy)) ∧
    (∃ u : State, exec (.evn h) s = .next u ∧ u.home = [] ∧ u.mem = g.mem ∧ u.roots = g.roots ∧ u.gports = w.gports ∧ u.peers = w.peers ∧
      (bitOf (g.canOf l).pres h.src.val = false → u.canopy = g.canopy) ∧
      (∀ i, g.canIdx l = some i → bitOf (g.canOf l).pres h.src.val = true →
        if setBit (g.canOf l).pres h.src.val false = 0 then u.can i = CanEnt.free
        else (u.can i).pres = setBit (g.canOf l).pres h.src.val false ∧ (u.can i).tag = canTag l))) ∧
  (∀ (h : Hdr) (d : LineData) (s : State), s.inOrder h = true →
    let g := s.taken h
    let l := h.la.toNat
    ∃ u : State, exec (.pwb h d) s = .next u ∧ u.mem = (g.memWrite l d h.psn).mem ∧ u.roots = (g.memWrite l d h.psn).roots ∧
      u.home = g.home ∧ (∀ i, g.canIdx l = some i → u.can i = CanEnt.free) ∧
      u.gports = (g.send (g.reply1 h OPC_WACK 0 h.src.val h.tid.toNat none)).gports)

namespace Sys2Proof.Machine

/-- The snoops of R235. -/
def groveSnoop : Instr → Option (Hdr × Nat)
  | .snps h => some (h, OPC_SNPS)
  | .snpo h => some (h, OPC_SNPO)
  | .snpi h => some (h, OPC_SNPI)
  | .snpw h => some (h, OPC_SNPW)
  | .binv h => some (h, OPC_BINV)
  | _ => none

/-- What a snoop does by the state of its line (R242): the messages it causes in order (to the requester or to the home, opcode, ST, with the line's data or not), and the state the line goes to. -/
def snoopTable (opc : Nat) (st : LineSt) : List (Bool × Nat × Nat × Bool) × LineSt :=
  let data (n : Nat) : Bool × Nat × Nat × Bool := (true, OPC_DATA, n, true)
  let srsp (n : Nat) : Bool × Nat × Nat × Bool := (false, OPC_SRSP, n, false)
  let srspd (n : Nat) : Bool × Nat × Nat × Bool := (false, OPC_SRSPD, n, true)
  let ack : Bool × Nat × Nat × Bool := (false, OPC_INVACK, 0, false)
  match st with
  | .i => ([srsp 0], .i)
  | .isd => ([srsp 0], .isd)
  | .imd => ([srsp 0], .imd)
  | .mia =>
    (if opc = OPC_SNPS then [data 1, srsp 4] else if opc = OPC_SNPO then [data 3, srsp 4] else if opc = OPC_SNPI then [ack] else [srspd 4], .mia)
  | .sma => if opc = OPC_SNPI ∨ opc = OPC_BINV then ([ack], .imd) else ([srsp 0], .sma)
  | .m =>
    if opc = OPC_SNPS then ([data 1, srspd 3], .s) else if opc = OPC_SNPO then ([data 3, srsp 4], .i)
    else if opc = OPC_SNPW then ([srspd 3], .e) else if opc = OPC_BINV then ([srspd 4], .i) else ([ack], .i)
  | .e =>
    if opc = OPC_SNPS then ([data 1, srsp 1], .s) else if opc = OPC_SNPO then ([data 3, srsp 2], .i)
    else if opc = OPC_SNPW then ([srsp 1], .e) else ([ack], .i)
  | .s => if opc = OPC_SNPI ∨ opc = OPC_BINV then ([ack], .i) else ([srsp 0], .s)

/-- A message of the table. -/
def State.tableMsg (s : State) (h : Hdr) (e : Bool × Nat × Nat × Bool) : Msg :=
  let x := s.line h.la.toNat
  let d := if e.2.2.2 then some (x.data, x.poison) else none
  if e.1 then s.reply1 h e.2.1 e.2.2.1 h.rqm.val h.rtid.toNat d else s.reply1 h e.2.1 e.2.2.1 h.src.val h.tid.toNat d

end Sys2Proof.Machine

/-- For each snoop in order on an active port about a line of another module. While a constrained loop of a thread holds the line, the snoop is kept for later. Otherwise the messages of R242's row for the line's state go out, to the requester with DATA and to the home, in that order; the line goes to the row's state, with its data and poison kept unless it goes to I, in which case no cache of the module holds it; no byte of memory changes. SPURGE: no line of the purged set whose home is the sender is held any more, and PACK has been sent last; with no such line, that is all. (R203, R242, R248) -/
def Obligations.GroveSnoopResults : Prop :=
  (∀ (i : Instr) (h : Hdr) (opc : Nat) (s : State), groveSnoop i = some (h, opc) → s.inOrder h = true → lineHome h.la.toNat ≠ s.self →
    let g := s.taken h
    let l := h.la.toNat
    (g.lineDeferred l = true → ∃ m : Msg, m.opc = opc ∧ m.la = l ∧ m.src = h.src.val ∧ m.rqm = h.rqm.val ∧
      exec i s = .next { g with snpQ := g.snpQ ++ [m] }) ∧
    (g.lineDeferred l = false →
      let r := snoopTable opc (g.line l).st
      let v := (r.1.map (g.tableMsg h)).foldl State.send g
      ∃ u : State, exec i s = .next u ∧ u.gports = v.gports ∧ u.peers = v.peers ∧ u.mem = g.mem ∧ u.roots = g.roots ∧
        (u.line l).st = r.2 ∧ ((g.line l).st = r.2 ∨ (r.2 ≠ .i ∧ r.2 ≠ .imd) → (u.line l).data = (g.line l).data ∧ (u.line l).poison = (g.line l).poison) ∧
        ((g.line l).st ≠ .i → r.2 = .i → ∀ c < 72, bitOf (g.line l).pres c = true →
          ∀ e ∈ (u.core c).l1i ++ (u.core c).l1d ++ (u.core c).l2, e.line ≠ l))) ∧
  (∀ (h : Hdr) (s : State), s.inOrder h = true →
    let g := s.taken h
    let set := h.la.toNat % 2 ^ 18
    (∃ u : State, exec (.spurge h) s = .next u ∧
      (∀ l, lineHome l = h.src.val → canSet (l % 2 ^ 37) = set → (u.line l).held = false) ∧
      ∃ v : State, u = v.send { v.mkMsg OPC_PACK h.src.val set with rqm := h.rqm.val, tid := h.tid.toNat }) ∧
    ((∀ e ∈ g.lines, lineHome e.1 = h.src.val → canSet (e.1 % 2 ^ 37) = set → e.2.held = false) →
      exec (.spurge h) s = .next (g.send { g.mkMsg OPC_PACK h.src.val set with rqm := h.rqm.val, tid := h.tid.toNat })))

namespace Sys2Proof.Machine

/-- The module's outstanding transaction that an answer ends, by sender and either identifier. -/
def State.txOf (s : State) (h : Hdr) : Option OutTx := s.out.find? fun o => o.dst == h.src.val && (o.tid == h.rtid.toNat || o.tid == h.tid.toNat)

/-- The message of a command about its line, for looking up its transaction. -/
def keyMsg (h : Hdr) : Msg := hdrMsg h 0

end Sys2Proof.Machine

/-- For answers in order on an active port. DATA with a valid ST for an outstanding request: the line has the granted state, the data and the poison, the transaction is over and CMP is sent last. GNT for a line in SMA: the line is in M, CMP is sent. CMP from the requester a line waits for: Canopy records it, as sole owner for E and M and beside the keepers for S, and the home's request ends. WACK: the transaction is over, and a line in MIA goes to I. CMACK ST 1: the thread's operation leaves its buffer and its write-back stays owed; ST 2: the write-back is no longer owed and the transaction is over. PACK: the member is no longer awaited; the last one frees the set. ERR for a coherent request of a line not in SMA: the transaction is over, and the line is in I with the ST kept for the accesses that wait. (R216, R231, R236, R240, R242, R274) -/
def Obligations.GroveGrantResults : Prop :=
  (∀ (h : Hdr) (d : LineData) (o : OutTx) (s : State), s.inOrder h = true → 1 ≤ h.st.toNat → h.st.toNat ≤ 3 →
    (s.taken h).outOf (keyMsg h) getsLine = some o →
    ∃ w : State, exec (.data h d) s =
        .next (w.send { w.mkMsg OPC_CMP (lineHome o.line) o.line with rqm := w.self, tid := o.tid, rtid := o.tid, part := o.part }) ∧
      (w.line h.la.toNat).st = (if h.st.toNat = 1 then .s else if h.st.toNat = 2 then .e else .m) ∧ (w.line h.la.toNat).data = d ∧
      (w.line h.la.toNat).poison = h.psn ∧ (w.line h.la.toNat).err = 0 ∧
      (((s.taken h).line h.la.toNat).held = true → w.out = (s.taken h).out.filter fun p => p.tid != o.tid)) ∧
  (∀ (h : Hdr) (o : OutTx) (s : State), s.inOrder h = true → 1 ≤ h.st.toNat → h.st.toNat ≤ 3 →
    let g := s.taken h
    let l := h.la.toNat
    g.outOf (keyMsg h) getsLine = some o → (g.line l).st = .sma →
    let w := ({ g with out := g.out.filter fun p => p.tid != o.tid } : State).setLine l { (g.line l) with st := .m }
    exec (.gnt h) s = .next (w.send { w.mkMsg OPC_CMP (lineHome o.line) o.line with rqm := w.self, tid := o.tid, rtid := o.tid, part := o.part })) ∧
  (∀ (h : Hdr) (x : HomeTx) (s : State), s.inOrder h = true →
    let g := s.taken h
    let l := h.la.toNat
    g.homeHead l = some x → x.st = .hc → x.src = h.src.val → isCmo x.opc = false →
    exec (.cmp h) s = .next (((if x.grant = 1 then g.canPut l false (setBit x.keep h.src.val true) else g.canPut l true (2 ^ h.src.val)).endTx l).homeServe) ∧
    (g.home = [x] → ∃ u : State, exec (.cmp h) s = .next u ∧ u.home = [] ∧ ∀ i, g.canIdx l = some i →
      (u.can i).pres = (if x.grant = 1 then setBit x.keep h.src.val true else 2 ^ h.src.val) ∧ (u.can i).st = (if x.grant = 1 then .sh else .ex))) ∧
  (∀ (h : Hdr) (o : OutTx) (s : State), s.inOrder h = true →
    let g := s.taken h
    g.outOf (keyMsg h) (fun o => match o.kind with | .coh c => c == OPC_WBK || c == OPC_EVN || c == OPC_PWB | _ => false) = some o →
    let w : State := { g with out := g.out.filter fun p => p.tid != o.tid }
    exec (.wack h) s = .next (if (g.line h.la.toNat).st = .mia then w.setLine h.la.toNat Line.none else w)) ∧
  (∀ (h : Hdr) (o : OutTx) (t : Nat) (e : StoreEnt) (r : List StoreEnt) (s : State), s.inOrder h = true →
    let g := s.taken h
    let l := h.la.toNat
    g.outOf (keyMsg h) isCmoTx = some o → o.thr = some t →
    (h.st.toNat = 1 → (g.thr t).sb = e :: r → e.pa / 256 = l → exec (.cmack h) s = .next (g.setThr t { (g.thr t) with
      sb := r, popped := (g.thr t).popped + 1, wbs := (g.thr t).wbs ++ [l] }).settleBcasts) ∧
    (h.st.toNat = 2 → exec (.cmack h) s = .next
      (({ g with out := g.out.filter fun p => p.tid != o.tid } : State).setThr t { (g.thr t) with wbs := (g.thr t).wbs.erase l })) ∧
    (h.st.toNat = 3 → (g.thr t).sb = e :: r → e.pa / 256 = l → exec (.cmack h) s = .next
      (({ g with out := g.out.filter fun p => p.tid != o.tid } : State).setThr t { (g.thr t) with sb := r, popped := (g.thr t).popped + 1 }).settleBcasts)) ∧
  (∀ (h : Hdr) (p : Purge) (s : State), s.inOrder h = true →
    let g := s.taken h
    let set := h.la.toNat % 2 ^ 18
    (g.purges.find? fun p => p.set == set && bitOf p.wait h.src.val) = some p →
    (setBit p.wait h.src.val false ≠ 0 → exec (.pack h) s = .next
      { g with purges := g.purges.map fun q => if q.set = set then { q with wait := setBit p.wait h.src.val false } else q }) ∧
    (setBit p.wait h.src.val false = 0 → g.home = [] → ∃ u : State, exec (.pack h) s = .next u ∧
      u.purges = g.purges.filter (fun q => q.set != set) ∧ ∀ w < 16, u.can (set * 16 + w) = CanEnt.free)) ∧
  (∀ (h : Hdr) (o : OutTx) (c : Nat) (s : State), s.inOrder h = true → 1 ≤ h.st.toNat → h.st.toNat ≤ 4 →
    let g := s.taken h
    g.txOf h = some o → o.kind = .coh c → c ≠ OPC_WBK → c ≠ OPC_EVN → c ≠ OPC_PWB → (g.line o.line).st ≠ .sma →
    exec (.err h) s = .next (({ g with out := g.out.filter fun p => p.tid != o.tid } : State).setLine o.line { Line.none with err := h.st.toNat }))

/-- For a request alone at the home that has sent snoops and awaits the sender and at least one other module, its line in no Canopy eviction: SRSP with ST 1 or 3 and, where no owner supplies the line directly, INVACK leave it awaiting the others, and change nothing else. SRSPD ST 3 does the same and its data is written to memory, unless the request is a CMI or RDZ, whose modified data is discarded. SRSP ST 0 of the owner that should have supplied the line directly: the line is no longer supplied directly, Canopy no longer records the module, and an RDS is to be granted E. (R233, R240, R244) -/
def Obligations.SnoopResponseResults : Prop :=
  ∀ (h : Hdr) (x : HomeTx) (s : State), s.inOrder h = true →
    let g := s.taken h
    let l := h.la.toNat
    let m := h.src.val
    g.home = [x] → x.line = l → x.st = .hs → x.evict = none → bitOf x.wait m = true → setBit x.wait m false ≠ 0 →
    let y : HomeTx := { x with wait := setBit x.wait m false }
    (h.st.toNat = 1 ∨ h.st.toNat = 3 → exec (.srsp h) s = .next { g with home := [y] }) ∧
    (x.direct = false → exec (.invack h) s = .next { g with home := [y] }) ∧
    (∀ d, h.st.toNat = 3 → exec (.srspd h d) s = .next
      { (if x.opc = OPC_CMI ∨ x.opc = OPC_RDZ then g else g.memWrite l d h.psn) with home := [y] }) ∧
    (h.st.toNat = 0 → x.direct = true → ∃ u : State, exec (.srsp h) s = .next u ∧
      u.home = [{ y with direct := false, keep := setBit x.keep m false, grant := if x.opc = OPC_RDS then 2 else x.grant }] ∧
      u.canopy = (g.canPut l false (setBit (g.canOf l).pres m false)).canopy ∧ u.mem = g.mem)

/-- For messages in order on an active port. MRD and MWR whose device grant is missing: refused, counted, recorded, answered ERR ST 1; to a target marked failed: ERR ST 4; to a granted register window: the register is read or written for the message's module and partition, and MRSP carries the data or completes the write. MRSP for a remote read gives the waiting load its data, for a remote write removes the tracker entry; either ends the transaction. TLBB with no active core of the group on this module, no other broadcast waiting: TLBA is sent at once; otherwise the invalidation waits for exactly those cores. TLBA: the module is no longer awaited and the transaction is over. A flit with an opcode of no message on an active port: it is recorded and the port retrains quickly. (R188, R189, R239, R241, R283) -/
def Obligations.RemoteAccessResults : Prop :=
  (∀ (h : Hdr) (lo : BitVec 8) (z : Bool) (v : Word) (s : State), s.inOrder h = true →
    let g := s.taken h
    let pa := 2 ^ 51 + h.la.toNat * 256 + lo.toNat
    let w : Who := ⟨.peer h.src h.part, 0, some h.part.val⟩
    let aux := lo.toNat + 256 * b2n z
    let ans (k : State) (opc st : Nat) : State := k.send { k.reply1 h opc st h.src.val h.tid.toNat none with aux := aux }
    (paModule pa = g.self → g.devOk h.part.val (paDst pa) = false →
      exec (.mrd h lo z) s = .next (ans (g.refuse 2 h.part.val pa false) OPC_ERR 1) ∧
      exec (.mwr h lo z v) s = .next (ans (g.refuse 2 h.part.val pa true) OPC_ERR 1)) ∧
    (paModule pa = g.self → g.devOk h.part.val (paDst pa) = true → g.devKey pa ∈ g.failed →
      exec (.mrd h lo z) s = .next (ans g OPC_ERR 4) ∧ exec (.mwr h lo z v) s = .next (ans g OPC_ERR 4)) ∧
    (∀ b i o, paModule pa = g.self → g.devOk h.part.val (paDst pa) = true → g.devKey pa ∉ g.failed → paDst pa = .reg b i o →
      let n := if z then 8 else 4
      let r := g.regRead w b i o n
      let q := g.regWrite w b i o n v
      exec (.mrd h lo z) s = .next (r.2.send { r.2.mkMsg OPC_MRSP h.src.val h.la.toNat with
        rqm := h.rqm.val, tid := h.tid.toNat, rtid := h.tid.toNat, part := h.part.val, aux := aux, w0 := r.1, st := 1 }) ∧
      exec (.mwr h lo z v) s = .next (q.send { q.mkMsg OPC_MRSP h.src.val h.la.toNat with
        rqm := h.rqm.val, tid := h.tid.toNat, rtid := h.tid.toNat, part := h.part.val, aux := aux }))) ∧
  (∀ (h : Hdr) (v : Word) (o : OutTx) (t : Nat) (s : State), s.inOrder h = true →
    let g := s.taken h
    let k : State := { g with out := g.out.filter fun p => p.tid != o.tid }
    g.txOf h = some o →
    (o.kind = .mrd t → ∀ a d b, (g.thr t).devLoad = a ++ d :: b → d.val = none → d.tid = some o.tid →
      (∀ x ∈ a, x.val ≠ none ∨ x.tid ≠ some o.tid) →
      exec (.mrsp h v) s = .next (k.setThr t { (g.thr t) with devLoad := a ++ { d with val := some (v.setWidth 128) } :: b })) ∧
    (o.kind = .mwr t → exec (.mrsp h v) s = .next
      (k.setThr t { (g.thr t) with trk := (g.thr t).trk.filter fun e => e.tid != some o.tid }).settleBcasts) ∧
    (o.kind = .tlbb t → ∀ b mods, (g.thr t).wait = .inval b mods →
      exec (.tlba h) s = .next (k.setThr t { (g.thr t) with wait := .inval b (setBit mods h.src.val false) }))) ∧
  (∀ (h : Hdr) (grp : BitVec 8) (fn : BitVec 4) (ra rb : Word) (s : State), s.inOrder h = true → (s.taken h).inb = [] →
    let g := s.taken h
    let cs := (List.range 72).filter fun c =>
      g.coreActive c && !(g.core c).held && !g.leaving c && grp.toNat != 0 && g.actF (HWD_XLAT c) HWD_XLAT_BGRP == grp.toNat
    (cs = [] → exec (.tlbb h grp fn ra rb) s = .next
      (g.send { g.mkMsg OPC_TLBA h.src.val 0 with rqm := h.src.val, tid := h.tid.toNat, part := h.part.val })) ∧
    (cs ≠ [] → ∃ m : Nat, (∀ c < 72, bitOf m c = decide (c ∈ cs)) ∧ exec (.tlbb h grp fn ra rb) s = .next
      { g with inb := [⟨h.src.val, h.tid.toNat, h.part.val, ⟨fn.toNat, ra, rb, m, []⟩⟩] })) ∧
  (∀ (p : GrovePort) (s : State), s.gpState p.val = 2 → ∃ u : State, exec (.unknownOpcode p) s = .next u ∧ u.gpState p.val = 3 ∧
    u.getF (GRV_ERR p.val) GRV_ERR_QRETRAIN = min (s.getF (GRV_ERR p.val) GRV_ERR_QRETRAIN + 1) (2 ^ GRV_ERR_QRETRAIN.width - 1) ∧
    u.gports = s.gports)

namespace Sys2Proof.Machine

/-- A 16-, 8- or 4-bit counter that stops at all ones (R11). -/
def State.counted (u s : State) (r : Reg) (f : Fld) : Prop := u.getF r f = min (s.getF r f + 1) (2 ^ f.width - 1)

end Sys2Proof.Machine

/-- On an active port. NAK frees what lies before the flit it names; with flits left it counts REPLAY and a replay without progress, and the eighth such replay starts a quick retrain. A flit with a bad CRC counts CRCERR and sends NAK for the flit expected; nothing else changes. An idle flit frees by LACK and returns its credits. A relayed flit in order for another module goes out on a direct port of that module; one for this module counts only with the pair sequence expected, which then advances. RESUME for the port itself frees its buffer up to the flit named; for a lost port its buffer is empty afterwards, and it waits for no RESUME. WTHROW of a member, not yet severed, other than this module: it is severed, not live, its paths are failed targets, and no line of its memory is held. (R251, R252, R253, R258, R260) -/
def Obligations.GroveLinkFlow : Prop :=
  (∀ (p : GrovePort) (n : BitVec 12) (s : State), s.gpState p.val = 2 →
    let x := (s.gp p.val).ack ((n.toNat + 4095) % 4096)
    (x.buf = [] → exec (.nak p n) s = .next (s.setGp p.val x)) ∧
    (x.buf ≠ [] → ∃ u : State, exec (.nak p n) s = .next u ∧ u.counted s (GRV_ERR p.val) GRV_ERR_REPLAY ∧
      (x.replays < 7 → u.gp p.val = { x with replays := x.replays + 1 } ∧ u.gpState p.val = 2) ∧
      (7 ≤ x.replays → u.gp p.val = { x with replays := 0 } ∧ u.gpState p.val = 3 ∧ u.counted s (GRV_ERR p.val) GRV_ERR_QRETRAIN))) ∧
  (∀ (p : GrovePort) (s : State), s.gpState p.val = 2 → ∃ u : State, exec (.flitCrcFailure p) s = .next u ∧
    u.counted s (GRV_ERR p.val) GRV_ERR_CRCERR ∧ u.gp p.val = { (s.gp p.val) with ctl := .nak (s.gp p.val).rxSeq :: (s.gp p.val).ctl } ∧
    u.gpState p.val = 2 ∧ u.mem = s.mem ∧ u.lines = s.lines ∧ u.threads = s.threads) ∧
  (∀ (p : GrovePort) (lack : BitVec 12) (vc : BitVec 3) (c : BitVec 13) (s : State), s.gpState p.val = 2 →
    exec (.idleFlit p lack vc c) s = .next (s.setGp p.val (((s.gp p.val).ack lack.toNat).credit vc.toNat c.toNat))) ∧
  (∀ (p : GrovePort) (f : Relayed) (s : State), s.gpState p.val = 2 → (s.gp p.val).rxSeq = f.lseq.toNat →
    let g := (s.modGp p.val fun x => x.ack f.lack.toNat).modGp p.val fun x => { x with rxSeq := (x.rxSeq + 1) % 4096 }
    (∀ q, f.final.val ≠ s.self → (g.bundle f.final.val).find? g.gpUp = some q → ∃ m : Msg, m.opc = f.opc.toNat ∧ m.dst = f.final.val ∧
      m.la = f.h.la.toNat ∧ m.line = some f.data ∧
      exec (.relayedFlit p f) s = .next (g.setGp q ((g.gp q).offer (.relayed f.first.val f.final.val f.pseq.toNat f.pack.toNat (some m))))) ∧
    (f.final.val = s.self → f.pseq.toNat ≠ (g.peer f.first.val).prx → ∃ l, exec (.relayedFlit p f) s = .next
      (g.setPeer f.first.val { (g.peer f.first.val) with pbuf := l })) ∧
    (f.final.val = s.self → f.pseq.toNat = (g.peer f.first.val).prx → ∃ (l : List Flit) (m : Msg), m.opc = f.opc.toNat ∧ m.src = f.h.src.val ∧
      m.la = f.h.la.toNat ∧ exec (.relayedFlit p f) s = .next
      (((g.setPeer f.first.val { (g.peer f.first.val) with pbuf := l }).modPeer f.first.val fun x => { x with prx := (x.prx + 1) % 4096 }).inFlit
        p.val m))) ∧
  (∀ (p q : GrovePort) (n : BitVec 12) (s : State), s.gpState p.val = 2 →
    exec (.resume p p n) s = .next (s.setGp p.val ((s.gp p.val).ack n.toNat)) ∧
    (q ≠ p → s.gpState q.val = 4 → (s.gp q.val).resumeFor ≠ [] → ∃ u : State, exec (.resume p q n) s = .next u ∧
      (u.gp q.val).buf = [] ∧ (u.gp q.val).waitQ = [] ∧ (u.gp q.val).resumeFor = [])) ∧
  (∀ (m : Module) (s : State), s.member m.val = true → (s.peer m.val).severed = false → m.val ≠ s.self →
    ∃ u : State, exec (.wthrow m) s = .next u ∧ (u.peer m.val).severed = true ∧ u.live m.val = false ∧ (0x20000 + m.val) ∈ u.failed ∧
      ∀ l, lineHome l = m.val → (u.line l).held = false)

/-- FLIT_TIMEOUT of an active port starts a quick retrain and counts it. LANE_FAIL of a good lane: with a group of four good lanes left an active port retrains quickly without the lane, with none it is lost. QUICK_RETRAIN_DONE: with the identity confirmed the port is active; a first failure in succession leaves it retraining, a second loses it; a peer of another identity makes it down and is severed. QUICK_RETRAIN_TIMEOUT loses the port. GROVE_PORT_TRAINED of a training port with four good lanes: with the identity confirmed it is active at its widest good width, lower group first, and shows the peer; otherwise it is down. SEVERANCE_TIMEOUT of a member without a path severs it. GROVE_TRAIN_TIMEOUT of a training port marks it down. In every other state of the port each of these changes nothing. (R64, R254, R255, R256, R257, R260) -/
def Obligations.GrovePortStates : Prop :=
  (∀ (p : GrovePort) (s : State),
    (s.gpState p.val = 2 → ∃ u : State, exec (.flitTimeout p) s = .next u ∧ u.gpState p.val = 3 ∧ u.counted s (GRV_ERR p.val) GRV_ERR_QRETRAIN ∧
      u.gports = s.gports) ∧
    (s.gpState p.val ≠ 2 → exec (.flitTimeout p) s = .next s) ∧
    (s.gpState p.val = 3 → ∃ u : State, exec (.quickRetrainTimeout p) s = .next u ∧ u.gpState p.val = 4 ∧
      (u.gp p.val).resumeFor = [p.val] ∧ (u.gp p.val).buf = (s.gp p.val).buf) ∧
    (s.gpState p.val ≠ 3 → exec (.quickRetrainTimeout p) s = .next s) ∧
    (s.gpState p.val = 1 → ∃ u : State, exec (.groveTrainTimeout p) s = .next u ∧ u.gpState p.val = 0 ∧ u.gports = s.gports ∧
      ∀ q < 7, q ≠ p.val → u.gpState q = s.gpState q) ∧
    (s.gpState p.val ≠ 1 → exec (.groveTrainTimeout p) s = .next s)) ∧
  (∀ (p : GrovePort) (n : Fin 16) (s : State), let ok := s.getF (GRV_STAT p.val) GRV_STAT_LANEOK
    let left := setBit ok n.val false
    (bitOf ok n.val = false → exec (.laneFail p n) s = .next s) ∧
    (s.gpState p.val = 2 → bitOf ok n.val = true → ∃ u : State, exec (.laneFail p n) s = .next u ∧
      u.getF (GRV_STAT p.val) GRV_STAT_LANEOK = left ∧
      u.gpState p.val = if (∃ g < 4, left / 2 ^ (4 * g) % 16 = 15) then 3 else 4)) ∧
  (∀ (p : GrovePort) (ok : Bool) (i : PortIdent) (s : State),
    (s.gpState p.val ≠ 3 → exec (.quickRetrainDone p ok i) s = .next s) ∧
    (s.gpState p.val = 3 → ok = true → s.identOk p.val i = true → ∃ u : State, exec (.quickRetrainDone p ok i) s = .next u ∧ u.gpState p.val = 2 ∧
      (u.gp p.val).qrFail = 0 ∧ (u.gp p.val).resumeFor = []) ∧
    (s.gpState p.val = 3 → ok = true → s.identOk p.val i = false → s.gpPeer p.val ≠ s.self → ∃ u : State,
      exec (.quickRetrainDone p ok i) s = .next u ∧ u.gpState p.val = 0 ∧ (u.peer (s.gpPeer p.val)).severed = true) ∧
    (s.gpState p.val = 3 → ok = false → (s.gp p.val).qrFail = 0 → ∃ u : State, exec (.quickRetrainDone p ok i) s = .next u ∧
      u.gpState p.val = 3 ∧ (u.gp p.val).qrFail = 1 ∧ u.counted s (GRV_ERR p.val) GRV_ERR_QRETRAIN) ∧
    (s.gpState p.val = 3 → ok = false → (s.gp p.val).qrFail ≠ 0 → ∃ u : State, exec (.quickRetrainDone p ok i) s = .next u ∧ u.gpState p.val = 4)) ∧
  (∀ (p : GrovePort) (lanes : BitVec 16) (i : PortIdent) (s : State), s.gpState p.val = 1 →
    let l := lanes.toNat
    (∃ g < 4, l / 2 ^ (4 * g) % 16 = 15) →
    ∃ u : State, exec (.grovePortTrained p lanes i) s = .next u ∧ u.getF (GRV_STAT p.val) GRV_STAT_PEERMOD = i.modn.val ∧
      u.getF (GRV_STAT p.val) GRV_STAT_PEERPORT = i.port.val ∧ u.getF (GRV_STAT p.val) GRV_STAT_LANEOK = l ∧
      (s.identOk p.val i = false → u.gpState p.val = 0) ∧
      (s.identOk p.val i = true → u.gpState p.val = 2 ∧ (u.peer i.modn.val).severed = false ∧ (0x20000 + i.modn.val) ∉ u.failed ∧
        let w := u.getF (GRV_STAT p.val) GRV_STAT_WIDTH
        let g := u.getF (GRV_STAT p.val) GRV_STAT_GRP
        (l = 0xFFFF → w = 3 ∧ g = 0) ∧
        (l ≠ 0xFFFF → l % 256 = 255 → w = 2 ∧ g = 0) ∧ (l ≠ 0xFFFF → l % 256 ≠ 255 → l / 256 = 255 → w = 2 ∧ g = 1) ∧
        (l % 256 ≠ 255 → l / 256 ≠ 255 → w = 1 ∧ l / 2 ^ (4 * g) % 16 = 15 ∧ ∀ k < g, l / 2 ^ (4 * k) % 16 ≠ 15))) ∧
  (∀ (m : Module) (s : State), s.member m.val = true → s.direct m.val = false → s.relay m.val = none → (s.peer m.val).severed = false →
    m.val ≠ s.self → ∃ u : State, exec (.severanceTimeout m) s = .next u ∧ (u.peer m.val).severed = true ∧ u.live m.val = false ∧
      (0x20000 + m.val) ∈ u.failed)

/-- A training link whose step misses its bound fails with the step's FAIL code and is logged; one that comes up with too small an expander fails with FAIL 9, otherwise it is in service at x8 or x4 when it trained first, and fenced when an unmirrored link trains again. A link in service that goes down retrains, its requests kept; back in time it is in service, after 300 ms it fails with FAIL 8. An outstanding request past MTMO counts TMO and fails the link with FAIL 7. A failed link has nothing outstanding and its pair, if in step, goes on with the other half. REVIVE returns a fenced link to service. HOLD = 1 of a link of a pair in step leaves its partner to serve alone, and the link, with nothing outstanding, is held with its reset asserted; HOLD = 0 trains it. RTL_CFG.GO starts a configuration access, which ends with GO clear and a read's data, all ones where it fails. (R265, R267, R274, R275, R276, R278) -/
def Obligations.RootLinkStates : Prop :=
  (∀ (n : Link) (k : Fin 8) (s : State), s.training n.val = true → (k.val, trainFail k.val) ∈ [(1, 1), (2, 3), (3, 4), (4, 2), (5, 5), (6, 6), (7, 9)] →
    ∃ u : State, exec (.rootLinkTrainTimeout n k) s = .next u ∧ u.rtlState n.val = 4 ∧
      u.getF (RTL_STAT n.val) RTL_STAT_FAIL = trainFail k.val ∧ (u.root n.val).rds = [] ∧ (u.root n.val).wrs = []) ∧
  (∀ (n : Link) (x4 : Bool) (q : Nat) (s : State),
    (s.retraining n.val = true → exec (.rootLinkInService n x4 q) s = .next (s.setF (RTL_STAT n.val) RTL_STAT_STATE (if x4 then 3 else 2))) ∧
    (s.training n.val = true → ∃ u : State, exec (.rootLinkInService n x4 q) s = .next u ∧
      u.getF (RTL_STAT n.val) RTL_STAT_CAPQ = min q 8192 ∧
      (q < s.decoderGib n.val * 4 → u.rtlState n.val = 4 ∧ u.getF (RTL_STAT n.val) RTL_STAT_FAIL = 9) ∧
      (s.decoderGib n.val * 4 ≤ q → (s.root n.val).back = 0 → u.rtlState n.val = (if x4 then 3 else 2)) ∧
      (s.decoderGib n.val * 4 ≤ q → (s.root n.val).back = 7 → s.pairEn (n.val / 2) = false →
        u.rtlState n.val = 7 ∧ (u.root n.val).back = (if x4 then 3 else 2)) ∧
      (s.decoderGib n.val * 4 ≤ q → (s.root n.val).back = 7 → s.pairEn (n.val / 2) = true → s.pairState (n.val / 2) = (if n.val % 2 = 0 then 3 else 2) →
        u.rtlState n.val = 6 ∧ u.pairState (n.val / 2) = (if n.val % 2 = 0 then 5 else 4) ∧ u.getF (HOM_MSTAT (n.val / 2)) HOM_MSTAT_PROG = 0))) ∧
  (∀ (n : Link) (la : Nat) (wr : Bool) (s : State), s.inService n.val = true →
    (if wr then la ∈ (s.root n.val).wrs.map (·.la) else la ∈ (s.root n.val).rds) →
    ∃ u : State, exec (.mtmoExpire n la wr) s = .next u ∧ u.rtlState n.val = 4 ∧ u.getF (RTL_STAT n.val) RTL_STAT_FAIL = 7 ∧
      u.counted s (RTL_ERR n.val) RTL_ERR_TMO ∧ (u.root n.val).rds = [] ∧ (u.root n.val).wrs = [] ∧
      (s.pairEn (n.val / 2) = true → s.pairState (n.val / 2) = 1 → u.pairState (n.val / 2) = if n.val % 2 = 0 then 3 else 2)) ∧
  (∀ (n : Link) (s : State), s.inService n.val = true → ∃ u : State, exec (.rootLinkDown n) s = .next u ∧ u.rtlState n.val = 1 ∧
    u.root n.val = { (s.root n.val) with back := s.rtlState n.val } ∧ u.retraining n.val = true) ∧
  (∀ (n : Link) (s : State), s.retraining n.val = true → ∃ u : State, exec (.rootLinkRetrainTimeout n) s = .next u ∧ u.rtlState n.val = 4 ∧
    u.getF (RTL_STAT n.val) RTL_STAT_FAIL = 8 ∧ (u.root n.val).rds = [] ∧ (u.root n.val).wrs = []) ∧
  (∀ (n : Link) (s : State), s.domainUp 0x09 n.val = true →
    (s.rtlState n.val = 7 → (s.root n.val).back = 2 ∨ (s.root n.val).back = 3 → ∃ u : State, exec (.revive .config n) s = .next u ∧
      u.rtlState n.val = (s.root n.val).back ∧ (u.root n.val).logged = false) ∧
    (s.pairEn (n.val / 2) = true → s.pairState (n.val / 2) = 1 → s.getF (RTL_CTL n.val) RTL_CTL_HOLD = 0 → RTL_CTL_REVIVE.get (s.reg (RTL_CTL n.val)) = 0 →
      ∃ u : State, exec (.holdSet .config n) s = .next u ∧
      u.pairState (n.val / 2) = (if n.val % 2 = 0 then 3 else 2) ∧ u.getF (RTL_CTL n.val) RTL_CTL_HOLD = 1 ∧
      (s.inService n.val = true → (s.root n.val).rds = [] → (s.root n.val).wrs = [] → u.rtlState n.val = 5 ∧ (u.root n.val).rst = true)) ∧
    (s.rtlState n.val = 5 → s.getF (RTL_CTL n.val) RTL_CTL_HOLD = 1 → RTL_CTL_REVIVE.get (s.reg (RTL_CTL n.val)) = 0 →
      ∃ u : State, exec (.holdClear .config n) s = .next u ∧ u.rtlState n.val = 1 ∧
      (u.root n.val).rst = false ∧ (u.root n.val).back = 7 ∧ u.getF (RTL_CTL n.val) RTL_CTL_HOLD = 0)) ∧
  (∀ (n : Link) (v : Word) (s : State), s.domainUp 0x09 n.val = true → (s.root n.val).cfg = false → ∃ u : State,
    exec (.rtlCfgGo .config n v) s = .next u ∧ (u.root n.val).cfg = true ∧ u.getF (RTL_CFG n.val) RTL_CFG_GO = 1 ∧
    u.getF (RTL_CFG n.val) RTL_CFG_REG = RTL_CFG_REG.get v) ∧
  (∀ (n : Link) (ok : Bool) (d : BitVec 32) (s : State), (s.root n.val).cfg = true → ∃ u : State, exec (.rtlCfgDone n ok d) s = .next u ∧
    (u.root n.val).cfg = false ∧ u.getF (RTL_CFG n.val) RTL_CFG_GO = 0 ∧
    (s.getF (RTL_CFG n.val) RTL_CFG_WR = 0 → u.getF (RTL_CFG n.val) RTL_CFG_DATA = if ok then d.toNat else 0xFFFFFFFF))

/-- CXL_READ_RESPONSE without poison for an outstanding read of an unmirrored link in service that is not held: the read is no longer outstanding, no byte of memory changes, and the home's waiting request gets the newest data written for the line, with the poison it had. CXL_WRITE_COMPLETION: the oldest outstanding write of the line has reached the expander, whose line now reads as its data and poison, and it is no longer outstanding; every other line of every expander reads as before. MIRROR_COPY_LINE of a pair that copies, its links serving and the line free: the target's next line becomes the source's newest data, PROG counts it, and at the end of the decoder the pair is in step. PATROL_SCRUB_LINE of a line without poison of a link in service: only the place of scrub advances. (R216, R272, R273, R277) -/
def Obligations.RootMemoryTraffic : Prop :=
  (∀ (n : Link) (la : Nat) (s : State), la ∈ (s.root n.val).rds → s.inService n.val = true → s.getF (RTL_CTL n.val) RTL_CTL_HOLD = 0 →
    s.partner n.val = none → la ∉ (s.root n.val).fix → (s.linkLine n.val la).2 = false →
    let g := s.setRoot n.val { (s.root n.val) with
      rds := (s.root n.val).rds.filter fun a => a != la, fix := (s.root n.val).fix.filter fun a => a != la }
    exec (.cxlReadResponse n la false) s = .next
      (match g.readerOf n.val la with
       | some l => g.homeData l (some ((s.linkLine n.val la).1, false))
       | none => g)) ∧
  (∀ (n : Link) (la : Nat) (a b : List RootWr) (w : RootWr) (s : State), (s.root n.val).wrs = a ++ w :: b → w.la = la → la % 256 = 0 →
    la < 2 ^ 41 → (∀ x ∈ a, x.la ≠ la) → s.inService n.val = true → s.home = [] →
    ∃ u : State, exec (.cxlWriteCompletion n la) s = .next u ∧ u.memLine n.val la = w.data ∧ u.memPois n.val la = w.poison ∧
      (u.root n.val).wrs = a ++ b ∧
      ∀ k, k < memKey n.val la ∨ memKey n.val la + 256 ≤ k → u.memByte k = s.memByte k) ∧
  (∀ (k : Fin 8) (s : State),
    let st := s.pairState k.val
    let src := if st = 4 then 2 * k.val else 2 * k.val + 1
    let dst := if st = 4 then 2 * k.val + 1 else 2 * k.val
    let prog := s.getF (HOM_MSTAT k.val) HOM_MSTAT_PROG
    st = 4 ∨ st = 5 → s.inService src = true → s.rtlState dst = 6 → s.lineBusy src (prog * 256) = false → prog * 256 < 2 ^ 41 →
    (s.root dst).wrs = [] →
    ∃ u : State, exec (.mirrorCopyLine k) s = .next u ∧ u.memLine dst (prog * 256) = (s.linkLine src (prog * 256)).1 ∧
      u.memPois dst (prog * 256) = (s.linkLine src (prog * 256)).2 ∧
      (∀ j, j < memKey dst (prog * 256) ∨ memKey dst (prog * 256) + 256 ≤ j → u.memByte j = s.memByte j) ∧
      (prog + 1 < s.linkLines src → u.pairState k.val = st ∧ u.getF (HOM_MSTAT k.val) HOM_MSTAT_PROG = (prog + 1) % 2 ^ HOM_MSTAT_PROG.width) ∧
      (s.linkLines src ≤ prog + 1 → u.pairState k.val = 1 ∧
        ((s.root dst).back = 2 ∨ (s.root dst).back = 3 → u.rtlState dst = (s.root dst).back))) ∧
  (∀ (n : Link) (s : State), let x := s.root n.val
    s.inService n.val = true → s.getF HOM_SCRUB HOM_SCRUB_PERIOD ≠ 0 → x.swept = false → s.lineBusy n.val (x.scrub * 256) = false →
    x.scrub + 1 < s.linkLines n.val → (s.linkLine n.val (x.scrub * 256)).2 = false →
    exec (.patrolScrubLine n false) s = .next (s.setRoot n.val { x with scrub := x.scrub + 1, swept := false }))

/-- On an active port half. A K = 0 request for a slice the port may not address: Unsupported Request, counted and recorded. Otherwise a write within one page is performed under its generation, dropped and counted where that is stale; a read answers its data, poison as poisoned data, and any other failure as Completer Abort, counted. A K = 1 write that names an engine and a task is queued as an MSI event for a busy task with room, and counted as dropped for a free one; every other K = 1 request is answered Unsupported Request and counted; INTx messages are counted. A training half that reaches a permitted speed and width is in STATE 3 and no longer marked failed; an active half that loses its link is marked failed and trains again. AER events count as corrected or uncorrected and are recorded in that class. (R263, R287, R288, R289, R290, R291, R301, R302, R363) -/
def Obligations.PortResults : Prop :=
  (∀ (g : Glade) (ph : PortHalf) (a : Word) (b : List Byte) (n : Nat) (s : State), s.halfUp g ph = true →
    let sl := bitsOf a.toNat 62 55
    let gen := bitsOf a.toNat 54 47
    let off := a.toNat % 2 ^ 47
    (bitOf a.toNat 63 = false → s.portRefuses g ph sl = true → ∃ v : State, v = { s.incF (halfPst g ph) GLD_PST_UR with outAns := some (1, []) } ∧
      exec (.inboundWrite g ph a b) s = .next (v.logC 0x0C g 0x0A [BitVec.ofNat 8 sl]) ∧
      exec (.inboundRead g ph a n) s = .next (v.logC 0x0C g 0x0A [BitVec.ofNat 8 sl])) ∧
    (bitOf a.toNat 63 = false → s.portRefuses g ph sl = false → b ≠ [] → off % 4096 + b.length ≤ 4096 →
      (∀ v, s.swrite g sl gen off b = .ok () v → exec (.inboundWrite g ph a b) s = .next v) ∧
      (∀ st v, s.swrite g sl gen off b = .fail st v → exec (.inboundWrite g ph a b) s = .next (if st = staleGen then v.genDrop g sl else v))) ∧
    (bitOf a.toNat 63 = false → s.portRefuses g ph sl = false →
      (∀ d v, s.sread g sl gen off n = .ok d v → exec (.inboundRead g ph a n) s = .next { v with outAns := some (0, d) }) ∧
      (∀ v, s.sread g sl gen off n = .fail 6 v → exec (.inboundRead g ph a n) s = .next { v with outAns := some (3, []) }) ∧
      (∀ st v, s.sread g sl gen off n = .fail st v → st ≠ 6 → st ≠ staleGen → ∃ u : State, exec (.inboundRead g ph a n) s = .next u ∧
        u.outAns = some (2, []) ∧ u.counted v (halfPst g ph) GLD_PST_UR)) ∧
    (bitOf a.toNat 63 = true → ∃ u : State, exec (.inboundK1Other g ph a) s = .next u ∧ u.outAns = some (1, []) ∧
      u.counted s (halfPst g ph) GLD_PST_UR) ∧
    (∃ u : State, exec (.intxMessage g ph) s = .next u ∧ u.counted s (halfPst g ph) GLD_PST_UR ∧ u.outAns = s.outAns)) ∧
  (∀ (g : Glade) (ph : PortHalf) (a : Word) (d : BitVec 32) (s : State), s.halfUp g ph = true → a.toNat / 2 ^ 16 = 2 ^ 47 → a.toNat % 32 = 0 →
    let e := 2 * g.val + (if a.getLsbD 15 then 1 else 0)
    let t := bitsOf a.toNat 14 5
    ((s.task e t).st = 0 ∨ s.maxTask e < t → ∃ u : State, exec (.msixMessage g ph a d) s = .next u ∧ u.counted s (TWG_STAT e) TWG_STAT_MSIDROP ∧
      u.engines = s.engines) ∧
    (t ≤ s.maxTask e → (s.task e t).st ≠ 0 → (s.task e t).st ≠ 2 → (s.task e t).evq.length < 16 →
      ∃ u : State, exec (.msixMessage g ph a d) s = .next u ∧ u.task e t = { (s.task e t) with
        evq := (s.task e t).evq ++ [⟨4, [4, 0, BitVec.ofNat 8 ph.val, 0] ++ leBytes 4 d.toNat⟩] } ∧
        ∀ k, k ≠ t → u.task e k = s.task e k)) ∧
  (∀ (g : Glade) (ph : PortHalf) (sp w : BitVec 4) (s : State), s.gladeUp g = true → s.getF (halfPst g ph) GLD_PST_STATE = 2 →
    1 ≤ sp.toNat → sp.toNat ≤ s.actF (GLD_PORT g (ph / 2)) GLD_PORT_MAXSPD → w.toNat ∈ [1, 2, 4, 8] →
    w.toNat ≤ (if s.actF (GLD_PORT g (ph / 2)) GLD_PORT_BIF = 1 then 4 else 8) →
    ∃ u : State, exec (.portHalfUp g ph sp w) s = .next u ∧ u.getF (halfPst g ph) GLD_PST_STATE = 3 ∧ u.getF (halfPst g ph) GLD_PST_SPEED = sp.toNat ∧
      u.getF (halfPst g ph) GLD_PST_WIDTH = w.toNat ∧ u.getF (halfPst g ph) GLD_PST_FAILED = 0 ∧ 0x10000 + 8 * g.val + ph.val ∉ u.failed ∧
      u.glades = s.glades) ∧
  (∀ (g : Glade) (ph : PortHalf) (s : State), s.halfUp g ph = true → ∃ u : State, exec (.portHalfDown g ph) s = .next u ∧
    u.getF (halfPst g ph) GLD_PST_STATE = 2 ∧ u.getF (halfPst g ph) GLD_PST_SPEED = 0 ∧ u.getF (halfPst g ph) GLD_PST_WIDTH = 0 ∧
    u.getF (halfPst g ph) GLD_PST_FAILED = 1 ∧ 0x10000 + 8 * g.val + ph.val ∈ u.failed) ∧
  (∀ (n : Fin 32) (c : Bool) (s : State),
    (n.val < 16 → s.domainUp 0x09 n.val = true → ∃ u v : State, exec (.aerEvent true n c) s = .next u ∧
      v.counted s (RTL_ERR n.val) (if c then RTL_ERR_CORR else RTL_ERR_UNCORR) ∧
      u = v.log { block := 0x09, inst := n.val, cls := if c then 1 else 2, typ := 0x0C }) ∧
    (s.gladeUp (n.val / 8) = true → ∃ u v : State, exec (.aerEvent false n c) s = .next u ∧
      v.counted s (halfPst (n.val / 8) (n.val % 8)) (if c then GLD_PST_CORR else GLD_PST_UNCORR) ∧
      u = v.log { block := 0x0C, inst := n.val / 8, cls := if c then 1 else 2, typ := 0x0C,
                  detail := [BitVec.ofNat 8 (n.val % 8 / 2), BitVec.ofNat 8 (n.val % 2)] }))

namespace Sys2Proof.Machine

/-- A running thread reaches a register of this module: its device grant covers the window, whose domain has a clock (R18, R25, R283). -/
def State.mayReg (s : State) (t : Thr) (blk inst off : Nat) : Bool :=
  s.running t.val && s.devOk (s.part t.val) (.reg blk inst off) && s.domainUp blk inst

/-- A thread of the slice's partition, for a control page at S or M level, reaches a register of a slice page (R293). -/
def State.mayPage (s : State) (t : Thr) (g sl off : Nat) (ctl : Bool) : Bool :=
  s.mayReg t 0x0C g off && s.part t.val == s.slicePart g sl && (!ctl || (s.thr t.val).pl != 0)

/-- The slice commands: who, slice, OP and ARG (R294). -/
def sliceOp : Instr → Option (Origin × Glade × SliceId × Nat × Nat)
  | .bind o g s a => some (o, g, s, 1, a.toNat)
  | .unbind o g s a => some (o, g, s, 2, a.toNat)
  | .openTract o g s a => some (o, g, s, 3, a.toNat)
  | .closeTract o g s a => some (o, g, s, 4, a.toNat)
  | .loadWin o g s a => some (o, g, s, 5, a.toNat)
  | .loadCq o g s a => some (o, g, s, 6, a.toNat)
  | .dlswap o g s a => some (o, g, s, 7, a.toNat)
  | .sliceCmdUnknownOp o g s op => if 1 ≤ op.toNat ∧ op.toNat ≤ 7 then none else some (o, g, s, op.toNat, 0)
  | _ => none

/-- The slice once a command of it has been accepted: BUSY, the command in progress. -/
def State.started (s : State) (g sl op arg : Nat) : State :=
  (s.setF (GLD_SLC_CSTAT g sl) GLD_SLC_CSTAT_BUSY 1).modSlice g sl fun x => { x with cmd := some (op, arg) }

/-- The hub of a Glade has nothing to do: no live operation, no record or command waiting, no tract closing, no adoption. -/
abbrev State.hubIdle (s : State) (g : Nat) : Prop :=
  (s.glade g).ops = [] ∧ (∀ e ∈ (s.glade g).slices, e.2.recs = [] ∧ e.2.cmd = none ∧ ∀ p ∈ e.2.tracts, p.2.all (fun t => !t.closing) = true) ∧
  ∀ sl < 256, s.getF (LDG_LSTAT g sl) LDG_LSTAT_STATE ≠ 6

/-- A slice command has ended with a RESULT. -/
def State.ended (s : State) (g sl res : Nat) : Prop :=
  s.getF (GLD_SLC_CSTAT g sl) GLD_SLC_CSTAT_BUSY = 0 ∧ s.getF (GLD_SLC_CSTAT g sl) GLD_SLC_CSTAT_RESULT = res ∧ (s.slice g sl).cmd = none

end Sys2Proof.Machine

/-- For a write of GLD_SLC_CMD by a thread that R293 admits. While BUSY the write changes only the log. A command whose requirement fails ends at once with that RESULT, an unlisted OP with 0x08. Otherwise, the hub being idle and the lines it needs being had: BIND advances GEN, takes PID and BOUND and ends with 0; UNBIND ends with the slice unbound, GEN advanced, and no tract, window or ring; OPEN_TRACT opens the tract its descriptor spells, empty; CLOSE_TRACT closes an idle tract; LOAD_WIN and LOAD_CQ load the window or the ring that the entry spells; DLSWAP changes ACT over. BIND and UNBIND wait, BUSY, while the next generation was left less than 2 × OPTMO ago. (R293, R294, R295, R296, R300, R304, R308, R310, R314) -/
def Obligations.SliceCommandResults : Prop :=
  ∀ (i : Instr) (t : Thr) (g : Glade) (sl : SliceId) (op arg : Nat) (s : State), sliceOp i = some (.core t, g, sl, op, arg) →
    s.mayPage t g sl (GLD_SLC_CMD g sl).off true = true →
    let x := s.slice g sl
    let w := s.started g sl op arg
    (s.getF (GLD_SLC_CSTAT g sl) GLD_SLC_CSTAT_BUSY = 1 → exec i s = .next (s.logC 0x0C g 0x0A (leBytes 4 (GLD_SLC_CMD g sl).off))) ∧
    (s.getF (GLD_SLC_CSTAT g sl) GLD_SLC_CSTAT_BUSY = 0 →
      (∀ r, s.cmdCheck g sl op arg = some r → ∃ u : State, exec i s = .next u ∧ u.ended g sl r ∧ (op = 0 ∨ 8 ≤ op → r = 8) ∧
        (u.slice g sl).tracts = x.tracts ∧ (u.slice g sl).wins = x.wins ∧ (u.slice g sl).rings = x.rings) ∧
      (s.cmdCheck g sl op arg = none → s.hubIdle g →
        ((op = 1 ∨ op = 2) → s.genWaits g sl = true → exec i s = .next w) ∧
        (∀ v, op = 1 → s.genWaits g sl = false → w.cmdRun g sl 1 arg = .ok () v → exec i s = .next v ∧ v.ended g sl 0 ∧ v.bound g sl = true ∧
          v.gen g sl = (s.gen g sl + 1) % 256 ∧ v.getF (GLD_SLC_CSTAT g sl) GLD_SLC_CSTAT_PID = arg ∧ s.gen g sl ∈ (v.slice g sl).left) ∧
        (∀ v, op = 2 → s.genWaits g sl = false → s.ledgerDown g sl = false → w.cmdRun g sl 2 arg = .ok () v → exec i s = .next v ∧ v.ended g sl 0 ∧
          v.bound g sl = false ∧ v.gen g sl = (s.gen g sl + 1) % 256 ∧ (v.slice g sl).tracts = [] ∧ (v.slice g sl).wins = [] ∧
          (v.slice g sl).rings = [] ∧ (v.slice g sl).recs = []) ∧
        (∀ b p v, op = 3 → w.physRead g sl (w.ctxpa g sl + 0x800 + 64 * arg) 64 = .ok b p → w.cmdRun g sl 3 arg = .ok () v → exec i s = .next v ∧
          ∀ y, p.tractEntry g sl b = (0, some y) → v.ended g sl 0 ∧ (v.slice g sl).tract arg = some y ∧ y.head = y.tail ∧ y.closing = false) ∧
        (∀ y v z, op = 4 → x.tract arg = some y → w.cmdRun g sl 4 arg = .ok () v →
          v.closeStep g sl arg { y with closing := true } = .ok () z → exec i s = .next z ∧ z.ended g sl 0 ∧ (z.slice g sl).tract arg = none) ∧
        (∀ b p v, op = 5 → w.physRead g sl (w.ctxpa g sl + 0x200 + 32 * arg) 32 = .ok b p → w.cmdRun g sl 5 arg = .ok () v → exec i s = .next v ∧
          v.ended g sl (winEntry b).1 ∧ ((winEntry b).1 = 0 → (v.slice g sl).win arg = (winEntry b).2)) ∧
        (∀ b p v, op = 6 → s.ledgerDown g sl = false → w.physRead g sl (w.ctxpa g sl + 0x400 + 32 * arg) 32 = .ok b p →
          w.cmdRun g sl 6 arg = .ok () v → exec i s = .next v ∧
          ∀ r, p.ringEntry g sl b = (0, some r) → v.ended g sl 0 ∧ (v.slice g sl).ring arg = some r ∧ r.head = 0 ∧ r.tail = 0 ∧ r.phase = true) ∧
        (op = 7 → ∃ u : State, exec i s = .next u ∧ u.ended g sl 0 ∧
          u.getF (GLD_SLC_DLCFG g sl) GLD_SLC_DLCFG_ACT = 1 - s.getF (GLD_SLC_DLCFG g sl) GLD_SLC_DLCFG_ACT)))

/-- GLD_DB of a bound slice of an active Glade sets the tail of an open tract; any other is dropped and counted. GLD_CQDB moves the head of a loaded ring forward up to its tail, the hub being idle; any other is dropped and counted. DLPA is discarded and logged while the dirty log runs, SPAN keeps its value then, and EN is not set with SPAN 0; otherwise both are written. A generation that was left long enough ago may be used again. COALESCE_TIMEOUT of a ring with records since its last interrupt sends its identifier and restarts the count. OPERATION_TIMEOUT of an operation already ended changes nothing; of another, with its Ledger stopped and the hub having nothing else due, it decides the end 0x08 by the hub. LEDGER_WRITE_RETRY that may be made returns a stopped Ledger to STATE 1. HALT is written; ADOPT of a bound slice without tracts, not halted, with a Ledger starts the replay and otherwise is logged (its later steps need lines). (R296, R309, R311, R313, R314, R318, R329, R339, R341) -/
def Obligations.SliceRegisterResults : Prop :=
  (∀ (t : Thr) (g : Glade) (sl : SliceId) (v : Word) (s : State), s.mayPage t g sl (GLD_DB g sl).off false = true →
    let i := v.toNat / 2 ^ 16 % 2 ^ 16
    let tail := v.toNat % 2 ^ 16
    (∀ y, s.bound g sl = true → i < s.tcount g sl → s.gldState g = 4 → (s.slice g sl).tract i = some y → y.closing = false → tail < 2 ^ y.log2 →
      exec (.doorbell (.core t) g sl v) s = .next (s.setTract g sl i (some { y with tail := tail }))) ∧
    (s.bound g sl = false ∨ s.tcount g sl ≤ i ∨ (s.slice g sl).tract i = none → ∃ u : State, exec (.doorbell (.core t) g sl v) s = .next u ∧
      u.counted s (GLD_SLC_CNT g sl) GLD_SLC_CNT_DBDROP ∧ u.glades = s.glades ∧ u.getF (GLD_SLC_EVT g sl) GLD_SLC_EVT_DBDROP = 1)) ∧
  (∀ (t : Thr) (g : Glade) (sl : SliceId) (v : Word) (s : State), s.mayPage t g sl (GLD_CQDB g sl).off false = true →
    let q := v.toNat / 2 ^ 16 % 16
    let h := v.toNat % 2 ^ 16
    (∀ r, (s.slice g sl).ring q = some r → q < s.actF (GLD_SLC_RES g sl) GLD_SLC_RES_NCQ → h < 2 ^ r.log2 →
      (h + 2 ^ r.log2 - r.head) % 2 ^ r.log2 ≤ (r.tail + 2 ^ r.log2 - r.head) % 2 ^ r.log2 → s.hubIdle g →
      ∃ u : State, exec (.cqDoorbell (.core t) g sl v) s = .next u ∧ (u.slice g sl).ring q = some { r with head := h } ∧ u.mem = s.mem) ∧
    ((s.slice g sl).ring q = none → ∃ u : State, exec (.cqDoorbell (.core t) g sl v) s = .next u ∧
      u.counted s (GLD_SLC_CNT g sl) GLD_SLC_CNT_CQDROP ∧ u.glades = s.glades)) ∧
  (∀ (t : Thr) (g : Glade) (sl : SliceId) (b : Fin 2) (v : Word) (s : State), s.mayPage t g sl (GLD_SLC_DLPA g sl b).off true = true →
    (s.getF (GLD_SLC_DLCFG g sl) GLD_SLC_DLCFG_EN = 1 → exec (.dirtyLogConfigWrite (.core t) g sl ⟨b.val + 1, by omega⟩ v) s =
      .next (s.logC 0x0C g 0x0A (leBytes 4 (GLD_SLC_DLPA g sl b).off))) ∧
    (s.getF (GLD_SLC_DLCFG g sl) GLD_SLC_DLCFG_EN = 0 → ∃ u : State, exec (.dirtyLogConfigWrite (.core t) g sl ⟨b.val + 1, by omega⟩ v) s = .next u ∧
      u.getF (GLD_SLC_DLPA g sl b) GLD_SLC_DLPA_PA = GLD_SLC_DLPA_PA.get v ∧ u.glades = s.glades)) ∧
  (∀ (t : Thr) (g : Glade) (sl : SliceId) (v : Word) (s : State), s.mayPage t g sl (GLD_SLC_DLCFG g sl).off true = true →
    let r := GLD_SLC_DLCFG g sl
    ∃ u : State, exec (.dirtyLogConfigWrite (.core t) g sl 0 v) s = .next u ∧ u.glades = s.glades ∧
      (s.getF r GLD_SLC_DLCFG_EN = 1 → u.getF r GLD_SLC_DLCFG_SPAN = s.getF r GLD_SLC_DLCFG_SPAN ∧
        u.getF r GLD_SLC_DLCFG_EN = GLD_SLC_DLCFG_EN.get v) ∧
      (s.getF r GLD_SLC_DLCFG_EN = 0 → GLD_SLC_DLCFG_EN.get v = 1 → GLD_SLC_DLCFG_SPAN.get v = 0 →
        u = s.logC 0x0C g 0x0A (leBytes 4 r.off)) ∧
      (s.getF r GLD_SLC_DLCFG_EN = 0 → GLD_SLC_DLCFG_EN.get v = 0 ∨ GLD_SLC_DLCFG_SPAN.get v ≠ 0 →
        u.getF r GLD_SLC_DLCFG_SPAN = GLD_SLC_DLCFG_SPAN.get v ∧ u.getF r GLD_SLC_DLCFG_EN = GLD_SLC_DLCFG_EN.get v)) ∧
  (∀ (g : Glade) (sl : SliceId) (s : State), (s.slice g sl).cmd = none → exec (.genWaitElapsed g sl) s =
    .next (s.modSlice g sl fun x => { x with left := x.left.dropLast })) ∧
  (∀ (g : Glade) (sl : SliceId) (q : Fin 16) (r : CRing) (s : State), (s.slice g sl).ring q.val = some r → r.ien = true → r.ctime ≠ 0 →
    r.since ≠ 0 → s.gladeUp g = true → s.part r.thread = s.slicePart g sl →
    exec (.coalesceTimeout g sl q) s = .next ((s.setRing g sl q (some { r with since := 0 })).sendId r.thread r.mlevel
      (0x1000 * g.val + 0x10 * sl.val + q.val))) ∧
  (∀ (g : Glade) (h : Fin 4096) (o : GOp) (s : State), s.op g h.val = some o →
    (o.hasEnded = true ∨ o.hub = true → exec (.operationTimeout g h) s = .next s) ∧
    (o.hasEnded = false → o.hub = false →
      let w := s.modOp g h.val fun o => { o with pend := some (8, 0, 0), hub := true }
      (w.gladeUp g = false ∨ (w.pumpPick g).isNone = true) → exec (.operationTimeout g h) s = .next w)) ∧
  (∀ (g : Glade) (sl : SliceId) (s : State), s.ledgerDown g sl = true → s.gladeUp g = true → s.hubIdle g →
    let pa := s.ledgerPa g sl (s.nextSeq g sl)
    isMem pa = true → s.memOk (s.slicePart g sl) pa true = true →
    exec (.ledgerWriteRetry g sl) s = .next (s.setF (LDG_LSTAT g sl) LDG_LSTAT_STATE 1)) ∧
  (∀ (g : Glade) (sl : SliceId) (hlt : Bool) (t : Thr) (s : State), s.mayReg t 0x0F g (LDG_CTL g sl).off = true →
    s.part t.val = s.slicePart g sl → (s.thr t.val).pl ≠ 0 → s.hubIdle g →
    (∃ u : State, exec (.ldgHaltWrite (.core t) g sl hlt) s = .next u ∧ u.halted g sl = hlt ∧ u.glades = s.glades ∧ u.mem = s.mem) ∧
    (s.bound g sl = true → (∃ e ∈ (s.slice g sl).tracts, e.2.isSome = true) → ∃ u v : State, exec (.adopt (.core t) g sl) s = .next u ∧
      u = v.logC 0x0F g 0x0A (leBytes 4 (LDG_CTL g sl).off) ∧ u.glades = s.glades) ∧
    (s.bound g sl = true → (∀ e ∈ (s.slice g sl).tracts, e.2 = none) → s.ledgerN g sl ≠ 0 →
      ∃ u v : State, exec (.adopt (.core t) g sl) s = .next u ∧ u = v.pump g ∧ v.getF (LDG_LSTAT g sl) LDG_LSTAT_STATE = 6 ∧ v.glades = s.glades))

namespace Sys2Proof.Machine

/-- A tract whose next operation the hub may fetch (R306, R308, R328, R329, R339). -/
abbrev State.mayFetch (s : State) (g sl i : Nat) (t : Tract) : Prop :=
  s.gladeUp g = true ∧ s.taskShare g sl ≠ 0 ∧ (s.slice g sl).tract i = some t ∧ t.closing = false ∧ t.head ≠ t.tail ∧ t.head < 2 ^ t.log2 ∧
  t.tail < 2 ^ t.log2 ∧ s.bound g sl = true ∧ s.halted g sl = false ∧ s.ledgerDown g sl = false ∧ s.getF (LDG_LSTAT g sl) LDG_LSTAT_STATE ≠ 6 ∧
  (∀ p ∈ (s.slice g sl).recs, p.2.tract ≠ s.tbase g sl + i) ∧ (s.glade g).ops.length < 4096

end Sys2Proof.Machine

/-- GCW_FETCH of a tract that may fetch, its chain read whole: where R328 leaves no room, STATE 4 and nothing more; otherwise FETCHED and CONT entries are written, and the operation is live with its GCWs, ATTEMPT 0, its submission index, and an end already decided exactly where the hub finds a failure. A tract with nothing between head and tail fetches nothing. TRACT_TASK_BIND of a tract with an operation that may be issued, to a free task in the range for work: the operation is issued, the task's d0 to d7 hold the OP event, and (shown for an operation whose ISSUED entry is written) it holds the tract, starts at the work vector and the tract names it. GLADE_RESTORE_DONE in STATE 3, every slice restored: the enabled port halves train and STATE is 4; in another STATE nothing changes. Each is said where the hub then has nothing else due. (R304, R306, R308, R319, R326, R328, R333, R359, R361) -/
def Obligations.LedgerResults : Prop :=
  (∀ (g : Glade) (tr : Fin 65536) (sl i : Nat) (t : Tract) (l : List (List Byte)) (s v : State), s.tractOwner g tr.val = some (sl, i) →
    s.mayFetch g sl i t → State.readChain (ringDist (2 ^ t.log2) t.head t.tail) s g sl t t.head = .ok (l, true) v →
    (v.ledgerFits g sl (min 8 l.length) = false →
      let w := v.setF (LDG_LSTAT g sl) LDG_LSTAT_STATE 4
      w.pumpPick g = none → exec (.gcwFetch g tr) s = .next w) ∧
    (∀ (st : Nat) (w z : State), v.ledgerFits g sl (min 8 l.length) = true → v.fetchStatus g sl i l = .ok st w →
      (if w.getF (LDG_LSTAT g sl) LDG_LSTAT_STATE = 4 then w.setF (LDG_LSTAT g sl) LDG_LSTAT_STATE 1 else w).fetchEntries g sl i t (l.take 8)
        l.length st = .ok () z → z.pumpPick g = none →
      exec (.gcwFetch g tr) s = .next z ∧ ∃ o ∈ (z.glade g).ops, o.slice = sl ∧ o.tract = i ∧ o.sqidx = t.head ∧ o.gcws = l.take 8 ∧
        o.stage = .fetched ∧ o.attempt = 0 ∧ o.reissued = false ∧ o.pend = (if st = 0 then none else some (st, 0, 0)))) ∧
  (∀ (g : Glade) (tr : Fin 65536) (sl i : Nat) (t : Tract) (s : State), s.tractOwner g tr.val = some (sl, i) →
    (s.slice g sl).tract i = some t → t.head = t.tail → s.pumpPick g = none → exec (.gcwFetch g tr) s = .next s) ∧
  (∀ (g : Glade) (tr : Fin 65536) (k : TaskId) (sl i : Nat) (t : Tract) (o : GOp) (s z : State), s.tractOwner g tr.val = some (sl, i) →
    s.gladeUp g = true → (s.slice g sl).tract i = some t → t.task = none → s.tasksRun g sl < s.taskShare g sl →
    let e := 2 * g.val + t.eng
    s.getF (TWG_CFG e) TWG_CFG_RUN = 1 → k.val ≠ 0 → s.getF (TWG_CFG e) TWG_CFG_WBASE ≤ k.val → k.val ≤ s.maxTask e → (s.task e k.val).st = 0 →
    s.firstOp g sl i = some o → s.mayIssue g o = true → s.bindTask g sl i t k.val = .ok () z → z.pumpPick g = none →
    exec (.tractTaskBind g tr k) s = .next z ∧
      (∀ d < 8, (z.task e k.val).bank.get8 d = byteAt (opEvent o.handle (s.tbase g sl + o.tract) o.gcws.length).bytes d) ∧
      (o.stage = .ready → (z.task e k.val).tract = some (sl, i) ∧ (z.task e k.val).bank.pc = (s.eng e).workv ∧
        (z.slice g sl).tract i = some { t with task := some k.val } ∧ z.mem = s.mem)) ∧
  (∀ (g : Glade) (s : State), s.gldState g ≠ 3 → exec (.gladeRestoreDone g) s = .next s) ∧
  (∀ (g : Glade) (s w : State), s.gladeUp g = true → s.gldState g = 3 →
    s.restoreAll g ((List.range 256).filter fun sl => s.sliceOn g sl) = .ok () w →
    let z := (w.releasePorts g (List.range 8)).setF (GLD_STAT g) GLD_STAT_STATE 4
    z.pumpPick g = none → exec (.gladeRestoreDone g) s = .next z ∧ z.gldState g = 4 ∧
      ∀ h < 8, w.halfEnabled g h = true → (h % 2 = 0 ∨ w.actF (GLD_PORT g (h / 2)) GLD_PORT_BIF ≠ 0) →
        z.getF (halfPst g h) GLD_PST_STATE = 2)

namespace Sys2Proof.Machine

/-- The processor executes its next instruction, whose words lie in a row that is fetched from and hold no error (R344, R355, R359). -/
abbrev State.twigReady (s : State) (p : TwigProc) (words : Nat) : Prop := s.pRuns p = true ∧ s.pFetch p words = .ok () s

/-- The state with the bank of a processor replaced, its pc at `npc`, its bank run last (R365). -/
def State.twigGoes (s : State) (p : TwigProc) (b : TwigBank) (npc : Nat) : State := ((s.setPBank p b).setPc p npc).pRan p

/-- The same without another change to the bank. -/
def State.twigJumps (s : State) (p : TwigProc) (npc : Nat) : State := (s.setPc p npc).pRan p

/-- An accumulator instruction: its processor, its accumulator, the accumulator's new value and its new carry (R352). A shift of k moves 8 bits, one through the carry 9. -/
def twigArith : Instr → Option (TwigProc × Bool × (Nat → Nat → Nat → Nat × Nat) × (TwigBank → Nat))
  | .twigAdd p n y => some (p, n, fun x y _ => ((x + y) % 256, (x + y) / 256), fun b => b.aluSrc y)
  | .twigAdc p n y => some (p, n, fun x y c => ((x + y + c) % 256, (x + y + c) / 256), fun b => b.aluSrc y)
  | .twigSub p n y => some (p, n, fun x y _ => ((x + 256 - y) % 256, if x < y then 1 else 0), fun b => b.aluSrc y)
  | .twigSbc p n y => some (p, n, fun x y c => ((x + 512 - y - c) % 256, if x < y + c then 1 else 0), fun b => b.aluSrc y)
  | .shl p n k => some (p, n, fun x k c => (x * 2 ^ k % 256, if k = 0 then c else x / 2 ^ (8 - k) % 2), fun _ => k.toNat)
  | .shr p n k => some (p, n, fun x k c => (x / 2 ^ k, if k = 0 then c else x / 2 ^ (k - 1) % 2), fun _ => k.toNat)
  | .asr p n k => some (p, n, fun x k c => (x / 2 ^ k + (if x < 128 then 0 else 256 - 2 ^ (8 - k)), if k = 0 then c else x / 2 ^ (k - 1) % 2), fun _ => k.toNat)
  | .rol p n k => some (p, n, fun x k c => (x * 2 ^ k % 256 + x / 2 ^ (8 - k), if k = 0 then c else x / 2 ^ (8 - k) % 2), fun _ => k.toNat)
  | .twigRor p n k => some (p, n, fun x k c => (x / 2 ^ k + x % 2 ^ k * 2 ^ (8 - k), if k = 0 then c else x / 2 ^ (k - 1) % 2), fun _ => k.toNat)
  | .rlc p n k => some (p, n, fun x k c => let v := 256 * c + x; let r := v * 2 ^ k % 512 + v / 2 ^ (9 - k); (r % 256, r / 256), fun _ => k.toNat)
  | .rrc p n k => some (p, n, fun x k c => let v := 256 * c + x; let r := v / 2 ^ k + v % 2 ^ k * 2 ^ (9 - k); (r % 256, r / 256), fun _ => k.toNat)
  | _ => none

/-- The instructions of the accumulators that leave the carry (R352). -/
def twigLogic : Instr → Option (TwigProc × Bool × AluSrc × (Nat → Nat → Nat))
  | .twigAnd p n y => some (p, n, y, fun a b => a &&& b)
  | .twigOr p n y => some (p, n, y, fun a b => a ||| b)
  | .twigXor p n y => some (p, n, y, fun a b => a ^^^ b)
  | _ => none

/-- A compare and branch: the relation taken (R353). -/
def twigBranch : Instr → Option (TwigProc × CmpOpd × BitVec 8 × (Nat → Nat → Bool))
  | .cbeq p x d => some (p, x, d, fun a b => a = b)
  | .cbne p x d => some (p, x, d, fun a b => a ≠ b)
  | .cblt p x d => some (p, x, d, fun a b => a < b)
  | .cbge p x d => some (p, x, d, fun a b => b ≤ a)
  | _ => none

end Sys2Proof.Machine

/-- For a processor of an engine or of the Forester that executes its next instruction, with no error in its words: ADD, ADC, SUB and SBC and the shifts write the accumulator and its carry, AND, OR and XOR the accumulator alone; a shift or rotation by k is that of the 8-bit or, through the carry, 9-bit value, and by 0 changes nothing. LDI, MOV, the address moves, ADDA and LDA write their register. A branch goes to pc + 4 + 2·disp, a signed displacement, where its unsigned comparison holds, and to pc + 4 where it does not. J, JL and JR go to an even target, JL leaving the address after it; an odd one is the alignment trap at the jump. Register codes 10 to 15 of LDI and MOV are reserved encodings that trap. Everything else of the state stays but the order in which banks were run. (R347, R350, R351, R352, R353, R354, R367, R384) -/
def Obligations.TwigRegisterResults : Prop :=
  (∀ (i : Instr) (p : TwigProc) (n : Bool) (f : Nat → Nat → Nat → Nat × Nat) (y : TwigBank → Nat) (s : State), twigArith i = some (p, n, f, y) →
    s.twigReady p 1 →
    let b := s.pBank p
    let r := f (b.get8 (accCode n)) (y b) (b2n (b.carry n))
    exec i s = .next (s.twigGoes p ((b.set8 (accCode n) r.1).setCarry n (r.2 == 1)) (b.pc + 2))) ∧
  (∀ (i : Instr) (p : TwigProc) (n : Bool) (y : AluSrc) (f : Nat → Nat → Nat) (s : State), twigLogic i = some (p, n, y, f) → s.twigReady p 1 →
    let b := s.pBank p
    exec i s = .next (s.twigGoes p (b.set8 (accCode n) (f (b.get8 (accCode n)) (b.aluSrc y))) (b.pc + 2))) ∧
  (∀ (p : TwigProc) (r q : BitVec 4) (v : BitVec 8) (s : State), s.twigReady p 1 →
    let b := s.pBank p
    (r.toNat < 10 → exec (.ldi p r v) s = .next (s.twigGoes p (b.set8 r.toNat v.toNat) (b.pc + 2))) ∧
    (r.toNat < 10 → q.toNat < 10 → exec (.twigMov p r q) s = .next (s.twigGoes p (b.set8 r.toNat (b.get8 q.toNat)) (b.pc + 2))) ∧
    (10 ≤ r.toNat → exec (.ldi p r v) s = .next (s.pTrap p 1 0 0 b.pc)) ∧
    (10 ≤ r.toNat ∨ 10 ≤ q.toNat → exec (.twigMov p r q) s = .next (s.pTrap p 1 0 0 b.pc))) ∧
  (∀ (p : TwigProc) (a c : ANum) (k : BitVec 2) (v : BitVec 10) (s : State), s.twigReady p 1 →
    let b := s.pBank p
    exec (.movAddrAddr p a c) s = .next (s.twigGoes p (b.set16 a (b.get16 c)) (b.pc + 2)) ∧
    exec (.movAddrDataPair p a k) s = .next (s.twigGoes p (b.set16 a (256 * b.get8 (2 * k.toNat + 1) + b.get8 (2 * k.toNat))) (b.pc + 2)) ∧
    exec (.movDataPairAddr p k a) s = .next (s.twigGoes p ((b.set8 (2 * k.toNat) (b.get16 a % 256)).set8 (2 * k.toNat + 1) (b.get16 a / 256)) (b.pc + 2)) ∧
    exec (.movAddrTsr p a) s = .next (s.twigGoes p (b.set16 a (s.tsr p)) (b.pc + 2)) ∧
    exec (.adda p a v) s = .next (s.twigGoes p (b.set16 a (BitVec.ofNat 16 (b.get16 a) + v.signExtend 16).toNat) (b.pc + 2)) ∧
    exec (.twigNop p) s = .next (s.twigJumps p (b.pc + 2)) ∧
    (b.get16 a % 2 = 0 → exec (.jr p a) s = .next (s.twigJumps p (b.get16 a))) ∧
    (b.get16 a % 2 = 1 → exec (.jr p a) s = .next (s.pTrap p 4 0 (b.get16 a) b.pc))) ∧
  (∀ (i : Instr) (p : TwigProc) (x : CmpOpd) (d : BitVec 8) (rel : Nat → Nat → Bool) (s : State), twigBranch i = some (p, x, d, rel) →
    s.twigReady p 2 →
    let b := s.pBank p
    (rel (b.cmpPair x).1 (b.cmpPair x).2 = true → exec i s = .next (s.twigJumps p (BitVec.ofNat 16 b.pc + 4 + 2 * d.signExtend 16).toNat)) ∧
    (rel (b.cmpPair x).1 (b.cmpPair x).2 = false → exec i s = .next (s.twigJumps p (b.pc + 4)))) ∧
  (∀ (p : TwigProc) (a : ANum) (v : BitVec 16) (s : State), s.twigReady p 2 →
    let b := s.pBank p
    exec (.lda p a v) s = .next (s.twigGoes p (b.set16 a v.toNat) (b.pc + 4)) ∧
    (v.toNat % 2 = 0 → exec (.twigJ p v) s = .next (s.twigJumps p v.toNat) ∧
      exec (.jl p a v) s = .next (s.twigGoes p (b.set16 a (b.pc + 4)) v.toNat)) ∧
    (v.toNat % 2 = 1 → exec (.twigJ p v) s = .next (s.pTrap p 4 0 v.toNat b.pc) ∧ exec (.jl p a v) s = .next (s.pTrap p 4 0 v.toNat b.pc)))

/-- For a processor that executes its next instruction: a load or store in its local RAM (below 0x8000) transfers its bytes, little-endian; an address of the reserved row traps. LDM loads each register of its mask, in bit order, from the next bytes and STM stores them so; with writeback the base moves past them. On an engine task 0 moves registers to and from the bank of task BWIN.WIN with MFB and MTB and resumes or frees a trapped one with RSM; another task traps. WAIT takes the oldest event its mask selects, waits where there is none, ends a task without a live operation (bit 5), and of task 0 takes the oldest trap (bit 7). A software trap saves the address after it, a reserved encoding its own. A trap of a task other than 0 leaves it trapped with its cause and its pc, queued for task 0. (R344, R355, R357, R359, R360, R366, R367, R368, R369) -/
def Obligations.TwigMemoryResults : Prop :=
  (∀ (p : TwigProc) (r : BitVec 4) (a c : ANum) (d : BitVec 6) (s : State), s.twigReady p 1 →
    let b := s.pBank p
    let x := (b.get16 c + d.toNat) % 65536
    (r.toNat < 10 → x < 0x8000 → s.badWord p x = false →
      exec (.twigLd p r c d) s = .next (s.twigGoes p (b.set8 r.toNat (s.locByte p x).toNat) (b.pc + 2)) ∧
      ∃ u : State, exec (.twigSt p r c d) s = .next u ∧ u.locByte p x = BitVec.ofNat 8 (b.get8 r.toNat) ∧
        (∀ y < 0x8000, y ≠ x → u.locByte p y = s.locByte p y) ∧ u.pBank p = { b with pc := (b.pc + 2) % 65536 } ∧ u.mem = s.mem) ∧
    (x < 0x7FFF → s.badWord p x = false → s.badWord p (x + 1) = false →
      exec (.twigLdAddr p a c d) s = .next (s.twigGoes p (b.set16 a ((s.locByte p x).toNat + 256 * (s.locByte p (x + 1)).toNat)) (b.pc + 2)) ∧
      ∃ u : State, exec (.twigStAddr p a c d) s = .next u ∧ u.locByte p x = BitVec.ofNat 8 (b.get16 a) ∧
        u.locByte p (x + 1) = BitVec.ofNat 8 (b.get16 a / 256) ∧
        (∀ y < 0x8000, y ≠ x → y ≠ x + 1 → u.locByte p y = s.locByte p y) ∧ u.pBank p = { b with pc := (b.pc + 2) % 65536 } ∧ u.mem = s.mem) ∧
    (r.toNat < 10 → 0xF010 ≤ x → x < 0xF800 → exec (.twigLd p r c d) s = .next (s.pTrap p 3 1 x b.pc) ∧
      exec (.twigSt p r c d) s = .next (s.pTrap p 3 2 x b.pc))) ∧
  (∀ (p : TwigProc) (w : Bool) (c : ANum) (m : BitVec 14) (s : State), s.twigReady p 2 → m ≠ 0 →
    let b := s.pBank p
    let x := b.get16 c
    let l := multiRegs m.toNat
    let n := multiBytes m.toNat
    let at_ := fun j => x + ((l.take j).map multiLen).sum
    (∀ k < n, s.badWord p (x + k) = false) → x + n ≤ 0x8000 →
    ((w = false ∨ bitOf m.toNat (10 + c.val) = false) → ∃ u : State, exec (.ldm p w c m) s = .next u ∧ (u.pBank p).pc = (b.pc + 4) % 65536 ∧
      (∀ j k, l[j]? = some (false, k) → (u.pBank p).get8 k = (s.locByte p (at_ j)).toNat) ∧
      (∀ j k, l[j]? = some (true, k) → (u.pBank p).get16 k = (s.locByte p (at_ j)).toNat + 256 * (s.locByte p (at_ j + 1)).toNat) ∧
      (∀ k < 10, (false, k) ∉ l → (u.pBank p).get8 k = b.get8 k) ∧
      (∀ k < 4, (true, k) ∉ l → (u.pBank p).get16 k = if w = true ∧ k = c.val then x + n else b.get16 k) ∧ u.mem = s.mem) ∧
    (∃ u : State, exec (.stm p w c m) s = .next u ∧ (u.pBank p).pc = (b.pc + 4) % 65536 ∧
      (∀ j k, l[j]? = some (false, k) → u.locByte p (at_ j) = BitVec.ofNat 8 (b.get8 k)) ∧
      (∀ j k, l[j]? = some (true, k) → u.locByte p (at_ j) = BitVec.ofNat 8 (b.get16 k) ∧ u.locByte p (at_ j + 1) = BitVec.ofNat 8 (b.get16 k / 256)) ∧
      (∀ y < 0x8000, y < x ∨ x + n ≤ y → u.locByte p y = s.locByte p y) ∧
      (∀ k < 4, (u.pBank p).get16 k = if w = true ∧ k = c.val then x + n else b.get16 k) ∧ u.mem = s.mem)) ∧
  (∀ (e : Engine) (t : TaskId) (x y : BitVec 4) (k : Bool) (code : BitVec 8) (w ext : BitVec 16) (s : State),
    let p := TwigProc.engine e t
    let b := s.pBank p
    (s.twigReady p 1 → exec (.trap p code) s = .next (s.pTrap p 8 code.toNat 0 ((b.pc + 2) % 65536))) ∧
    (s.twigReady p (if twigTwo w.toNat then 2 else 1) → twigLegal w.toNat ext.toNat (t.val == 0) = false →
      exec (.twigIllegal p w ext) s = .next (s.pTrap p 1 0 0 b.pc)) ∧
    (s.twigReady p 1 → moveOk x.toNat y.toNat = true → t.val ≠ 0 → exec (.mfb p x y) s = .next (s.pTrap p 2 0 0 b.pc) ∧
      exec (.mtb p x y) s = .next (s.pTrap p 2 0 0 b.pc) ∧ exec (.rsm p k) s = .next (s.pTrap p 2 0 0 b.pc)) ∧
    (∀ c info a pc : Nat, t.val ≠ 0 → ((s.task e 0).st ≠ 2 ∨ bitOf (s.task e 0).mask 7 = false ∧ (s.task e 0).evq = []) →
      let u := s.pTrap p c info a pc
      (u.task e t).st = 3 ∧ (u.task e t).cause = c ∧ (u.pBank p).pc = pc ∧ (u.eng e).traps = (s.eng e).traps ++ [⟨t.val, c, info, pc, a⟩]) ∧
    (s.twigReady p 1 → t.val = 0 →
      let o := TwigProc.engine e (Fin.ofNat 1024 (s.eng e).win)
      let z := s.task e (Fin.ofNat 1024 (s.eng e).win).val
      (s.eng e).win < 1024 → (s.eng e).win ≤ s.maxTask e → z.resident = true → z.stall = none →
      (x.toNat < 10 → y.toNat < 10 → exec (.mfb p x y) s = .next (s.twigGoes p (b.set8 x.toNat ((s.pBank o).get8 y.toNat)) (b.pc + 2)) ∧
        (z.st ≠ 0 → exec (.mtb p x y) s = .next ((s.setPBank o ((s.pBank o).set8 y.toNat (b.get8 x.toNat))).twigJumps p (b.pc + 2)))) ∧
      (12 ≤ x.toNat → 10 ≤ y.toNat → exec (.mfb p x y) s = .next (s.twigGoes p (b.set16 (x.toNat - 12) (s.reg16 o y.toNat)) (b.pc + 2))) ∧
      (z.st = 3 → exec (.rsm p false) s = .next ((s.makeReady e (s.eng e).win).twigJumps p (b.pc + 2))) ∧
      (z.st = 3 → (s.freeTask e (s.eng e).win).pumpPick (e.val / 2) = none →
        exec (.rsm p true) s = .next ((s.freeTask e (s.eng e).win).twigJumps p (b.pc + 2))) ∧
      (z.st ≠ 3 → exec (.rsm p k) s = .next (s.twigJumps p (b.pc + 2))))) ∧
  (∀ (e : Engine) (t : TaskId) (m : BitVec 8) (s : State), s.twigReady (.engine e t) 1 →
    let p := TwigProc.engine e t
    let b := s.pBank p
    (bitOf m.toNat 7 = false → bitOf m.toNat 5 = false → m ≠ 0 →
      (∀ v y, (s.task e t).takeEvent m.toNat = some (v, y) → exec (.twigWait p m) s =
        .next ((s.setTask e t { y with bank := y.bank.loadEvent v.bytes }).twigJumps p (b.pc + 2))) ∧
      ((s.task e t).takeEvent m.toNat = none → exec (.twigWait p m) s = .next (s.modTask e t fun x => { x with st := 2, mask := m.toNat }))) ∧
    (bitOf m.toNat 7 = true → t.val ≠ 0 → exec (.twigWait p m) s = .next (s.pTrap p 1 0 0 b.pc)) ∧
    (bitOf m.toNat 7 = false → bitOf m.toNat 5 = true → s.holdsLive e t = true → exec (.twigWait p m) s = .next (s.pTrap p 9 0 0 b.pc)) ∧
    (bitOf m.toNat 7 = false → bitOf m.toNat 5 = true → s.holdsLive e t = false → (s.freeTask e t).pumpPick (e.val / 2) = none →
      exec (.twigWait p m) s = .next (s.freeTask e t) ∧ ((s.freeTask e t).task e t).st = 0) ∧
    (∀ h q, bitOf m.toNat 7 = true → bitOf m.toNat 5 = false → t.val = 0 → (s.eng e).traps = h :: q → ∃ u : State,
      exec (.twigWait p m) s = .next u ∧ (u.pBank p).pc = (s.eng e).trapv ∧ (u.eng e).traps = q ∧ bitOf (u.reg (TWG_CAUSE e)).toNat 63 = true))

namespace Sys2Proof.Machine

/-- The state with a window register's value latched by a task's access to it (R346). -/
def State.latched (s : State) (e t a v : Nat) : State :=
  s.modPBank (.engine (Fin.ofNat 8 e) (Fin.ofNat 1024 t)) fun b => { b with latch := v, tag := some ((a - 0x8000) / 8) }

end Sys2Proof.Machine

/-- Of a task that runs: a post of a live operation under its own GEN decides its end with STATUS, DONE and DEVSTAT; one of no operation is discarded and logged. The timer is armed, and at its expiry TMR is queued once. XDATA reads and writes the register XADDR names, another BLOCK trapping with cause 6. A permitted PCIe request goes out and stalls the task; a refused one sends nothing, ST is 3 and a read is all ones; at its end PSTAT and the data are latched and the task goes on. A submission of a readable descriptor joins its mover's queue. Task 0 starts a free task at its pc, signals a task with MBX and writes TWG_CFG, another task traps. A transfer of length 0 ends with MOV status 0, an invalid one with 1. A fill makes the bank resident. The swap inverts ACT and clears SWAP. A mailbox store is written, byte 0xEFFF queueing class 7 work. A corrected error of the scrub is counted; an uncorrectable microword of the active store halts the engine, of the other clears VAL. (R359, R361, R362, R365, R368, R371, R372, R373, R374, R375, R376, R383) -/
def Obligations.TwigEngineResults : Prop :=
  (∀ (e : Engine) (t : TaskId) (v : Word) (s : State), s.pRuns (.engine e t) = true →
    let g := e.val / 2
    let x := s.task e t
    (∀ o, s.op g (v.toNat % 4096) = some o → o.hasEnded = false → o.pend = none → s.bound g o.slice = true → s.gen g o.slice = o.gen →
      (let st := bitsOf v.toNat 63 56; st = 0 ∨ st = 1 ∨ st = 0x0C ∨ 0x80 ≤ st) →
      exec (.twgTPost e t v) s = .next (((s.modOp g (v.toNat % 4096) fun o => if o.hasEnded || o.pend.isSome then o else
        { o with pend := some (if bitsOf v.toNat 63 56 = 0 then o.fail else bitsOf v.toNat 63 56, x.pdev / 2 ^ 32, x.pdev % 2 ^ 32), hub := false }).pump g).latched e t 0x8038 v.toNat)) ∧
    (s.op g (v.toNat % 4096) = none → exec (.twgTPost e t v) s = .next ((s.logC 0x0C g 0x0A (leBytes 4 (v.toNat % 4096))).latched e t 0x8038 v.toNat)) ∧
    exec (.twgTTimerWrite e t v) s = .next ((s.modTask e t fun x => { x with timer := v.toNat % 2 ^ 32 }).latched e t 0x8040 v.toNat) ∧
    (∀ b i o, xTarget e x.xaddr = some (b, i, o) → exec (.xdataRead e t) s =
        .next ((s.regRead (twigWho e t) b i o 8).2.latched e t 0x8050 (s.regRead (twigWho e t) b i o 8).1.toNat) ∧
      (b ≠ 0x0D → b ≠ 0x0E → exec (.xdataWrite e t v) s = .next ((s.regWrite (twigWho e t) b i o 8 v).latched e t 0x8050 v.toNat))) ∧
    (xTarget e x.xaddr = none → exec (.xdataRead e t) s = .next (s.pTrap (.engine e t) 6 1 0x8050 x.bank.pc) ∧
      exec (.xdataWrite e t v) s = .next (s.pTrap (.engine e t) 6 2 0x8050 x.bank.pc)) ∧
    (s.portPermits g x.paddr = true → ∃ u w : State, exec (.pdataRead e t) s = .next u ∧ exec (.pdataWrite e t v) s = .next w ∧
      (u.task e t).stall = some ⟨false, none, false⟩ ∧ (w.task e t).stall = some ⟨true, none, false⟩ ∧
      u.portTx = some (8 * g + bitsOf x.paddr 59 57, bitsOf x.paddr 63 62 * 2 ^ 48 + x.paddr % 2 ^ 48, []) ∧
      w.portTx = some (8 * g + bitsOf x.paddr 59 57, bitsOf x.paddr 63 62 * 2 ^ 48 + x.paddr % 2 ^ 48, leBytes (2 ^ bitsOf x.paddr 61 60) v.toNat)) ∧
    (s.portPermits g x.paddr = false → ∃ u w : State, exec (.pdataRead e t) s = .next u ∧ exec (.pdataWrite e t v) s = .next w ∧
      (u.task e t).pstat = 3 ∧ (u.task e t).bank.latch = 2 ^ 64 - 1 ∧ (w.task e t).pstat = 3 ∧ u.portTx = s.portTx ∧ w.portTx = s.portTx ∧
      (u.task e t).stall = none ∧ (w.task e t).stall = none) ∧
    (∀ m : Fin 8, let a := v.toNat % 65536
      bitsOf v.toNat 41 32 ≤ s.maxTask e → ((s.glade g).movs.filter fun y => y.mover == m.val).length < 16 → a % 8 = 0 → a + 32 ≤ 0x8000 →
      s.firstBad (.engine e t) a 32 = none → exec (.dmvSub e t m v) s = .next ((s.modGlade g fun y => { y with movs := y.movs ++
        [s.movDesc e (bitsOf v.toNat 41 32) m ((List.range 32).map fun i => s.locByte (.engine e t) (a + i))] }).latched e t (0x8800 + 0x100 * m.val) v.toNat)) ∧
    (t.val ≠ 0 → exec (.twgTstart e t v) s = .next (s.pTrap (.engine e t) 2 2 0x8218 x.bank.pc) ∧
      exec (.twgSignal e t v) s = .next (s.pTrap (.engine e t) 2 2 0x8220 x.bank.pc) ∧ exec (.twgCfgWrite e t v) s = .next (s.pTrap (.engine e t) 2 2 0x8200 x.bank.pc)) ∧
    (t.val = 0 → let k := bitsOf v.toNat 41 32
      (k ≤ s.maxTask e → (s.task e k).st = 0 → exec (.twgTstart e t v) s = .next ((s.startTask e k (TWG_TSTART_PC.get v) none).latched e t 0x8218 v.toNat)) ∧
      (k ≤ s.maxTask e → v.toNat < 2 ^ 63 → exec (.twgSignal e t v) s = .next ((s.queueEvent e k (mbxEvent 1 0)).latched e t 0x8220 v.toNat)) ∧
      ((∀ y ∈ (s.eng e).tasks, y.2.st = 0 ∨ y.1 ≤ max 1 (TWG_CFG_MAXTASK.get v)) → exec (.twgCfgWrite e t v) s =
        .next ((s.writeCodes (TWG_CFG e) v (BitVec.allOnes 64)).latched e t 0x8200 v.toNat)))) ∧
  (∀ (e : Engine) (t : TaskId) (s : State), let x := s.task e t
    s.gladeUp (e / 2) = true → x.timer ≠ 0 → x.st ≠ 0 → x.st ≠ 2 → (∀ w ∈ x.evq, w.kind ≠ 5) → x.evq.length < 16 → x.held = [] →
    exec (.tmrExpire e t) s = .next ((s.modTask e t fun x => { x with timer := 0 }).modTask e t fun x => { x with evq := x.evq ++ [tmrEvent] })) ∧
  (∀ (e : Engine) (t : TaskId) (st : BitVec 2) (v : Word) (w : TwigStall) (s : State), s.gladeUp (e / 2) = true → (s.task e t).stall = some w → st.toNat ≠ 3 →
    ∃ u : State, exec (.portRequestDone e t st v) s = .next u ∧ (u.task e t).stall = none ∧ (u.task e t).pstat = st.toNat ∧
      (w.wr = false → (u.task e t).pdata = if st = 0 then v.toNat % 2 ^ (8 * 2 ^ bitsOf (s.task e t).paddr 61 60) else 2 ^ 64 - 1) ∧
      (u.task e t).bank.latch = (u.task e t).pdata ∧ (w.insn = true → (u.task e t).bank.pc = ((s.task e t).bank.pc + 2) % 65536)) ∧
  (∀ (mv : Fin 32) (ok : Bool) (b : List Byte) (m : MovXfer) (r : List MovXfer) (s : State), let g := mv.val / 8
    s.gladeUp g = true → (s.glade g).movs = m :: r → m.mover = mv.val % 8 →
    (2 < m.skind → exec (.moverTransfer mv ok b) s = .next ((s.movEnd g m 1).pump g)) ∧
    (m.skind ≤ 2 → m.moved = m.len → exec (.moverTransfer mv ok b) s = .next ((s.movEnd g m 0).pump g))) ∧
  (∀ (e : Engine) (t : TaskId) (s : State), let x := s.task e t
    s.gladeUp (e / 2) = true → x.resident = false → x.st = 4 → (s.eng e).lru.length < 64 → x.bad = false → ∃ u : State,
      exec (.bankFill e t true) s = .next u ∧ (u.task e t).resident = true ∧ (u.task e t).st = 1 ∧ (u.task e t).bank = x.bank ∧ (u.eng e).lru.head? = some t.val) ∧
  (∀ (e : Engine) (s : State), s.gladeUp (e / 2) = true → s.getF (TWG_MCSTAT e) TWG_MCSTAT_SWAP = 1 → (∀ y ∈ (s.eng e).tasks, y.2.stall = none) →
    ∃ u : State, exec (.microcodeSwapDone e) s = .next u ∧ u.getF (TWG_MCSTAT e) TWG_MCSTAT_SWAP = 0 ∧
      u.getF (TWG_MCSTAT e) TWG_MCSTAT_ACT = 1 - s.getF (TWG_MCSTAT e) TWG_MCSTAT_ACT ∧ u.engines = s.engines ∧ u.glades = s.glades) ∧
  (∀ (e : Engine) (a : BitVec 16) (b : Byte) (s : State), s.gladeUp (e / 2) = true → 0xE000 ≤ a.toNat → a.toNat < 0xF000 → ∃ u : State,
    exec (.engineMailboxStore e a [b]) s = .next u ∧ u.locByte (.engine e 0) a.toNat = b ∧ (a.toNat ≠ 0xEFFF → u.fq = s.fq) ∧
      (a.toNat = 0xEFFF → exec (.engineMailboxStore e a [b]) s = .next ((s.modEng e fun x =>
        { x with mbox := Tab.set memDefault x.mbox 0xFFF b }).queueWork 7 ⟨2, BitVec.ofNat 64 e⟩))) ∧
  (∀ (e : Engine) (st : Bool) (i : BitVec 13) (s : State), s.gladeUp (e / 2) = true → let r := TWG_MCSTAT e
    exec (.twigScrub e .clean) s = .next s ∧ exec (.twigScrub e (.micro st i false)) s = .next (s.incF r TWG_MCSTAT_CE) ∧
    (s.getF r TWG_MCSTAT_ACT = b2n st → exec (.twigScrub e (.micro st i true)) s = .next (s.haltEngine e 0)) ∧
    (s.getF r TWG_MCSTAT_ACT ≠ b2n st → exec (.twigScrub e (.micro st i true)) s =
      .next ((s.setF r (if st then TWG_MCSTAT_VAL1 else TWG_MCSTAT_VAL0) 0).logC 0x0D e 0x02)))

namespace Sys2Proof.Machine

/-- The rows of the three kinds of column job (R394). -/
def columnRow : Instr → Option (Glade × SliceId × Fin 4 × LaneFault × Nat)
  | .compressJob g sl q f => some (g, sl, q, f, 1)
  | .decompressJob g sl q f => some (g, sl, q, f, 2)
  | .scanJob g sl q f => some (g, sl, q, f, 3)
  | _ => none

/-- The rows of the six modes of Bark (R413). -/
def barkRow : Instr → Option (Glade × SliceId × LaneFault × Nat)
  | .gcmJob g sl f => some (g, sl, f, 1)
  | .gmacJob g sl f => some (g, sl, f, 2)
  | .xtsJob g sl f => some (g, sl, f, 3)
  | .cbcJob g sl f => some (g, sl, f, 4)
  | .ctrJob g sl f => some (g, sl, f, 5)
  | .cmacJob g sl f => some (g, sl, f, 6)
  | _ => none

end Sys2Proof.Machine

/-- A submission whose operation is not live, or whose queue or page is not granted, ends at once with ABANDONED or QUEUE; a full queue stalls the write; otherwise the job joins the tail. A job row, for the oldest job of its queue with a free lane, its descriptor read and of its kind, keeps with the job the result that the checks and the computation give and changes no other job; a column job with a bad field ends with BAD_DESC and its offset, one of 0 rows with OK, and a token exists only with OUT_FULL. A Bark job that fails a check, or whose tag does not match, releases nothing: BAD_DESC, LIMIT, OVERLAP, KEY in that order. The end of a job that has run removes it, with its record written where it may be, then the ENG event; an abandoned job ends with ABANDONED. RNG_HEALTH_FAIL sets RNGF with a contained record. DEVICE_KEY_PAIR_READY puts a key pair in place: EPRDY is set, the first EPSER is 1. (R392, R393, R395, R396, R408, R409, R410, R411, R424, R427, R428, R435) -/
def Obligations.JobResults : Prop :=
  (∀ (e : Engine) (t : TaskId) (v : Word) (s : State), s.pRuns (.engine e t) = true →
    let g := e.val / 2
    let h := bitsOf v.toNat 63 52
    let q := bitsOf v.toNat 48 47
    (s.opLive g h = none → exec (.colSub e t v) s = .next ((s.colEvent e t 0x0A 0).latched e t 0xA000 v.toNat) ∧
      exec (.brkSub e t v) s = .next ((s.brkEvent e t none 0x0A 0).latched e t 0xB000 v.toNat)) ∧
    (∀ o, s.opLive g h = some o → let r := GLD_SLC_RES g o.slice
      (s.actF r GLD_SLC_RES_COLQ ≤ q → exec (.colSub e t v) s = .next ((s.colEvent e t 0x0C 0).latched e t 0xA000 v.toNat)) ∧
      (q < s.actF r GLD_SLC_RES_COLQ → 16 ≤ (s.colQueue g o.slice q).length → exec (.colSub e t v) s = .next s) ∧
      (q < s.actF r GLD_SLC_RES_COLQ → (s.colQueue g o.slice q).length < 16 → exec (.colSub e t v) s = .next ((s.modGlade g fun x =>
        { x with cols := x.cols ++ [⟨o.slice, q, h, o.gen, bitsOf v.toNat 46 6 * 64, e, t, false, none, []⟩] }).latched e t 0xA000 v.toNat)) ∧
      (s.actF r GLD_SLC_RES_BARK = 0 → exec (.brkSub e t v) s = .next ((s.brkEvent e t none 0x0B 0).latched e t 0xB000 v.toNat)) ∧
      (s.actF r GLD_SLC_RES_BARK ≠ 0 → 16 ≤ (s.brkQueue g o.slice).length → exec (.brkSub e t v) s = .next s) ∧
      (s.actF r GLD_SLC_RES_BARK ≠ 0 → (s.brkQueue g o.slice).length < 16 → exec (.brkSub e t v) s = .next ((s.modGlade g fun x =>
        { x with barks := x.barks ++ [⟨o.slice, h, o.gen, bitsOf v.toNat 46 7 * 128, e, t, false, none, [], []⟩] }).latched e t 0xB000 v.toNat)))) ∧
  (∀ (i : Instr) (g : Glade) (sl : SliceId) (q : Fin 4) (f : LaneFault) (ty : Nat) (j : ColJob) (l : List ColJob) (d : List Byte) (s v : State),
    columnRow i = some (g, sl, q, f, ty) → s.gladeUp g = true → s.colQueue g sl q = j :: l → j.res = none → j.abandoned = false →
    ((s.glade g).cols.filter fun x => x.res.isSome).length < 4 → s.colRead g j j.desc 256 = .ok d v → cdType d = ty →
    (∀ r w, v.colRun g j d f = .ok r w → exec i s = .next (w.colKeep g j d r) ∧ (r.status ≠ 1 → r.token = none)) ∧
    (∀ o m, cdBad d = o :: m → exec i s = .next (v.colKeep g j d (ColResult.zero.stop 2 o))) ∧
    (cdBad d = [] → anyOverlap (cdAreas j.desc d) = true → exec i s = .next (v.colKeep g j d (ColResult.zero.stop 7 0xFFFFFFFF))) ∧
    (cdBad d = [] → anyOverlap (cdAreas j.desc d) = false → cdNrows d = 0 → exec i s = .next (v.colKeep g j d ColResult.zero))) ∧
  (∀ (g : Glade) (sl : SliceId) (q : Fin 4) (j : ColJob) (l : List ColJob) (r : ColResult) (s v : State), s.gladeUp g = true →
    s.colQueue g sl q = j :: l → let gone := fun (s : State) (st tag : Nat) =>
      ((s.modGlade g fun x => { x with cols := x.cols.erase j }).colEvent j.eng j.task st tag).pump g
    (j.abandoned = true → exec (.columnJobEnd g sl q) s = .next (gone s 0x0A (if j.dbytes = [] then 0 else cdTag j.dbytes))) ∧
    (j.abandoned = false → j.res = none → exec (.columnJobEnd g sl q) s = .next s) ∧
    (j.abandoned = false → j.res = some r → j.dbytes ≠ [] → r.status ≠ 0x0A → (r.status ≠ 2 ∨ cdStatOk j.dbytes = true) → r.token = none →
      s.colWrite g j (cdStat j.dbytes) (colRecord j.dbytes r) = .ok () v → exec (.columnJobEnd g sl q) s = .next (gone v r.status (cdTag j.dbytes)))) ∧
  (∀ (i : Instr) (g : Glade) (sl : SliceId) (f : LaneFault) (m : Nat) (j : BarkJob) (l : List BarkJob) (d : List Byte) (s v : State),
    barkRow i = some (g, sl, f, m) → s.gladeUp g = true → s.brkQueue g sl = j :: l → j.res = none → j.abandoned = false →
    ((s.glade g).barks.filter fun x => x.res.isSome).length < 4 → s.brkRead g j j.desc 128 = .ok d v → bdMode d = m →
    (∀ r w, v.brkRun g j d f = .ok r w → exec i s = .next (w.brkKeep g j d r) ∧ (1 ≤ r.status → r.status ≤ 5 → r.out = [] ∧ r.tag = none)) ∧
    (∀ o n, bdBad d = o :: n → exec i s = .next (v.brkKeep g j d (brkStop 2 o))) ∧
    (∀ o n, bdBad d = [] → bdLimit d = o :: n → exec i s = .next (v.brkKeep g j d (brkStop 3 o))) ∧
    (bdBad d = [] → bdLimit d = [] → bdOverlap j.desc d = true → exec i s = .next (v.brkKeep g j d (brkStop 5))) ∧
    (∀ k, bdBad d = [] → bdLimit d = [] → bdOverlap j.desc d = false → v.brkKeys g j.slice d = .error k →
      exec i s = .next (v.brkKeep g j d (brkStop 4 k)))) ∧
  (∀ (g : Glade) (sl : SliceId) (j : BarkJob) (l : List BarkJob) (r : BarkResult) (s v : State), s.gladeUp g = true →
    s.brkQueue g sl = j :: l → let gone := fun (s : State) (st tag : Nat) =>
      ((s.modGlade g fun x => { x with barks := x.barks.erase j }).brkEvent j.eng j.task (some sl.val) st tag).pump g
    (j.abandoned = true → exec (.barkJobEnd g sl) s = .next (gone s 0x0A (if j.dbytes = [] then 0 else bdTag j.dbytes))) ∧
    (j.abandoned = false → j.res = none → exec (.barkJobEnd g sl) s = .next s) ∧
    (j.abandoned = false → j.res = some r → j.dbytes ≠ [] → r.status ≠ 0x0A → bdStatOk j.dbytes = true → r.out = [] → r.tag = none →
      s.swrite g j.slice j.gen (bdStat j.dbytes) (brkRecord j.dbytes r.status r.detail 0) = .ok () v →
      exec (.barkJobEnd g sl) s = .next (gone v r.status (bdTag j.dbytes)))) ∧
  (∀ s : State, s.forFw = true → s.getF KST_STAT KST_STAT_RNGF = 0 → exec .rngHealthFail s =
    .next ((s.setF KST_STAT KST_STAT_RNGF 1).log { block := 0x12, cls := 2, typ := 0x0E })) ∧
  (∀ (d : BitVec 384) (s : State), s.forFw = true → s.getF KST_STAT KST_STAT_EPRDY = 0 → d ≠ 0 → d.toNat < p384N → ecPublic d.toNat ≠ none →
    ∃ u : State, exec (.deviceKeyPairReady d) s = .next u ∧ u.getF KST_STAT KST_STAT_EPRDY = 1 ∧ u.kst.priv = d ∧ u.kst.slots = s.kst.slots ∧
      u.getF KST_STAT KST_STAT_EPSER = if s.getF KST_STAT KST_STAT_EPSER = 0 then 1 else s.getF KST_STAT KST_STAT_EPSER)

namespace Sys2Proof.Machine

/-- A failed check: the thread of an INSTRUCTION_RETRY or of a HANG_DETECT that applies (R439, R440). -/
def State.retryCheck (s : State) : Instr → Option (Thr × Nat)
  | .instructionRetry t c => if s.running t.val = true ∧ c ≠ 0 then some (t, c.val) else none
  | .hangDetect t => if s.running t.val = true ∧ (s.thr t.val).wait = .none ∧ (s.thr t.val).devLoad = [] then some (t, 5) else none
  | _ => none

/-- The request, not yet decided, that a write of CPC_APP names (R448). -/
def State.undecided (s : State) (id : BitVec 8) : Option Takeover := s.tkos.find? fun k => k.reqid == id.toNat && k.decided.isNone

/-- What the collector takes of a report (R459, R461). -/
def reportIn (r : Report) : RecIn where
  block := r.block.toNat
  inst := r.inst.toNat
  cls := r.cls.toNat
  typ := r.typ.toNat
  addr := r.addr.map (·.toNat)
  part := r.part.map (·.val)
  thread := r.thread.map (·.val)
  detail := r.detail

end Sys2Proof.Machine

/-- A check that fails with fewer than 3 retries counted rolls the thread back, its registers and pc kept, its reservation lost, one retry more, and counts for its core; at 3 both threads of the core stop, and with no request pending and no candidate the end of R442 follows, with a candidate a takeover of it starts. RETRY_WINDOW_END restarts every count. A decision through the output stage on an undecided request approves or declines it, APPWAIT_EXPIRE decides it by DEFAULT; any other write of CPC_APP, or a decision 0 or 3, is discarded and logged. A drained core holds no line. An entry check that passes ends step 3; one that fails gives the spare health 4 and ROLE 2 and takes the next candidate, or ends the takeover. A transfer whose images pass gives the spare ROLE 0 and the logical core and the replaced core ROLE 2, held in reset. A passed self-test gives a pooled spare health 2 with STALE clear, a failed one health 3. (R440, R441, R442, R444, R448, R449, R451, R452, R453, R454, R456, R457) -/
def Obligations.RetryAndPoolResults : Prop :=
  (∀ (i : Instr) (t : Thr) (k : Nat) (s : State), s.retryCheck i = some (t, k) → let c := s.pcore t.val
    ((s.thr t.val).retries < 3 → ∃ u : State, exec i s = .next u ∧ u.thr t.val = (s.thr t.val).rollBack ∧ (u.thr t.val).pc = (s.thr t.val).pc ∧
      (u.thr t.val).resv = none ∧ (u.thr t.val).retries = (s.thr t.val).retries + 1 ∧ (u.thr t.val).keeps (s.thr t.val) [] ∧
      (∀ v, v ≠ t.val → u.thr v = s.thr v) ∧ u.counted s (HWD_STAT c) HWD_STAT_RETRY ∧ u.mem = s.mem) ∧
    (3 ≤ (s.thr t.val).retries → let w := s.stopCore c .stoppedRetry
      (∀ x ∈ w.tkos, x.failing ≠ c) → (∀ v ∈ s.coreThreads c, v < 128) →
      (w.candidate c w.staleMap = none → exec i s = .next (w.giveUp 0x03 c 1)) ∧
      (∀ d, w.candidate c w.staleMap = some d → (∀ x ∈ w.tkos, x.reqid ≠ w.nextReq) → ∃ (u : State) (x : Takeover), exec i s = .next u ∧ x ∈ u.tkos ∧
        x.failing = c ∧ x.spare = d ∧ x.started = true ∧ x.prev = false ∧ x.decided = none ∧ u.nextReq = (s.nextReq + 1) % 256) ∧
      ∃ u : State, exec i s = .next u ∧ ∀ v ∈ s.coreThreads c, s.running v = true → (u.thr v).run = .stoppedRetry)) ∧
  (∀ s : State, ∃ u : State, exec .retryWindowEnd s = .next u ∧ (∀ c < 72, (u.core c).retryWin = 0) ∧ u.threads = s.threads ∧ u.regs = s.regs ∧ u.mem = s.mem) ∧
  (∀ (id : BitVec 8) (s : State), s.domainUp 0x03 0 = true →
    (∀ k, s.undecided id = some k → k.started = true →
      exec (.cpcApprove .config id) s = .next ((s.approvalDone k.reqid).modTko k.reqid fun k => { k with decided := some true }) ∧
      exec (.cpcDecline .config id) s = .next ((s.dropTko k.reqid).giveUp 0x03 k.failing 2)) ∧
    (∀ k, s.undecided id = some k → k.started = false →
      exec (.cpcApprove .config id) s = .next (((s.approvalDone k.reqid).modTko k.reqid fun k => { k with decided := some true }).tkoStart { k with decided := some true }) ∧
      exec (.cpcDecline .config id) s = .next ((s.dropTko k.reqid).incF CPC_STAT CPC_STAT_DECLINE)) ∧
    (s.undecided id = none → exec (.cpcApprove .config id) s = .next (s.cpcDiscard id.toNat 1) ∧ exec (.cpcDecline .config id) s = .next (s.cpcDiscard id.toNat 2)) ∧
    (∀ t : Thr, s.mayReg t 0x03 0 0x018 = true → exec (.cpcApprove (.core t) id) s = .next (s.cpcDiscard id.toNat 1) ∧
      exec (.cpcDecline (.core t) id) s = .next (s.cpcDiscard id.toNat 2)) ∧
    (∀ v : Word, CPC_APP_DECIDE.get v = 0 ∨ CPC_APP_DECIDE.get v = 3 →
      exec (.cpcAppInvalid .config v) s = .next (s.cpcDiscard (CPC_APP_REQID.get v) (CPC_APP_DECIDE.get v)))) ∧
  (∀ (id : BitVec 8) (s : State), (s.undecided id = none → exec (.appwaitExpire id) s = .next s) ∧
    ∀ k, s.undecided id = some k → let ok := s.actF CPC_CTL CPC_CTL_DEFAULT == 1
      exec (.appwaitExpire id) s = .next ((s.logC 0x03 0 0x0B [BitVec.ofNat 8 k.reqid, if ok then 1 else 2]).decideReq k ok)) ∧
  (∀ (c : Pcore) (lost : List Nat) (k : Takeover) (s : State), (s.tkos.find? fun k => k.started && k.failing == c.val && !k.drained) = some k →
    (∀ t ∈ s.coreThreads c.val, (s.thr t).sb = []) → ∃ u : State, exec (.takeoverDrainDone c lost) s = .next u ∧
      u.tkos = s.tkos.map (fun x => if x.reqid = k.reqid then { x with drained := true } else x) ∧ ∀ l, bitOf (u.line l).pres c.val = false) ∧
  (∀ (c : Pcore) (k : Takeover) (s : State), (s.tkos.find? fun k => k.started && k.spare == c.val && !k.checked) = some k →
    exec (.spareEntryCheckDone c true) s = .next (s.modTko k.reqid fun k => { k with checked := true }) ∧
    ∃ u : State, exec (.spareEntryCheckDone c false) s = .next u ∧ u.health c.val = 4 ∧ u.role c.val = 2 ∧
      (∀ d, (s.spareFails c.val 2).candidate k.failing k.stale = some d → u = (s.spareFails c.val 2).modTko k.reqid fun k =>
        { k with spare := d, checked := false, failed := k.failed + 1 }) ∧
      ((s.spareFails c.val 2).candidate k.failing k.stale = none → ∀ x ∈ u.tkos, x.reqid ≠ k.reqid)) ∧
  (∀ (c : Pcore) (us : BitVec 32) (k : Takeover) (s : State),
    (s.tkos.find? fun k => k.started && k.failing == c.val && k.drained && k.checked && k.decided == some true) = some k → c.val ≠ k.spare → k.spare < 72 →
    ∃ u : State, exec (.takeoverTransfer c true us) s = .next u ∧ u = ((s.exchange c.val k.spare).dropTko k.reqid).resumePair c.val k.spare us.toNat k ∧
      u.role c.val = 2 ∧ u.role k.spare = 0 ∧ u.lcore k.spare = s.lcore c.val ∧ (u.core c.val).held = true ∧ u.act (HWD_PART k.spare) = s.act (HWD_PART c.val) ∧
      u.counted s CPC_STAT CPC_STAT_TAKEOVER) ∧
  (∀ (c : Pcore) (s : State), s.pooled c.val = true → s.testPaused c.val = false → ∃ u w : State,
    exec (.spareSelfTestPass c true) s = .next u ∧ u.health c.val = 2 ∧ u.getF (CPC_HEALTH c) CPC_HEALTH_STALE = 0 ∧ u.counted s (CPC_HEALTH c) CPC_HEALTH_PASSES ∧
    exec (.spareSelfTestPass c false) s = .next w ∧ w.health c.val = 3 ∧ w.pooled c.val = false)

/-- A well-formed report is numbered by the collector, one past the last record, and handed to the Forester, which serves one record; an ill-formed one is no report. A trigger of R467 from its block logs its record and, unless Windthrow is under way, asserts WTHROW#, starts Windthrow and makes its warning pending in every running thread; under way, it is logged alone. A corrected error of a Heartwood image is counted and logged; an uncorrectable one, no takeover leaving the core, stops both threads for good. An uncorrectable error of an active value reloads it from the retained image. An uncorrectable keystore slot holds no key afterwards and its owner is named in the contained record. An uncorrectable Canopy set is purged. A correctable error of a TLB or walk-cache entry removes that entry, from the micro-TLBs as well, and logs a corrected record under block code 0x01; where no entry matches, nothing changes. (R182, R443, R459, R461, R464, R465, R466, R467, R468) -/
def Obligations.RecordsAndTriggers : Prop :=
  (∀ (r : Report) (s : State), (reportOk r = false → exec (.errorRecord r) s = .next s) ∧
    (reportOk r = true → let i := reportIn r
      exec (.errorRecord r) s = .next (s.log i).serveRecord ∧ (s.log i).rseq = (if s.rseq = 0xFFFFFFFF then 1 else s.rseq + 1) ∧
      (∀ p t, r.part = some p → r.cls = 2 → t < 128 → s.running t = true → s.part t = p.val → ((s.log i).thr t).mci = some (s.recOf i).summary))) ∧
  (∀ (n : Fin 9) (b : BitVec 8) (s : State),
    (n = 0 ∨ trigBlock n.val ≠ b.toNat → exec (.uncontainedTrigger n b) s = .next s) ∧
    (n ≠ 0 → trigBlock n.val = b.toNat → let r : RecIn := { block := trigBlock n.val, cls := 3, typ := 0x10, detail := [BitVec.ofNat 8 n.val] }
      (s.wind ≠ 0 → exec (.uncontainedTrigger n b) s = .next (s.log r)) ∧
      (s.wind = 0 → ∃ u : State, exec (.uncontainedTrigger n b) s = .next u ∧ u.wind = 1 ∧ u.windAge = 0 ∧ u.wthrow = true ∧
        (∀ t < 128, s.running t = true → (u.thr t).wtwPend = true) ∧ u.mem = s.mem))) ∧
  (∀ (t : Thr) (s : State), (s.thr t.val).run ≠ .held → let c := s.pcore t.val
    exec (.arrayScrub (.heartwood t false)) s = .next ((s.incF (HWD_STAT c) HWD_STAT_CE).logC 0x02 c 0x01 (leBytes 4 (t.val % 2))) ∧
    (s.leaving c = true → exec (.arrayScrub (.heartwood t true)) s = .next (s.logC 0x02 c 0x02)) ∧
    (s.leaving c = false → (∀ v ∈ s.coreThreads c, v < 128) → ∃ u : State, exec (.arrayScrub (.heartwood t true)) s = .next u ∧
      (∀ v ∈ s.coreThreads c, (u.thr v).run = .stoppedImage) ∧ ∀ k ∈ u.tkos, k.failing ≠ c)) ∧
  (∀ (b i o : Nat) (v : Word) (s : State), let r : Reg := ⟨b, i, o⟩
    r.rwsMask ≠ 0 → exec (.arrayScrub (.active b i o false)) s = .next (s.logC b i 0x01 (leBytes 4 o)) ∧
    (s.retainedOf r = some v → exec (.arrayScrub (.active b i o true)) s = .next ((s.setAct r (v &&& r.rwsMask)).logC b i 0x02 (leBytes 4 o)))) ∧
  (∀ (k : Fin 4096) (s : State), exec (.arrayScrub (.keystore k false)) s = .next (s.logC 0x12 0 0x01 (leBytes 4 k.val)) ∧
    ∃ u : State, exec (.arrayScrub (.keystore k true)) s = .next u ∧ u.keySlot k.val = none ∧ (∀ n, n ≠ k.val → u.keySlot n = s.keySlot n) ∧ u.kst.priv = s.kst.priv) ∧
  (∀ (x : BitVec 18) (w : Fin 16) (s : State), exec (.arrayScrub (.canopy x w true)) s = .next (s.startPurge x.toNat)) ∧
  (∀ (c : Pcore) (va : Word) (g : BitVec 16) (w : Fin 8) (s : State),
    (tlbFind (s.core c.val).tlb va.toNat g.toNat = none → exec (.arrayScrub (.tlb c va g w)) s = .next s) ∧
    (∀ e, tlbFind (s.core c.val).tlb va.toNat g.toNat = some e → ∃ u : State, exec (.arrayScrub (.tlb c va g w)) s = .next u ∧
      u = (s.modCore c.val fun x => x.tlbDrop fun f => f == e).logC 0x01 c.val 0x01 (leBytes 4 (e.set * 8 + w.val)) ∧ u.mem = s.mem ∧
      ∀ f, f ∈ (u.core c.val).tlb ↔ f ∈ (s.core c.val).tlb ∧ f ≠ e)) ∧
  (∀ (c : Pcore) (g : BitVec 16) (l : Fin 5) (ea va : Word) (w : Fin 8) (s : State),
    ((s.core c.val).walkHit g.toNat l.val ea.toNat va.toNat = none → exec (.arrayScrub (.walk c g l ea va w)) s = .next s) ∧
    (∀ e, (s.core c.val).walkHit g.toNat l.val ea.toNat va.toNat = some e → ∃ u : State, exec (.arrayScrub (.walk c g l ea va w)) s = .next u ∧
      ∀ f, f ∈ (u.core c.val).wc ↔ f ∈ (s.core c.val).wc ∧ f ≠ e))

namespace Sys2Proof.Machine

/-- What reports the active unit's failure, by cause (R473, R477). -/
def unitFailure : Instr → Option Nat
  | .foresterTakeover c => if c = 0 then none else some c.val
  | .watchdogExpire => some 4
  | _ => none

/-- The rows that serve a request of a mailbox, with the OPs they serve (R485). -/
def mailboxRow : Instr → Option (Part × (Nat → Bool))
  | .mboxResetDomain p => some (p, fun o => o = 1)
  | .mboxPing p => some (p, fun o => o = 2)
  | .mboxUnknownOp p => some (p, fun o => o ≠ 1 ∧ o ≠ 2)
  | _ => none

/-- A served mailbox holds a request whose 64 bytes are `b`, and its response ring has room; `v` is the state once they are read (R483). -/
abbrev State.asks (s : State) (p : Part) (b : List Byte) (v : State) : Prop :=
  s.forRuns = true ∧ s.mboxOn p = true ∧ (s.mbox p).up = true ∧ (s.mbox p).reqHead ≠ (s.mbox p).reqTail ∧
  (match s.mboxGet p 0x10 4 with
    | .ok h w => decide (((s.mbox p).rspTail + 1) % 256 ≠ fromLe h % 256) && decide (w.requestBytes p (s.mbox p).reqHead 8 = .ok b v)
    | _ => false) = true

end Sys2Proof.Machine

/-- Of a pair whose firmware runs. A failure of the active unit with a standby (STBY 0), LATCH below 0xFF and no load or clearing under way passes the claim to the other unit, one greater, STBY 2 and the cause shown; during a live reload it ends the reload; else the claim is lost and Windthrow starts. A kick by the holder restarts the watchdog, another's nothing. A tick enters idle bank 7 at 0x20. Work joins its class with room, else FULL is counted. A stage discards and logs a claim below the latch, drops a number already accepted, and does any other command of a held claim. The host log's head moves within the records held. A quiesced reload with a good container passes the claim and counts it; before that a failure ends it. A doorbell by M level of the partition queues its request, another is logged. MAGIC and indices written, a mailbox is served. A request with a bad CRC is answered 3, PING 0, an unknown OP 0x0D, a RESET_DOMAIN the partition may not do 2. A port access is performed, or refused with its record. (R471, R473, R474, R475, R476, R477, R479, R481, R482, R483, R484, R485) -/
def Obligations.ForesterResults : Prop :=
  (∀ (i : Instr) (c : Nat) (s : State), unitFailure i = some c →
    (s.forRuns = false → exec i s = .next s) ∧
    (s.forRuns = true → s.getF FOR_CLAIM FOR_CLAIM_STBY = 0 → s.getF FOR_CLAIM FOR_CLAIM_LATCH < 0xFF → s.ldr = none → s.clrs = [] → ∃ u : State,
      exec i s = .next u ∧ u.getF FOR_CLAIM FOR_CLAIM_ACTIVE = 1 - s.getF FOR_CLAIM FOR_CLAIM_ACTIVE ∧
      u.getF FOR_CLAIM FOR_CLAIM_LATCH = s.getF FOR_CLAIM FOR_CLAIM_LATCH + 1 ∧ u.getF FOR_CLAIM FOR_CLAIM_STBY = 2 ∧ u.getF FOR_CLAIM FOR_CLAIM_CAUSE = c ∧
      u.getF SVP_STAT SVP_STAT_CLAIM = 1 - s.getF FOR_CLAIM FOR_CLAIM_ACTIVE ∧ u.fst.kick = some s.uptime ∧ (u.pBank (.forester 0)).pc = 0x10 ∧ u.mem = s.mem) ∧
    (s.forRuns = true → s.getF FOR_CLAIM FOR_CLAIM_STBY = 3 → exec i s = .next ((s.setF FOR_CLAIM FOR_CLAIM_STBY 0).svcResult 0x0C 0)) ∧
    (s.forRuns = true → s.getF FOR_CLAIM FOR_CLAIM_STBY ≠ 3 → (s.getF FOR_CLAIM FOR_CLAIM_STBY ≠ 0 ∨ s.getF FOR_CLAIM FOR_CLAIM_LATCH = 0xFF) → ∃ u : State,
      exec i s = .next u ∧ u.fst.lost = true ∧ u.wind ≠ 0)) ∧
  (∀ (b : Bool) (s : State), (s.forRuns = true → s.getF FOR_CLAIM FOR_CLAIM_ACTIVE = b2n b → exec (.watchdogKick b) s =
      .next { s with fst := { s.fst with kick := some s.uptime } }) ∧ (s.getF FOR_CLAIM FOR_CLAIM_ACTIVE ≠ b2n b → exec (.watchdogKick b) s = .next s)) ∧
  (∀ s : State, s.forRuns = true → (bitOf s.fst.busy 7 = true → exec .foresterTick s = .next s) ∧
    (bitOf s.fst.busy 7 = false → ∃ u : State, exec .foresterTick s = .next u ∧ (u.pBank (.forester 7)).pc = 0x20 ∧ bitOf u.fst.busy 7 = true ∧ u.regs = s.regs)) ∧
  (∀ (c : Fin 8) (w : Work) (s : State), s.forRuns = true → (c.val = 4 ∨ (c.val = 1 ∨ c.val = 2 ∨ c.val = 5 ∨ c.val = 7) ∧ 8 ≤ w.kind.toNat) →
    ((s.queue c.val).length < 256 → ∃ u : State, exec (.foresterWorkArrival c w) s = .next u ∧ u.queue c.val = s.queue c.val ++ [⟨w, none⟩]) ∧
    (256 ≤ (s.queue c.val).length → ∃ u : State, exec (.foresterWorkArrival c w) s = .next u ∧ u.counted s (FOR_QSTAT (c.val - 1)) FOR_QSTAT_FULL ∧
      (u.queue c.val).length = (s.queue c.val).length ∧ (c.val ≠ 4 → u.fq = s.fq))) ∧
  (∀ (st : Stage) (k : BitVec 8) (n : BitVec 16) (c : StageCmd) (s : State), s.forRuns = true → let l := s.getF FOR_CLAIM FOR_CLAIM_LATCH
    (k.toNat < l → exec (.outputStageCommand st k n c) s = .next (s.logC 0x13 0 0x0D [k])) ∧
    (l ≤ k.toNat → (k.toNat = s.getF FOR_CLAIM FOR_CLAIM_CLAIMA ∨ k.toNat = s.getF FOR_CLAIM FOR_CLAIM_CLAIMB) →
      (s.seqTaken (stageNum st) n.toNat = true → exec (.outputStageCommand st k n c) s = .next s) ∧
      (s.seqTaken (stageNum st) n.toNat = false → ∀ v, s.stageDoes st c = some v → ∃ u : State, exec (.outputStageCommand st k n c) s = .next u ∧
        u.regs = v.regs ∧ u.svc = v.svc ∧ u.tkos = v.tkos ∧ u.ldr = v.ldr ∧ u.seqTaken (stageNum st) n.toNat = true))) ∧
  (∀ (v : Word) (s : State), let h := FOR_LOGSTAT_HEAD.get v
    let k := (h + 4096 - s.getF FOR_LOGSTAT FOR_LOGSTAT_HEAD) % 4096
    (s.flogCnt < k → exec (.logHeadWrite .config v) s = .next s) ∧
    (k ≤ s.flogCnt → s.flogWait = [] → ∃ u : State, exec (.logHeadWrite .config v) s = .next u ∧ u.getF FOR_LOGSTAT FOR_LOGSTAT_HEAD = h ∧ u.flogCnt = s.flogCnt - k ∧
      ∀ j < 4096, j ∉ s.logSlots.take k → u.logSlot j = s.logSlot j)) ∧
  (∀ s : State, (s.forRuns = false ∨ s.getF FOR_CLAIM FOR_CLAIM_STBY ≠ 3 → ∀ ok, exec (.handoverQuiesced ok) s = .next s) ∧
    (s.forRuns = true → s.getF FOR_CLAIM FOR_CLAIM_STBY = 3 →
      exec (.handoverQuiesced false) s = .next ((s.setF FOR_CLAIM FOR_CLAIM_STBY 0).svcResult 0x0C 0) ∧
      ∀ x c, s.svc = some x → s.container 1 x.len 0 = .ok c → s.getF FOR_CLAIM FOR_CLAIM_LATCH < 0xFF → ∃ u : State, exec (.handoverQuiesced true) s = .next u ∧
        u.getF FOR_CLAIM FOR_CLAIM_ACTIVE = 1 - s.getF FOR_CLAIM FOR_CLAIM_ACTIVE ∧ u.getF FOR_CLAIM FOR_CLAIM_LATCH = s.getF FOR_CLAIM FOR_CLAIM_LATCH + 1 ∧
        u.getF FOR_CLAIM FOR_CLAIM_STBY = 0 ∧ u.counted s FOR_CLAIM FOR_CLAIM_HANDOVERS ∧ u.fst.ram = memPut [] 0 c.payload)) ∧
  (∀ (t : Thr) (p : Part) (v : Word) (s : State), s.mayReg t 0x13 0 (0x300 + 8 * p.val) = true → let tail := FOR_MBDB_REQTAIL.get v
    ((s.thr t.val).pl = 3 → s.part t.val = p.val → s.mboxOn p = true → (s.mbox p).up = true → tail ≠ (s.mbox p).reqTail → (s.mbox p).reqTail < 256 →
      (s.queue 7).length < 256 → ∃ u : State, exec (.forMbdb (.core t) p v) s = .next u ∧ u.mbox p = { s.mbox p with reqTail := tail } ∧
        u.queue 7 = s.queue 7 ++ [⟨⟨4, BitVec.ofNat 64 p.val⟩, none⟩]) ∧
    ((s.thr t.val).pl ≠ 3 ∨ s.part t.val ≠ p.val ∨ s.mboxOn p = false ∨ (s.mbox p).up = false →
      exec (.forMbdb (.core t) p v) s = .next (s.logC 0x13 0 0x0A (leBytes 4 (0x300 + 8 * p.val))))) ∧
  (∀ (p : Part) (a b c d : State), a.forRuns = true → a.mboxOn p = true → (a.mbox p).up = false → a.mboxMemory p = true → a.mboxPut p 0x00 mboxMagic = .ok () b →
    b.mboxPut p 0x08 (leBytes 8 0) = .ok () c → c.mboxPut p 0x10 (leBytes 8 0) = .ok () d → ∀ e, d.mboxPut p 0x18 (leBytes 8 0) = .ok () e →
    exec (.mailboxInit p) a = .next (e.modMbox p fun _ => { Mbox.down with up := true })) ∧
  (∀ (i : Instr) (p : Part) (row : Nat → Bool) (b : List Byte) (s v z : State), mailboxRow i = some (p, row) → s.asks p b v →
    (s.mbox p).reqHead ∉ (s.mbox p).busy → let good := rdLe b 0x3C 4 = (crc32c (b.take 0x3C)).toNat
    (¬ good → v.mboxAnswer p b 0x03 0 = .ok () z → exec i s = .next z) ∧
    (good → row (byteAt b 0) = false → exec i s = .next v) ∧
    (good → i = .mboxPing p → byteAt b 0 = 2 → v.mboxAnswer p b 0 0 = .ok () z → exec i s = .next z) ∧
    (good → i = .mboxUnknownOp p → byteAt b 0 ≠ 1 → byteAt b 0 ≠ 2 → v.mboxAnswer p b 0x0D 0 = .ok () z → exec i s = .next z) ∧
    (good → i = .mboxResetDomain p → byteAt b 0 = 1 → (v.mbox p).reset = none → v.mayReset p (byteAt b 1) = false →
      v.mboxAnswer p b 0x02 0 = .ok () z → exec i s = .next z)) ∧
  (∀ (p : Part) (acc : PortAccess) (s v : State), s.forRuns = true → acc.mfw = false → let a := acc.addr.toNat
    (acc.wr = true → acc.data.length = acc.size → s.portWriteNow p a acc.data = .ok () v → exec (.foresterMemoryAccess p acc) s = .next v) ∧
    (∀ b, acc.wr = false → s.portReadNow p a acc.size = .ok b v → exec (.foresterMemoryAccess p acc) s = .next { v with readData := BitVec.ofNat 64 (fromLe b) }) ∧
    (acc.wr = true → acc.data.length = acc.size → s.portAdmits p a acc.size true false = false → exec (.foresterMemoryAccess p acc) s = .next (s.portRecord p a 0x0A)) ∧
    (acc.wr = false → s.portAdmits p a acc.size false false = false → exec (.foresterMemoryAccess p acc) s = .next (s.portRecord p a 0x0A)))

namespace Sys2Proof.Machine

/-- The rows that read Tj from a sensor beyond an emergency threshold (R509). -/
def junctionRow : Instr → Option (Nat × Nat × Nat)
  | .tjEmergency hot tj i => if hot then some (tj.toNat, i.val, 95) else none
  | .thermtrip tj i => some (tj.toNat, i.val, 105)
  | _ => none

/-- The state with a Stand's current cap changed (R509). -/
def State.withExcess (s : State) (st : Nat) (v : Option Nat) : State :=
  { s with pwr := { s.pwr with excess := Tab.set (fun _ => none) s.pwr.excess st v } }

end Sys2Proof.Machine

/-- PWROK low for 100 ns resets everything but the fuses; a shorter pulse changes nothing. An evaluation shows the sensors, Tj, package power; over the limit with no boost to withdraw the common cap falls by 100 MHz, not below 0.8 GHz, and throttling is on; well below it the cap rises by 100 MHz until it is lifted, which ends throttling. A done voltage write ends an AVSBus hold and sets a waiting raise that is still wanted; an error holds the Stand with a record. A poll that is answered shows voltage and current and clears STALE, the third silent one sets it. A rail beyond its tolerance sets its warning, beyond 8 % for 2 µs raises trigger 7, and beyond the absolute maximum no behaviour is stated: a fault. PROCHOT# caps every Stand at 1.6 GHz, a current above 140 A halves its Stand, Tj at 95 °C caps at 0.8 GHz, each until it ends; 105 °C asserts THERMTRIP# and starts Windthrow. A lost reference is counted; SYSREF starts Windthrow, FOSC switches to FOSC_ALT. A returned one is shown. (R493, R494, R496, R497, R498, R500, R508, R509, R511) -/
def Obligations.PackageResults : Prop :=
  (∀ s : State, exec (.pwrokDeassert false) s = .next s ∧ (s.pwrok = true → exec (.pwrokDeassert true) s =
    .next (({ State.reset with pending := s.pending, fresh := s.fresh, rootHash := s.rootHash } : State).setReg SVP_IDENT (s.reg SVP_IDENT)))) ∧
  (∀ (x : Telemetry) (s : State), s.pwrok = true → x.temps.length = 32 → let tj := (hottest x.temps).1
    let w := x.pkgW.toNat
    let l := (w :: s.pwr.power).take s.window
    let exceeds := decide (s.pl1 * 10 * l.length * 100 < l.foldl (· + ·) 0 * 100) || decide (6200 < w)
    let hot := tjAtLeast tj (s.actF THM_LIMIT THM_LIMIT_TTHROT)
    ∃ u : State, exec (.controllerEvaluation x) s = .next u ∧ u.getF PWR_STAT PWR_STAT_PKGW = w ∧ u.getF THM_STAT THM_STAT_TJ = tj ∧
      (∀ k < 32, u.getF (THM_SENS k) THM_SENS_TEMP = ((x.temps[k]?).getD 0).toNat) ∧ u.pwr.power = l ∧ u.mem = s.mem ∧
      (s.standClocks = true → exceeds = true ∨ hot = true → (s.pwr.boostOff = true ∨ ∀ st < 4, s.fullTarget st ≤ s.freqOf st) →
        u.pwr.cap = some (max 32 (s.pwr.cap.getD s.topFreq - 4)) ∧ u.pwr.throttling = some (if exceeds then 1 else 2) ∧ u.counted s PWR_STAT PWR_STAT_THROT ∨
        95 ≤ degC tj) ∧
      (s.standClocks = true → exceeds = false → hot = false →
        degC tj ≤ (s.actF THM_LIMIT THM_LIMIT_TTHROT : Int) - (s.actF THM_LIMIT THM_LIMIT_HYST : Int) →
        l.foldl (· + ·) 0 * 100 < s.pl1 * 10 * l.length * 95 → w * 100 < 6200 * 95 →
        (∀ c, s.pwr.cap = some c → s.topFreq ≤ c + 4 → u.pwr.cap = none ∧ u.pwr.throttling = none) ∧
        (∀ c, s.pwr.cap = some c → c + 4 < s.topFreq → u.pwr.cap = some (c + 4) ∧ u.pwr.throttling = s.pwr.throttling))) ∧
  (∀ (st : Stand) (s : State), s.standClocks = true → ∃ u : State, exec (.avsVoltageDone st) s = .next u ∧ u.avsHeld st.val = false ∧
    ∀ f, Tab.get (fun _ => none) s.pwr.raise st.val = some f → s.wanted st.val = f → u.eff st.val = f) ∧
  (∀ (st : Stand) (s : State), s.pwrok = true → ∃ u : State, exec (.avsError st) s = .next u ∧ u.avsHeld st.val = true ∧
    Tab.get (fun _ => none) u.pwr.raise st.val = none ∧ u.eff st.val = s.eff st.val ∧ u.rseq = nextRseq s.rseq) ∧
  (∀ (i : Fin 10) (mv dA t : BitVec 16) (s : State), s.pwrok = true → let r := PWR_RAIL i.val
    let n := Tab.get (fun _ => 0) s.pwr.miss i.val
    (∃ u : State, exec (.pmbusPoll i (.reading mv dA t)) s = .next u ∧ u.getF r PWR_RAIL_STALE = 0 ∧ u.getF r PWR_RAIL_VOUT = mv.toNat % 2 ^ PWR_RAIL_VOUT.width ∧
      u.getF r PWR_RAIL_IOUT = dA.toNat % 2 ^ PWR_RAIL_IOUT.width ∧ Tab.get (fun _ => 0) u.pwr.miss i.val = 0) ∧
    (∃ u : State, exec (.pmbusPoll i .silent) s = .next u ∧ Tab.get (fun _ => 0) u.pwr.miss i.val = min (n + 1) 3 ∧
      (2 ≤ n → u.getF r PWR_RAIL_STALE = 1) ∧ (n < 2 → u.regs = s.regs))) ∧
  (∀ (i : Fin 10) (w : BitVec 16) (s : State), exec (.pmbAlert i w) s = .next s) ∧
  (∀ (i : Fin 10) (mv : BitVec 16) (long : Bool) (s : State), s.pwrok = true → let v := mv.toNat
    let t := s.railTarget i.val
    let d := (v - t) + (t - v)
    (railMax i.val < v → exec (.railOutOfTolerance i mv long) s = .fault .beyondRatings) ∧
    (v ≤ railMax i.val → d * 100 ≤ railTol i.val * t → exec (.railOutOfTolerance i mv long) s = .next s) ∧
    (v ≤ railMax i.val → railTol i.val * t < d * 100 → ∃ u : State, exec (.railOutOfTolerance i mv long) s = .next u ∧
      bitOf (u.getF PWR_STAT PWR_STAT_RAILWARN) i.val = true ∧ (long = true → 8 * t < d * 100 → u.wind ≠ 0) ∧ (d * 100 ≤ 8 * t → u.wind = s.wind))) ∧
  (∀ s : State, s.pwrok = true → s.pwr.prochot = false → ∃ u : State, exec .prochotAssert s = .next u ∧ u.pwr.prochot = true ∧
    u.counted s PWR_STAT PWR_STAT_THROT ∧ (s.standClocks = true → ∀ st < 4, u.eff st ≤ 64)) ∧
  (∀ s : State, s.pwr.prochot = true → ∃ u : State, exec .prochotRelease s = .next u ∧ u.pwr.prochot = false ∧ u.mem = s.mem) ∧
  (∀ (st : Stand) (s : State), s.standClocks = true → let x := Tab.get (fun _ => none) s.pwr.excess st.val
    (x = none → ∃ u : State, exec (.standOvercurrent st true) s = .next u ∧ u.eff st.val ≤ s.eff st.val / 2 ∧ u.counted s PWR_STAT PWR_STAT_THROT ∧
      Tab.get (fun _ => none) u.pwr.excess st.val = some (s.eff st.val / 2)) ∧
    (x ≠ none → ∃ u : State, exec (.standOvercurrent st false) s = .next u ∧ Tab.get (fun _ => none) u.pwr.excess st.val = none)) ∧
  (∀ (i : Instr) (tj k min : Nat) (s : State), junctionRow i = some (tj, k, min) → s.pwrok = true → tjAtLeast tj min = true → ∃ u : State, exec i s = .next u ∧
    u.pwr.hot = true ∧ u.getF THM_STAT THM_STAT_TJ = tj ∧ u.getF THM_STAT THM_STAT_HOT = k ∧ (s.standClocks = true → ∀ st < 4, u.eff st ≤ 32) ∧
    (s.thermtrip = false → tjAtLeast tj 105 = true → u.thermtrip = true ∧ u.wind ≠ 0)) ∧
  (∀ (tj : BitVec 8) (k : Fin 32) (s : State), s.pwrok = true → tjAtLeast tj.toNat 95 = false → ∃ u : State,
    exec (.tjEmergency false tj k) s = .next u ∧ u.pwr.hot = false ∧ exec (.thermtrip tj k) s = .next s) ∧
  (∀ (i : Fin 6) (s : State), s.pwrok = true → let f := refField i.val
    (s.getF CLK_REF f = 0 → exec (.referenceLoss i) s = .next s ∧ ∃ u : State, exec (.referenceReturn i) s = .next u ∧ u.getF CLK_REF f = 1) ∧
    (s.getF CLK_REF f = 1 → exec (.referenceReturn i) s = .next s ∧ ∃ u : State, exec (.referenceLoss i) s = .next u ∧ u.getF CLK_REF f = 0 ∧
      u.counted s CLK_REF CLK_REF_LOSS ∧ (i = 0 → u.wind ≠ 0) ∧
      (i = 4 → s.getF CLK_REF CLK_REF_FALTOK = 1 → u.getF CLK_REF CLK_REF_ONALT = 1) ∧ (i = 4 → s.getF CLK_REF CLK_REF_FALTOK = 0 → u.wind ≠ 0)))

/-- BYPASS, IDCODE (which answers 0x1647256B) and SAMPLE are selected at every STEP. EXTEST, CLAMP and HIGHZ are selected at STEP 0, 1, 2 and 15; at another STEP BYPASS is, and a corrected record is logged. SAMPLE and the pin instructions begin boundary scan; Test-Logic-Reset selects IDCODE and ends it. SETDASA and ENTDAA give a dynamic address where there is none, RSTDAA takes it; ENEC and DISEC switch in-band interrupts by bit 0. With a dynamic address each GET answers its number of bytes; a private write sets the offset, a private read answers the map's bytes from there, zero past 0x5B, and without an address neither answers. Nothing else changes. (R457, R505, R506) -/
def Obligations.TestAndTelemetryResults : Prop :=
  (∀ (c : BitVec 8) (s : State), exec (.bypass c) s = .next { s with jtag := .bypass } ∧
    exec .idcode s = .next { s with jtag := .idcode, outAns := some (0, leBytes 4 0x1647256B) } ∧
    exec .testLogicReset s = .next { s with jtag := .idcode, scan := false } ∧
    (s.scan = true → exec .samplePreload s = .next { s with jtag := .sample }) ∧
    ∃ u : State, exec .samplePreload s = .next u ∧ u.jtag = .sample ∧ u.scan = true ∧ u.mem = s.mem ∧ u.threads = s.threads) ∧
  (∀ (i : Instr) (j : JtagIr) (s : State), (i = .extest ∧ j = .extest ∨ i = .clamp ∧ j = .clamp ∨ i = .highz ∧ j = .highz) → let st := s.startStep
    (st = 0 ∨ st = 1 ∨ st = 2 ∨ st = 15 → ∃ u : State, exec i s = .next u ∧ u.jtag = j ∧ u.scan = true ∧ u.rseq = s.rseq ∧ u.threads = s.threads) ∧
    (st ≠ 0 → st ≠ 1 → st ≠ 2 → st ≠ 15 → ∃ u : State, exec i s = .next u ∧ u.jtag = .bypass ∧ u.scan = true ∧ u.rseq = nextRseq s.rseq ∧ u.threads = s.threads)) ∧
  (∀ (a : BitVec 7) (e : BitVec 8) (s : State), s.pwrok = true → let x := s.i3c
    (x.addr = none → exec (.setdasa a) s = .next { s with i3c := { x with addr := some a.toNat } } ∧
      exec (.entdaa a) s = .next { s with i3c := { x with addr := some a.toNat } }) ∧
    (x.addr ≠ none → exec (.setdasa a) s = .next s ∧ exec (.entdaa a) s = .next s) ∧
    exec .rstdaa s = .next { s with i3c := { x with addr := none } } ∧
    (e.getLsbD 0 = true → exec (.enec e) s = .next { s with i3c := { x with ibi := true } } ∧ exec (.disec e) s = .next { s with i3c := { x with ibi := false } }) ∧
    (e.getLsbD 0 = false → exec (.enec e) s = .next s ∧ exec (.disec e) s = .next s)) ∧
  (∀ (i : Instr) (k n : Nat) (s : State), (i, k, n) ∈ [(Instr.getpid, 0, 6), (.getbcr, 1, 1), (.getdcr, 2, 1), (.getstatus, 3, 2), (.getmwl, 4, 2), (.getmrl, 5, 3)] →
    s.pwrok = true → (s.i3c.addr = none → exec i s = .next s) ∧ (s.i3c.addr ≠ none → ∃ u : State, exec i s = .next u ∧
      u = { s with outAns := some (0, (List.range n).map (Config.i3cByte k)) })) ∧
  (∀ (b : Byte) (l : List Byte) (n : Nat) (s : State), s.pwrok = true →
    (s.i3c.addr = none → exec (.i3cPrivateWrite (b :: l)) s = .next s ∧ exec (.i3cPrivateRead n) s = .next s) ∧
    (s.i3c.addr ≠ none → exec (.i3cPrivateWrite (b :: l)) s = .next { s with i3c := { s.i3c with off := b.toNat } } ∧
      ∃ u : State, exec (.i3cPrivateRead n) s = .next u ∧ u = { s with outAns := some (0, (List.range n).map fun i => s.i3cAt (s.i3c.off + i)) } ∧
        ∀ i, 0x5C ≤ i → s.i3cAt i = 0))

namespace Sys2Proof.Machine

/-- A thread as its release leaves it: running at M-base in M level, with the cause of its start (R68, R111, R119). -/
def Thread.starts (y : Thread) (mb : Word) (reason : Nat) : Prop :=
  y.run = .running ∧ y.pc = mb ∧ y.srg SR_MVB = mb + 0x200 ∧ y.srg SR_MCS = BitVec.ofNat 64 (0x20 * 2 ^ 32 + reason) ∧
  y.srg SR_PST = 0x4003 ∧ (∀ r, y.gr r = 0) ∧ (∀ r, y.fr r = 0) ∧ y.sb = []

/-- The Stand is out of reset and its cores' registers hold the retained image (R40, R66). -/
def State.standBack (s : State) (st : Nat) : State :=
  (standCores st).foldl (fun s c => ([0x01, 0x02, 0x04] : List Nat).foldl (fun s b => s.fromRetained b c) s)
    { s with standRst := setBit s.standRst st false }

end Sys2Proof.Machine

/-- PWROK_ASSERT from power-up: PWROK is high, SELF is the strap, every reference runs and every rail is at its target; with PWROK high nothing changes. ROM_SELF_TEST_DONE at STEP 0: STEP 1, or STEP 15 with FAIL 1 where neither Forester unit passes, else 2 where the fuses fail, else 3 where the PLL does; good fuses set SVP_IDENT and the root key's hash; one failing unit leaves the other alone. SVC_LINK_TRAINED after it: the link is up. CLOCKS_SEED_READY at STEP 3: no Stand is in reset, every enabled link and port trains and the other ports are disabled, STEP is 4; or the start fails with FAIL 4. TRAINING_ENDED at STEP 4, once nothing trains, sets STEP 5 and nothing else. Each changes nothing at another STEP. STAND_RESET_EXIT of a Stand in reset, with clocks: it is out of reset, every active core of a released partition runs, both its threads starting at M-base with cause 2, and no other thread changes. (R53, R63, R65, R66, R119, R265, R472, R493, R495, R502) -/
def Obligations.StartResults : Prop :=
  (∀ (m : Module) (s : State), (s.pwrok = true → exec (.pwrokAssert m) s = .next s) ∧
    (s.pwrok = false → ∃ u : State, exec (.pwrokAssert m) s = .next u ∧ u.pwrok = true ∧ u.uptime = 0 ∧
      u.getF GRV_GROUP GRV_GROUP_SELF = m.val ∧ (∀ i < 6, u.getF CLK_REF (refField i) = 1) ∧
      (∀ i < 10, u.getF (PWR_RAIL i) PWR_RAIL_VSET = (([850, 850, 850, 850, 850, 800, 900, 1200, 850, 1800] : List Nat)[i]?).getD 0) ∧
      u.threads = s.threads ∧ u.mem = s.mem ∧ u.standRst = s.standRst)) ∧
  (∀ (a b f p : Bool) (z : Fuses) (s : State),
    (s.pwrok = false ∨ s.startStep ≠ 0 → exec (.romSelfTestDone a b f p z) s = .next s) ∧
    (s.pwrok = true → s.startStep = 0 → ∃ u : State, exec (.romSelfTestDone a b f p z) s = .next u ∧
      (if a = false ∧ b = false then u.startStep = 15 ∧ u.getF SVP_STAT SVP_STAT_FAIL = 1
       else if f = false then u.startStep = 15 ∧ u.getF SVP_STAT SVP_STAT_FAIL = 2
       else if p = false then u.startStep = 15 ∧ u.getF SVP_STAT SVP_STAT_FAIL = 3
       else u.startStep = 1 ∧ u.getF SVP_STAT SVP_STAT_FAIL = s.getF SVP_STAT SVP_STAT_FAIL ∧
        (a ≠ b → u.getF FOR_CLAIM FOR_CLAIM_STBY = 1 ∧ u.getF FOR_CLAIM FOR_CLAIM_ACTIVE = (if a then 0 else 1))) ∧
      (f = true → u.reg SVP_IDENT = z.ident ∧ u.rootHash = z.rootHash) ∧
      (f = false → u.reg SVP_IDENT = s.reg SVP_IDENT ∧ u.rootHash = s.rootHash) ∧ u.threads = s.threads ∧ u.mem = s.mem)) ∧
  (∀ s : State, exec .svcLinkTrained s = .next (if s.pwrok = true ∧ s.startStep ≠ 0 then { s with svcUp := true } else s)) ∧
  (∀ s : State, (s.startStep ≠ 3 → ∀ ok, exec (.clocksSeedReady ok) s = .next s) ∧
    (s.startStep = 3 →
      (∃ u : State, exec (.clocksSeedReady false) s = .next u ∧ u.startStep = 15 ∧ u.getF SVP_STAT SVP_STAT_FAIL = 4 ∧ u.standRst = s.standRst) ∧
      (∃ u : State, exec (.clocksSeedReady true) s = .next u ∧ u.startStep = 4 ∧ u.standRst = 0 ∧
        (∀ n < 16, s.actF (RTL_CTL n) RTL_CTL_EN = 1 → u.rtlState n = 1) ∧
        (∀ n < 16, s.actF (RTL_CTL n) RTL_CTL_EN ≠ 1 → u.rtlState n = s.rtlState n) ∧
        (∀ p < 7, u.gpState p = if s.gpEn p then 1 else 5) ∧ u.threads = s.threads ∧ u.mem = s.mem))) ∧
  (∀ s : State,
    (s.startStep = 4 → (∀ n < 16, s.rtlState n ≠ 1) → (∀ p < 7, s.gpState p ≠ 1) →
      exec .trainingEnded s = .next (s.setF SVP_STAT SVP_STAT_STEP 5)) ∧
    ((s.startStep ≠ 4 ∨ (∃ n < 16, s.rtlState n = 1) ∨ (∃ p < 7, s.gpState p = 1)) → exec .trainingEnded s = .next s)) ∧
  (∀ (st : Stand) (s : State),
    (s.standClocks = false ∨ bitOf s.standRst st.val = false → ∀ bad, exec (.standResetExit st bad) s = .next s) ∧
    (s.standClocks = true → bitOf s.standRst st.val = true → let g := s.standBack st.val
      let go := (standCores st.val).filter fun c => g.coreActive c && bitOf s.released (g.corePart c)
      ∃ u : State, exec (.standResetExit st []) s = .next u ∧ bitOf u.standRst st.val = false ∧
        (∀ c ∈ go, (u.core c).held = false ∧ ∀ t ∈ g.coreThreads c, (u.thr t).starts (g.mbaseOf t) 2) ∧
        (∀ t, (∀ c ∈ go, t ∉ g.coreThreads c) → u.thr t = s.thr t) ∧ (∀ c, c ∉ go → u.core c = s.core c) ∧ u.mem = s.mem))

namespace Sys2Proof.Machine

/-- The operations of R58: code, TARGET, LEN, cores that fail, and whether the Glade starts. -/
def svcForm : Instr → Option (Nat × BitVec 8 × BitVec 32 × List Nat × Bool)
  | .loadForFw t l => some (1, t, l, [], true)
  | .loadTilet t l => some (2, t, l, [], true)
  | .loadUcode t l => some (3, t, l, [], true)
  | .loadGladeFw t l b => some (4, t, l, [], b)
  | .loadKeys t l => some (5, t, l, [], true)
  | .loadMfw t l => some (6, t, l, [], true)
  | .release t l b => some (7, t, l, b.map (·.val), true)
  | .regRead t l => some (8, t, l, [], true)
  | .regWrite t l => some (9, t, l, [], true)
  | .resetDomain t l => some (10, t, l, [], true)
  | _ => none

/-- The minimum STEP of an operation and its TARGET values (R58, R66). -/
def svcLimit (op : Nat) : Nat × (Nat → Bool) :=
  if op = 1 then (1, fun t => t = 0)
  else if op = 2 then (2, fun t => t = 0)
  else if op = 3 then (3, fun t => t ≤ 7)
  else if op = 4 then (3, fun t => t ≤ 3)
  else if op = 5 then (3, fun t => t = 0)
  else if op = 6 then (4, fun t => t ≤ 15)
  else if op = 7 then (5, fun t => t ≤ 15)
  else if op = 8 ∨ op = 9 then (2, fun t => t = 0)
  else (3, fun t => t ≤ 3 ∨ 0x10 ≤ t ∧ t ≤ 0x1F ∨ 0x20 ≤ t ∧ t ≤ 0x26 ∨ 0x30 ≤ t ∧ t ≤ 0x33)

/-- A command may be issued and enters the class 7 queue. -/
abbrev State.maySend (s : State) (op target : Nat) : Prop :=
  s.svcUp = true ∧ s.svc = none ∧ s.fst.lost = false ∧ s.startStep ≠ 15 ∧ (svcLimit op).1 ≤ s.startStep ∧ (svcLimit op).2 target = true ∧
  s.queueFull 7 = false

/-- SVP_CMD and SVP_STAT once a command is issued (R55, R56). -/
def State.busyWith (s : State) (len : Nat) : State := (s.setF SVP_CMD SVP_CMD_LEN len).setF SVP_STAT SVP_STAT_BUSY 1

/-- The state of an issued command before it is served: class 7 work, but for LOAD_FOR_FW at STEP 1 and accesses of FOR_ registers (R476, R479). -/
def State.sent (s : State) (op target len : Nat) (bad : List Nat) (starts : Bool) : State :=
  let g := s.busyWith len
  { (if s.startStep = 1 ∨ s.svcDirect op = true then g else g.queueWork 7 ⟨7, 0⟩) with
    svc := some ⟨op, target, len, false, none, 0, 0, bad, starts⟩ }

/-- The result of the command is known. -/
def State.answered (g : State) (code : Nat) (data : Nat := 0) : State :=
  { g with svc := g.svc.map fun c => { c with code := some code, data := data } }

/-- The command is under way. -/
def State.underWay (g : State) : State := { g with svc := g.svc.map fun c => { c with begun := true } }

/-- The code of the command's result, if it is known. -/
def State.svcKnown (s : State) : Option Nat := s.svc.bind (·.code)

end Sys2Proof.Machine

/-- With the link up and no command in progress, a command below its minimum STEP or at STEP 15 is known to end with 0x02, one whose TARGET is out of range with 0x08, an unknown OP with 0x0D (0x02 below STEP 2), one that finds the class 7 queue full with 0x01 and RETRY: BUSY and LEN are set and nothing else is done. While one is in progress a write of SVP_CMD sets OVR only. A write of the lower half sets LEN alone. With the link down a command changes nothing. SVP_COMMAND_DONE of a command with a known result writes CODE, OP, RETRY and DATA, clears BUSY and sets DONE; DONE rising sends one MSI-X message, or marks one due within 10 µs of the last. The timer sends what is due, or ends the interval. BAR2_WRITE in the staging area stores its bytes there; in the retained area, or while a command is in progress, LOCKDROP counts it and what lies there is not stored. SVC_LINK_RESET clears RADDR, RDATA, LEN, OVR and LOCKDROP; STEP, FAIL, BUSY, DONE, the result, the command in progress and the staging area stay. (R54, R55, R56, R57, R58, R59, R476, R478, R480) -/
def Obligations.ServicePortResults : Prop :=
  (∀ (i : Instr) (op : Nat) (t : BitVec 8) (l : BitVec 32) (bad : List Nat) (st : Bool) (s : State), svcForm i = some (op, t, l, bad, st) →
    s.svcUp = true → s.svc = none → let g := s.busyWith l.toNat
    let c : SvcCmd := ⟨op, t.toNat, l.toNat, false, none, 0, 0, bad, st⟩
    (s.startStep < (svcLimit op).1 ∨ s.startStep = 15 → exec i s = .next { g with svc := some { c with code := some 0x02 } }) ∧
    ((svcLimit op).1 ≤ s.startStep → s.startStep ≠ 15 → (svcLimit op).2 t.toNat = false →
      exec i s = .next { g with svc := some { c with code := some 0x08 } }) ∧
    ((svcLimit op).1 ≤ s.startStep → s.startStep ≠ 15 → (svcLimit op).2 t.toNat = true → s.startStep ≠ 1 → s.svcDirect op = false → s.queueFull 7 = true →
      exec i s = .next { (g.queueWork 7 ⟨7, 0⟩) with svc := some { c with code := some 0x01, retry := s.busyRetry } })) ∧
  (∀ (op t : BitVec 8) (l : BitVec 32) (s : State), op = 0 ∨ 0x0A < op.toNat → s.svcUp = true → s.svc = none →
    exec (.svpCmdUnknownOp op t l) s = .next { s.busyWith l.toNat with
      svc := some ⟨op.toNat, t.toNat, l.toNat, false, some (if s.startStep < 2 then 0x02 else 0x0D), 0, 0, [], true⟩ }) ∧
  (∀ (i : Instr) (op : Nat) (t : BitVec 8) (l : BitVec 32) (bad : List Nat) (st : Bool) (c : SvcCmd) (s : State),
    svcForm i = some (op, t, l, bad, st) →
    (s.svcUp = true → s.svc = some c → c.begun = true ∨ c.code ≠ none → exec i s = .next (s.setF SVP_STAT SVP_STAT_OVR 1)) ∧
    (s.svcUp = false → s.svc = none → exec i s = .next s)) ∧
  (∀ (l : BitVec 32) (s : State), s.svcUp = true →
    exec (.svpCmdSetLen l) s = .next (if s.svc = none then s.setF SVP_CMD SVP_CMD_LEN l.toNat else s.setF SVP_STAT SVP_STAT_OVR 1)) ∧
  (∀ (c : SvcCmd) (k : Nat) (s : State), s.svc = some c → c.code = some k → ∃ u : State, exec .svpCommandDone s = .next u ∧
    u.svc = none ∧ u.getF SVP_RESP SVP_RESP_CODE = k % 256 ∧ u.getF SVP_RESP SVP_RESP_OP = c.op % 2 ^ SVP_RESP_OP.width ∧
    u.getF SVP_RESP SVP_RESP_RETRY = c.retry % 2 ^ SVP_RESP_RETRY.width ∧ u.getF SVP_RESP SVP_RESP_DATA = c.data % 2 ^ SVP_RESP_DATA.width ∧
    u.getF SVP_STAT SVP_STAT_BUSY = 0 ∧ u.getF SVP_STAT SVP_STAT_DONE = 1 ∧ u.startStep = s.startStep ∧
    (s.getF SVP_STAT SVP_STAT_DONE = 0 → s.msixBusy = false → u.msixSent = s.msixSent + 1 ∧ u.msixBusy = true) ∧
    (s.getF SVP_STAT SVP_STAT_DONE = 0 → s.msixBusy = true → u.msixSent = s.msixSent ∧ u.msixDue = true) ∧
    (s.getF SVP_STAT SVP_STAT_DONE ≠ 0 → u.msixSent = s.msixSent ∧ u.msixDue = s.msixDue)) ∧
  (∀ s : State, s.svc = none → exec .svpCommandDone s = .next s) ∧
  (∀ s : State, exec .msixCoalesceTimer s = .next
    (if s.msixDue then { s with msixDue := false, msixSent := s.msixSent + 1 } else { s with msixBusy := false })) ∧
  (∀ (off : Nat) (b : List Byte) (s : State), s.svcUp = true → b ≠ [] → off + b.length ≤ 2 ^ 28 → ∃ u : State, exec (.bar2Write off b) s = .next u ∧
    (∀ k, Tab.get memDefault u.bar2 k =
      if s.svc = none ∧ off ≤ k ∧ k < off + b.length ∧ k < 2 ^ 27 then b.getD (k - off) 0 else Tab.get memDefault s.bar2 k) ∧
    (s.svc = none → off + b.length ≤ 2 ^ 27 → u.regs = s.regs) ∧
    (s.svc ≠ none ∨ 2 ^ 27 < off + b.length → u.counted s SVP_STAT SVP_STAT_LOCKDROP) ∧ u.svc = s.svc ∧ u.threads = s.threads) ∧
  (∀ s : State, ∃ u : State, exec .svcLinkReset s = .next u ∧ u.svcUp = false ∧ u.reg SVP_RADDR = 0 ∧ u.reg SVP_RDATA = 0 ∧
    u.getF SVP_CMD SVP_CMD_LEN = 0 ∧ u.getF SVP_STAT SVP_STAT_OVR = 0 ∧ u.getF SVP_STAT SVP_STAT_LOCKDROP = 0 ∧
    (∀ f ∈ [SVP_STAT_STEP, SVP_STAT_FAIL, SVP_STAT_BUSY, SVP_STAT_DONE, SVP_STAT_CLAIM], u.getF SVP_STAT f = s.getF SVP_STAT f) ∧
    u.reg SVP_RESP = s.reg SVP_RESP ∧ u.svc = s.svc ∧ u.bar2 = s.bar2 ∧ u.threads = s.threads)

/-- For commands issued with the link up, none in progress, their STEP and TARGET allowed and room in the queue. A container that fails its checks ends LOAD_FOR_FW, LOAD_UCODE, LOAD_GLADE_FW, LOAD_KEYS and LOAD_MFW with its code and nothing else. LOAD_FOR_FW at STEP 1 puts the payload into the RAM, starts bank 0 at 0, sets LATCH 2 and STEP 2; later, with a ready standby, the standby reloads, else 0x02. LOAD_TILET of a full image at STEP 2, a partial one beyond it, queues a load; with one in progress 0x0B and 0x0F, with class 5 full 0x01, otherwise 0x02. LOAD_UCODE fills store 0 of an engine in reset, else its other store with SWAP 1. LOAD_GLADE_FW takes a Glade with both stores loaded out of reset, STATE 3, task 0 of both engines ready; 0x0C where it does not start. LOAD_KEYS without EPRDY ends with 0x02. LOAD_MFW copies the payload and marks the partition loaded. RELEASE of a loaded partition starts every held active core of it at M-base, STEP 6. REG_READ and REG_WRITE access the register of RADDR. RESET_DOMAIN puts a Stand or Glade into reset, and a link in service or a port into training; a disabled one 0x02. (R46, R58, R59, R60, R63, R64, R66, R319, R381, R422, R472, R481) -/
def Obligations.ServiceCommandResults : Prop :=
  (∀ (t : BitVec 8) (l : BitVec 32) (s : State), s.maySend 1 t.toNat → let g := s.sent 1 t.toNat l.toNat [] true
    (s.startStep = 1 → (∀ e, g.container 1 l.toNat 0 = .error e → exec (.loadForFw t l) s = .next (g.answered e)) ∧
      (∀ c, g.container 1 l.toNat 0 = .ok c → ∃ u : State, exec (.loadForFw t l) s = .next u ∧ u.svcKnown = some 0 ∧ u.startStep = 2 ∧
        (∀ k, Tab.get memDefault u.fst.ram k = c.payload.getD k 0) ∧ u.getF FOR_CLAIM FOR_CLAIM_LATCH = 2 ∧
        (Tab.get bankDefault u.fst.banks 0).pc = 0 ∧ bitOf u.fst.busy 0 = true ∧ u.threads = s.threads)) ∧
    (s.startStep ≠ 1 →
      (s.getF FOR_CLAIM FOR_CLAIM_STBY ≠ 0 ∨ s.getF FOR_CLAIM FOR_CLAIM_LATCH = 0xFF → exec (.loadForFw t l) s = .next (g.answered 0x02)) ∧
      (s.getF FOR_CLAIM FOR_CLAIM_STBY = 0 → s.getF FOR_CLAIM FOR_CLAIM_LATCH ≠ 0xFF →
        (∀ e, g.container 1 l.toNat 0 = .error e → exec (.loadForFw t l) s = .next (g.answered e)) ∧
        (∀ c, g.container 1 l.toNat 0 = .ok c → exec (.loadForFw t l) s = .next ((g.setF FOR_CLAIM FOR_CLAIM_STBY 3).underWay))))) ∧
  (∀ (t : BitVec 8) (l : BitVec 32) (s : State), s.maySend 2 t.toNat → let g := s.sent 2 t.toNat l.toNat [] true
    let part := decide ((Tab.get memDefault s.bar2 0xC).toNat % 2 = 1)
    (part = decide (s.startStep = 2) → exec (.loadTilet t l) s = .next (g.answered 0x02)) ∧
    (part ≠ decide (s.startStep = 2) →
      (s.ldr ≠ none → exec (.loadTilet t l) s = .next (g.answered 0x0B 0x0F)) ∧
      (s.ldr = none → s.queueFull 5 = true → ∃ u : State, exec (.loadTilet t l) s = .next u ∧ u.svcKnown = some 0x01 ∧ u.ldr = none ∧ u.threads = s.threads) ∧
      (s.ldr = none → s.queueFull 5 = false → exec (.loadTilet t l) s =
        .next ({ g.queueWork 5 ⟨5, 0⟩ with ldr := some (LoadJob.start true (some l.toNat)) } : State).underWay))) ∧
  (∀ (t : BitVec 8) (l : BitVec 32) (s : State), s.maySend 3 t.toNat → let e := t.toNat
    let g := s.sent 3 e l.toNat [] true
    (∀ k, g.container 2 l.toNat 0 = .error k → exec (.loadUcode t l) s = .next (g.answered k)) ∧
    (∀ c, g.container 2 l.toNat 0 = .ok c →
      let word := fun i => (BitVec.ofNat 24 (fromLe ((c.payload.drop (4 * i)).take 3)) : BitVec 24)
      (bitOf s.gladeRst (e / 2) = true → ∃ u : State, exec (.loadUcode t l) s = .next u ∧ u.svcKnown = some 0 ∧
        (∀ i, 4 * i + 4 ≤ c.payload.length → Tab.get (fun _ => 0) (u.eng e).store0 i = word i) ∧
        u.getF (TWG_MCSTAT e) TWG_MCSTAT_VAL0 = 1 ∧ u.getF (TWG_MCSTAT e) TWG_MCSTAT_ACT = 0 ∧ (u.eng e).store1 = (s.eng e).store1 ∧
        (s.storeOk (e / 2 * 2 + (1 - e % 2)) = true → u.gldState (e / 2) = 2)) ∧
      (bitOf s.gladeRst (e / 2) = false → ∃ u : State, exec (.loadUcode t l) s = .next u ∧ u.svcKnown = none ∧
        u.getF (TWG_MCSTAT e) TWG_MCSTAT_SWAP = 1 ∧ u.getF (TWG_MCSTAT e) TWG_MCSTAT_ACT = s.getF (TWG_MCSTAT e) TWG_MCSTAT_ACT ∧
        (s.getF (TWG_MCSTAT e) TWG_MCSTAT_ACT = 0 → (u.eng e).store0 = (s.eng e).store0 ∧
          ∀ i, 4 * i + 4 ≤ c.payload.length → Tab.get (fun _ => 0) (u.eng e).store1 i = word i) ∧
        (s.getF (TWG_MCSTAT e) TWG_MCSTAT_ACT = 1 → (u.eng e).store1 = (s.eng e).store1 ∧
          ∀ i, 4 * i + 4 ≤ c.payload.length → Tab.get (fun _ => 0) (u.eng e).store0 i = word i)))) ∧
  (∀ (t : BitVec 8) (l : BitVec 32) (b : Bool) (s : State), s.maySend 4 t.toNat → let n := t.toNat
    let g := s.sent 4 n l.toNat [] b
    (s.gldState n ≠ 2 ∨ bitOf s.gladeRst n = false → exec (.loadGladeFw t l b) s = .next (g.answered 0x02)) ∧
    (s.gldState n = 2 → bitOf s.gladeRst n = true →
      (∀ k, g.container 3 l.toNat 0 = .error k → exec (.loadGladeFw t l b) s = .next (g.answered k)) ∧
      (∀ c, g.container 3 l.toNat 0 = .ok c → (b = false → exec (.loadGladeFw t l b) s = .next (g.answered 0x0C)) ∧
        (b = true → ∃ u : State, exec (.loadGladeFw t l b) s = .next u ∧ u.svcKnown = some 0 ∧ bitOf u.gladeRst n = false ∧ u.gldState n = 3 ∧
          ∀ e, e = 2 * n ∨ e = 2 * n + 1 → (u.task e 0).st = 1 ∧ (u.task e 0).bank.pc = 0 ∧ (∀ k, k ≠ 0 → (u.task e k).st = 0) ∧
            ∀ k < c.payload.length, Tab.get memDefault (u.eng e).local_ k = c.payload.getD k 0)))) ∧
  (∀ (t : BitVec 8) (l : BitVec 32) (s : State), s.maySend 5 t.toNat → let g := s.sent 5 t.toNat l.toNat [] true
    (s.getF KST_STAT KST_STAT_EPRDY = 0 → exec (.loadKeys t l) s = .next (g.answered 0x02)) ∧
    (s.getF KST_STAT KST_STAT_EPRDY ≠ 0 →
      (∀ k, g.container 5 l.toNat 0 = .error k → exec (.loadKeys t l) s = .next (g.answered k)) ∧
      (∀ c, g.container 5 l.toNat 0 = .ok c → exec (.loadKeys t l) s = .next ((g.loadKeys c.payload).2.answered (g.loadKeys c.payload).1)))) ∧
  (∀ (t : BitVec 8) (l : BitVec 32) (s : State), s.maySend 6 t.toNat → let p := t.toNat
    let g := s.sent 6 p l.toNat [] true
    let r := L3C_SEEDP 0 p
    let size := s.actF r L3C_SEEDP_LEN * 2 ^ 20
    let base := s.actF r L3C_SEEDP_PABASE * 2 ^ 20
    (s.actF (L3C_SEED 0) L3C_SEED_NWAYS = 0 ∨ s.getF (L3C_SEED 0) L3C_SEED_RELEASED = 1 ∨ size = 0 →
      exec (.loadMfw t l) s = .next (g.answered 0x02)) ∧
    (s.actF (L3C_SEED 0) L3C_SEED_NWAYS ≠ 0 → s.getF (L3C_SEED 0) L3C_SEED_RELEASED ≠ 1 → size ≠ 0 →
      (∀ k, g.container 4 l.toNat size = .error k → exec (.loadMfw t l) s = .next (g.answered k)) ∧
      (∀ c, g.container 4 l.toNat size = .ok c →
        (c.loadpa < base ∨ base + size < c.loadpa + c.payload.length → exec (.loadMfw t l) s = .next (g.answered 0x02)) ∧
        (base ≤ c.loadpa → c.loadpa + c.payload.length ≤ base + size →
          ∀ v, State.copyOut (c.payload.length / 4 + 1) g p c.loadpa c.payload = .ok () v →
            exec (.loadMfw t l) s = .next (({ v with mfw := setBit v.mfw p true } : State).svcResult 0 0))))) ∧
  (∀ (t : BitVec 8) (l : BitVec 32) (s : State), s.maySend 7 t.toNat → let p := t.toNat
    (bitOf s.mfw p = false → exec (.release t l []) s = .next ((s.sent 7 p l.toNat [] true).answered 0x02)) ∧
    (bitOf s.mfw p = true → ∃ u : State, exec (.release t l []) s = .next u ∧ u.svcKnown = some 0 ∧ u.startStep = 6 ∧ bitOf u.released p = true ∧
      (∀ c < 72, s.coreActive c = true → s.corePart c = p → (s.core c).held = true → bitOf s.standRst (c / 18) = false →
        (u.core c).held = false ∧ ∀ v ∈ s.coreThreads c, (u.thr v).starts (s.mbaseOf v) 0) ∧ u.mem = s.mem)) ∧
  (∀ (t : BitVec 8) (l : BitVec 32) (s : State), s.maySend 8 t.toNat → let g := s.sent 8 t.toNat l.toNat [] true
    let a := s.svpAddr
    let r := if a.1 ≠ 0x16 ∧ a.2.1 < blockCount a.1 then g.regRead ⟨.host, 3, none⟩ a.1 a.2.1 a.2.2 8 else (0, g)
    exec (.regRead t l) s = .next ((r.2.setReg SVP_RDATA r.1).svcResult 0 0)) ∧
  (∀ (t : BitVec 8) (l : BitVec 32) (s : State), s.maySend 9 t.toNat → let g := s.sent 9 t.toNat l.toNat [] true
    let a := s.svpAddr
    exec (.regWrite t l) s = .next ((if a.1 ≠ 0x16 ∧ a.2.1 < blockCount a.1 then
      g.regWrite ⟨.host, 3, none⟩ a.1 a.2.1 a.2.2 8 (s.reg SVP_RDATA) else g).svcResult 0 0)) ∧
  (∀ (t : BitVec 8) (l : BitVec 32) (s : State), s.maySend 10 t.toNat → let d := t.toNat
    let g := s.sent 10 d l.toNat [] true
    (0x10 ≤ d → d < 0x20 → s.actF (RTL_CTL (d - 0x10)) RTL_CTL_EN = 0 → exec (.resetDomain t l) s = .next (g.answered 0x02)) ∧
    (0x20 ≤ d → d < 0x30 → s.gpEn (d - 0x20) = false → exec (.resetDomain t l) s = .next (g.answered 0x02)) ∧
    (d < 4 → bitOf s.standRst d = false → (∀ c ∈ standCores d, s.inTakeover c = false) → ∃ u : State, exec (.resetDomain t l) s = .next u ∧
      u.svcKnown = none ∧ bitOf u.standRst d = true ∧ (∀ c ∈ standCores d, (u.core c).held = true ∧ (u.core c).l2 = []) ∧
      ∀ c ∈ standCores d, s.coreActive c = true → ∀ v ∈ s.coreThreads c, (u.thr v).run = .held ∧ ∀ r, (u.thr v).gr r = 0) ∧
    (0x10 ≤ d → d < 0x20 → s.actF (RTL_CTL (d - 0x10)) RTL_CTL_EN = 1 → s.inService (d - 0x10) = true →
      ∃ u : State, exec (.resetDomain t l) s = .next u ∧ u.svcKnown = none ∧ u.rtlState (d - 0x10) = 1 ∧ u.mem = s.mem) ∧
    (0x20 ≤ d → d < 0x30 → s.gpEn (d - 0x20) = true → s.clocksUp = true →
      ∃ u : State, exec (.resetDomain t l) s = .next u ∧ u.svcKnown = none ∧ u.gpState (d - 0x20) = 1 ∧ u.mem = s.mem) ∧
    (0x30 ≤ d → ∃ u : State, exec (.resetDomain t l) s = .next u ∧ u.svcKnown = none ∧ bitOf u.gladeRst (d - 0x30) = true ∧
      u.getF (GLD_STAT (d - 0x30)) GLD_STAT_RESETS = min (s.getF (GLD_STAT (d - 0x30)) GLD_STAT_RESETS + 1) 0xFFFF))

namespace Sys2Proof.Machine

/-- The loader has nothing of its own to go on with (its waiting work needs a command). -/
abbrev State.loaderIdle (s : State) : Prop := s.settleLoader = s

/-- A load or a block clearing has ended with a code (R46, R521). -/
def State.tltEnded (u : State) (code : Nat) : Prop := u.getF TLT_STAT TLT_STAT_REJ = code % 256 ∧ u.getF TLT_STAT TLT_STAT_DONE = 1

/-- The LOAD_TILET that a load serves has its result (R59). -/
def State.tiletTold (u s : State) (j : LoadJob) (code : Nat) : Prop :=
  ∀ c, s.svc = some c → j.svc = true → c.code = none → u.svc = some { c with code := some (if code = 0 then 0 else 0x0B), data := code }

end Sys2Proof.Machine

/-- TLT_CMD over the configuration bus: OP 1 starts a load where none is in progress, OP 2 a block clearing of an instance that holds an rw-s field, each with class 5 work; any other write of OP is discarded and logged. A verification that fails ends the load with its code and ERROFF, and the LOAD_TILET it serves with 0x0B. A full image at STEP 2 makes its values active, with STEP 3, SERIAL and code 0; a partial one goes on to its groups, or ends where it has none. READY of a core's block 0x01 in a block clearing: nothing while a takeover holds the core; else, with the preconditions met, its shadow values are active. READY of block 0x0A in a block clearing with a precondition broken: the clearing ends with 0x11 and the shadows hold the active values. READY of a group's member that has finished is noted. COMMITTED of a block clearing ends it with code 0; of the last group, the load, with its SERIAL. CLEARING_TIMEOUT ends a group that waits for a member outside a takeover, or a block clearing, with 0x10, the shadow values of its members reverted. (R38, R40, R41, R42, R43, R45, R46, R50, R51, R521) -/
def Obligations.LoaderResults : Prop :=
  (∀ s : State,
    (s.ldr = none → s.queueFull 5 = false → exec (.tltCmdLoad .config) s =
      .next ({ s.queueWork 5 ⟨5, 0⟩ with ldr := some (LoadJob.start false none) } : State).settleLoader) ∧
    (s.ldr ≠ none ∨ s.queueFull 5 = true → exec (.tltCmdLoad .config) s = .next (s.logC 0x14 0 0x0D [1]).settleLoader) ∧
    (∀ j : LoadJob, s.ldr = some j → j.groups = [] → s.clrs = [] → s.loaderIdle)) ∧
  (∀ (b i : BitVec 8) (s : State),
    (holdsRws b.toNat i.toNat = true → s.queueFull 5 = false → exec (.tltCmdClear .config b i) s =
      .next ({ s.queueWork 5 ⟨6, BitVec.ofNat 64 (b.toNat * 256 + i.toNat)⟩ with
        clrs := s.clrs ++ [⟨b.toNat, i.toNat, false, false⟩] } : State).settleLoader) ∧
    (holdsRws b.toNat i.toNat = false ∨ s.queueFull 5 = true → exec (.tltCmdClear .config b i) s =
      .next (s.logC 0x14 0 0x0D [2]).settleLoader)) ∧
  (∀ (o : BitVec 4) (s : State), o ≠ 1 → o ≠ 2 →
    exec (.tltCmdIgnoredOp .config o) s = .next (s.logC 0x14 0 0x0D [o.setWidth 8]).settleLoader) ∧
  (∀ s : State, (s.ldr = none → exec .imageVerifyDone s = .next s) ∧
    ∀ j : LoadJob, s.ldr = some j → j.verified = false →
      (∀ e, s.verifyImage j.len = .error e → ∃ u : State, exec .imageVerifyDone s = .next u ∧ u.ldr = none ∧ u.tltEnded e.1 ∧
        u.getF TLT_ERROFF TLT_ERROFF_OFFSET = e.2 % 2 ^ TLT_ERROFF_OFFSET.width ∧ u.tiletTold s j e.1 ∧ u.active = s.active ∧
        u.retained = s.retained) ∧
      (∀ m, s.verifyImage j.len = .ok m →
        (m.part = false → s.startStep = 2 → ∃ u : State, exec .imageVerifyDone s = .next u ∧ u.ldr = none ∧ u.startStep = 3 ∧ u.tltEnded 0 ∧
          u.reg TLT_SERIAL = BitVec.ofNat 64 m.serial ∧ u.tiletTold s j 0 ∧ u.rootKey = some m.root ∧
          ((m.ents.map fun e => e.reg.key).Nodup → ∀ e ∈ m.ents, e.group < 4096 → u.act e.reg = (e.val &&& e.reg.rwsMask))) ∧
        (m.part = true → m.ents = [] → ∃ u : State, exec .imageVerifyDone s = .next u ∧ u.ldr = none ∧ u.tltEnded 0 ∧
          u.reg TLT_SERIAL = BitVec.ofNat 64 m.serial ∧ u.active = s.active) ∧
        (m.part = true → (∃ e ∈ m.ents, e.group < 4096) → exec .imageVerifyDone s = .next ({ s with ldr := some { j with
          verified := true, serial := m.serial, root := m.root, owner := m.owner, ents := m.ents, groups := groupsOf m.ents } } : State).settleLoader))) ∧
  (∀ (c : ClrJob) (s : State), s.loaderIdle → s.ldr = none → s.clrs = [c] → c.started = true → c.commit = false → c.block = 0x01 → c.inst < 72 →
    (s.inTakeover c.inst = true → exec (.ready 0x01 c.inst) s = .next s) ∧
    (s.inTakeover c.inst = false → s.parkedInst 0x01 c.inst = false →
      (s.unmet [(0x01, c.inst)] = none → ∃ u : State, exec (.ready 0x01 c.inst) s = .next u ∧ u.clrs = [{ c with commit := true }] ∧
        (∀ r ∈ s.differing 0x01 c.inst, u.act r = (s.reg r &&& r.rwsMask)) ∧ u.regs = s.regs ∧ u.threads = s.threads))) ∧
  (∀ (c : ClrJob) (r : Reg) (s : State), s.loaderIdle → s.ldr = none → s.clrs = [c] → c.started = true → c.commit = false → c.block = 0x0A →
    c.inst = 0 → s.parkedInst 0x0A 0 = false → s.unmet [(0x0A, 0)] = some r → ∃ u : State, exec (.ready 0x0A 0) s = .next u ∧ u.clrs = [] ∧
      u.tltEnded 0x11 ∧ (∀ r ∈ s.differing 0x0A 0, u.reg r &&& r.rwsMask = s.act r &&& r.rwsMask) ∧ u.active = s.active) ∧
  (∀ (b i : Nat) (j : LoadJob) (s : State), s.loaderIdle → s.ldr = some j → j.going = true → j.commit = false → (b, i) ∈ j.live →
    (b, i) ∉ j.ready → exec (.ready b i) s = .next (if s.memberReady j.live b i then
      ({ s with ldr := some { j with ready := j.ready ++ [(b, i)] } } : State).settleGroup else s)) ∧
  (∀ (c : ClrJob) (s : State), s.loaderIdle → s.ldr = none → s.clrs = [c] → c.commit = true →
    ∃ u : State, exec .committed s = .next u ∧ u.clrs = [] ∧ u.tltEnded 0 ∧ u.active = s.active) ∧
  (∀ (j : LoadJob) (g : Nat) (s : State), s.loaderIdle → s.ldr = some j → j.commit = true → j.groups = [g] → s.clrs = [] →
    ∃ u : State, exec .committed s = .next u ∧ u.ldr = none ∧ u.tltEnded 0 ∧ u.reg TLT_SERIAL = BitVec.ofNat 64 j.serial ∧
      u.tiletTold s j 0 ∧ u.active = s.active) ∧
  (∀ (j : LoadJob) (g : Nat) (gs : List Nat) (s : State), s.loaderIdle → s.ldr = some j → j.going = true → j.commit = false → j.groups = g :: gs →
    s.clrs = [] → (∀ m ∈ j.live, m.2 < 256) →
    ((∃ m ∈ j.live, m ∉ j.ready ∧ s.overdue m = true) → ∃ u : State, exec .clearingTimeout s = .next u ∧ u.ldr = none ∧ u.tltEnded 0x10 ∧
      u.tiletTold s j 0x10 ∧ u.active = s.active ∧ (∀ r ∈ s.changes j.live, u.reg r &&& r.rwsMask = s.act r &&& r.rwsMask)) ∧
    ((∀ m ∈ j.live, m ∉ j.ready → s.overdue m = false) → exec .clearingTimeout s = .next s)) ∧
  (∀ (c : ClrJob) (s : State), s.loaderIdle → s.ldr = none → s.clrs = [c] → c.started = true → c.commit = false →
    s.overdue (c.block, c.inst) = true → ∃ u : State, exec .clearingTimeout s = .next u ∧ u.clrs = [] ∧ u.tltEnded 0x10 ∧ u.active = s.active)

namespace Sys2Proof.Machine

/-- The access code of bit `k` of a register (R8); none where no field lies. -/
def RegSpec.accAt (sp : RegSpec) (k : Nat) : Option Acc :=
  (sp.fields.find? fun f => decide (f.fld.lsb ≤ k) && decide (k < f.fld.lsb + f.fld.width)).map (·.acc)

/-- Blocks whose registers have no effect beside their access codes: Stands, cores, Grove, memory homes, Firebreak, power and thermal. -/
def plainBlocks : List Nat := [0x01, 0x02, 0x08, 0x0A, 0x0B, 0x15, 0x17]

/-- The bits of a register that an access of this size at this offset covers (R6). -/
def accessCovers (off size k : Nat) : Bool := size == 8 || decide (k / 32 = off / 4 % 2)

end Sys2Proof.Machine

/-- For the configuration bus and the blocks whose registers have no other effect. A REGISTER_WRITE of 8 bytes, or of an aligned half, sets in the bits it covers: rw, rw-l and rw-s bits to the value, w1c bits to 0 where the value has 1; every other bit and every other register keeps its value, and no active value changes; an rw-s bit of an instance in COMMIT keeps its value and the write is held. A size or alignment that R6 does not allow is discarded and logged; a reserved offset ignores the write. RC_FIELD_READ returns the bits read, wo bits as zero, and clears the rc fields it returned whole and nothing else. UNCLOCKED_ACCESS_COMPLETE of a domain without a clock or in reset: a read returns all ones, a write nothing, and a record of the access is logged. CANOPY_WAY_REENABLE clears the DIS and FLOOR bits written with 1 and the counts of the ways re-enabled, which CANOPY_WINDOW_END does for every bank. (R6, R7, R8, R10, R25, R249) -/
def Obligations.RegisterResults : Prop :=
  (∀ (b i off size : Nat) (v : Word) (s : State), b ∈ plainBlocks → i < blockCount b → s.domainUp b i = true →
    let r : Reg := ⟨b, i, off / 8 * 8⟩
    let w := if size = 4 ∧ off % 8 = 4 then v <<< 32 else v
    ((size = 8 ∧ off % 8 = 0) ∨ (size = 4 ∧ off % 4 = 0) →
      (r.spec? = none → exec (.registerWrite .config b i off size v) s = .next s) ∧
      (∀ sp, r.spec? = some sp → s.inCommit b i = false → ∃ u : State, exec (.registerWrite .config b i off size v) s = .next u ∧
        u.active = s.active ∧ u.heldW = s.heldW ∧ (∀ q : Reg, q.key ≠ r.key → u.reg q = s.reg q) ∧ u.threads = s.threads ∧ u.mem = s.mem ∧
        ∀ k < 64, (u.reg r).getLsbD k =
          if accessCovers off size k = false then (s.reg r).getLsbD k
          else match sp.accAt k with
            | some .rw => w.getLsbD k
            | some .rwl => w.getLsbD k
            | some .rws => w.getLsbD k
            | some .w1c => (s.reg r).getLsbD k && !w.getLsbD k
            | _ => (s.reg r).getLsbD k) ∧
      (∀ sp, r.spec? = some sp → s.inCommit b i = true → ∃ u : State, exec (.registerWrite .config b i off size v) s = .next u ∧
        u.active = s.active ∧ (∀ q : Reg, q.key ≠ r.key → u.reg q = s.reg q) ∧
        (∀ k < 64, sp.accAt k = some .rws → (u.reg r).getLsbD k = (s.reg r).getLsbD k) ∧
        ((∃ k < 64, sp.accAt k = some .rws ∧ accessCovers off size k = true) → ∃ m, u.heldW = s.heldW ++ [(r.key, m, w)] ∧
          ∀ k < 64, m.getLsbD k = (accessCovers off size k && decide (sp.accAt k = some .rws))))) ∧
    (¬ ((size = 8 ∧ off % 8 = 0) ∨ (size = 4 ∧ off % 4 = 0)) →
      exec (.registerWrite .config b i off size v) s = .next (s.logC b i 0x0A (leBytes 4 off)))) ∧
  (∀ (b i off size : Nat) (s : State), b ∈ plainBlocks → i < blockCount b → s.domainUp b i = true →
    let r : Reg := ⟨b, i, off / 8 * 8⟩
    ((size = 8 ∧ off % 8 = 0) ∨ (size = 4 ∧ off % 4 = 0) →
      (r.spec? = none → exec (.rcFieldRead .config b i off size) s = .next { s with readData := 0 }) ∧
      (∀ sp, r.spec? = some sp → b ≠ 0x02 → ∃ u : State, exec (.rcFieldRead .config b i off size) s = .next u ∧
        (∀ k < 64, u.readData.getLsbD k = (decide (k < 8 * size) &&
          ((s.reg r).getLsbD (k + off % 8 * 8) && decide (sp.accAt (k + off % 8 * 8) ≠ some .wo)))) ∧
        (∀ f ∈ sp.fields, f.acc = .rc → (∀ k, f.fld.lsb ≤ k → k < f.fld.lsb + f.fld.width → accessCovers off size k = true) → u.getF r f.fld = 0) ∧
        (∀ k < 64, sp.accAt k ≠ some .rc ∨ accessCovers off size k = false → (u.reg r).getLsbD k = (s.reg r).getLsbD k) ∧
        (∀ q : Reg, q.key ≠ r.key → u.reg q = s.reg q) ∧ u.active = s.active ∧ u.threads = s.threads)) ∧
    (¬ ((size = 8 ∧ off % 8 = 0) ∨ (size = 4 ∧ off % 4 = 0)) → exec (.rcFieldRead .config b i off size) s = .next
      { s.logC b i 0x0A (leBytes 4 off) with readData := if size = 4 then 0xFFFFFFFF else BitVec.allOnes 64 })) ∧
  (∀ (b i off : Nat) (s : State), b ≠ 0x16 → i < blockCount b →
    let g := s.logC 0x06 0 0x0A [BitVec.ofNat 8 b, BitVec.ofNat 8 i]
    (s.domainUp b i = true → ∀ w, exec (.unclockedAccessComplete .config b i off w) s = .next s) ∧
    (s.domainUp b i = false → exec (.unclockedAccessComplete .config b i off true) s = .next g ∧
      exec (.unclockedAccessComplete .config b i off false) s = .next { g with readData := BitVec.allOnes 64 })) ∧
  (∀ (k : Fin 16) (v : Word) (s : State), s.domainUp 0x07 0 = true → ∃ u : State, exec (.canopyWayReenable .config k v) s = .next u ∧
    u.getF (CNP_WAYST k.val) CNP_WAYST_DIS = s.getF (CNP_WAYST k.val) CNP_WAYST_DIS &&& (0xFFFF ^^^ CNP_WAYST_DIS.get v) ∧
    (CNP_WAYST_FLOOR.get v = 1 → u.getF (CNP_WAYST k.val) CNP_WAYST_FLOOR = 0) ∧
    (CNP_WAYST_FLOOR.get v = 0 → u.getF (CNP_WAYST k.val) CNP_WAYST_FLOOR = s.getF (CNP_WAYST k.val) CNP_WAYST_FLOOR) ∧
    (∀ w < 16, (u.reg (CNP_CECNT k.val)).toNat / 16 ^ w % 16 =
      if bitOf (s.getF (CNP_WAYST k.val) CNP_WAYST_DIS) w = true ∧ bitOf (CNP_WAYST_DIS.get v) w = true then 0
      else (s.reg (CNP_CECNT k.val)).toNat / 16 ^ w % 16) ∧ u.canopy = s.canopy ∧ u.threads = s.threads) ∧
  (∀ s : State, ∃ u : State, exec .canopyWindowEnd s = .next u ∧ (∀ b < 16, u.reg (CNP_CECNT b) = 0) ∧
    (∀ q : Reg, (∀ b < 16, q.key ≠ (CNP_CECNT b).key) → u.reg q = s.reg q) ∧ u.canopy = s.canopy ∧ u.threads = s.threads)

/-- For every instruction of AIS, thread and operands: where its word is legal, decoding the word gives the instruction back, no operand lost or changed. For every thread and every 32-bit word: a legal word decodes to an instruction whose word it is, and a word that is not legal decodes to none. (R70, R71, R72, R74, R75, R78, R81, R85, R90, R92, R96, R98) -/
def Obligations.EncodeThenDecode : Prop :=
  (∀ (i : Instr) (t : Thr) (w : Nat), aisWord i = some (t, w) → legalWord w = true → aisOf t (BitVec.ofNat 32 w) = some i) ∧
  (∀ (t : Thr) (w : BitVec 32), legalWord w.toNat = true → ∃ i, aisOf t w = some i ∧ aisWord i = some (t, w.toNat)) ∧
  (∀ (t : Thr) (w : BitVec 32), legalWord w.toNat = false → aisOf t w = none)

/-- For every state whose memory of the expanders is in canonical form, and every command at the front of its queue or none: if the step answers a next state, its memory is in canonical form, so that equal memories are equal data. The form is the model's own; that an unlisted byte reads as 0 is its choice (log entry 2). (11_memory.md, 20_address_map.md) -/
def Obligations.MemoryKeepsItsForm : Prop :=
  ∀ s u : State, memWf s.mem = true → step s = .next u → memWf u.mem = true

/-- At power-up: the memory has its canonical form; every register of the catalogue reads its reset value (the spec's; where it gives none, the values log entry 3 names); every thread is held with all g and f zero, PST at M level with MTA set, STCMP all ones and FCS rounding to nearest; every core, Stand, Glade and Root link is in reset, no cache, L3 or Canopy entry is held, every work queue and the command queue are empty, PWROK is low and STEP is 0. (R63, R68, R108, R109, R110, R136, R246, R275, R496, R503) -/
def Obligations.ResetState : Prop :=
  memWf State.reset.mem = true ∧ State.reset.pending = [] ∧ State.reset.pwrok = false ∧ State.reset.startStep = 0 ∧
  (∀ r : Reg, State.reset.reg r = regReset r.key) ∧
  (∀ t, let x := State.reset.thr t
    x.run = .held ∧ (∀ r, x.gr r = 0) ∧ (∀ r, x.fr r = 0) ∧ x.srg SR_PST = 0x4003 ∧ x.srg SR_STCMP = BitVec.allOnes 64 ∧ x.srg SR_FCS = 0x400 ∧
    x.sq = [] ∧ x.mq = [] ∧ x.ssi = none ∧ x.msi = none ∧ x.sb = []) ∧
  (∀ c, (State.reset.core c).held = true ∧ (State.reset.core c).l1d = [] ∧ (State.reset.core c).l2 = []) ∧
  (∀ n < 4, bitOf State.reset.standRst n = true ∧ bitOf State.reset.gladeRst n = true) ∧ (∀ n, (State.reset.root n).rst = true) ∧
  (∀ l, State.reset.line l = Line.none) ∧ State.reset.canopy = [] ∧ (∀ c, State.reset.queue c = []) ∧ State.reset.collHeld = []
end

