-- ==== Sys2Proof/Laws/Encode.lean ====
section
/-! SUPPORT. The fields of encoded AIS words read back as they were put in, for each format (R71), and which words are legal whatever their operands. -/

set_option linter.unusedSectionVars false

namespace Sys2Proof.Machine

/-! Format R. -/
section
variable {op rd ra rb fn : Nat} (ho : op < 64) (hd : rd < 32) (ha : ra < 32) (hb : rb < 32) (hf : fn < 2048)
include ho hd ha hb hf
theorem encR_lt : encR op rd ra rb fn < 2 ^ 32 := by unfold encR; omega
theorem encR_op : bitsOf (encR op rd ra rb fn) 31 26 = op := by unfold bitsOf encR; norm_num; omega
theorem encR_x : bitsOf (encR op rd ra rb fn) 25 21 = rd := by unfold bitsOf encR; norm_num; omega
theorem encR_y : bitsOf (encR op rd ra rb fn) 20 16 = ra := by unfold bitsOf encR; norm_num; omega
theorem encR_z : bitsOf (encR op rd ra rb fn) 15 11 = rb := by unfold bitsOf encR; norm_num; omega
theorem encR_fn : bitsOf (encR op rd ra rb fn) 10 0 = fn := by unfold bitsOf encR; norm_num; omega
end

/-! Format I and M. -/
section
variable {op rd ra imm : Nat} (ho : op < 64) (hd : rd < 32) (ha : ra < 32) (hi : imm < 65536)
include ho hd ha hi
theorem encI_lt : encI op rd ra imm < 2 ^ 32 := by unfold encI; omega
theorem encI_op : bitsOf (encI op rd ra imm) 31 26 = op := by unfold bitsOf encI; norm_num; omega
theorem encI_x : bitsOf (encI op rd ra imm) 25 21 = rd := by unfold bitsOf encI; norm_num; omega
theorem encI_y : bitsOf (encI op rd ra imm) 20 16 = ra := by unfold bitsOf encI; norm_num; omega
theorem encI_imm : bitsOf (encI op rd ra imm) 15 0 = imm := by unfold bitsOf encI; norm_num; omega
end

/-! Format J. -/
section
variable {op disp : Nat} (ho : op < 64) (hd : disp < 67108864)
include ho hd
theorem encJ_lt : encJ op disp < 2 ^ 32 := by unfold encJ; omega
theorem encJ_op : bitsOf (encJ op disp) 31 26 = op := by unfold bitsOf encJ; norm_num; omega
end

/-! Format F. -/
section
variable {fd fa fb fmt rm fn : Nat} (hd : fd < 32) (ha : fa < 32) (hb : fb < 32) (hm : fmt < 4) (hr : rm < 8) (hf : fn < 64)
include hd ha hb hm hr hf
theorem encF_lt : encF fd fa fb fmt rm fn < 2 ^ 32 := by unfold encF; omega
theorem encF_op : bitsOf (encF fd fa fb fmt rm fn) 31 26 = 0x30 := by unfold bitsOf encF; norm_num; omega
theorem encF_x : bitsOf (encF fd fa fb fmt rm fn) 25 21 = fd := by unfold bitsOf encF; norm_num; omega
theorem encF_y : bitsOf (encF fd fa fb fmt rm fn) 20 16 = fa := by unfold bitsOf encF; norm_num; omega
theorem encF_z : bitsOf (encF fd fa fb fmt rm fn) 15 11 = fb := by unfold bitsOf encF; norm_num; omega
theorem encF_fmt : bitsOf (encF fd fa fb fmt rm fn) 10 9 = fmt := by unfold bitsOf encF; norm_num; omega
theorem encF_rm : bitsOf (encF fd fa fb fmt rm fn) 8 6 = rm := by unfold bitsOf encF; norm_num; omega
theorem encF_fn : bitsOf (encF fd fa fb fmt rm fn) 5 0 = fn := by unfold bitsOf encF; norm_num; omega
end

/-! Format F4. -/
section
variable {op fd fa fb fc fmt rm : Nat} (ho : op < 64) (hd : fd < 32) (ha : fa < 32) (hb : fb < 32) (hc : fc < 32)
  (hm : fmt < 4) (hr : rm < 8)
include ho hd ha hb hc hm hr
theorem encF4_lt : encF4 op fd fa fb fc fmt rm < 2 ^ 32 := by unfold encF4; omega
theorem encF4_op : bitsOf (encF4 op fd fa fb fc fmt rm) 31 26 = op := by unfold bitsOf encF4; norm_num; omega
theorem encF4_x : bitsOf (encF4 op fd fa fb fc fmt rm) 25 21 = fd := by unfold bitsOf encF4; norm_num; omega
theorem encF4_y : bitsOf (encF4 op fd fa fb fc fmt rm) 20 16 = fa := by unfold bitsOf encF4; norm_num; omega
theorem encF4_z : bitsOf (encF4 op fd fa fb fc fmt rm) 15 11 = fb := by unfold bitsOf encF4; norm_num; omega
theorem encF4_c : bitsOf (encF4 op fd fa fb fc fmt rm) 10 6 = fc := by unfold bitsOf encF4; norm_num; omega
theorem encF4_fmt : bitsOf (encF4 op fd fa fb fc fmt rm) 5 4 = fmt := by unfold bitsOf encF4; norm_num; omega
theorem encF4_rm : bitsOf (encF4 op fd fa fb fc fmt rm) 3 1 = rm := by unfold bitsOf encF4; norm_num; omega
theorem encF4_b0 : bitsOf (encF4 op fd fa fb fc fmt rm) 0 0 = 0 := by unfold bitsOf encF4; norm_num; omega
end

/-! Format D. -/
section
variable {ra rb rd l1 l2 fn : Nat} (ha : ra < 32) (hb : rb < 32) (hd : rd < 32) (h1 : l1 < 16) (h2 : l2 < 16) (hf : fn < 8)
include ha hb hd h1 h2 hf
theorem encD_lt : encD ra rb rd l1 l2 fn < 2 ^ 32 := by unfold encD; omega
theorem encD_op : bitsOf (encD ra rb rd l1 l2 fn) 31 26 = 0x36 := by unfold bitsOf encD; norm_num; omega
theorem encD_x : bitsOf (encD ra rb rd l1 l2 fn) 25 21 = ra := by unfold bitsOf encD; norm_num; omega
theorem encD_y : bitsOf (encD ra rb rd l1 l2 fn) 20 16 = rb := by unfold bitsOf encD; norm_num; omega
theorem encD_z : bitsOf (encD ra rb rd l1 l2 fn) 15 11 = rd := by unfold bitsOf encD; norm_num; omega
theorem encD_l1 : bitsOf (encD ra rb rd l1 l2 fn) 10 7 = l1 := by unfold bitsOf encD; norm_num; omega
theorem encD_l2 : bitsOf (encD ra rb rd l1 l2 fn) 6 3 = l2 := by unfold bitsOf encD; norm_num; omega
theorem encD_fn : bitsOf (encD ra rb rd l1 l2 fn) 2 0 = fn := by unfold bitsOf encD; norm_num; omega
end

/-! Words that are legal whatever their operands. -/

/-- An OPR row with W as an operand (R75). -/
theorem legal_oprW (w : Bool) (rd ra rb : GReg) {fn : Nat} (hw : fn ∈ oprW)
    (hu : oprUnary.contains fn = true → rb = 0) : legalWord (encOpr w rd.val ra.val rb.val fn) = true := by
  have hf : fn < 64 := by
    simp only [oprW, List.mem_cons, List.not_mem_nil, or_false] at hw
    omega
  have hb : b2n w * 1024 + fn < 2048 := by cases w <;> simp [b2n] <;> omega
  have hm : (b2n w * 1024 + fn) % 1024 = fn := by omega
  have hc : oprW.contains fn = true := by simpa using hw
  have hu' : oprUnary.contains fn = true → rb.val = 0 := fun h => by rw [hu h]; rfl
  unfold encOpr legalWord
  rw [encR_op (by omega) rd.isLt ra.isLt rb.isLt hb, encR_z (by omega) rd.isLt ra.isLt rb.isLt hb,
    encR_fn (by omega) rd.isLt ra.isLt rb.isLt hb]
  simp only [legalOpr, hm, hc, Bool.true_or, Bool.true_and]
  cases h : oprUnary.contains fn
  · rfl
  · simp [hu' h]

/-- An OPR row without W (R75). -/
theorem legal_opr (rd ra rb : GReg) {fn : Nat} (hw : fn ∈ oprNoW)
    (hu : oprUnary.contains fn = true → rb = 0) : legalWord (encOpr false rd.val ra.val rb.val fn) = true := by
  have hf : fn < 66 := by
    simp only [oprNoW, List.cons_append, List.nil_append, List.mem_cons, List.not_mem_nil, or_false] at hw
    omega
  have hb : b2n false * 1024 + fn < 2048 := by simp [b2n]; omega
  have hm : (b2n false * 1024 + fn) = fn := by simp [b2n]
  have hm' : fn % 1024 = fn := by omega
  have hl : decide (fn < 1024) = true := by simp; omega
  have hc : oprNoW.contains fn = true := by simpa using hw
  have hu' : oprUnary.contains fn = true → rb.val = 0 := fun h => by rw [hu h]; rfl
  unfold encOpr legalWord
  rw [encR_op (by omega) rd.isLt ra.isLt rb.isLt hb, encR_z (by omega) rd.isLt ra.isLt rb.isLt hb,
    encR_fn (by omega) rd.isLt ra.isLt rb.isLt hb, hm]
  simp only [legalOpr, hm', hc, hl, Bool.and_true, Bool.or_true, Bool.true_and]
  cases h : oprUnary.contains fn
  · rfl
  · simp [hu' h]

/-- An I-format row (R77, R79, R83) whose opcode has no operand restriction. -/
theorem legal_encI {op : Nat} (rd ra : Fin 32) (imm : BitVec 16)
    (ho : op ∈ [0x02, 0x03, 0x04, 0x05, 0x06, 0x07, 0x09, 0x0C, 0x10, 0x11, 0x12, 0x13, 0x14, 0x15, 0x16, 0x18, 0x19, 0x1A,
      0x1B, 0x1D, 0x1E, 0x20, 0x21, 0x28, 0x29, 0x2A, 0x2B, 0x2C, 0x2D]) :
    legalWord (encI op rd.val ra.val imm.toNat) = true := by
  have h64 : op < 64 := by
    simp only [List.mem_cons, List.not_mem_nil, or_false] at ho
    omega
  unfold legalWord
  rw [encI_op h64 rd.isLt ra.isLt imm.isLt]
  simp only [List.mem_cons, List.not_mem_nil, or_false] at ho
  rcases ho with rfl | rfl | rfl | rfl | rfl | rfl | rfl | rfl | rfl | rfl | rfl | rfl | rfl | rfl | rfl | rfl | rfl | rfl |
    rfl | rfl | rfl | rfl | rfl | rfl | rfl | rfl | rfl | rfl | rfl <;> rfl

/-- LUI and ADDPC, whose ra field is zero (R77). -/
theorem legal_encI_ra0 {op : Nat} (rd : GReg) (imm : BitVec 16) (ho : op = 0x08 ∨ op = 0x0A) :
    legalWord (encI op rd.val 0 imm.toNat) = true := by
  have h64 : op < 64 := by omega
  unfold legalWord
  rw [encI_op h64 rd.isLt (by omega) imm.isLt, encI_y h64 rd.isLt (by omega) imm.isLt]
  rcases ho with rfl | rfl <;> rfl

/-- A pair access is legal where its register is even (R79). -/
theorem legal_pair {op : Nat} (rd : Fin 32) (ra : GReg) (imm : BitVec 16) (ho : op ∈ [0x17, 0x1C, 0x1F, 0x22])
    (he : rd.val % 2 = 0) : legalWord (encI op rd.val ra.val imm.toNat) = true := by
  have h64 : op < 64 := by
    simp only [List.mem_cons, List.not_mem_nil, or_false] at ho
    omega
  unfold legalWord
  rw [encI_op h64 rd.isLt ra.isLt imm.isLt, encI_x h64 rd.isLt ra.isLt imm.isLt]
  simp only [List.mem_cons, List.not_mem_nil, or_false] at ho
  rcases ho with rfl | rfl | rfl | rfl <;> simp [he]

/-- J and JAL (R84). -/
theorem legal_encJ {op : Nat} (disp : BitVec 26) (ho : op = 0x2E ∨ op = 0x2F) : legalWord (encJ op disp.toNat) = true := by
  have h64 : op < 64 := by omega
  unfold legalWord
  rw [encJ_op h64 disp.isLt]
  rcases ho with rfl | rfl <;> rfl

/-- A SHI row: rows 4 to 6 are legal for amounts below 32 (R78). -/
theorem legal_shi {kind : Nat} (rd ra : GReg) (sh : BitVec 6) (hk : kind < 7) (h : kind < 4 ∨ sh.toNat < 32) :
    legalWord (encShi kind rd.val ra.val sh.toNat) = true := by
  have hs := sh.isLt
  have hi : kind * 256 + sh.toNat < 65536 := by omega
  unfold encShi legalWord
  rw [encI_op (by omega) rd.isLt ra.isLt hi]
  simp only [legalShi, encI_imm (show 0x0B < 64 by omega) rd.isLt ra.isLt hi]
  have h1 : bitsOf (kind * 256 + sh.toNat) 10 8 = kind := by unfold bitsOf; norm_num; omega
  have h2 : bitsOf (kind * 256 + sh.toNat) 15 11 = 0 := by unfold bitsOf; norm_num; omega
  have h3 : bitsOf (kind * 256 + sh.toNat) 7 6 = 0 := by unfold bitsOf; norm_num; omega
  have h4 : bitOf (kind * 256 + sh.toNat) 5 = decide (32 ≤ sh.toNat) := by
    unfold bitOf; norm_num
    by_cases hq : 32 ≤ sh.toNat
    · simp only [hq, decide_true, beq_iff_eq]; omega
    · simp only [hq, decide_false, beq_eq_false_iff_ne]; omega
  have h5 : kind ≠ 7 := by omega
  rw [h1, h2, h3, h4]
  rcases h with h | h <;> simp [h, h5] <;> omega

end Sys2Proof.Machine
end

