-- ==== Sys2Proof/Laws/State.lean ====
section
/-! SUPPORT. One lemma for each field and each update of the state: what the update leaves alone, so that no proof unfolds a record update. -/

namespace Sys2Proof.Machine

/-! setReg changes only `regs`. -/
@[simp] theorem State.setReg_pending (s : State) (r : Reg) (v : Word) : (s.setReg r v).pending = s.pending :=
  (fun x => (rfl : ({ s with regs := x } : State).pending = s.pending)) (s.setReg r v).regs
@[simp] theorem State.setReg_fresh (s : State) (r : Reg) (v : Word) : (s.setReg r v).fresh = s.fresh :=
  (fun x => (rfl : ({ s with regs := x } : State).fresh = s.fresh)) (s.setReg r v).regs
@[simp] theorem State.setReg_active (s : State) (r : Reg) (v : Word) : (s.setReg r v).active = s.active :=
  (fun x => (rfl : ({ s with regs := x } : State).active = s.active)) (s.setReg r v).regs
@[simp] theorem State.setReg_retained (s : State) (r : Reg) (v : Word) : (s.setReg r v).retained = s.retained :=
  (fun x => (rfl : ({ s with regs := x } : State).retained = s.retained)) (s.setReg r v).regs
@[simp] theorem State.setReg_heldW (s : State) (r : Reg) (v : Word) : (s.setReg r v).heldW = s.heldW :=
  (fun x => (rfl : ({ s with regs := x } : State).heldW = s.heldW)) (s.setReg r v).regs
@[simp] theorem State.setReg_readData (s : State) (r : Reg) (v : Word) : (s.setReg r v).readData = s.readData :=
  (fun x => (rfl : ({ s with regs := x } : State).readData = s.readData)) (s.setReg r v).regs
@[simp] theorem State.setReg_ldr (s : State) (r : Reg) (v : Word) : (s.setReg r v).ldr = s.ldr :=
  (fun x => (rfl : ({ s with regs := x } : State).ldr = s.ldr)) (s.setReg r v).regs
@[simp] theorem State.setReg_clrs (s : State) (r : Reg) (v : Word) : (s.setReg r v).clrs = s.clrs :=
  (fun x => (rfl : ({ s with regs := x } : State).clrs = s.clrs)) (s.setReg r v).regs
@[simp] theorem State.setReg_pwrok (s : State) (r : Reg) (v : Word) : (s.setReg r v).pwrok = s.pwrok :=
  (fun x => (rfl : ({ s with regs := x } : State).pwrok = s.pwrok)) (s.setReg r v).regs
@[simp] theorem State.setReg_wthrow (s : State) (r : Reg) (v : Word) : (s.setReg r v).wthrow = s.wthrow :=
  (fun x => (rfl : ({ s with regs := x } : State).wthrow = s.wthrow)) (s.setReg r v).regs
@[simp] theorem State.setReg_thermtrip (s : State) (r : Reg) (v : Word) : (s.setReg r v).thermtrip = s.thermtrip :=
  (fun x => (rfl : ({ s with regs := x } : State).thermtrip = s.thermtrip)) (s.setReg r v).regs
@[simp] theorem State.setReg_rootHash (s : State) (r : Reg) (v : Word) : (s.setReg r v).rootHash = s.rootHash :=
  (fun x => (rfl : ({ s with regs := x } : State).rootHash = s.rootHash)) (s.setReg r v).regs
@[simp] theorem State.setReg_rootKey (s : State) (r : Reg) (v : Word) : (s.setReg r v).rootKey = s.rootKey :=
  (fun x => (rfl : ({ s with regs := x } : State).rootKey = s.rootKey)) (s.setReg r v).regs
@[simp] theorem State.setReg_ownerKey (s : State) (r : Reg) (v : Word) : (s.setReg r v).ownerKey = s.ownerKey :=
  (fun x => (rfl : ({ s with regs := x } : State).ownerKey = s.ownerKey)) (s.setReg r v).regs
@[simp] theorem State.setReg_svcUp (s : State) (r : Reg) (v : Word) : (s.setReg r v).svcUp = s.svcUp :=
  (fun x => (rfl : ({ s with regs := x } : State).svcUp = s.svcUp)) (s.setReg r v).regs
@[simp] theorem State.setReg_bar2 (s : State) (r : Reg) (v : Word) : (s.setReg r v).bar2 = s.bar2 :=
  (fun x => (rfl : ({ s with regs := x } : State).bar2 = s.bar2)) (s.setReg r v).regs
@[simp] theorem State.setReg_svc (s : State) (r : Reg) (v : Word) : (s.setReg r v).svc = s.svc :=
  (fun x => (rfl : ({ s with regs := x } : State).svc = s.svc)) (s.setReg r v).regs
@[simp] theorem State.setReg_msixBusy (s : State) (r : Reg) (v : Word) : (s.setReg r v).msixBusy = s.msixBusy :=
  (fun x => (rfl : ({ s with regs := x } : State).msixBusy = s.msixBusy)) (s.setReg r v).regs
@[simp] theorem State.setReg_msixDue (s : State) (r : Reg) (v : Word) : (s.setReg r v).msixDue = s.msixDue :=
  (fun x => (rfl : ({ s with regs := x } : State).msixDue = s.msixDue)) (s.setReg r v).regs
@[simp] theorem State.setReg_msixSent (s : State) (r : Reg) (v : Word) : (s.setReg r v).msixSent = s.msixSent :=
  (fun x => (rfl : ({ s with regs := x } : State).msixSent = s.msixSent)) (s.setReg r v).regs
@[simp] theorem State.setReg_mfw (s : State) (r : Reg) (v : Word) : (s.setReg r v).mfw = s.mfw :=
  (fun x => (rfl : ({ s with regs := x } : State).mfw = s.mfw)) (s.setReg r v).regs
@[simp] theorem State.setReg_released (s : State) (r : Reg) (v : Word) : (s.setReg r v).released = s.released :=
  (fun x => (rfl : ({ s with regs := x } : State).released = s.released)) (s.setReg r v).regs
@[simp] theorem State.setReg_tkos (s : State) (r : Reg) (v : Word) : (s.setReg r v).tkos = s.tkos :=
  (fun x => (rfl : ({ s with regs := x } : State).tkos = s.tkos)) (s.setReg r v).regs
@[simp] theorem State.setReg_nextReq (s : State) (r : Reg) (v : Word) : (s.setReg r v).nextReq = s.nextReq :=
  (fun x => (rfl : ({ s with regs := x } : State).nextReq = s.nextReq)) (s.setReg r v).regs
@[simp] theorem State.setReg_fst (s : State) (r : Reg) (v : Word) : (s.setReg r v).fst = s.fst :=
  (fun x => (rfl : ({ s with regs := x } : State).fst = s.fst)) (s.setReg r v).regs
@[simp] theorem State.setReg_mboxes (s : State) (r : Reg) (v : Word) : (s.setReg r v).mboxes = s.mboxes :=
  (fun x => (rfl : ({ s with regs := x } : State).mboxes = s.mboxes)) (s.setReg r v).regs
@[simp] theorem State.setReg_pwr (s : State) (r : Reg) (v : Word) : (s.setReg r v).pwr = s.pwr :=
  (fun x => (rfl : ({ s with regs := x } : State).pwr = s.pwr)) (s.setReg r v).regs
@[simp] theorem State.setReg_jtag (s : State) (r : Reg) (v : Word) : (s.setReg r v).jtag = s.jtag :=
  (fun x => (rfl : ({ s with regs := x } : State).jtag = s.jtag)) (s.setReg r v).regs
@[simp] theorem State.setReg_scan (s : State) (r : Reg) (v : Word) : (s.setReg r v).scan = s.scan :=
  (fun x => (rfl : ({ s with regs := x } : State).scan = s.scan)) (s.setReg r v).regs
@[simp] theorem State.setReg_i3c (s : State) (r : Reg) (v : Word) : (s.setReg r v).i3c = s.i3c :=
  (fun x => (rfl : ({ s with regs := x } : State).i3c = s.i3c)) (s.setReg r v).regs
@[simp] theorem State.setReg_outAns (s : State) (r : Reg) (v : Word) : (s.setReg r v).outAns = s.outAns :=
  (fun x => (rfl : ({ s with regs := x } : State).outAns = s.outAns)) (s.setReg r v).regs
@[simp] theorem State.setReg_portTx (s : State) (r : Reg) (v : Word) : (s.setReg r v).portTx = s.portTx :=
  (fun x => (rfl : ({ s with regs := x } : State).portTx = s.portTx)) (s.setReg r v).regs
@[simp] theorem State.setReg_standRst (s : State) (r : Reg) (v : Word) : (s.setReg r v).standRst = s.standRst :=
  (fun x => (rfl : ({ s with regs := x } : State).standRst = s.standRst)) (s.setReg r v).regs
@[simp] theorem State.setReg_gladeRst (s : State) (r : Reg) (v : Word) : (s.setReg r v).gladeRst = s.gladeRst :=
  (fun x => (rfl : ({ s with regs := x } : State).gladeRst = s.gladeRst)) (s.setReg r v).regs
@[simp] theorem State.setReg_time (s : State) (r : Reg) (v : Word) : (s.setReg r v).time = s.time :=
  (fun x => (rfl : ({ s with regs := x } : State).time = s.time)) (s.setReg r v).regs
@[simp] theorem State.setReg_uptime (s : State) (r : Reg) (v : Word) : (s.setReg r v).uptime = s.uptime :=
  (fun x => (rfl : ({ s with regs := x } : State).uptime = s.uptime)) (s.setReg r v).regs
@[simp] theorem State.setReg_mem (s : State) (r : Reg) (v : Word) : (s.setReg r v).mem = s.mem :=
  (fun x => (rfl : ({ s with regs := x } : State).mem = s.mem)) (s.setReg r v).regs
@[simp] theorem State.setReg_mpois (s : State) (r : Reg) (v : Word) : (s.setReg r v).mpois = s.mpois :=
  (fun x => (rfl : ({ s with regs := x } : State).mpois = s.mpois)) (s.setReg r v).regs
@[simp] theorem State.setReg_lines (s : State) (r : Reg) (v : Word) : (s.setReg r v).lines = s.lines :=
  (fun x => (rfl : ({ s with regs := x } : State).lines = s.lines)) (s.setReg r v).regs
@[simp] theorem State.setReg_canopy (s : State) (r : Reg) (v : Word) : (s.setReg r v).canopy = s.canopy :=
  (fun x => (rfl : ({ s with regs := x } : State).canopy = s.canopy)) (s.setReg r v).regs
@[simp] theorem State.setReg_canDis (s : State) (r : Reg) (v : Word) : (s.setReg r v).canDis = s.canDis :=
  (fun x => (rfl : ({ s with regs := x } : State).canDis = s.canDis)) (s.setReg r v).regs
@[simp] theorem State.setReg_home (s : State) (r : Reg) (v : Word) : (s.setReg r v).home = s.home :=
  (fun x => (rfl : ({ s with regs := x } : State).home = s.home)) (s.setReg r v).regs
@[simp] theorem State.setReg_out (s : State) (r : Reg) (v : Word) : (s.setReg r v).out = s.out :=
  (fun x => (rfl : ({ s with regs := x } : State).out = s.out)) (s.setReg r v).regs
@[simp] theorem State.setReg_purges (s : State) (r : Reg) (v : Word) : (s.setReg r v).purges = s.purges :=
  (fun x => (rfl : ({ s with regs := x } : State).purges = s.purges)) (s.setReg r v).regs
@[simp] theorem State.setReg_inb (s : State) (r : Reg) (v : Word) : (s.setReg r v).inb = s.inb :=
  (fun x => (rfl : ({ s with regs := x } : State).inb = s.inb)) (s.setReg r v).regs
@[simp] theorem State.setReg_snpQ (s : State) (r : Reg) (v : Word) : (s.setReg r v).snpQ = s.snpQ :=
  (fun x => (rfl : ({ s with regs := x } : State).snpQ = s.snpQ)) (s.setReg r v).regs
@[simp] theorem State.setReg_gports (s : State) (r : Reg) (v : Word) : (s.setReg r v).gports = s.gports :=
  (fun x => (rfl : ({ s with regs := x } : State).gports = s.gports)) (s.setReg r v).regs
@[simp] theorem State.setReg_peers (s : State) (r : Reg) (v : Word) : (s.setReg r v).peers = s.peers :=
  (fun x => (rfl : ({ s with regs := x } : State).peers = s.peers)) (s.setReg r v).regs
@[simp] theorem State.setReg_roots (s : State) (r : Reg) (v : Word) : (s.setReg r v).roots = s.roots :=
  (fun x => (rfl : ({ s with regs := x } : State).roots = s.roots)) (s.setReg r v).regs
@[simp] theorem State.setReg_failed (s : State) (r : Reg) (v : Word) : (s.setReg r v).failed = s.failed :=
  (fun x => (rfl : ({ s with regs := x } : State).failed = s.failed)) (s.setReg r v).regs
@[simp] theorem State.setReg_glades (s : State) (r : Reg) (v : Word) : (s.setReg r v).glades = s.glades :=
  (fun x => (rfl : ({ s with regs := x } : State).glades = s.glades)) (s.setReg r v).regs
@[simp] theorem State.setReg_engines (s : State) (r : Reg) (v : Word) : (s.setReg r v).engines = s.engines :=
  (fun x => (rfl : ({ s with regs := x } : State).engines = s.engines)) (s.setReg r v).regs
@[simp] theorem State.setReg_kst (s : State) (r : Reg) (v : Word) : (s.setReg r v).kst = s.kst :=
  (fun x => (rfl : ({ s with regs := x } : State).kst = s.kst)) (s.setReg r v).regs
@[simp] theorem State.setReg_threads (s : State) (r : Reg) (v : Word) : (s.setReg r v).threads = s.threads :=
  (fun x => (rfl : ({ s with regs := x } : State).threads = s.threads)) (s.setReg r v).regs
@[simp] theorem State.setReg_cores (s : State) (r : Reg) (v : Word) : (s.setReg r v).cores = s.cores :=
  (fun x => (rfl : ({ s with regs := x } : State).cores = s.cores)) (s.setReg r v).regs
@[simp] theorem State.setReg_rseq (s : State) (r : Reg) (v : Word) : (s.setReg r v).rseq = s.rseq :=
  (fun x => (rfl : ({ s with regs := x } : State).rseq = s.rseq)) (s.setReg r v).regs
@[simp] theorem State.setReg_collHeld (s : State) (r : Reg) (v : Word) : (s.setReg r v).collHeld = s.collHeld :=
  (fun x => (rfl : ({ s with regs := x } : State).collHeld = s.collHeld)) (s.setReg r v).regs
@[simp] theorem State.setReg_fq (s : State) (r : Reg) (v : Word) : (s.setReg r v).fq = s.fq :=
  (fun x => (rfl : ({ s with regs := x } : State).fq = s.fq)) (s.setReg r v).regs
@[simp] theorem State.setReg_flog (s : State) (r : Reg) (v : Word) : (s.setReg r v).flog = s.flog :=
  (fun x => (rfl : ({ s with regs := x } : State).flog = s.flog)) (s.setReg r v).regs
@[simp] theorem State.setReg_flogCnt (s : State) (r : Reg) (v : Word) : (s.setReg r v).flogCnt = s.flogCnt :=
  (fun x => (rfl : ({ s with regs := x } : State).flogCnt = s.flogCnt)) (s.setReg r v).regs
@[simp] theorem State.setReg_flogWait (s : State) (r : Reg) (v : Word) : (s.setReg r v).flogWait = s.flogWait :=
  (fun x => (rfl : ({ s with regs := x } : State).flogWait = s.flogWait)) (s.setReg r v).regs
@[simp] theorem State.setReg_wind (s : State) (r : Reg) (v : Word) : (s.setReg r v).wind = s.wind :=
  (fun x => (rfl : ({ s with regs := x } : State).wind = s.wind)) (s.setReg r v).regs
@[simp] theorem State.setReg_windAge (s : State) (r : Reg) (v : Word) : (s.setReg r v).windAge = s.windAge :=
  (fun x => (rfl : ({ s with regs := x } : State).windAge = s.windAge)) (s.setReg r v).regs

/-! setAct changes only `active`. -/
@[simp] theorem State.setAct_pending (s : State) (r : Reg) (v : Word) : (s.setAct r v).pending = s.pending :=
  (fun x => (rfl : ({ s with active := x } : State).pending = s.pending)) (s.setAct r v).active
@[simp] theorem State.setAct_fresh (s : State) (r : Reg) (v : Word) : (s.setAct r v).fresh = s.fresh :=
  (fun x => (rfl : ({ s with active := x } : State).fresh = s.fresh)) (s.setAct r v).active
@[simp] theorem State.setAct_regs (s : State) (r : Reg) (v : Word) : (s.setAct r v).regs = s.regs :=
  (fun x => (rfl : ({ s with active := x } : State).regs = s.regs)) (s.setAct r v).active
@[simp] theorem State.setAct_retained (s : State) (r : Reg) (v : Word) : (s.setAct r v).retained = s.retained :=
  (fun x => (rfl : ({ s with active := x } : State).retained = s.retained)) (s.setAct r v).active
@[simp] theorem State.setAct_heldW (s : State) (r : Reg) (v : Word) : (s.setAct r v).heldW = s.heldW :=
  (fun x => (rfl : ({ s with active := x } : State).heldW = s.heldW)) (s.setAct r v).active
@[simp] theorem State.setAct_readData (s : State) (r : Reg) (v : Word) : (s.setAct r v).readData = s.readData :=
  (fun x => (rfl : ({ s with active := x } : State).readData = s.readData)) (s.setAct r v).active
@[simp] theorem State.setAct_ldr (s : State) (r : Reg) (v : Word) : (s.setAct r v).ldr = s.ldr :=
  (fun x => (rfl : ({ s with active := x } : State).ldr = s.ldr)) (s.setAct r v).active
@[simp] theorem State.setAct_clrs (s : State) (r : Reg) (v : Word) : (s.setAct r v).clrs = s.clrs :=
  (fun x => (rfl : ({ s with active := x } : State).clrs = s.clrs)) (s.setAct r v).active
@[simp] theorem State.setAct_pwrok (s : State) (r : Reg) (v : Word) : (s.setAct r v).pwrok = s.pwrok :=
  (fun x => (rfl : ({ s with active := x } : State).pwrok = s.pwrok)) (s.setAct r v).active
@[simp] theorem State.setAct_wthrow (s : State) (r : Reg) (v : Word) : (s.setAct r v).wthrow = s.wthrow :=
  (fun x => (rfl : ({ s with active := x } : State).wthrow = s.wthrow)) (s.setAct r v).active
@[simp] theorem State.setAct_thermtrip (s : State) (r : Reg) (v : Word) : (s.setAct r v).thermtrip = s.thermtrip :=
  (fun x => (rfl : ({ s with active := x } : State).thermtrip = s.thermtrip)) (s.setAct r v).active
@[simp] theorem State.setAct_rootHash (s : State) (r : Reg) (v : Word) : (s.setAct r v).rootHash = s.rootHash :=
  (fun x => (rfl : ({ s with active := x } : State).rootHash = s.rootHash)) (s.setAct r v).active
@[simp] theorem State.setAct_rootKey (s : State) (r : Reg) (v : Word) : (s.setAct r v).rootKey = s.rootKey :=
  (fun x => (rfl : ({ s with active := x } : State).rootKey = s.rootKey)) (s.setAct r v).active
@[simp] theorem State.setAct_ownerKey (s : State) (r : Reg) (v : Word) : (s.setAct r v).ownerKey = s.ownerKey :=
  (fun x => (rfl : ({ s with active := x } : State).ownerKey = s.ownerKey)) (s.setAct r v).active
@[simp] theorem State.setAct_svcUp (s : State) (r : Reg) (v : Word) : (s.setAct r v).svcUp = s.svcUp :=
  (fun x => (rfl : ({ s with active := x } : State).svcUp = s.svcUp)) (s.setAct r v).active
@[simp] theorem State.setAct_bar2 (s : State) (r : Reg) (v : Word) : (s.setAct r v).bar2 = s.bar2 :=
  (fun x => (rfl : ({ s with active := x } : State).bar2 = s.bar2)) (s.setAct r v).active
@[simp] theorem State.setAct_svc (s : State) (r : Reg) (v : Word) : (s.setAct r v).svc = s.svc :=
  (fun x => (rfl : ({ s with active := x } : State).svc = s.svc)) (s.setAct r v).active
@[simp] theorem State.setAct_msixBusy (s : State) (r : Reg) (v : Word) : (s.setAct r v).msixBusy = s.msixBusy :=
  (fun x => (rfl : ({ s with active := x } : State).msixBusy = s.msixBusy)) (s.setAct r v).active
@[simp] theorem State.setAct_msixDue (s : State) (r : Reg) (v : Word) : (s.setAct r v).msixDue = s.msixDue :=
  (fun x => (rfl : ({ s with active := x } : State).msixDue = s.msixDue)) (s.setAct r v).active
@[simp] theorem State.setAct_msixSent (s : State) (r : Reg) (v : Word) : (s.setAct r v).msixSent = s.msixSent :=
  (fun x => (rfl : ({ s with active := x } : State).msixSent = s.msixSent)) (s.setAct r v).active
@[simp] theorem State.setAct_mfw (s : State) (r : Reg) (v : Word) : (s.setAct r v).mfw = s.mfw :=
  (fun x => (rfl : ({ s with active := x } : State).mfw = s.mfw)) (s.setAct r v).active
@[simp] theorem State.setAct_released (s : State) (r : Reg) (v : Word) : (s.setAct r v).released = s.released :=
  (fun x => (rfl : ({ s with active := x } : State).released = s.released)) (s.setAct r v).active
@[simp] theorem State.setAct_tkos (s : State) (r : Reg) (v : Word) : (s.setAct r v).tkos = s.tkos :=
  (fun x => (rfl : ({ s with active := x } : State).tkos = s.tkos)) (s.setAct r v).active
@[simp] theorem State.setAct_nextReq (s : State) (r : Reg) (v : Word) : (s.setAct r v).nextReq = s.nextReq :=
  (fun x => (rfl : ({ s with active := x } : State).nextReq = s.nextReq)) (s.setAct r v).active
@[simp] theorem State.setAct_fst (s : State) (r : Reg) (v : Word) : (s.setAct r v).fst = s.fst :=
  (fun x => (rfl : ({ s with active := x } : State).fst = s.fst)) (s.setAct r v).active
@[simp] theorem State.setAct_mboxes (s : State) (r : Reg) (v : Word) : (s.setAct r v).mboxes = s.mboxes :=
  (fun x => (rfl : ({ s with active := x } : State).mboxes = s.mboxes)) (s.setAct r v).active
@[simp] theorem State.setAct_pwr (s : State) (r : Reg) (v : Word) : (s.setAct r v).pwr = s.pwr :=
  (fun x => (rfl : ({ s with active := x } : State).pwr = s.pwr)) (s.setAct r v).active
@[simp] theorem State.setAct_jtag (s : State) (r : Reg) (v : Word) : (s.setAct r v).jtag = s.jtag :=
  (fun x => (rfl : ({ s with active := x } : State).jtag = s.jtag)) (s.setAct r v).active
@[simp] theorem State.setAct_scan (s : State) (r : Reg) (v : Word) : (s.setAct r v).scan = s.scan :=
  (fun x => (rfl : ({ s with active := x } : State).scan = s.scan)) (s.setAct r v).active
@[simp] theorem State.setAct_i3c (s : State) (r : Reg) (v : Word) : (s.setAct r v).i3c = s.i3c :=
  (fun x => (rfl : ({ s with active := x } : State).i3c = s.i3c)) (s.setAct r v).active
@[simp] theorem State.setAct_outAns (s : State) (r : Reg) (v : Word) : (s.setAct r v).outAns = s.outAns :=
  (fun x => (rfl : ({ s with active := x } : State).outAns = s.outAns)) (s.setAct r v).active
@[simp] theorem State.setAct_portTx (s : State) (r : Reg) (v : Word) : (s.setAct r v).portTx = s.portTx :=
  (fun x => (rfl : ({ s with active := x } : State).portTx = s.portTx)) (s.setAct r v).active
@[simp] theorem State.setAct_standRst (s : State) (r : Reg) (v : Word) : (s.setAct r v).standRst = s.standRst :=
  (fun x => (rfl : ({ s with active := x } : State).standRst = s.standRst)) (s.setAct r v).active
@[simp] theorem State.setAct_gladeRst (s : State) (r : Reg) (v : Word) : (s.setAct r v).gladeRst = s.gladeRst :=
  (fun x => (rfl : ({ s with active := x } : State).gladeRst = s.gladeRst)) (s.setAct r v).active
@[simp] theorem State.setAct_time (s : State) (r : Reg) (v : Word) : (s.setAct r v).time = s.time :=
  (fun x => (rfl : ({ s with active := x } : State).time = s.time)) (s.setAct r v).active
@[simp] theorem State.setAct_uptime (s : State) (r : Reg) (v : Word) : (s.setAct r v).uptime = s.uptime :=
  (fun x => (rfl : ({ s with active := x } : State).uptime = s.uptime)) (s.setAct r v).active
@[simp] theorem State.setAct_mem (s : State) (r : Reg) (v : Word) : (s.setAct r v).mem = s.mem :=
  (fun x => (rfl : ({ s with active := x } : State).mem = s.mem)) (s.setAct r v).active
@[simp] theorem State.setAct_mpois (s : State) (r : Reg) (v : Word) : (s.setAct r v).mpois = s.mpois :=
  (fun x => (rfl : ({ s with active := x } : State).mpois = s.mpois)) (s.setAct r v).active
@[simp] theorem State.setAct_lines (s : State) (r : Reg) (v : Word) : (s.setAct r v).lines = s.lines :=
  (fun x => (rfl : ({ s with active := x } : State).lines = s.lines)) (s.setAct r v).active
@[simp] theorem State.setAct_canopy (s : State) (r : Reg) (v : Word) : (s.setAct r v).canopy = s.canopy :=
  (fun x => (rfl : ({ s with active := x } : State).canopy = s.canopy)) (s.setAct r v).active
@[simp] theorem State.setAct_canDis (s : State) (r : Reg) (v : Word) : (s.setAct r v).canDis = s.canDis :=
  (fun x => (rfl : ({ s with active := x } : State).canDis = s.canDis)) (s.setAct r v).active
@[simp] theorem State.setAct_home (s : State) (r : Reg) (v : Word) : (s.setAct r v).home = s.home :=
  (fun x => (rfl : ({ s with active := x } : State).home = s.home)) (s.setAct r v).active
@[simp] theorem State.setAct_out (s : State) (r : Reg) (v : Word) : (s.setAct r v).out = s.out :=
  (fun x => (rfl : ({ s with active := x } : State).out = s.out)) (s.setAct r v).active
@[simp] theorem State.setAct_purges (s : State) (r : Reg) (v : Word) : (s.setAct r v).purges = s.purges :=
  (fun x => (rfl : ({ s with active := x } : State).purges = s.purges)) (s.setAct r v).active
@[simp] theorem State.setAct_inb (s : State) (r : Reg) (v : Word) : (s.setAct r v).inb = s.inb :=
  (fun x => (rfl : ({ s with active := x } : State).inb = s.inb)) (s.setAct r v).active
@[simp] theorem State.setAct_snpQ (s : State) (r : Reg) (v : Word) : (s.setAct r v).snpQ = s.snpQ :=
  (fun x => (rfl : ({ s with active := x } : State).snpQ = s.snpQ)) (s.setAct r v).active
@[simp] theorem State.setAct_gports (s : State) (r : Reg) (v : Word) : (s.setAct r v).gports = s.gports :=
  (fun x => (rfl : ({ s with active := x } : State).gports = s.gports)) (s.setAct r v).active
@[simp] theorem State.setAct_peers (s : State) (r : Reg) (v : Word) : (s.setAct r v).peers = s.peers :=
  (fun x => (rfl : ({ s with active := x } : State).peers = s.peers)) (s.setAct r v).active
@[simp] theorem State.setAct_roots (s : State) (r : Reg) (v : Word) : (s.setAct r v).roots = s.roots :=
  (fun x => (rfl : ({ s with active := x } : State).roots = s.roots)) (s.setAct r v).active
@[simp] theorem State.setAct_failed (s : State) (r : Reg) (v : Word) : (s.setAct r v).failed = s.failed :=
  (fun x => (rfl : ({ s with active := x } : State).failed = s.failed)) (s.setAct r v).active
@[simp] theorem State.setAct_glades (s : State) (r : Reg) (v : Word) : (s.setAct r v).glades = s.glades :=
  (fun x => (rfl : ({ s with active := x } : State).glades = s.glades)) (s.setAct r v).active
@[simp] theorem State.setAct_engines (s : State) (r : Reg) (v : Word) : (s.setAct r v).engines = s.engines :=
  (fun x => (rfl : ({ s with active := x } : State).engines = s.engines)) (s.setAct r v).active
@[simp] theorem State.setAct_kst (s : State) (r : Reg) (v : Word) : (s.setAct r v).kst = s.kst :=
  (fun x => (rfl : ({ s with active := x } : State).kst = s.kst)) (s.setAct r v).active
@[simp] theorem State.setAct_threads (s : State) (r : Reg) (v : Word) : (s.setAct r v).threads = s.threads :=
  (fun x => (rfl : ({ s with active := x } : State).threads = s.threads)) (s.setAct r v).active
@[simp] theorem State.setAct_cores (s : State) (r : Reg) (v : Word) : (s.setAct r v).cores = s.cores :=
  (fun x => (rfl : ({ s with active := x } : State).cores = s.cores)) (s.setAct r v).active
@[simp] theorem State.setAct_rseq (s : State) (r : Reg) (v : Word) : (s.setAct r v).rseq = s.rseq :=
  (fun x => (rfl : ({ s with active := x } : State).rseq = s.rseq)) (s.setAct r v).active
@[simp] theorem State.setAct_collHeld (s : State) (r : Reg) (v : Word) : (s.setAct r v).collHeld = s.collHeld :=
  (fun x => (rfl : ({ s with active := x } : State).collHeld = s.collHeld)) (s.setAct r v).active
@[simp] theorem State.setAct_fq (s : State) (r : Reg) (v : Word) : (s.setAct r v).fq = s.fq :=
  (fun x => (rfl : ({ s with active := x } : State).fq = s.fq)) (s.setAct r v).active
@[simp] theorem State.setAct_flog (s : State) (r : Reg) (v : Word) : (s.setAct r v).flog = s.flog :=
  (fun x => (rfl : ({ s with active := x } : State).flog = s.flog)) (s.setAct r v).active
@[simp] theorem State.setAct_flogCnt (s : State) (r : Reg) (v : Word) : (s.setAct r v).flogCnt = s.flogCnt :=
  (fun x => (rfl : ({ s with active := x } : State).flogCnt = s.flogCnt)) (s.setAct r v).active
@[simp] theorem State.setAct_flogWait (s : State) (r : Reg) (v : Word) : (s.setAct r v).flogWait = s.flogWait :=
  (fun x => (rfl : ({ s with active := x } : State).flogWait = s.flogWait)) (s.setAct r v).active
@[simp] theorem State.setAct_wind (s : State) (r : Reg) (v : Word) : (s.setAct r v).wind = s.wind :=
  (fun x => (rfl : ({ s with active := x } : State).wind = s.wind)) (s.setAct r v).active
@[simp] theorem State.setAct_windAge (s : State) (r : Reg) (v : Word) : (s.setAct r v).windAge = s.windAge :=
  (fun x => (rfl : ({ s with active := x } : State).windAge = s.windAge)) (s.setAct r v).active

/-! retain changes only `retained`. -/
@[simp] theorem State.retain_pending (s : State) (r : Reg) (v : Word) : (s.retain r v).pending = s.pending :=
  (fun x => (rfl : ({ s with retained := x } : State).pending = s.pending)) (s.retain r v).retained
@[simp] theorem State.retain_fresh (s : State) (r : Reg) (v : Word) : (s.retain r v).fresh = s.fresh :=
  (fun x => (rfl : ({ s with retained := x } : State).fresh = s.fresh)) (s.retain r v).retained
@[simp] theorem State.retain_regs (s : State) (r : Reg) (v : Word) : (s.retain r v).regs = s.regs :=
  (fun x => (rfl : ({ s with retained := x } : State).regs = s.regs)) (s.retain r v).retained
@[simp] theorem State.retain_active (s : State) (r : Reg) (v : Word) : (s.retain r v).active = s.active :=
  (fun x => (rfl : ({ s with retained := x } : State).active = s.active)) (s.retain r v).retained
@[simp] theorem State.retain_heldW (s : State) (r : Reg) (v : Word) : (s.retain r v).heldW = s.heldW :=
  (fun x => (rfl : ({ s with retained := x } : State).heldW = s.heldW)) (s.retain r v).retained
@[simp] theorem State.retain_readData (s : State) (r : Reg) (v : Word) : (s.retain r v).readData = s.readData :=
  (fun x => (rfl : ({ s with retained := x } : State).readData = s.readData)) (s.retain r v).retained
@[simp] theorem State.retain_ldr (s : State) (r : Reg) (v : Word) : (s.retain r v).ldr = s.ldr :=
  (fun x => (rfl : ({ s with retained := x } : State).ldr = s.ldr)) (s.retain r v).retained
@[simp] theorem State.retain_clrs (s : State) (r : Reg) (v : Word) : (s.retain r v).clrs = s.clrs :=
  (fun x => (rfl : ({ s with retained := x } : State).clrs = s.clrs)) (s.retain r v).retained
@[simp] theorem State.retain_pwrok (s : State) (r : Reg) (v : Word) : (s.retain r v).pwrok = s.pwrok :=
  (fun x => (rfl : ({ s with retained := x } : State).pwrok = s.pwrok)) (s.retain r v).retained
@[simp] theorem State.retain_wthrow (s : State) (r : Reg) (v : Word) : (s.retain r v).wthrow = s.wthrow :=
  (fun x => (rfl : ({ s with retained := x } : State).wthrow = s.wthrow)) (s.retain r v).retained
@[simp] theorem State.retain_thermtrip (s : State) (r : Reg) (v : Word) : (s.retain r v).thermtrip = s.thermtrip :=
  (fun x => (rfl : ({ s with retained := x } : State).thermtrip = s.thermtrip)) (s.retain r v).retained
@[simp] theorem State.retain_rootHash (s : State) (r : Reg) (v : Word) : (s.retain r v).rootHash = s.rootHash :=
  (fun x => (rfl : ({ s with retained := x } : State).rootHash = s.rootHash)) (s.retain r v).retained
@[simp] theorem State.retain_rootKey (s : State) (r : Reg) (v : Word) : (s.retain r v).rootKey = s.rootKey :=
  (fun x => (rfl : ({ s with retained := x } : State).rootKey = s.rootKey)) (s.retain r v).retained
@[simp] theorem State.retain_ownerKey (s : State) (r : Reg) (v : Word) : (s.retain r v).ownerKey = s.ownerKey :=
  (fun x => (rfl : ({ s with retained := x } : State).ownerKey = s.ownerKey)) (s.retain r v).retained
@[simp] theorem State.retain_svcUp (s : State) (r : Reg) (v : Word) : (s.retain r v).svcUp = s.svcUp :=
  (fun x => (rfl : ({ s with retained := x } : State).svcUp = s.svcUp)) (s.retain r v).retained
@[simp] theorem State.retain_bar2 (s : State) (r : Reg) (v : Word) : (s.retain r v).bar2 = s.bar2 :=
  (fun x => (rfl : ({ s with retained := x } : State).bar2 = s.bar2)) (s.retain r v).retained
@[simp] theorem State.retain_svc (s : State) (r : Reg) (v : Word) : (s.retain r v).svc = s.svc :=
  (fun x => (rfl : ({ s with retained := x } : State).svc = s.svc)) (s.retain r v).retained
@[simp] theorem State.retain_msixBusy (s : State) (r : Reg) (v : Word) : (s.retain r v).msixBusy = s.msixBusy :=
  (fun x => (rfl : ({ s with retained := x } : State).msixBusy = s.msixBusy)) (s.retain r v).retained
@[simp] theorem State.retain_msixDue (s : State) (r : Reg) (v : Word) : (s.retain r v).msixDue = s.msixDue :=
  (fun x => (rfl : ({ s with retained := x } : State).msixDue = s.msixDue)) (s.retain r v).retained
@[simp] theorem State.retain_msixSent (s : State) (r : Reg) (v : Word) : (s.retain r v).msixSent = s.msixSent :=
  (fun x => (rfl : ({ s with retained := x } : State).msixSent = s.msixSent)) (s.retain r v).retained
@[simp] theorem State.retain_mfw (s : State) (r : Reg) (v : Word) : (s.retain r v).mfw = s.mfw :=
  (fun x => (rfl : ({ s with retained := x } : State).mfw = s.mfw)) (s.retain r v).retained
@[simp] theorem State.retain_released (s : State) (r : Reg) (v : Word) : (s.retain r v).released = s.released :=
  (fun x => (rfl : ({ s with retained := x } : State).released = s.released)) (s.retain r v).retained
@[simp] theorem State.retain_tkos (s : State) (r : Reg) (v : Word) : (s.retain r v).tkos = s.tkos :=
  (fun x => (rfl : ({ s with retained := x } : State).tkos = s.tkos)) (s.retain r v).retained
@[simp] theorem State.retain_nextReq (s : State) (r : Reg) (v : Word) : (s.retain r v).nextReq = s.nextReq :=
  (fun x => (rfl : ({ s with retained := x } : State).nextReq = s.nextReq)) (s.retain r v).retained
@[simp] theorem State.retain_fst (s : State) (r : Reg) (v : Word) : (s.retain r v).fst = s.fst :=
  (fun x => (rfl : ({ s with retained := x } : State).fst = s.fst)) (s.retain r v).retained
@[simp] theorem State.retain_mboxes (s : State) (r : Reg) (v : Word) : (s.retain r v).mboxes = s.mboxes :=
  (fun x => (rfl : ({ s with retained := x } : State).mboxes = s.mboxes)) (s.retain r v).retained
@[simp] theorem State.retain_pwr (s : State) (r : Reg) (v : Word) : (s.retain r v).pwr = s.pwr :=
  (fun x => (rfl : ({ s with retained := x } : State).pwr = s.pwr)) (s.retain r v).retained
@[simp] theorem State.retain_jtag (s : State) (r : Reg) (v : Word) : (s.retain r v).jtag = s.jtag :=
  (fun x => (rfl : ({ s with retained := x } : State).jtag = s.jtag)) (s.retain r v).retained
@[simp] theorem State.retain_scan (s : State) (r : Reg) (v : Word) : (s.retain r v).scan = s.scan :=
  (fun x => (rfl : ({ s with retained := x } : State).scan = s.scan)) (s.retain r v).retained
@[simp] theorem State.retain_i3c (s : State) (r : Reg) (v : Word) : (s.retain r v).i3c = s.i3c :=
  (fun x => (rfl : ({ s with retained := x } : State).i3c = s.i3c)) (s.retain r v).retained
@[simp] theorem State.retain_outAns (s : State) (r : Reg) (v : Word) : (s.retain r v).outAns = s.outAns :=
  (fun x => (rfl : ({ s with retained := x } : State).outAns = s.outAns)) (s.retain r v).retained
@[simp] theorem State.retain_portTx (s : State) (r : Reg) (v : Word) : (s.retain r v).portTx = s.portTx :=
  (fun x => (rfl : ({ s with retained := x } : State).portTx = s.portTx)) (s.retain r v).retained
@[simp] theorem State.retain_standRst (s : State) (r : Reg) (v : Word) : (s.retain r v).standRst = s.standRst :=
  (fun x => (rfl : ({ s with retained := x } : State).standRst = s.standRst)) (s.retain r v).retained
@[simp] theorem State.retain_gladeRst (s : State) (r : Reg) (v : Word) : (s.retain r v).gladeRst = s.gladeRst :=
  (fun x => (rfl : ({ s with retained := x } : State).gladeRst = s.gladeRst)) (s.retain r v).retained
@[simp] theorem State.retain_time (s : State) (r : Reg) (v : Word) : (s.retain r v).time = s.time :=
  (fun x => (rfl : ({ s with retained := x } : State).time = s.time)) (s.retain r v).retained
@[simp] theorem State.retain_uptime (s : State) (r : Reg) (v : Word) : (s.retain r v).uptime = s.uptime :=
  (fun x => (rfl : ({ s with retained := x } : State).uptime = s.uptime)) (s.retain r v).retained
@[simp] theorem State.retain_mem (s : State) (r : Reg) (v : Word) : (s.retain r v).mem = s.mem :=
  (fun x => (rfl : ({ s with retained := x } : State).mem = s.mem)) (s.retain r v).retained
@[simp] theorem State.retain_mpois (s : State) (r : Reg) (v : Word) : (s.retain r v).mpois = s.mpois :=
  (fun x => (rfl : ({ s with retained := x } : State).mpois = s.mpois)) (s.retain r v).retained
@[simp] theorem State.retain_lines (s : State) (r : Reg) (v : Word) : (s.retain r v).lines = s.lines :=
  (fun x => (rfl : ({ s with retained := x } : State).lines = s.lines)) (s.retain r v).retained
@[simp] theorem State.retain_canopy (s : State) (r : Reg) (v : Word) : (s.retain r v).canopy = s.canopy :=
  (fun x => (rfl : ({ s with retained := x } : State).canopy = s.canopy)) (s.retain r v).retained
@[simp] theorem State.retain_canDis (s : State) (r : Reg) (v : Word) : (s.retain r v).canDis = s.canDis :=
  (fun x => (rfl : ({ s with retained := x } : State).canDis = s.canDis)) (s.retain r v).retained
@[simp] theorem State.retain_home (s : State) (r : Reg) (v : Word) : (s.retain r v).home = s.home :=
  (fun x => (rfl : ({ s with retained := x } : State).home = s.home)) (s.retain r v).retained
@[simp] theorem State.retain_out (s : State) (r : Reg) (v : Word) : (s.retain r v).out = s.out :=
  (fun x => (rfl : ({ s with retained := x } : State).out = s.out)) (s.retain r v).retained
@[simp] theorem State.retain_purges (s : State) (r : Reg) (v : Word) : (s.retain r v).purges = s.purges :=
  (fun x => (rfl : ({ s with retained := x } : State).purges = s.purges)) (s.retain r v).retained
@[simp] theorem State.retain_inb (s : State) (r : Reg) (v : Word) : (s.retain r v).inb = s.inb :=
  (fun x => (rfl : ({ s with retained := x } : State).inb = s.inb)) (s.retain r v).retained
@[simp] theorem State.retain_snpQ (s : State) (r : Reg) (v : Word) : (s.retain r v).snpQ = s.snpQ :=
  (fun x => (rfl : ({ s with retained := x } : State).snpQ = s.snpQ)) (s.retain r v).retained
@[simp] theorem State.retain_gports (s : State) (r : Reg) (v : Word) : (s.retain r v).gports = s.gports :=
  (fun x => (rfl : ({ s with retained := x } : State).gports = s.gports)) (s.retain r v).retained
@[simp] theorem State.retain_peers (s : State) (r : Reg) (v : Word) : (s.retain r v).peers = s.peers :=
  (fun x => (rfl : ({ s with retained := x } : State).peers = s.peers)) (s.retain r v).retained
@[simp] theorem State.retain_roots (s : State) (r : Reg) (v : Word) : (s.retain r v).roots = s.roots :=
  (fun x => (rfl : ({ s with retained := x } : State).roots = s.roots)) (s.retain r v).retained
@[simp] theorem State.retain_failed (s : State) (r : Reg) (v : Word) : (s.retain r v).failed = s.failed :=
  (fun x => (rfl : ({ s with retained := x } : State).failed = s.failed)) (s.retain r v).retained
@[simp] theorem State.retain_glades (s : State) (r : Reg) (v : Word) : (s.retain r v).glades = s.glades :=
  (fun x => (rfl : ({ s with retained := x } : State).glades = s.glades)) (s.retain r v).retained
@[simp] theorem State.retain_engines (s : State) (r : Reg) (v : Word) : (s.retain r v).engines = s.engines :=
  (fun x => (rfl : ({ s with retained := x } : State).engines = s.engines)) (s.retain r v).retained
@[simp] theorem State.retain_kst (s : State) (r : Reg) (v : Word) : (s.retain r v).kst = s.kst :=
  (fun x => (rfl : ({ s with retained := x } : State).kst = s.kst)) (s.retain r v).retained
@[simp] theorem State.retain_threads (s : State) (r : Reg) (v : Word) : (s.retain r v).threads = s.threads :=
  (fun x => (rfl : ({ s with retained := x } : State).threads = s.threads)) (s.retain r v).retained
@[simp] theorem State.retain_cores (s : State) (r : Reg) (v : Word) : (s.retain r v).cores = s.cores :=
  (fun x => (rfl : ({ s with retained := x } : State).cores = s.cores)) (s.retain r v).retained
@[simp] theorem State.retain_rseq (s : State) (r : Reg) (v : Word) : (s.retain r v).rseq = s.rseq :=
  (fun x => (rfl : ({ s with retained := x } : State).rseq = s.rseq)) (s.retain r v).retained
@[simp] theorem State.retain_collHeld (s : State) (r : Reg) (v : Word) : (s.retain r v).collHeld = s.collHeld :=
  (fun x => (rfl : ({ s with retained := x } : State).collHeld = s.collHeld)) (s.retain r v).retained
@[simp] theorem State.retain_fq (s : State) (r : Reg) (v : Word) : (s.retain r v).fq = s.fq :=
  (fun x => (rfl : ({ s with retained := x } : State).fq = s.fq)) (s.retain r v).retained
@[simp] theorem State.retain_flog (s : State) (r : Reg) (v : Word) : (s.retain r v).flog = s.flog :=
  (fun x => (rfl : ({ s with retained := x } : State).flog = s.flog)) (s.retain r v).retained
@[simp] theorem State.retain_flogCnt (s : State) (r : Reg) (v : Word) : (s.retain r v).flogCnt = s.flogCnt :=
  (fun x => (rfl : ({ s with retained := x } : State).flogCnt = s.flogCnt)) (s.retain r v).retained
@[simp] theorem State.retain_flogWait (s : State) (r : Reg) (v : Word) : (s.retain r v).flogWait = s.flogWait :=
  (fun x => (rfl : ({ s with retained := x } : State).flogWait = s.flogWait)) (s.retain r v).retained
@[simp] theorem State.retain_wind (s : State) (r : Reg) (v : Word) : (s.retain r v).wind = s.wind :=
  (fun x => (rfl : ({ s with retained := x } : State).wind = s.wind)) (s.retain r v).retained
@[simp] theorem State.retain_windAge (s : State) (r : Reg) (v : Word) : (s.retain r v).windAge = s.windAge :=
  (fun x => (rfl : ({ s with retained := x } : State).windAge = s.windAge)) (s.retain r v).retained

/-! setThr changes only `threads`. -/
@[simp] theorem State.setThr_pending (s : State) (t : Nat) (x : Thread) : (s.setThr t x).pending = s.pending :=
  (fun x => (rfl : ({ s with threads := x } : State).pending = s.pending)) (s.setThr t x).threads
@[simp] theorem State.setThr_fresh (s : State) (t : Nat) (x : Thread) : (s.setThr t x).fresh = s.fresh :=
  (fun x => (rfl : ({ s with threads := x } : State).fresh = s.fresh)) (s.setThr t x).threads
@[simp] theorem State.setThr_regs (s : State) (t : Nat) (x : Thread) : (s.setThr t x).regs = s.regs :=
  (fun x => (rfl : ({ s with threads := x } : State).regs = s.regs)) (s.setThr t x).threads
@[simp] theorem State.setThr_active (s : State) (t : Nat) (x : Thread) : (s.setThr t x).active = s.active :=
  (fun x => (rfl : ({ s with threads := x } : State).active = s.active)) (s.setThr t x).threads
@[simp] theorem State.setThr_retained (s : State) (t : Nat) (x : Thread) : (s.setThr t x).retained = s.retained :=
  (fun x => (rfl : ({ s with threads := x } : State).retained = s.retained)) (s.setThr t x).threads
@[simp] theorem State.setThr_heldW (s : State) (t : Nat) (x : Thread) : (s.setThr t x).heldW = s.heldW :=
  (fun x => (rfl : ({ s with threads := x } : State).heldW = s.heldW)) (s.setThr t x).threads
@[simp] theorem State.setThr_readData (s : State) (t : Nat) (x : Thread) : (s.setThr t x).readData = s.readData :=
  (fun x => (rfl : ({ s with threads := x } : State).readData = s.readData)) (s.setThr t x).threads
@[simp] theorem State.setThr_ldr (s : State) (t : Nat) (x : Thread) : (s.setThr t x).ldr = s.ldr :=
  (fun x => (rfl : ({ s with threads := x } : State).ldr = s.ldr)) (s.setThr t x).threads
@[simp] theorem State.setThr_clrs (s : State) (t : Nat) (x : Thread) : (s.setThr t x).clrs = s.clrs :=
  (fun x => (rfl : ({ s with threads := x } : State).clrs = s.clrs)) (s.setThr t x).threads
@[simp] theorem State.setThr_pwrok (s : State) (t : Nat) (x : Thread) : (s.setThr t x).pwrok = s.pwrok :=
  (fun x => (rfl : ({ s with threads := x } : State).pwrok = s.pwrok)) (s.setThr t x).threads
@[simp] theorem State.setThr_wthrow (s : State) (t : Nat) (x : Thread) : (s.setThr t x).wthrow = s.wthrow :=
  (fun x => (rfl : ({ s with threads := x } : State).wthrow = s.wthrow)) (s.setThr t x).threads
@[simp] theorem State.setThr_thermtrip (s : State) (t : Nat) (x : Thread) : (s.setThr t x).thermtrip = s.thermtrip :=
  (fun x => (rfl : ({ s with threads := x } : State).thermtrip = s.thermtrip)) (s.setThr t x).threads
@[simp] theorem State.setThr_rootHash (s : State) (t : Nat) (x : Thread) : (s.setThr t x).rootHash = s.rootHash :=
  (fun x => (rfl : ({ s with threads := x } : State).rootHash = s.rootHash)) (s.setThr t x).threads
@[simp] theorem State.setThr_rootKey (s : State) (t : Nat) (x : Thread) : (s.setThr t x).rootKey = s.rootKey :=
  (fun x => (rfl : ({ s with threads := x } : State).rootKey = s.rootKey)) (s.setThr t x).threads
@[simp] theorem State.setThr_ownerKey (s : State) (t : Nat) (x : Thread) : (s.setThr t x).ownerKey = s.ownerKey :=
  (fun x => (rfl : ({ s with threads := x } : State).ownerKey = s.ownerKey)) (s.setThr t x).threads
@[simp] theorem State.setThr_svcUp (s : State) (t : Nat) (x : Thread) : (s.setThr t x).svcUp = s.svcUp :=
  (fun x => (rfl : ({ s with threads := x } : State).svcUp = s.svcUp)) (s.setThr t x).threads
@[simp] theorem State.setThr_bar2 (s : State) (t : Nat) (x : Thread) : (s.setThr t x).bar2 = s.bar2 :=
  (fun x => (rfl : ({ s with threads := x } : State).bar2 = s.bar2)) (s.setThr t x).threads
@[simp] theorem State.setThr_svc (s : State) (t : Nat) (x : Thread) : (s.setThr t x).svc = s.svc :=
  (fun x => (rfl : ({ s with threads := x } : State).svc = s.svc)) (s.setThr t x).threads
@[simp] theorem State.setThr_msixBusy (s : State) (t : Nat) (x : Thread) : (s.setThr t x).msixBusy = s.msixBusy :=
  (fun x => (rfl : ({ s with threads := x } : State).msixBusy = s.msixBusy)) (s.setThr t x).threads
@[simp] theorem State.setThr_msixDue (s : State) (t : Nat) (x : Thread) : (s.setThr t x).msixDue = s.msixDue :=
  (fun x => (rfl : ({ s with threads := x } : State).msixDue = s.msixDue)) (s.setThr t x).threads
@[simp] theorem State.setThr_msixSent (s : State) (t : Nat) (x : Thread) : (s.setThr t x).msixSent = s.msixSent :=
  (fun x => (rfl : ({ s with threads := x } : State).msixSent = s.msixSent)) (s.setThr t x).threads
@[simp] theorem State.setThr_mfw (s : State) (t : Nat) (x : Thread) : (s.setThr t x).mfw = s.mfw :=
  (fun x => (rfl : ({ s with threads := x } : State).mfw = s.mfw)) (s.setThr t x).threads
@[simp] theorem State.setThr_released (s : State) (t : Nat) (x : Thread) : (s.setThr t x).released = s.released :=
  (fun x => (rfl : ({ s with threads := x } : State).released = s.released)) (s.setThr t x).threads
@[simp] theorem State.setThr_tkos (s : State) (t : Nat) (x : Thread) : (s.setThr t x).tkos = s.tkos :=
  (fun x => (rfl : ({ s with threads := x } : State).tkos = s.tkos)) (s.setThr t x).threads
@[simp] theorem State.setThr_nextReq (s : State) (t : Nat) (x : Thread) : (s.setThr t x).nextReq = s.nextReq :=
  (fun x => (rfl : ({ s with threads := x } : State).nextReq = s.nextReq)) (s.setThr t x).threads
@[simp] theorem State.setThr_fst (s : State) (t : Nat) (x : Thread) : (s.setThr t x).fst = s.fst :=
  (fun x => (rfl : ({ s with threads := x } : State).fst = s.fst)) (s.setThr t x).threads
@[simp] theorem State.setThr_mboxes (s : State) (t : Nat) (x : Thread) : (s.setThr t x).mboxes = s.mboxes :=
  (fun x => (rfl : ({ s with threads := x } : State).mboxes = s.mboxes)) (s.setThr t x).threads
@[simp] theorem State.setThr_pwr (s : State) (t : Nat) (x : Thread) : (s.setThr t x).pwr = s.pwr :=
  (fun x => (rfl : ({ s with threads := x } : State).pwr = s.pwr)) (s.setThr t x).threads
@[simp] theorem State.setThr_jtag (s : State) (t : Nat) (x : Thread) : (s.setThr t x).jtag = s.jtag :=
  (fun x => (rfl : ({ s with threads := x } : State).jtag = s.jtag)) (s.setThr t x).threads
@[simp] theorem State.setThr_scan (s : State) (t : Nat) (x : Thread) : (s.setThr t x).scan = s.scan :=
  (fun x => (rfl : ({ s with threads := x } : State).scan = s.scan)) (s.setThr t x).threads
@[simp] theorem State.setThr_i3c (s : State) (t : Nat) (x : Thread) : (s.setThr t x).i3c = s.i3c :=
  (fun x => (rfl : ({ s with threads := x } : State).i3c = s.i3c)) (s.setThr t x).threads
@[simp] theorem State.setThr_outAns (s : State) (t : Nat) (x : Thread) : (s.setThr t x).outAns = s.outAns :=
  (fun x => (rfl : ({ s with threads := x } : State).outAns = s.outAns)) (s.setThr t x).threads
@[simp] theorem State.setThr_portTx (s : State) (t : Nat) (x : Thread) : (s.setThr t x).portTx = s.portTx :=
  (fun x => (rfl : ({ s with threads := x } : State).portTx = s.portTx)) (s.setThr t x).threads
@[simp] theorem State.setThr_standRst (s : State) (t : Nat) (x : Thread) : (s.setThr t x).standRst = s.standRst :=
  (fun x => (rfl : ({ s with threads := x } : State).standRst = s.standRst)) (s.setThr t x).threads
@[simp] theorem State.setThr_gladeRst (s : State) (t : Nat) (x : Thread) : (s.setThr t x).gladeRst = s.gladeRst :=
  (fun x => (rfl : ({ s with threads := x } : State).gladeRst = s.gladeRst)) (s.setThr t x).threads
@[simp] theorem State.setThr_time (s : State) (t : Nat) (x : Thread) : (s.setThr t x).time = s.time :=
  (fun x => (rfl : ({ s with threads := x } : State).time = s.time)) (s.setThr t x).threads
@[simp] theorem State.setThr_uptime (s : State) (t : Nat) (x : Thread) : (s.setThr t x).uptime = s.uptime :=
  (fun x => (rfl : ({ s with threads := x } : State).uptime = s.uptime)) (s.setThr t x).threads
@[simp] theorem State.setThr_mem (s : State) (t : Nat) (x : Thread) : (s.setThr t x).mem = s.mem :=
  (fun x => (rfl : ({ s with threads := x } : State).mem = s.mem)) (s.setThr t x).threads
@[simp] theorem State.setThr_mpois (s : State) (t : Nat) (x : Thread) : (s.setThr t x).mpois = s.mpois :=
  (fun x => (rfl : ({ s with threads := x } : State).mpois = s.mpois)) (s.setThr t x).threads
@[simp] theorem State.setThr_lines (s : State) (t : Nat) (x : Thread) : (s.setThr t x).lines = s.lines :=
  (fun x => (rfl : ({ s with threads := x } : State).lines = s.lines)) (s.setThr t x).threads
@[simp] theorem State.setThr_canopy (s : State) (t : Nat) (x : Thread) : (s.setThr t x).canopy = s.canopy :=
  (fun x => (rfl : ({ s with threads := x } : State).canopy = s.canopy)) (s.setThr t x).threads
@[simp] theorem State.setThr_canDis (s : State) (t : Nat) (x : Thread) : (s.setThr t x).canDis = s.canDis :=
  (fun x => (rfl : ({ s with threads := x } : State).canDis = s.canDis)) (s.setThr t x).threads
@[simp] theorem State.setThr_home (s : State) (t : Nat) (x : Thread) : (s.setThr t x).home = s.home :=
  (fun x => (rfl : ({ s with threads := x } : State).home = s.home)) (s.setThr t x).threads
@[simp] theorem State.setThr_out (s : State) (t : Nat) (x : Thread) : (s.setThr t x).out = s.out :=
  (fun x => (rfl : ({ s with threads := x } : State).out = s.out)) (s.setThr t x).threads
@[simp] theorem State.setThr_purges (s : State) (t : Nat) (x : Thread) : (s.setThr t x).purges = s.purges :=
  (fun x => (rfl : ({ s with threads := x } : State).purges = s.purges)) (s.setThr t x).threads
@[simp] theorem State.setThr_inb (s : State) (t : Nat) (x : Thread) : (s.setThr t x).inb = s.inb :=
  (fun x => (rfl : ({ s with threads := x } : State).inb = s.inb)) (s.setThr t x).threads
@[simp] theorem State.setThr_snpQ (s : State) (t : Nat) (x : Thread) : (s.setThr t x).snpQ = s.snpQ :=
  (fun x => (rfl : ({ s with threads := x } : State).snpQ = s.snpQ)) (s.setThr t x).threads
@[simp] theorem State.setThr_gports (s : State) (t : Nat) (x : Thread) : (s.setThr t x).gports = s.gports :=
  (fun x => (rfl : ({ s with threads := x } : State).gports = s.gports)) (s.setThr t x).threads
@[simp] theorem State.setThr_peers (s : State) (t : Nat) (x : Thread) : (s.setThr t x).peers = s.peers :=
  (fun x => (rfl : ({ s with threads := x } : State).peers = s.peers)) (s.setThr t x).threads
@[simp] theorem State.setThr_roots (s : State) (t : Nat) (x : Thread) : (s.setThr t x).roots = s.roots :=
  (fun x => (rfl : ({ s with threads := x } : State).roots = s.roots)) (s.setThr t x).threads
@[simp] theorem State.setThr_failed (s : State) (t : Nat) (x : Thread) : (s.setThr t x).failed = s.failed :=
  (fun x => (rfl : ({ s with threads := x } : State).failed = s.failed)) (s.setThr t x).threads
@[simp] theorem State.setThr_glades (s : State) (t : Nat) (x : Thread) : (s.setThr t x).glades = s.glades :=
  (fun x => (rfl : ({ s with threads := x } : State).glades = s.glades)) (s.setThr t x).threads
@[simp] theorem State.setThr_engines (s : State) (t : Nat) (x : Thread) : (s.setThr t x).engines = s.engines :=
  (fun x => (rfl : ({ s with threads := x } : State).engines = s.engines)) (s.setThr t x).threads
@[simp] theorem State.setThr_kst (s : State) (t : Nat) (x : Thread) : (s.setThr t x).kst = s.kst :=
  (fun x => (rfl : ({ s with threads := x } : State).kst = s.kst)) (s.setThr t x).threads
@[simp] theorem State.setThr_cores (s : State) (t : Nat) (x : Thread) : (s.setThr t x).cores = s.cores :=
  (fun x => (rfl : ({ s with threads := x } : State).cores = s.cores)) (s.setThr t x).threads
@[simp] theorem State.setThr_rseq (s : State) (t : Nat) (x : Thread) : (s.setThr t x).rseq = s.rseq :=
  (fun x => (rfl : ({ s with threads := x } : State).rseq = s.rseq)) (s.setThr t x).threads
@[simp] theorem State.setThr_collHeld (s : State) (t : Nat) (x : Thread) : (s.setThr t x).collHeld = s.collHeld :=
  (fun x => (rfl : ({ s with threads := x } : State).collHeld = s.collHeld)) (s.setThr t x).threads
@[simp] theorem State.setThr_fq (s : State) (t : Nat) (x : Thread) : (s.setThr t x).fq = s.fq :=
  (fun x => (rfl : ({ s with threads := x } : State).fq = s.fq)) (s.setThr t x).threads
@[simp] theorem State.setThr_flog (s : State) (t : Nat) (x : Thread) : (s.setThr t x).flog = s.flog :=
  (fun x => (rfl : ({ s with threads := x } : State).flog = s.flog)) (s.setThr t x).threads
@[simp] theorem State.setThr_flogCnt (s : State) (t : Nat) (x : Thread) : (s.setThr t x).flogCnt = s.flogCnt :=
  (fun x => (rfl : ({ s with threads := x } : State).flogCnt = s.flogCnt)) (s.setThr t x).threads
@[simp] theorem State.setThr_flogWait (s : State) (t : Nat) (x : Thread) : (s.setThr t x).flogWait = s.flogWait :=
  (fun x => (rfl : ({ s with threads := x } : State).flogWait = s.flogWait)) (s.setThr t x).threads
@[simp] theorem State.setThr_wind (s : State) (t : Nat) (x : Thread) : (s.setThr t x).wind = s.wind :=
  (fun x => (rfl : ({ s with threads := x } : State).wind = s.wind)) (s.setThr t x).threads
@[simp] theorem State.setThr_windAge (s : State) (t : Nat) (x : Thread) : (s.setThr t x).windAge = s.windAge :=
  (fun x => (rfl : ({ s with threads := x } : State).windAge = s.windAge)) (s.setThr t x).threads

/-! setCore changes only `cores`. -/
@[simp] theorem State.setCore_pending (s : State) (c : Nat) (x : Core) : (s.setCore c x).pending = s.pending :=
  (fun x => (rfl : ({ s with cores := x } : State).pending = s.pending)) (s.setCore c x).cores
@[simp] theorem State.setCore_fresh (s : State) (c : Nat) (x : Core) : (s.setCore c x).fresh = s.fresh :=
  (fun x => (rfl : ({ s with cores := x } : State).fresh = s.fresh)) (s.setCore c x).cores
@[simp] theorem State.setCore_regs (s : State) (c : Nat) (x : Core) : (s.setCore c x).regs = s.regs :=
  (fun x => (rfl : ({ s with cores := x } : State).regs = s.regs)) (s.setCore c x).cores
@[simp] theorem State.setCore_active (s : State) (c : Nat) (x : Core) : (s.setCore c x).active = s.active :=
  (fun x => (rfl : ({ s with cores := x } : State).active = s.active)) (s.setCore c x).cores
@[simp] theorem State.setCore_retained (s : State) (c : Nat) (x : Core) : (s.setCore c x).retained = s.retained :=
  (fun x => (rfl : ({ s with cores := x } : State).retained = s.retained)) (s.setCore c x).cores
@[simp] theorem State.setCore_heldW (s : State) (c : Nat) (x : Core) : (s.setCore c x).heldW = s.heldW :=
  (fun x => (rfl : ({ s with cores := x } : State).heldW = s.heldW)) (s.setCore c x).cores
@[simp] theorem State.setCore_readData (s : State) (c : Nat) (x : Core) : (s.setCore c x).readData = s.readData :=
  (fun x => (rfl : ({ s with cores := x } : State).readData = s.readData)) (s.setCore c x).cores
@[simp] theorem State.setCore_ldr (s : State) (c : Nat) (x : Core) : (s.setCore c x).ldr = s.ldr :=
  (fun x => (rfl : ({ s with cores := x } : State).ldr = s.ldr)) (s.setCore c x).cores
@[simp] theorem State.setCore_clrs (s : State) (c : Nat) (x : Core) : (s.setCore c x).clrs = s.clrs :=
  (fun x => (rfl : ({ s with cores := x } : State).clrs = s.clrs)) (s.setCore c x).cores
@[simp] theorem State.setCore_pwrok (s : State) (c : Nat) (x : Core) : (s.setCore c x).pwrok = s.pwrok :=
  (fun x => (rfl : ({ s with cores := x } : State).pwrok = s.pwrok)) (s.setCore c x).cores
@[simp] theorem State.setCore_wthrow (s : State) (c : Nat) (x : Core) : (s.setCore c x).wthrow = s.wthrow :=
  (fun x => (rfl : ({ s with cores := x } : State).wthrow = s.wthrow)) (s.setCore c x).cores
@[simp] theorem State.setCore_thermtrip (s : State) (c : Nat) (x : Core) : (s.setCore c x).thermtrip = s.thermtrip :=
  (fun x => (rfl : ({ s with cores := x } : State).thermtrip = s.thermtrip)) (s.setCore c x).cores
@[simp] theorem State.setCore_rootHash (s : State) (c : Nat) (x : Core) : (s.setCore c x).rootHash = s.rootHash :=
  (fun x => (rfl : ({ s with cores := x } : State).rootHash = s.rootHash)) (s.setCore c x).cores
@[simp] theorem State.setCore_rootKey (s : State) (c : Nat) (x : Core) : (s.setCore c x).rootKey = s.rootKey :=
  (fun x => (rfl : ({ s with cores := x } : State).rootKey = s.rootKey)) (s.setCore c x).cores
@[simp] theorem State.setCore_ownerKey (s : State) (c : Nat) (x : Core) : (s.setCore c x).ownerKey = s.ownerKey :=
  (fun x => (rfl : ({ s with cores := x } : State).ownerKey = s.ownerKey)) (s.setCore c x).cores
@[simp] theorem State.setCore_svcUp (s : State) (c : Nat) (x : Core) : (s.setCore c x).svcUp = s.svcUp :=
  (fun x => (rfl : ({ s with cores := x } : State).svcUp = s.svcUp)) (s.setCore c x).cores
@[simp] theorem State.setCore_bar2 (s : State) (c : Nat) (x : Core) : (s.setCore c x).bar2 = s.bar2 :=
  (fun x => (rfl : ({ s with cores := x } : State).bar2 = s.bar2)) (s.setCore c x).cores
@[simp] theorem State.setCore_svc (s : State) (c : Nat) (x : Core) : (s.setCore c x).svc = s.svc :=
  (fun x => (rfl : ({ s with cores := x } : State).svc = s.svc)) (s.setCore c x).cores
@[simp] theorem State.setCore_msixBusy (s : State) (c : Nat) (x : Core) : (s.setCore c x).msixBusy = s.msixBusy :=
  (fun x => (rfl : ({ s with cores := x } : State).msixBusy = s.msixBusy)) (s.setCore c x).cores
@[simp] theorem State.setCore_msixDue (s : State) (c : Nat) (x : Core) : (s.setCore c x).msixDue = s.msixDue :=
  (fun x => (rfl : ({ s with cores := x } : State).msixDue = s.msixDue)) (s.setCore c x).cores
@[simp] theorem State.setCore_msixSent (s : State) (c : Nat) (x : Core) : (s.setCore c x).msixSent = s.msixSent :=
  (fun x => (rfl : ({ s with cores := x } : State).msixSent = s.msixSent)) (s.setCore c x).cores
@[simp] theorem State.setCore_mfw (s : State) (c : Nat) (x : Core) : (s.setCore c x).mfw = s.mfw :=
  (fun x => (rfl : ({ s with cores := x } : State).mfw = s.mfw)) (s.setCore c x).cores
@[simp] theorem State.setCore_released (s : State) (c : Nat) (x : Core) : (s.setCore c x).released = s.released :=
  (fun x => (rfl : ({ s with cores := x } : State).released = s.released)) (s.setCore c x).cores
@[simp] theorem State.setCore_tkos (s : State) (c : Nat) (x : Core) : (s.setCore c x).tkos = s.tkos :=
  (fun x => (rfl : ({ s with cores := x } : State).tkos = s.tkos)) (s.setCore c x).cores
@[simp] theorem State.setCore_nextReq (s : State) (c : Nat) (x : Core) : (s.setCore c x).nextReq = s.nextReq :=
  (fun x => (rfl : ({ s with cores := x } : State).nextReq = s.nextReq)) (s.setCore c x).cores
@[simp] theorem State.setCore_fst (s : State) (c : Nat) (x : Core) : (s.setCore c x).fst = s.fst :=
  (fun x => (rfl : ({ s with cores := x } : State).fst = s.fst)) (s.setCore c x).cores
@[simp] theorem State.setCore_mboxes (s : State) (c : Nat) (x : Core) : (s.setCore c x).mboxes = s.mboxes :=
  (fun x => (rfl : ({ s with cores := x } : State).mboxes = s.mboxes)) (s.setCore c x).cores
@[simp] theorem State.setCore_pwr (s : State) (c : Nat) (x : Core) : (s.setCore c x).pwr = s.pwr :=
  (fun x => (rfl : ({ s with cores := x } : State).pwr = s.pwr)) (s.setCore c x).cores
@[simp] theorem State.setCore_jtag (s : State) (c : Nat) (x : Core) : (s.setCore c x).jtag = s.jtag :=
  (fun x => (rfl : ({ s with cores := x } : State).jtag = s.jtag)) (s.setCore c x).cores
@[simp] theorem State.setCore_scan (s : State) (c : Nat) (x : Core) : (s.setCore c x).scan = s.scan :=
  (fun x => (rfl : ({ s with cores := x } : State).scan = s.scan)) (s.setCore c x).cores
@[simp] theorem State.setCore_i3c (s : State) (c : Nat) (x : Core) : (s.setCore c x).i3c = s.i3c :=
  (fun x => (rfl : ({ s with cores := x } : State).i3c = s.i3c)) (s.setCore c x).cores
@[simp] theorem State.setCore_outAns (s : State) (c : Nat) (x : Core) : (s.setCore c x).outAns = s.outAns :=
  (fun x => (rfl : ({ s with cores := x } : State).outAns = s.outAns)) (s.setCore c x).cores
@[simp] theorem State.setCore_portTx (s : State) (c : Nat) (x : Core) : (s.setCore c x).portTx = s.portTx :=
  (fun x => (rfl : ({ s with cores := x } : State).portTx = s.portTx)) (s.setCore c x).cores
@[simp] theorem State.setCore_standRst (s : State) (c : Nat) (x : Core) : (s.setCore c x).standRst = s.standRst :=
  (fun x => (rfl : ({ s with cores := x } : State).standRst = s.standRst)) (s.setCore c x).cores
@[simp] theorem State.setCore_gladeRst (s : State) (c : Nat) (x : Core) : (s.setCore c x).gladeRst = s.gladeRst :=
  (fun x => (rfl : ({ s with cores := x } : State).gladeRst = s.gladeRst)) (s.setCore c x).cores
@[simp] theorem State.setCore_time (s : State) (c : Nat) (x : Core) : (s.setCore c x).time = s.time :=
  (fun x => (rfl : ({ s with cores := x } : State).time = s.time)) (s.setCore c x).cores
@[simp] theorem State.setCore_uptime (s : State) (c : Nat) (x : Core) : (s.setCore c x).uptime = s.uptime :=
  (fun x => (rfl : ({ s with cores := x } : State).uptime = s.uptime)) (s.setCore c x).cores
@[simp] theorem State.setCore_mem (s : State) (c : Nat) (x : Core) : (s.setCore c x).mem = s.mem :=
  (fun x => (rfl : ({ s with cores := x } : State).mem = s.mem)) (s.setCore c x).cores
@[simp] theorem State.setCore_mpois (s : State) (c : Nat) (x : Core) : (s.setCore c x).mpois = s.mpois :=
  (fun x => (rfl : ({ s with cores := x } : State).mpois = s.mpois)) (s.setCore c x).cores
@[simp] theorem State.setCore_lines (s : State) (c : Nat) (x : Core) : (s.setCore c x).lines = s.lines :=
  (fun x => (rfl : ({ s with cores := x } : State).lines = s.lines)) (s.setCore c x).cores
@[simp] theorem State.setCore_canopy (s : State) (c : Nat) (x : Core) : (s.setCore c x).canopy = s.canopy :=
  (fun x => (rfl : ({ s with cores := x } : State).canopy = s.canopy)) (s.setCore c x).cores
@[simp] theorem State.setCore_canDis (s : State) (c : Nat) (x : Core) : (s.setCore c x).canDis = s.canDis :=
  (fun x => (rfl : ({ s with cores := x } : State).canDis = s.canDis)) (s.setCore c x).cores
@[simp] theorem State.setCore_home (s : State) (c : Nat) (x : Core) : (s.setCore c x).home = s.home :=
  (fun x => (rfl : ({ s with cores := x } : State).home = s.home)) (s.setCore c x).cores
@[simp] theorem State.setCore_out (s : State) (c : Nat) (x : Core) : (s.setCore c x).out = s.out :=
  (fun x => (rfl : ({ s with cores := x } : State).out = s.out)) (s.setCore c x).cores
@[simp] theorem State.setCore_purges (s : State) (c : Nat) (x : Core) : (s.setCore c x).purges = s.purges :=
  (fun x => (rfl : ({ s with cores := x } : State).purges = s.purges)) (s.setCore c x).cores
@[simp] theorem State.setCore_inb (s : State) (c : Nat) (x : Core) : (s.setCore c x).inb = s.inb :=
  (fun x => (rfl : ({ s with cores := x } : State).inb = s.inb)) (s.setCore c x).cores
@[simp] theorem State.setCore_snpQ (s : State) (c : Nat) (x : Core) : (s.setCore c x).snpQ = s.snpQ :=
  (fun x => (rfl : ({ s with cores := x } : State).snpQ = s.snpQ)) (s.setCore c x).cores
@[simp] theorem State.setCore_gports (s : State) (c : Nat) (x : Core) : (s.setCore c x).gports = s.gports :=
  (fun x => (rfl : ({ s with cores := x } : State).gports = s.gports)) (s.setCore c x).cores
@[simp] theorem State.setCore_peers (s : State) (c : Nat) (x : Core) : (s.setCore c x).peers = s.peers :=
  (fun x => (rfl : ({ s with cores := x } : State).peers = s.peers)) (s.setCore c x).cores
@[simp] theorem State.setCore_roots (s : State) (c : Nat) (x : Core) : (s.setCore c x).roots = s.roots :=
  (fun x => (rfl : ({ s with cores := x } : State).roots = s.roots)) (s.setCore c x).cores
@[simp] theorem State.setCore_failed (s : State) (c : Nat) (x : Core) : (s.setCore c x).failed = s.failed :=
  (fun x => (rfl : ({ s with cores := x } : State).failed = s.failed)) (s.setCore c x).cores
@[simp] theorem State.setCore_glades (s : State) (c : Nat) (x : Core) : (s.setCore c x).glades = s.glades :=
  (fun x => (rfl : ({ s with cores := x } : State).glades = s.glades)) (s.setCore c x).cores
@[simp] theorem State.setCore_engines (s : State) (c : Nat) (x : Core) : (s.setCore c x).engines = s.engines :=
  (fun x => (rfl : ({ s with cores := x } : State).engines = s.engines)) (s.setCore c x).cores
@[simp] theorem State.setCore_kst (s : State) (c : Nat) (x : Core) : (s.setCore c x).kst = s.kst :=
  (fun x => (rfl : ({ s with cores := x } : State).kst = s.kst)) (s.setCore c x).cores
@[simp] theorem State.setCore_threads (s : State) (c : Nat) (x : Core) : (s.setCore c x).threads = s.threads :=
  (fun x => (rfl : ({ s with cores := x } : State).threads = s.threads)) (s.setCore c x).cores
@[simp] theorem State.setCore_rseq (s : State) (c : Nat) (x : Core) : (s.setCore c x).rseq = s.rseq :=
  (fun x => (rfl : ({ s with cores := x } : State).rseq = s.rseq)) (s.setCore c x).cores
@[simp] theorem State.setCore_collHeld (s : State) (c : Nat) (x : Core) : (s.setCore c x).collHeld = s.collHeld :=
  (fun x => (rfl : ({ s with cores := x } : State).collHeld = s.collHeld)) (s.setCore c x).cores
@[simp] theorem State.setCore_fq (s : State) (c : Nat) (x : Core) : (s.setCore c x).fq = s.fq :=
  (fun x => (rfl : ({ s with cores := x } : State).fq = s.fq)) (s.setCore c x).cores
@[simp] theorem State.setCore_flog (s : State) (c : Nat) (x : Core) : (s.setCore c x).flog = s.flog :=
  (fun x => (rfl : ({ s with cores := x } : State).flog = s.flog)) (s.setCore c x).cores
@[simp] theorem State.setCore_flogCnt (s : State) (c : Nat) (x : Core) : (s.setCore c x).flogCnt = s.flogCnt :=
  (fun x => (rfl : ({ s with cores := x } : State).flogCnt = s.flogCnt)) (s.setCore c x).cores
@[simp] theorem State.setCore_flogWait (s : State) (c : Nat) (x : Core) : (s.setCore c x).flogWait = s.flogWait :=
  (fun x => (rfl : ({ s with cores := x } : State).flogWait = s.flogWait)) (s.setCore c x).cores
@[simp] theorem State.setCore_wind (s : State) (c : Nat) (x : Core) : (s.setCore c x).wind = s.wind :=
  (fun x => (rfl : ({ s with cores := x } : State).wind = s.wind)) (s.setCore c x).cores
@[simp] theorem State.setCore_windAge (s : State) (c : Nat) (x : Core) : (s.setCore c x).windAge = s.windAge :=
  (fun x => (rfl : ({ s with cores := x } : State).windAge = s.windAge)) (s.setCore c x).cores

/-! setLogSlot changes only `flog`. -/
@[simp] theorem State.setLogSlot_pending (s : State) (i : Nat) (r : Option Rec) : (s.setLogSlot i r).pending = s.pending :=
  (fun x => (rfl : ({ s with flog := x } : State).pending = s.pending)) (s.setLogSlot i r).flog
@[simp] theorem State.setLogSlot_fresh (s : State) (i : Nat) (r : Option Rec) : (s.setLogSlot i r).fresh = s.fresh :=
  (fun x => (rfl : ({ s with flog := x } : State).fresh = s.fresh)) (s.setLogSlot i r).flog
@[simp] theorem State.setLogSlot_regs (s : State) (i : Nat) (r : Option Rec) : (s.setLogSlot i r).regs = s.regs :=
  (fun x => (rfl : ({ s with flog := x } : State).regs = s.regs)) (s.setLogSlot i r).flog
@[simp] theorem State.setLogSlot_active (s : State) (i : Nat) (r : Option Rec) : (s.setLogSlot i r).active = s.active :=
  (fun x => (rfl : ({ s with flog := x } : State).active = s.active)) (s.setLogSlot i r).flog
@[simp] theorem State.setLogSlot_retained (s : State) (i : Nat) (r : Option Rec) : (s.setLogSlot i r).retained = s.retained :=
  (fun x => (rfl : ({ s with flog := x } : State).retained = s.retained)) (s.setLogSlot i r).flog
@[simp] theorem State.setLogSlot_heldW (s : State) (i : Nat) (r : Option Rec) : (s.setLogSlot i r).heldW = s.heldW :=
  (fun x => (rfl : ({ s with flog := x } : State).heldW = s.heldW)) (s.setLogSlot i r).flog
@[simp] theorem State.setLogSlot_readData (s : State) (i : Nat) (r : Option Rec) : (s.setLogSlot i r).readData = s.readData :=
  (fun x => (rfl : ({ s with flog := x } : State).readData = s.readData)) (s.setLogSlot i r).flog
@[simp] theorem State.setLogSlot_ldr (s : State) (i : Nat) (r : Option Rec) : (s.setLogSlot i r).ldr = s.ldr :=
  (fun x => (rfl : ({ s with flog := x } : State).ldr = s.ldr)) (s.setLogSlot i r).flog
@[simp] theorem State.setLogSlot_clrs (s : State) (i : Nat) (r : Option Rec) : (s.setLogSlot i r).clrs = s.clrs :=
  (fun x => (rfl : ({ s with flog := x } : State).clrs = s.clrs)) (s.setLogSlot i r).flog
@[simp] theorem State.setLogSlot_pwrok (s : State) (i : Nat) (r : Option Rec) : (s.setLogSlot i r).pwrok = s.pwrok :=
  (fun x => (rfl : ({ s with flog := x } : State).pwrok = s.pwrok)) (s.setLogSlot i r).flog
@[simp] theorem State.setLogSlot_wthrow (s : State) (i : Nat) (r : Option Rec) : (s.setLogSlot i r).wthrow = s.wthrow :=
  (fun x => (rfl : ({ s with flog := x } : State).wthrow = s.wthrow)) (s.setLogSlot i r).flog
@[simp] theorem State.setLogSlot_thermtrip (s : State) (i : Nat) (r : Option Rec) : (s.setLogSlot i r).thermtrip = s.thermtrip :=
  (fun x => (rfl : ({ s with flog := x } : State).thermtrip = s.thermtrip)) (s.setLogSlot i r).flog
@[simp] theorem State.setLogSlot_rootHash (s : State) (i : Nat) (r : Option Rec) : (s.setLogSlot i r).rootHash = s.rootHash :=
  (fun x => (rfl : ({ s with flog := x } : State).rootHash = s.rootHash)) (s.setLogSlot i r).flog
@[simp] theorem State.setLogSlot_rootKey (s : State) (i : Nat) (r : Option Rec) : (s.setLogSlot i r).rootKey = s.rootKey :=
  (fun x => (rfl : ({ s with flog := x } : State).rootKey = s.rootKey)) (s.setLogSlot i r).flog
@[simp] theorem State.setLogSlot_ownerKey (s : State) (i : Nat) (r : Option Rec) : (s.setLogSlot i r).ownerKey = s.ownerKey :=
  (fun x => (rfl : ({ s with flog := x } : State).ownerKey = s.ownerKey)) (s.setLogSlot i r).flog
@[simp] theorem State.setLogSlot_svcUp (s : State) (i : Nat) (r : Option Rec) : (s.setLogSlot i r).svcUp = s.svcUp :=
  (fun x => (rfl : ({ s with flog := x } : State).svcUp = s.svcUp)) (s.setLogSlot i r).flog
@[simp] theorem State.setLogSlot_bar2 (s : State) (i : Nat) (r : Option Rec) : (s.setLogSlot i r).bar2 = s.bar2 :=
  (fun x => (rfl : ({ s with flog := x } : State).bar2 = s.bar2)) (s.setLogSlot i r).flog
@[simp] theorem State.setLogSlot_svc (s : State) (i : Nat) (r : Option Rec) : (s.setLogSlot i r).svc = s.svc :=
  (fun x => (rfl : ({ s with flog := x } : State).svc = s.svc)) (s.setLogSlot i r).flog
@[simp] theorem State.setLogSlot_msixBusy (s : State) (i : Nat) (r : Option Rec) : (s.setLogSlot i r).msixBusy = s.msixBusy :=
  (fun x => (rfl : ({ s with flog := x } : State).msixBusy = s.msixBusy)) (s.setLogSlot i r).flog
@[simp] theorem State.setLogSlot_msixDue (s : State) (i : Nat) (r : Option Rec) : (s.setLogSlot i r).msixDue = s.msixDue :=
  (fun x => (rfl : ({ s with flog := x } : State).msixDue = s.msixDue)) (s.setLogSlot i r).flog
@[simp] theorem State.setLogSlot_msixSent (s : State) (i : Nat) (r : Option Rec) : (s.setLogSlot i r).msixSent = s.msixSent :=
  (fun x => (rfl : ({ s with flog := x } : State).msixSent = s.msixSent)) (s.setLogSlot i r).flog
@[simp] theorem State.setLogSlot_mfw (s : State) (i : Nat) (r : Option Rec) : (s.setLogSlot i r).mfw = s.mfw :=
  (fun x => (rfl : ({ s with flog := x } : State).mfw = s.mfw)) (s.setLogSlot i r).flog
@[simp] theorem State.setLogSlot_released (s : State) (i : Nat) (r : Option Rec) : (s.setLogSlot i r).released = s.released :=
  (fun x => (rfl : ({ s with flog := x } : State).released = s.released)) (s.setLogSlot i r).flog
@[simp] theorem State.setLogSlot_tkos (s : State) (i : Nat) (r : Option Rec) : (s.setLogSlot i r).tkos = s.tkos :=
  (fun x => (rfl : ({ s with flog := x } : State).tkos = s.tkos)) (s.setLogSlot i r).flog
@[simp] theorem State.setLogSlot_nextReq (s : State) (i : Nat) (r : Option Rec) : (s.setLogSlot i r).nextReq = s.nextReq :=
  (fun x => (rfl : ({ s with flog := x } : State).nextReq = s.nextReq)) (s.setLogSlot i r).flog
@[simp] theorem State.setLogSlot_fst (s : State) (i : Nat) (r : Option Rec) : (s.setLogSlot i r).fst = s.fst :=
  (fun x => (rfl : ({ s with flog := x } : State).fst = s.fst)) (s.setLogSlot i r).flog
@[simp] theorem State.setLogSlot_mboxes (s : State) (i : Nat) (r : Option Rec) : (s.setLogSlot i r).mboxes = s.mboxes :=
  (fun x => (rfl : ({ s with flog := x } : State).mboxes = s.mboxes)) (s.setLogSlot i r).flog
@[simp] theorem State.setLogSlot_pwr (s : State) (i : Nat) (r : Option Rec) : (s.setLogSlot i r).pwr = s.pwr :=
  (fun x => (rfl : ({ s with flog := x } : State).pwr = s.pwr)) (s.setLogSlot i r).flog
@[simp] theorem State.setLogSlot_jtag (s : State) (i : Nat) (r : Option Rec) : (s.setLogSlot i r).jtag = s.jtag :=
  (fun x => (rfl : ({ s with flog := x } : State).jtag = s.jtag)) (s.setLogSlot i r).flog
@[simp] theorem State.setLogSlot_scan (s : State) (i : Nat) (r : Option Rec) : (s.setLogSlot i r).scan = s.scan :=
  (fun x => (rfl : ({ s with flog := x } : State).scan = s.scan)) (s.setLogSlot i r).flog
@[simp] theorem State.setLogSlot_i3c (s : State) (i : Nat) (r : Option Rec) : (s.setLogSlot i r).i3c = s.i3c :=
  (fun x => (rfl : ({ s with flog := x } : State).i3c = s.i3c)) (s.setLogSlot i r).flog
@[simp] theorem State.setLogSlot_outAns (s : State) (i : Nat) (r : Option Rec) : (s.setLogSlot i r).outAns = s.outAns :=
  (fun x => (rfl : ({ s with flog := x } : State).outAns = s.outAns)) (s.setLogSlot i r).flog
@[simp] theorem State.setLogSlot_portTx (s : State) (i : Nat) (r : Option Rec) : (s.setLogSlot i r).portTx = s.portTx :=
  (fun x => (rfl : ({ s with flog := x } : State).portTx = s.portTx)) (s.setLogSlot i r).flog
@[simp] theorem State.setLogSlot_standRst (s : State) (i : Nat) (r : Option Rec) : (s.setLogSlot i r).standRst = s.standRst :=
  (fun x => (rfl : ({ s with flog := x } : State).standRst = s.standRst)) (s.setLogSlot i r).flog
@[simp] theorem State.setLogSlot_gladeRst (s : State) (i : Nat) (r : Option Rec) : (s.setLogSlot i r).gladeRst = s.gladeRst :=
  (fun x => (rfl : ({ s with flog := x } : State).gladeRst = s.gladeRst)) (s.setLogSlot i r).flog
@[simp] theorem State.setLogSlot_time (s : State) (i : Nat) (r : Option Rec) : (s.setLogSlot i r).time = s.time :=
  (fun x => (rfl : ({ s with flog := x } : State).time = s.time)) (s.setLogSlot i r).flog
@[simp] theorem State.setLogSlot_uptime (s : State) (i : Nat) (r : Option Rec) : (s.setLogSlot i r).uptime = s.uptime :=
  (fun x => (rfl : ({ s with flog := x } : State).uptime = s.uptime)) (s.setLogSlot i r).flog
@[simp] theorem State.setLogSlot_mem (s : State) (i : Nat) (r : Option Rec) : (s.setLogSlot i r).mem = s.mem :=
  (fun x => (rfl : ({ s with flog := x } : State).mem = s.mem)) (s.setLogSlot i r).flog
@[simp] theorem State.setLogSlot_mpois (s : State) (i : Nat) (r : Option Rec) : (s.setLogSlot i r).mpois = s.mpois :=
  (fun x => (rfl : ({ s with flog := x } : State).mpois = s.mpois)) (s.setLogSlot i r).flog
@[simp] theorem State.setLogSlot_lines (s : State) (i : Nat) (r : Option Rec) : (s.setLogSlot i r).lines = s.lines :=
  (fun x => (rfl : ({ s with flog := x } : State).lines = s.lines)) (s.setLogSlot i r).flog
@[simp] theorem State.setLogSlot_canopy (s : State) (i : Nat) (r : Option Rec) : (s.setLogSlot i r).canopy = s.canopy :=
  (fun x => (rfl : ({ s with flog := x } : State).canopy = s.canopy)) (s.setLogSlot i r).flog
@[simp] theorem State.setLogSlot_canDis (s : State) (i : Nat) (r : Option Rec) : (s.setLogSlot i r).canDis = s.canDis :=
  (fun x => (rfl : ({ s with flog := x } : State).canDis = s.canDis)) (s.setLogSlot i r).flog
@[simp] theorem State.setLogSlot_home (s : State) (i : Nat) (r : Option Rec) : (s.setLogSlot i r).home = s.home :=
  (fun x => (rfl : ({ s with flog := x } : State).home = s.home)) (s.setLogSlot i r).flog
@[simp] theorem State.setLogSlot_out (s : State) (i : Nat) (r : Option Rec) : (s.setLogSlot i r).out = s.out :=
  (fun x => (rfl : ({ s with flog := x } : State).out = s.out)) (s.setLogSlot i r).flog
@[simp] theorem State.setLogSlot_purges (s : State) (i : Nat) (r : Option Rec) : (s.setLogSlot i r).purges = s.purges :=
  (fun x => (rfl : ({ s with flog := x } : State).purges = s.purges)) (s.setLogSlot i r).flog
@[simp] theorem State.setLogSlot_inb (s : State) (i : Nat) (r : Option Rec) : (s.setLogSlot i r).inb = s.inb :=
  (fun x => (rfl : ({ s with flog := x } : State).inb = s.inb)) (s.setLogSlot i r).flog
@[simp] theorem State.setLogSlot_snpQ (s : State) (i : Nat) (r : Option Rec) : (s.setLogSlot i r).snpQ = s.snpQ :=
  (fun x => (rfl : ({ s with flog := x } : State).snpQ = s.snpQ)) (s.setLogSlot i r).flog
@[simp] theorem State.setLogSlot_gports (s : State) (i : Nat) (r : Option Rec) : (s.setLogSlot i r).gports = s.gports :=
  (fun x => (rfl : ({ s with flog := x } : State).gports = s.gports)) (s.setLogSlot i r).flog
@[simp] theorem State.setLogSlot_peers (s : State) (i : Nat) (r : Option Rec) : (s.setLogSlot i r).peers = s.peers :=
  (fun x => (rfl : ({ s with flog := x } : State).peers = s.peers)) (s.setLogSlot i r).flog
@[simp] theorem State.setLogSlot_roots (s : State) (i : Nat) (r : Option Rec) : (s.setLogSlot i r).roots = s.roots :=
  (fun x => (rfl : ({ s with flog := x } : State).roots = s.roots)) (s.setLogSlot i r).flog
@[simp] theorem State.setLogSlot_failed (s : State) (i : Nat) (r : Option Rec) : (s.setLogSlot i r).failed = s.failed :=
  (fun x => (rfl : ({ s with flog := x } : State).failed = s.failed)) (s.setLogSlot i r).flog
@[simp] theorem State.setLogSlot_glades (s : State) (i : Nat) (r : Option Rec) : (s.setLogSlot i r).glades = s.glades :=
  (fun x => (rfl : ({ s with flog := x } : State).glades = s.glades)) (s.setLogSlot i r).flog
@[simp] theorem State.setLogSlot_engines (s : State) (i : Nat) (r : Option Rec) : (s.setLogSlot i r).engines = s.engines :=
  (fun x => (rfl : ({ s with flog := x } : State).engines = s.engines)) (s.setLogSlot i r).flog
@[simp] theorem State.setLogSlot_kst (s : State) (i : Nat) (r : Option Rec) : (s.setLogSlot i r).kst = s.kst :=
  (fun x => (rfl : ({ s with flog := x } : State).kst = s.kst)) (s.setLogSlot i r).flog
@[simp] theorem State.setLogSlot_threads (s : State) (i : Nat) (r : Option Rec) : (s.setLogSlot i r).threads = s.threads :=
  (fun x => (rfl : ({ s with flog := x } : State).threads = s.threads)) (s.setLogSlot i r).flog
@[simp] theorem State.setLogSlot_cores (s : State) (i : Nat) (r : Option Rec) : (s.setLogSlot i r).cores = s.cores :=
  (fun x => (rfl : ({ s with flog := x } : State).cores = s.cores)) (s.setLogSlot i r).flog
@[simp] theorem State.setLogSlot_rseq (s : State) (i : Nat) (r : Option Rec) : (s.setLogSlot i r).rseq = s.rseq :=
  (fun x => (rfl : ({ s with flog := x } : State).rseq = s.rseq)) (s.setLogSlot i r).flog
@[simp] theorem State.setLogSlot_collHeld (s : State) (i : Nat) (r : Option Rec) : (s.setLogSlot i r).collHeld = s.collHeld :=
  (fun x => (rfl : ({ s with flog := x } : State).collHeld = s.collHeld)) (s.setLogSlot i r).flog
@[simp] theorem State.setLogSlot_fq (s : State) (i : Nat) (r : Option Rec) : (s.setLogSlot i r).fq = s.fq :=
  (fun x => (rfl : ({ s with flog := x } : State).fq = s.fq)) (s.setLogSlot i r).flog
@[simp] theorem State.setLogSlot_flogCnt (s : State) (i : Nat) (r : Option Rec) : (s.setLogSlot i r).flogCnt = s.flogCnt :=
  (fun x => (rfl : ({ s with flog := x } : State).flogCnt = s.flogCnt)) (s.setLogSlot i r).flog
@[simp] theorem State.setLogSlot_flogWait (s : State) (i : Nat) (r : Option Rec) : (s.setLogSlot i r).flogWait = s.flogWait :=
  (fun x => (rfl : ({ s with flog := x } : State).flogWait = s.flogWait)) (s.setLogSlot i r).flog
@[simp] theorem State.setLogSlot_wind (s : State) (i : Nat) (r : Option Rec) : (s.setLogSlot i r).wind = s.wind :=
  (fun x => (rfl : ({ s with flog := x } : State).wind = s.wind)) (s.setLogSlot i r).flog
@[simp] theorem State.setLogSlot_windAge (s : State) (i : Nat) (r : Option Rec) : (s.setLogSlot i r).windAge = s.windAge :=
  (fun x => (rfl : ({ s with flog := x } : State).windAge = s.windAge)) (s.setLogSlot i r).flog

/-! tickFree changes only `fresh`. -/
@[simp] theorem State.tickFree_pending (s : State) : s.tickFree.pending = s.pending := rfl
@[simp] theorem State.tickFree_regs (s : State) : s.tickFree.regs = s.regs := rfl
@[simp] theorem State.tickFree_active (s : State) : s.tickFree.active = s.active := rfl
@[simp] theorem State.tickFree_retained (s : State) : s.tickFree.retained = s.retained := rfl
@[simp] theorem State.tickFree_heldW (s : State) : s.tickFree.heldW = s.heldW := rfl
@[simp] theorem State.tickFree_readData (s : State) : s.tickFree.readData = s.readData := rfl
@[simp] theorem State.tickFree_ldr (s : State) : s.tickFree.ldr = s.ldr := rfl
@[simp] theorem State.tickFree_clrs (s : State) : s.tickFree.clrs = s.clrs := rfl
@[simp] theorem State.tickFree_pwrok (s : State) : s.tickFree.pwrok = s.pwrok := rfl
@[simp] theorem State.tickFree_wthrow (s : State) : s.tickFree.wthrow = s.wthrow := rfl
@[simp] theorem State.tickFree_thermtrip (s : State) : s.tickFree.thermtrip = s.thermtrip := rfl
@[simp] theorem State.tickFree_rootHash (s : State) : s.tickFree.rootHash = s.rootHash := rfl
@[simp] theorem State.tickFree_rootKey (s : State) : s.tickFree.rootKey = s.rootKey := rfl
@[simp] theorem State.tickFree_ownerKey (s : State) : s.tickFree.ownerKey = s.ownerKey := rfl
@[simp] theorem State.tickFree_svcUp (s : State) : s.tickFree.svcUp = s.svcUp := rfl
@[simp] theorem State.tickFree_bar2 (s : State) : s.tickFree.bar2 = s.bar2 := rfl
@[simp] theorem State.tickFree_svc (s : State) : s.tickFree.svc = s.svc := rfl
@[simp] theorem State.tickFree_msixBusy (s : State) : s.tickFree.msixBusy = s.msixBusy := rfl
@[simp] theorem State.tickFree_msixDue (s : State) : s.tickFree.msixDue = s.msixDue := rfl
@[simp] theorem State.tickFree_msixSent (s : State) : s.tickFree.msixSent = s.msixSent := rfl
@[simp] theorem State.tickFree_mfw (s : State) : s.tickFree.mfw = s.mfw := rfl
@[simp] theorem State.tickFree_released (s : State) : s.tickFree.released = s.released := rfl
@[simp] theorem State.tickFree_tkos (s : State) : s.tickFree.tkos = s.tkos := rfl
@[simp] theorem State.tickFree_nextReq (s : State) : s.tickFree.nextReq = s.nextReq := rfl
@[simp] theorem State.tickFree_fst (s : State) : s.tickFree.fst = s.fst := rfl
@[simp] theorem State.tickFree_mboxes (s : State) : s.tickFree.mboxes = s.mboxes := rfl
@[simp] theorem State.tickFree_pwr (s : State) : s.tickFree.pwr = s.pwr := rfl
@[simp] theorem State.tickFree_jtag (s : State) : s.tickFree.jtag = s.jtag := rfl
@[simp] theorem State.tickFree_scan (s : State) : s.tickFree.scan = s.scan := rfl
@[simp] theorem State.tickFree_i3c (s : State) : s.tickFree.i3c = s.i3c := rfl
@[simp] theorem State.tickFree_outAns (s : State) : s.tickFree.outAns = s.outAns := rfl
@[simp] theorem State.tickFree_portTx (s : State) : s.tickFree.portTx = s.portTx := rfl
@[simp] theorem State.tickFree_standRst (s : State) : s.tickFree.standRst = s.standRst := rfl
@[simp] theorem State.tickFree_gladeRst (s : State) : s.tickFree.gladeRst = s.gladeRst := rfl
@[simp] theorem State.tickFree_time (s : State) : s.tickFree.time = s.time := rfl
@[simp] theorem State.tickFree_uptime (s : State) : s.tickFree.uptime = s.uptime := rfl
@[simp] theorem State.tickFree_mem (s : State) : s.tickFree.mem = s.mem := rfl
@[simp] theorem State.tickFree_mpois (s : State) : s.tickFree.mpois = s.mpois := rfl
@[simp] theorem State.tickFree_lines (s : State) : s.tickFree.lines = s.lines := rfl
@[simp] theorem State.tickFree_canopy (s : State) : s.tickFree.canopy = s.canopy := rfl
@[simp] theorem State.tickFree_canDis (s : State) : s.tickFree.canDis = s.canDis := rfl
@[simp] theorem State.tickFree_home (s : State) : s.tickFree.home = s.home := rfl
@[simp] theorem State.tickFree_out (s : State) : s.tickFree.out = s.out := rfl
@[simp] theorem State.tickFree_purges (s : State) : s.tickFree.purges = s.purges := rfl
@[simp] theorem State.tickFree_inb (s : State) : s.tickFree.inb = s.inb := rfl
@[simp] theorem State.tickFree_snpQ (s : State) : s.tickFree.snpQ = s.snpQ := rfl
@[simp] theorem State.tickFree_gports (s : State) : s.tickFree.gports = s.gports := rfl
@[simp] theorem State.tickFree_peers (s : State) : s.tickFree.peers = s.peers := rfl
@[simp] theorem State.tickFree_roots (s : State) : s.tickFree.roots = s.roots := rfl
@[simp] theorem State.tickFree_failed (s : State) : s.tickFree.failed = s.failed := rfl
@[simp] theorem State.tickFree_glades (s : State) : s.tickFree.glades = s.glades := rfl
@[simp] theorem State.tickFree_engines (s : State) : s.tickFree.engines = s.engines := rfl
@[simp] theorem State.tickFree_kst (s : State) : s.tickFree.kst = s.kst := rfl
@[simp] theorem State.tickFree_threads (s : State) : s.tickFree.threads = s.threads := rfl
@[simp] theorem State.tickFree_cores (s : State) : s.tickFree.cores = s.cores := rfl
@[simp] theorem State.tickFree_rseq (s : State) : s.tickFree.rseq = s.rseq := rfl
@[simp] theorem State.tickFree_collHeld (s : State) : s.tickFree.collHeld = s.collHeld := rfl
@[simp] theorem State.tickFree_fq (s : State) : s.tickFree.fq = s.fq := rfl
@[simp] theorem State.tickFree_flog (s : State) : s.tickFree.flog = s.flog := rfl
@[simp] theorem State.tickFree_flogCnt (s : State) : s.tickFree.flogCnt = s.flogCnt := rfl
@[simp] theorem State.tickFree_flogWait (s : State) : s.tickFree.flogWait = s.flogWait := rfl
@[simp] theorem State.tickFree_wind (s : State) : s.tickFree.wind = s.wind := rfl
@[simp] theorem State.tickFree_windAge (s : State) : s.tickFree.windAge = s.windAge := rfl
@[simp] theorem State.tickFree_fresh (s : State) : s.tickFree.fresh = s.fresh + 1 := rfl

/-! setMemLine changes only `mem` and `mpois`. -/
@[simp] theorem State.setMemLine_pending (s : State) (n la : Nat) (d : LineData) (p : Bool) : (s.setMemLine n la d p).pending = s.pending :=
  (fun x y => (rfl : ({ s with mem := x, mpois := y } : State).pending = s.pending)) (s.setMemLine n la d p).mem (s.setMemLine n la d p).mpois
@[simp] theorem State.setMemLine_fresh (s : State) (n la : Nat) (d : LineData) (p : Bool) : (s.setMemLine n la d p).fresh = s.fresh :=
  (fun x y => (rfl : ({ s with mem := x, mpois := y } : State).fresh = s.fresh)) (s.setMemLine n la d p).mem (s.setMemLine n la d p).mpois
@[simp] theorem State.setMemLine_regs (s : State) (n la : Nat) (d : LineData) (p : Bool) : (s.setMemLine n la d p).regs = s.regs :=
  (fun x y => (rfl : ({ s with mem := x, mpois := y } : State).regs = s.regs)) (s.setMemLine n la d p).mem (s.setMemLine n la d p).mpois
@[simp] theorem State.setMemLine_active (s : State) (n la : Nat) (d : LineData) (p : Bool) : (s.setMemLine n la d p).active = s.active :=
  (fun x y => (rfl : ({ s with mem := x, mpois := y } : State).active = s.active)) (s.setMemLine n la d p).mem (s.setMemLine n la d p).mpois
@[simp] theorem State.setMemLine_retained (s : State) (n la : Nat) (d : LineData) (p : Bool) : (s.setMemLine n la d p).retained = s.retained :=
  (fun x y => (rfl : ({ s with mem := x, mpois := y } : State).retained = s.retained)) (s.setMemLine n la d p).mem (s.setMemLine n la d p).mpois
@[simp] theorem State.setMemLine_heldW (s : State) (n la : Nat) (d : LineData) (p : Bool) : (s.setMemLine n la d p).heldW = s.heldW :=
  (fun x y => (rfl : ({ s with mem := x, mpois := y } : State).heldW = s.heldW)) (s.setMemLine n la d p).mem (s.setMemLine n la d p).mpois
@[simp] theorem State.setMemLine_readData (s : State) (n la : Nat) (d : LineData) (p : Bool) : (s.setMemLine n la d p).readData = s.readData :=
  (fun x y => (rfl : ({ s with mem := x, mpois := y } : State).readData = s.readData)) (s.setMemLine n la d p).mem (s.setMemLine n la d p).mpois
@[simp] theorem State.setMemLine_ldr (s : State) (n la : Nat) (d : LineData) (p : Bool) : (s.setMemLine n la d p).ldr = s.ldr :=
  (fun x y => (rfl : ({ s with mem := x, mpois := y } : State).ldr = s.ldr)) (s.setMemLine n la d p).mem (s.setMemLine n la d p).mpois
@[simp] theorem State.setMemLine_clrs (s : State) (n la : Nat) (d : LineData) (p : Bool) : (s.setMemLine n la d p).clrs = s.clrs :=
  (fun x y => (rfl : ({ s with mem := x, mpois := y } : State).clrs = s.clrs)) (s.setMemLine n la d p).mem (s.setMemLine n la d p).mpois
@[simp] theorem State.setMemLine_pwrok (s : State) (n la : Nat) (d : LineData) (p : Bool) : (s.setMemLine n la d p).pwrok = s.pwrok :=
  (fun x y => (rfl : ({ s with mem := x, mpois := y } : State).pwrok = s.pwrok)) (s.setMemLine n la d p).mem (s.setMemLine n la d p).mpois
@[simp] theorem State.setMemLine_wthrow (s : State) (n la : Nat) (d : LineData) (p : Bool) : (s.setMemLine n la d p).wthrow = s.wthrow :=
  (fun x y => (rfl : ({ s with mem := x, mpois := y } : State).wthrow = s.wthrow)) (s.setMemLine n la d p).mem (s.setMemLine n la d p).mpois
@[simp] theorem State.setMemLine_thermtrip (s : State) (n la : Nat) (d : LineData) (p : Bool) : (s.setMemLine n la d p).thermtrip = s.thermtrip :=
  (fun x y => (rfl : ({ s with mem := x, mpois := y } : State).thermtrip = s.thermtrip)) (s.setMemLine n la d p).mem (s.setMemLine n la d p).mpois
@[simp] theorem State.setMemLine_rootHash (s : State) (n la : Nat) (d : LineData) (p : Bool) : (s.setMemLine n la d p).rootHash = s.rootHash :=
  (fun x y => (rfl : ({ s with mem := x, mpois := y } : State).rootHash = s.rootHash)) (s.setMemLine n la d p).mem (s.setMemLine n la d p).mpois
@[simp] theorem State.setMemLine_rootKey (s : State) (n la : Nat) (d : LineData) (p : Bool) : (s.setMemLine n la d p).rootKey = s.rootKey :=
  (fun x y => (rfl : ({ s with mem := x, mpois := y } : State).rootKey = s.rootKey)) (s.setMemLine n la d p).mem (s.setMemLine n la d p).mpois
@[simp] theorem State.setMemLine_ownerKey (s : State) (n la : Nat) (d : LineData) (p : Bool) : (s.setMemLine n la d p).ownerKey = s.ownerKey :=
  (fun x y => (rfl : ({ s with mem := x, mpois := y } : State).ownerKey = s.ownerKey)) (s.setMemLine n la d p).mem (s.setMemLine n la d p).mpois
@[simp] theorem State.setMemLine_svcUp (s : State) (n la : Nat) (d : LineData) (p : Bool) : (s.setMemLine n la d p).svcUp = s.svcUp :=
  (fun x y => (rfl : ({ s with mem := x, mpois := y } : State).svcUp = s.svcUp)) (s.setMemLine n la d p).mem (s.setMemLine n la d p).mpois
@[simp] theorem State.setMemLine_bar2 (s : State) (n la : Nat) (d : LineData) (p : Bool) : (s.setMemLine n la d p).bar2 = s.bar2 :=
  (fun x y => (rfl : ({ s with mem := x, mpois := y } : State).bar2 = s.bar2)) (s.setMemLine n la d p).mem (s.setMemLine n la d p).mpois
@[simp] theorem State.setMemLine_svc (s : State) (n la : Nat) (d : LineData) (p : Bool) : (s.setMemLine n la d p).svc = s.svc :=
  (fun x y => (rfl : ({ s with mem := x, mpois := y } : State).svc = s.svc)) (s.setMemLine n la d p).mem (s.setMemLine n la d p).mpois
@[simp] theorem State.setMemLine_msixBusy (s : State) (n la : Nat) (d : LineData) (p : Bool) : (s.setMemLine n la d p).msixBusy = s.msixBusy :=
  (fun x y => (rfl : ({ s with mem := x, mpois := y } : State).msixBusy = s.msixBusy)) (s.setMemLine n la d p).mem (s.setMemLine n la d p).mpois
@[simp] theorem State.setMemLine_msixDue (s : State) (n la : Nat) (d : LineData) (p : Bool) : (s.setMemLine n la d p).msixDue = s.msixDue :=
  (fun x y => (rfl : ({ s with mem := x, mpois := y } : State).msixDue = s.msixDue)) (s.setMemLine n la d p).mem (s.setMemLine n la d p).mpois
@[simp] theorem State.setMemLine_msixSent (s : State) (n la : Nat) (d : LineData) (p : Bool) : (s.setMemLine n la d p).msixSent = s.msixSent :=
  (fun x y => (rfl : ({ s with mem := x, mpois := y } : State).msixSent = s.msixSent)) (s.setMemLine n la d p).mem (s.setMemLine n la d p).mpois
@[simp] theorem State.setMemLine_mfw (s : State) (n la : Nat) (d : LineData) (p : Bool) : (s.setMemLine n la d p).mfw = s.mfw :=
  (fun x y => (rfl : ({ s with mem := x, mpois := y } : State).mfw = s.mfw)) (s.setMemLine n la d p).mem (s.setMemLine n la d p).mpois
@[simp] theorem State.setMemLine_released (s : State) (n la : Nat) (d : LineData) (p : Bool) : (s.setMemLine n la d p).released = s.released :=
  (fun x y => (rfl : ({ s with mem := x, mpois := y } : State).released = s.released)) (s.setMemLine n la d p).mem (s.setMemLine n la d p).mpois
@[simp] theorem State.setMemLine_tkos (s : State) (n la : Nat) (d : LineData) (p : Bool) : (s.setMemLine n la d p).tkos = s.tkos :=
  (fun x y => (rfl : ({ s with mem := x, mpois := y } : State).tkos = s.tkos)) (s.setMemLine n la d p).mem (s.setMemLine n la d p).mpois
@[simp] theorem State.setMemLine_nextReq (s : State) (n la : Nat) (d : LineData) (p : Bool) : (s.setMemLine n la d p).nextReq = s.nextReq :=
  (fun x y => (rfl : ({ s with mem := x, mpois := y } : State).nextReq = s.nextReq)) (s.setMemLine n la d p).mem (s.setMemLine n la d p).mpois
@[simp] theorem State.setMemLine_fst (s : State) (n la : Nat) (d : LineData) (p : Bool) : (s.setMemLine n la d p).fst = s.fst :=
  (fun x y => (rfl : ({ s with mem := x, mpois := y } : State).fst = s.fst)) (s.setMemLine n la d p).mem (s.setMemLine n la d p).mpois
@[simp] theorem State.setMemLine_mboxes (s : State) (n la : Nat) (d : LineData) (p : Bool) : (s.setMemLine n la d p).mboxes = s.mboxes :=
  (fun x y => (rfl : ({ s with mem := x, mpois := y } : State).mboxes = s.mboxes)) (s.setMemLine n la d p).mem (s.setMemLine n la d p).mpois
@[simp] theorem State.setMemLine_pwr (s : State) (n la : Nat) (d : LineData) (p : Bool) : (s.setMemLine n la d p).pwr = s.pwr :=
  (fun x y => (rfl : ({ s with mem := x, mpois := y } : State).pwr = s.pwr)) (s.setMemLine n la d p).mem (s.setMemLine n la d p).mpois
@[simp] theorem State.setMemLine_jtag (s : State) (n la : Nat) (d : LineData) (p : Bool) : (s.setMemLine n la d p).jtag = s.jtag :=
  (fun x y => (rfl : ({ s with mem := x, mpois := y } : State).jtag = s.jtag)) (s.setMemLine n la d p).mem (s.setMemLine n la d p).mpois
@[simp] theorem State.setMemLine_scan (s : State) (n la : Nat) (d : LineData) (p : Bool) : (s.setMemLine n la d p).scan = s.scan :=
  (fun x y => (rfl : ({ s with mem := x, mpois := y } : State).scan = s.scan)) (s.setMemLine n la d p).mem (s.setMemLine n la d p).mpois
@[simp] theorem State.setMemLine_i3c (s : State) (n la : Nat) (d : LineData) (p : Bool) : (s.setMemLine n la d p).i3c = s.i3c :=
  (fun x y => (rfl : ({ s with mem := x, mpois := y } : State).i3c = s.i3c)) (s.setMemLine n la d p).mem (s.setMemLine n la d p).mpois
@[simp] theorem State.setMemLine_outAns (s : State) (n la : Nat) (d : LineData) (p : Bool) : (s.setMemLine n la d p).outAns = s.outAns :=
  (fun x y => (rfl : ({ s with mem := x, mpois := y } : State).outAns = s.outAns)) (s.setMemLine n la d p).mem (s.setMemLine n la d p).mpois
@[simp] theorem State.setMemLine_portTx (s : State) (n la : Nat) (d : LineData) (p : Bool) : (s.setMemLine n la d p).portTx = s.portTx :=
  (fun x y => (rfl : ({ s with mem := x, mpois := y } : State).portTx = s.portTx)) (s.setMemLine n la d p).mem (s.setMemLine n la d p).mpois
@[simp] theorem State.setMemLine_standRst (s : State) (n la : Nat) (d : LineData) (p : Bool) : (s.setMemLine n la d p).standRst = s.standRst :=
  (fun x y => (rfl : ({ s with mem := x, mpois := y } : State).standRst = s.standRst)) (s.setMemLine n la d p).mem (s.setMemLine n la d p).mpois
@[simp] theorem State.setMemLine_gladeRst (s : State) (n la : Nat) (d : LineData) (p : Bool) : (s.setMemLine n la d p).gladeRst = s.gladeRst :=
  (fun x y => (rfl : ({ s with mem := x, mpois := y } : State).gladeRst = s.gladeRst)) (s.setMemLine n la d p).mem (s.setMemLine n la d p).mpois
@[simp] theorem State.setMemLine_time (s : State) (n la : Nat) (d : LineData) (p : Bool) : (s.setMemLine n la d p).time = s.time :=
  (fun x y => (rfl : ({ s with mem := x, mpois := y } : State).time = s.time)) (s.setMemLine n la d p).mem (s.setMemLine n la d p).mpois
@[simp] theorem State.setMemLine_uptime (s : State) (n la : Nat) (d : LineData) (p : Bool) : (s.setMemLine n la d p).uptime = s.uptime :=
  (fun x y => (rfl : ({ s with mem := x, mpois := y } : State).uptime = s.uptime)) (s.setMemLine n la d p).mem (s.setMemLine n la d p).mpois
@[simp] theorem State.setMemLine_lines (s : State) (n la : Nat) (d : LineData) (p : Bool) : (s.setMemLine n la d p).lines = s.lines :=
  (fun x y => (rfl : ({ s with mem := x, mpois := y } : State).lines = s.lines)) (s.setMemLine n la d p).mem (s.setMemLine n la d p).mpois
@[simp] theorem State.setMemLine_canopy (s : State) (n la : Nat) (d : LineData) (p : Bool) : (s.setMemLine n la d p).canopy = s.canopy :=
  (fun x y => (rfl : ({ s with mem := x, mpois := y } : State).canopy = s.canopy)) (s.setMemLine n la d p).mem (s.setMemLine n la d p).mpois
@[simp] theorem State.setMemLine_canDis (s : State) (n la : Nat) (d : LineData) (p : Bool) : (s.setMemLine n la d p).canDis = s.canDis :=
  (fun x y => (rfl : ({ s with mem := x, mpois := y } : State).canDis = s.canDis)) (s.setMemLine n la d p).mem (s.setMemLine n la d p).mpois
@[simp] theorem State.setMemLine_home (s : State) (n la : Nat) (d : LineData) (p : Bool) : (s.setMemLine n la d p).home = s.home :=
  (fun x y => (rfl : ({ s with mem := x, mpois := y } : State).home = s.home)) (s.setMemLine n la d p).mem (s.setMemLine n la d p).mpois
@[simp] theorem State.setMemLine_out (s : State) (n la : Nat) (d : LineData) (p : Bool) : (s.setMemLine n la d p).out = s.out :=
  (fun x y => (rfl : ({ s with mem := x, mpois := y } : State).out = s.out)) (s.setMemLine n la d p).mem (s.setMemLine n la d p).mpois
@[simp] theorem State.setMemLine_purges (s : State) (n la : Nat) (d : LineData) (p : Bool) : (s.setMemLine n la d p).purges = s.purges :=
  (fun x y => (rfl : ({ s with mem := x, mpois := y } : State).purges = s.purges)) (s.setMemLine n la d p).mem (s.setMemLine n la d p).mpois
@[simp] theorem State.setMemLine_inb (s : State) (n la : Nat) (d : LineData) (p : Bool) : (s.setMemLine n la d p).inb = s.inb :=
  (fun x y => (rfl : ({ s with mem := x, mpois := y } : State).inb = s.inb)) (s.setMemLine n la d p).mem (s.setMemLine n la d p).mpois
@[simp] theorem State.setMemLine_snpQ (s : State) (n la : Nat) (d : LineData) (p : Bool) : (s.setMemLine n la d p).snpQ = s.snpQ :=
  (fun x y => (rfl : ({ s with mem := x, mpois := y } : State).snpQ = s.snpQ)) (s.setMemLine n la d p).mem (s.setMemLine n la d p).mpois
@[simp] theorem State.setMemLine_gports (s : State) (n la : Nat) (d : LineData) (p : Bool) : (s.setMemLine n la d p).gports = s.gports :=
  (fun x y => (rfl : ({ s with mem := x, mpois := y } : State).gports = s.gports)) (s.setMemLine n la d p).mem (s.setMemLine n la d p).mpois
@[simp] theorem State.setMemLine_peers (s : State) (n la : Nat) (d : LineData) (p : Bool) : (s.setMemLine n la d p).peers = s.peers :=
  (fun x y => (rfl : ({ s with mem := x, mpois := y } : State).peers = s.peers)) (s.setMemLine n la d p).mem (s.setMemLine n la d p).mpois
@[simp] theorem State.setMemLine_roots (s : State) (n la : Nat) (d : LineData) (p : Bool) : (s.setMemLine n la d p).roots = s.roots :=
  (fun x y => (rfl : ({ s with mem := x, mpois := y } : State).roots = s.roots)) (s.setMemLine n la d p).mem (s.setMemLine n la d p).mpois
@[simp] theorem State.setMemLine_failed (s : State) (n la : Nat) (d : LineData) (p : Bool) : (s.setMemLine n la d p).failed = s.failed :=
  (fun x y => (rfl : ({ s with mem := x, mpois := y } : State).failed = s.failed)) (s.setMemLine n la d p).mem (s.setMemLine n la d p).mpois
@[simp] theorem State.setMemLine_glades (s : State) (n la : Nat) (d : LineData) (p : Bool) : (s.setMemLine n la d p).glades = s.glades :=
  (fun x y => (rfl : ({ s with mem := x, mpois := y } : State).glades = s.glades)) (s.setMemLine n la d p).mem (s.setMemLine n la d p).mpois
@[simp] theorem State.setMemLine_engines (s : State) (n la : Nat) (d : LineData) (p : Bool) : (s.setMemLine n la d p).engines = s.engines :=
  (fun x y => (rfl : ({ s with mem := x, mpois := y } : State).engines = s.engines)) (s.setMemLine n la d p).mem (s.setMemLine n la d p).mpois
@[simp] theorem State.setMemLine_kst (s : State) (n la : Nat) (d : LineData) (p : Bool) : (s.setMemLine n la d p).kst = s.kst :=
  (fun x y => (rfl : ({ s with mem := x, mpois := y } : State).kst = s.kst)) (s.setMemLine n la d p).mem (s.setMemLine n la d p).mpois
@[simp] theorem State.setMemLine_threads (s : State) (n la : Nat) (d : LineData) (p : Bool) : (s.setMemLine n la d p).threads = s.threads :=
  (fun x y => (rfl : ({ s with mem := x, mpois := y } : State).threads = s.threads)) (s.setMemLine n la d p).mem (s.setMemLine n la d p).mpois
@[simp] theorem State.setMemLine_cores (s : State) (n la : Nat) (d : LineData) (p : Bool) : (s.setMemLine n la d p).cores = s.cores :=
  (fun x y => (rfl : ({ s with mem := x, mpois := y } : State).cores = s.cores)) (s.setMemLine n la d p).mem (s.setMemLine n la d p).mpois
@[simp] theorem State.setMemLine_rseq (s : State) (n la : Nat) (d : LineData) (p : Bool) : (s.setMemLine n la d p).rseq = s.rseq :=
  (fun x y => (rfl : ({ s with mem := x, mpois := y } : State).rseq = s.rseq)) (s.setMemLine n la d p).mem (s.setMemLine n la d p).mpois
@[simp] theorem State.setMemLine_collHeld (s : State) (n la : Nat) (d : LineData) (p : Bool) : (s.setMemLine n la d p).collHeld = s.collHeld :=
  (fun x y => (rfl : ({ s with mem := x, mpois := y } : State).collHeld = s.collHeld)) (s.setMemLine n la d p).mem (s.setMemLine n la d p).mpois
@[simp] theorem State.setMemLine_fq (s : State) (n la : Nat) (d : LineData) (p : Bool) : (s.setMemLine n la d p).fq = s.fq :=
  (fun x y => (rfl : ({ s with mem := x, mpois := y } : State).fq = s.fq)) (s.setMemLine n la d p).mem (s.setMemLine n la d p).mpois
@[simp] theorem State.setMemLine_flog (s : State) (n la : Nat) (d : LineData) (p : Bool) : (s.setMemLine n la d p).flog = s.flog :=
  (fun x y => (rfl : ({ s with mem := x, mpois := y } : State).flog = s.flog)) (s.setMemLine n la d p).mem (s.setMemLine n la d p).mpois
@[simp] theorem State.setMemLine_flogCnt (s : State) (n la : Nat) (d : LineData) (p : Bool) : (s.setMemLine n la d p).flogCnt = s.flogCnt :=
  (fun x y => (rfl : ({ s with mem := x, mpois := y } : State).flogCnt = s.flogCnt)) (s.setMemLine n la d p).mem (s.setMemLine n la d p).mpois
@[simp] theorem State.setMemLine_flogWait (s : State) (n la : Nat) (d : LineData) (p : Bool) : (s.setMemLine n la d p).flogWait = s.flogWait :=
  (fun x y => (rfl : ({ s with mem := x, mpois := y } : State).flogWait = s.flogWait)) (s.setMemLine n la d p).mem (s.setMemLine n la d p).mpois
@[simp] theorem State.setMemLine_wind (s : State) (n la : Nat) (d : LineData) (p : Bool) : (s.setMemLine n la d p).wind = s.wind :=
  (fun x y => (rfl : ({ s with mem := x, mpois := y } : State).wind = s.wind)) (s.setMemLine n la d p).mem (s.setMemLine n la d p).mpois
@[simp] theorem State.setMemLine_windAge (s : State) (n la : Nat) (d : LineData) (p : Bool) : (s.setMemLine n la d p).windAge = s.windAge :=
  (fun x y => (rfl : ({ s with mem := x, mpois := y } : State).windAge = s.windAge)) (s.setMemLine n la d p).mem (s.setMemLine n la d p).mpois

end Sys2Proof.Machine
end

