-- ==== Sys2Proof/Laws/Tab.lean ====
section
/-! SUPPORT. What a write to a sparse table does: the key written reads back, every other key reads as before, and the canonical form is kept. -/

namespace Sys2Proof.Machine

variable {α : Type}

theorem Tab.get_insert_self (d : Nat → α) (t : Tab α) (k : Nat) (v : α) :
    Tab.get d (Tab.insert k v t) k = v := by
  induction t with
  | nil => simp [Tab.insert, Tab.get]
  | cons e t ih =>
    obtain ⟨j, w⟩ := e
    simp only [Tab.insert]
    split
    · simp [Tab.get]
    · split
      · simp [Tab.get]
      · rename_i h1 h2
        have : ¬ j = k := fun h => h2 h.symm
        simp [Tab.get, this, ih]

theorem Tab.get_insert_ne (d : Nat → α) (t : Tab α) {k j : Nat} (v : α) (h : j ≠ k) :
    Tab.get d (Tab.insert k v t) j = Tab.get d t j := by
  have h' : ¬ k = j := fun e => h e.symm
  induction t with
  | nil => simp [Tab.insert, Tab.get, h']
  | cons e t ih =>
    obtain ⟨i, w⟩ := e
    simp only [Tab.insert]
    split
    · simp [Tab.get, h']
    · split
      · rename_i h2
        subst h2
        simp [Tab.get, h']
      · simp [Tab.get, ih]

theorem Tab.get_erase_self (d : Nat → α) (t : Tab α) (k : Nat) :
    Tab.get d (Tab.erase k t) k = d k := by
  induction t with
  | nil => rfl
  | cons e t ih =>
    obtain ⟨j, w⟩ := e
    simp only [Tab.erase]
    split
    · exact ih
    · rename_i h
      simp [Tab.get, h, ih]

theorem Tab.get_erase_ne (d : Nat → α) (t : Tab α) {k j : Nat} (h : j ≠ k) :
    Tab.get d (Tab.erase k t) j = Tab.get d t j := by
  induction t with
  | nil => rfl
  | cons e t ih =>
    obtain ⟨i, w⟩ := e
    simp only [Tab.erase]
    split
    · rename_i hi
      have : ¬ i = j := fun e => h (e.symm.trans hi)
      simp [Tab.get, this, ih]
    · simp [Tab.get, ih]

/-- A table reads back what was written. -/
@[simp] theorem Tab.get_set_self [DecidableEq α] (d : Nat → α) (t : Tab α) (k : Nat) (v : α) :
    Tab.get d (Tab.set d t k v) k = v := by
  unfold Tab.set
  split
  · rename_i h
    rw [Tab.get_erase_self, h]
  · exact Tab.get_insert_self d t k v

/-- A write leaves every other key alone. -/
theorem Tab.get_set_ne [DecidableEq α] (d : Nat → α) (t : Tab α) {k j : Nat} (v : α) (h : j ≠ k) :
    Tab.get d (Tab.set d t k v) j = Tab.get d t j := by
  unfold Tab.set
  split
  · exact Tab.get_erase_ne d t h
  · exact Tab.get_insert_ne d t v h

/-- Reading after a write, both cases at once. -/
theorem Tab.get_set [DecidableEq α] (d : Nat → α) (t : Tab α) (k j : Nat) (v : α) :
    Tab.get d (Tab.set d t k v) j = if j = k then v else Tab.get d t j := by
  split
  · rename_i h
    subst h
    exact Tab.get_set_self d t _ v
  · rename_i h
    exact Tab.get_set_ne d t v h

theorem Tab.above_insert {t : Tab α} {k j : Nat} {v : α} (h : Tab.above j t = true) (hk : j < k) :
    Tab.above j (Tab.insert k v t) = true := by
  induction t with
  | nil => simp [Tab.insert, Tab.above, hk]
  | cons e t ih =>
    obtain ⟨i, w⟩ := e
    simp only [Tab.above, List.all_cons, Bool.and_eq_true, decide_eq_true_eq] at h
    simp only [Tab.insert]
    split
    · simp [Tab.above, hk, h.1]; simpa [Tab.above] using h.2
    · split
      · simp [Tab.above, hk]; simpa [Tab.above] using h.2
      · simp only [Tab.above, List.all_cons, Bool.and_eq_true, decide_eq_true_eq]
        exact ⟨h.1, ih (by simpa [Tab.above] using h.2)⟩

theorem Tab.above_erase {t : Tab α} {k j : Nat} (h : Tab.above j t = true) :
    Tab.above j (Tab.erase k t) = true := by
  induction t with
  | nil => rfl
  | cons e t ih =>
    obtain ⟨i, w⟩ := e
    simp only [Tab.above, List.all_cons, Bool.and_eq_true, decide_eq_true_eq] at h
    have ih' := ih (by simpa [Tab.above] using h.2)
    simp only [Tab.erase]
    split
    · exact ih'
    · simp only [Tab.above, List.all_cons, Bool.and_eq_true, decide_eq_true_eq]
      exact ⟨h.1, ih'⟩

theorem Tab.above_mono {t : Tab α} {k j : Nat} (h : Tab.above k t = true) (hj : j ≤ k) :
    Tab.above j t = true := by
  simp only [Tab.above, List.all_eq_true, decide_eq_true_eq] at *
  intro e he
  exact Nat.lt_of_le_of_lt hj (h e he)

theorem Tab.wf_insert [DecidableEq α] {d : Nat → α} {t : Tab α} {k : Nat} {v : α}
    (h : Tab.wf d t = true) (hv : v ≠ d k) : Tab.wf d (Tab.insert k v t) = true := by
  induction t with
  | nil => simp [Tab.insert, Tab.wf, Tab.above, hv]
  | cons e t ih =>
    obtain ⟨i, w⟩ := e
    simp only [Tab.wf, Bool.and_eq_true] at h
    obtain ⟨⟨ha, hw⟩, ht⟩ := h
    simp only [Tab.insert]
    split
    · rename_i hlt
      have ha' : Tab.above k ((i, w) :: t) = true := by
        simp only [Tab.above, List.all_cons, Bool.and_eq_true, decide_eq_true_eq]
        exact ⟨hlt, by simpa [Tab.above] using Tab.above_mono ha (Nat.le_of_lt hlt)⟩
      simp only [Tab.wf, Bool.and_eq_true, decide_eq_true_eq]
      exact ⟨⟨ha', hv⟩, ⟨ha, by simpa using hw⟩, ht⟩
    · split
      · rename_i heq
        subst heq
        simp only [Tab.wf, Bool.and_eq_true, decide_eq_true_eq]
        exact ⟨⟨ha, hv⟩, ht⟩
      · rename_i h1 h2
        simp only [Tab.wf, Bool.and_eq_true]
        exact ⟨⟨Tab.above_insert ha (by omega), hw⟩, ih ht⟩

theorem Tab.wf_erase [DecidableEq α] {d : Nat → α} {t : Tab α} {k : Nat}
    (h : Tab.wf d t = true) : Tab.wf d (Tab.erase k t) = true := by
  induction t with
  | nil => rfl
  | cons e t ih =>
    obtain ⟨i, w⟩ := e
    simp only [Tab.wf, Bool.and_eq_true] at h
    obtain ⟨⟨ha, hw⟩, ht⟩ := h
    simp only [Tab.erase]
    split
    · exact ih ht
    · simp only [Tab.wf, Bool.and_eq_true]
      exact ⟨⟨Tab.above_erase ha, hw⟩, ih ht⟩

/-- Every write keeps the canonical form. -/
theorem Tab.wf_set [DecidableEq α] {d : Nat → α} {t : Tab α} (k : Nat) (v : α)
    (h : Tab.wf d t = true) : Tab.wf d (Tab.set d t k v) = true := by
  unfold Tab.set
  split
  · exact Tab.wf_erase h
  · rename_i hv
    exact Tab.wf_insert h hv

end Sys2Proof.Machine
end

