-- ==== Sys2Proof/Laws/Ops.lean ====
section
/-! SUPPORT. What the named operations of Machine/Ops.lean do: registers, threads, cores and memory read back what was written, every other one is unchanged, and memory keeps its canonical form. -/

namespace Sys2Proof.Machine

/-! Keys of registers. -/

/-- A register whose instance and offset lie in their windows has a key of its own (R515). -/
def Reg.inWindow (r : Reg) : Bool := decide (r.inst < 2 ^ 8) && decide (r.off < 2 ^ 24)

/-! Registers. -/

@[simp] theorem State.reg_setReg_self (s : State) (r : Reg) (v : Word) : (s.setReg r v).reg r = v := by
  simp [State.reg, State.setReg]

theorem State.reg_setReg_ne (s : State) {q r : Reg} (v : Word) (h : q.key ≠ r.key) :
    (s.setReg r v).reg q = s.reg q := by
  simp [State.reg, State.setReg, Tab.get_set_ne _ _ _ h]

@[simp] theorem State.act_setAct_self (s : State) (r : Reg) (v : Word) : (s.setAct r v).act r = v := by
  simp [State.act, State.setAct]

theorem State.act_setAct_ne (s : State) {q r : Reg} (v : Word) (h : q.key ≠ r.key) :
    (s.setAct r v).act q = s.act q := by
  simp [State.act, State.setAct, Tab.get_set_ne _ _ _ h]

@[simp] theorem State.act_setReg (s : State) (q r : Reg) (v : Word) : (s.setReg r v).act q = s.act q := by simp [State.act]
@[simp] theorem State.reg_setAct (s : State) (q r : Reg) (v : Word) : (s.setAct r v).reg q = s.reg q := by simp [State.reg]
@[simp] theorem State.reg_setThr (s : State) (q : Reg) (t : Nat) (x : Thread) : (s.setThr t x).reg q = s.reg q := by simp [State.reg]
@[simp] theorem State.act_setThr (s : State) (q : Reg) (t : Nat) (x : Thread) : (s.setThr t x).act q = s.act q := by simp [State.act]
@[simp] theorem State.reg_setCore (s : State) (q : Reg) (c : Nat) (x : Core) : (s.setCore c x).reg q = s.reg q := by simp [State.reg]
@[simp] theorem State.act_setCore (s : State) (q : Reg) (c : Nat) (x : Core) : (s.setCore c x).act q = s.act q := by simp [State.act]

/-! Threads and cores. -/

@[simp] theorem State.thr_setThr_self (s : State) (t : Nat) (x : Thread) : (s.setThr t x).thr t = x := by
  simp [State.thr, State.setThr]

theorem State.thr_setThr_ne (s : State) {u t : Nat} (x : Thread) (h : u ≠ t) : (s.setThr t x).thr u = s.thr u := by
  simp [State.thr, State.setThr, Tab.get_set_ne _ _ _ h]

@[simp] theorem State.core_setCore_self (s : State) (c : Nat) (x : Core) : (s.setCore c x).core c = x := by
  simp [State.core, State.setCore]

theorem State.core_setCore_ne (s : State) {d c : Nat} (x : Core) (h : d ≠ c) : (s.setCore c x).core d = s.core d := by
  simp [State.core, State.setCore, Tab.get_set_ne _ _ _ h]

@[simp] theorem State.thr_setReg (s : State) (r : Reg) (v : Word) (t : Nat) : (s.setReg r v).thr t = s.thr t := by simp [State.thr]
@[simp] theorem State.thr_setAct (s : State) (r : Reg) (v : Word) (t : Nat) : (s.setAct r v).thr t = s.thr t := by simp [State.thr]
@[simp] theorem State.thr_setCore (s : State) (c : Nat) (x : Core) (t : Nat) : (s.setCore c x).thr t = s.thr t := by simp [State.thr]
@[simp] theorem State.core_setThr (s : State) (t : Nat) (x : Thread) (c : Nat) : (s.setThr t x).core c = s.core c := by simp [State.core]
@[simp] theorem State.core_setReg (s : State) (r : Reg) (v : Word) (c : Nat) : (s.setReg r v).core c = s.core c := by simp [State.core]

/-! General, floating-point and state registers of a thread. -/

/-- g0 reads as zero and discards what is written to it (R69). -/
@[simp] theorem Thread.gr_zero (x : Thread) : x.gr 0 = 0 := by simp [Thread.gr]
@[simp] theorem Thread.setGr_zero (x : Thread) (v : Word) : x.setGr 0 v = x := by simp [Thread.setGr]

theorem Thread.gr_setGr_self (x : Thread) {r : GReg} (v : Word) (h : r ≠ 0) : (x.setGr r v).gr r = v := by
  have h' : r.val ≠ 0 := fun e => h (Fin.ext e)
  simp [Thread.gr, Thread.setGr, h']

theorem Thread.gr_setGr_ne (x : Thread) {q r : GReg} (v : Word) (h : q ≠ r) : (x.setGr r v).gr q = x.gr q := by
  have h' : q.val ≠ r.val := fun e => h (Fin.ext e)
  unfold Thread.gr Thread.setGr
  split
  · rfl
  · split
    · rfl
    · simp [Tab.get_set_ne _ _ _ h']

@[simp] theorem Thread.fr_setFr_self (x : Thread) (r : Nat) (v : Word) : (x.setFr r v).fr r = v := by
  simp [Thread.fr, Thread.setFr]

theorem Thread.fr_setFr_ne (x : Thread) {q r : Nat} (v : Word) (h : q ≠ r) : (x.setFr r v).fr q = x.fr q := by
  simp [Thread.fr, Thread.setFr, Tab.get_set_ne _ _ _ h]

@[simp] theorem Thread.srg_setSr_self (x : Thread) (n : Nat) (v : Word) : (x.setSr n v).srg n = v := by
  simp [Thread.srg, Thread.setSr]

theorem Thread.srg_setSr_ne (x : Thread) {m n : Nat} (v : Word) (h : m ≠ n) : (x.setSr n v).srg m = x.srg m := by
  simp [Thread.srg, Thread.setSr, Tab.get_set_ne _ _ _ h]

@[simp] theorem Thread.gr_setSr (x : Thread) (n : Nat) (v : Word) (r : GReg) : (x.setSr n v).gr r = x.gr r := rfl
@[simp] theorem Thread.fr_setSr (x : Thread) (n : Nat) (v : Word) (r : Nat) : (x.setSr n v).fr r = x.fr r := rfl
@[simp] theorem Thread.pc_setSr (x : Thread) (n : Nat) (v : Word) : (x.setSr n v).pc = x.pc := rfl
@[simp] theorem Thread.fr_setGr (x : Thread) (g : GReg) (v : Word) (r : Nat) : (x.setGr g v).fr r = x.fr r := by
  unfold Thread.setGr; split <;> rfl
@[simp] theorem Thread.srg_setGr (x : Thread) (g : GReg) (v : Word) (n : Nat) : (x.setGr g v).srg n = x.srg n := by
  unfold Thread.setGr; split <;> rfl
@[simp] theorem Thread.pc_setGr (x : Thread) (g : GReg) (v : Word) : (x.setGr g v).pc = x.pc := by
  unfold Thread.setGr; split <;> rfl
@[simp] theorem Thread.gr_setFr (x : Thread) (r : Nat) (v : Word) (g : GReg) : (x.setFr r v).gr g = x.gr g := rfl
@[simp] theorem Thread.srg_setFr (x : Thread) (r : Nat) (v : Word) (n : Nat) : (x.setFr r v).srg n = x.srg n := rfl
@[simp] theorem Thread.pc_setFr (x : Thread) (r : Nat) (v : Word) : (x.setFr r v).pc = x.pc := rfl

/-! Performance counters change only the counters (R101). -/

theorem pmc_fold (P : Thread → Prop) (e n : Nat) (hs : ∀ x i v, P x → P (x.setSr (SR_PMC i) v)) (l : List Nat) :
    ∀ x, P x → P (l.foldl (fun x i =>
      if (x.srg (SR_PMSEL i)).toNat = e then x.setSr (SR_PMC i) (x.srg (SR_PMC i) + BitVec.ofNat 64 n) else x) x) := by
  induction l with
  | nil => exact fun x h => h
  | cons i l ih =>
    intro x h
    simp only [List.foldl_cons]
    split
    · exact ih _ (hs _ _ _ h)
    · exact ih _ h

/-- What a counted event leaves of a thread: everything but its state registers. -/
theorem Thread.pmc_eq (x : Thread) (e n : Nat) : ∃ sr, x.pmc e n = { x with sr := sr } :=
  pmc_fold (fun y => ∃ sr, y = { x with sr := sr }) e n
    (fun y i v ⟨_, h⟩ => ⟨(y.setSr (SR_PMC i) v).sr, by subst h; rfl⟩) _ x ⟨x.sr, rfl⟩

@[simp] theorem Thread.gr_pmc (x : Thread) (e n : Nat) (r : GReg) : (x.pmc e n).gr r = x.gr r := by
  obtain ⟨sr, h⟩ := x.pmc_eq e n
  rw [h]; rfl
@[simp] theorem Thread.fr_pmc (x : Thread) (e n r : Nat) : (x.pmc e n).fr r = x.fr r := by
  obtain ⟨sr, h⟩ := x.pmc_eq e n
  rw [h]; rfl
@[simp] theorem Thread.pc_pmc (x : Thread) (e n : Nat) : (x.pmc e n).pc = x.pc := by
  obtain ⟨sr, h⟩ := x.pmc_eq e n
  rw [h]

/-- A counted event changes no state register outside PMC0 to PMC7 (R101). -/
theorem Thread.srg_pmc (x : Thread) (e n m : Nat) (h : m < 0x200 ∨ 0x208 ≤ m) : (x.pmc e n).srg m = x.srg m := by
  have key : ∀ l : List Nat, (∀ i ∈ l, i < 8) → ∀ y : Thread, y.srg m = x.srg m →
      (l.foldl (fun x i =>
        if (x.srg (SR_PMSEL i)).toNat = e then x.setSr (SR_PMC i) (x.srg (SR_PMC i) + BitVec.ofNat 64 n) else x) y).srg m
        = x.srg m := by
    intro l
    induction l with
    | nil => exact fun _ _ h => h
    | cons i l ih =>
      intro hl y hy
      simp only [List.foldl_cons]
      have hi : i < 8 := hl i (by simp)
      have hl' : ∀ j ∈ l, j < 8 := fun j hj => hl j (by simp [hj])
      split
      · refine ih hl' _ ?_
        have : m ≠ SR_PMC i := by unfold SR_PMC; omega
        rw [Thread.srg_setSr_ne _ _ this, hy]
      · exact ih hl' _ hy
  exact key _ (fun i hi => by simpa using hi) x rfl

/-! Memory. -/

/-- Writing bytes keeps the canonical form of memory. -/
theorem memPut_wf (l : List Byte) : ∀ (m : Tab Byte) (k : Nat), memWf m = true → memWf (memPut m k l) = true := by
  induction l with
  | nil => exact fun m k h => h
  | cons b l ih => exact fun m k h => ih _ _ (Tab.wf_set k b h)

/-- A byte outside the written range reads as before. -/
theorem memPut_ne (l : List Byte) : ∀ (m : Tab Byte) (k j : Nat), (j < k ∨ k + l.length ≤ j) →
    Tab.get memDefault (memPut m k l) j = Tab.get memDefault m j := by
  induction l with
  | nil => exact fun m k j _ => rfl
  | cons b l ih =>
    intro m k j h
    simp only [List.length_cons] at h
    have hj : j ≠ k := by omega
    rw [memPut, ih _ _ _ (by omega), Tab.get_set_ne _ _ _ hj]

/-- A byte inside the written range reads as the byte written there. -/
theorem memPut_get (l : List Byte) : ∀ (m : Tab Byte) (k i : Nat) (h : i < l.length),
    Tab.get memDefault (memPut m k l) (k + i) = l[i] := by
  induction l with
  | nil => intro m k i h; simp at h
  | cons b l ih =>
    intro m k i h
    cases i with
    | zero => simpa [memPut] using memPut_ne l (Tab.set memDefault m k b) (k + 1) k (by omega)
    | succ i =>
      have := ih (Tab.set memDefault m k b) (k + 1) i (by simpa using h)
      rw [memPut, show k + (i + 1) = k + 1 + i by omega, this]; rfl

/-- The bytes of memory after a line is written. -/
theorem State.setMemLine_mem (s : State) (n la : Nat) (d : LineData) (p : Bool) :
    (s.setMemLine n la d p).mem = memPut s.mem (memKey n la) (lineBytes d 0 256) := by
  rw [State.setMemLine]

/-- Writing a line keeps the canonical form of memory. -/
theorem State.setMemLine_wf (s : State) (n la : Nat) (d : LineData) (p : Bool) (h : memWf s.mem = true) :
    memWf (s.setMemLine n la d p).mem = true := by
  rw [State.setMemLine_mem]
  exact memPut_wf _ _ _ h

end Sys2Proof.Machine
end

