-- ==== Sys2Proof/Laws/Ais.lean ====
section
/-! SUPPORT. What an instruction of AIS does when its thread is ready: its body runs on the state after the fetch; and what the shapes built on it come to. -/

namespace Sys2Proof.Machine

theorem Ex.ok_of_isOk {e : Ex Unit} (h : e.isOk = true) : e = .ok () e.state := by
  cases e <;> simp_all [Ex.isOk, Ex.state]

theorem Ex.ok_of_value? {α : Type} {e : Ex α} {a : α} (h : e.value? = some a) : e = .ok a e.state := by
  cases e <;> simp_all [Ex.value?, Ex.state]

/-- What readiness says, field by field. -/
theorem State.ready_iff (s : State) (t lvl : Nat) (fp : Bool) : s.ready t lvl fp = true ↔
    (s.thr t).run = .running ∧ (s.thr t).wait = .none ∧ (s.thr t).devLoad = [] ∧ s.boundary t = none ∧
      s.fetch t = .ok () (s.fetched t) ∧ lvl ≤ ((s.fetched t).thr t).pl ∧
      (fp = true → ((s.fetched t).thr t).pstBit PST_FEN = true) := by
  unfold State.ready State.fetched
  constructor
  · intro h
    simp only [Bool.and_eq_true, beq_iff_eq, decide_eq_true_eq, Option.isNone_iff_eq_none, Bool.or_eq_true,
      Bool.not_eq_true'] at h
    obtain ⟨⟨⟨⟨⟨⟨h1, h2⟩, h3⟩, h4⟩, h5⟩, h6⟩, h7⟩ := h
    exact ⟨h1, h2, h3, h4, Ex.ok_of_isOk h5, h6, fun hf => by simpa [hf] using h7⟩
  · rintro ⟨h1, h2, h3, h4, h5, h6, h7⟩
    have h5' : (s.fetch t).isOk = true := by rw [h5]; rfl
    simp only [h1, h2, h3, h4, h5', h6, Bool.and_eq_true, beq_self_eq_true, Option.isNone_none, decide_true, and_self,
      true_and, Bool.or_eq_true, Bool.not_eq_true']
    cases fp
    · exact .inl rfl
    · exact .inr (h7 rfl)

/-- A thread that does not wait is not woken. -/
theorem State.wake_of_not_waiting {s : State} {t : Nat} (h : (s.thr t).wait = .none) : s.wake t = s := by
  unfold State.wake
  simp [h]

/-- A legal instruction of a ready thread performs its body on the state after the fetch. -/
theorem State.ais_ready {s : State} {t lvl : Nat} {fp : Bool} (i : InsnInfo) (body : State → Ex Word)
    (h : s.ready t lvl fp = true) (hl : i.legal = true) (hv : i.lvl = lvl) (hf : i.fp = fp) :
    s.ais t i body = State.finish t i.con (body (s.fetched t)) := by
  obtain ⟨h1, h2, h3, h4, h5, h6, h7⟩ := (s.ready_iff t lvl fp).mp h
  unfold State.ais
  simp only [s.wake_of_not_waiting h2, h1, h2, h3, h4, ne_eq, not_true_eq_false, or_self, if_false, if_true]
  congr 1
  unfold State.precheck
  simp only [h5, Ex.bind, hl, hv, hf]
  have h6' : ¬ ((s.fetched t).thr t).pl < lvl := by omega
  cases fp
  · simp [h6']
  · simp [h6', h7 rfl]

/-- An integer instruction of a ready thread: the register takes the value, and the thread goes on at pc + 4. -/
theorem State.alu_ready {s : State} {t word : Nat} (con : Bool) (rd : GReg) (f : Thread → Word)
    (h : s.ready t 0 false = true) (hl : legalWord word = true) :
    s.alu t word con rd f =
      ((s.fetched t).setThr t (((s.fetched t).thr t).setGr rd (f ((s.fetched t).thr t)))).retire t
        (((s.fetched t).thr t).pc + 4) con := by
  unfold State.alu
  rw [State.ais_ready (info word 0 false con) _ h hl rfl rfl]
  rfl

end Sys2Proof.Machine
end

