-- ==== Sys2Proof/Laws/Dispatch.lean ====
section
/-! SUPPORT. One lemma for each command: `exec` is the meaning its arm names, so that no proof unfolds the case split. -/

namespace Sys2Proof.Machine

theorem exec_registerWrite (org : Origin) (blk : Nat) (inst : Nat) (off : Nat) (size : Nat) (val : Word) (s : State) : exec (.registerWrite org blk inst off size val) s = execRegisterWrite org blk inst off size val s := rfl
theorem exec_rcFieldRead (org : Origin) (blk : Nat) (inst : Nat) (off : Nat) (size : Nat) (s : State) : exec (.rcFieldRead org blk inst off size) s = execRcFieldRead org blk inst off size s := rfl
theorem exec_unclockedAccessComplete (org : Origin) (blk : Nat) (inst : Nat) (off : Nat) (wr : Bool) (s : State) : exec (.unclockedAccessComplete org blk inst off wr) s = execUnclockedAccessComplete org blk inst off wr s := rfl
theorem exec_tltCmdLoad (org : Origin) (s : State) : exec (.tltCmdLoad org) s = execTltCmdLoad org s := rfl
theorem exec_tltCmdClear (org : Origin) (blk : BitVec 8) (inst : BitVec 8) (s : State) : exec (.tltCmdClear org blk inst) s = execTltCmdClear org blk inst s := rfl
theorem exec_tltCmdIgnoredOp (org : Origin) (op : BitVec 4) (s : State) : exec (.tltCmdIgnoredOp org op) s = execTltCmdIgnoredOp org op s := rfl
theorem exec_imageVerifyDone (s : State) : exec (.imageVerifyDone) s = execImageVerifyDone s := rfl
theorem exec_ready (blk : Nat) (inst : Nat) (s : State) : exec (.ready blk inst) s = execReady blk inst s := rfl
theorem exec_committed (s : State) : exec (.committed) s = execCommitted s := rfl
theorem exec_clearingTimeout (s : State) : exec (.clearingTimeout) s = execClearingTimeout s := rfl
theorem exec_pwrokAssert (strap : Module) (s : State) : exec (.pwrokAssert strap) s = execPwrokAssert strap s := rfl
theorem exec_romSelfTestDone (aOk : Bool) (bOk : Bool) (fuseOk : Bool) (pllOk : Bool) (fuses : Fuses) (s : State) : exec (.romSelfTestDone aOk bOk fuseOk pllOk fuses) s = execRomSelfTestDone aOk bOk fuseOk pllOk fuses s := rfl
theorem exec_svcLinkTrained (s : State) : exec (.svcLinkTrained) s = execSvcLinkTrained s := rfl
theorem exec_svcLinkReset (s : State) : exec (.svcLinkReset) s = execSvcLinkReset s := rfl
theorem exec_bar2Write (off : Nat) (bytes : List Byte) (s : State) : exec (.bar2Write off bytes) s = execBar2Write off bytes s := rfl
theorem exec_svpCmdSetLen (len : BitVec 32) (s : State) : exec (.svpCmdSetLen len) s = execSvpCmdSetLen len s := rfl
theorem exec_loadForFw (target : BitVec 8) (len : BitVec 32) (s : State) : exec (.loadForFw target len) s = execLoadForFw target len s := rfl
theorem exec_loadTilet (target : BitVec 8) (len : BitVec 32) (s : State) : exec (.loadTilet target len) s = execLoadTilet target len s := rfl
theorem exec_loadUcode (target : BitVec 8) (len : BitVec 32) (s : State) : exec (.loadUcode target len) s = execLoadUcode target len s := rfl
theorem exec_loadGladeFw (target : BitVec 8) (len : BitVec 32) (started : Bool) (s : State) : exec (.loadGladeFw target len started) s = execLoadGladeFw target len started s := rfl
theorem exec_loadKeys (target : BitVec 8) (len : BitVec 32) (s : State) : exec (.loadKeys target len) s = execLoadKeys target len s := rfl
theorem exec_loadMfw (target : BitVec 8) (len : BitVec 32) (s : State) : exec (.loadMfw target len) s = execLoadMfw target len s := rfl
theorem exec_release (target : BitVec 8) (len : BitVec 32) (bad : List Pcore) (s : State) : exec (.release target len bad) s = execRelease target len bad s := rfl
theorem exec_regRead (target : BitVec 8) (len : BitVec 32) (s : State) : exec (.regRead target len) s = execRegRead target len s := rfl
theorem exec_regWrite (target : BitVec 8) (len : BitVec 32) (s : State) : exec (.regWrite target len) s = execRegWrite target len s := rfl
theorem exec_resetDomain (target : BitVec 8) (len : BitVec 32) (s : State) : exec (.resetDomain target len) s = execResetDomain target len s := rfl
theorem exec_svpCmdUnknownOp (op : BitVec 8) (target : BitVec 8) (len : BitVec 32) (s : State) : exec (.svpCmdUnknownOp op target len) s = execSvpCmdUnknownOp op target len s := rfl
theorem exec_svpCommandDone (s : State) : exec (.svpCommandDone) s = execSvpCommandDone s := rfl
theorem exec_msixCoalesceTimer (s : State) : exec (.msixCoalesceTimer) s = execMsixCoalesceTimer s := rfl
theorem exec_clocksSeedReady (ok : Bool) (s : State) : exec (.clocksSeedReady ok) s = execClocksSeedReady ok s := rfl
theorem exec_trainingEnded (s : State) : exec (.trainingEnded) s = execTrainingEnded s := rfl
theorem exec_groveTrainTimeout (p : GrovePort) (s : State) : exec (.groveTrainTimeout p) s = execGroveTrainTimeout p s := rfl
theorem exec_standResetExit (st : Stand) (bad : List Pcore) (s : State) : exec (.standResetExit st bad) s = execStandResetExit st bad s := rfl
theorem exec_illegalInstruction (t : Thr) (w32 : BitVec 32) (s : State) : exec (.illegalInstruction t w32) s = execIllegalInstruction t w32 s := rfl
theorem exec_add (t : Thr) (w : Bool) (rd : GReg) (ra : GReg) (rb : GReg) (s : State) : exec (.add t w rd ra rb) s = execAdd t w rd ra rb s := rfl
theorem exec_sub (t : Thr) (w : Bool) (rd : GReg) (ra : GReg) (rb : GReg) (s : State) : exec (.sub t w rd ra rb) s = execSub t w rd ra rb s := rfl
theorem exec_and (t : Thr) (rd : GReg) (ra : GReg) (rb : GReg) (s : State) : exec (.and t rd ra rb) s = execAnd t rd ra rb s := rfl
theorem exec_or (t : Thr) (rd : GReg) (ra : GReg) (rb : GReg) (s : State) : exec (.or t rd ra rb) s = execOr t rd ra rb s := rfl
theorem exec_xor (t : Thr) (rd : GReg) (ra : GReg) (rb : GReg) (s : State) : exec (.xor t rd ra rb) s = execXor t rd ra rb s := rfl
theorem exec_andn (t : Thr) (rd : GReg) (ra : GReg) (rb : GReg) (s : State) : exec (.andn t rd ra rb) s = execAndn t rd ra rb s := rfl
theorem exec_orn (t : Thr) (rd : GReg) (ra : GReg) (rb : GReg) (s : State) : exec (.orn t rd ra rb) s = execOrn t rd ra rb s := rfl
theorem exec_xnor (t : Thr) (rd : GReg) (ra : GReg) (rb : GReg) (s : State) : exec (.xnor t rd ra rb) s = execXnor t rd ra rb s := rfl
theorem exec_sll (t : Thr) (w : Bool) (rd : GReg) (ra : GReg) (rb : GReg) (s : State) : exec (.sll t w rd ra rb) s = execSll t w rd ra rb s := rfl
theorem exec_srl (t : Thr) (w : Bool) (rd : GReg) (ra : GReg) (rb : GReg) (s : State) : exec (.srl t w rd ra rb) s = execSrl t w rd ra rb s := rfl
theorem exec_sra (t : Thr) (w : Bool) (rd : GReg) (ra : GReg) (rb : GReg) (s : State) : exec (.sra t w rd ra rb) s = execSra t w rd ra rb s := rfl
theorem exec_ror (t : Thr) (w : Bool) (rd : GReg) (ra : GReg) (rb : GReg) (s : State) : exec (.ror t w rd ra rb) s = execRor t w rd ra rb s := rfl
theorem exec_slt (t : Thr) (rd : GReg) (ra : GReg) (rb : GReg) (s : State) : exec (.slt t rd ra rb) s = execSlt t rd ra rb s := rfl
theorem exec_sltu (t : Thr) (rd : GReg) (ra : GReg) (rb : GReg) (s : State) : exec (.sltu t rd ra rb) s = execSltu t rd ra rb s := rfl
theorem exec_min (t : Thr) (rd : GReg) (ra : GReg) (rb : GReg) (s : State) : exec (.min t rd ra rb) s = execMin t rd ra rb s := rfl
theorem exec_max (t : Thr) (rd : GReg) (ra : GReg) (rb : GReg) (s : State) : exec (.max t rd ra rb) s = execMax t rd ra rb s := rfl
theorem exec_minu (t : Thr) (rd : GReg) (ra : GReg) (rb : GReg) (s : State) : exec (.minu t rd ra rb) s = execMinu t rd ra rb s := rfl
theorem exec_maxu (t : Thr) (rd : GReg) (ra : GReg) (rb : GReg) (s : State) : exec (.maxu t rd ra rb) s = execMaxu t rd ra rb s := rfl
theorem exec_cmovz (t : Thr) (rd : GReg) (ra : GReg) (rb : GReg) (s : State) : exec (.cmovz t rd ra rb) s = execCmovz t rd ra rb s := rfl
theorem exec_cmovnz (t : Thr) (rd : GReg) (ra : GReg) (rb : GReg) (s : State) : exec (.cmovnz t rd ra rb) s = execCmovnz t rd ra rb s := rfl
theorem exec_mul (t : Thr) (w : Bool) (rd : GReg) (ra : GReg) (rb : GReg) (s : State) : exec (.mul t w rd ra rb) s = execMul t w rd ra rb s := rfl
theorem exec_mulh (t : Thr) (rd : GReg) (ra : GReg) (rb : GReg) (s : State) : exec (.mulh t rd ra rb) s = execMulh t rd ra rb s := rfl
theorem exec_mulhu (t : Thr) (rd : GReg) (ra : GReg) (rb : GReg) (s : State) : exec (.mulhu t rd ra rb) s = execMulhu t rd ra rb s := rfl
theorem exec_mulhsu (t : Thr) (rd : GReg) (ra : GReg) (rb : GReg) (s : State) : exec (.mulhsu t rd ra rb) s = execMulhsu t rd ra rb s := rfl
theorem exec_div (t : Thr) (w : Bool) (rd : GReg) (ra : GReg) (rb : GReg) (s : State) : exec (.div t w rd ra rb) s = execDiv t w rd ra rb s := rfl
theorem exec_divu (t : Thr) (w : Bool) (rd : GReg) (ra : GReg) (rb : GReg) (s : State) : exec (.divu t w rd ra rb) s = execDivu t w rd ra rb s := rfl
theorem exec_rem (t : Thr) (w : Bool) (rd : GReg) (ra : GReg) (rb : GReg) (s : State) : exec (.rem t w rd ra rb) s = execRem t w rd ra rb s := rfl
theorem exec_remu (t : Thr) (w : Bool) (rd : GReg) (ra : GReg) (rb : GReg) (s : State) : exec (.remu t w rd ra rb) s = execRemu t w rd ra rb s := rfl
theorem exec_clz (t : Thr) (w : Bool) (rd : GReg) (ra : GReg) (s : State) : exec (.clz t w rd ra) s = execClz t w rd ra s := rfl
theorem exec_ctz (t : Thr) (w : Bool) (rd : GReg) (ra : GReg) (s : State) : exec (.ctz t w rd ra) s = execCtz t w rd ra s := rfl
theorem exec_popc (t : Thr) (w : Bool) (rd : GReg) (ra : GReg) (s : State) : exec (.popc t w rd ra) s = execPopc t w rd ra s := rfl
theorem exec_bswap (t : Thr) (rd : GReg) (ra : GReg) (s : State) : exec (.bswap t rd ra) s = execBswap t rd ra s := rfl
theorem exec_sextb (t : Thr) (rd : GReg) (ra : GReg) (s : State) : exec (.sextb t rd ra) s = execSextb t rd ra s := rfl
theorem exec_sexth (t : Thr) (rd : GReg) (ra : GReg) (s : State) : exec (.sexth t rd ra) s = execSexth t rd ra s := rfl
theorem exec_zextw (t : Thr) (rd : GReg) (ra : GReg) (s : State) : exec (.zextw t rd ra) s = execZextw t rd ra s := rfl
theorem exec_jalr (t : Thr) (rd : GReg) (ra : GReg) (s : State) : exec (.jalr t rd ra) s = execJalr t rd ra s := rfl
theorem exec_crc32cb (t : Thr) (rd : GReg) (ra : GReg) (rb : GReg) (s : State) : exec (.crc32cb t rd ra rb) s = execCrc32cb t rd ra rb s := rfl
theorem exec_crc32cd (t : Thr) (rd : GReg) (ra : GReg) (rb : GReg) (s : State) : exec (.crc32cd t rd ra rb) s = execCrc32cd t rd ra rb s := rfl
theorem exec_addi (t : Thr) (rd : GReg) (ra : GReg) (imm : BitVec 16) (s : State) : exec (.addi t rd ra imm) s = execAddi t rd ra imm s := rfl
theorem exec_addiw (t : Thr) (rd : GReg) (ra : GReg) (imm : BitVec 16) (s : State) : exec (.addiw t rd ra imm) s = execAddiw t rd ra imm s := rfl
theorem exec_andi (t : Thr) (rd : GReg) (ra : GReg) (imm : BitVec 16) (s : State) : exec (.andi t rd ra imm) s = execAndi t rd ra imm s := rfl
theorem exec_ori (t : Thr) (rd : GReg) (ra : GReg) (imm : BitVec 16) (s : State) : exec (.ori t rd ra imm) s = execOri t rd ra imm s := rfl
theorem exec_xori (t : Thr) (rd : GReg) (ra : GReg) (imm : BitVec 16) (s : State) : exec (.xori t rd ra imm) s = execXori t rd ra imm s := rfl
theorem exec_slti (t : Thr) (rd : GReg) (ra : GReg) (imm : BitVec 16) (s : State) : exec (.slti t rd ra imm) s = execSlti t rd ra imm s := rfl
theorem exec_sltiu (t : Thr) (rd : GReg) (ra : GReg) (imm : BitVec 16) (s : State) : exec (.sltiu t rd ra imm) s = execSltiu t rd ra imm s := rfl
theorem exec_lui (t : Thr) (rd : GReg) (imm : BitVec 16) (s : State) : exec (.lui t rd imm) s = execLui t rd imm s := rfl
theorem exec_oris (t : Thr) (rd : GReg) (ra : GReg) (imm : BitVec 16) (s : State) : exec (.oris t rd ra imm) s = execOris t rd ra imm s := rfl
theorem exec_addpc (t : Thr) (rd : GReg) (imm : BitVec 16) (s : State) : exec (.addpc t rd imm) s = execAddpc t rd imm s := rfl
theorem exec_slli (t : Thr) (rd : GReg) (ra : GReg) (sh : BitVec 6) (s : State) : exec (.slli t rd ra sh) s = execSlli t rd ra sh s := rfl
theorem exec_srli (t : Thr) (rd : GReg) (ra : GReg) (sh : BitVec 6) (s : State) : exec (.srli t rd ra sh) s = execSrli t rd ra sh s := rfl
theorem exec_srai (t : Thr) (rd : GReg) (ra : GReg) (sh : BitVec 6) (s : State) : exec (.srai t rd ra sh) s = execSrai t rd ra sh s := rfl
theorem exec_rori (t : Thr) (rd : GReg) (ra : GReg) (sh : BitVec 6) (s : State) : exec (.rori t rd ra sh) s = execRori t rd ra sh s := rfl
theorem exec_slliw (t : Thr) (rd : GReg) (ra : GReg) (sh : BitVec 6) (s : State) : exec (.slliw t rd ra sh) s = execSlliw t rd ra sh s := rfl
theorem exec_srliw (t : Thr) (rd : GReg) (ra : GReg) (sh : BitVec 6) (s : State) : exec (.srliw t rd ra sh) s = execSrliw t rd ra sh s := rfl
theorem exec_sraiw (t : Thr) (rd : GReg) (ra : GReg) (sh : BitVec 6) (s : State) : exec (.sraiw t rd ra sh) s = execSraiw t rd ra sh s := rfl
theorem exec_lb (t : Thr) (rd : GReg) (ra : GReg) (disp : BitVec 16) (s : State) : exec (.lb t rd ra disp) s = execLb t rd ra disp s := rfl
theorem exec_lbu (t : Thr) (rd : GReg) (ra : GReg) (disp : BitVec 16) (s : State) : exec (.lbu t rd ra disp) s = execLbu t rd ra disp s := rfl
theorem exec_lh (t : Thr) (rd : GReg) (ra : GReg) (disp : BitVec 16) (s : State) : exec (.lh t rd ra disp) s = execLh t rd ra disp s := rfl
theorem exec_lhu (t : Thr) (rd : GReg) (ra : GReg) (disp : BitVec 16) (s : State) : exec (.lhu t rd ra disp) s = execLhu t rd ra disp s := rfl
theorem exec_lw (t : Thr) (rd : GReg) (ra : GReg) (disp : BitVec 16) (s : State) : exec (.lw t rd ra disp) s = execLw t rd ra disp s := rfl
theorem exec_lwu (t : Thr) (rd : GReg) (ra : GReg) (disp : BitVec 16) (s : State) : exec (.lwu t rd ra disp) s = execLwu t rd ra disp s := rfl
theorem exec_ld (t : Thr) (rd : GReg) (ra : GReg) (disp : BitVec 16) (s : State) : exec (.ld t rd ra disp) s = execLd t rd ra disp s := rfl
theorem exec_ldq (t : Thr) (rd : GReg) (ra : GReg) (disp : BitVec 16) (s : State) : exec (.ldq t rd ra disp) s = execLdq t rd ra disp s := rfl
theorem exec_sb (t : Thr) (rs : GReg) (ra : GReg) (disp : BitVec 16) (s : State) : exec (.sb t rs ra disp) s = execSb t rs ra disp s := rfl
theorem exec_sh (t : Thr) (rs : GReg) (ra : GReg) (disp : BitVec 16) (s : State) : exec (.sh t rs ra disp) s = execSh t rs ra disp s := rfl
theorem exec_sw (t : Thr) (rs : GReg) (ra : GReg) (disp : BitVec 16) (s : State) : exec (.sw t rs ra disp) s = execSw t rs ra disp s := rfl
theorem exec_sd (t : Thr) (rs : GReg) (ra : GReg) (disp : BitVec 16) (s : State) : exec (.sd t rs ra disp) s = execSd t rs ra disp s := rfl
theorem exec_stq (t : Thr) (rs : GReg) (ra : GReg) (disp : BitVec 16) (s : State) : exec (.stq t rs ra disp) s = execStq t rs ra disp s := rfl
theorem exec_flw (t : Thr) (fd : FReg) (ra : GReg) (disp : BitVec 16) (s : State) : exec (.flw t fd ra disp) s = execFlw t fd ra disp s := rfl
theorem exec_fld (t : Thr) (fd : FReg) (ra : GReg) (disp : BitVec 16) (s : State) : exec (.fld t fd ra disp) s = execFld t fd ra disp s := rfl
theorem exec_flq (t : Thr) (fd : FReg) (ra : GReg) (disp : BitVec 16) (s : State) : exec (.flq t fd ra disp) s = execFlq t fd ra disp s := rfl
theorem exec_fsw (t : Thr) (fs : FReg) (ra : GReg) (disp : BitVec 16) (s : State) : exec (.fsw t fs ra disp) s = execFsw t fs ra disp s := rfl
theorem exec_fsd (t : Thr) (fs : FReg) (ra : GReg) (disp : BitVec 16) (s : State) : exec (.fsd t fs ra disp) s = execFsd t fs ra disp s := rfl
theorem exec_fsq (t : Thr) (fs : FReg) (ra : GReg) (disp : BitVec 16) (s : State) : exec (.fsq t fs ra disp) s = execFsq t fs ra disp s := rfl
theorem exec_lrsv (t : Thr) (rd : GReg) (ra : GReg) (s : State) : exec (.lrsv t rd ra) s = execLrsv t rd ra s := rfl
theorem exec_stcd (t : Thr) (rd : GReg) (ra : GReg) (rb : GReg) (s : State) : exec (.stcd t rd ra rb) s = execStcd t rd ra rb s := rfl
theorem exec_casd (t : Thr) (rd : GReg) (ra : GReg) (rb : GReg) (s : State) : exec (.casd t rd ra rb) s = execCasd t rd ra rb s := rfl
theorem exec_casq (t : Thr) (rd : GReg) (ra : GReg) (rb : GReg) (s : State) : exec (.casq t rd ra rb) s = execCasq t rd ra rb s := rfl
theorem exec_aadd (t : Thr) (rd : GReg) (ra : GReg) (rb : GReg) (s : State) : exec (.aadd t rd ra rb) s = execAadd t rd ra rb s := rfl
theorem exec_swpd (t : Thr) (rd : GReg) (ra : GReg) (rb : GReg) (s : State) : exec (.swpd t rd ra rb) s = execSwpd t rd ra rb s := rfl
theorem exec_aand (t : Thr) (rd : GReg) (ra : GReg) (rb : GReg) (s : State) : exec (.aand t rd ra rb) s = execAand t rd ra rb s := rfl
theorem exec_aor (t : Thr) (rd : GReg) (ra : GReg) (rb : GReg) (s : State) : exec (.aor t rd ra rb) s = execAor t rd ra rb s := rfl
theorem exec_beq (t : Thr) (ra : GReg) (rb : GReg) (disp : BitVec 16) (s : State) : exec (.beq t ra rb disp) s = execBeq t ra rb disp s := rfl
theorem exec_bne (t : Thr) (ra : GReg) (rb : GReg) (disp : BitVec 16) (s : State) : exec (.bne t ra rb disp) s = execBne t ra rb disp s := rfl
theorem exec_blt (t : Thr) (ra : GReg) (rb : GReg) (disp : BitVec 16) (s : State) : exec (.blt t ra rb disp) s = execBlt t ra rb disp s := rfl
theorem exec_bge (t : Thr) (ra : GReg) (rb : GReg) (disp : BitVec 16) (s : State) : exec (.bge t ra rb disp) s = execBge t ra rb disp s := rfl
theorem exec_bltu (t : Thr) (ra : GReg) (rb : GReg) (disp : BitVec 16) (s : State) : exec (.bltu t ra rb disp) s = execBltu t ra rb disp s := rfl
theorem exec_bgeu (t : Thr) (ra : GReg) (rb : GReg) (disp : BitVec 16) (s : State) : exec (.bgeu t ra rb disp) s = execBgeu t ra rb disp s := rfl
theorem exec_j (t : Thr) (disp : BitVec 26) (s : State) : exec (.j t disp) s = execJ t disp s := rfl
theorem exec_jal (t : Thr) (disp : BitVec 26) (s : State) : exec (.jal t disp) s = execJal t disp s := rfl
theorem exec_mvl (t : Thr) (rd : GReg) (ra : GReg) (s : State) : exec (.mvl t rd ra) s = execMvl t rd ra s := rfl
theorem exec_cml (t : Thr) (rd : GReg) (ra : GReg) (rb : GReg) (s : State) : exec (.cml t rd ra rb) s = execCml t rd ra rb s := rfl
theorem exec_fll (t : Thr) (rd : GReg) (ra : GReg) (s : State) : exec (.fll t rd ra) s = execFll t rd ra s := rfl
theorem exec_dadd (t : Thr) (rd : GReg) (ra : GReg) (rb : GReg) (l1 : BitVec 4) (l2 : BitVec 4) (s : State) : exec (.dadd t rd ra rb l1 l2) s = execDadd t rd ra rb l1 l2 s := rfl
theorem exec_dsub (t : Thr) (rd : GReg) (ra : GReg) (rb : GReg) (l1 : BitVec 4) (l2 : BitVec 4) (s : State) : exec (.dsub t rd ra rb l1 l2) s = execDsub t rd ra rb l1 l2 s := rfl
theorem exec_dcmp (t : Thr) (rd : GReg) (ra : GReg) (rb : GReg) (l1 : BitVec 4) (l2 : BitVec 4) (s : State) : exec (.dcmp t rd ra rb l1 l2) s = execDcmp t rd ra rb l1 l2 s := rfl
theorem exec_dval (t : Thr) (rd : GReg) (ra : GReg) (l1 : BitVec 4) (s : State) : exec (.dval t rd ra l1) s = execDval t rd ra l1 s := rfl
theorem exec_fadd (t : Thr) (fmt : BitVec 2) (rm : BitVec 3) (fd : FReg) (fa : FReg) (fb : FReg) (s : State) : exec (.fadd t fmt rm fd fa fb) s = execFadd t fmt rm fd fa fb s := rfl
theorem exec_fsub (t : Thr) (fmt : BitVec 2) (rm : BitVec 3) (fd : FReg) (fa : FReg) (fb : FReg) (s : State) : exec (.fsub t fmt rm fd fa fb) s = execFsub t fmt rm fd fa fb s := rfl
theorem exec_fmul (t : Thr) (fmt : BitVec 2) (rm : BitVec 3) (fd : FReg) (fa : FReg) (fb : FReg) (s : State) : exec (.fmul t fmt rm fd fa fb) s = execFmul t fmt rm fd fa fb s := rfl
theorem exec_fdiv (t : Thr) (fmt : BitVec 2) (rm : BitVec 3) (fd : FReg) (fa : FReg) (fb : FReg) (s : State) : exec (.fdiv t fmt rm fd fa fb) s = execFdiv t fmt rm fd fa fb s := rfl
theorem exec_fsqrt (t : Thr) (fmt : BitVec 2) (rm : BitVec 3) (fd : FReg) (fa : FReg) (s : State) : exec (.fsqrt t fmt rm fd fa) s = execFsqrt t fmt rm fd fa s := rfl
theorem exec_fmin (t : Thr) (fmt : BitVec 2) (fd : FReg) (fa : FReg) (fb : FReg) (s : State) : exec (.fmin t fmt fd fa fb) s = execFmin t fmt fd fa fb s := rfl
theorem exec_fmax (t : Thr) (fmt : BitVec 2) (fd : FReg) (fa : FReg) (fb : FReg) (s : State) : exec (.fmax t fmt fd fa fb) s = execFmax t fmt fd fa fb s := rfl
theorem exec_fminn (t : Thr) (fmt : BitVec 2) (fd : FReg) (fa : FReg) (fb : FReg) (s : State) : exec (.fminn t fmt fd fa fb) s = execFminn t fmt fd fa fb s := rfl
theorem exec_fmaxn (t : Thr) (fmt : BitVec 2) (fd : FReg) (fa : FReg) (fb : FReg) (s : State) : exec (.fmaxn t fmt fd fa fb) s = execFmaxn t fmt fd fa fb s := rfl
theorem exec_fneg (t : Thr) (fmt : BitVec 2) (fd : FReg) (fa : FReg) (s : State) : exec (.fneg t fmt fd fa) s = execFneg t fmt fd fa s := rfl
theorem exec_fabs (t : Thr) (fmt : BitVec 2) (fd : FReg) (fa : FReg) (s : State) : exec (.fabs t fmt fd fa) s = execFabs t fmt fd fa s := rfl
theorem exec_fcpys (t : Thr) (fmt : BitVec 2) (fd : FReg) (fa : FReg) (fb : FReg) (s : State) : exec (.fcpys t fmt fd fa fb) s = execFcpys t fmt fd fa fb s := rfl
theorem exec_fceq (t : Thr) (fmt : BitVec 2) (rd : GReg) (fa : FReg) (fb : FReg) (s : State) : exec (.fceq t fmt rd fa fb) s = execFceq t fmt rd fa fb s := rfl
theorem exec_fclt (t : Thr) (fmt : BitVec 2) (rd : GReg) (fa : FReg) (fb : FReg) (s : State) : exec (.fclt t fmt rd fa fb) s = execFclt t fmt rd fa fb s := rfl
theorem exec_fcle (t : Thr) (fmt : BitVec 2) (rd : GReg) (fa : FReg) (fb : FReg) (s : State) : exec (.fcle t fmt rd fa fb) s = execFcle t fmt rd fa fb s := rfl
theorem exec_fcun (t : Thr) (fmt : BitVec 2) (rd : GReg) (fa : FReg) (fb : FReg) (s : State) : exec (.fcun t fmt rd fa fb) s = execFcun t fmt rd fa fb s := rfl
theorem exec_fclass (t : Thr) (fmt : BitVec 2) (rd : GReg) (fa : FReg) (s : State) : exec (.fclass t fmt rd fa) s = execFclass t fmt rd fa s := rfl
theorem exec_frint (t : Thr) (fmt : BitVec 2) (rm : BitVec 3) (fd : FReg) (fa : FReg) (s : State) : exec (.frint t fmt rm fd fa) s = execFrint t fmt rm fd fa s := rfl
theorem exec_fcvt (t : Thr) (fmt : BitVec 2) (rm : BitVec 3) (fd : FReg) (fa : FReg) (src : BitVec 2) (s : State) : exec (.fcvt t fmt rm fd fa src) s = execFcvt t fmt rm fd fa src s := rfl
theorem exec_fcvtis (t : Thr) (fmt : BitVec 2) (rm : BitVec 3) (rd : GReg) (fa : FReg) (s : State) : exec (.fcvtis t fmt rm rd fa) s = execFcvtis t fmt rm rd fa s := rfl
theorem exec_fcvtiu (t : Thr) (fmt : BitVec 2) (rm : BitVec 3) (rd : GReg) (fa : FReg) (s : State) : exec (.fcvtiu t fmt rm rd fa) s = execFcvtiu t fmt rm rd fa s := rfl
theorem exec_fcvtsi (t : Thr) (fmt : BitVec 2) (rm : BitVec 3) (fd : FReg) (ra : GReg) (s : State) : exec (.fcvtsi t fmt rm fd ra) s = execFcvtsi t fmt rm fd ra s := rfl
theorem exec_fcvtui (t : Thr) (fmt : BitVec 2) (rm : BitVec 3) (fd : FReg) (ra : GReg) (s : State) : exec (.fcvtui t fmt rm fd ra) s = execFcvtui t fmt rm fd ra s := rfl
theorem exec_fmvgf (t : Thr) (fmt : BitVec 2) (rd : GReg) (fa : FReg) (s : State) : exec (.fmvgf t fmt rd fa) s = execFmvgf t fmt rd fa s := rfl
theorem exec_fmvfg (t : Thr) (fmt : BitVec 2) (fd : FReg) (ra : GReg) (s : State) : exec (.fmvfg t fmt fd ra) s = execFmvfg t fmt fd ra s := rfl
theorem exec_fmadd (t : Thr) (fmt : BitVec 2) (rm : BitVec 3) (fd : FReg) (fa : FReg) (fb : FReg) (fc : FReg) (s : State) : exec (.fmadd t fmt rm fd fa fb fc) s = execFmadd t fmt rm fd fa fb fc s := rfl
theorem exec_fmsub (t : Thr) (fmt : BitVec 2) (rm : BitVec 3) (fd : FReg) (fa : FReg) (fb : FReg) (fc : FReg) (s : State) : exec (.fmsub t fmt rm fd fa fb fc) s = execFmsub t fmt rm fd fa fb fc s := rfl
theorem exec_fnmadd (t : Thr) (fmt : BitVec 2) (rm : BitVec 3) (fd : FReg) (fa : FReg) (fb : FReg) (fc : FReg) (s : State) : exec (.fnmadd t fmt rm fd fa fb fc) s = execFnmadd t fmt rm fd fa fb fc s := rfl
theorem exec_fnmsub (t : Thr) (fmt : BitVec 2) (rm : BitVec 3) (fd : FReg) (fa : FReg) (fb : FReg) (fc : FReg) (s : State) : exec (.fnmsub t fmt rm fd fa fb fc) s = execFnmsub t fmt rm fd fa fb fc s := rfl
theorem exec_sync (t : Thr) (s : State) : exec (.sync t) s = execSync t s := rfl
theorem exec_syncComplete (t : Thr) (s : State) : exec (.syncComplete t) s = execSyncComplete t s := rfl
theorem exec_drain (t : Thr) (s : State) : exec (.drain t) s = execDrain t s := rfl
theorem exec_drainEnd (t : Thr) (s : State) : exec (.drainEnd t) s = execDrainEnd t s := rfl
theorem exec_drainTimeout (t : Thr) (s : State) : exec (.drainTimeout t) s = execDrainTimeout t s := rfl
theorem exec_fbar (t : Thr) (s : State) : exec (.fbar t) s = execFbar t s := rfl
theorem exec_synci (t : Thr) (s : State) : exec (.synci t) s = execSynci t s := rfl
theorem exec_retl (t : Thr) (s : State) : exec (.retl t) s = execRetl t s := rfl
theorem exec_wait (t : Thr) (s : State) : exec (.wait t) s = execWait t s := rfl
theorem exec_brk (t : Thr) (s : State) : exec (.brk t) s = execBrk t s := rfl
theorem exec_pause (t : Thr) (s : State) : exec (.pause t) s = execPause t s := rfl
theorem exec_svc (t : Thr) (imm : BitVec 16) (s : State) : exec (.svc t imm) s = execSvc t imm s := rfl
theorem exec_mfs (t : Thr) (rd : GReg) (n : BitVec 12) (s : State) : exec (.mfs t rd n) s = execMfs t rd n s := rfl
theorem exec_mts (t : Thr) (ra : GReg) (n : BitVec 12) (s : State) : exec (.mts t ra n) s = execMts t ra n s := rfl
theorem exec_tlbwr (t : Thr) (ra : GReg) (rb : GReg) (s : State) : exec (.tlbwr t ra rb) s = execTlbwr t ra rb s := rfl
theorem exec_twalk (t : Thr) (rd : GReg) (ra : GReg) (rb : GReg) (s : State) : exec (.twalk t rd ra rb) s = execTwalk t rd ra rb s := rfl
theorem exec_tlbiVa (t : Thr) (ra : GReg) (rb : GReg) (s : State) : exec (.tlbiVa t ra rb) s = execTlbiVa t ra rb s := rfl
theorem exec_tlbiVaB (t : Thr) (ra : GReg) (rb : GReg) (s : State) : exec (.tlbiVaB t ra rb) s = execTlbiVaB t ra rb s := rfl
theorem exec_tlbiTag (t : Thr) (rb : GReg) (s : State) : exec (.tlbiTag t rb) s = execTlbiTag t rb s := rfl
theorem exec_tlbiTagB (t : Thr) (rb : GReg) (s : State) : exec (.tlbiTagB t rb) s = execTlbiTagB t rb s := rfl
theorem exec_tlbiAll (t : Thr) (s : State) : exec (.tlbiAll t) s = execTlbiAll t s := rfl
theorem exec_tlbiAllB (t : Thr) (s : State) : exec (.tlbiAllB t) s = execTlbiAllB t s := rfl
theorem exec_wciVa (t : Thr) (ra : GReg) (rb : GReg) (s : State) : exec (.wciVa t ra rb) s = execWciVa t ra rb s := rfl
theorem exec_wciVaB (t : Thr) (ra : GReg) (rb : GReg) (s : State) : exec (.wciVaB t ra rb) s = execWciVaB t ra rb s := rfl
theorem exec_wciTag (t : Thr) (rb : GReg) (s : State) : exec (.wciTag t rb) s = execWciTag t rb s := rfl
theorem exec_wciTagB (t : Thr) (rb : GReg) (s : State) : exec (.wciTagB t rb) s = execWciTagB t rb s := rfl
theorem exec_wciAll (t : Thr) (s : State) : exec (.wciAll t) s = execWciAll t s := rfl
theorem exec_wciAllB (t : Thr) (s : State) : exec (.wciAllB t) s = execWciAllB t s := rfl
theorem exec_invalidationBroadcastReceive (src : InvSrc) (c : Pcore) (s : State) : exec (.invalidationBroadcastReceive src c) s = execInvalidationBroadcastReceive src c s := rfl
theorem exec_invalidationComplete (t : Thr) (s : State) : exec (.invalidationComplete t) s = execInvalidationComplete t s := rfl
theorem exec_clwb (t : Thr) (ra : GReg) (s : State) : exec (.clwb t ra) s = execClwb t ra s := rfl
theorem exec_clflush (t : Thr) (ra : GReg) (s : State) : exec (.clflush t ra) s = execClflush t ra s := rfl
theorem exec_clinv (t : Thr) (ra : GReg) (s : State) : exec (.clinv t ra) s = execClinv t ra s := rfl
theorem exec_clzero (t : Thr) (ra : GReg) (s : State) : exec (.clzero t ra) s = execClzero t ra s := rfl
theorem exec_prefr (t : Thr) (ra : GReg) (s : State) : exec (.prefr t ra) s = execPrefr t ra s := rfl
theorem exec_prefw (t : Thr) (ra : GReg) (s : State) : exec (.prefw t ra) s = execPrefw t ra s := rfl
theorem exec_icinv (t : Thr) (ra : GReg) (s : State) : exec (.icinv t ra) s = execIcinv t ra s := rfl
theorem exec_sInterruptEntry (t : Thr) (s : State) : exec (.sInterruptEntry t) s = execSInterruptEntry t s := rfl
theorem exec_mInterruptEntry (t : Thr) (s : State) : exec (.mInterruptEntry t) s = execMInterruptEntry t s := rfl
theorem exec_stimerMatch (t : Thr) (s : State) : exec (.stimerMatch t) s = execStimerMatch t s := rfl
theorem exec_identifierArrive (t : Thr) (mlevel : Bool) (id : BitVec 16) (s : State) : exec (.identifierArrive t mlevel id) s = execIdentifierArrive t mlevel id s := rfl
theorem exec_mycIpi (org : Origin) (val : Word) (s : State) : exec (.mycIpi org val) s = execMycIpi org val s := rfl
theorem exec_takeoverResumeEntry (t : Thr) (s : State) : exec (.takeoverResumeEntry t) s = execTakeoverResumeEntry t s := rfl
theorem exec_retryExhaustedNotification (t : Thr) (s : State) : exec (.retryExhaustedNotification t) s = execRetryExhaustedNotification t s := rfl
theorem exec_windthrowWarning (s : State) : exec (.windthrowWarning) s = execWindthrowWarning s := rfl
theorem exec_storeVisible (t : Thr) (s : State) : exec (.storeVisible t) s = execStoreVisible t s := rfl
theorem exec_deviceStoreAccept (t : Thr) (s : State) : exec (.deviceStoreAccept t) s = execDeviceStoreAccept t s := rfl
theorem exec_deviceStoreComplete (t : Thr) (idx : Nat) (s : State) : exec (.deviceStoreComplete t idx) s = execDeviceStoreComplete t idx s := rfl
theorem exec_deviceStoreTimeout (t : Thr) (idx : Nat) (s : State) : exec (.deviceStoreTimeout t idx) s = execDeviceStoreTimeout t idx s := rfl
theorem exec_zeroLengthReadSend (t : Thr) (target : Nat) (s : State) : exec (.zeroLengthReadSend t target) s = execZeroLengthReadSend t target s := rfl
theorem exec_zeroLengthReadCompletion (t : Thr) (target : Nat) (ok : Bool) (s : State) : exec (.zeroLengthReadCompletion t target ok) s = execZeroLengthReadCompletion t target ok s := rfl
theorem exec_deviceLoadComplete (t : Thr) (ok : Bool) (data : BitVec 128) (s : State) : exec (.deviceLoadComplete t ok data) s = execDeviceLoadComplete t ok data s := rfl
theorem exec_deviceLoadTimeout (t : Thr) (s : State) : exec (.deviceLoadTimeout t) s = execDeviceLoadTimeout t s := rfl
theorem exec_reservationDeferExpire (t : Thr) (s : State) : exec (.reservationDeferExpire t) s = execReservationDeferExpire t s := rfl
theorem exec_hwPrefetch (c : Pcore) (line : BitVec 43) (s : State) : exec (.hwPrefetch c line) s = execHwPrefetch c line s := rfl
theorem exec_wayDisableDone (kind : CacheKind) (inst : Pcore) (way : Fin 16) (s : State) : exec (.wayDisableDone kind inst way) s = execWayDisableDone kind inst way s := rfl
theorem exec_wayWindowEnd (l3 : Bool) (s : State) : exec (.wayWindowEnd l3) s = execWayWindowEnd l3 s := rfl
theorem exec_wayReenable (org : Origin) (l3 : Bool) (inst : Pcore) (val : Word) (s : State) : exec (.wayReenable org l3 inst val) s = execWayReenable org l3 inst val s := rfl
theorem exec_rds (h : Hdr) (s : State) : exec (.rds h) s = execRds h s := rfl
theorem exec_rdo (h : Hdr) (s : State) : exec (.rdo h) s = execRdo h s := rfl
theorem exec_upg (h : Hdr) (s : State) : exec (.upg h) s = execUpg h s := rfl
theorem exec_rdz (h : Hdr) (s : State) : exec (.rdz h) s = execRdz h s := rfl
theorem exec_wbk (h : Hdr) (data : LineData) (s : State) : exec (.wbk h data) s = execWbk h data s := rfl
theorem exec_evn (h : Hdr) (s : State) : exec (.evn h) s = execEvn h s := rfl
theorem exec_cmw (h : Hdr) (s : State) : exec (.cmw h) s = execCmw h s := rfl
theorem exec_cmf (h : Hdr) (s : State) : exec (.cmf h) s = execCmf h s := rfl
theorem exec_cmi (h : Hdr) (s : State) : exec (.cmi h) s = execCmi h s := rfl
theorem exec_pwb (h : Hdr) (data : LineData) (s : State) : exec (.pwb h data) s = execPwb h data s := rfl
theorem exec_snps (h : Hdr) (s : State) : exec (.snps h) s = execSnps h s := rfl
theorem exec_snpo (h : Hdr) (s : State) : exec (.snpo h) s = execSnpo h s := rfl
theorem exec_snpi (h : Hdr) (s : State) : exec (.snpi h) s = execSnpi h s := rfl
theorem exec_snpw (h : Hdr) (s : State) : exec (.snpw h) s = execSnpw h s := rfl
theorem exec_binv (h : Hdr) (s : State) : exec (.binv h) s = execBinv h s := rfl
theorem exec_spurge (h : Hdr) (s : State) : exec (.spurge h) s = execSpurge h s := rfl
theorem exec_cmp (h : Hdr) (s : State) : exec (.cmp h) s = execCmp h s := rfl
theorem exec_gnt (h : Hdr) (s : State) : exec (.gnt h) s = execGnt h s := rfl
theorem exec_srsp (h : Hdr) (s : State) : exec (.srsp h) s = execSrsp h s := rfl
theorem exec_invack (h : Hdr) (s : State) : exec (.invack h) s = execInvack h s := rfl
theorem exec_wack (h : Hdr) (s : State) : exec (.wack h) s = execWack h s := rfl
theorem exec_cmack (h : Hdr) (s : State) : exec (.cmack h) s = execCmack h s := rfl
theorem exec_pack (h : Hdr) (s : State) : exec (.pack h) s = execPack h s := rfl
theorem exec_err (h : Hdr) (s : State) : exec (.err h) s = execErr h s := rfl
theorem exec_data (h : Hdr) (data : LineData) (s : State) : exec (.data h data) s = execData h data s := rfl
theorem exec_srspd (h : Hdr) (data : LineData) (s : State) : exec (.srspd h data) s = execSrspd h data s := rfl
theorem exec_mrd (h : Hdr) (lo : BitVec 8) (size8 : Bool) (s : State) : exec (.mrd h lo size8) s = execMrd h lo size8 s := rfl
theorem exec_mwr (h : Hdr) (lo : BitVec 8) (size8 : Bool) (val : Word) (s : State) : exec (.mwr h lo size8 val) s = execMwr h lo size8 val s := rfl
theorem exec_tlbb (h : Hdr) (bgrp : BitVec 8) (fn : BitVec 4) (ra : Word) (rb : Word) (s : State) : exec (.tlbb h bgrp fn ra rb) s = execTlbb h bgrp fn ra rb s := rfl
theorem exec_mrsp (h : Hdr) (val : Word) (s : State) : exec (.mrsp h val) s = execMrsp h val s := rfl
theorem exec_tlba (h : Hdr) (s : State) : exec (.tlba h) s = execTlba h s := rfl
theorem exec_unknownOpcode (p : GrovePort) (s : State) : exec (.unknownOpcode p) s = execUnknownOpcode p s := rfl
theorem exec_canopyWayReenable (org : Origin) (bank : Fin 16) (val : Word) (s : State) : exec (.canopyWayReenable org bank val) s = execCanopyWayReenable org bank val s := rfl
theorem exec_nak (p : GrovePort) (lseq : BitVec 12) (s : State) : exec (.nak p lseq) s = execNak p lseq s := rfl
theorem exec_flitCrcFailure (p : GrovePort) (s : State) : exec (.flitCrcFailure p) s = execFlitCrcFailure p s := rfl
theorem exec_relayedFlit (p : GrovePort) (f : Relayed) (s : State) : exec (.relayedFlit p f) s = execRelayedFlit p f s := rfl
theorem exec_resume (p : GrovePort) (lost : GrovePort) (lseq : BitVec 12) (s : State) : exec (.resume p lost lseq) s = execResume p lost lseq s := rfl
theorem exec_wthrow (m : Module) (s : State) : exec (.wthrow m) s = execWthrow m s := rfl
theorem exec_flitTimeout (p : GrovePort) (s : State) : exec (.flitTimeout p) s = execFlitTimeout p s := rfl
theorem exec_laneFail (p : GrovePort) (lane : Fin 16) (s : State) : exec (.laneFail p lane) s = execLaneFail p lane s := rfl
theorem exec_quickRetrainDone (p : GrovePort) (ok : Bool) (ident : PortIdent) (s : State) : exec (.quickRetrainDone p ok ident) s = execQuickRetrainDone p ok ident s := rfl
theorem exec_quickRetrainTimeout (p : GrovePort) (s : State) : exec (.quickRetrainTimeout p) s = execQuickRetrainTimeout p s := rfl
theorem exec_grovePortTrained (p : GrovePort) (lanes : BitVec 16) (ident : PortIdent) (s : State) : exec (.grovePortTrained p lanes ident) s = execGrovePortTrained p lanes ident s := rfl
theorem exec_severanceTimeout (m : Module) (s : State) : exec (.severanceTimeout m) s = execSeveranceTimeout m s := rfl
theorem exec_rootLinkTrainTimeout (n : Link) (step : Fin 8) (s : State) : exec (.rootLinkTrainTimeout n step) s = execRootLinkTrainTimeout n step s := rfl
theorem exec_rootLinkInService (n : Link) (x4 : Bool) (capq : Nat) (s : State) : exec (.rootLinkInService n x4 capq) s = execRootLinkInService n x4 capq s := rfl
theorem exec_cxlReadResponse (n : Link) (la : Nat) (poison : Bool) (s : State) : exec (.cxlReadResponse n la poison) s = execCxlReadResponse n la poison s := rfl
theorem exec_cxlWriteCompletion (n : Link) (la : Nat) (s : State) : exec (.cxlWriteCompletion n la) s = execCxlWriteCompletion n la s := rfl
theorem exec_mtmoExpire (n : Link) (la : Nat) (wr : Bool) (s : State) : exec (.mtmoExpire n la wr) s = execMtmoExpire n la wr s := rfl
theorem exec_rootLinkDown (n : Link) (s : State) : exec (.rootLinkDown n) s = execRootLinkDown n s := rfl
theorem exec_rootLinkRetrainTimeout (n : Link) (s : State) : exec (.rootLinkRetrainTimeout n) s = execRootLinkRetrainTimeout n s := rfl
theorem exec_revive (org : Origin) (n : Link) (s : State) : exec (.revive org n) s = execRevive org n s := rfl
theorem exec_holdSet (org : Origin) (n : Link) (s : State) : exec (.holdSet org n) s = execHoldSet org n s := rfl
theorem exec_holdClear (org : Origin) (n : Link) (s : State) : exec (.holdClear org n) s = execHoldClear org n s := rfl
theorem exec_rtlCfgGo (org : Origin) (n : Link) (val : Word) (s : State) : exec (.rtlCfgGo org n val) s = execRtlCfgGo org n val s := rfl
theorem exec_rtlCfgDone (n : Link) (ok : Bool) (data : BitVec 32) (s : State) : exec (.rtlCfgDone n ok data) s = execRtlCfgDone n ok data s := rfl
theorem exec_mirrorCopyLine (k : Fin 8) (s : State) : exec (.mirrorCopyLine k) s = execMirrorCopyLine k s := rfl
theorem exec_patrolScrubLine (n : Link) (poison : Bool) (s : State) : exec (.patrolScrubLine n poison) s = execPatrolScrubLine n poison s := rfl
theorem exec_inboundWrite (g : Glade) (ph : PortHalf) (addr : Word) (bytes : List Byte) (s : State) : exec (.inboundWrite g ph addr bytes) s = execInboundWrite g ph addr bytes s := rfl
theorem exec_inboundRead (g : Glade) (ph : PortHalf) (addr : Word) (len : Nat) (s : State) : exec (.inboundRead g ph addr len) s = execInboundRead g ph addr len s := rfl
theorem exec_msixMessage (g : Glade) (ph : PortHalf) (addr : Word) (data : BitVec 32) (s : State) : exec (.msixMessage g ph addr data) s = execMsixMessage g ph addr data s := rfl
theorem exec_inboundK1Other (g : Glade) (ph : PortHalf) (addr : Word) (s : State) : exec (.inboundK1Other g ph addr) s = execInboundK1Other g ph addr s := rfl
theorem exec_portHalfUp (g : Glade) (ph : PortHalf) (speed : BitVec 4) (width : BitVec 4) (s : State) : exec (.portHalfUp g ph speed width) s = execPortHalfUp g ph speed width s := rfl
theorem exec_portHalfDown (g : Glade) (ph : PortHalf) (s : State) : exec (.portHalfDown g ph) s = execPortHalfDown g ph s := rfl
theorem exec_bind (org : Origin) (g : Glade) (sl : SliceId) (arg : BitVec 32) (s : State) : exec (.bind org g sl arg) s = execBind org g sl arg s := rfl
theorem exec_unbind (org : Origin) (g : Glade) (sl : SliceId) (arg : BitVec 32) (s : State) : exec (.unbind org g sl arg) s = execUnbind org g sl arg s := rfl
theorem exec_openTract (org : Origin) (g : Glade) (sl : SliceId) (arg : BitVec 32) (s : State) : exec (.openTract org g sl arg) s = execOpenTract org g sl arg s := rfl
theorem exec_closeTract (org : Origin) (g : Glade) (sl : SliceId) (arg : BitVec 32) (s : State) : exec (.closeTract org g sl arg) s = execCloseTract org g sl arg s := rfl
theorem exec_loadWin (org : Origin) (g : Glade) (sl : SliceId) (arg : BitVec 32) (s : State) : exec (.loadWin org g sl arg) s = execLoadWin org g sl arg s := rfl
theorem exec_loadCq (org : Origin) (g : Glade) (sl : SliceId) (arg : BitVec 32) (s : State) : exec (.loadCq org g sl arg) s = execLoadCq org g sl arg s := rfl
theorem exec_dlswap (org : Origin) (g : Glade) (sl : SliceId) (arg : BitVec 32) (s : State) : exec (.dlswap org g sl arg) s = execDlswap org g sl arg s := rfl
theorem exec_sliceCmdUnknownOp (org : Origin) (g : Glade) (sl : SliceId) (op : BitVec 4) (s : State) : exec (.sliceCmdUnknownOp org g sl op) s = execSliceCmdUnknownOp org g sl op s := rfl
theorem exec_genWaitElapsed (g : Glade) (sl : SliceId) (s : State) : exec (.genWaitElapsed g sl) s = execGenWaitElapsed g sl s := rfl
theorem exec_doorbell (org : Origin) (g : Glade) (sl : SliceId) (val : Word) (s : State) : exec (.doorbell org g sl val) s = execDoorbell org g sl val s := rfl
theorem exec_cqDoorbell (org : Origin) (g : Glade) (sl : SliceId) (val : Word) (s : State) : exec (.cqDoorbell org g sl val) s = execCqDoorbell org g sl val s := rfl
theorem exec_gcwFetch (g : Glade) (tract : Fin 65536) (s : State) : exec (.gcwFetch g tract) s = execGcwFetch g tract s := rfl
theorem exec_tractTaskBind (g : Glade) (tract : Fin 65536) (task : TaskId) (s : State) : exec (.tractTaskBind g tract task) s = execTractTaskBind g tract task s := rfl
theorem exec_operationTimeout (g : Glade) (op : Fin 4096) (s : State) : exec (.operationTimeout g op) s = execOperationTimeout g op s := rfl
theorem exec_coalesceTimeout (g : Glade) (sl : SliceId) (q : Fin 16) (s : State) : exec (.coalesceTimeout g sl q) s = execCoalesceTimeout g sl q s := rfl
theorem exec_dirtyLogConfigWrite (org : Origin) (g : Glade) (sl : SliceId) (reg : Fin 3) (val : Word) (s : State) : exec (.dirtyLogConfigWrite org g sl reg val) s = execDirtyLogConfigWrite org g sl reg val s := rfl
theorem exec_gladeRestoreDone (g : Glade) (s : State) : exec (.gladeRestoreDone g) s = execGladeRestoreDone g s := rfl
theorem exec_ledgerWriteRetry (g : Glade) (sl : SliceId) (s : State) : exec (.ledgerWriteRetry g sl) s = execLedgerWriteRetry g sl s := rfl
theorem exec_ldgHaltWrite (org : Origin) (g : Glade) (sl : SliceId) (halt : Bool) (s : State) : exec (.ldgHaltWrite org g sl halt) s = execLdgHaltWrite org g sl halt s := rfl
theorem exec_adopt (org : Origin) (g : Glade) (sl : SliceId) (s : State) : exec (.adopt org g sl) s = execAdopt org g sl s := rfl
theorem exec_twigLd (p : TwigProc) (r : BitVec 4) (b : ANum) (disp : BitVec 6) (s : State) : exec (.twigLd p r b disp) s = execTwigLd p r b disp s := rfl
theorem exec_twigSt (p : TwigProc) (r : BitVec 4) (b : ANum) (disp : BitVec 6) (s : State) : exec (.twigSt p r b disp) s = execTwigSt p r b disp s := rfl
theorem exec_twigLdAddr (p : TwigProc) (a : ANum) (b : ANum) (disp : BitVec 6) (s : State) : exec (.twigLdAddr p a b disp) s = execTwigLdAddr p a b disp s := rfl
theorem exec_twigStAddr (p : TwigProc) (a : ANum) (b : ANum) (disp : BitVec 6) (s : State) : exec (.twigStAddr p a b disp) s = execTwigStAddr p a b disp s := rfl
theorem exec_ldm (p : TwigProc) (w : Bool) (b : ANum) (mask : BitVec 14) (s : State) : exec (.ldm p w b mask) s = execLdm p w b mask s := rfl
theorem exec_stm (p : TwigProc) (w : Bool) (b : ANum) (mask : BitVec 14) (s : State) : exec (.stm p w b mask) s = execStm p w b mask s := rfl
theorem exec_twigAdd (p : TwigProc) (n : Bool) (src : AluSrc) (s : State) : exec (.twigAdd p n src) s = execTwigAdd p n src s := rfl
theorem exec_twigAdc (p : TwigProc) (n : Bool) (src : AluSrc) (s : State) : exec (.twigAdc p n src) s = execTwigAdc p n src s := rfl
theorem exec_twigSub (p : TwigProc) (n : Bool) (src : AluSrc) (s : State) : exec (.twigSub p n src) s = execTwigSub p n src s := rfl
theorem exec_twigSbc (p : TwigProc) (n : Bool) (src : AluSrc) (s : State) : exec (.twigSbc p n src) s = execTwigSbc p n src s := rfl
theorem exec_twigAnd (p : TwigProc) (n : Bool) (src : AluSrc) (s : State) : exec (.twigAnd p n src) s = execTwigAnd p n src s := rfl
theorem exec_twigOr (p : TwigProc) (n : Bool) (src : AluSrc) (s : State) : exec (.twigOr p n src) s = execTwigOr p n src s := rfl
theorem exec_twigXor (p : TwigProc) (n : Bool) (src : AluSrc) (s : State) : exec (.twigXor p n src) s = execTwigXor p n src s := rfl
theorem exec_shl (p : TwigProc) (n : Bool) (amt : BitVec 3) (s : State) : exec (.shl p n amt) s = execShl p n amt s := rfl
theorem exec_shr (p : TwigProc) (n : Bool) (amt : BitVec 3) (s : State) : exec (.shr p n amt) s = execShr p n amt s := rfl
theorem exec_asr (p : TwigProc) (n : Bool) (amt : BitVec 3) (s : State) : exec (.asr p n amt) s = execAsr p n amt s := rfl
theorem exec_rol (p : TwigProc) (n : Bool) (amt : BitVec 3) (s : State) : exec (.rol p n amt) s = execRol p n amt s := rfl
theorem exec_twigRor (p : TwigProc) (n : Bool) (amt : BitVec 3) (s : State) : exec (.twigRor p n amt) s = execTwigRor p n amt s := rfl
theorem exec_rlc (p : TwigProc) (n : Bool) (amt : BitVec 3) (s : State) : exec (.rlc p n amt) s = execRlc p n amt s := rfl
theorem exec_rrc (p : TwigProc) (n : Bool) (amt : BitVec 3) (s : State) : exec (.rrc p n amt) s = execRrc p n amt s := rfl
theorem exec_ldi (p : TwigProc) (r : BitVec 4) (imm : BitVec 8) (s : State) : exec (.ldi p r imm) s = execLdi p r imm s := rfl
theorem exec_twigMov (p : TwigProc) (r : BitVec 4) (src : BitVec 4) (s : State) : exec (.twigMov p r src) s = execTwigMov p r src s := rfl
theorem exec_movAddrAddr (p : TwigProc) (a : ANum) (b : ANum) (s : State) : exec (.movAddrAddr p a b) s = execMovAddrAddr p a b s := rfl
theorem exec_movAddrDataPair (p : TwigProc) (a : ANum) (k : BitVec 2) (s : State) : exec (.movAddrDataPair p a k) s = execMovAddrDataPair p a k s := rfl
theorem exec_movDataPairAddr (p : TwigProc) (k : BitVec 2) (a : ANum) (s : State) : exec (.movDataPairAddr p k a) s = execMovDataPairAddr p k a s := rfl
theorem exec_movAddrTsr (p : TwigProc) (a : ANum) (s : State) : exec (.movAddrTsr p a) s = execMovAddrTsr p a s := rfl
theorem exec_adda (p : TwigProc) (a : ANum) (imm : BitVec 10) (s : State) : exec (.adda p a imm) s = execAdda p a imm s := rfl
theorem exec_lda (p : TwigProc) (a : ANum) (imm : BitVec 16) (s : State) : exec (.lda p a imm) s = execLda p a imm s := rfl
theorem exec_cbeq (p : TwigProc) (opd : CmpOpd) (disp : BitVec 8) (s : State) : exec (.cbeq p opd disp) s = execCbeq p opd disp s := rfl
theorem exec_cbne (p : TwigProc) (opd : CmpOpd) (disp : BitVec 8) (s : State) : exec (.cbne p opd disp) s = execCbne p opd disp s := rfl
theorem exec_cblt (p : TwigProc) (opd : CmpOpd) (disp : BitVec 8) (s : State) : exec (.cblt p opd disp) s = execCblt p opd disp s := rfl
theorem exec_cbge (p : TwigProc) (opd : CmpOpd) (disp : BitVec 8) (s : State) : exec (.cbge p opd disp) s = execCbge p opd disp s := rfl
theorem exec_twigJ (p : TwigProc) (target : BitVec 16) (s : State) : exec (.twigJ p target) s = execTwigJ p target s := rfl
theorem exec_jl (p : TwigProc) (c : ANum) (target : BitVec 16) (s : State) : exec (.jl p c target) s = execJl p c target s := rfl
theorem exec_jr (p : TwigProc) (b : ANum) (s : State) : exec (.jr p b) s = execJr p b s := rfl
theorem exec_mfb (p : TwigProc) (own : BitVec 4) (other : BitVec 4) (s : State) : exec (.mfb p own other) s = execMfb p own other s := rfl
theorem exec_mtb (p : TwigProc) (own : BitVec 4) (other : BitVec 4) (s : State) : exec (.mtb p own other) s = execMtb p own other s := rfl
theorem exec_twigWait (p : TwigProc) (mask : BitVec 8) (s : State) : exec (.twigWait p mask) s = execTwigWait p mask s := rfl
theorem exec_trap (p : TwigProc) (code : BitVec 8) (s : State) : exec (.trap p code) s = execTrap p code s := rfl
theorem exec_rsm (p : TwigProc) (k : Bool) (s : State) : exec (.rsm p k) s = execRsm p k s := rfl
theorem exec_twigNop (p : TwigProc) (s : State) : exec (.twigNop p) s = execTwigNop p s := rfl
theorem exec_twigIllegal (p : TwigProc) (w16 : BitVec 16) (ext : BitVec 16) (s : State) : exec (.twigIllegal p w16 ext) s = execTwigIllegal p w16 ext s := rfl
theorem exec_bankFill (e : Engine) (task : TaskId) (ok : Bool) (s : State) : exec (.bankFill e task ok) s = execBankFill e task ok s := rfl
theorem exec_twgTPost (e : Engine) (task : TaskId) (val : Word) (s : State) : exec (.twgTPost e task val) s = execTwgTPost e task val s := rfl
theorem exec_twgTTimerWrite (e : Engine) (task : TaskId) (val : Word) (s : State) : exec (.twgTTimerWrite e task val) s = execTwgTTimerWrite e task val s := rfl
theorem exec_tmrExpire (e : Engine) (task : TaskId) (s : State) : exec (.tmrExpire e task) s = execTmrExpire e task s := rfl
theorem exec_xdataRead (e : Engine) (task : TaskId) (s : State) : exec (.xdataRead e task) s = execXdataRead e task s := rfl
theorem exec_xdataWrite (e : Engine) (task : TaskId) (val : Word) (s : State) : exec (.xdataWrite e task val) s = execXdataWrite e task val s := rfl
theorem exec_pdataRead (e : Engine) (task : TaskId) (s : State) : exec (.pdataRead e task) s = execPdataRead e task s := rfl
theorem exec_pdataWrite (e : Engine) (task : TaskId) (val : Word) (s : State) : exec (.pdataWrite e task val) s = execPdataWrite e task val s := rfl
theorem exec_portRequestDone (e : Engine) (task : TaskId) (st : BitVec 2) (data : Word) (s : State) : exec (.portRequestDone e task st data) s = execPortRequestDone e task st data s := rfl
theorem exec_dmvSub (e : Engine) (task : TaskId) (m : Fin 8) (val : Word) (s : State) : exec (.dmvSub e task m val) s = execDmvSub e task m val s := rfl
theorem exec_moverTransfer (mv : Fin 32) (portOk : Bool) (portBytes : List Byte) (s : State) : exec (.moverTransfer mv portOk portBytes) s = execMoverTransfer mv portOk portBytes s := rfl
theorem exec_twgTstart (e : Engine) (task : TaskId) (val : Word) (s : State) : exec (.twgTstart e task val) s = execTwgTstart e task val s := rfl
theorem exec_twgSignal (e : Engine) (task : TaskId) (val : Word) (s : State) : exec (.twgSignal e task val) s = execTwgSignal e task val s := rfl
theorem exec_twgCfgWrite (e : Engine) (task : TaskId) (val : Word) (s : State) : exec (.twgCfgWrite e task val) s = execTwgCfgWrite e task val s := rfl
theorem exec_engineMailboxStore (e : Engine) (addr : BitVec 16) (bytes : List Byte) (s : State) : exec (.engineMailboxStore e addr bytes) s = execEngineMailboxStore e addr bytes s := rfl
theorem exec_microcodeSwapDone (e : Engine) (s : State) : exec (.microcodeSwapDone e) s = execMicrocodeSwapDone e s := rfl
theorem exec_twigScrub (e : Engine) (found : TwigScrub) (s : State) : exec (.twigScrub e found) s = execTwigScrub e found s := rfl
theorem exec_colSub (e : Engine) (task : TaskId) (val : Word) (s : State) : exec (.colSub e task val) s = execColSub e task val s := rfl
theorem exec_compressJob (g : Glade) (sl : SliceId) (q : Fin 4) (fault : LaneFault) (s : State) : exec (.compressJob g sl q fault) s = execCompressJob g sl q fault s := rfl
theorem exec_decompressJob (g : Glade) (sl : SliceId) (q : Fin 4) (fault : LaneFault) (s : State) : exec (.decompressJob g sl q fault) s = execDecompressJob g sl q fault s := rfl
theorem exec_scanJob (g : Glade) (sl : SliceId) (q : Fin 4) (fault : LaneFault) (s : State) : exec (.scanJob g sl q fault) s = execScanJob g sl q fault s := rfl
theorem exec_columnJobEnd (g : Glade) (sl : SliceId) (q : Fin 4) (s : State) : exec (.columnJobEnd g sl q) s = execColumnJobEnd g sl q s := rfl
theorem exec_brkSub (e : Engine) (task : TaskId) (val : Word) (s : State) : exec (.brkSub e task val) s = execBrkSub e task val s := rfl
theorem exec_gcmJob (g : Glade) (sl : SliceId) (fault : LaneFault) (s : State) : exec (.gcmJob g sl fault) s = execGcmJob g sl fault s := rfl
theorem exec_gmacJob (g : Glade) (sl : SliceId) (fault : LaneFault) (s : State) : exec (.gmacJob g sl fault) s = execGmacJob g sl fault s := rfl
theorem exec_xtsJob (g : Glade) (sl : SliceId) (fault : LaneFault) (s : State) : exec (.xtsJob g sl fault) s = execXtsJob g sl fault s := rfl
theorem exec_cbcJob (g : Glade) (sl : SliceId) (fault : LaneFault) (s : State) : exec (.cbcJob g sl fault) s = execCbcJob g sl fault s := rfl
theorem exec_ctrJob (g : Glade) (sl : SliceId) (fault : LaneFault) (s : State) : exec (.ctrJob g sl fault) s = execCtrJob g sl fault s := rfl
theorem exec_cmacJob (g : Glade) (sl : SliceId) (fault : LaneFault) (s : State) : exec (.cmacJob g sl fault) s = execCmacJob g sl fault s := rfl
theorem exec_barkJobEnd (g : Glade) (sl : SliceId) (s : State) : exec (.barkJobEnd g sl) s = execBarkJobEnd g sl s := rfl
theorem exec_deviceKeyPairReady (d : BitVec 384) (s : State) : exec (.deviceKeyPairReady d) s = execDeviceKeyPairReady d s := rfl
theorem exec_rngHealthFail (s : State) : exec (.rngHealthFail) s = execRngHealthFail s := rfl
theorem exec_instructionRetry (t : Thr) (check : Fin 7) (s : State) : exec (.instructionRetry t check) s = execInstructionRetry t check s := rfl
theorem exec_hangDetect (t : Thr) (s : State) : exec (.hangDetect t) s = execHangDetect t s := rfl
theorem exec_cpcApprove (org : Origin) (reqid : BitVec 8) (s : State) : exec (.cpcApprove org reqid) s = execCpcApprove org reqid s := rfl
theorem exec_cpcDecline (org : Origin) (reqid : BitVec 8) (s : State) : exec (.cpcDecline org reqid) s = execCpcDecline org reqid s := rfl
theorem exec_cpcAppInvalid (org : Origin) (val : Word) (s : State) : exec (.cpcAppInvalid org val) s = execCpcAppInvalid org val s := rfl
theorem exec_appwaitExpire (reqid : BitVec 8) (s : State) : exec (.appwaitExpire reqid) s = execAppwaitExpire reqid s := rfl
theorem exec_takeoverDrainDone (c : Pcore) (lost : List Nat) (s : State) : exec (.takeoverDrainDone c lost) s = execTakeoverDrainDone c lost s := rfl
theorem exec_spareEntryCheckDone (c : Pcore) (ok : Bool) (s : State) : exec (.spareEntryCheckDone c ok) s = execSpareEntryCheckDone c ok s := rfl
theorem exec_takeoverTransfer (c : Pcore) (ok : Bool) (us : BitVec 32) (s : State) : exec (.takeoverTransfer c ok us) s = execTakeoverTransfer c ok us s := rfl
theorem exec_spareSelfTestPass (c : Pcore) (ok : Bool) (s : State) : exec (.spareSelfTestPass c ok) s = execSpareSelfTestPass c ok s := rfl
theorem exec_errorRecord (rep : Report) (s : State) : exec (.errorRecord rep) s = execErrorRecord rep s := rfl
theorem exec_uncontainedTrigger (trig : Fin 9) (blk : BitVec 8) (s : State) : exec (.uncontainedTrigger trig blk) s = execUncontainedTrigger trig blk s := rfl
theorem exec_arrayScrub (hit : ScrubHit) (s : State) : exec (.arrayScrub hit) s = execArrayScrub hit s := rfl
theorem exec_foresterTakeover (cause : Fin 5) (s : State) : exec (.foresterTakeover cause) s = execForesterTakeover cause s := rfl
theorem exec_watchdogExpire (s : State) : exec (.watchdogExpire) s = execWatchdogExpire s := rfl
theorem exec_watchdogKick (unitB : Bool) (s : State) : exec (.watchdogKick unitB) s = execWatchdogKick unitB s := rfl
theorem exec_foresterTick (s : State) : exec (.foresterTick) s = execForesterTick s := rfl
theorem exec_foresterWorkArrival (cls : Fin 8) (work : Work) (s : State) : exec (.foresterWorkArrival cls work) s = execForesterWorkArrival cls work s := rfl
theorem exec_outputStageCommand (stage : Stage) (claim : BitVec 8) (seq : BitVec 16) (cmd : StageCmd) (s : State) : exec (.outputStageCommand stage claim seq cmd) s = execOutputStageCommand stage claim seq cmd s := rfl
theorem exec_logHeadWrite (org : Origin) (val : Word) (s : State) : exec (.logHeadWrite org val) s = execLogHeadWrite org val s := rfl
theorem exec_handoverQuiesced (ok : Bool) (s : State) : exec (.handoverQuiesced ok) s = execHandoverQuiesced ok s := rfl
theorem exec_forMbdb (org : Origin) (p : Part) (val : Word) (s : State) : exec (.forMbdb org p val) s = execForMbdb org p val s := rfl
theorem exec_mboxResetDomain (p : Part) (s : State) : exec (.mboxResetDomain p) s = execMboxResetDomain p s := rfl
theorem exec_mboxPing (p : Part) (s : State) : exec (.mboxPing p) s = execMboxPing p s := rfl
theorem exec_mboxUnknownOp (p : Part) (s : State) : exec (.mboxUnknownOp p) s = execMboxUnknownOp p s := rfl
theorem exec_mailboxInit (p : Part) (s : State) : exec (.mailboxInit p) s = execMailboxInit p s := rfl
theorem exec_foresterMemoryAccess (p : Part) (acc : PortAccess) (s : State) : exec (.foresterMemoryAccess p acc) s = execForesterMemoryAccess p acc s := rfl
theorem exec_pwrokDeassert (longPulse : Bool) (s : State) : exec (.pwrokDeassert longPulse) s = execPwrokDeassert longPulse s := rfl
theorem exec_controllerEvaluation (tele : Telemetry) (s : State) : exec (.controllerEvaluation tele) s = execControllerEvaluation tele s := rfl
theorem exec_avsVoltageDone (st : Stand) (s : State) : exec (.avsVoltageDone st) s = execAvsVoltageDone st s := rfl
theorem exec_avsError (st : Stand) (s : State) : exec (.avsError st) s = execAvsError st s := rfl
theorem exec_pmbusPoll (rail : Fin 10) (ans : RailAnswer) (s : State) : exec (.pmbusPoll rail ans) s = execPmbusPoll rail ans s := rfl
theorem exec_pmbAlert (rail : Fin 10) (status : BitVec 16) (s : State) : exec (.pmbAlert rail status) s = execPmbAlert rail status s := rfl
theorem exec_railOutOfTolerance (rail : Fin 10) (mv : BitVec 16) (for2us : Bool) (s : State) : exec (.railOutOfTolerance rail mv for2us) s = execRailOutOfTolerance rail mv for2us s := rfl
theorem exec_prochotAssert (s : State) : exec (.prochotAssert) s = execProchotAssert s := rfl
theorem exec_prochotRelease (s : State) : exec (.prochotRelease) s = execProchotRelease s := rfl
theorem exec_standOvercurrent (st : Stand) (high : Bool) (s : State) : exec (.standOvercurrent st high) s = execStandOvercurrent st high s := rfl
theorem exec_tjEmergency (hot : Bool) (tj : BitVec 8) (idx : Fin 32) (s : State) : exec (.tjEmergency hot tj idx) s = execTjEmergency hot tj idx s := rfl
theorem exec_thermtrip (tj : BitVec 8) (idx : Fin 32) (s : State) : exec (.thermtrip tj idx) s = execThermtrip tj idx s := rfl
theorem exec_referenceLoss (ref : Fin 6) (s : State) : exec (.referenceLoss ref) s = execReferenceLoss ref s := rfl
theorem exec_referenceReturn (ref : Fin 6) (s : State) : exec (.referenceReturn ref) s = execReferenceReturn ref s := rfl
theorem exec_bypass (code : BitVec 8) (s : State) : exec (.bypass code) s = execBypass code s := rfl
theorem exec_idcode (s : State) : exec (.idcode) s = execIdcode s := rfl
theorem exec_samplePreload (s : State) : exec (.samplePreload) s = execSamplePreload s := rfl
theorem exec_extest (s : State) : exec (.extest) s = execExtest s := rfl
theorem exec_clamp (s : State) : exec (.clamp) s = execClamp s := rfl
theorem exec_highz (s : State) : exec (.highz) s = execHighz s := rfl
theorem exec_testLogicReset (s : State) : exec (.testLogicReset) s = execTestLogicReset s := rfl
theorem exec_setdasa (addr : BitVec 7) (s : State) : exec (.setdasa addr) s = execSetdasa addr s := rfl
theorem exec_entdaa (addr : BitVec 7) (s : State) : exec (.entdaa addr) s = execEntdaa addr s := rfl
theorem exec_rstdaa (s : State) : exec (.rstdaa) s = execRstdaa s := rfl
theorem exec_enec (ev : BitVec 8) (s : State) : exec (.enec ev) s = execEnec ev s := rfl
theorem exec_disec (ev : BitVec 8) (s : State) : exec (.disec ev) s = execDisec ev s := rfl
theorem exec_getpid (s : State) : exec (.getpid) s = execGetpid s := rfl
theorem exec_getbcr (s : State) : exec (.getbcr) s = execGetbcr s := rfl
theorem exec_getdcr (s : State) : exec (.getdcr) s = execGetdcr s := rfl
theorem exec_getstatus (s : State) : exec (.getstatus) s = execGetstatus s := rfl
theorem exec_getmwl (s : State) : exec (.getmwl) s = execGetmwl s := rfl
theorem exec_getmrl (s : State) : exec (.getmrl) s = execGetmrl s := rfl
theorem exec_i3cPrivateWrite (bytes : List Byte) (s : State) : exec (.i3cPrivateWrite bytes) s = execI3cPrivateWrite bytes s := rfl
theorem exec_i3cPrivateRead (len : Nat) (s : State) : exec (.i3cPrivateRead len) s = execI3cPrivateRead len s := rfl
theorem exec_retryWindowEnd (s : State) : exec (.retryWindowEnd) s = execRetryWindowEnd s := rfl
theorem exec_canopyWindowEnd (s : State) : exec (.canopyWindowEnd) s = execCanopyWindowEnd s := rfl
theorem exec_aerEvent (root : Bool) (inst : Fin 32) (corr : Bool) (s : State) : exec (.aerEvent root inst corr) s = execAerEvent root inst corr s := rfl
theorem exec_intxMessage (g : Glade) (ph : PortHalf) (s : State) : exec (.intxMessage g ph) s = execIntxMessage g ph s := rfl
theorem exec_idleFlit (p : GrovePort) (lack : BitVec 12) (vc : BitVec 3) (cred : BitVec 13) (s : State) : exec (.idleFlit p lack vc cred) s = execIdleFlit p lack vc cred s := rfl

end Sys2Proof.Machine
end

