-- ==== Sys2Proof/Laws/Fld.lean ====
section
/-! SUPPORT. Bit fields: a field put into a word reads back, and every other field of the word reads as before. -/

namespace Sys2Proof.Machine

theorem Fld.testBit_get (f : Fld) (w : BitVec 64) (i : Nat) :
    (f.get w).testBit i = (decide (i < f.width) && w.toNat.testBit (f.lsb + i)) := by
  unfold Fld.get
  rw [Nat.testBit_mod_two_pow, Nat.testBit_div_two_pow, Nat.add_comm i f.lsb]

theorem Fld.testBit_mask (f : Fld) (i : Nat) :
    f.mask.toNat.testBit i = (decide (i < 64) && decide (f.lsb ≤ i) && decide (i < f.lsb + f.width)) := by
  unfold Fld.mask
  rw [BitVec.toNat_ofNat, Nat.testBit_mod_two_pow, Nat.testBit_mul_two_pow, Nat.testBit_two_pow_sub_one]
  by_cases h : f.lsb ≤ i
  · have : (i - f.lsb < f.width) ↔ (i < f.lsb + f.width) := by omega
    simp [h, this]
  · simp [h]

theorem Fld.testBit_put (f : Fld) (w : BitVec 64) (v i : Nat) (hi : i < 64) :
    (f.put w v).toNat.testBit i =
      if f.lsb ≤ i ∧ i < f.lsb + f.width then v.testBit (i - f.lsb) else w.toNat.testBit i := by
  unfold Fld.put
  rw [BitVec.toNat_or, Nat.testBit_or, BitVec.toNat_and, Nat.testBit_and, BitVec.toNat_not, BitVec.toNat_ofNat,
    Nat.testBit_mod_two_pow, Nat.testBit_mul_two_pow, Nat.testBit_mod_two_pow]
  have hn : (2 ^ 64 - 1 - f.mask.toNat).testBit i = !f.mask.toNat.testBit i := by
    have hlt := f.mask.isLt
    rw [show 2 ^ 64 - 1 - f.mask.toNat = 2 ^ 64 - (f.mask.toNat + 1) by omega, Nat.testBit_two_pow_sub_succ hlt]
    simp [hi]
  rw [hn, f.testBit_mask]
  by_cases h1 : f.lsb ≤ i <;> by_cases h2 : i < f.lsb + f.width
  · have : i - f.lsb < f.width := by omega
    simp [h1, h2, hi, this]
  · have : ¬ i - f.lsb < f.width := by omega
    simp [h1, h2, hi, this]
  · simp [h1, h2, hi]
  · simp [h1, h2, hi]

/-- A field put into a word reads back, cut to its width. -/
theorem Fld.get_put_self (f : Fld) (w : BitVec 64) (v : Nat) (h : f.lsb + f.width ≤ 64) :
    f.get (f.put w v) = v % 2 ^ f.width := by
  apply Nat.eq_of_testBit_eq
  intro i
  rw [f.testBit_get, Nat.testBit_mod_two_pow]
  by_cases hi : i < f.width
  · rw [f.testBit_put _ _ _ (by omega), if_pos (by omega), Nat.add_sub_cancel_left]
  · simp [hi]

/-- A field that shares no bit with the one put reads as before. -/
theorem Fld.get_put_ne (f g : Fld) (w : BitVec 64) (v : Nat) (h : g.lsb + g.width ≤ f.lsb ∨ f.lsb + f.width ≤ g.lsb) :
    g.get (f.put w v) = g.get w := by
  apply Nat.eq_of_testBit_eq
  intro i
  rw [g.testBit_get, g.testBit_get]
  by_cases hi : i < g.width
  · by_cases h64 : g.lsb + i < 64
    · rw [f.testBit_put _ _ _ h64, if_neg (by omega)]
    · have e : ∀ x : BitVec 64, x.toNat.testBit (g.lsb + i) = false := fun x =>
        Nat.testBit_lt_two_pow (Nat.lt_of_lt_of_le x.isLt (Nat.pow_le_pow_right (by omega) (by omega)))
      rw [e, e]
  · simp [hi]

end Sys2Proof.Machine
end

