-- ==== Sys2Proof/Tests/Slice0.lean ====
section
/-! SUPPORT. The model's own tests: the witnesses of every statement's hypotheses, clause by clause, the well-formedness smoke, and one-step checks whose expected values come from the spec's worked examples or from the cited standards. -/

set_option maxRecDepth 100000
set_option Elab.async false
set_option linter.unusedVariables false
set_option exponentiation.threshold 4096

namespace Sys2Proof.Tests

open Sys2Proof Sys2Proof.Machine

/-! States and operands that the witnesses use. -/

/-- A line held in M whose low bytes are 0x8877665544332211. -/
def tLine : Line := { st := .m, pres := 1, way := 0, data := 0x8877665544332211, poison := false, err := 0 }

/-- A running thread at M level at pc 0x1000, with two base registers. -/
def tThr : Thread := { Thread.reset with run := .running, pc := 0x1000, g := [(1, 0x2000), (2, 0x55)] }

/-- STEP 6 with thread 0 as given, two lines of module 0 present, region 0 granted to partition 0. -/
def tRunOf (x : Thread) : State :=
  (({ State.reset with pwrok := true, threads := [(0, x)], lines := [(16, tLine), (32, tLine)] } : State).setAct (FBK_GRANT 0) 0xC0).setF SVP_STAT SVP_STAT_STEP 6

/-- That state with the thread above. -/
def tRun : State := tRunOf tThr

/-- A TLB entry that maps the first GiB to itself for every access. -/
def tMap : TlbEnt := { size := 3, vpn := 0, tag := 0, g := true, pa := 0, d := true, a := true, us := true, ex := true, wr := true, rd := true }

/-- Thread 0 with a PST value, and its core mapping the first GiB. -/
def tAt (pst : Word) (x : Thread) : State := (tRunOf (x.setSr SR_PST pst)).modCore 0 fun c => { c with held := false, tlb := [tMap] }

/-- An entry for another page. -/
def tMap2 : TlbEnt := { tMap with size := 0, vpn := 9 }

/-- A home transaction in progress. -/
def tTx : HomeTx := { line := 48, opc := OPC_RDS, src := 1, tid := 5, part := 0, thr := none, st := .hc, wait := 0, data := none, direct := false, grant := 1, keep := 0, evict := none, rdWait := false, dead := false, acked := false }

/-- Every device granted to partition 0. -/
def tDg (s : State) : State := [0, 1, 2].foldl (fun s i => s.setAct (FBK_DGRANT 0 i) 0xFFFFFFFFFFFFFFFF) s

/-- A request header from module 1. -/
def tHdr : Hdr := { port := 0, lseq := 0, lack := 0, src := 1, rqm := 1, tid := 5, rtid := 5, st := 0, psn := false, rly := false, part := 0, la := 48 }

/-- Port 0 active toward module 1, port 1 toward module 2 (inactive); members 0, 1 and 2; partition 0 may use the first GiB. -/
def tGrove (s : State) : State :=
  ((((s.setAct GRV_PMAP 0x8281).setAct GRV_GROUP (7 <<< 40)).setF GRV_GROUP GRV_GROUP_LIVE 7).setF (GRV_STAT 0) GRV_STAT_STATE 2)

/-- The Grove with no line present. -/
def tG : State := tGrove { tRun with lines := [] }

/-- Root link 0 in service behind interleave set 0. -/
def tIl (s : State) : State := ((s.setAct (HOM_IL 0) (0x8400000000010000 : Word)).setAct (HOM_ILMAP 0) 0).setF (RTL_STAT 0) RTL_STAT_STATE 2

/-- A Grove transaction of this module, by what it waits for. -/
def tOut (k : OutKind) : OutTx := { tid := 5, dst := 1, line := 2 ^ 40 + 48, part := 0, thr := some 0, kind := k }

/-- A request for a line of module 1. -/
def tFar : Hdr := { tHdr with la := 2 ^ 40 + 48 }

/-- A slice with one window open. -/
def tSlice : Slice := { wins := [(0, some ⟨0, 0xFFFF, 0x10000, true, true, false⟩)], rings := [], tracts := [], cmd := none, left := [], recs := [], restores := 0 }

/-- Glade 0 with that slice. -/
def tGlade0 : GladeSt := { GladeSt.reset with slices := [(0, tSlice)] }

/-- Lines held, by number. -/
def tMemLines (l : List Nat) : Tab Line := l.map fun k => (k, { tLine with pres := 0 })

/-- The lines the hub tests touch. -/
def tLinesG : Tab Line := tMemLines ([16, 32] ++ (List.range 24).map (256 + ·) ++ (List.range 4).map (512 + ·))

/-- Glade 0 up: its port half 0 in service, slice 0 enabled and bound. -/
def tGl (s : State) : State :=
  ((((((((tDg { s with gladeRst := 0, lines := tLinesG, glades := [(0, tGlade0)] }).setF (GLD_STAT 0) GLD_STAT_STATE 4).setAct (GLD_PORT 0 0) 0x10601).setF (GLD_PST 0 0 0) GLD_PST_STATE 3).setAct (GLD_SLC_CTL 0 0) 0x8000000002000000).setAct (GLD_SLC_RES 0 0) 0x40400).setAct (GLD_SLC_CTX 0 0) 0x10000).setAct (LDG_RING 0 0) 0x1000000000020000).setF (GLD_SLC_CSTAT 0 0) GLD_SLC_CSTAT_BOUND 1

/-- Glade 0 beside thread 0. -/
def tGs : State := tGl (tAt 1 tThr)

/-- The state a hub access leaves. -/
def okS {α : Type} (r : HubR α) : State := match r with | .ok _ s => s | .fail _ s => s | .need _ _ _ => State.reset

/-- The value a hub access gives. -/
def okV {α : Type} (d : α) (r : HubR α) : α := match r with | .ok v _ => v | _ => d

/-- The status a hub access fails with. -/
def failC {α : Type} (r : HubR α) : Nat := match r with | .fail n _ => n | _ => 999

/-- Slice 0 unbound. -/
def tGu : State := tGs.setF (GLD_SLC_CSTAT 0 0) GLD_SLC_CSTAT_BOUND 0

/-- An open tract. -/
def tTract : Tract := ⟨false, 0x100, 4, 1, 0, 0, false, 3, List.replicate 16 0, 0, 0, none⟩

/-- A completion ring in use. -/
def tRing : CRing := ⟨0x200, 4, true, false, 0, 2, 5, 0, 0, true, 0, false⟩

/-- A tract descriptor before its CRC. -/
def tDescB : List Byte := (leBytes 8 0x100 ++ [4, 1, 0, 0] ++ leBytes 4 3 ++ List.replicate 32 (0 : Byte))

/-- A tract descriptor. -/
def tDesc : List Byte := tDescB ++ List.replicate 12 (0 : Byte) ++ leBytes 4 (crc32c tDescB).toNat

/-- A window entry before its CRC. -/
def tWinB : List Byte := leBytes 8 0x1000 ++ leBytes 8 0x1FFF ++ leBytes 8 0x10000 ++ leBytes 4 7

/-- A window entry. -/
def tWin : List Byte := tWinB ++ leBytes 4 (crc32c tWinB).toNat

/-- The head of a completion ring's entry. -/
def tRingB : List Byte := leBytes 8 0x200 ++ [4, 1, 0, 2] ++ leBytes 2 5 ++ [0, 0]

/-- A completion ring's entry. -/
def tRingE : List Byte := tRingB ++ List.replicate 12 (0 : Byte) ++ leBytes 4 (crc32c tRingB).toNat

/-- Bytes at an offset of the context block. -/
def tCtx (s : State) (off : Nat) (b : List Byte) : State := okS (s.hubWrite 9 (0x10000 + off) 0 b)

/-- A relayed message. -/
def tRel : Relayed := { lseq := 0, lack := 0, first := 1, final := 0, pseq := 0, pack := 0, opc := 0x11, h := tHdr, aux := 0, data := 7 }

/-- A sequenced flit. -/
def tFlit : Flit := ⟨0, .wthrow⟩

/-- An operation issued. -/
def tOp0 : GOp := { handle := 5, slice := 0, tract := 1, gen := 0, sqidx := 0, gcws := [], fseq := 0, stage := .issued, attempt := 1, reissued := false, fail := 0, pend := none, hub := false }

/-- A tract with an entry of the submission queue waiting. -/
def tGt : State := ((tCtx tGs 0x100 (List.replicate 32 0)).setAct (GLD_SLC_RES 0 0) 0x400040400).setTract 0 0 2 (some { tTract with tail := 1 })

/-- An operation in progress, the Ledger ring nearly full. -/
def tGf : State := (tGt.modGlade 0 fun x => { x with ops := [tOp0] }).setF (LDG_SEQ 0 0) LDG_SEQ_NEXTSEQ 1020

/-- Task 0, ready. -/
def tTask : TwigTask := { taskDefault 0 with st := 1, resident := true }

/-- One task on engine 0. -/
def tTw (k : Nat) (x : TwigTask) (s : State) : State := { s with engines := [(0, { TwigEng.reset with tasks := [(k, x)] })] }

/-- Registers of a task. -/
def tBank : TwigBank := { (taskDefault 0).bank with r := [(0, 200), (1, 100), (2, 3)], a := [(0, 0x1000), (1, 0x20)], pc := 0xF900 }

/-- Task 1 runs. -/
def tT1 : State := tTw 1 { tTask with bank := tBank } tGs

/-- Task 0 runs. -/
def tT0 : State := tTw 0 { tTask with bank := tBank } tGs

/-- Tasks 0 and 1 on engine 0. -/
def tT01 (x : TwigTask) : State := { tGs with engines := [(0, { TwigEng.reset with tasks := [(0, { tTask with bank := tBank }), (1, x)], win := 1 })] }

/-- Engine 0, task 1. -/
def tJ : TwigProc := .engine 0 1

/-- Engine 0, task 0. -/
def tJ0 : TwigProc := .engine 0 0

/-- The registers with one address register chosen. -/
def tBankA (v : Nat) : TwigBank := { tBank with a := [(0, 0x1000), (1, v)] }

/-- Task 1 with that address register. -/
def tT1A (v : Nat) : State := tTw 1 { tTask with bank := tBankA v } tGs

/-- Overwrite bytes at offsets. -/
def putL (b : List Byte) (l : List (Nat × List Byte)) : List Byte := l.foldl (fun b e => b.take e.1 ++ e.2 ++ b.drop (e.1 + e.2.length)) b

/-- A column descriptor with some bytes overwritten and its CRC. -/
def tCd (l : List (Nat × List Byte)) : List Byte :=
  let b := putL (List.replicate 256 0) ([(0, [1, 0]), (0x24, leBytes 4 1), (0x50, leBytes 8 0x1000), (0x58, leBytes 8 0x1100), (0x2, leBytes 2 0x77)] ++ l)
  putL b [(0x7C, leBytes 4 (crcAround b 0x7C))]

/-- A Bark descriptor with some bytes overwritten and its CRC. -/
def tBd (l : List (Nat × List Byte)) : List Byte :=
  let b := putL (List.replicate 128 0) ([(0, [5, 0, 0x77, 0]), (8, [16]), (0x20, leBytes 8 0x900), (0x28, leBytes 8 16), (0x40, leBytes 8 0xA00), (0x50, leBytes 8 0x1000)] ++ l)
  putL b [(0x7C, leBytes 4 (crc32c (b.take 0x7C)).toNat)]

/-- A column job. -/
def tColJob : ColJob := ⟨0, 1, 5, 0, 0x200, 0, 1, false, none, []⟩

/-- A Bark job. -/
def tBrkJob : BarkJob := ⟨0, 5, 0, 0x200, 0, 1, false, none, [], []⟩

/-- A task that submits jobs. -/
def tTwS : State := ((tTw 1 { tTask with bank := tBank } tGs).modGlade 0 fun x => { x with ops := [tOp0] }).setAct (GLD_SLC_RES 0 0) 0x100040421

/-- A column job and its descriptor. -/
def tColS (j : ColJob) (d : List Byte) : State := tCtx (tTwS.modGlade 0 fun x => { x with cols := [j] }) 0x200 d

/-- A Bark job and its descriptor. -/
def tBrkS (j : BarkJob) (d : List Byte) : State := tCtx (tTwS.modGlade 0 fun x => { x with barks := [j] }) 0x200 d

/-- A takeover under way. -/
def tTko : Takeover := { failing := 0, spare := 1, reqid := 3, prev := false, started := true, decided := none, drained := false, checked := false, failed := 0, stale := 0 }

/-- Cores 0 (active) and 1 (spare, healthy), thread 0 running. -/
def tPool : State := ((tAt 1 tThr).setAct (HWD_ROLE 1) 0x100).setF (CPC_HEALTH 1) CPC_HEALTH_STATE 1

/-- Forester unit 0 runs. -/
def tFor : State := (tRun.setF FOR_CLAIM FOR_CLAIM_CLAIMA 5).setF FOR_CLAIM FOR_CLAIM_LATCH 2

/-- Partition 0's mailbox at 0x400000, up, with one request at index 0 whose bytes are b. -/
def tMb0 : State := ((tIl tFor).setAct (FOR_MBOX 0) 0x8000000000400000)

/-- The mailbox is up. -/
def tMbUp : State := tMb0.modMbox 0 fun _ => { Mbox.down with up := true }

/-- A mailbox request before its CRC. -/
def tReqB (op tgt : Nat) : List Byte := [BitVec.ofNat 8 op, BitVec.ofNat 8 tgt] ++ List.replicate 58 (0 : Byte)

/-- A mailbox request. -/
def tReq (op tgt : Nat) : List Byte := tReqB op tgt ++ leBytes 4 (crc32c (tReqB op tgt)).toNat

/-- A request waits. -/
def tAsk (b : List Byte) : State :=
  ((List.range 8).foldl (fun s k => okS (s.mboxPut 0 (0x1000 + 8 * k) ((b.drop (8 * k)).take 8))) tMbUp).modMbox 0 fun m => { m with reqTail := 1 }

/-- The head of the response ring has been read. -/
def tHeadW (s : State) : State := okS (s.mboxGet 0 0x10 4)

/-- The request has been read. -/
def tAskV (b : List Byte) : State := okS ((tHeadW (tAsk b)).requestBytes 0 0 8)

/-- A Forester firmware container, made by the method of R60 and R61 with a key of the tests. -/
def tC1 : List Byte := beBytes 268 0x41454d4f424a3031010040000400000001000000000000000000000000000000000000000000000000000000000000000000000000000000000000007d312b9df7bb31f516983c179376ff08f9ce89b933c8d2f22358a6ffd9053544fe2a21c88d3e9f053fe85f49b661b9614fda9eba968d4a55c68e66550339cb42e754f7139a6410f7d904efc5758df5e4a5a9b115a4c12e12744e50afdc2b8e156067faca0102030447530000600000007ae9e1db1160794c70c1ef071be5191f6c66240f4608fbe8a44ecd36c3ed5db97500f2e4d84e3fb45850fd6f4303302baf9e1d2f484957a210b532edec78a0918738ec12e2434514fe0198ace7766d14d88a69ee44dfe84e7976d6dbdac1d01f

/-- A Glade firmware container. -/
def tC3 : List Byte := beBytes 172 0x41454d4f424a303103004000040000000100000000000000000000000000000000000000000000000000000000000000000000000000000000000000d8ae1ad00102030447530000600000007ae9e1db1160794c70c1ef071be5191f6c66240f4608fbe8a44ecd36c3ed5db97500f2e4d84e3fb45850fd6f4303302ba82a989d989bf59d738e563bb6169145c1febd32a2a43be0ca9e384cc47de122790fa034e85c1b21543d1ff8e589723a

/-- A machine firmware container. -/
def tC4 : List Byte := beBytes 172 0x41454d4f424a3031040040000400000001000000000000000000100000000000000000000000000000000000000000000000000000000000000000005a07eb550102030447530000600000007ae9e1db1160794c70c1ef071be5191f6c66240f4608fbe8a44ecd36c3ed5db97500f2e4d84e3fb45850fd6f4303302bcec4a0d9f9418f08c4c2579c44520567310a17110e88c2fb46e44d4eadb8259e3f01a5b31e0b5fb6cde40d2c80f61aff

/-- A key container. -/
def tC5 : List Byte := beBytes 232 0x41454d4f424a303105004000400000000100000000000000000000000000000000000000000000000000000000000000000000000000000000000000f07b2e640000000000000000000000000000000000000000000000000000000000000000000000000000000000000000000000000000000000000000000000000000000047530000600000007ae9e1db1160794c70c1ef071be5191f6c66240f4608fbe8a44ecd36c3ed5db97500f2e4d84e3fb45850fd6f4303302b60b0690daaa299a735f41b36b178150910fce0586b7c8fa67367705c394e5bb02934cf2a54d2c7e431bf854304315d9f

/-- The public root key of the tests. -/
def tRootPub : BitVec 768 := 0xf7bb31f516983c179376ff08f9ce89b933c8d2f22358a6ffd9053544fe2a21c88d3e9f053fe85f49b661b9614fda9eba968d4a55c68e66550339cb42e754f7139a6410f7d904efc5758df5e4a5a9b115a4c12e12744e50afdc2b8e156067faca

/-- Its hash, as fused. -/
def tRootHash : BitVec 384 := 0x97491e509ab07e2c1fffc1f3de5f0c9569e5ff0b6a925db383fa3a70b24e1b6e1053840d4dad4e8a045520a32ec93570

/-- A staged object. -/
def tStage (b : List Byte) : Tab Byte := ((List.range b.length).zip b).filter fun e => e.2 ≠ 0

/-- The service port up at STEP k, with an object staged. -/
def tSvc (k : Nat) (b : List Byte) : State :=
  { (({ State.reset with pwrok := true, standRst := 0 } : State).setF SVP_STAT SVP_STAT_STEP k).setReg SVP_IDENT 0x6472420000000001 with svcUp := true, bar2 := tStage b, rootHash := tRootHash, rootKey := some tRootPub, threads := [(0, tThr)] }

/-- The same with Forester firmware running. -/
def tSvF (k : Nat) (b : List Byte) : State := (tSvc k b).setF FOR_CLAIM FOR_CLAIM_CLAIMA 2 |>.setF FOR_CLAIM FOR_CLAIM_LATCH 2

/-- A partial image with no entries. -/
def tP0 : List Byte := beBytes 352 0x54494c4554494d4701008000010000006001000002000000726403ff0000000002000000000000000000000000000000000000000000000000000000000000000000000000000000000000000000000000000000000000000000000000000000000000000000000000000000000000000000000000000000000000003b027f480000010060000000f7bb31f516983c179376ff08f9ce89b933c8d2f22358a6ffd9053544fe2a21c88d3e9f053fe85f49b661b9614fda9eba968d4a55c68e66550339cb42e754f7139a6410f7d904efc5758df5e4a5a9b115a4c12e12744e50afdc2b8e156067faca8c74fa0700000000000000008ab2288c47530000600000007ae9e1db1160794c70c1ef071be5191f6c66240f4608fbe8a44ecd36c3ed5db97500f2e4d84e3fb45850fd6f4303302b2a050f9432d62ee72aa8dfe5bb4d513b4810d348a2da9011720a58d784c42df1ccefc06105babf0d540169b023892e5e

/-- A partial image with one entry. -/
def tP1 : List Byte := beBytes 380 0x54494c4554494d4701008000010000007c01000003000000726403ff000000000200000000000000000000000000000000000000000000000000000000000000000000000000000000000000000000000000000000000000000000000000000000000000000000000000000000000000000000000000000000000000ffe3aeb30000010060000000f7bb31f516983c179376ff08f9ce89b933c8d2f22358a6ffd9053544fe2a21c88d3e9f053fe85f49b661b9614fda9eba968d4a55c68e66550339cb42e754f7139a6410f7d904efc5758df5e4a5a9b115a4c12e12744e50afdc2b8e156067faca8c74fa0701001600100000000c00000008000000050000000000000068328ef300000000000000008ab2288c47530000600000007ae9e1db1160794c70c1ef071be5191f6c66240f4608fbe8a44ecd36c3ed5db97500f2e4d84e3fb45850fd6f4303302bf20583ae83de76241aa3f63e75f337b090675627f27a07881078bcaa1f0a6955137b0db2abda5cba8e3abf6143e9263f

/-- A partial load of LOAD_TILET. -/
def tJob (len : Nat) : LoadJob := LoadJob.start true (some len)

/-- A load whose group 1 clears block 0x0A. -/
def tGoing : LoadJob := { LoadJob.start false none with verified := true, serial := 9, groups := [1], going := true, live := [(0x0A, 0)], ents := [⟨0x0A, 0, 0x100, 0x8400000000010000, 1, 0x17, 0⟩] }

/-- STEP 5 with a changed value of block 0x0A and no threads. -/
def tQuiet : State := { (tSvF 5 []).setReg (HOM_IL 0) 0x8400000000010000 with threads := [] }

/-- A load whose group clears core 0. -/
def tGoing1 : LoadJob := { tGoing with live := [(0x01, 0)], ents := [⟨0x01, 0, 0x10, 0x64, 1, 0x16, 0⟩] }

/-- A load while a takeover of core 0 is in progress. -/
def tTaken : State := ({ tSvF 5 [] with threads := [], tkos := [tTko], ldr := some tGoing1 } : State).modCore 0 fun c => { c with held := false }

/-- A hub access that went on. -/
def hubIsOk : HubR Unit → Bool
  | .ok _ _ => true
  | _ => false

theorem hub_ok {x : HubR Unit} (h : hubIsOk x = true) : x = .ok () (okS x) := by
  cases x <;> simp_all [hubIsOk, okS]

/-! Witnesses: each clause of each statement, its hypotheses met together. -/

/-- States and operands that meet the hypotheses of clauses of StepIdleIsTick. -/
theorem test_meets_StepIdleIsTick :
    (let s : State := State.reset; decide (s.pending = []) && (decide (s.pwrok = false))) = true ∧
    (let s : State := tRun; decide (s.pending = []) && (decide (s.pwrok = true))) = true :=
  ⟨by decide, by decide⟩

/-- States and operands that meet the hypotheses of clauses of IntegerResults. -/
theorem test_meets_IntegerResults :
    (let i : Instr := (.add 0 false 3 1 2); let t : Thr := 0; let con : Bool := true; let rd : GReg := 3;
      let f : Thread → Word := (fun x => x.gr 1 + x.gr 2); intOp i = some (t, con, rd, f)) ∧
    (let i : Instr := (.add 0 false 3 1 2); let t : Thr := 0; let w : Nat := (encOpr false 3 1 2 0); let s : State := tRun;
      decide (aisWord i = some (t, w)) && (decide (legalWord w = true) && (decide (s.ready t.val 0 false = true)))) = true :=
  ⟨rfl, by decide⟩

/-- States and operands that meet the hypotheses of clauses of JumpResults. -/
theorem test_meets_JumpResults :
    (let i : Instr := (.jalr 0 3 1); let t : Thr := 0; let con : Bool := false; let rd : GReg := 3; let f : Thread → Word := (fun x => x.gr 1);
      let s : State := tRun; let x := (s.fetched t.val).thr t.val; jumpOp i = some (t, con, rd, f)) ∧
    (let i : Instr := (.jalr 0 3 1); let t : Thr := 0; let f : Thread → Word := (fun x => x.gr 1); let s : State := tRun;
      decide (s.ready t.val 0 false = true) && (let x := (s.fetched t.val).thr t.val; decide ((isJalr i = true → (f x).toNat % 4 = 0)))) = true ∧
    (let t : Thr := 0; let ra : GReg := 1; let s : State := (tRunOf { tThr with g := [(1, 0x2002)] }); decide (s.ready t.val 0 false = true) && (
      decide ((((s.fetched t.val).thr t.val).gr ra).toNat % 4 ≠ 0))) = true :=
  ⟨rfl, by decide, by decide⟩

/-- States and operands that meet the hypotheses of clauses of LoadResults. -/
theorem test_meets_LoadResults :
    (let i : Instr := (.ld 0 3 1 8); let t : Thr := 0; let ra : GReg := 1; let d : BitVec 16 := 8; let n : Nat := 8; let fp : Bool := false;
      let b : List Byte := [0,0,0,0,0,0,0,0]; let put : Thread → List Byte → Thread := (fun x b => x.setGr 3 (BitVec.ofNat 64 (fromLe b)));
      loadOp i = some (t, ra, d, n, fp, put)) ∧
    (let i : Instr := (.ld 0 3 1 8); let t : Thr := 0; let ra : GReg := 1; let d : BitVec 16 := 8; let n : Nat := 8; let fp : Bool := false;
      let w : Nat := (encI 0x16 3 1 8); let s : State := tRun; let b : List Byte := [0,0,0,0,0,0,0,0]; decide (aisWord i = some (t, w)) && (
      decide (legalWord w = true) && (decide (s.ready t.val 0 fp = true) && (
      let e := (s.fetched t.val).load t.val (((s.fetched t.val).thr t.val).gr ra + d.signExtend 64) n fp; decide (e.value? = some b))))) = true :=
  ⟨rfl, by decide⟩

/-- States and operands that meet the hypotheses of clauses of StoreResults. -/
theorem test_meets_StoreResults :
    (let i : Instr := (.sh 0 2 1 6); let t : Thr := 0; let ra : GReg := 1; let d : BitVec 16 := 6; let fp : Bool := false;
      let get : Thread → List Byte := (fun x => leBytes 2 (x.gr 2).toNat); let s : State := tRun; let x := (s.fetched t.val).thr t.val;
      storeOp i = some (t, ra, d, fp, get)) ∧
    (let i : Instr := (.sh 0 2 1 6); let t : Thr := 0; let ra : GReg := 1; let d : BitVec 16 := 6; let fp : Bool := false;
      let get : Thread → List Byte := (fun x => leBytes 2 (x.gr 2).toNat); let w : Nat := (encI 0x19 2 1 6); let s : State := tRun;
      decide (aisWord i = some (t, w)) && (decide (legalWord w = true) && (decide (s.ready t.val 0 fp = true) && (
      let x := (s.fetched t.val).thr t.val; let e := (s.fetched t.val).store t.val (x.gr ra + d.signExtend 64) (get x) fp;
      decide (e.isOk = true))))) = true :=
  ⟨rfl, by decide⟩

/-- States and operands that meet the hypotheses of clauses of MemoryAccesses. -/
theorem test_meets_MemoryAccesses :
    (let s : State := tRun; let t : Thr := 0; let ea : Word := 0x20F8; let n : Nat := 8; decide (n ∈ [1, 2, 4, 8]) && (
      decide ((s.thr t.val).translated ea.toNat = false) && (decide (s.readable t.val (ea.toNat % 2 ^ 52) n = true)))) = true ∧
    (let s : State := tRun; let t : Thr := 0; let ea : Word := 0x20FC; let b : List Byte := [1,2,3,4]; decide (b.length ∈ [1, 2, 4, 8]) && (
      decide ((s.thr t.val).translated ea.toNat = false) && (let pa := ea.toNat % 2 ^ 52; decide (isMem pa = true) && (
      decide (s.memOk (s.part t.val) pa true = true) && (decide (pa % 256 + b.length ≤ 256) && (decide ((s.thr t.val).sb.length < 48))))))) = true ∧
    (let s : State := tRun; let t : Thr := 0; let ea : Word := 0x20FC; let b : List Byte := [1,2,3,4]; decide (b.length ∈ [1, 2, 4, 8]) && (
      decide ((s.thr t.val).translated ea.toNat = false) && (let pa := ea.toNat % 2 ^ 52; decide (isMem pa = true) && (
      decide (s.memOk (s.part t.val) pa true = true) && (decide (pa % 256 + b.length ≤ 256) && (decide ((s.thr t.val).sb.length < 48) && (let u := 1;
      decide (u ≠ t.val)))))))) = true :=
  ⟨by decide, by decide, by decide⟩

/-- States and operands that meet the hypotheses of clauses of AtomicResults. -/
theorem test_meets_AtomicResults :
    (let i : Instr := (.casd 0 3 1 2); let t : Thr := 0; let rd : GReg := 3; let ra : GReg := 1;
      let f : Thread → Word → Option Word := (fun x old => if old = x.gr 3 then some (x.gr 2) else none); atomOp i = some (t, rd, ra, f)) ∧
    (let pa : Nat := 0x20F8; decide (pa % 8 = 0)) = true ∧
    (let pa : Nat := 0x20F8; decide (pa % 8 = 0) && (let k := 247; decide (k < 256) && (decide (k < pa % 256 ∨ pa % 256 + 8 ≤ k)))) = true ∧
    (let t : Thr := 0; let ra : GReg := 1; let s : State := (tRunOf { tThr with g := [(1, 0x2000), (2, 0x55), (3, 0x8877665544332211)] });
      let pa : Nat := 0x2000; decide (s.ready t.val 0 false = true) && (let ea := ((s.fetched t.val).thr t.val).gr ra;
      let c := (s.fetched t.val).checkMem t.val ea none .write 2 (ea.toNat % 8 != 0); decide (c.value? = some pa) && (
      decide ((c.state.thr t.val).sb = []) && (let o := c.state.ownLine t.val pa 2 true; decide (o.isOk = true))))) = true :=
  ⟨rfl, by decide, by decide, by decide⟩

/-- States and operands that meet the hypotheses of clauses of ReservedPairResults. -/
theorem test_meets_ReservedPairResults :
    (let t : Thr := 0; let ra : GReg := 1; let s : State := tRun; let pa : Nat := 0x2000;
      let b : List Byte := [0x11,0x22,0x33,0x44,0x55,0x66,0x77,0x88]; decide (s.ready t.val 0 false = true) && (
      let ea := ((s.fetched t.val).thr t.val).gr ra; let c := (s.fetched t.val).checkMem t.val ea none .read 2 (ea.toNat % 8 != 0);
      decide (c.value? = some pa) && (let r := c.state.reachLine t.val 1 pa 2; decide (r.isOk = true) && (let m := r.state.readMem t.val pa 8 2;
      decide (m.value? = some b))))) = true ∧
    (let t : Thr := 0; let ra : GReg := 1; let s : State := tRun; let pa : Nat := 0x2000; decide (s.ready t.val 0 false = true) && (
      let ea := ((s.fetched t.val).thr t.val).gr ra; let c := (s.fetched t.val).checkMem t.val ea none .write 2 (ea.toNat % 8 != 0);
      decide (c.value? = some pa) && (decide ((c.state.thr t.val).sb = []) && (decide ((c.state.thr t.val).resv ≠ some (lineOf pa)))))) = true ∧
    (let t : Thr := 0; let ra : GReg := 1; let s : State := (tRunOf { tThr with resv := some 32 }); let pa : Nat := 0x2000;
      decide (s.ready t.val 0 false = true) && (let ea := ((s.fetched t.val).thr t.val).gr ra;
      let c := (s.fetched t.val).checkMem t.val ea none .write 2 (ea.toNat % 8 != 0); decide (c.value? = some pa) && (
      decide ((c.state.thr t.val).sb = []) && (let o := c.state.ownLine t.val pa 2 false; decide ((c.state.thr t.val).resv = some (lineOf pa)) && (
      decide (o.isOk = true) && (decide ((o.state.thr t.val).resv = some (lineOf pa)))))))) = true ∧
    (let t : Thr := 0; let rd : GReg := 4; let ra : GReg := 1; let rb : GReg := 2;
      let s : State := (tRunOf { tThr with g := [(1, 0x2000), (2, 0x55), (3, 7), (5, 0x8877665544332211)] }); let p : Nat := 0x2000;
      let q : Nat := 0x2008; decide (s.ready t.val 0 false = true) && (decide (rd.val % 2 = 0) && (decide (rb.val % 2 = 0) && (
      let c := (s.fetched t.val).casqHalves t.val (((s.fetched t.val).thr t.val).gr ra); decide (c.value? = some (p, q)) && (
      decide ((c.state.thr t.val).sb = []) && (let o := c.state.ownLine t.val p 2 true; decide (o.isOk = true) && (
      let o2 := o.state.ownLine t.val q 2 true; decide (o2.isOk = true) && (decide (o2.state.accWrite (lineOf p) = LineAcc.ok))))))))) = true :=
  ⟨by decide, by decide, by decide, by decide⟩

/-- States and operands that meet the hypotheses of clauses of LongResults. -/
theorem test_meets_LongResults :
    (let t : Thr := 0; let rd : GReg := 4; let ra : GReg := 6; let s : State := tRun; decide (s.ready t.val 0 false = true) && (
      decide (((s.fetched t.val).thr t.val).gr (oddOf rd) = 0) && (decide (legalWord (encR 0x35 rd.val ra.val 0 0x000) = true)))) = true ∧
    (let t : Thr := 0; let rd : GReg := 4; let ra : GReg := 6; let s : State := tRun; decide (s.ready t.val 0 false = true) && (
      decide (((s.fetched t.val).thr t.val).gr (oddOf rd) = 0) && (decide (legalWord (encR 0x35 rd.val ra.val 0 0x002) = true)))) = true ∧
    (let t : Thr := 0; let rd : GReg := 4; let ra : GReg := 6; let rb : GReg := 8; let s : State := tRun; decide (s.ready t.val 0 false = true) && (
      decide (((s.fetched t.val).thr t.val).gr (oddOf rd) = 0) && (decide (legalWord (encR 0x35 rd.val ra.val rb.val 0x001) = true)))) = true ∧
    (let t : Thr := 0; let rd : GReg := 4; let ra : GReg := 6; let s : State := (tRunOf { tThr with g := [(4, 0x20FD), (5, 5), (6, 0x2001)] });
      let m : List (Word × Nat) := [(0x2001,0x2001),(0x20FD,0x20FD)]; let b : List Byte := [0x22,0x33,0x44];
      decide (s.ready t.val 0 false = true) && (let f := s.fetched t.val; let x := f.thr t.val; let u := unitLen (x.gr rd) (x.gr (oddOf rd));
      decide (x.gr (oddOf rd) ≠ 0) && (decide (legalWord (encR 0x35 rd.val ra.val 0 0x000) = true) && (
      let p := operand (x.gr rd) u .write 3 (some (x.gr rd)); let q := operand (x.gr ra) u .read 4 (some (x.gr ra));
      let e := f.checkAll t.val (sortPieces (p ++ q)); decide (e.value? = some m) && (decide ((e.state.readAll t.val m q).value? = some b) && (
      let w := (e.state.readAll t.val m q).state.storeUnit t.val (paAt m (x.gr rd)) (copyBytes ((byteAddrs m q).zip b) (byteAddrs m p) []);
      decide (w.isOk = true))))))) = true ∧
    (let t : Thr := 0; let rd : GReg := 4; let ra : GReg := 6; let s : State := (tRunOf { tThr with g := [(4, 0x20FD), (5, 3), (6, 0x2001)] });
      let m : List (Word × Nat) := [(0x20FD,0x20FD)]; decide (s.ready t.val 0 false = true) && (let f := s.fetched t.val; let x := f.thr t.val;
      let u := unitLen (x.gr rd) (x.gr (oddOf rd)); decide (x.gr (oddOf rd) ≠ 0) && (decide (legalWord (encR 0x35 rd.val ra.val 0 0x002) = true) && (
      let e := f.checkAll t.val (operand (x.gr rd) u .write 3 (some (x.gr rd))); decide (e.value? = some m) && (
      let w := e.state.storeUnit t.val (paAt m (x.gr rd)) (List.replicate u ((x.gr ra).setWidth 8)); decide (w.isOk = true)))))) = true ∧
    (let t : Thr := 0; let rd : GReg := 4; let ra : GReg := 6; let rb : GReg := 8;
      let s : State := (tRunOf { tThr with g := [(4, 0x2001), (5, 3), (6, 0x2002)] });
      let m : List (Word × Nat) := [(0x2001,0x2001),(0x2002,0x2002)]; let b : List Byte := [0x22,0x33,0x44]; let c : List Byte := [0x33,0x44,0x55];
      decide (s.ready t.val 0 false = true) && (let f := s.fetched t.val; let x := f.thr t.val; let u := unitLen (x.gr rd) (x.gr (oddOf rd));
      decide (x.gr (oddOf rd) ≠ 0) && (decide (legalWord (encR 0x35 rd.val ra.val rb.val 0x001) = true) && (
      let p := operand (x.gr rd) u .read 3 (some (x.gr rd)); let q := operand (x.gr ra) u .read 4 (some (x.gr ra));
      let e := f.checkAll t.val (sortPieces (p ++ q)); decide (e.value? = some m) && (decide ((e.state.readAll t.val m p).value? = some b) && (
      let r := (e.state.readAll t.val m p).state.readAll t.val m q; decide (r.value? = some c))))))) = true :=
  ⟨by decide, by decide, by decide, by decide, by decide, by decide⟩

/-- States and operands that meet the hypotheses of clauses of DecimalResults. -/
theorem test_meets_DecimalResults :
    (let i : Instr := (.dadd 0 3 1 2 1 1); let t : Thr := 0; let rd : GReg := 3; let ra : GReg := 1; let rb : GReg := 2; let l1 : BitVec 4 := 1;
      let l2 : BitVec 4 := 1; let fn : Nat := 0; decOp i = some (t, rd, ra, rb, l1, l2, fn)) ∧
    (let a : List Byte := [0x12,0x3C]; let b : List Byte := [0x02,0x5D]; decide (decValid a = true) && (decide (decValid b = true) && (
      decide (a.length ≤ 16) && (decide (b.length ≤ 16))))) = true ∧
    (let sub : Bool := true; let a : List Byte := [0x12,0x3C]; let b : List Byte := [0x02,0x5D]; decide (decValid a = true) && (
      decide (decValid b = true) && (decide (a.length ≤ 16) && (decide (b.length ≤ 16) && (
      let v := if sub then decValue a - decValue b else decValue a + decValue b; decide (v.natAbs < 10 ^ (2 * a.length - 1))))))) = true ∧
    (let t : Thr := 0; let ra : GReg := 1; let rb : GReg := 2; let l1 : BitVec 4 := 1; let l2 : BitVec 4 := 1; let fn : Nat := 0;
      let s : State := (tRunOf { tThr with g := [(1, 0x2000), (2, 0x2010)] }); let m : List (Word × Nat) := [(0x2000,0x2000),(0x2010,0x2010)];
      let a : List Byte := [0x11,0x22]; let b : List Byte := [0,0]; decide (s.ready t.val 0 false = true) && (let f := s.fetched t.val;
      let x := f.thr t.val; let p := operand (x.gr ra) (l1.toNat + 1) (if fn < 2 then .write else .read) 5 none;
      let q := if fn = 3 then [] else operand (x.gr rb) (l2.toNat + 1) .read 5 none; let e := f.checkAll t.val (sortPieces (p ++ q));
      decide (e.value? = some m) && (decide ((e.state.readAll t.val m p).value? = some a) && (
      let r := (e.state.readAll t.val m p).state.readAll t.val m q; decide (r.value? = some b) && (
      let bad := decInvalid a (if fn = 3 then none else some b);
      let out := if bad.isNone ∧ fn < 2 then fieldStores m x p (decAdd (fn == 1) a b).2 else []; let w := r.state.pushAll t.val out;
      decide (w.isOk = true)))))) = true :=
  ⟨rfl, by decide, by decide, by decide⟩

/-- States and operands that meet the hypotheses of clauses of FloatingPointResults. -/
theorem test_meets_FloatingPointResults :
    (let i : Instr := (.fadd 0 1 0 4 2 6); let t : Thr := 0; let d : FpDst := (.f 1 4);
      let f : Thread → Nat × Nat := (fun x => fpAdd 1 (x.rounding 0) (x.fop 1 2) (x.fop 1 6));
      let s : State := (tAt 0x4023 { tThr with f := [(2, 0x3FF0000000000000), (6, 0x3CA0000000000000)] }); let x := (s.fetched t.val).thr t.val;
      fpOp i = some (t, d, f)) ∧
    (let w : Nat := 5; let fl : Nat := 31; decide (fl < 32) && (decide (w < 2 ^ 32))) = true ∧
    (let x : Thread := tThr; let w : Nat := 5; let fl : Nat := 31; decide (fl < 32) && (decide (w < 2 ^ 32) && (let e := fl &&& (
      (x.srg SR_FCS).toNat / 2 ^ 5 % 2 ^ 5); decide (x.pl = 3 ∨ e = 0)))) = true ∧
    (let x : Thread := ((tThr.setSr SR_PST 1).setSr SR_FCS 0x3E0); let w : Nat := 0xFFFFFFFF; let fl : Nat := 17; decide (fl < 32) && (
      decide (w < 2 ^ 32) && (let e := fl &&& ((x.srg SR_FCS).toNat / 2 ^ 5 % 2 ^ 5); decide (x.pl ≠ 3) && (decide (e ≠ 0) && (
      decide (x.fpPend = false)))))) = true ∧
    (let x : Thread := ((tThr.setSr SR_PST 1).setSr SR_FCS 0x3E0); let w : Nat := 0xFFFFFFFF; let fl : Nat := 17; decide (fl < 32) && (
      decide (w < 2 ^ 32) && (let e := fl &&& ((x.srg SR_FCS).toNat / 2 ^ 5 % 2 ^ 5); decide (x.pl ≠ 3) && (decide (e ≠ 0) && (
      decide (x.fpPend = false) && (decide (x.pl ≤ 1))))))) = true ∧
    (let x : Thread := (((tThr.setSr SR_PST 1).setSr SR_FCS 0x3E0).raiseFp 7 1); let w : Nat := 5; let fl : Nat := 17; decide (fl < 32) && (
      decide (w < 2 ^ 32) && (let e := fl &&& ((x.srg SR_FCS).toNat / 2 ^ 5 % 2 ^ 5); decide (x.pl ≠ 3) && (decide (e ≠ 0) && (
      decide (x.fpPend = true)))))) = true ∧
    (let w : Nat := 5; let fl : Nat := 3; decide (fl < 32) && (decide (w < 2 ^ 32) && (let n := 3; decide (n ≠ SR_FCS) && (decide (n ≠ SR_FPEI) && (
      decide (n ≠ SR_FPEA)))))) = true ∧
    (let w : Nat := 5; let fl : Nat := 3; decide (fl < 32) && (decide (w < 2 ^ 32))) = true ∧
    (let i : Instr := (.fadd 0 1 0 4 2 6); let t : Thr := 0; let f : Thread → Nat × Nat := (fun x => fpAdd 1 (x.rounding 0) (x.fop 1 2) (x.fop 1 6));
      let w : Nat := (encF 4 2 6 1 0 0); let s : State := (tAt 0x4023 { tThr with f := [(2, 0x3FF0000000000000), (6, 0x3CA0000000000000)] });
      decide (aisWord i = some (t, w)) && (decide (legalWord w = true) && (decide (s.ready t.val 0 true = true)))) = true :=
  ⟨rfl, by decide, by decide, by decide, by decide, by decide, by decide, by decide, by decide⟩

/-- States and operands that meet the hypotheses of clauses of BarrierResults. -/
theorem test_meets_BarrierResults :
    (let t : Thr := 0; let s : State := (tAt 1 tThr); decide (s.ready t.val 0 false = true)) = true ∧
    (let t : Thr := 0; let s : State := (tAt 1 tThr); decide (s.ready t.val 1 false = true)) = true ∧
    (let t : Thr := 0; let s : State := (tRunOf { tThr with wait := .synci }); let y := s.thr t.val; decide (y.run = .running) && (
      decide ((y.wait = .sync ∨ y.wait = .synci)) && (decide (y.sb = [])))) = true ∧
    (let t : Thr := 0; let s : State := (tRunOf { tThr with wait := .drain }); let y := s.thr t.val; decide (y.run = .running) && (
      decide (y.wait = .drain) && (decide (y.sb = []) && (decide (y.trk = []) && (decide (y.wbs = []) && (decide (y.devFail = none))))))) = true ∧
    (let t : Thr := 0;
      let s : State := (tRunOf { tThr with wait := .drain, sb := [⟨.dev,0x8000000000000,[1],3,false,0⟩,⟨.mem,0x2000,[1],3,false,0⟩] });
      let y := s.thr t.val; decide (y.run = .running) && (decide (y.wait = .drain))) = true :=
  ⟨by decide, by decide, by decide, by decide, by decide⟩

/-- States and operands that meet the hypotheses of clauses of ReturnResults. -/
theorem test_meets_ReturnResults :
    (let t : Thr := 0; let s : State := (tAt 0x81 (tThr.setSr SR_SSS 0x60)); let f := s.fetched t.val; let x := f.thr t.val;
      decide (s.ready t.val 1 false = true) && (decide (x.pl = 1) && (decide (x.fpPend = false)))) = true ∧
    (let t : Thr := 0; let s : State := (tAt 0x4003 (tThr.setSr SR_MSS 0x8001)); let f := s.fetched t.val; let x := f.thr t.val;
      decide (s.ready t.val 1 false = true) && (decide (x.pl = 3) && (decide (PST_PL.get (x.srg SR_MSS) ≠ 2)))) = true ∧
    (let t : Thr := 0; let s : State := (tAt 0x4003 (tThr.setSr SR_MSS 0x2)); let f := s.fetched t.val; let x := f.thr t.val;
      decide (s.ready t.val 1 false = true) && (decide (x.pl = 3) && (decide (PST_PL.get (x.srg SR_MSS) = 2)))) = true ∧
    (let t : Thr := 0; let s : State := (tAt 0 tThr); let f := s.fetched t.val; let x := f.thr t.val; decide (s.ready t.val 0 false = true) && (
      decide (x.pl = 0))) = true :=
  ⟨by decide, by decide, by decide, by decide⟩

/-- States and operands that meet the hypotheses of clauses of CallResults. -/
theorem test_meets_CallResults :
    (let t : Thr := 0; let s : State := (tAt 0 tThr); decide (s.ready t.val 0 false = true) && (let f := s.fetched t.val; let x := f.thr t.val;
      decide (x.pl = 0))) = true ∧
    (let t : Thr := 0; let s : State := (tAt 1 tThr); decide (s.ready t.val 0 false = true) && (let f := s.fetched t.val; let x := f.thr t.val;
      decide (x.pl = 1))) = true ∧
    (let t : Thr := 0; let s : State := (tAt 3 tThr); decide (s.ready t.val 0 false = true) && (let f := s.fetched t.val; let x := f.thr t.val;
      decide (x.pl = 3))) = true ∧
    (let t : Thr := 0; let s : State := (tAt 3 tThr); decide (s.ready t.val 0 false = true)) = true ∧
    (let t : Thr := 0; let w : BitVec 32 := 0x00000000; let s : State := (tAt 3 tThr); decide (s.ready t.val 0 false = true) && (
      decide (legalWord w.toNat = false))) = true :=
  ⟨by decide, by decide, by decide, by decide, by decide⟩

/-- States and operands that meet the hypotheses of clauses of InstructionExceptions. -/
theorem test_meets_InstructionExceptions :
    (let i : Instr := (.ldq 0 3 1 0); let t : Thr := 0; let w : Nat := (encI 0x17 3 1 0); let s : State := (tAt 3 tThr);
      decide (aisWord i = some (t, w)) && (decide (legalWord w = false) && (decide (s.ready t.val 0 false = true)))) = true ∧
    (let i : Instr := (.clinv 0 1); let t : Thr := 0; let l : Nat := 3; let w : Nat := (encR 0x24 0 1 0 2); let s : State := (tAt 1 tThr);
      decide (lowestLevel i = some (t, l)) && (decide (aisWord i = some (t, w)) && (decide (legalWord w = true) && (
      decide (s.ready t.val 0 false = true) && (decide (((s.fetched t.val).thr t.val).pl < l)))))) = true :=
  ⟨by decide, by decide⟩

/-- States and operands that meet the hypotheses of clauses of EntryToSLevel. -/
theorem test_meets_EntryToSLevel :
    (let s : State := (tAt 0x60 tThr); let t : Thr := 0; let c : Cause := ({ code := 0x06, info := 7 });
      decide (takenAtM c.code (s.thr t.val).pl = false) && (decide (c.int = false) && (decide (c.code ≠ 0x0A) && (
      decide ((s.thr t.val).fpPend = false) && (let x := s.thr t.val; decide (x.pstBit PST_STA = false)))))) = true ∧
    (let s : State := (tAt 0x60 tThr); let t : Thr := 0; let c : Cause := ({ code := 0x06, info := 7 });
      decide (takenAtM c.code (s.thr t.val).pl = false) && (decide (c.int = false) && (decide (c.code ≠ 0x0A) && (
      decide ((s.thr t.val).fpPend = false) && (let x := s.thr t.val; decide (x.pstBit PST_STA = false) && (let g := PST_FEN;
      decide (g ∈ [PST_MDT, PST_MTA, PST_MGIE, PST_FEN, PST_STR]))))))) = true ∧
    (let s : State := (tAt 0x60 tThr); let t : Thr := 0; let c : Cause := ({ code := 0x06, info := 7 });
      decide (takenAtM c.code (s.thr t.val).pl = false) && (decide (c.int = false) && (decide (c.code ≠ 0x0A) && (
      decide ((s.thr t.val).fpPend = false) && (let x := s.thr t.val; decide (x.pstBit PST_STA = false) && (let v := 1;
      decide (v ≠ t.val))))))) = true ∧
    (let s : State := (tAt 0xE0 tThr); let t : Thr := 0; let c : Cause := ({ code := 0x06, info := 7 });
      decide (takenAtM c.code (s.thr t.val).pl = false) && (decide (c.int = false) && (decide (c.code ≠ 0x0A) && (
      decide ((s.thr t.val).fpPend = false) && (let x := s.thr t.val; decide (x.pstBit PST_STA = true) && (
      decide (x.pstBit PST_MTA = false))))))) = true ∧
    (let s : State := (tAt 0xE1 (tThr.setSr SR_FPEI 0x100000000000)); let t : Thr := 0; decide ((s.thr t.val).pl ≠ 3) && (
      decide ((s.thr t.val).pstBit PST_STA = true) && (decide ((s.thr t.val).pstBit PST_MTA = false)))) = true :=
  ⟨by decide, by decide, by decide, by decide, by decide⟩

/-- States and operands that meet the hypotheses of clauses of EntryToMLevel. -/
theorem test_meets_EntryToMLevel :
    (let s : State := (tAt 0x61 tThr); let t : Thr := 0; let c : Cause := ({ code := 0x24, info := 7, addr := some 0x123 });
      decide (takenAtM c.code (s.thr t.val).pl = true) && (decide (c.int = false) && (let x := s.thr t.val;
      decide (x.pstBit PST_MTA = false)))) = true ∧
    (let s : State := (tAt 0x61 tThr); let t : Thr := 0; let c : Cause := ({ code := 0x24, info := 7, addr := some 0x123 });
      decide (takenAtM c.code (s.thr t.val).pl = true) && (decide (c.int = false) && (let x := s.thr t.val; decide (x.pstBit PST_MTA = false) && (
      let g := PST_FEN; decide (g ∈ [PST_MDT, PST_STA, PST_SGIE, PST_FEN, PST_STR]))))) = true ∧
    (let s : State := (tAt 0x61 tThr); let t : Thr := 0; let c : Cause := ({ code := 0x24, info := 7, addr := some 0x123 });
      decide (takenAtM c.code (s.thr t.val).pl = true) && (decide (c.int = false) && (let x := s.thr t.val; decide (x.pstBit PST_MTA = false) && (
      let v := 1; decide (v ≠ t.val))))) = true ∧
    (let s : State := (tAt 0x4003 tThr); let t : Thr := 0; let c : Cause := ({ code := 0x01, info := 7, addr := some 0x123 });
      decide (takenAtM c.code (s.thr t.val).pl = true) && (decide (c.int = false) && (let x := s.thr t.val; decide (x.pstBit PST_MTA = true) && (
      decide (x.pstBit PST_MDT = false))))) = true ∧
    (let s : State := (tAt 0xC003 tThr); let t : Thr := 0; let c : Cause := ({ code := 0x01, info := 7, addr := some 0x123 });
      decide (takenAtM c.code (s.thr t.val).pl = true) && (decide (c.int = false) && (let x := s.thr t.val; decide (x.pstBit PST_MTA = true) && (
      decide (x.pstBit PST_MDT = true))))) = true :=
  ⟨by decide, by decide, by decide, by decide, by decide⟩

/-- States and operands that meet the hypotheses of clauses of StateRegisterAccess. -/
theorem test_meets_StateRegisterAccess :
    (let t : Thr := 0; let n : BitVec 12 := 0x033; let s : State := (tAt 3 tThr);
      let fp := decide (n.toNat = 0x010 ∨ n.toNat = 0x011 ∨ n.toNat = 0x012); let e := ((srRow 0x033).get!); decide (srRow n.toNat = some e) && (
      decide (s.ready t.val e.2.1 fp = true))) = true ∧
    (let t : Thr := 0; let n : BitVec 12 := 0x003; let s : State := (tAt 3 { tThr with g := [(1, 0xFFFFFFFFFFFFFFFF)] });
      let fp := decide (n.toNat = 0x010 ∨ n.toNat = 0x011 ∨ n.toNat = 0x012); let m := 0xFFFFFFFFFFFFFFFC; decide ((n.toNat, m) ∈ plainSrs) && (
      decide (((srRow n.toNat).bind (·.2.2)).all (fun l => s.ready t.val l fp) = true))) = true ∧
    (let t : Thr := 0; let r : GReg := 1; let n : BitVec 12 := 0x010; let s : State := (tAt 0x23 { tThr with g := [(1, 0xFFFFFFFFFFFFF7FF)] });
      let f := s.fetched t.val; let x := f.thr t.val; let v := x.gr r; decide (n.toNat = 0x010) && (decide (s.ready t.val 0 true = true) && (
      decide (1 ≤ v.toNat / 2 ^ 10 % 8) && (decide (v.toNat / 2 ^ 10 % 8 ≤ 5))))) = true ∧
    (let t : Thr := 0; let n : BitVec 12 := 0x030; let s : State := (tAt 3 tThr); decide (n.toNat = 0x030) && (
      decide (s.ready t.val 3 false = true))) = true ∧
    (let t : Thr := 0; let r : GReg := 1; let n : BitVec 12 := 0; let s : State := (tAt 3 { tThr with g := [(1, 0xFFFFFFFFFFFFFFFF)] });
      let f := s.fetched t.val; let x := f.thr t.val; let v := x.gr r; decide (n.toNat = 0x000) && (decide (s.ready t.val 3 false = true) && (
      decide (v.toNat % 4 ≠ 2)))) = true ∧
    (let t : Thr := 0; let r : GReg := 1; let n : BitVec 12 := 0; let s : State := (tAt 1 { tThr with g := [(1, 0xFFFFFFFFFFFFFFFD)] });
      let f := s.fetched t.val; let x := f.thr t.val; let v := x.gr r; decide (n.toNat = 0x000) && (decide (s.ready t.val 1 false = true) && (
      decide (x.pl ≠ 3) && (decide (v.toNat % 4 < 2))))) = true ∧
    (let t : Thr := 0; let r : GReg := 1; let n : BitVec 12 := 0; let s : State := (tAt 1 { tThr with g := [(1, 2)] }); let f := s.fetched t.val;
      let x := f.thr t.val; let v := x.gr r; decide (n.toNat = 0x000) && (decide (s.ready t.val 1 false = true) && (decide (x.pl ≠ 3) && (
      decide (2 ≤ v.toNat % 4))))) = true :=
  ⟨by decide, by decide, by decide, by decide, by decide, by decide, by decide⟩

/-- States and operands that meet the hypotheses of clauses of InvalidationResults. -/
theorem test_meets_InvalidationResults :
    (let t : Thr := 0; let c : Pcore := 0; let b : Bcast := (⟨1, 0x2000, 0, 1, []⟩); let m : Nat := 2;
      let s : State := ((tAt 1 { tThr with wait := .inval ⟨1, 0x2000, 0, 1, []⟩ 2 })); decide ((s.thr t.val).wait = .inval b m) && (
      decide (bitOf b.cores c.val = true))) = true ∧
    (let t : Thr := 0; let c : Pcore := 0; let b : Bcast := (⟨1, 0x2000, 0, 2, []⟩); let m : Nat := 2;
      let s : State := ((tAt 1 { tThr with wait := .inval ⟨1, 0x2000, 0, 2, []⟩ 2 })); decide ((s.thr t.val).wait = .inval b m) && (
      decide (bitOf b.cores c.val = false))) = true ∧
    (let t : Thr := 0; let b : Bcast := (⟨1, 0x2000, 0, 0, [(0, 0)]⟩);
      let s : State := ((tAt 1 { tThr with wait := .inval ⟨1, 0x2000, 0, 0, [(0, 0)]⟩ 0 })); decide ((s.thr t.val).run = .running) && (
      decide ((s.thr t.val).wait = .inval b 0) && (decide (b.cores = 0) && (
      decide ((∀ d ∈ b.drains, d.2 ≤ (s.thr d.1).popped ∧ ∀ e ∈ (s.thr d.1).trk, d.2 ≤ e.seq)))))) = true ∧
    (let i : Instr := (.tlbiVa 0 1 2); let t : Thr := 0; let fn : Nat := 0; let ra : Option GReg := (some 1); let rb : Option GReg := (some 2);
      let s : State := (tAt 1 tThr); decide (invalOp i = some (t, fn, ra, rb)) && (decide (s.ready t.val 1 false = true) && (
      let f := s.fetched t.val; let c := f.pcore t.val; decide ((fn % 2 = 1 → f.bcastCores c = 0 ∧ f.actF (HWD_XLAT c) HWD_XLAT_BGRP = 0)) && (
      decide ((∀ u ∈ f.coreThreads c, (f.thr u).sb = [] ∧ (f.thr u).trk = [])))))) = true :=
  ⟨by decide, by decide, by decide, by decide⟩

/-- States and operands that meet the hypotheses of clauses of TranslationResults. -/
theorem test_meets_TranslationResults :
    (let t : Thr := 0; let ra : GReg := 1; let rb : GReg := 2; let s : State := (tAt 1 { tThr with g := [(1, 0x3), (2, 0x1FD)] });
      decide (s.ready t.val 1 false = true) && (let f := s.fetched t.val; let x := f.thr t.val; let e := ((tlbEntOf 3 0x1FD).getD tMap);
      decide (tlbEntOf (x.gr ra).toNat (x.gr rb).toNat = some e))) = true ∧
    (let t : Thr := 0; let ra : GReg := 1; let rb : GReg := 2;
      let s : State := ((tAt 1 { tThr with g := [(1, 0x3), (2, 0x1FD)] }).modCore 0 fun c => { c with tlb := [tMap, tMap2] });
      decide (s.ready t.val 1 false = true) && (let f := s.fetched t.val; let x := f.thr t.val; let e := ((tlbEntOf 3 0x1FD).getD tMap);
      decide (tlbEntOf (x.gr ra).toNat (x.gr rb).toNat = some e) && (let o := tMap2;
      decide (o ∈ ((f.core (f.pcore t.val)).tlbWrite e).tlb.drop 1)))) = true ∧
    (let t : Thr := 0; let ra : GReg := 1; let rb : GReg := 2; let s : State := (tAt 1 { tThr with g := [(1, 5), (2, 0x1FD)] });
      decide (s.ready t.val 1 false = true) && (let f := s.fetched t.val; let x := f.thr t.val;
      decide (tlbEntOf (x.gr ra).toNat (x.gr rb).toNat = none))) = true ∧
    (let t : Thr := 0; let ra : GReg := 1; let rb : GReg := 2; let s : State := (tAt 1 { tThr with g := [(1, 0x2000), (2, 0x2005)] });
      decide (s.ready t.val 1 false = true) && (let f := s.fetched t.val; let x := f.thr t.val; let va := (x.gr ra).toNat; let b := (x.gr rb).toNat;
      decide ((b / 2 ^ 52 ≠ 0 ∨ b / 16 % 256 ≠ 0 ∨ 4 < b % 8 ∨ canonical va = false)))) = true ∧
    (let t : Thr := 0; let ra : GReg := 1; let rb : GReg := 2; let s : State := (tAt 1 { tThr with g := [(1, 0x2000), (2, 0x8000000000000)] });
      decide (s.ready t.val 1 false = true) && (let f := s.fetched t.val; let x := f.thr t.val; let va := (x.gr ra).toNat; let b := (x.gr rb).toNat;
      let ea := b / 4096 * 4096 + 8 * (va / 2 ^ (12 + 9 * (b % 8)) % 512); decide (b / 2 ^ 52 = 0) && (decide (b / 16 % 256 = 0) && (
      decide (b % 8 ≤ 4) && (decide (canonical va = true) && (decide (2 ^ 51 ≤ ea))))))) = true ∧
    (let t : Thr := 0; let ra : GReg := 1; let rb : GReg := 2; let s : State := (tAt 1 { tThr with g := [(1, 0x2000), (2, 0x40000000)] });
      decide (s.ready t.val 1 false = true) && (let f := s.fetched t.val; let x := f.thr t.val; let va := (x.gr ra).toNat; let b := (x.gr rb).toNat;
      let ea := b / 4096 * 4096 + 8 * (va / 2 ^ (12 + 9 * (b % 8)) % 512); decide (b / 2 ^ 52 = 0) && (decide (b / 16 % 256 = 0) && (
      decide (b % 8 ≤ 4) && (decide (canonical va = true) && (decide (ea < 2 ^ 51) && (decide (f.memOk (f.part t.val) ea false = false)))))))) = true ∧
    (let t : Thr := 0; let ra : GReg := 1; let rb : GReg := 2; let s : State := ((tAt 1 { tThr with g := [(1, 0x1000), (2, 0x2000)] }));
      decide (s.ready t.val 1 false = true) && (let f := s.fetched t.val; let x := f.thr t.val; let va := (x.gr ra).toNat; let b := (x.gr rb).toNat;
      let ea := b / 4096 * 4096 + 8 * (va / 2 ^ (12 + 9 * (b % 8)) % 512); decide (b / 2 ^ 52 = 0) && (decide (b / 16 % 256 = 0) && (
      decide (b % 8 ≤ 4) && (decide (canonical va = true) && (let l := [0,0,0,0,0,0,0,0]; decide (ea < 2 ^ 51) && (
      decide (f.memOk (f.part t.val) ea false = true) && (decide (b % 8 = 0) && (let e := f.readMem t.val ea 8 7; decide (e.value? = some l) && (
      let w := fromLe l; decide (w % 2 = 0))))))))))) = true ∧
    (let t : Thr := 0; let ra : GReg := 1; let rb : GReg := 2;
      let s : State := ({ tAt 1 { tThr with g := [(1, 0x1000), (2, 0x2000)] } with lines := [(16, tLine), (32, { tLine with data := 0x0000000000000C01 <<< 64 })] });
      decide (s.ready t.val 1 false = true) && (let f := s.fetched t.val; let x := f.thr t.val; let va := (x.gr ra).toNat; let b := (x.gr rb).toNat;
      let ea := b / 4096 * 4096 + 8 * (va / 2 ^ (12 + 9 * (b % 8)) % 512); decide (b / 2 ^ 52 = 0) && (decide (b / 16 % 256 = 0) && (
      decide (b % 8 ≤ 4) && (decide (canonical va = true) && (let l := [0x01,0x0C,0,0,0,0,0,0]; decide (ea < 2 ^ 51) && (
      decide (f.memOk (f.part t.val) ea false = true) && (decide (b % 8 = 0) && (let e := f.readMem t.val ea 8 7; decide (e.value? = some l) && (
      let w := fromLe l; decide (w % 2 = 1) && (decide (malformed w 0 = true)))))))))))) = true ∧
    (let t : Thr := 0; let ra : GReg := 1; let rb : GReg := 2;
      let s : State := ({ tAt 1 { tThr with g := [(1, 0x1000), (2, 0x2000)] } with lines := [(16, tLine), (32, { tLine with data := 0x1FF <<< 64 })] });
      decide (s.ready t.val 1 false = true) && (let f := s.fetched t.val; let x := f.thr t.val; let va := (x.gr ra).toNat; let b := (x.gr rb).toNat;
      let ea := b / 4096 * 4096 + 8 * (va / 2 ^ (12 + 9 * (b % 8)) % 512); decide (b / 2 ^ 52 = 0) && (decide (b / 16 % 256 = 0) && (
      decide (b % 8 ≤ 4) && (decide (canonical va = true) && (let l := [0xFF,1,0,0,0,0,0,0]; decide (ea < 2 ^ 51) && (
      decide (f.memOk (f.part t.val) ea false = true) && (decide (b % 8 = 0) && (let e := f.readMem t.val ea 8 7; decide (e.value? = some l) && (
      let w := fromLe l; decide (w % 2 = 1) && (decide (malformed w 0 = false) && (decide (w / 2 % 2 = 1) && (
      decide (f.actF (HWD_XLAT (f.pcore t.val)) HWD_XLAT_ADHW = 0) && (decide (e.state.active = f.active))))))))))))))) = true :=
  ⟨by decide, by decide, by decide, by decide, by decide, by decide, by decide, by decide, by decide⟩

/-- States and operands that meet the hypotheses of clauses of MaintenanceBuffered. -/
theorem test_meets_MaintenanceBuffered :
    (let i : Instr := (.clzero 0 1); let t : Thr := 0; let ra : GReg := 1; let lvl : Nat := 0; let wr : Bool := true; let k : StoreKind := .clzero;
      let s : State := (tAt 1 { tThr with resv := some 32 }); decide (cmaintOp i = some (t, ra, lvl, wr, k)) && (
      decide (s.ready t.val lvl false = true) && (let f := s.fetched t.val; let x := f.thr t.val; let pa := (x.gr ra).toNat % 2 ^ 52;
      decide (x.translated (x.gr ra).toNat = false) && (decide (isMem pa = true) && (decide (f.memOk (f.part t.val) pa wr = true) && (
      decide (x.sb.length < 48))))))) = true :=
  by decide

/-- States and operands that meet the hypotheses of clauses of HintResults. -/
theorem test_meets_HintResults :
    (let t : Thr := 0; let ra : GReg := 1; let s : State := (tAt 1 tThr); decide (s.ready t.val 1 false = true) && (let f := s.fetched t.val;
      let x := f.thr t.val; let pa := (x.gr ra).toNat % 2 ^ 52; decide (x.translated (x.gr ra).toNat = false) && (decide (isMem pa = true) && (
      decide (f.memOk (f.part t.val) pa false = true))))) = true ∧
    (let i : Instr := (.prefr 0 1); let t : Thr := 0; let ra : GReg := 1; let s : State := (tAt 1 tThr); decide (hintOp i = some (t, ra)) && (
      decide (s.ready t.val 0 false = true))) = true ∧
    (let c : Pcore := 0; let s : State := ((tAt 1 tThr).setF (CORE_PF 0) CORE_PF_EN 0); decide (s.getF (CORE_PF c.val) CORE_PF_EN = 0)) = true ∧
    (let c : Pcore := 0; let line : BitVec 43 := 32; let s : State := ((tAt 1 tThr).setF (CORE_PF 0) CORE_PF_EN 1);
      decide (s.getF (CORE_PF c.val) CORE_PF_EN ≠ 0) && (decide (s.coreActive c.val = true) && (decide ((s.core c.val).held = false) && (
      decide (s.hintOk (s.corePart c.val) (line.toNat * 256) false = true) && (decide (s.lineDeferred line.toNat = false) && (
      decide (s.accRead line.toNat = LineAcc.ok) && (decide (line.toNat ∉ (s.core c.val).side) && (
      decide ((∀ e ∈ (s.core c.val).l2, e.line ≠ line.toNat)) && (decide ((s.core c.val).side.length < 32)))))))))) = true :=
  ⟨by decide, by decide, by decide, by decide⟩

/-- States and operands that meet the hypotheses of clauses of WayResults. -/
theorem test_meets_WayResults :
    (let k : CacheKind := .l1i; let i : Pcore := 0; let w : Fin 16 := 7; let s : State := tRun; decide ((cacheNum k < 2 → w.val < 8)) && (
      let (r, dis, floor, blk) := wayReg k i.val;
      decide (s.wayThresh (cacheNum k) i.val = 0 ∨ s.wayCount (cacheNum k) i.val w.val < s.wayThresh (cacheNum k) i.val))) = true ∧
    (let k : CacheKind := .l2; let i : Pcore := 0; let w : Fin 16 := 15;
      let s : State := (((tAt 1 tThr).setAct (L2C_WAYTH 0) 0x800).setWayCount 2 0 15 255); decide ((cacheNum k < 2 → w.val < 8)) && (
      let (r, dis, floor, blk) := wayReg k i.val; decide (s.wayThresh (cacheNum k) i.val ≠ 0) && (
      decide (s.wayThresh (cacheNum k) i.val ≤ s.wayCount (cacheNum k) i.val w.val) && (decide (bitOf (s.getF r dis) w.val = false) && (
      decide (s.floorOk k i.val w.val = true)))))) = true ∧
    (let k : CacheKind := .l2; let i : Pcore := 0; let w : Fin 16 := 15;
      let s : State := ((((tAt 1 tThr).setAct (L2C_WAYTH 0) 0xF0F).setWayCount 2 0 15 255).setF (L2C_WAYST 0) L2C_WAYST_L2DIS 1);
      decide ((cacheNum k < 2 → w.val < 8)) && (let (r, dis, floor, blk) := wayReg k i.val; decide (s.wayThresh (cacheNum k) i.val ≠ 0) && (
      decide (s.wayThresh (cacheNum k) i.val ≤ s.wayCount (cacheNum k) i.val w.val) && (decide (bitOf (s.getF r dis) w.val = false) && (
      decide (s.floorOk k i.val w.val = false)))))) = true ∧
    (let i : Pcore := 71; let s : State := ({ tAt 1 tThr with standRst := 0 }); decide (s.domainUp 0x05 i.val = true)) = true ∧
    (let i : Pcore := 71; let s : State := ({ tAt 1 tThr with standRst := 0 }); decide (s.domainUp 0x04 i.val = true)) = true :=
  ⟨by decide, by decide, by decide, by decide, by decide⟩

/-- States and operands that meet the hypotheses of clauses of InterruptEntries. -/
theorem test_meets_InterruptEntries :
    (let t : Thr := 0; let s : State := (tAt 0x41 ({ tThr with sq := [7,9], ssi := some 5 }.setSr SR_SIE 7)); decide ((s.thr t.val).mayEnter) && (
      decide ((s.thr t.val).mInt = none) && (decide ((s.thr t.val).fpPend = false) && (let x := s.thr t.val; decide (s.sInt x = some 2) && (
      let id := 7; let q := [9]; decide (x.sq = id :: q) && (decide (x.sOvf = false))))))) = true ∧
    (let t : Thr := 0; let s : State := (tAt 0x41 ({ tThr with sq := [7,9], ssi := some 5 }.setSr SR_SIE 3)); decide ((s.thr t.val).mayEnter) && (
      decide ((s.thr t.val).mInt = none) && (decide ((s.thr t.val).fpPend = false) && (let x := s.thr t.val; decide (s.sInt x = some 0) && (
      let i := 5; decide (x.ssi = some i)))))) = true ∧
    (let t : Thr := 0; let s : State := (tAt 0x41 (({ tThr with sq := [7,9] }.setSr SR_SIE 3).setSr SR_STCMP 0)); decide ((s.thr t.val).mayEnter) && (
      decide ((s.thr t.val).mInt = none) && (decide ((s.thr t.val).fpPend = false) && (let x := s.thr t.val; decide (s.sInt x = some 1))))) = true ∧
    (let t : Thr := 0; let s : State := (tAt 0x1 ({ tThr with mci := some 0x77, mq := [3] }.setSr SR_MIE 0x15)); decide ((s.thr t.val).mayEnter) && (
      let x := s.thr t.val; decide (x.mInt = some 4) && (let w := 0x77; decide (x.mci = some w)))) = true ∧
    (let t : Thr := 0; let s : State := (tAt 0x2003 ({ tThr with mci := some 0x77, mq := [3,4] }.setSr SR_MIE 0x5));
      decide ((s.thr t.val).mayEnter) && (let x := s.thr t.val; decide (x.mInt = some 2) && (let id := 3; let q := [4]; decide (x.mq = id :: q) && (
      decide (x.mOvf = false))))) = true ∧
    (let t : Thr := 0; let s : State := (tAt 0x2003 ({ tThr with mci := some 0x77, mq := [3,4], msi := some 0x55 }.setSr SR_MIE 0x1));
      decide ((s.thr t.val).mayEnter) && (let x := s.thr t.val; decide (x.mInt = some 0) && (let i := 0x55; decide (x.msi = some i)))) = true :=
  ⟨by decide, by decide, by decide, by decide, by decide, by decide⟩

/-- States and operands that meet the hypotheses of clauses of InterruptSources. -/
theorem test_meets_InterruptSources :
    (let t : Thr := 0; let s : State := ((tAt 1 (tThr.setSr SR_STCMP 1000))); decide ((s.thr t.val).run = .running) && (
      decide (s.time < (s.thr t.val).srg SR_STCMP))) = true ∧
    (let id : BitVec 16 := 0x12; decide (id.toNat ≠ 0xFFFF)) = true ∧
    (let t : Thr := 0; let v : Word := 0x003; let s : State := (tDg (tAt 1 tThr)); decide (s.running t.val = true) && (
      decide (s.devOk (s.part t.val) (.reg 0x06 0 0x4000) = true) && (decide (s.domainUp 0x06 0 = true) && (
      decide (s.part (v.toNat % 128) = s.part t.val) && (decide (v.getLsbD 8 = false)))))) = true ∧
    (let t : Thr := 0; let v : Word := 0x103; let s : State := (tDg (tAt 3 tThr)); decide (s.running t.val = true) && (
      decide (s.devOk (s.part t.val) (.reg 0x06 0 0x4000) = true) && (decide (s.domainUp 0x06 0 = true) && (
      decide (s.part (v.toNat % 128) = s.part t.val) && (decide (v.getLsbD 8 = true) && (decide ((s.thr t.val).pl = 3))))))) = true ∧
    (let t : Thr := 0; let v : Word := 0x103; let s : State := (tDg (tAt 1 tThr)); decide (s.running t.val = true) && (
      decide (s.devOk (s.part t.val) (.reg 0x06 0 0x4000) = true) && (decide (s.domainUp 0x06 0 = true) && (
      decide (s.part (v.toNat % 128) = s.part t.val) && (decide (v.getLsbD 8 = true) && (decide ((s.thr t.val).pl ≠ 3))))))) = true :=
  ⟨by decide, by decide, by decide, by decide, by decide⟩

/-- States and operands that meet the hypotheses of clauses of FixedEventEntries. -/
theorem test_meets_FixedEventEntries :
    (let t : Thr := 0; let s : State := (tAt 0x4003 { tThr with tkoPend := some (9, 0x77) }); let c : Nat := 9; let w : Word := 0x77;
      let x := s.thr t.val; decide (x.run = .running) && (decide (x.devLoad = []) && (
      decide ((x.wait = .none ∨ x.wait = .sync ∨ x.wait = .drain)) && (decide (x.wtwPend = false) && (decide (x.tkoPend = some (c, w)) && (
      decide (x.pstBit PST_MTA = true))))))) = true ∧
    (let t : Thr := 0; let s : State := (tAt 0x3 { tThr with tkoPend := some (9, 0x77) }); let c : Nat := 9; let w : Word := 0x77;
      let x := s.thr t.val; decide (x.run = .running) && (decide (x.devLoad = []) && (
      decide ((x.wait = .none ∨ x.wait = .sync ∨ x.wait = .drain)) && (decide (x.wtwPend = false) && (decide (x.tkoPend = some (c, w)) && (
      decide (x.pstBit PST_MTA = false))))))) = true ∧
    (let t : Thr := 0; let s : State := (tAt 0x4003 { tThr with rexPend := [(9, 0x77),(4,5)] }); let c : Nat := 9; let w : Word := 0x77;
      let r : List (Nat × Word) := [(4,5)]; let x := s.thr t.val; decide (x.run = .running) && (decide (x.devLoad = []) && (
      decide ((x.wait = .none ∨ x.wait = .sync ∨ x.wait = .drain)) && (decide (x.wtwPend = false) && (decide (x.tkoPend = none) && (
      decide (x.rexPend = (c, w) :: r) && (decide (x.pstBit PST_MTA = true)))))))) = true ∧
    (let t : Thr := 0; let s : State := (tAt 0x3 { tThr with rexPend := [(9, 0x77),(4,5)] }); let c : Nat := 9; let w : Word := 0x77;
      let r : List (Nat × Word) := [(4,5)]; let x := s.thr t.val; decide (x.run = .running) && (decide (x.devLoad = []) && (
      decide ((x.wait = .none ∨ x.wait = .sync ∨ x.wait = .drain)) && (decide (x.wtwPend = false) && (decide (x.tkoPend = none) && (
      decide (x.rexPend = (c, w) :: r) && (decide (x.pstBit PST_MTA = false)))))))) = true :=
  ⟨by decide, by decide, by decide, by decide⟩

/-- States and operands that meet the hypotheses of clauses of StoreBecomesVisible. -/
theorem test_meets_StoreBecomesVisible :
    (let t : Thr := 0; let e : StoreEnt := ⟨.mem,0x20FC,[1,2,3,4],3,false,0⟩; let r : List StoreEnt := [];
      let s : State := (tRunOf { tThr with sb := [⟨.mem,0x20FC,[1,2,3,4],3,false,0⟩] }); decide ((s.thr t.val).sb = e :: r) && (let l := lineOf e.pa;
      decide (e.kind = .mem) && (decide (e.pa % 256 + e.bytes.length ≤ 256) && (decide (s.deferred l t.val = false) && (
      decide (s.accWrite l = LineAcc.ok)))))) = true ∧
    (let t : Thr := 0; let e : StoreEnt := ⟨.mem,0x3000,[1,2,3,4],3,false,0⟩; let r : List StoreEnt := [];
      let s : State := ({ tRunOf { tThr with sb := [⟨.mem,0x3000,[1,2,3,4],3,false,0⟩] } with home := [tTx] });
      decide ((s.thr t.val).sb = e :: r) && (let l := lineOf e.pa; decide (e.kind = .mem) && (decide (e.pa % 256 + e.bytes.length ≤ 256) && (
      decide (s.deferred l t.val = false) && (let opc := OPC_RDO; decide (s.accWrite l = LineAcc.need opc) && (
      decide ((s.request opc l (s.part t.val) (some t.val)).accWrite l = LineAcc.wait))))))) = true ∧
    (let t : Thr := 0; let e : StoreEnt := ⟨.clzero,0x2000,[],3,false,0⟩; let r : List StoreEnt := [];
      let s : State := (tRunOf { tThr with sb := [⟨.clzero,0x2000,[],3,false,0⟩] }); decide ((s.thr t.val).sb = e :: r) && (let l := lineOf e.pa;
      decide (e.kind = .clzero) && (decide (e.pa % 256 = 0) && (decide (s.deferred l t.val = false) && (decide (s.accWrite l = LineAcc.ok)))))) = true ∧
    (let t : Thr := 0; let e : StoreEnt := ⟨.clflush,0x2000,[],3,false,0⟩; let r : List StoreEnt := [];
      let s : State := (tRunOf { tThr with sb := [⟨.clflush,0x2000,[],3,false,0⟩] }); decide ((s.thr t.val).sb = e :: r) && (let l := lineOf e.pa;
      let opc := OPC_CMF; decide ((e.kind = .clwb ∧ opc = OPC_CMW ∨ e.kind = .clflush ∧ opc = OPC_CMF ∨ e.kind = .clinv ∧ opc = OPC_CMI)) && (
      decide (s.cmoOut t.val = false) && (decide (s.tidsFull = false) && (decide (lineHome l = s.self)))))) = true :=
  ⟨by decide, by decide, by decide, by decide⟩

/-- States and operands that meet the hypotheses of clauses of DeviceStores. -/
theorem test_meets_DeviceStores :
    (let t : Thr := 0; let e : StoreEnt := ⟨.dev,0x8000000004000,[1],3,false,0⟩; let r : List StoreEnt := [];
      let s : State := (tRunOf { tThr with sb := [⟨.dev,0x8000000004000,[1],3,false,0⟩], trk := List.replicate 16 ⟨0x8000000000000,[1],3,0,false,none⟩ });
      decide ((s.thr t.val).sb = e :: r) && (decide (e.kind = .dev) && (decide (s.wind < 2) && (let x := s.thr t.val;
      decide (16 ≤ x.trk.length))))) = true ∧
    (let t : Thr := 0; let e : StoreEnt := ⟨.dev,0x8000000004000,[1],3,false,0⟩; let r : List StoreEnt := [];
      let s : State := (tRunOf { tThr with sb := [⟨.dev,0x8000000004000,[1],3,false,0⟩] }); decide ((s.thr t.val).sb = e :: r) && (
      decide (e.kind = .dev) && (decide (s.wind < 2) && (let x := s.thr t.val; decide (x.trk.length < 16) && (decide (s.devKey e.pa ∉ s.failed) && (
      decide (paModule e.pa = s.self) && (
      decide ((match paDst e.pa with | .reg _ _ _ => true | .port h _ => !s.halfDown h | .none => false) = true)))))))) = true ∧
    (let t : Thr := 0; let i : Nat := 1; let e : TrkEnt := ⟨0x8000000004010,[1,0,0,0,0,0,0,0],3,0,false,none⟩; let b : Nat := 1; let k : Nat := 4;
      let o : Nat := 0x10;
      let s : State := (tRunOf { tThr with trk := [⟨0x8000000004000,[1],3,0,false,none⟩,⟨0x8000000004010,[1,0,0,0,0,0,0,0],3,0,false,none⟩] });
      decide ((s.thr t.val).trk[i]? = some e) && (decide (paModule e.pa = s.self) && (decide (paDst e.pa = .reg b k o) && (let x := s.thr t.val;
      decide ((∃ f ∈ x.trk.take i, s.devKey f.pa = s.devKey e.pa)))))) = true ∧
    (let t : Thr := 0; let i : Nat := 0; let e : TrkEnt := ⟨0x8000000004010,[1,0,0,0,0,0,0,0],3,0,false,none⟩; let b : Nat := 1; let k : Nat := 4;
      let o : Nat := 0x10; let s : State := (tRunOf { tThr with trk := [⟨0x8000000004010,[1,0,0,0,0,0,0,0],3,0,false,none⟩] });
      decide ((s.thr t.val).trk[i]? = some e) && (decide (paModule e.pa = s.self) && (decide (paDst e.pa = .reg b k o) && (let x := s.thr t.val;
      decide ((∀ f ∈ x.trk.take i, s.devKey f.pa ≠ s.devKey e.pa)))))) = true ∧
    (let t : Thr := 0; let i : Nat := 0; let e : TrkEnt := ⟨0x8000000004010,[1,0,0,0,0,0,0,0],3,0,false,none⟩;
      let s : State := (tRunOf { tThr with trk := [⟨0x8000000004010,[1,0,0,0,0,0,0,0],3,0,false,none⟩] });
      decide ((s.thr t.val).trk[i]? = some e) && (decide (s.devKey e.pa ∉ s.failed))) = true :=
  ⟨by decide, by decide, by decide, by decide, by decide⟩

/-- States and operands that meet the hypotheses of clauses of PortStoresAndLoads. -/
theorem test_meets_PortStoresAndLoads :
    (let t : Thr := 0; let h : Nat := 0; let e : TrkEnt := ⟨0x8800000000000,[1],3,0,true,none⟩;
      let s : State := (tRunOf { tThr with trk := [⟨0x8800000000000,[1],3,0,true,none⟩] });
      decide (((s.thr t.val).trk.find? fun e => s.atPort h e && e.zlr) = some e) && (decide (s.devKey e.pa ∉ s.failed))) = true ∧
    (let t : Thr := 0; let a : List DevLoad := []; let b : List DevLoad := []; let d : DevLoad := ⟨0x8000000004000,8,none,none⟩;
      let s : State := (tRunOf { tThr with devLoad := [⟨0x8000000004000,8,none,none⟩] }); decide ((s.thr t.val).devLoad = a ++ d :: b) && (
      decide ((∀ x ∈ a, x.val ≠ none ∨ x.tid ≠ none)) && (decide (d.val = none) && (decide (d.tid = none))))) = true ∧
    (let t : Thr := 0; let a : List DevLoad := []; let b : List DevLoad := []; let d : DevLoad := ⟨0x8000000004000,8,none,none⟩;
      let s : State := (tRunOf { tThr with devLoad := [⟨0x8000000004000,8,none,none⟩] }); decide ((s.thr t.val).devLoad = a ++ d :: b) && (
      decide ((∀ x ∈ a, x.val ≠ none)) && (decide (d.val = none)))) = true ∧
    (let s : State := tRun; decide (s.snpQ = []) && (decide (s.home = []))) = true :=
  ⟨by decide, by decide, by decide, by decide⟩

/-- States and operands that meet the hypotheses of clauses of GroveRequestResults. -/
theorem test_meets_GroveRequestResults :
    (let i : Instr := (.rdo tHdr); let h : Hdr := tHdr; let opc : Nat := OPC_RDO; let wr : Bool := true;
      let s : State := (tG.setAct (FBK_GRANT 0) 0x80); decide (groveReq i = some (h, opc, wr)) && (decide (s.inOrder h = true) && (
      decide (lineHome h.la.toNat = s.self) && (let g := s.taken h; let l := h.la.toNat; decide (g.memOk h.part.val (l * 256) wr = false))))) = true ∧
    (let i : Instr := (.rdo tHdr); let h : Hdr := tHdr; let opc : Nat := OPC_RDO; let wr : Bool := true; let s : State := tG;
      decide (groveReq i = some (h, opc, wr)) && (decide (s.inOrder h = true) && (decide (lineHome h.la.toNat = s.self) && (let g := s.taken h;
      let l := h.la.toNat; decide (g.memOk h.part.val (l * 256) wr = true))))) = true ∧
    (let i : Instr := (.rdo tHdr); let h : Hdr := tHdr; let opc : Nat := OPC_RDO; let wr : Bool := true; let s : State := (tIl tG);
      decide (groveReq i = some (h, opc, wr)) && (decide (s.inOrder h = true) && (decide (lineHome h.la.toNat = s.self) && (let g := s.taken h;
      let l := h.la.toNat; decide (g.memOk h.part.val (l * 256) wr = true) && (decide (h.src.val ≠ s.self) && (let j := (48*16);
      decide (g.quietLine l j) && (let lk := 0; let a := (48*256); let n := 0; decide (opc = OPC_RDS ∨ opc = OPC_RDO ∨ opc = OPC_UPG) && (
      decide (g.seedIdx (l * 256) = none) && (decide (g.placeLine l = some (lk, a)) && (decide (g.readLink lk a = some n) && (
      decide (g.takesReads n = true)))))))))))) = true ∧
    (let i : Instr := (.rdz tHdr); let h : Hdr := tHdr; let opc : Nat := OPC_RDZ; let wr : Bool := true; let s : State := tG;
      decide (groveReq i = some (h, opc, wr)) && (decide (s.inOrder h = true) && (decide (lineHome h.la.toNat = s.self) && (let g := s.taken h;
      let l := h.la.toNat; decide (g.memOk h.part.val (l * 256) wr = true) && (decide (h.src.val ≠ s.self) && (let j := (48*16);
      decide (g.quietLine l j) && (decide (opc = OPC_RDZ)))))))) = true ∧
    (let i : Instr := (.cmf tHdr); let h : Hdr := tHdr; let opc : Nat := OPC_CMF; let wr : Bool := false; let s : State := tG;
      decide (groveReq i = some (h, opc, wr)) && (decide (s.inOrder h = true) && (decide (lineHome h.la.toNat = s.self) && (let g := s.taken h;
      let l := h.la.toNat; decide (g.memOk h.part.val (l * 256) wr = true) && (decide (h.src.val ≠ s.self) && (let j := (48*16);
      decide (g.quietLine l j) && (decide (opc = OPC_CMW ∨ opc = OPC_CMF ∨ opc = OPC_CMI) && (decide (g.writesOut l = false))))))))) = true ∧
    (let h : Hdr := tHdr; let s : State := ({ tIl tG with canopy := [(48*16, ⟨.ex, 0, 2, 1⟩)] }); decide (s.inOrder h = true) && (
      decide (lineHome h.la.toNat = s.self) && (decide (h.src.val ≠ s.self) && (let g := s.taken h; let l := h.la.toNat; decide (g.home = []) && (
      decide (g.purges = []) && (decide (g.lineDeferred l = false) && (decide ((g.canOf l).st ≠ .pnd)))))))) = true ∧
    (let h : Hdr := tHdr; let s : State := tG; decide (s.inOrder h = true)) = true :=
  ⟨by decide, by decide, by decide, by decide, by decide, by decide, by decide⟩

/-- States and operands that meet the hypotheses of clauses of GroveSnoopResults. -/
theorem test_meets_GroveSnoopResults :
    (let i : Instr := (.snps tFar); let h : Hdr := tFar; let opc : Nat := OPC_SNPS;
      let s : State := ({ tG with lines := [(2^40+48, tLine)], threads := [(0, { tThr with resv := some (2^40+48), defer := 3 })] });
      decide (groveSnoop i = some (h, opc)) && (decide (s.inOrder h = true) && (decide (lineHome h.la.toNat ≠ s.self) && (let g := s.taken h;
      let l := h.la.toNat; decide (g.lineDeferred l = true))))) = true ∧
    (let i : Instr := (.snpo tFar); let h : Hdr := tFar; let opc : Nat := OPC_SNPO; let s : State := ({ tG with lines := [(2^40+48, tLine)] });
      decide (groveSnoop i = some (h, opc)) && (decide (s.inOrder h = true) && (decide (lineHome h.la.toNat ≠ s.self) && (let g := s.taken h;
      let l := h.la.toNat; decide (g.lineDeferred l = false))))) = true ∧
    (let h : Hdr := tFar; let s : State := ({ tG with lines := [(2^40+48, tLine)] }); decide (s.inOrder h = true)) = true ∧
    (let h : Hdr := tFar; let s : State := tG; decide (s.inOrder h = true) && (let g := s.taken h; let set := h.la.toNat % 2 ^ 18;
      decide ((∀ e ∈ g.lines, lineHome e.1 = h.src.val → canSet (e.1 % 2 ^ 37) = set → e.2.held = false)))) = true :=
  ⟨by decide, by decide, by decide, by decide⟩

/-- States and operands that meet the hypotheses of clauses of GroveGrantResults. -/
theorem test_meets_GroveGrantResults :
    (let h : Hdr := ({ tFar with st := 2 }); let o : OutTx := (tOut (.coh OPC_RDS));
      let s : State := ({ tG with out := [tOut (.coh OPC_RDS)], lines := [(2^40+48, { tLine with st := .isd })] }); decide (s.inOrder h = true) && (
      decide (1 ≤ h.st.toNat) && (decide (h.st.toNat ≤ 3) && (decide ((s.taken h).outOf (keyMsg h) getsLine = some o))))) = true ∧
    (let h : Hdr := ({ tFar with st := 2 }); let o : OutTx := (tOut (.coh OPC_UPG));
      let s : State := ({ tG with out := [tOut (.coh OPC_UPG)], lines := [(2^40+48, { tLine with st := .sma })] }); decide (s.inOrder h = true) && (
      decide (1 ≤ h.st.toNat) && (decide (h.st.toNat ≤ 3) && (let g := s.taken h; let l := h.la.toNat;
      decide (g.outOf (keyMsg h) getsLine = some o) && (decide ((g.line l).st = .sma)))))) = true ∧
    (let h : Hdr := tHdr; let x : HomeTx := ({ tTx with keep := 4 });
      let s : State := ({ tG with home := [{ tTx with keep := 4 }], canopy := [(48*16, ⟨.sh, 0, 4, 0⟩)] }); decide (s.inOrder h = true) && (
      let g := s.taken h; let l := h.la.toNat; decide (g.homeHead l = some x) && (decide (x.st = .hc) && (decide (x.src = h.src.val) && (
      decide (isCmo x.opc = false)))))) = true ∧
    (let h : Hdr := tHdr; let x : HomeTx := ({ tTx with keep := 4 });
      let s : State := ({ tG with home := [{ tTx with keep := 4 }], canopy := [(48*16, ⟨.sh, 0, 4, 0⟩)] }); decide (s.inOrder h = true) && (
      let g := s.taken h; let l := h.la.toNat; decide (g.homeHead l = some x) && (decide (x.st = .hc) && (decide (x.src = h.src.val) && (
      decide (isCmo x.opc = false) && (decide (g.home = [x]))))))) = true ∧
    (let h : Hdr := ({ tFar with st := 2 }); let o : OutTx := (tOut (.coh OPC_WBK));
      let s : State := ({ tG with out := [tOut (.coh OPC_WBK)], lines := [(2^40+48, { tLine with st := .mia })] }); decide (s.inOrder h = true) && (
      let g := s.taken h;
      decide (g.outOf (keyMsg h) (fun o => match o.kind with | .coh c => c == OPC_WBK || c == OPC_EVN || c == OPC_PWB | _ => false) = some o))) = true ∧
    (let h : Hdr := ({ tFar with st := 1 }); let o : OutTx := (tOut (.cmo OPC_CMF 0)); let t : Nat := 0;
      let e : StoreEnt := ⟨.clflush,0x1000000003000,[],3,false,0⟩; let r : List StoreEnt := [];
      let s : State := ({ tG with out := [tOut (.cmo OPC_CMF 0)], threads := [(0, { tThr with sb := [⟨.clflush,0x1000000003000,[],3,false,0⟩], wbs := [1] })] });
      decide (s.inOrder h = true) && (let g := s.taken h; let l := h.la.toNat; decide (g.outOf (keyMsg h) isCmoTx = some o) && (
      decide (o.thr = some t) && (decide (h.st.toNat = 1) && (decide ((g.thr t).sb = e :: r) && (decide (e.pa / 256 = l))))))) = true ∧
    (let h : Hdr := ({ tFar with st := 2 }); let o : OutTx := (tOut (.cmo OPC_CMF 0)); let t : Nat := 0;
      let s : State := ({ tG with out := [tOut (.cmo OPC_CMF 0)], threads := [(0, { tThr with sb := [⟨.clflush,0x1000000003000,[],3,false,0⟩], wbs := [1] })] });
      decide (s.inOrder h = true) && (let g := s.taken h; decide (g.outOf (keyMsg h) isCmoTx = some o) && (decide (o.thr = some t) && (
      decide (h.st.toNat = 2))))) = true ∧
    (let h : Hdr := ({ tFar with st := 3 }); let o : OutTx := (tOut (.cmo OPC_CMF 0)); let t : Nat := 0;
      let e : StoreEnt := ⟨.clflush,0x1000000003000,[],3,false,0⟩; let r : List StoreEnt := [];
      let s : State := ({ tG with out := [tOut (.cmo OPC_CMF 0)], threads := [(0, { tThr with sb := [⟨.clflush,0x1000000003000,[],3,false,0⟩], wbs := [1] })] });
      decide (s.inOrder h = true) && (let g := s.taken h; let l := h.la.toNat; decide (g.outOf (keyMsg h) isCmoTx = some o) && (
      decide (o.thr = some t) && (decide (h.st.toNat = 3) && (decide ((g.thr t).sb = e :: r) && (decide (e.pa / 256 = l))))))) = true ∧
    (let h : Hdr := ({ tHdr with la := 3 }); let p : Purge := ⟨3,6⟩; let s : State := ({ tG with purges := [⟨3,6⟩] });
      decide (s.inOrder h = true) && (let g := s.taken h; let set := h.la.toNat % 2 ^ 18;
      decide ((g.purges.find? fun p => p.set == set && bitOf p.wait h.src.val) = some p) && (decide (setBit p.wait h.src.val false ≠ 0)))) = true ∧
    (let h : Hdr := ({ tHdr with la := 3 }); let p : Purge := ⟨3,2⟩;
      let s : State := ({ tG with purges := [⟨3,2⟩], canopy := [(3*16, ⟨.bad, 0, 4, 0⟩)] }); decide (s.inOrder h = true) && (let g := s.taken h;
      let set := h.la.toNat % 2 ^ 18; decide ((g.purges.find? fun p => p.set == set && bitOf p.wait h.src.val) = some p) && (
      decide (setBit p.wait h.src.val false = 0) && (decide (g.home = []))))) = true ∧
    (let h : Hdr := ({ tFar with st := 2 }); let o : OutTx := (tOut (.coh OPC_RDS)); let c : Nat := OPC_RDS;
      let s : State := ({ tG with out := [tOut (.coh OPC_RDS)], lines := [(2^40+48, { tLine with st := .isd })] }); decide (s.inOrder h = true) && (
      decide (1 ≤ h.st.toNat) && (decide (h.st.toNat ≤ 4) && (let g := s.taken h; decide (g.txOf h = some o) && (decide (o.kind = .coh c) && (
      decide (c ≠ OPC_WBK) && (decide (c ≠ OPC_EVN) && (decide (c ≠ OPC_PWB) && (decide ((g.line o.line).st ≠ .sma)))))))))) = true :=
  ⟨by decide, by decide, by decide, by decide, by decide, by decide, by decide, by decide, by decide, by decide, by decide⟩

/-- States and operands that meet the hypotheses of clauses of SnoopResponseResults. -/
theorem test_meets_SnoopResponseResults :
    (let h : Hdr := ({ tHdr with st := 1 }); let x : HomeTx := ({ tTx with st := .hs, wait := 6 });
      let s : State := ({ tG with home := [{ tTx with st := .hs, wait := 6 }] }); decide (s.inOrder h = true) && (let g := s.taken h;
      let l := h.la.toNat; let m := h.src.val; decide (g.home = [x]) && (decide (x.line = l) && (decide (x.st = .hs) && (decide (x.evict = none) && (
      decide (bitOf x.wait m = true) && (decide (setBit x.wait m false ≠ 0) && (decide (h.st.toNat = 1 ∨ h.st.toNat = 3))))))))) = true ∧
    (let h : Hdr := ({ tHdr with st := 1 }); let x : HomeTx := ({ tTx with st := .hs, wait := 6 });
      let s : State := ({ tG with home := [{ tTx with st := .hs, wait := 6 }] }); decide (s.inOrder h = true) && (let g := s.taken h;
      let l := h.la.toNat; let m := h.src.val; decide (g.home = [x]) && (decide (x.line = l) && (decide (x.st = .hs) && (decide (x.evict = none) && (
      decide (bitOf x.wait m = true) && (decide (setBit x.wait m false ≠ 0) && (decide (x.direct = false))))))))) = true ∧
    (let h : Hdr := ({ tHdr with st := 3 }); let x : HomeTx := ({ tTx with st := .hs, wait := 6 });
      let s : State := ({ tG with home := [{ tTx with st := .hs, wait := 6 }] }); decide (s.inOrder h = true) && (let g := s.taken h;
      let l := h.la.toNat; let m := h.src.val; decide (g.home = [x]) && (decide (x.line = l) && (decide (x.st = .hs) && (decide (x.evict = none) && (
      decide (bitOf x.wait m = true) && (decide (setBit x.wait m false ≠ 0) && (decide (h.st.toNat = 3))))))))) = true ∧
    (let h : Hdr := tHdr; let x : HomeTx := ({ tTx with st := .hs, wait := 6, direct := true });
      let s : State := ({ tG with home := [{ tTx with st := .hs, wait := 6, direct := true }] }); decide (s.inOrder h = true) && (let g := s.taken h;
      let l := h.la.toNat; let m := h.src.val; decide (g.home = [x]) && (decide (x.line = l) && (decide (x.st = .hs) && (decide (x.evict = none) && (
      decide (bitOf x.wait m = true) && (decide (setBit x.wait m false ≠ 0) && (decide (h.st.toNat = 0) && (decide (x.direct = true)))))))))) = true :=
  ⟨by decide, by decide, by decide, by decide⟩

/-- States and operands that meet the hypotheses of clauses of RemoteAccessResults. -/
theorem test_meets_RemoteAccessResults :
    (let h : Hdr := ({ tHdr with la := 0x40 }); let lo : BitVec 8 := 0x10; let s : State := tG; decide (s.inOrder h = true) && (let g := s.taken h;
      let pa := 2 ^ 51 + h.la.toNat * 256 + lo.toNat; decide (paModule pa = g.self) && (decide (g.devOk h.part.val (paDst pa) = false)))) = true ∧
    (let h : Hdr := ({ tHdr with la := 0x40 }); let lo : BitVec 8 := 0x10; let s : State := ({ tDg tG with failed := [0x104] });
      decide (s.inOrder h = true) && (let g := s.taken h; let pa := 2 ^ 51 + h.la.toNat * 256 + lo.toNat; decide (paModule pa = g.self) && (
      decide (g.devOk h.part.val (paDst pa) = true) && (decide (g.devKey pa ∈ g.failed))))) = true ∧
    (let h : Hdr := ({ tHdr with la := 0x40 }); let lo : BitVec 8 := 0x10; let s : State := (tDg tG); decide (s.inOrder h = true) && (
      let g := s.taken h; let pa := 2 ^ 51 + h.la.toNat * 256 + lo.toNat; let b := 1; let i := 4; let o := 0x10; decide (paModule pa = g.self) && (
      decide (g.devOk h.part.val (paDst pa) = true) && (decide (g.devKey pa ∉ g.failed) && (decide (paDst pa = .reg b i o)))))) = true ∧
    (let h : Hdr := ({ tHdr with la := 0x40 }); let o : OutTx := (tOut (.mrd 0)); let t : Nat := 0;
      let s : State := ({ tG with out := [tOut (.mrd 0)], threads := [(0, { tThr with devLoad := [⟨0x9000000004010,8,some 5,none⟩] })] });
      decide (s.inOrder h = true) && (let g := s.taken h; decide (g.txOf h = some o) && (decide (o.kind = .mrd t) && (let a := ([] : List DevLoad);
      let d := (⟨0x9000000004010,8,some 5,none⟩ : DevLoad); let b := ([] : List DevLoad); decide ((g.thr t).devLoad = a ++ d :: b) && (
      decide (d.val = none) && (decide (d.tid = some o.tid) && (decide ((∀ x ∈ a, x.val ≠ none ∨ x.tid ≠ some o.tid))))))))) = true ∧
    (let h : Hdr := ({ tHdr with la := 0x40 }); let o : OutTx := (tOut (.mwr 0)); let t : Nat := 0;
      let s : State := ({ tG with out := [tOut (.mwr 0)] }); decide (s.inOrder h = true) && (let g := s.taken h; decide (g.txOf h = some o) && (
      decide (o.kind = .mwr t)))) = true ∧
    (let h : Hdr := ({ tHdr with la := 0x40 }); let o : OutTx := (tOut (.tlbb 0)); let t : Nat := 0;
      let s : State := ({ tG with out := [tOut (.tlbb 0)], threads := [(0, { tThr with wait := .inval ⟨1,0,0,0,[]⟩ 6 })] });
      decide (s.inOrder h = true) && (let g := s.taken h; decide (g.txOf h = some o) && (decide (o.kind = .tlbb t) && (let b := ⟨1,0,0,0,[]⟩;
      let mods := 6; decide ((g.thr t).wait = .inval b mods))))) = true ∧
    (let h : Hdr := ({ tHdr with la := 0x40 }); let grp : BitVec 8 := 9; let s : State := tG; decide (s.inOrder h = true) && (
      decide ((s.taken h).inb = []) && (let g := s.taken h;
      let cs := (List.range 72).filter fun c => g.coreActive c && !(g.core c).held && !g.leaving c && grp.toNat != 0 && g.actF (HWD_XLAT c) HWD_XLAT_BGRP == grp.toNat;
      decide (cs = [])))) = true ∧
    (let h : Hdr := ({ tHdr with la := 0x40 }); let grp : BitVec 8 := 9;
      let s : State := ((tG.setAct (HWD_XLAT 0) 0x900).modCore 0 fun c => { c with held := false }); decide (s.inOrder h = true) && (
      decide ((s.taken h).inb = []) && (let g := s.taken h;
      let cs := (List.range 72).filter fun c => g.coreActive c && !(g.core c).held && !g.leaving c && grp.toNat != 0 && g.actF (HWD_XLAT c) HWD_XLAT_BGRP == grp.toNat;
      decide (cs ≠ [])))) = true ∧
    (let p : GrovePort := 0; let s : State := tG; decide (s.gpState p.val = 2)) = true :=
  ⟨by decide, by decide, by decide, by decide, by decide, by decide, by decide, by decide, by decide⟩

/-- States and operands that meet the hypotheses of clauses of GroveLinkFlow. -/
theorem test_meets_GroveLinkFlow :
    (let p : GrovePort := 0; let n : BitVec 12 := 3; let s : State := tG; decide (s.gpState p.val = 2) && (
      let x := (s.gp p.val).ack ((n.toNat + 4095) % 4096); decide (x.buf = []))) = true ∧
    (let p : GrovePort := 0; let n : BitVec 12 := 0; let s : State := (tG.modGp 0 fun x => { x with buf := [tFlit], txSeq := 1 });
      decide (s.gpState p.val = 2) && (let x := (s.gp p.val).ack ((n.toNat + 4095) % 4096); decide (x.buf ≠ []))) = true ∧
    (let p : GrovePort := 0; let s : State := tG; decide (s.gpState p.val = 2)) = true ∧
    (let p : GrovePort := 0; let f : Relayed := ({ tRel with final := 1, first := 2 }); let s : State := tG; decide (s.gpState p.val = 2) && (
      decide ((s.gp p.val).rxSeq = f.lseq.toNat) && (
      let g := (s.modGp p.val fun x => x.ack f.lack.toNat).modGp p.val fun x => { x with rxSeq := (x.rxSeq + 1) % 4096 }; let q := 0;
      decide (f.final.val ≠ s.self) && (decide ((g.bundle f.final.val).find? g.gpUp = some q))))) = true ∧
    (let p : GrovePort := 0; let f : Relayed := ({ tRel with pseq := 3 }); let s : State := tG; decide (s.gpState p.val = 2) && (
      decide ((s.gp p.val).rxSeq = f.lseq.toNat) && (
      let g := (s.modGp p.val fun x => x.ack f.lack.toNat).modGp p.val fun x => { x with rxSeq := (x.rxSeq + 1) % 4096 };
      decide (f.final.val = s.self) && (decide (f.pseq.toNat ≠ (g.peer f.first.val).prx))))) = true ∧
    (let p : GrovePort := 0; let f : Relayed := tRel; let s : State := tG; decide (s.gpState p.val = 2) && (
      decide ((s.gp p.val).rxSeq = f.lseq.toNat) && (
      let g := (s.modGp p.val fun x => x.ack f.lack.toNat).modGp p.val fun x => { x with rxSeq := (x.rxSeq + 1) % 4096 };
      decide (f.final.val = s.self) && (decide (f.pseq.toNat = (g.peer f.first.val).prx))))) = true ∧
    (let p : GrovePort := 0; let q : GrovePort := 1;
      let s : State := ((tG.setF (GRV_STAT 1) GRV_STAT_STATE 4).modGp 1 fun x => { x with resumeFor := [1], buf := [tFlit] });
      decide (s.gpState p.val = 2) && (decide (q ≠ p) && (decide (s.gpState q.val = 4) && (decide ((s.gp q.val).resumeFor ≠ []))))) = true ∧
    (let m : Module := 1; let s : State := tG; decide (s.member m.val = true) && (decide ((s.peer m.val).severed = false) && (
      decide (m.val ≠ s.self)))) = true :=
  ⟨by decide, by decide, by decide, by decide, by decide, by decide, by decide, by decide⟩

/-- States and operands that meet the hypotheses of clauses of GrovePortStates. -/
theorem test_meets_GrovePortStates :
    (let p : GrovePort := 0; let s : State := tG; decide (s.gpState p.val = 2)) = true ∧
    (let p : GrovePort := 0; let s : State := tRun; decide (s.gpState p.val ≠ 2)) = true ∧
    (let p : GrovePort := 0; let s : State := (tG.setF (GRV_STAT 0) GRV_STAT_STATE 3); decide (s.gpState p.val = 3)) = true ∧
    (let p : GrovePort := 0; let s : State := tG; decide (s.gpState p.val ≠ 3)) = true ∧
    (let p : GrovePort := 0; let s : State := (tG.setF (GRV_STAT 0) GRV_STAT_STATE 1); decide (s.gpState p.val = 1)) = true ∧
    (let p : GrovePort := 0; let s : State := tG; decide (s.gpState p.val ≠ 1)) = true ∧
    (let p : GrovePort := 0; let n : Fin 16 := 3; let s : State := tG; let ok := s.getF (GRV_STAT p.val) GRV_STAT_LANEOK;
      decide (bitOf ok n.val = false)) = true ∧
    (let p : GrovePort := 0; let n : Fin 16 := 3; let s : State := (tG.setF (GRV_STAT 0) GRV_STAT_LANEOK 0xFFFF);
      let ok := s.getF (GRV_STAT p.val) GRV_STAT_LANEOK; decide (s.gpState p.val = 2) && (decide (bitOf ok n.val = true))) = true ∧
    (let p : GrovePort := 0; let ok : Bool := true; let i : PortIdent := (⟨0,1,0,7,0⟩ : PortIdent);
      let s : State := (tG.setF (GRV_STAT 0) GRV_STAT_STATE 3); decide (s.gpState p.val = 3) && (decide (ok = true) && (
      decide (s.identOk p.val i = true)))) = true ∧
    (let p : GrovePort := 0; let ok : Bool := true; let i : PortIdent := (⟨9,1,0,7,0⟩ : PortIdent);
      let s : State := (tG.setF (GRV_STAT 0) GRV_STAT_STATE 3); decide (s.gpState p.val = 3) && (decide (ok = true) && (
      decide (s.identOk p.val i = false) && (decide (s.gpPeer p.val ≠ s.self))))) = true ∧
    (let p : GrovePort := 0; let ok : Bool := false; let s : State := (tG.setF (GRV_STAT 0) GRV_STAT_STATE 3); decide (s.gpState p.val = 3) && (
      decide (ok = false) && (decide ((s.gp p.val).qrFail = 0)))) = true ∧
    (let p : GrovePort := 0; let ok : Bool := false;
      let s : State := ((tG.setF (GRV_STAT 0) GRV_STAT_STATE 3).modGp 0 fun x => { x with qrFail := 1 }); decide (s.gpState p.val = 3) && (
      decide (ok = false) && (decide ((s.gp p.val).qrFail ≠ 0)))) = true ∧
    (let p : GrovePort := 0; let lanes : BitVec 16 := 0xFFFF; let s : State := (tG.setF (GRV_STAT 0) GRV_STAT_STATE 1);
      decide (s.gpState p.val = 1) && (let l := lanes.toNat; decide ((∃ g ∈ List.range 4, l / 2 ^ (4 * g) % 16 = 15)))) = true ∧
    (let m : Module := 2; let s : State := (tG.setF (GRV_STAT 0) GRV_STAT_STATE 0); decide (s.member m.val = true) && (
      decide (s.direct m.val = false) && (decide (s.relay m.val = none) && (decide ((s.peer m.val).severed = false) && (
      decide (m.val ≠ s.self)))))) = true :=
  ⟨by decide, by decide, by decide, by decide, by decide, by decide, by decide, by decide, by decide, by decide, by decide, by decide, by decide, by decide⟩

/-- States and operands that meet the hypotheses of clauses of RootLinkStates. -/
theorem test_meets_RootLinkStates :
    (let n : Link := 0; let k : Fin 8 := 1; let s : State := (tG.setF (RTL_STAT 0) RTL_STAT_STATE 1); decide (s.training n.val = true) && (
      decide ((k.val, trainFail k.val) ∈ [(1, 1), (2, 3), (3, 4), (4, 2), (5, 5), (6, 6), (7, 9)]))) = true ∧
    (let n : Link := 0; let s : State := ((tG.setF (RTL_STAT 0) RTL_STAT_STATE 1).setRoot 0 { rootDefault 0 with back := 2 });
      decide (s.retraining n.val = true)) = true ∧
    (let n : Link := 0; let s : State := ((tIl tG).setF (RTL_STAT 0) RTL_STAT_STATE 1); decide (s.training n.val = true)) = true ∧
    (let n : Link := 0; let la : Nat := 256; let wr : Bool := true;
      let s : State := (((tIl tG).setAct HOM_MIRROR 1).setRoot 0 { rootDefault 0 with wrs := [⟨256,7,false⟩], rds := [512] });
      decide (s.inService n.val = true) && (decide ((if wr then la ∈ (s.root n.val).wrs.map (·.la) else la ∈ (s.root n.val).rds)))) = true ∧
    (let n : Link := 0; let s : State := (tIl tG); decide (s.inService n.val = true)) = true ∧
    (let n : Link := 0; let s : State := ((tG.setF (RTL_STAT 0) RTL_STAT_STATE 7).setRoot 0 { rootDefault 0 with back := 3 });
      decide (s.domainUp 0x09 n.val = true) && (decide (s.rtlState n.val = 7) && (decide ((s.root n.val).back = 2 ∨ (s.root n.val).back = 3)))) = true ∧
    (let n : Link := 0; let s : State := (((tIl tG).setAct HOM_MIRROR 1).setF (HOM_MSTAT 0) HOM_MSTAT_STATE 1);
      decide (s.domainUp 0x09 n.val = true) && (decide (s.pairEn (n.val / 2) = true) && (decide (s.pairState (n.val / 2) = 1) && (
      decide (s.getF (RTL_CTL n.val) RTL_CTL_HOLD = 0) && (decide (RTL_CTL_REVIVE.get (s.reg (RTL_CTL n.val)) = 0)))))) = true ∧
    (let n : Link := 0; let s : State := ((tG.setF (RTL_STAT 0) RTL_STAT_STATE 5).setF (RTL_CTL 0) RTL_CTL_HOLD 1);
      decide (s.domainUp 0x09 n.val = true) && (decide (s.rtlState n.val = 5) && (decide (s.getF (RTL_CTL n.val) RTL_CTL_HOLD = 1) && (
      decide (RTL_CTL_REVIVE.get (s.reg (RTL_CTL n.val)) = 0))))) = true ∧
    (let n : Link := 0; let s : State := tG; decide (s.domainUp 0x09 n.val = true) && (decide ((s.root n.val).cfg = false))) = true ∧
    (let n : Link := 0; let s : State := (tG.setRoot 0 { rootDefault 0 with cfg := true }); decide ((s.root n.val).cfg = true)) = true :=
  ⟨by decide, by decide, by decide, by decide, by decide, by decide, by decide, by decide, by decide, by decide⟩

/-- States and operands that meet the hypotheses of clauses of RootMemoryTraffic. -/
theorem test_meets_RootMemoryTraffic :
    (let n : Link := 0; let la : Nat := (48*256);
      let s : State := ({ (tIl tG).setRoot 0 { rootDefault 0 with rds := [48*256] } with home := [{ tTx with st := .hm, rdWait := true, opc := OPC_RDS }] });
      decide (la ∈ (s.root n.val).rds) && (decide (s.inService n.val = true) && (decide (s.getF (RTL_CTL n.val) RTL_CTL_HOLD = 0) && (
      decide (s.partner n.val = none) && (decide (la ∉ (s.root n.val).fix) && (decide ((s.linkLine n.val la).2 = false))))))) = true ∧
    (let n : Link := 0; let la : Nat := 256; let a : List RootWr := []; let b : List RootWr := [⟨256,9,false⟩];
      let w : RootWr := (⟨256,7,true⟩ : RootWr); let s : State := ((tIl tG).setRoot 0 { rootDefault 0 with wrs := [⟨256,7,true⟩,⟨256,9,false⟩] });
      decide ((s.root n.val).wrs = a ++ w :: b) && (decide (w.la = la) && (decide (la % 256 = 0) && (decide (la < 2 ^ 41) && (
      decide ((∀ x ∈ a, x.la ≠ la)) && (decide (s.inService n.val = true) && (decide (s.home = [])))))))) = true ∧
    (let k : Fin 8 := 0; let s : State := ((((tIl tG).setAct HOM_MIRROR 1).setF (HOM_MSTAT 0) HOM_MSTAT_STATE 4).setF (RTL_STAT 1) RTL_STAT_STATE 6);
      let st := s.pairState k.val; let src := if st = 4 then 2 * k.val else 2 * k.val + 1; let dst := if st = 4 then 2 * k.val + 1 else 2 * k.val;
      let prog := s.getF (HOM_MSTAT k.val) HOM_MSTAT_PROG; decide (st = 4 ∨ st = 5) && (decide (s.inService src = true) && (
      decide (s.rtlState dst = 6) && (decide (s.lineBusy src (prog * 256) = false) && (decide (prog * 256 < 2 ^ 41) && (
      decide ((s.root dst).wrs = []))))))) = true ∧
    (let n : Link := 0; let s : State := ((tIl tG).setF HOM_SCRUB HOM_SCRUB_PERIOD 5); let x := s.root n.val; decide (s.inService n.val = true) && (
      decide (s.getF HOM_SCRUB HOM_SCRUB_PERIOD ≠ 0) && (decide (x.swept = false) && (decide (s.lineBusy n.val (x.scrub * 256) = false) && (
      decide (x.scrub + 1 < s.linkLines n.val) && (decide ((s.linkLine n.val (x.scrub * 256)).2 = false))))))) = true :=
  ⟨by decide, by decide, by decide, by decide⟩

/-- States and operands that meet the hypotheses of clauses of PortResults. -/
theorem test_meets_PortResults :
    (let g : Glade := 0; let a : Word := 0x10; let b : List Byte := [1,2]; let s : State := tGs; let sl := bitsOf a.toNat 62 55;
      let gen := bitsOf a.toNat 54 47; let off := a.toNat % 2 ^ 47; let v := (okS (tGs.swrite 0 0 0 0x10 [1,2])); s.swrite g sl gen off b = .ok () v) ∧
    (let g : Glade := 0; let ph : PortHalf := 0; let a : Word := 0x0080000000000010; let s : State := tGs; decide (s.halfUp g ph = true) && (
      let sl := bitsOf a.toNat 62 55; decide (bitOf a.toNat 63 = false) && (decide (s.portRefuses g ph sl = true)))) = true ∧
    (let g : Glade := 0; let ph : PortHalf := 0; let a : Word := 0x10; let b : List Byte := [1,2]; let s : State := tGs;
      decide (s.halfUp g ph = true) && (let sl := bitsOf a.toNat 62 55; let off := a.toNat % 2 ^ 47; decide (bitOf a.toNat 63 = false) && (
      decide (s.portRefuses g ph sl = false) && (decide (b ≠ []) && (decide (off % 4096 + b.length ≤ 4096)))))) = true ∧
    (let g : Glade := 0; let ph : PortHalf := 0; let a : Word := 0x20010; let b : List Byte := [1,2]; let s : State := (tGl (tAt 1 tThr));
      decide (s.halfUp g ph = true) && (let sl := bitsOf a.toNat 62 55; let gen := bitsOf a.toNat 54 47; let off := a.toNat % 2 ^ 47;
      decide (bitOf a.toNat 63 = false) && (decide (s.portRefuses g ph sl = false) && (decide (b ≠ []) && (decide (off % 4096 + b.length ≤ 4096) && (
      let st := (failC (tGs.swrite 0 0 0 0x20010 [1,2])); let v := (okS (tGs.swrite 0 0 0 0x20010 [1,2]));
      decide (s.swrite g sl gen off b = .fail st v))))))) = true ∧
    (let g : Glade := 0; let ph : PortHalf := 0; let a : Word := 0x10; let n : Nat := 4; let s : State := tGs; decide (s.halfUp g ph = true) && (
      let sl := bitsOf a.toNat 62 55; let gen := bitsOf a.toNat 54 47; let off := a.toNat % 2 ^ 47; decide (bitOf a.toNat 63 = false) && (
      decide (s.portRefuses g ph sl = false) && (let d := (okV [] (tGs.sread 0 0 0 0x10 4)); let v := (okS (tGs.sread 0 0 0 0x10 4));
      decide (s.sread g sl gen off n = .ok d v))))) = true ∧
    (let g : Glade := 0; let ph : PortHalf := 0; let a : Word := 0x10; let n : Nat := 4;
      let s : State := ({ tGs with lines := tMemLines [256] |>.map fun e => (e.1, { e.2 with poison := true }) }); decide (s.halfUp g ph = true) && (
      let sl := bitsOf a.toNat 62 55; let gen := bitsOf a.toNat 54 47; let off := a.toNat % 2 ^ 47; decide (bitOf a.toNat 63 = false) && (
      decide (s.portRefuses g ph sl = false) && (
      let v := (okS (({ tGs with lines := tMemLines [256] |>.map fun e => (e.1, { e.2 with poison := true }) } : State).sread 0 0 0 0x10 4));
      decide (s.sread g sl gen off n = .fail 6 v))))) = true ∧
    (let g : Glade := 0; let ph : PortHalf := 0; let a : Word := 0x20010; let n : Nat := 4; let s : State := tGs; decide (s.halfUp g ph = true) && (
      let sl := bitsOf a.toNat 62 55; let gen := bitsOf a.toNat 54 47; let off := a.toNat % 2 ^ 47; decide (bitOf a.toNat 63 = false) && (
      decide (s.portRefuses g ph sl = false) && (let st := (failC (tGs.sread 0 0 0 0x20010 4)); let v := (okS (tGs.sread 0 0 0 0x20010 4));
      decide (s.sread g sl gen off n = .fail st v) && (decide (st ≠ 6) && (decide (st ≠ staleGen))))))) = true ∧
    (let g : Glade := 0; let ph : PortHalf := 0; let a : Word := 0x8000000000000010; let s : State := tGs; decide (s.halfUp g ph = true) && (
      decide (bitOf a.toNat 63 = true))) = true ∧
    (let g : Glade := 0; let ph : PortHalf := 0; let s : State := tGs; decide (s.halfUp g ph = true)) = true ∧
    (let g : Glade := 0; let ph : PortHalf := 0; let a : Word := 0x8000000000000000; let s : State := tGs; decide (s.halfUp g ph = true) && (
      decide (a.toNat / 2 ^ 16 = 2 ^ 47) && (decide (a.toNat % 32 = 0) && (let e := 2 * g.val + (if a.getLsbD 15 then 1 else 0);
      let t := bitsOf a.toNat 14 5; decide ((s.task e t).st = 0 ∨ s.maxTask e < t))))) = true ∧
    (let g : Glade := 0; let ph : PortHalf := 0; let a : Word := 0x8000000000000000;
      let s : State := ({ tGs with engines := [(0, { (TwigEng.reset) with tasks := [(0, { taskDefault 0 with st := 1 })] })] });
      decide (s.halfUp g ph = true) && (decide (a.toNat / 2 ^ 16 = 2 ^ 47) && (decide (a.toNat % 32 = 0) && (
      let e := 2 * g.val + (if a.getLsbD 15 then 1 else 0); let t := bitsOf a.toNat 14 5; decide (t ≤ s.maxTask e) && (
      decide ((s.task e t).st ≠ 0) && (decide ((s.task e t).st ≠ 2) && (decide ((s.task e t).evq.length < 16)))))))) = true ∧
    (let g : Glade := 0; let ph : PortHalf := 0; let sp : BitVec 4 := 3; let w : BitVec 4 := 4;
      let s : State := (tGs.setF (GLD_PST 0 0 0) GLD_PST_STATE 2); decide (s.gladeUp g = true) && (
      decide (s.getF (halfPst g ph) GLD_PST_STATE = 2) && (decide (1 ≤ sp.toNat) && (
      decide (sp.toNat ≤ s.actF (GLD_PORT g (ph / 2)) GLD_PORT_MAXSPD) && (decide (w.toNat ∈ [1, 2, 4, 8]) && (
      decide (w.toNat ≤ (if s.actF (GLD_PORT g (ph / 2)) GLD_PORT_BIF = 1 then 4 else 8)))))))) = true ∧
    (let n : Fin 32 := 3; let s : State := tGs; decide (n.val < 16) && (decide (s.domainUp 0x09 n.val = true))) = true ∧
    (let n : Fin 32 := 0; let s : State := tGs; decide (s.gladeUp (n.val / 8) = true)) = true :=
  ⟨hub_ok (by decide +kernel), by decide, by decide, by decide, by decide, by decide, by decide, by decide, by decide, by decide, by decide, by decide, by decide, by decide⟩

/-- States and operands that meet the hypotheses of clauses of SliceCommandResults. -/
theorem test_meets_SliceCommandResults :
    (let g : Glade := 0; let sl : SliceId := 0; let op : Nat := 1; let arg : Nat := 7; let s : State := tGu; let w := s.started g sl op arg;
      let v := (okS ((tGu.started 0 0 1 7).cmdRun 0 0 1 7)); w.cmdRun g sl 1 arg = .ok () v) ∧
    (let g : Glade := 0; let sl : SliceId := 0; let op : Nat := 2; let arg : Nat := 0; let s : State := tGs; let w := s.started g sl op arg;
      let v := (okS ((tGs.started 0 0 2 0).cmdRun 0 0 2 0)); w.cmdRun g sl 2 arg = .ok () v) ∧
    (let g : Glade := 0; let sl : SliceId := 0; let op : Nat := 3; let arg : Nat := 2; let s : State := (tCtx tGs 0x880 tDesc);
      let w := s.started g sl op arg; let v := (okS (((tCtx tGs 0x880 tDesc).started 0 0 3 2).cmdRun 0 0 3 2)); w.cmdRun g sl 3 arg = .ok () v) ∧
    (let g : Glade := 0; let sl : SliceId := 0; let op : Nat := 4; let arg : Nat := 2; let s : State := (tGs.setTract 0 0 2 (some tTract));
      let w := s.started g sl op arg; let v := (okS (((tGs.setTract 0 0 2 (some tTract)).started 0 0 4 2).cmdRun 0 0 4 2));
      w.cmdRun g sl 4 arg = .ok () v) ∧
    (let g : Glade := 0; let sl : SliceId := 0; let arg : Nat := 2; let y := tTract;
      let v := (okS (((tGs.setTract 0 0 2 (some tTract)).started 0 0 4 2).cmdRun 0 0 4 2));
      let z := (okS ((okS (((tGs.setTract 0 0 2 (some tTract)).started 0 0 4 2).cmdRun 0 0 4 2)).closeStep 0 0 2 { tTract with closing := true }));
      v.closeStep g sl arg { y with closing := true } = .ok () z) ∧
    (let g : Glade := 0; let sl : SliceId := 0; let op : Nat := 5; let arg : Nat := 1; let s : State := (tCtx tGs 0x220 tWin);
      let w := s.started g sl op arg; let v := (okS (((tCtx tGs 0x220 tWin).started 0 0 5 1).cmdRun 0 0 5 1)); w.cmdRun g sl 5 arg = .ok () v) ∧
    (let g : Glade := 0; let sl : SliceId := 0; let op : Nat := 6; let arg : Nat := 1; let s : State := (tCtx tGs 0x420 tRingE);
      let w := s.started g sl op arg; let v := (okS (((tCtx tGs 0x420 tRingE).started 0 0 6 1).cmdRun 0 0 6 1)); w.cmdRun g sl 6 arg = .ok () v) ∧
    (let i : Instr := (.bind (.core 0) 0 0 7); let t : Thr := 0; let g : Glade := 0; let sl : SliceId := 0; let op : Nat := 1; let arg : Nat := 7;
      let s : State := (tGs.setF (GLD_SLC_CSTAT 0 0) GLD_SLC_CSTAT_BUSY 1); decide (sliceOp i = some (.core t, g, sl, op, arg)) && (
      decide (s.mayPage t g sl (GLD_SLC_CMD g sl).off true = true) && (decide (s.getF (GLD_SLC_CSTAT g sl) GLD_SLC_CSTAT_BUSY = 1)))) = true ∧
    (let i : Instr := (.bind (.core 0) 0 0 7); let t : Thr := 0; let g : Glade := 0; let sl : SliceId := 0; let op : Nat := 1; let arg : Nat := 7;
      let s : State := tGs; decide (sliceOp i = some (.core t, g, sl, op, arg)) && (decide (s.mayPage t g sl (GLD_SLC_CMD g sl).off true = true) && (
      decide (s.getF (GLD_SLC_CSTAT g sl) GLD_SLC_CSTAT_BUSY = 0) && (let r := 2; decide (s.cmdCheck g sl op arg = some r))))) = true ∧
    (let i : Instr := (.bind (.core 0) 0 0 7); let t : Thr := 0; let g : Glade := 0; let sl : SliceId := 0; let op : Nat := 1; let arg : Nat := 7;
      let s : State := (tGu.modSlice 0 0 fun x => { x with left := [1] }); decide (sliceOp i = some (.core t, g, sl, op, arg)) && (
      decide (s.mayPage t g sl (GLD_SLC_CMD g sl).off true = true) && (decide (s.getF (GLD_SLC_CSTAT g sl) GLD_SLC_CSTAT_BUSY = 0) && (
      decide (s.cmdCheck g sl op arg = none) && (decide (s.hubIdle g) && (decide ((op = 1 ∨ op = 2)) && (decide (s.genWaits g sl = true)))))))) = true ∧
    (let i : Instr := (.bind (.core 0) 0 0 7); let t : Thr := 0; let g : Glade := 0; let sl : SliceId := 0; let op : Nat := 1; let arg : Nat := 7;
      let s : State := tGu; decide (sliceOp i = some (.core t, g, sl, op, arg)) && (decide (s.mayPage t g sl (GLD_SLC_CMD g sl).off true = true) && (
      decide (s.getF (GLD_SLC_CSTAT g sl) GLD_SLC_CSTAT_BUSY = 0) && (decide (s.cmdCheck g sl op arg = none) && (decide (s.hubIdle g) && (
      decide (op = 1) && (decide (s.genWaits g sl = false)))))))) = true ∧
    (let i : Instr := (.unbind (.core 0) 0 0 0); let t : Thr := 0; let g : Glade := 0; let sl : SliceId := 0; let op : Nat := 2; let arg : Nat := 0;
      let s : State := tGs; decide (sliceOp i = some (.core t, g, sl, op, arg)) && (decide (s.mayPage t g sl (GLD_SLC_CMD g sl).off true = true) && (
      decide (s.getF (GLD_SLC_CSTAT g sl) GLD_SLC_CSTAT_BUSY = 0) && (decide (s.cmdCheck g sl op arg = none) && (decide (s.hubIdle g) && (
      decide (op = 2) && (decide (s.genWaits g sl = false) && (decide (s.ledgerDown g sl = false))))))))) = true ∧
    (let i : Instr := (.openTract (.core 0) 0 0 2); let t : Thr := 0; let g : Glade := 0; let sl : SliceId := 0; let op : Nat := 3;
      let arg : Nat := 2; let s : State := (tCtx tGs 0x880 tDesc); decide (sliceOp i = some (.core t, g, sl, op, arg)) && (
      decide (s.mayPage t g sl (GLD_SLC_CMD g sl).off true = true) && (let w := s.started g sl op arg;
      decide (s.getF (GLD_SLC_CSTAT g sl) GLD_SLC_CSTAT_BUSY = 0) && (decide (s.cmdCheck g sl op arg = none) && (decide (s.hubIdle g) && (
      let b := (okV [] (((tCtx tGs 0x880 tDesc).started 0 0 3 2).physRead 0 0 0x10880 64));
      let p := (okS (((tCtx tGs 0x880 tDesc).started 0 0 3 2).physRead 0 0 0x10880 64)); decide (op = 3) && (
      decide (w.physRead g sl (w.ctxpa g sl + 0x800 + 64 * arg) 64 = .ok b p)))))))) = true ∧
    (let i : Instr := (.openTract (.core 0) 0 0 2); let t : Thr := 0; let g : Glade := 0; let sl : SliceId := 0; let op : Nat := 3;
      let arg : Nat := 2; let s : State := (tCtx tGs 0x880 tDesc); decide (sliceOp i = some (.core t, g, sl, op, arg)) && (
      decide (s.mayPage t g sl (GLD_SLC_CMD g sl).off true = true) && (let w := s.started g sl op arg;
      decide (s.getF (GLD_SLC_CSTAT g sl) GLD_SLC_CSTAT_BUSY = 0) && (decide (s.cmdCheck g sl op arg = none) && (decide (s.hubIdle g) && (
      let b := (okV [] (((tCtx tGs 0x880 tDesc).started 0 0 3 2).physRead 0 0 0x10880 64));
      let p := (okS (((tCtx tGs 0x880 tDesc).started 0 0 3 2).physRead 0 0 0x10880 64)); decide (op = 3) && (
      decide (w.physRead g sl (w.ctxpa g sl + 0x800 + 64 * arg) 64 = .ok b p) && (let y := tTract;
      decide (p.tractEntry g sl b = (0, some y)))))))))) = true ∧
    (let i : Instr := (.closeTract (.core 0) 0 0 2); let t : Thr := 0; let g : Glade := 0; let sl : SliceId := 0; let op : Nat := 4;
      let arg : Nat := 2; let s : State := (tGs.setTract 0 0 2 (some tTract)); decide (sliceOp i = some (.core t, g, sl, op, arg)) && (
      decide (s.mayPage t g sl (GLD_SLC_CMD g sl).off true = true) && (let x := s.slice g sl;
      decide (s.getF (GLD_SLC_CSTAT g sl) GLD_SLC_CSTAT_BUSY = 0) && (decide (s.cmdCheck g sl op arg = none) && (decide (s.hubIdle g) && (
      let y := tTract; decide (op = 4) && (decide (x.tract arg = some y)))))))) = true ∧
    (let i : Instr := (.loadWin (.core 0) 0 0 1); let t : Thr := 0; let g : Glade := 0; let sl : SliceId := 0; let op : Nat := 5; let arg : Nat := 1;
      let s : State := (tCtx tGs 0x220 tWin); decide (sliceOp i = some (.core t, g, sl, op, arg)) && (
      decide (s.mayPage t g sl (GLD_SLC_CMD g sl).off true = true) && (let w := s.started g sl op arg;
      decide (s.getF (GLD_SLC_CSTAT g sl) GLD_SLC_CSTAT_BUSY = 0) && (decide (s.cmdCheck g sl op arg = none) && (decide (s.hubIdle g) && (
      let b := (okV [] (((tCtx tGs 0x220 tWin).started 0 0 5 1).physRead 0 0 0x10220 32));
      let p := (okS (((tCtx tGs 0x220 tWin).started 0 0 5 1).physRead 0 0 0x10220 32)); decide (op = 5) && (
      decide (w.physRead g sl (w.ctxpa g sl + 0x200 + 32 * arg) 32 = .ok b p)))))))) = true ∧
    (let i : Instr := (.loadWin (.core 0) 0 0 1); let t : Thr := 0; let g : Glade := 0; let sl : SliceId := 0; let op : Nat := 5; let arg : Nat := 1;
      let s : State := (tCtx tGs 0x220 tWin); decide (sliceOp i = some (.core t, g, sl, op, arg)) && (
      decide (s.mayPage t g sl (GLD_SLC_CMD g sl).off true = true) && (let w := s.started g sl op arg;
      decide (s.getF (GLD_SLC_CSTAT g sl) GLD_SLC_CSTAT_BUSY = 0) && (decide (s.cmdCheck g sl op arg = none) && (decide (s.hubIdle g) && (
      let b := (okV [] (((tCtx tGs 0x220 tWin).started 0 0 5 1).physRead 0 0 0x10220 32));
      let p := (okS (((tCtx tGs 0x220 tWin).started 0 0 5 1).physRead 0 0 0x10220 32)); decide (op = 5) && (
      decide (w.physRead g sl (w.ctxpa g sl + 0x200 + 32 * arg) 32 = .ok b p) && (decide ((winEntry b).1 = 0))))))))) = true ∧
    (let i : Instr := (.loadCq (.core 0) 0 0 1); let t : Thr := 0; let g : Glade := 0; let sl : SliceId := 0; let op : Nat := 6; let arg : Nat := 1;
      let s : State := (tCtx tGs 0x420 tRingE); decide (sliceOp i = some (.core t, g, sl, op, arg)) && (
      decide (s.mayPage t g sl (GLD_SLC_CMD g sl).off true = true) && (let w := s.started g sl op arg;
      decide (s.getF (GLD_SLC_CSTAT g sl) GLD_SLC_CSTAT_BUSY = 0) && (decide (s.cmdCheck g sl op arg = none) && (decide (s.hubIdle g) && (
      let b := (okV [] (((tCtx tGs 0x420 tRingE).started 0 0 6 1).physRead 0 0 0x10420 32));
      let p := (okS (((tCtx tGs 0x420 tRingE).started 0 0 6 1).physRead 0 0 0x10420 32)); decide (op = 6) && (decide (s.ledgerDown g sl = false) && (
      decide (w.physRead g sl (w.ctxpa g sl + 0x400 + 32 * arg) 32 = .ok b p))))))))) = true ∧
    (let i : Instr := (.loadCq (.core 0) 0 0 1); let t : Thr := 0; let g : Glade := 0; let sl : SliceId := 0; let op : Nat := 6; let arg : Nat := 1;
      let s : State := (tCtx tGs 0x420 tRingE); decide (sliceOp i = some (.core t, g, sl, op, arg)) && (
      decide (s.mayPage t g sl (GLD_SLC_CMD g sl).off true = true) && (let w := s.started g sl op arg;
      decide (s.getF (GLD_SLC_CSTAT g sl) GLD_SLC_CSTAT_BUSY = 0) && (decide (s.cmdCheck g sl op arg = none) && (decide (s.hubIdle g) && (
      let b := (okV [] (((tCtx tGs 0x420 tRingE).started 0 0 6 1).physRead 0 0 0x10420 32));
      let p := (okS (((tCtx tGs 0x420 tRingE).started 0 0 6 1).physRead 0 0 0x10420 32)); decide (op = 6) && (decide (s.ledgerDown g sl = false) && (
      decide (w.physRead g sl (w.ctxpa g sl + 0x400 + 32 * arg) 32 = .ok b p) && (let r := tRing;
      decide (p.ringEntry g sl b = (0, some r))))))))))) = true ∧
    (let i : Instr := (.dlswap (.core 0) 0 0 0); let t : Thr := 0; let g : Glade := 0; let sl : SliceId := 0; let op : Nat := 7; let arg : Nat := 0;
      let s : State := (tGs.setF (GLD_SLC_DLCFG 0 0) GLD_SLC_DLCFG_EN 1); decide (sliceOp i = some (.core t, g, sl, op, arg)) && (
      decide (s.mayPage t g sl (GLD_SLC_CMD g sl).off true = true) && (decide (s.getF (GLD_SLC_CSTAT g sl) GLD_SLC_CSTAT_BUSY = 0) && (
      decide (s.cmdCheck g sl op arg = none) && (decide (s.hubIdle g) && (decide (op = 7))))))) = true :=
  ⟨hub_ok (by decide +kernel), hub_ok (by decide +kernel), hub_ok (by decide +kernel), hub_ok (by decide +kernel), hub_ok (by decide +kernel), hub_ok (by decide +kernel), hub_ok (by decide +kernel), by decide, by decide, by decide, by decide, by decide, by decide, by decide, by decide, by decide, by decide, by decide, by decide, by decide⟩

/-- States and operands that meet the hypotheses of clauses of SliceRegisterResults. -/
theorem test_meets_SliceRegisterResults :
    (let t : Thr := 0; let g : Glade := 0; let sl : SliceId := 0; let v : Word := 0x20003; let s : State := (tGs.setTract 0 0 2 (some tTract));
      decide (s.mayPage t g sl (GLD_DB g sl).off false = true) && (let i := v.toNat / 2 ^ 16 % 2 ^ 16; let tail := v.toNat % 2 ^ 16; let y := tTract;
      decide (s.bound g sl = true) && (decide (i < s.tcount g sl) && (decide (s.gldState g = 4) && (decide ((s.slice g sl).tract i = some y) && (
      decide (y.closing = false) && (decide (tail < 2 ^ y.log2)))))))) = true ∧
    (let t : Thr := 0; let g : Glade := 0; let sl : SliceId := 0; let v : Word := 0x20003; let s : State := tGs;
      decide (s.mayPage t g sl (GLD_DB g sl).off false = true) && (let i := v.toNat / 2 ^ 16 % 2 ^ 16;
      decide (s.bound g sl = false ∨ s.tcount g sl ≤ i ∨ (s.slice g sl).tract i = none))) = true ∧
    (let t : Thr := 0; let g : Glade := 0; let sl : SliceId := 0; let v : Word := 0x10002;
      let s : State := (tGs.setRing 0 0 1 (some { tRing with tail := 5 })); decide (s.mayPage t g sl (GLD_CQDB g sl).off false = true) && (
      let q := v.toNat / 2 ^ 16 % 16; let h := v.toNat % 2 ^ 16; let r := ({ tRing with tail := 5 } : CRing);
      decide ((s.slice g sl).ring q = some r) && (decide (q < s.actF (GLD_SLC_RES g sl) GLD_SLC_RES_NCQ) && (decide (h < 2 ^ r.log2) && (
      decide ((h + 2 ^ r.log2 - r.head) % 2 ^ r.log2 ≤ (r.tail + 2 ^ r.log2 - r.head) % 2 ^ r.log2) && (decide (s.hubIdle g))))))) = true ∧
    (let t : Thr := 0; let g : Glade := 0; let sl : SliceId := 0; let v : Word := 0x10002; let s : State := tGs;
      decide (s.mayPage t g sl (GLD_CQDB g sl).off false = true) && (let q := v.toNat / 2 ^ 16 % 16; decide ((s.slice g sl).ring q = none))) = true ∧
    (let t : Thr := 0; let g : Glade := 0; let sl : SliceId := 0; let b : Fin 2 := 0;
      let s : State := (tGs.setF (GLD_SLC_DLCFG 0 0) GLD_SLC_DLCFG_EN 1); decide (s.mayPage t g sl (GLD_SLC_DLPA g sl b).off true = true) && (
      decide (s.getF (GLD_SLC_DLCFG g sl) GLD_SLC_DLCFG_EN = 1))) = true ∧
    (let t : Thr := 0; let g : Glade := 0; let sl : SliceId := 0; let b : Fin 2 := 1; let s : State := tGs;
      decide (s.mayPage t g sl (GLD_SLC_DLPA g sl b).off true = true) && (decide (s.getF (GLD_SLC_DLCFG g sl) GLD_SLC_DLCFG_EN = 0))) = true ∧
    (let t : Thr := 0; let g : Glade := 0; let sl : SliceId := 0; let s : State := tGs;
      decide (s.mayPage t g sl (GLD_SLC_DLCFG g sl).off true = true)) = true ∧
    (let g : Glade := 0; let sl : SliceId := 0; let s : State := (tGs.modSlice 0 0 fun x => { x with left := [3,2] });
      decide ((s.slice g sl).cmd = none)) = true ∧
    (let g : Glade := 0; let sl : SliceId := 0; let q : Fin 16 := 1; let r : CRing := ({ tRing with since := 4 });
      let s : State := (tGs.setRing 0 0 1 (some { tRing with since := 4 })); decide ((s.slice g sl).ring q.val = some r) && (
      decide (r.ien = true) && (decide (r.ctime ≠ 0) && (decide (r.since ≠ 0) && (decide (s.gladeUp g = true) && (
      decide (s.part r.thread = s.slicePart g sl))))))) = true ∧
    (let g : Glade := 0; let h : Fin 4096 := 5;
      let o : GOp := ({ handle := 5, slice := 0, tract := 2, gen := 0, sqidx := 0, gcws := [], fseq := 0, stage := .issued, attempt := 1, reissued := false, fail := 0, pend := none, hub := true } : GOp);
      let s : State := (tGs.modGlade 0 fun x => { x with ops := [{ handle := 5, slice := 0, tract := 2, gen := 0, sqidx := 0, gcws := [], fseq := 0, stage := .issued, attempt := 1, reissued := false, fail := 0, pend := none, hub := true }] });
      decide (s.op g h.val = some o) && (decide (o.hasEnded = true ∨ o.hub = true))) = true ∧
    (let g : Glade := 0; let h : Fin 4096 := 5;
      let o : GOp := ({ handle := 5, slice := 0, tract := 2, gen := 0, sqidx := 0, gcws := [], fseq := 0, stage := .issued, attempt := 1, reissued := false, fail := 0, pend := none, hub := false } : GOp);
      let s : State := ({ tGs.modGlade 0 fun x => { x with ops := [{ handle := 5, slice := 0, tract := 2, gen := 0, sqidx := 0, gcws := [], fseq := 0, stage := .issued, attempt := 1, reissued := false, fail := 0, pend := none, hub := false }] } with gladeRst := 1 });
      decide (s.op g h.val = some o) && (decide (o.hasEnded = false) && (decide (o.hub = false) && (
      let w := s.modOp g h.val fun o => { o with pend := some (8, 0, 0), hub := true };
      decide ((w.gladeUp g = false ∨ (w.pumpPick g).isNone = true)))))) = true ∧
    (let g : Glade := 0; let sl : SliceId := 0; let s : State := (tGs.setF (LDG_LSTAT 0 0) LDG_LSTAT_STATE 5); decide (s.ledgerDown g sl = true) && (
      decide (s.gladeUp g = true) && (decide (s.hubIdle g) && (let pa := s.ledgerPa g sl (s.nextSeq g sl); decide (isMem pa = true) && (
      decide (s.memOk (s.slicePart g sl) pa true = true)))))) = true ∧
    (let g : Glade := 0; let sl : SliceId := 0; let t : Thr := 0; let s : State := tGs; decide (s.mayReg t 0x0F g (LDG_CTL g sl).off = true) && (
      decide (s.part t.val = s.slicePart g sl) && (decide ((s.thr t.val).pl ≠ 0) && (decide (s.hubIdle g))))) = true ∧
    (let g : Glade := 0; let sl : SliceId := 0; let t : Thr := 0; let s : State := (tGs.setTract 0 0 2 (some tTract));
      decide (s.mayReg t 0x0F g (LDG_CTL g sl).off = true) && (decide (s.part t.val = s.slicePart g sl) && (decide ((s.thr t.val).pl ≠ 0) && (
      decide (s.hubIdle g) && (decide (s.bound g sl = true) && (decide ((∃ e ∈ (s.slice g sl).tracts, e.2.isSome = true)))))))) = true ∧
    (let g : Glade := 0; let sl : SliceId := 0; let t : Thr := 0; let s : State := tGs; decide (s.mayReg t 0x0F g (LDG_CTL g sl).off = true) && (
      decide (s.part t.val = s.slicePart g sl) && (decide ((s.thr t.val).pl ≠ 0) && (decide (s.hubIdle g) && (decide (s.bound g sl = true) && (
      decide ((∀ e ∈ (s.slice g sl).tracts, e.2 = none)) && (decide (s.ledgerN g sl ≠ 0)))))))) = true :=
  ⟨by decide, by decide, by decide, by decide, by decide, by decide, by decide, by decide, by decide, by decide, by decide, by decide, by decide, by decide, by decide⟩

/-- States and operands that meet the hypotheses of clauses of LedgerResults. -/
theorem test_meets_LedgerResults :
    (let g : Glade := 0; let sl : Nat := 0; let i : Nat := 2; let t : Tract := ({ tTract with tail := 1 });
      let l : List (List Byte) := (okV ([], false) (State.readChain 1 tGt 0 0 { tTract with tail := 1 } 0)).1;
      let st : Nat := (okV 0 ((okS (State.readChain 1 tGt 0 0 { tTract with tail := 1 } 0)).fetchStatus 0 0 2 l));
      let w : State := (okS ((okS (State.readChain 1 tGt 0 0 { tTract with tail := 1 } 0)).fetchStatus 0 0 2 l));
      let z : State := (okS (w.fetchEntries 0 0 2 t (l.take 8) l.length st));
      (if w.getF (LDG_LSTAT g sl) LDG_LSTAT_STATE = 4 then w.setF (LDG_LSTAT g sl) LDG_LSTAT_STATE 1 else w).fetchEntries g sl i t (l.take 8) l.length st = .ok () z) ∧
    (let g : Glade := 0; let k : TaskId := 3; let sl : Nat := 0; let i : Nat := 2; let t : Tract := tTract;
      let s : State := (((((tGt.setTract 0 0 2 (some tTract)).modGlade 0 fun x => { x with ops := [{ tOp0 with tract := 2, stage := .ready }] }).setF (TWG_CFG 0) TWG_CFG_RUN 1).setF (TWG_CFG 0) TWG_CFG_WBASE 2).setF (TWG_CFG 0) TWG_CFG_MAXTASK 9);
      let z : State := (okS (s.bindTask 0 0 2 tTract 3)); s.bindTask g sl i t k.val = .ok () z) ∧
    (let g : Glade := 0; let s : State := (tGs.setF (GLD_STAT 0) GLD_STAT_STATE 3); let w : State := (okS (s.restoreAll 0 [0]));
      s.restoreAll g ((List.range 256).filter fun sl => s.sliceOn g sl) = .ok () w) ∧
    (let g : Glade := 0; let tr : Fin 65536 := 2; let sl : Nat := 0; let i : Nat := 2; let t : Tract := ({ tTract with tail := 1 });
      let l : List (List Byte) := (okV ([], false) (State.readChain 1 tGf 0 0 { tTract with tail := 1 } 0)).1; let s : State := tGf;
      let v : State := (okS (State.readChain 1 tGf 0 0 { tTract with tail := 1 } 0)); decide (s.tractOwner g tr.val = some (sl, i)) && (
      decide (s.mayFetch g sl i t) && (decide (State.readChain (ringDist (2 ^ t.log2) t.head t.tail) s g sl t t.head = .ok (l, true) v) && (
      decide (v.ledgerFits g sl (min 8 l.length) = false) && (let w := v.setF (LDG_LSTAT g sl) LDG_LSTAT_STATE 4;
      decide (w.pumpPick g = none)))))) = true ∧
    (let g : Glade := 0; let tr : Fin 65536 := 2; let sl : Nat := 0; let i : Nat := 2; let t : Tract := ({ tTract with tail := 1 });
      let l : List (List Byte) := (okV ([], false) (State.readChain 1 tGt 0 0 { tTract with tail := 1 } 0)).1; let s : State := tGt;
      let v : State := (okS (State.readChain 1 tGt 0 0 { tTract with tail := 1 } 0)); decide (s.tractOwner g tr.val = some (sl, i)) && (
      decide (s.mayFetch g sl i t) && (decide (State.readChain (ringDist (2 ^ t.log2) t.head t.tail) s g sl t t.head = .ok (l, true) v) && (
      let st : Nat := (okV 0 ((okS (State.readChain 1 tGt 0 0 { tTract with tail := 1 } 0)).fetchStatus 0 0 2 l));
      let w : State := (okS ((okS (State.readChain 1 tGt 0 0 { tTract with tail := 1 } 0)).fetchStatus 0 0 2 l));
      let z : State := (okS (w.fetchEntries 0 0 2 t (l.take 8) l.length st)); decide (v.ledgerFits g sl (min 8 l.length) = true) && (
      decide (v.fetchStatus g sl i l = .ok st w) && (decide (z.pumpPick g = none))))))) = true ∧
    (let g : Glade := 0; let tr : Fin 65536 := 2; let sl : Nat := 0; let i : Nat := 2; let t : Tract := tTract;
      let s : State := (tGs.setTract 0 0 2 (some tTract)); decide (s.tractOwner g tr.val = some (sl, i)) && (
      decide ((s.slice g sl).tract i = some t) && (decide (t.head = t.tail) && (decide (s.pumpPick g = none))))) = true ∧
    (let g : Glade := 0; let tr : Fin 65536 := 2; let k : TaskId := 3; let sl : Nat := 0; let i : Nat := 2; let t : Tract := tTract;
      let o : GOp := ({ tOp0 with tract := 2, stage := .ready });
      let s : State := (((((tGt.setTract 0 0 2 (some tTract)).modGlade 0 fun x => { x with ops := [{ tOp0 with tract := 2, stage := .ready }] }).setF (TWG_CFG 0) TWG_CFG_RUN 1).setF (TWG_CFG 0) TWG_CFG_WBASE 2).setF (TWG_CFG 0) TWG_CFG_MAXTASK 9);
      let z : State := (okS (s.bindTask 0 0 2 tTract 3)); decide (s.tractOwner g tr.val = some (sl, i)) && (decide (s.gladeUp g = true) && (
      decide ((s.slice g sl).tract i = some t) && (decide (t.task = none) && (decide (s.tasksRun g sl < s.taskShare g sl) && (
      let e := 2 * g.val + t.eng; decide (s.getF (TWG_CFG e) TWG_CFG_RUN = 1) && (decide (k.val ≠ 0) && (
      decide (s.getF (TWG_CFG e) TWG_CFG_WBASE ≤ k.val) && (decide (k.val ≤ s.maxTask e) && (decide ((s.task e k.val).st = 0) && (
      decide (s.firstOp g sl i = some o) && (decide (s.mayIssue g o = true) && (decide (z.pumpPick g = none)))))))))))))) = true ∧
    (let g : Glade := 0; let tr : Fin 65536 := 2; let k : TaskId := 3; let sl : Nat := 0; let i : Nat := 2; let t : Tract := tTract;
      let o : GOp := ({ tOp0 with tract := 2, stage := .ready });
      let s : State := (((((tGt.setTract 0 0 2 (some tTract)).modGlade 0 fun x => { x with ops := [{ tOp0 with tract := 2, stage := .ready }] }).setF (TWG_CFG 0) TWG_CFG_RUN 1).setF (TWG_CFG 0) TWG_CFG_WBASE 2).setF (TWG_CFG 0) TWG_CFG_MAXTASK 9);
      let z : State := (okS (s.bindTask 0 0 2 tTract 3)); decide (s.tractOwner g tr.val = some (sl, i)) && (decide (s.gladeUp g = true) && (
      decide ((s.slice g sl).tract i = some t) && (decide (t.task = none) && (decide (s.tasksRun g sl < s.taskShare g sl) && (
      let e := 2 * g.val + t.eng; decide (s.getF (TWG_CFG e) TWG_CFG_RUN = 1) && (decide (k.val ≠ 0) && (
      decide (s.getF (TWG_CFG e) TWG_CFG_WBASE ≤ k.val) && (decide (k.val ≤ s.maxTask e) && (decide ((s.task e k.val).st = 0) && (
      decide (s.firstOp g sl i = some o) && (decide (s.mayIssue g o = true) && (decide (z.pumpPick g = none) && (let d := 3;
      decide (d < 8))))))))))))))) = true ∧
    (let g : Glade := 0; let tr : Fin 65536 := 2; let k : TaskId := 3; let sl : Nat := 0; let i : Nat := 2; let t : Tract := tTract;
      let o : GOp := ({ tOp0 with tract := 2, stage := .ready });
      let s : State := (((((tGt.setTract 0 0 2 (some tTract)).modGlade 0 fun x => { x with ops := [{ tOp0 with tract := 2, stage := .ready }] }).setF (TWG_CFG 0) TWG_CFG_RUN 1).setF (TWG_CFG 0) TWG_CFG_WBASE 2).setF (TWG_CFG 0) TWG_CFG_MAXTASK 9);
      let z : State := (okS (s.bindTask 0 0 2 tTract 3)); decide (s.tractOwner g tr.val = some (sl, i)) && (decide (s.gladeUp g = true) && (
      decide ((s.slice g sl).tract i = some t) && (decide (t.task = none) && (decide (s.tasksRun g sl < s.taskShare g sl) && (
      let e := 2 * g.val + t.eng; decide (s.getF (TWG_CFG e) TWG_CFG_RUN = 1) && (decide (k.val ≠ 0) && (
      decide (s.getF (TWG_CFG e) TWG_CFG_WBASE ≤ k.val) && (decide (k.val ≤ s.maxTask e) && (decide ((s.task e k.val).st = 0) && (
      decide (s.firstOp g sl i = some o) && (decide (s.mayIssue g o = true) && (decide (z.pumpPick g = none) && (
      decide (o.stage = .ready))))))))))))))) = true ∧
    (let g : Glade := 0; let s : State := tGs; decide (s.gldState g ≠ 3)) = true ∧
    (let g : Glade := 0; let s : State := (tGs.setF (GLD_STAT 0) GLD_STAT_STATE 3); let w : State := (okS (s.restoreAll 0 [0]));
      decide (s.gladeUp g = true) && (decide (s.gldState g = 3) && (let z := (w.releasePorts g (List.range 8)).setF (GLD_STAT g) GLD_STAT_STATE 4;
      decide (z.pumpPick g = none)))) = true ∧
    (let g : Glade := 0; let s : State := (tGs.setF (GLD_STAT 0) GLD_STAT_STATE 3); let w : State := (okS (s.restoreAll 0 [0]));
      decide (s.gladeUp g = true) && (decide (s.gldState g = 3) && (let z := (w.releasePorts g (List.range 8)).setF (GLD_STAT g) GLD_STAT_STATE 4;
      decide (z.pumpPick g = none) && (let h := 0; decide (h < 8) && (decide (w.halfEnabled g h = true) && (
      decide ((h % 2 = 0 ∨ w.actF (GLD_PORT g (h / 2)) GLD_PORT_BIF ≠ 0)))))))) = true :=
  ⟨hub_ok (by decide +kernel), hub_ok (by decide +kernel), hub_ok (by decide +kernel), by decide, by decide, by decide, by decide, by decide, by decide, by decide, by decide, by decide⟩

/-- States and operands that meet the hypotheses of clauses of TwigRegisterResults. -/
theorem test_meets_TwigRegisterResults :
    (let i : Instr := (.twigAdc tJ true (.acc true)); let p : TwigProc := tJ; let n : Bool := true;
      let y : TwigBank → Nat := (fun b => b.aluSrc (.acc true)); let s : State := tT1;
      let f : Nat → Nat → Nat → Nat × Nat := (fun x y c => ((x + y + c) % 256, (x + y + c) / 256)); let b := s.pBank p;
      twigArith i = some (p, n, f, y)) ∧
    (let i : Instr := (.twigXor tJ true (.acc true)); let p : TwigProc := tJ; let n : Bool := true; let y : AluSrc := (.acc true);
      let f : Nat → Nat → Nat := (fun a b => a ^^^ b); let s : State := tT1; let b := s.pBank p; twigLogic i = some (p, n, y, f)) ∧
    (let i : Instr := (.cblt tJ (.form1 false 5) 0xFE); let p : TwigProc := tJ; let x : CmpOpd := (.form1 false 5); let d : BitVec 8 := 0xFE;
      let rel : Nat → Nat → Bool := (fun a b => decide (a < b)); let s : State := tT1; let b := s.pBank p; twigBranch i = some (p, x, d, rel)) ∧
    (let p : TwigProc := tJ; let x : CmpOpd := (.form1 false 5); let rel : Nat → Nat → Bool := (fun a b => decide (a < b)); let s : State := tT1;
      let b := s.pBank p; rel (b.cmpPair x).1 (b.cmpPair x).2 = true) ∧
    (let i : Instr := (.cblt tJ (.form1 false 0) 0xFE); let p : TwigProc := tJ; let x : CmpOpd := (.form1 false 0); let d : BitVec 8 := 0xFE;
      let rel : Nat → Nat → Bool := (fun a b => decide (a < b)); let s : State := tT1; let b := s.pBank p; twigBranch i = some (p, x, d, rel)) ∧
    (let p : TwigProc := tJ; let x : CmpOpd := (.form1 false 0); let rel : Nat → Nat → Bool := (fun a b => decide (a < b)); let s : State := tT1;
      let b := s.pBank p; rel (b.cmpPair x).1 (b.cmpPair x).2 = false) ∧
    (let p : TwigProc := tJ; let s : State := tT1; decide (s.twigReady p 1)) = true ∧
    (let p : TwigProc := tJ; let r : BitVec 4 := 4; let s : State := tT1; decide (s.twigReady p 1) && (decide (r.toNat < 10))) = true ∧
    (let p : TwigProc := tJ; let r : BitVec 4 := 4; let q : BitVec 4 := 0; let s : State := tT1; decide (s.twigReady p 1) && (
      decide (r.toNat < 10) && (decide (q.toNat < 10)))) = true ∧
    (let p : TwigProc := tJ; let r : BitVec 4 := 11; let s : State := tT1; decide (s.twigReady p 1) && (decide (10 ≤ r.toNat))) = true ∧
    (let p : TwigProc := tJ; let r : BitVec 4 := 11; let q : BitVec 4 := 3; let s : State := tT1; decide (s.twigReady p 1) && (
      decide (10 ≤ r.toNat ∨ 10 ≤ q.toNat))) = true ∧
    (let p : TwigProc := tJ; let a : ANum := 1; let s : State := tT1; decide (s.twigReady p 1) && (let b := s.pBank p;
      decide (b.get16 a % 2 = 0))) = true ∧
    (let p : TwigProc := tJ; let a : ANum := 1; let s : State := (tTw 1 { tTask with bank := { tBank with a := [(0, 0x1000), (1, 0x21)] } } tGs);
      decide (s.twigReady p 1) && (let b := s.pBank p; decide (b.get16 a % 2 = 1))) = true ∧
    (let p : TwigProc := tJ; let s : State := tT1; decide (s.twigReady p 2)) = true ∧
    (let p : TwigProc := tJ; let v : BitVec 16 := 0x200; let s : State := tT1; decide (s.twigReady p 2) && (decide (v.toNat % 2 = 0))) = true ∧
    (let p : TwigProc := tJ; let v : BitVec 16 := 0x201; let s : State := tT1; decide (s.twigReady p 2) && (decide (v.toNat % 2 = 1))) = true :=
  ⟨rfl, rfl, rfl, rfl, rfl, rfl, by decide, by decide, by decide, by decide, by decide, by decide, by decide, by decide, by decide, by decide⟩

/-- States and operands that meet the hypotheses of clauses of TwigMemoryResults. -/
theorem test_meets_TwigMemoryResults :
    (let p : TwigProc := tJ; let r : BitVec 4 := 3; let c : ANum := 1; let d : BitVec 6 := 4; let s : State := tT1; decide (s.twigReady p 1) && (
      let b := s.pBank p; let x := (b.get16 c + d.toNat) % 65536; decide (r.toNat < 10) && (decide (x < 0x8000) && (
      decide (s.badWord p x = false))))) = true ∧
    (let p : TwigProc := tJ; let c : ANum := 1; let d : BitVec 6 := 4; let s : State := tT1; decide (s.twigReady p 1) && (let b := s.pBank p;
      let x := (b.get16 c + d.toNat) % 65536; decide (x < 0x7FFF) && (decide (s.badWord p x = false) && (
      decide (s.badWord p (x + 1) = false))))) = true ∧
    (let p : TwigProc := tJ; let r : BitVec 4 := 3; let c : ANum := 1; let d : BitVec 6 := 4; let s : State := (tT1A 0xF100);
      decide (s.twigReady p 1) && (let b := s.pBank p; let x := (b.get16 c + d.toNat) % 65536; decide (r.toNat < 10) && (decide (0xF010 ≤ x) && (
      decide (x < 0xF800))))) = true ∧
    (let p : TwigProc := tJ; let w : Bool := false; let c : ANum := 1; let m : BitVec 14 := 0x805; let s : State := tT1; decide (s.twigReady p 2) && (
      decide (m ≠ 0) && (let b := s.pBank p; let x := b.get16 c; let n := multiBytes m.toNat;
      decide ((∀ k : Nat, k < n → s.badWord p (x + k) = false)) && (decide (x + n ≤ 0x8000) && (
      decide ((w = false ∨ bitOf m.toNat (10 + c.val) = false))))))) = true ∧
    (let p : TwigProc := tJ; let c : ANum := 1; let m : BitVec 14 := 0x805; let s : State := tT1; decide (s.twigReady p 2) && (decide (m ≠ 0) && (
      let b := s.pBank p; let x := b.get16 c; let n := multiBytes m.toNat; decide ((∀ k : Nat, k < n → s.badWord p (x + k) = false)) && (
      decide (x + n ≤ 0x8000))))) = true ∧
    (let e : Engine := 0; let t : TaskId := 1; let s : State := tT1; let p := TwigProc.engine e t; decide (s.twigReady p 1)) = true ∧
    (let e : Engine := 0; let t : TaskId := 1; let w : BitVec 16 := 0xFFFF; let ext : BitVec 16 := 0; let s : State := tT1;
      let p := TwigProc.engine e t; decide (s.twigReady p (if twigTwo w.toNat then 2 else 1)) && (
      decide (twigLegal w.toNat ext.toNat (t.val == 0) = false))) = true ∧
    (let e : Engine := 0; let t : TaskId := 1; let x : BitVec 4 := 3; let y : BitVec 4 := 4; let s : State := tT1; let p := TwigProc.engine e t;
      decide (s.twigReady p 1) && (decide (moveOk x.toNat y.toNat = true) && (decide (t.val ≠ 0)))) = true ∧
    (let e : Engine := 0; let t : TaskId := 1; let s : State := tT1; decide (t.val ≠ 0) && (
      decide (((s.task e 0).st ≠ 2 ∨ bitOf (s.task e 0).mask 7 = false ∧ (s.task e 0).evq = [])))) = true ∧
    (let e : Engine := 0; let t : TaskId := 0; let x : BitVec 4 := 3; let y : BitVec 4 := 4; let s : State := (tT01 { tTask with st := 1 });
      let p := TwigProc.engine e t; decide (s.twigReady p 1) && (decide (t.val = 0) && (let z := s.task e (Fin.ofNat 1024 (s.eng e).win).val;
      decide ((s.eng e).win < 1024) && (decide ((s.eng e).win ≤ s.maxTask e) && (decide (z.resident = true) && (decide (z.stall = none) && (
      decide (x.toNat < 10) && (decide (y.toNat < 10))))))))) = true ∧
    (let e : Engine := 0; let t : TaskId := 0; let x : BitVec 4 := 3; let y : BitVec 4 := 4; let s : State := (tT01 { tTask with st := 1 });
      let p := TwigProc.engine e t; decide (s.twigReady p 1) && (decide (t.val = 0) && (let z := s.task e (Fin.ofNat 1024 (s.eng e).win).val;
      decide ((s.eng e).win < 1024) && (decide ((s.eng e).win ≤ s.maxTask e) && (decide (z.resident = true) && (decide (z.stall = none) && (
      decide (x.toNat < 10) && (decide (y.toNat < 10) && (decide (z.st ≠ 0)))))))))) = true ∧
    (let e : Engine := 0; let t : TaskId := 0; let x : BitVec 4 := 13; let y : BitVec 4 := 10; let s : State := (tT01 { tTask with st := 1 });
      let p := TwigProc.engine e t; decide (s.twigReady p 1) && (decide (t.val = 0) && (let z := s.task e (Fin.ofNat 1024 (s.eng e).win).val;
      decide ((s.eng e).win < 1024) && (decide ((s.eng e).win ≤ s.maxTask e) && (decide (z.resident = true) && (decide (z.stall = none) && (
      decide (12 ≤ x.toNat) && (decide (10 ≤ y.toNat))))))))) = true ∧
    (let e : Engine := 0; let t : TaskId := 0; let s : State := (tT01 { tTask with st := 3, cause := 4 }); let p := TwigProc.engine e t;
      decide (s.twigReady p 1) && (decide (t.val = 0) && (let z := s.task e (Fin.ofNat 1024 (s.eng e).win).val; decide ((s.eng e).win < 1024) && (
      decide ((s.eng e).win ≤ s.maxTask e) && (decide (z.resident = true) && (decide (z.stall = none) && (decide (z.st = 3)))))))) = true ∧
    (let e : Engine := 0; let t : TaskId := 0; let s : State := (tT01 { tTask with st := 3, cause := 4 }); let p := TwigProc.engine e t;
      decide (s.twigReady p 1) && (decide (t.val = 0) && (let z := s.task e (Fin.ofNat 1024 (s.eng e).win).val; decide ((s.eng e).win < 1024) && (
      decide ((s.eng e).win ≤ s.maxTask e) && (decide (z.resident = true) && (decide (z.stall = none) && (decide (z.st = 3) && (
      decide ((s.freeTask e (s.eng e).win).pumpPick (e.val / 2) = none))))))))) = true ∧
    (let e : Engine := 0; let t : TaskId := 0; let s : State := (tT01 { tTask with st := 1 }); let p := TwigProc.engine e t;
      decide (s.twigReady p 1) && (decide (t.val = 0) && (let z := s.task e (Fin.ofNat 1024 (s.eng e).win).val; decide ((s.eng e).win < 1024) && (
      decide ((s.eng e).win ≤ s.maxTask e) && (decide (z.resident = true) && (decide (z.stall = none) && (decide (z.st ≠ 3)))))))) = true ∧
    (let e : Engine := 0; let t : TaskId := 1; let m : BitVec 8 := 0x04;
      let s : State := (tTw 1 { tTask with bank := tBank, evq := [⟨4, [4,0,0,0,1,2,3,4]⟩] } tGs); decide (s.twigReady (.engine e t) 1) && (
      decide (bitOf m.toNat 7 = false) && (decide (bitOf m.toNat 5 = false) && (decide (m ≠ 0) && (
      let v := ((((tTw 1 { tTask with bank := tBank, evq := [⟨4, [4,0,0,0,1,2,3,4]⟩] } tGs).task 0 1).takeEvent 0x04).map (·.1)|>.getD ⟨0,[]⟩);
      let y := ((((tTw 1 { tTask with bank := tBank, evq := [⟨4, [4,0,0,0,1,2,3,4]⟩] } tGs).task 0 1).takeEvent 0x04).map (·.2)|>.getD tTask);
      decide ((s.task e t).takeEvent m.toNat = some (v, y))))))) = true ∧
    (let e : Engine := 0; let t : TaskId := 1; let m : BitVec 8 := 0x10; let s : State := tT1; decide (s.twigReady (.engine e t) 1) && (
      decide (bitOf m.toNat 7 = false) && (decide (bitOf m.toNat 5 = false) && (decide (m ≠ 0) && (
      decide ((s.task e t).takeEvent m.toNat = none)))))) = true ∧
    (let e : Engine := 0; let t : TaskId := 1; let m : BitVec 8 := 0x80; let s : State := tT1; decide (s.twigReady (.engine e t) 1) && (
      decide (bitOf m.toNat 7 = true) && (decide (t.val ≠ 0)))) = true ∧
    (let e : Engine := 0; let t : TaskId := 1; let m : BitVec 8 := 0x20;
      let s : State := ((tTw 1 { tTask with bank := tBank, tract := some (0, 1) } tGs).modGlade 0 fun x => { x with ops := [tOp0] });
      decide (s.twigReady (.engine e t) 1) && (decide (bitOf m.toNat 7 = false) && (decide (bitOf m.toNat 5 = true) && (
      decide (s.holdsLive e t = true))))) = true ∧
    (let e : Engine := 0; let t : TaskId := 1; let m : BitVec 8 := 0x20; let s : State := tT1; decide (s.twigReady (.engine e t) 1) && (
      decide (bitOf m.toNat 7 = false) && (decide (bitOf m.toNat 5 = true) && (decide (s.holdsLive e t = false) && (
      decide ((s.freeTask e t).pumpPick (e.val / 2) = none)))))) = true ∧
    (let e : Engine := 0; let t : TaskId := 0; let m : BitVec 8 := 0x80;
      let s : State := ({ tGs with engines := [(0, { TwigEng.reset with tasks := [(0, { tTask with bank := tBank })], traps := [⟨1,4,0,0xF900,0⟩] })] });
      decide (s.twigReady (.engine e t) 1) && (let h := (⟨1,4,0,0xF900,0⟩ : TwigTrap); let q := []; decide (bitOf m.toNat 7 = true) && (
      decide (bitOf m.toNat 5 = false) && (decide (t.val = 0) && (decide ((s.eng e).traps = h :: q)))))) = true :=
  ⟨by decide, by decide, by decide, by decide, by decide, by decide, by decide, by decide, by decide, by decide, by decide, by decide, by decide, by decide, by decide, by decide, by decide, by decide, by decide, by decide, by decide⟩

/-- States and operands that meet the hypotheses of clauses of TwigEngineResults. -/
theorem test_meets_TwigEngineResults :
    (let e : Engine := 0; let t : TaskId := 1; let v : Word := 0x5;
      let s : State := ((tTw 1 { tTask with bank := tBank } tGs).modGlade 0 fun x => { x with ops := [tOp0] });
      decide (s.pRuns (.engine e t) = true) && (let g := e.val / 2; let o := ({ tOp0 with slice := 0 });
      decide (s.op g (v.toNat % 4096) = some o) && (decide (o.hasEnded = false) && (decide (o.pend = none) && (decide (s.bound g o.slice = true) && (
      decide (s.gen g o.slice = o.gen) && (decide ((let st := bitsOf v.toNat 63 56; st = 0 ∨ st = 1 ∨ st = 0x0C ∨ 0x80 ≤ st))))))))) = true ∧
    (let e : Engine := 0; let t : TaskId := 1; let v : Word := 9; let s : State := (tTw 1 { tTask with bank := tBank } tGs);
      decide (s.pRuns (.engine e t) = true) && (let g := e.val / 2; decide (s.op g (v.toNat % 4096) = none))) = true ∧
    (let e : Engine := 0; let t : TaskId := 1; let s : State := (tTw 1 { tTask with bank := tBank } tGs);
      decide (s.pRuns (.engine e t) = true)) = true ∧
    (let e : Engine := 0; let t : TaskId := 1; let s : State := (tTw 1 { tTask with bank := tBank, xaddr := 0x0C00000000010000 } tGs);
      decide (s.pRuns (.engine e t) = true) && (let x := s.task e t; let b := 0x0C; let i := 0; let o := 0x10000;
      decide (xTarget e x.xaddr = some (b, i, o)))) = true ∧
    (let e : Engine := 0; let t : TaskId := 1; let s : State := (tTw 1 { tTask with bank := tBank, xaddr := 0x0C00000000100008 } tGs);
      decide (s.pRuns (.engine e t) = true) && (let x := s.task e t; let b := 0x0C; let i := 0; let o := 0x100008;
      decide (xTarget e x.xaddr = some (b, i, o)) && (decide (b ≠ 0x0D) && (decide (b ≠ 0x0E))))) = true ∧
    (let e : Engine := 0; let t : TaskId := 1; let s : State := (tTw 1 { tTask with bank := tBank } tGs); decide (s.pRuns (.engine e t) = true) && (
      let x := s.task e t; decide (xTarget e x.xaddr = none))) = true ∧
    (let e : Engine := 0; let t : TaskId := 1; let s : State := (tTw 1 { tTask with bank := tBank, paddr := 0x2000000000001000 } tGs);
      decide (s.pRuns (.engine e t) = true) && (let g := e.val / 2; let x := s.task e t; decide (s.portPermits g x.paddr = true))) = true ∧
    (let e : Engine := 0; let t : TaskId := 1; let s : State := (tTw 1 { tTask with bank := tBank, paddr := 0x2000000000001001 } tGs);
      decide (s.pRuns (.engine e t) = true) && (let g := e.val / 2; let x := s.task e t; decide (s.portPermits g x.paddr = false))) = true ∧
    (let e : Engine := 0; let t : TaskId := 1; let v : Word := 0x100001000; let s : State := (tTw 1 { tTask with bank := tBank } tGs);
      decide (s.pRuns (.engine e t) = true) && (let g := e.val / 2; let m : Fin 8 := 2; let a := v.toNat % 65536;
      decide (bitsOf v.toNat 41 32 ≤ s.maxTask e) && (decide (((s.glade g).movs.filter fun y => y.mover == m.val).length < 16) && (
      decide (a % 8 = 0) && (decide (a + 32 ≤ 0x8000) && (decide (s.firstBad (.engine e t) a 32 = none))))))) = true ∧
    (let e : Engine := 0; let t : TaskId := 1; let s : State := (tTw 1 { tTask with bank := tBank } tGs); decide (s.pRuns (.engine e t) = true) && (
      decide (t.val ≠ 0))) = true ∧
    (let e : Engine := 0; let t : TaskId := 0; let v : Word := 0x10001F000; let s : State := (tT01 (taskDefault 0));
      decide (s.pRuns (.engine e t) = true) && (decide (t.val = 0) && (let k := bitsOf v.toNat 41 32; decide (k ≤ s.maxTask e) && (
      decide ((s.task e k).st = 0))))) = true ∧
    (let e : Engine := 0; let t : TaskId := 0; let v : Word := 0x100000000; let s : State := (tT01 { tTask with st := 2, mask := 8 });
      decide (s.pRuns (.engine e t) = true) && (decide (t.val = 0) && (let k := bitsOf v.toNat 41 32; decide (k ≤ s.maxTask e) && (
      decide (v.toNat < 2 ^ 63))))) = true ∧
    (let e : Engine := 0; let t : TaskId := 0; let v : Word := 0x4000000000001; let s : State := (tT01 { tTask with st := 2, mask := 8 });
      decide (s.pRuns (.engine e t) = true) && (decide (t.val = 0) && (
      decide ((∀ y ∈ (s.eng e).tasks, y.2.st = 0 ∨ y.1 ≤ max 1 (TWG_CFG_MAXTASK.get v)))))) = true ∧
    (let e : Engine := 0; let t : TaskId := 1; let s : State := (tTw 1 { tTask with bank := tBank, timer := 5 } tGs); let x := s.task e t;
      decide (s.gladeUp (e / 2) = true) && (decide (x.timer ≠ 0) && (decide (x.st ≠ 0) && (decide (x.st ≠ 2) && (
      decide ((∀ w ∈ x.evq, w.kind ≠ 5)) && (decide (x.evq.length < 16) && (decide (x.held = [])))))))) = true ∧
    (let e : Engine := 0; let t : TaskId := 1; let st : BitVec 2 := 0; let w : TwigStall := ⟨false,none,false⟩;
      let s : State := (tTw 1 { tTask with bank := tBank, stall := some ⟨false,none,false⟩, paddr := 0x2000000000001000 } tGs);
      decide (s.gladeUp (e / 2) = true) && (decide ((s.task e t).stall = some w) && (decide (st.toNat ≠ 3)))) = true ∧
    (let mv : Fin 32 := 2;
      let m : MovXfer := ({ mover := 2, eng := 0, task := 1, src := 0, dst := 0, len := 0, skind := 255, dkind := 0, port := 0, oph := 0, tag := 0, moved := 0 } : MovXfer);
      let r : List MovXfer := [];
      let s : State := ((tTw 1 { tTask with bank := tBank } tGs).modGlade 0 fun x => { x with movs := [{ mover := 2, eng := 0, task := 1, src := 0, dst := 0, len := 0, skind := 255, dkind := 0, port := 0, oph := 0, tag := 0, moved := 0 }] });
      let g := mv.val / 8; decide (s.gladeUp g = true) && (decide ((s.glade g).movs = m :: r) && (decide (m.mover = mv.val % 8) && (
      decide (2 < m.skind))))) = true ∧
    (let mv : Fin 32 := 2;
      let m : MovXfer := ({ mover := 2, eng := 0, task := 1, src := 0, dst := 0, len := 0, skind := 1, dkind := 0, port := 0, oph := 0, tag := 0, moved := 0 } : MovXfer);
      let r : List MovXfer := [];
      let s : State := ((tTw 1 { tTask with bank := tBank } tGs).modGlade 0 fun x => { x with movs := [{ mover := 2, eng := 0, task := 1, src := 0, dst := 0, len := 0, skind := 1, dkind := 0, port := 0, oph := 0, tag := 0, moved := 0 }] });
      let g := mv.val / 8; decide (s.gladeUp g = true) && (decide ((s.glade g).movs = m :: r) && (decide (m.mover = mv.val % 8) && (
      decide (m.skind ≤ 2) && (decide (m.moved = m.len)))))) = true ∧
    (let e : Engine := 0; let t : TaskId := 1; let s : State := (tTw 1 { tTask with bank := tBank, resident := false, st := 4 } tGs);
      let x := s.task e t; decide (s.gladeUp (e / 2) = true) && (decide (x.resident = false) && (decide (x.st = 4) && (
      decide ((s.eng e).lru.length < 64) && (decide (x.bad = false)))))) = true ∧
    (let e : Engine := 0; let s : State := ((tTw 1 { tTask with bank := tBank } tGs).setF (TWG_MCSTAT 0) TWG_MCSTAT_SWAP 1);
      decide (s.gladeUp (e / 2) = true) && (decide (s.getF (TWG_MCSTAT e) TWG_MCSTAT_SWAP = 1) && (
      decide ((∀ y ∈ (s.eng e).tasks, y.2.stall = none))))) = true ∧
    (let e : Engine := 0; let a : BitVec 16 := 0xEFFF; let s : State := (tTw 1 { tTask with bank := tBank } tGs);
      decide (s.gladeUp (e / 2) = true) && (decide (0xE000 ≤ a.toNat) && (decide (a.toNat < 0xF000)))) = true ∧
    (let e : Engine := 0; let s : State := (tTw 1 { tTask with bank := tBank } tGs); decide (s.gladeUp (e / 2) = true)) = true ∧
    (let e : Engine := 0; let st : Bool := false; let s : State := (tTw 1 { tTask with bank := tBank } tGs); decide (s.gladeUp (e / 2) = true) && (
      let r := TWG_MCSTAT e; decide (s.getF r TWG_MCSTAT_ACT = b2n st))) = true ∧
    (let e : Engine := 0; let st : Bool := true; let s : State := (tTw 1 { tTask with bank := tBank } tGs); decide (s.gladeUp (e / 2) = true) && (
      let r := TWG_MCSTAT e; decide (s.getF r TWG_MCSTAT_ACT ≠ b2n st))) = true :=
  ⟨by decide, by decide, by decide, by decide, by decide, by decide, by decide, by decide, by decide, by decide, by decide, by decide, by decide, by decide, by decide, by decide, by decide, by decide, by decide, by decide, by decide, by decide, by decide⟩

/-- States and operands that meet the hypotheses of clauses of JobResults. -/
theorem test_meets_JobResults :
    (let g : Glade := 0; let j : ColJob := ({ tColJob with res := some ColResult.zero, dbytes := tCd [] }); let r : ColResult := ColResult.zero;
      let s : State := (tColS { tColJob with res := some ColResult.zero, dbytes := tCd [] } (tCd []));
      let v : State := (okS (s.colWrite 0 j (cdStat j.dbytes) (colRecord j.dbytes r)));
      s.colWrite g j (cdStat j.dbytes) (colRecord j.dbytes r) = .ok () v) ∧
    (let g : Glade := 0; let j : BarkJob := ({ tBrkJob with res := some (brkStop 5), dbytes := tBd [] }); let r : BarkResult := (brkStop 5);
      let s : State := (tBrkS { tBrkJob with res := some (brkStop 5), dbytes := tBd [] } (tBd []));
      let v : State := (okS (s.swrite 0 0 0 (bdStat j.dbytes) (brkRecord j.dbytes r.status r.detail 0)));
      s.swrite g j.slice j.gen (bdStat j.dbytes) (brkRecord j.dbytes r.status r.detail 0) = .ok () v) ∧
    (let e : Engine := 0; let t : TaskId := 1; let v : Word := 0x0050800000000200; let s : State := (tTw 1 { tTask with bank := tBank } tGs);
      decide (s.pRuns (.engine e t) = true) && (let g := e.val / 2; let h := bitsOf v.toNat 63 52; decide (s.opLive g h = none))) = true ∧
    (let e : Engine := 0; let t : TaskId := 1; let v : Word := 0x0051000000000200; let s : State := tTwS; decide (s.pRuns (.engine e t) = true) && (
      let g := e.val / 2; let h := bitsOf v.toNat 63 52; let q := bitsOf v.toNat 48 47; let o := tOp0; decide (s.opLive g h = some o) && (
      let r := GLD_SLC_RES g o.slice; decide (s.actF r GLD_SLC_RES_COLQ ≤ q)))) = true ∧
    (let e : Engine := 0; let t : TaskId := 1; let v : Word := 0x0050800000000200;
      let s : State := (tTwS.modGlade 0 fun x => { x with cols := List.replicate 16 tColJob }); decide (s.pRuns (.engine e t) = true) && (
      let g := e.val / 2; let h := bitsOf v.toNat 63 52; let q := bitsOf v.toNat 48 47; let o := tOp0; decide (s.opLive g h = some o) && (
      let r := GLD_SLC_RES g o.slice; decide (q < s.actF r GLD_SLC_RES_COLQ) && (decide (16 ≤ (s.colQueue g o.slice q).length))))) = true ∧
    (let e : Engine := 0; let t : TaskId := 1; let v : Word := 0x0050800000000200; let s : State := tTwS; decide (s.pRuns (.engine e t) = true) && (
      let g := e.val / 2; let h := bitsOf v.toNat 63 52; let q := bitsOf v.toNat 48 47; let o := tOp0; decide (s.opLive g h = some o) && (
      let r := GLD_SLC_RES g o.slice; decide (q < s.actF r GLD_SLC_RES_COLQ) && (decide ((s.colQueue g o.slice q).length < 16))))) = true ∧
    (let e : Engine := 0; let t : TaskId := 1; let v : Word := 0x0050800000000200; let s : State := (tTwS.setAct (GLD_SLC_RES 0 0) 0x100040420);
      decide (s.pRuns (.engine e t) = true) && (let g := e.val / 2; let h := bitsOf v.toNat 63 52; let o := tOp0; decide (s.opLive g h = some o) && (
      let r := GLD_SLC_RES g o.slice; decide (s.actF r GLD_SLC_RES_BARK = 0)))) = true ∧
    (let e : Engine := 0; let t : TaskId := 1; let v : Word := 0x0050800000000200;
      let s : State := (tTwS.modGlade 0 fun x => { x with barks := List.replicate 16 tBrkJob }); decide (s.pRuns (.engine e t) = true) && (
      let g := e.val / 2; let h := bitsOf v.toNat 63 52; let o := tOp0; decide (s.opLive g h = some o) && (let r := GLD_SLC_RES g o.slice;
      decide (s.actF r GLD_SLC_RES_BARK ≠ 0) && (decide (16 ≤ (s.brkQueue g o.slice).length))))) = true ∧
    (let e : Engine := 0; let t : TaskId := 1; let v : Word := 0x0050800000000200; let s : State := tTwS; decide (s.pRuns (.engine e t) = true) && (
      let g := e.val / 2; let h := bitsOf v.toNat 63 52; let o := tOp0; decide (s.opLive g h = some o) && (let r := GLD_SLC_RES g o.slice;
      decide (s.actF r GLD_SLC_RES_BARK ≠ 0) && (decide ((s.brkQueue g o.slice).length < 16))))) = true ∧
    (let i : Instr := (.compressJob 0 0 1 .none); let g : Glade := 0; let sl : SliceId := 0; let q : Fin 4 := 1; let f : LaneFault := .none;
      let ty : Nat := 1; let j : ColJob := tColJob; let l : List ColJob := []; let s : State := (tColS tColJob (tCd []));
      let d : List Byte := (okV [] (s.colRead 0 tColJob 0x200 256)); let v : State := (okS (s.colRead 0 tColJob 0x200 256));
      decide (columnRow i = some (g, sl, q, f, ty)) && (decide (s.gladeUp g = true) && (decide (s.colQueue g sl q = j :: l) && (
      decide (j.res = none) && (decide (j.abandoned = false) && (decide (((s.glade g).cols.filter fun x => x.res.isSome).length < 4) && (
      decide (s.colRead g j j.desc 256 = .ok d v) && (decide (cdType d = ty) && (let r := (okV ColResult.zero (v.colRun 0 tColJob d .none));
      let w := (okS (v.colRun 0 tColJob d .none)); decide (v.colRun g j d f = .ok r w)))))))))) = true ∧
    (let i : Instr := (.compressJob 0 0 1 .none); let g : Glade := 0; let sl : SliceId := 0; let q : Fin 4 := 1; let f : LaneFault := .none;
      let ty : Nat := 1; let j : ColJob := tColJob; let l : List ColJob := []; let s : State := (tColS tColJob (tCd []));
      let d : List Byte := (okV [] (s.colRead 0 tColJob 0x200 256)); let v : State := (okS (s.colRead 0 tColJob 0x200 256));
      decide (columnRow i = some (g, sl, q, f, ty)) && (decide (s.gladeUp g = true) && (decide (s.colQueue g sl q = j :: l) && (
      decide (j.res = none) && (decide (j.abandoned = false) && (decide (((s.glade g).cols.filter fun x => x.res.isSome).length < 4) && (
      decide (s.colRead g j j.desc 256 = .ok d v) && (decide (cdType d = ty) && (let r := (okV ColResult.zero (v.colRun 0 tColJob d .none));
      let w := (okS (v.colRun 0 tColJob d .none)); decide (v.colRun g j d f = .ok r w) && (decide (r.status ≠ 1))))))))))) = true ∧
    (let i : Instr := (.compressJob 0 0 1 .none); let g : Glade := 0; let sl : SliceId := 0; let q : Fin 4 := 1; let f : LaneFault := .none;
      let ty : Nat := 1; let j : ColJob := tColJob; let l : List ColJob := []; let s : State := (tColS tColJob (tCd [(0x24, [0])]));
      let d : List Byte := (okV [] (s.colRead 0 tColJob 0x200 256)); let v : State := (okS (s.colRead 0 tColJob 0x200 256));
      decide (columnRow i = some (g, sl, q, f, ty)) && (decide (s.gladeUp g = true) && (decide (s.colQueue g sl q = j :: l) && (
      decide (j.res = none) && (decide (j.abandoned = false) && (decide (((s.glade g).cols.filter fun x => x.res.isSome).length < 4) && (
      decide (s.colRead g j j.desc 256 = .ok d v) && (decide (cdType d = ty) && (let o := 0x24; let m := ([] : List Nat);
      decide (cdBad d = o :: m)))))))))) = true ∧
    (let i : Instr := (.compressJob 0 0 1 .none); let g : Glade := 0; let sl : SliceId := 0; let q : Fin 4 := 1; let f : LaneFault := .none;
      let ty : Nat := 1; let j : ColJob := tColJob; let l : List ColJob := []; let s : State := (tColS tColJob (tCd [(0x50, leBytes 8 0x200)]));
      let d : List Byte := (okV [] (s.colRead 0 tColJob 0x200 256)); let v : State := (okS (s.colRead 0 tColJob 0x200 256));
      decide (columnRow i = some (g, sl, q, f, ty)) && (decide (s.gladeUp g = true) && (decide (s.colQueue g sl q = j :: l) && (
      decide (j.res = none) && (decide (j.abandoned = false) && (decide (((s.glade g).cols.filter fun x => x.res.isSome).length < 4) && (
      decide (s.colRead g j j.desc 256 = .ok d v) && (decide (cdType d = ty) && (decide (cdBad d = []) && (
      decide (anyOverlap (cdAreas j.desc d) = true))))))))))) = true ∧
    (let i : Instr := (.compressJob 0 0 1 .none); let g : Glade := 0; let sl : SliceId := 0; let q : Fin 4 := 1; let f : LaneFault := .none;
      let ty : Nat := 1; let j : ColJob := tColJob; let l : List ColJob := []; let s : State := (tColS tColJob (tCd []));
      let d : List Byte := (okV [] (s.colRead 0 tColJob 0x200 256)); let v : State := (okS (s.colRead 0 tColJob 0x200 256));
      decide (columnRow i = some (g, sl, q, f, ty)) && (decide (s.gladeUp g = true) && (decide (s.colQueue g sl q = j :: l) && (
      decide (j.res = none) && (decide (j.abandoned = false) && (decide (((s.glade g).cols.filter fun x => x.res.isSome).length < 4) && (
      decide (s.colRead g j j.desc 256 = .ok d v) && (decide (cdType d = ty) && (decide (cdBad d = []) && (
      decide (anyOverlap (cdAreas j.desc d) = false) && (decide (cdNrows d = 0)))))))))))) = true ∧
    (let g : Glade := 0; let sl : SliceId := 0; let q : Fin 4 := 1; let j : ColJob := ({ tColJob with abandoned := true });
      let l : List ColJob := []; let s : State := (tColS { tColJob with abandoned := true } (tCd [])); decide (s.gladeUp g = true) && (
      decide (s.colQueue g sl q = j :: l) && (decide (j.abandoned = true)))) = true ∧
    (let g : Glade := 0; let sl : SliceId := 0; let q : Fin 4 := 1; let j : ColJob := tColJob; let l : List ColJob := [];
      let s : State := (tColS tColJob (tCd [])); decide (s.gladeUp g = true) && (decide (s.colQueue g sl q = j :: l) && (
      decide (j.abandoned = false) && (decide (j.res = none))))) = true ∧
    (let g : Glade := 0; let sl : SliceId := 0; let q : Fin 4 := 1;
      let j : ColJob := ({ tColJob with res := some ColResult.zero, dbytes := tCd [] }); let l : List ColJob := [];
      let r : ColResult := ColResult.zero; let s : State := (tColS { tColJob with res := some ColResult.zero, dbytes := tCd [] } (tCd []));
      decide (s.gladeUp g = true) && (decide (s.colQueue g sl q = j :: l) && (decide (j.abandoned = false) && (decide (j.res = some r) && (
      decide (j.dbytes ≠ []) && (decide (r.status ≠ 0x0A) && (decide ((r.status ≠ 2 ∨ cdStatOk j.dbytes = true)) && (
      decide (r.token = none))))))))) = true ∧
    (let i : Instr := (.ctrJob 0 0 .none); let g : Glade := 0; let sl : SliceId := 0; let f : LaneFault := .none; let m : Nat := 5;
      let j : BarkJob := tBrkJob; let l : List BarkJob := []; let s : State := (tBrkS tBrkJob (tBd []));
      let d : List Byte := (okV [] (s.brkRead 0 tBrkJob 0x200 128)); let v : State := (okS (s.brkRead 0 tBrkJob 0x200 128));
      decide (barkRow i = some (g, sl, f, m)) && (decide (s.gladeUp g = true) && (decide (s.brkQueue g sl = j :: l) && (decide (j.res = none) && (
      decide (j.abandoned = false) && (decide (((s.glade g).barks.filter fun x => x.res.isSome).length < 4) && (
      decide (s.brkRead g j j.desc 128 = .ok d v) && (decide (bdMode d = m) && (let r := (okV (brkStop 0) (v.brkRun 0 tBrkJob d .none));
      let w := (okS (v.brkRun 0 tBrkJob d .none)); decide (v.brkRun g j d f = .ok r w)))))))))) = true ∧
    (let i : Instr := (.ctrJob 0 0 .none); let g : Glade := 0; let sl : SliceId := 0; let f : LaneFault := .none; let m : Nat := 5;
      let j : BarkJob := tBrkJob; let l : List BarkJob := []; let s : State := (tBrkS tBrkJob (tBd []));
      let d : List Byte := (okV [] (s.brkRead 0 tBrkJob 0x200 128)); let v : State := (okS (s.brkRead 0 tBrkJob 0x200 128));
      decide (barkRow i = some (g, sl, f, m)) && (decide (s.gladeUp g = true) && (decide (s.brkQueue g sl = j :: l) && (decide (j.res = none) && (
      decide (j.abandoned = false) && (decide (((s.glade g).barks.filter fun x => x.res.isSome).length < 4) && (
      decide (s.brkRead g j j.desc 128 = .ok d v) && (decide (bdMode d = m) && (let r := (okV (brkStop 0) (v.brkRun 0 tBrkJob d .none));
      let w := (okS (v.brkRun 0 tBrkJob d .none)); decide (v.brkRun g j d f = .ok r w) && (decide (1 ≤ r.status) && (
      decide (r.status ≤ 5)))))))))))) = true ∧
    (let i : Instr := (.ctrJob 0 0 .none); let g : Glade := 0; let sl : SliceId := 0; let f : LaneFault := .none; let m : Nat := 5;
      let j : BarkJob := tBrkJob; let l : List BarkJob := []; let s : State := (tBrkS tBrkJob (tBd [(1, [2])]));
      let d : List Byte := (okV [] (s.brkRead 0 tBrkJob 0x200 128)); let v : State := (okS (s.brkRead 0 tBrkJob 0x200 128));
      decide (barkRow i = some (g, sl, f, m)) && (decide (s.gladeUp g = true) && (decide (s.brkQueue g sl = j :: l) && (decide (j.res = none) && (
      decide (j.abandoned = false) && (decide (((s.glade g).barks.filter fun x => x.res.isSome).length < 4) && (
      decide (s.brkRead g j j.desc 128 = .ok d v) && (decide (bdMode d = m) && (let o := 1; let n := ([] : List Nat);
      decide (bdBad d = o :: n)))))))))) = true ∧
    (let i : Instr := (.ctrJob 0 0 .none); let g : Glade := 0; let sl : SliceId := 0; let f : LaneFault := .none; let m : Nat := 5;
      let j : BarkJob := tBrkJob; let l : List BarkJob := []; let s : State := (tBrkS tBrkJob (tBd [(8, [12])]));
      let d : List Byte := (okV [] (s.brkRead 0 tBrkJob 0x200 128)); let v : State := (okS (s.brkRead 0 tBrkJob 0x200 128));
      decide (barkRow i = some (g, sl, f, m)) && (decide (s.gladeUp g = true) && (decide (s.brkQueue g sl = j :: l) && (decide (j.res = none) && (
      decide (j.abandoned = false) && (decide (((s.glade g).barks.filter fun x => x.res.isSome).length < 4) && (
      decide (s.brkRead g j j.desc 128 = .ok d v) && (decide (bdMode d = m) && (let o := 8; let n := ([] : List Nat); decide (bdBad d = []) && (
      decide (bdLimit d = o :: n))))))))))) = true ∧
    (let i : Instr := (.ctrJob 0 0 .none); let g : Glade := 0; let sl : SliceId := 0; let f : LaneFault := .none; let m : Nat := 5;
      let j : BarkJob := tBrkJob; let l : List BarkJob := []; let s : State := (tBrkS tBrkJob (tBd [(0x40, leBytes 8 0x200)]));
      let d : List Byte := (okV [] (s.brkRead 0 tBrkJob 0x200 128)); let v : State := (okS (s.brkRead 0 tBrkJob 0x200 128));
      decide (barkRow i = some (g, sl, f, m)) && (decide (s.gladeUp g = true) && (decide (s.brkQueue g sl = j :: l) && (decide (j.res = none) && (
      decide (j.abandoned = false) && (decide (((s.glade g).barks.filter fun x => x.res.isSome).length < 4) && (
      decide (s.brkRead g j j.desc 128 = .ok d v) && (decide (bdMode d = m) && (decide (bdBad d = []) && (decide (bdLimit d = []) && (
      decide (bdOverlap j.desc d = true)))))))))))) = true ∧
    (let i : Instr := (.ctrJob 0 0 .none); let g : Glade := 0; let sl : SliceId := 0; let f : LaneFault := .none; let m : Nat := 5;
      let j : BarkJob := tBrkJob; let l : List BarkJob := []; let s : State := (tBrkS tBrkJob (tBd []));
      let d : List Byte := (okV [] (s.brkRead 0 tBrkJob 0x200 128)); let v : State := (okS (s.brkRead 0 tBrkJob 0x200 128));
      decide (barkRow i = some (g, sl, f, m)) && (decide (s.gladeUp g = true) && (decide (s.brkQueue g sl = j :: l) && (decide (j.res = none) && (
      decide (j.abandoned = false) && (decide (((s.glade g).barks.filter fun x => x.res.isSome).length < 4) && (
      decide (s.brkRead g j j.desc 128 = .ok d v) && (decide (bdMode d = m) && (let k := 0; decide (bdBad d = []) && (decide (bdLimit d = []) && (
      decide (bdOverlap j.desc d = false) && (decide (v.brkKeys g j.slice d = .error k))))))))))))) = true ∧
    (let g : Glade := 0; let sl : SliceId := 0; let j : BarkJob := ({ tBrkJob with abandoned := true }); let l : List BarkJob := [];
      let s : State := (tBrkS { tBrkJob with abandoned := true } (tBd [])); decide (s.gladeUp g = true) && (decide (s.brkQueue g sl = j :: l) && (
      decide (j.abandoned = true)))) = true ∧
    (let g : Glade := 0; let sl : SliceId := 0; let j : BarkJob := tBrkJob; let l : List BarkJob := []; let s : State := (tBrkS tBrkJob (tBd []));
      decide (s.gladeUp g = true) && (decide (s.brkQueue g sl = j :: l) && (decide (j.abandoned = false) && (decide (j.res = none))))) = true ∧
    (let g : Glade := 0; let sl : SliceId := 0; let j : BarkJob := ({ tBrkJob with res := some (brkStop 5), dbytes := tBd [] });
      let l : List BarkJob := []; let r : BarkResult := (brkStop 5);
      let s : State := (tBrkS { tBrkJob with res := some (brkStop 5), dbytes := tBd [] } (tBd [])); decide (s.gladeUp g = true) && (
      decide (s.brkQueue g sl = j :: l) && (decide (j.abandoned = false) && (decide (j.res = some r) && (decide (j.dbytes ≠ []) && (
      decide (r.status ≠ 0x0A) && (decide (bdStatOk j.dbytes = true) && (decide (r.out = []) && (decide (r.tag = none)))))))))) = true ∧
    (let s : State := (tRun.setF FOR_CLAIM FOR_CLAIM_CLAIMA 5); decide (s.forFw = true) && (decide (s.getF KST_STAT KST_STAT_RNGF = 0))) = true ∧
    (let d : BitVec 384 := 5; let s : State := (tRun.setF FOR_CLAIM FOR_CLAIM_CLAIMA 5); decide (s.forFw = true) && (
      decide (s.getF KST_STAT KST_STAT_EPRDY = 0) && (decide (d ≠ 0) && (decide (d.toNat < p384N) && (decide (ecPublic d.toNat ≠ none)))))) = true :=
  ⟨hub_ok (by decide +kernel), hub_ok (by decide +kernel), by decide, by decide, by decide, by decide, by decide, by decide, by decide, by decide, by decide, by decide, by decide, by decide, by decide, by decide, by decide, by decide, by decide, by decide, by decide, by decide, by decide, by decide, by decide, by decide, by decide, by decide⟩

/-- States and operands that meet the hypotheses of clauses of RetryAndPoolResults. -/
theorem test_meets_RetryAndPoolResults :
    (let i : Instr := (.instructionRetry 0 2); let t : Thr := 0; let k : Nat := 2; let s : State := tPool; decide (s.retryCheck i = some (t, k)) && (
      decide ((s.thr t.val).retries < 3))) = true ∧
    (let i : Instr := (.instructionRetry 0 2); let t : Thr := 0; let k : Nat := 2;
      let s : State := ((tPool.setF (CPC_HEALTH 1) CPC_HEALTH_STATE 4).modThr 0 fun x => { x with retries := 3 });
      decide (s.retryCheck i = some (t, k)) && (let c := s.pcore t.val; decide (3 ≤ (s.thr t.val).retries) && (let w := s.stopCore c .stoppedRetry;
      decide ((∀ x ∈ w.tkos, x.failing ≠ c)) && (decide ((∀ v ∈ s.coreThreads c, v < 128)) && (decide (w.candidate c w.staleMap = none)))))) = true ∧
    (let i : Instr := (.instructionRetry 0 2); let t : Thr := 0; let k : Nat := 2;
      let s : State := (tPool.modThr 0 fun x => { x with retries := 3 }); decide (s.retryCheck i = some (t, k)) && (let c := s.pcore t.val;
      decide (3 ≤ (s.thr t.val).retries) && (let w := s.stopCore c .stoppedRetry; decide ((∀ x ∈ w.tkos, x.failing ≠ c)) && (
      decide ((∀ v ∈ s.coreThreads c, v < 128)) && (let d := 1; decide (w.candidate c w.staleMap = some d) && (
      decide ((∀ x ∈ w.tkos, x.reqid ≠ w.nextReq)))))))) = true ∧
    (let i : Instr := (.instructionRetry 0 2); let t : Thr := 0; let k : Nat := 2;
      let s : State := (tPool.modThr 0 fun x => { x with retries := 3 }); decide (s.retryCheck i = some (t, k)) && (let c := s.pcore t.val;
      decide (3 ≤ (s.thr t.val).retries) && (let w := s.stopCore c .stoppedRetry; decide ((∀ x ∈ w.tkos, x.failing ≠ c)) && (
      decide ((∀ v ∈ s.coreThreads c, v < 128)))))) = true ∧
    (let id : BitVec 8 := 3; let s : State := ({ tPool with tkos := [tTko] }); decide (s.domainUp 0x03 0 = true) && (let k := tTko;
      decide (s.undecided id = some k) && (decide (k.started = true)))) = true ∧
    (let id : BitVec 8 := 3; let s : State := ({ tPool with tkos := [{ tTko with started := false }] }); decide (s.domainUp 0x03 0 = true) && (
      let k := ({ tTko with started := false }); decide (s.undecided id = some k) && (decide (k.started = false)))) = true ∧
    (let id : BitVec 8 := 3; let s : State := tPool; decide (s.domainUp 0x03 0 = true) && (decide (s.undecided id = none))) = true ∧
    (let s : State := (tDg tPool); decide (s.domainUp 0x03 0 = true) && (let t : Thr := 0; decide (s.mayReg t 0x03 0 0x018 = true))) = true ∧
    (let s : State := tPool; decide (s.domainUp 0x03 0 = true) && (let v : Word := 0x3;
      decide (CPC_APP_DECIDE.get v = 0 ∨ CPC_APP_DECIDE.get v = 3))) = true ∧
    (let id : BitVec 8 := 3; let s : State := tPool; decide (s.undecided id = none)) = true ∧
    (let id : BitVec 8 := 3; let s : State := ({ tPool with tkos := [tTko] }); let k := tTko; decide (s.undecided id = some k)) = true ∧
    (let c : Pcore := 0; let k : Takeover := tTko; let s : State := ({ tPool with tkos := [tTko] });
      decide ((s.tkos.find? fun k => k.started && k.failing == c.val && !k.drained) = some k) && (
      decide ((∀ t ∈ s.coreThreads c.val, (s.thr t).sb = [])))) = true ∧
    (let c : Pcore := 1; let k : Takeover := tTko; let s : State := ({ tPool with tkos := [tTko] });
      decide ((s.tkos.find? fun k => k.started && k.spare == c.val && !k.checked) = some k)) = true ∧
    (let c : Pcore := 0; let k : Takeover := ({ tTko with drained := true, checked := true, decided := some true });
      let s : State := ({ tPool with tkos := [{ tTko with drained := true, checked := true, decided := some true }] });
      decide ((s.tkos.find? fun k => k.started && k.failing == c.val && k.drained && k.checked && k.decided == some true) = some k) && (
      decide (c.val ≠ k.spare) && (decide (k.spare < 72)))) = true ∧
    (let c : Pcore := 1; let s : State := ({ tPool with released := 1, standRst := 0 }); decide (s.pooled c.val = true) && (
      decide (s.testPaused c.val = false))) = true :=
  ⟨by decide, by decide, by decide, by decide, by decide, by decide, by decide, by decide, by decide, by decide, by decide, by decide, by decide, by decide, by decide⟩

/-- States and operands that meet the hypotheses of clauses of RecordsAndTriggers. -/
theorem test_meets_RecordsAndTriggers :
    (let r : Report := (⟨0x02,90,1,1,none,none,none,[]⟩ : Report); decide (reportOk r = false)) = true ∧
    (let r : Report := (⟨0x02,3,1,1,none,none,none,[]⟩ : Report); decide (reportOk r = true)) = true ∧
    (let r : Report := (⟨0x02,3,2,1,none,some 0,none,[]⟩ : Report); let s : State := tRun; decide (reportOk r = true) && (let p := 0; let t := 0;
      decide (r.part = some p) && (decide (r.cls = 2) && (decide (t < 128) && (decide (s.running t = true) && (decide (s.part t = p.val))))))) = true ∧
    (let n : Fin 9 := 0; let b : BitVec 8 := 6; decide (n = 0 ∨ trigBlock n.val ≠ b.toNat)) = true ∧
    (let n : Fin 9 := 2; let b : BitVec 8 := 0x0A; let s : State := ({ tRun with wind := 1 }); decide (n ≠ 0) && (
      decide (trigBlock n.val = b.toNat) && (decide (s.wind ≠ 0)))) = true ∧
    (let n : Fin 9 := 2; let b : BitVec 8 := 0x0A; let s : State := tRun; decide (n ≠ 0) && (decide (trigBlock n.val = b.toNat) && (
      decide (s.wind = 0)))) = true ∧
    (let t : Thr := 0; let s : State := (tAt 1 tThr); decide ((s.thr t.val).run ≠ .held)) = true ∧
    (let t : Thr := 0; let s : State := ({ tPool with tkos := [tTko] }); decide ((s.thr t.val).run ≠ .held) && (let c := s.pcore t.val;
      decide (s.leaving c = true))) = true ∧
    (let t : Thr := 0; let s : State := (tAt 1 tThr); decide ((s.thr t.val).run ≠ .held) && (let c := s.pcore t.val; decide (s.leaving c = false) && (
      decide ((∀ v ∈ s.coreThreads c, v < 128))))) = true ∧
    (let b : Nat := 0x0A; let i : Nat := 0; let o : Nat := 0x100; let r : Reg := ⟨b, i, o⟩; decide (r.rwsMask ≠ 0)) = true ∧
    (let b : Nat := 0x0A; let i : Nat := 0; let o : Nat := 0x100; let v : Word := 5;
      let s : State := ({ tRun with retained := [((HOM_IL 0).key, some 5)] }); let r : Reg := ⟨b, i, o⟩; decide (r.rwsMask ≠ 0) && (
      decide (s.retainedOf r = some v))) = true ∧
    (let c : Pcore := 0; let va : Word := (0x5000 : Word); let g : BitVec 16 := 7; let s : State := tRun;
      decide (tlbFind (s.core c.val).tlb va.toNat g.toNat = none)) = true ∧
    (let c : Pcore := 0; let va : Word := (0x5000 : Word); let g : BitVec 16 := 7; let s : State := (tAt 1 tThr); let e := tMap;
      decide (tlbFind (s.core c.val).tlb va.toNat g.toNat = some e)) = true ∧
    (let c : Pcore := 0; let g : BitVec 16 := 7; let l : Fin 5 := 0; let ea : Word := (0x8 : Word); let va : Word := (0x5000 : Word);
      let s : State := tRun; decide ((s.core c.val).walkHit g.toNat l.val ea.toNat va.toNat = none)) = true ∧
    (let c : Pcore := 0; let g : BitVec 16 := 7; let l : Fin 5 := 0; let ea : Word := (0x8 : Word); let va : Word := (0x5000 : Word);
      let s : State := (tRun.modCore 0 fun c => { c with wc := [⟨7, 0, 8, 5, 3⟩] }); let e := (⟨7, 0, 8, 5, 3⟩ : WalkEnt);
      decide ((s.core c.val).walkHit g.toNat l.val ea.toNat va.toNat = some e)) = true :=
  ⟨by decide, by decide, by decide, by decide, by decide, by decide, by decide, by decide, by decide, by decide, by decide, by decide, by decide, by decide, by decide⟩

/-- States and operands that meet the hypotheses of some clauses of ForesterResults. -/
theorem test_meets_ForesterResults_1 :
    (let i : Instr := (.mboxPing 0); let p : Part := 0; let row : Nat → Bool := (fun o => decide (o = 2)); mailboxRow i = some (p, row)) ∧
    (let i : Instr := (.mboxResetDomain 0); let p : Part := 0; let row : Nat → Bool := (fun o => decide (o = 1)); mailboxRow i = some (p, row)) ∧
    (let i : Instr := (.mboxUnknownOp 0); let p : Part := 0; let row : Nat → Bool := (fun o => decide (o ≠ 1 ∧ o ≠ 2)); mailboxRow i = some (p, row)) ∧
    (let p : Part := 0; let a : State := tMb0; let b : State := (okS (tMb0.mboxPut 0 0 mboxMagic)); a.mboxPut p 0x00 mboxMagic = .ok () b) :=
  ⟨rfl, rfl, rfl, hub_ok (by decide +kernel)⟩

/-- States and operands that meet the hypotheses of some clauses of ForesterResults. -/
theorem test_meets_ForesterResults_2 :
    (let p : Part := 0; let b : State := (okS (tMb0.mboxPut 0 0 mboxMagic)); let c : State := (okS (b.mboxPut 0 8 (leBytes 8 0)));
      b.mboxPut p 0x08 (leBytes 8 0) = .ok () c) ∧
    (let p : Part := 0; let b : State := (okS (tMb0.mboxPut 0 0 mboxMagic)); let c : State := (okS (b.mboxPut 0 8 (leBytes 8 0)));
      let d : State := (okS (c.mboxPut 0 0x10 (leBytes 8 0))); c.mboxPut p 0x10 (leBytes 8 0) = .ok () d) ∧
    (let p : Part := 0; let b : State := (okS (tMb0.mboxPut 0 0 mboxMagic)); let c : State := (okS (b.mboxPut 0 8 (leBytes 8 0)));
      let d : State := (okS (c.mboxPut 0 0x10 (leBytes 8 0))); let e := (okS (d.mboxPut 0 0x18 (leBytes 8 0)));
      d.mboxPut p 0x18 (leBytes 8 0) = .ok () e) ∧
    (let p : Part := 0; let b : List Byte := ((tReqB 2 0) ++ [1,2,3,4]); let v : State := (tAskV b); let z : State := (okS (v.mboxAnswer 0 b 3 0));
      v.mboxAnswer p b 0x03 0 = .ok () z) :=
  ⟨hub_ok (by decide +kernel), hub_ok (by decide +kernel), hub_ok (by decide +kernel), hub_ok (by decide +kernel)⟩

/-- States and operands that meet the hypotheses of some clauses of ForesterResults. -/
theorem test_meets_ForesterResults_3 :
    (let p : Part := 0; let b : List Byte := (tReq 2 0); let v : State := (tAskV b); let z : State := (okS (v.mboxAnswer 0 b 0 0));
      v.mboxAnswer p b 0 0 = .ok () z) ∧
    (let p : Part := 0; let b : List Byte := (tReq 9 0); let v : State := (tAskV b); let z : State := (okS (v.mboxAnswer 0 b 13 0));
      v.mboxAnswer p b 0x0D 0 = .ok () z) ∧
    (let p : Part := 0; let b : List Byte := (tReq 1 0x20); let v : State := (tAskV b); let z : State := (okS (v.mboxAnswer 0 b 2 0));
      v.mboxAnswer p b 0x02 0 = .ok () z) ∧
    (let p : Part := 0; let acc : PortAccess := ({ wr := true, mfw := false, addr := 0x400100, size := 8, data := [1,2,3,4,5,6,7,8] } : PortAccess);
      let s : State := tMbUp; let v : State := (okS (tMbUp.portWriteNow 0 0x400100 [1,2,3,4,5,6,7,8])); let a := acc.addr.toNat;
      s.portWriteNow p a acc.data = .ok () v) :=
  ⟨hub_ok (by decide +kernel), hub_ok (by decide +kernel), hub_ok (by decide +kernel), hub_ok (by decide +kernel)⟩

/-- States and operands that meet the hypotheses of some clauses of ForesterResults. -/
theorem test_meets_ForesterResults_4 :
    (let i : Instr := (.foresterTakeover 1); let c : Nat := 1; let s : State := tRun; decide (unitFailure i = some c) && (
      decide (s.forRuns = false))) = true ∧
    (let i : Instr := (.foresterTakeover 1); let c : Nat := 1; let s : State := tFor; decide (unitFailure i = some c) && (
      decide (s.forRuns = true) && (decide (s.getF FOR_CLAIM FOR_CLAIM_STBY = 0) && (decide (s.getF FOR_CLAIM FOR_CLAIM_LATCH < 0xFF) && (
      decide (s.ldr = none) && (decide (s.clrs = []))))))) = true ∧
    (let i : Instr := (.watchdogExpire); let c : Nat := 4; let s : State := (tFor.setF FOR_CLAIM FOR_CLAIM_STBY 3);
      decide (unitFailure i = some c) && (decide (s.forRuns = true) && (decide (s.getF FOR_CLAIM FOR_CLAIM_STBY = 3)))) = true ∧
    (let i : Instr := (.watchdogExpire); let c : Nat := 4; let s : State := (tFor.setF FOR_CLAIM FOR_CLAIM_STBY 2);
      decide (unitFailure i = some c) && (decide (s.forRuns = true) && (decide (s.getF FOR_CLAIM FOR_CLAIM_STBY ≠ 3) && (
      decide ((s.getF FOR_CLAIM FOR_CLAIM_STBY ≠ 0 ∨ s.getF FOR_CLAIM FOR_CLAIM_LATCH = 0xFF)))))) = true :=
  ⟨by decide +kernel, by decide +kernel, by decide +kernel, by decide +kernel⟩

/-- States and operands that meet the hypotheses of some clauses of ForesterResults. -/
theorem test_meets_ForesterResults_5 :
    (let b : Bool := false; let s : State := tFor; decide (s.forRuns = true) && (decide (s.getF FOR_CLAIM FOR_CLAIM_ACTIVE = b2n b))) = true ∧
    (let b : Bool := true; let s : State := tFor; decide (s.getF FOR_CLAIM FOR_CLAIM_ACTIVE ≠ b2n b)) = true ∧
    (let s : State := ({ tFor with fst := { tFor.fst with busy := 0x80 } }); decide (s.forRuns = true) && (decide (bitOf s.fst.busy 7 = true))) = true ∧
    (let s : State := tFor; decide (s.forRuns = true) && (decide (bitOf s.fst.busy 7 = false))) = true :=
  ⟨by decide +kernel, by decide +kernel, by decide +kernel, by decide +kernel⟩

/-- States and operands that meet the hypotheses of some clauses of ForesterResults. -/
theorem test_meets_ForesterResults_6 :
    (let c : Fin 8 := 4; let w : Work := (⟨3,5⟩ : Work); let s : State := tFor; decide (s.forRuns = true) && (
      decide ((c.val = 4 ∨ (c.val = 1 ∨ c.val = 2 ∨ c.val = 5 ∨ c.val = 7) ∧ 8 ≤ w.kind.toNat)) && (decide ((s.queue c.val).length < 256)))) = true ∧
    (let c : Fin 8 := 1; let w : Work := (⟨9,5⟩ : Work); let s : State := ({ tFor with fq := [(1, List.replicate 256 ⟨⟨9,5⟩,none⟩)] });
      decide (s.forRuns = true) && (decide ((c.val = 4 ∨ (c.val = 1 ∨ c.val = 2 ∨ c.val = 5 ∨ c.val = 7) ∧ 8 ≤ w.kind.toNat)) && (
      decide (256 ≤ (s.queue c.val).length)))) = true ∧
    (let k : BitVec 8 := 1; let s : State := tFor; decide (s.forRuns = true) && (let l := s.getF FOR_CLAIM FOR_CLAIM_LATCH;
      decide (k.toNat < l))) = true ∧
    (let st : Stage := (.commit : Stage); let k : BitVec 8 := 5; let n : BitVec 16 := 7;
      let s : State := ({ tFor with fst := { tFor.fst with seqs := [(stageNum .commit, some 7)] } }); decide (s.forRuns = true) && (
      let l := s.getF FOR_CLAIM FOR_CLAIM_LATCH; decide (l ≤ k.toNat) && (
      decide ((k.toNat = s.getF FOR_CLAIM FOR_CLAIM_CLAIMA ∨ k.toNat = s.getF FOR_CLAIM FOR_CLAIM_CLAIMB)) && (
      decide (s.seqTaken (stageNum st) n.toNat = true))))) = true :=
  ⟨by decide +kernel, by decide +kernel, by decide +kernel, by decide +kernel⟩

/-- States and operands that meet the hypotheses of some clauses of ForesterResults. -/
theorem test_meets_ForesterResults_7 :
    (let st : Stage := (.commit : Stage); let k : BitVec 8 := 5; let n : BitVec 16 := 7; let c : StageCmd := (.commit); let s : State := tFor;
      decide (s.forRuns = true) && (let l := s.getF FOR_CLAIM FOR_CLAIM_LATCH; decide (l ≤ k.toNat) && (
      decide ((k.toNat = s.getF FOR_CLAIM FOR_CLAIM_CLAIMA ∨ k.toNat = s.getF FOR_CLAIM FOR_CLAIM_CLAIMB)) && (
      decide (s.seqTaken (stageNum st) n.toNat = false) && (let v := ((tFor.stageDoes .commit .commit).getD tFor);
      decide (s.stageDoes st c = some v)))))) = true ∧
    (let v : Word := 0x1000000000000005; let s : State := tFor; let h := FOR_LOGSTAT_HEAD.get v;
      let k := (h + 4096 - s.getF FOR_LOGSTAT FOR_LOGSTAT_HEAD) % 4096; decide (s.flogCnt < k)) = true ∧
    (let v : Word := 0x2000; let s : State := ({ tFor with flogCnt := 3 }); let h := FOR_LOGSTAT_HEAD.get v;
      let k := (h + 4096 - s.getF FOR_LOGSTAT FOR_LOGSTAT_HEAD) % 4096; decide (k ≤ s.flogCnt) && (decide (s.flogWait = []))) = true ∧
    (let s : State := tFor; decide (s.forRuns = false ∨ s.getF FOR_CLAIM FOR_CLAIM_STBY ≠ 3)) = true :=
  ⟨by decide +kernel, by decide +kernel, by decide +kernel, by decide +kernel⟩

/-- States and operands that meet the hypotheses of some clauses of ForesterResults. -/
theorem test_meets_ForesterResults_8 :
    (let s : State := (tFor.setF FOR_CLAIM FOR_CLAIM_STBY 3); decide (s.forRuns = true) && (decide (s.getF FOR_CLAIM FOR_CLAIM_STBY = 3))) = true ∧
    (let s : State := (match exec (.loadForFw 0 268) (tSvF 3 tC1) with | .next u => u | _ => State.reset); decide (s.forRuns = true) && (
      decide (s.getF FOR_CLAIM FOR_CLAIM_STBY = 3) && (let x := ((s.svc).getD ⟨1, 0, 268, true, none, 0, 0, [], true⟩);
      let c := ((match s.container 1 268 0 with | .ok c => c | .error _ => ⟨0,0,[]⟩)); decide (s.svc = some x) && (
      decide (s.container 1 x.len 0 = .ok c) && (decide (s.getF FOR_CLAIM FOR_CLAIM_LATCH < 0xFF)))))) = true ∧
    (let t : Thr := 0; let p : Part := 0; let v : Word := 1;
      let s : State := (((tDg (tAt 3 tThr)).setF FOR_CLAIM FOR_CLAIM_CLAIMA 5).setAct (FOR_MBOX 0) 0x8000000000400000 |>.modMbox 0 fun _ => { Mbox.down with up := true });
      decide (s.mayReg t 0x13 0 (0x300 + 8 * p.val) = true) && (let tail := FOR_MBDB_REQTAIL.get v; decide ((s.thr t.val).pl = 3) && (
      decide (s.part t.val = p.val) && (decide (s.mboxOn p = true) && (decide ((s.mbox p).up = true) && (decide (tail ≠ (s.mbox p).reqTail) && (
      decide ((s.mbox p).reqTail < 256) && (decide ((s.queue 7).length < 256))))))))) = true ∧
    (let t : Thr := 0; let p : Part := 0; let s : State := (tDg ((tAt 3 tThr).setF FOR_CLAIM FOR_CLAIM_CLAIMA 5));
      decide (s.mayReg t 0x13 0 (0x300 + 8 * p.val) = true) && (
      decide ((s.thr t.val).pl ≠ 3 ∨ s.part t.val ≠ p.val ∨ s.mboxOn p = false ∨ (s.mbox p).up = false))) = true :=
  ⟨by decide +kernel, by decide +kernel, by decide +kernel, by decide +kernel⟩

/-- States and operands that meet the hypotheses of some clauses of ForesterResults. -/
theorem test_meets_ForesterResults_9 :
    (let p : Part := 0; let a : State := tMb0; decide (a.forRuns = true) && (decide (a.mboxOn p = true) && (decide ((a.mbox p).up = false) && (
      decide (a.mboxMemory p = true))))) = true ∧
    (let p : Part := 0; let b : List Byte := ((tReqB 2 0) ++ [1,2,3,4]); let s : State := (tAsk b); let v : State := (tAskV b);
      decide (s.asks p b v) && (decide ((s.mbox p).reqHead ∉ (s.mbox p).busy) && (let good := rdLe b 0x3C 4 = (crc32c (b.take 0x3C)).toNat;
      decide (¬ good)))) = true ∧
    (let p : Part := 0; let row : Nat → Bool := (fun o => decide (o = 1)); let b : List Byte := (tReq 2 0); let s : State := (tAsk b);
      let v : State := (tAskV b); decide (s.asks p b v) && (decide ((s.mbox p).reqHead ∉ (s.mbox p).busy) && (
      let good := rdLe b 0x3C 4 = (crc32c (b.take 0x3C)).toNat; decide (good) && (decide (row (byteAt b 0) = false))))) = true ∧
    (let i : Instr := (.mboxPing 0); let p : Part := 0; let b : List Byte := (tReq 2 0); let s : State := (tAsk b); let v : State := (tAskV b);
      decide (s.asks p b v) && (decide ((s.mbox p).reqHead ∉ (s.mbox p).busy) && (let good := rdLe b 0x3C 4 = (crc32c (b.take 0x3C)).toNat;
      decide (good) && (decide (i = .mboxPing p) && (decide (byteAt b 0 = 2)))))) = true :=
  ⟨by decide +kernel, by decide +kernel, by decide +kernel, by decide +kernel⟩

/-- States and operands that meet the hypotheses of some clauses of ForesterResults. -/
theorem test_meets_ForesterResults_10 :
    (let i : Instr := (.mboxUnknownOp 0); let p : Part := 0; let b : List Byte := (tReq 9 0); let s : State := (tAsk b); let v : State := (tAskV b);
      decide (s.asks p b v) && (decide ((s.mbox p).reqHead ∉ (s.mbox p).busy) && (let good := rdLe b 0x3C 4 = (crc32c (b.take 0x3C)).toNat;
      decide (good) && (decide (i = .mboxUnknownOp p) && (decide (byteAt b 0 ≠ 1) && (decide (byteAt b 0 ≠ 2))))))) = true ∧
    (let i : Instr := (.mboxResetDomain 0); let p : Part := 0; let b : List Byte := (tReq 1 0x20); let s : State := (tAsk b);
      let v : State := (tAskV b); decide (s.asks p b v) && (decide ((s.mbox p).reqHead ∉ (s.mbox p).busy) && (
      let good := rdLe b 0x3C 4 = (crc32c (b.take 0x3C)).toNat; decide (good) && (decide (i = .mboxResetDomain p) && (decide (byteAt b 0 = 1) && (
      decide ((v.mbox p).reset = none) && (decide (v.mayReset p (byteAt b 1) = false)))))))) = true ∧
    (let acc : PortAccess := ({ wr := true, mfw := false, addr := 0x400100, size := 8, data := [1,2,3,4,5,6,7,8] } : PortAccess);
      let s : State := tMbUp; decide (s.forRuns = true) && (decide (acc.mfw = false) && (decide (acc.wr = true) && (
      decide (acc.data.length = acc.size))))) = true ∧
    (let p : Part := 0; let acc : PortAccess := ({ wr := false, mfw := false, addr := 0x400100, size := 8, data := [] } : PortAccess);
      let s : State := tMbUp; let v : State := (okS (tMbUp.portReadNow 0 0x400100 8)); decide (s.forRuns = true) && (decide (acc.mfw = false) && (
      let a := acc.addr.toNat; let b := (okV [] (tMbUp.portReadNow 0 0x400100 8)); decide (acc.wr = false) && (
      decide (s.portReadNow p a acc.size = .ok b v))))) = true :=
  ⟨by decide +kernel, by decide +kernel, by decide +kernel, by decide +kernel⟩

/-- States and operands that meet the hypotheses of some clauses of ForesterResults. -/
theorem test_meets_ForesterResults_11 :
    (let p : Part := 0; let acc : PortAccess := ({ wr := true, mfw := false, addr := 0x400101, size := 2, data := [1,2] } : PortAccess);
      let s : State := tMbUp; decide (s.forRuns = true) && (decide (acc.mfw = false) && (let a := acc.addr.toNat; decide (acc.wr = true) && (
      decide (acc.data.length = acc.size) && (decide (s.portAdmits p a acc.size true false = false)))))) = true ∧
    (let p : Part := 0; let acc : PortAccess := ({ wr := false, mfw := false, addr := 0x900100, size := 8, data := [] } : PortAccess);
      let s : State := tMbUp; decide (s.forRuns = true) && (decide (acc.mfw = false) && (let a := acc.addr.toNat; decide (acc.wr = false) && (
      decide (s.portAdmits p a acc.size false false = false))))) = true :=
  ⟨by decide +kernel, by decide +kernel⟩

/-- States and operands that meet the hypotheses of clauses of PackageResults. -/
theorem test_meets_PackageResults :
    (let s : State := tRun; decide (s.pwrok = true)) = true ∧
    (let x : Telemetry := (⟨400,List.replicate 32 60,0,0⟩ : Telemetry); let s : State := tRun; decide (s.pwrok = true) && (
      decide (x.temps.length = 32))) = true ∧
    (let s : State := tRun; decide (s.standClocks = true)) = true ∧
    (let i : Fin 10 := 0; let mv : BitVec 16 := 1300; let s : State := tRun; decide (s.pwrok = true) && (let v := mv.toNat;
      decide (railMax i.val < v))) = true ∧
    (let i : Fin 10 := 0; let mv : BitVec 16 := 0; let s : State := tRun; decide (s.pwrok = true) && (let v := mv.toNat; let t := s.railTarget i.val;
      let d := (v - t) + (t - v); decide (v ≤ railMax i.val) && (decide (d * 100 ≤ railTol i.val * t)))) = true ∧
    (let i : Fin 10 := 6; let mv : BitVec 16 := 1200; let s : State := tRun; decide (s.pwrok = true) && (let v := mv.toNat;
      let t := s.railTarget i.val; let d := (v - t) + (t - v); decide (v ≤ railMax i.val) && (decide (railTol i.val * t < d * 100)))) = true ∧
    (let s : State := tRun; decide (s.pwrok = true) && (decide (s.pwr.prochot = false))) = true ∧
    (let s : State := ({ tRun with pwr := { tRun.pwr with prochot := true } }); decide (s.pwr.prochot = true)) = true ∧
    (let st : Stand := 0; let s : State := tRun; decide (s.standClocks = true) && (let x := Tab.get (fun _ => none) s.pwr.excess st.val;
      decide (x = none))) = true ∧
    (let st : Stand := 0; let s : State := ({ tRun with pwr := { tRun.pwr with excess := [(0, some 20)] } }); decide (s.standClocks = true) && (
      let x := Tab.get (fun _ => none) s.pwr.excess st.val; decide (x ≠ none))) = true ∧
    (let i : Instr := (.tjEmergency true 110 3); let tj : Nat := 110; let k : Nat := 3; let min : Nat := 95; let s : State := tRun;
      decide (junctionRow i = some (tj, k, min)) && (decide (s.pwrok = true) && (decide (tjAtLeast tj min = true)))) = true ∧
    (let tj : BitVec 8 := 60; let s : State := tRun; decide (s.pwrok = true) && (decide (tjAtLeast tj.toNat 95 = false))) = true ∧
    (let i : Fin 6 := 0; let s : State := (tRun.setF CLK_REF (refField 0) 0); decide (s.pwrok = true) && (let f := refField i.val;
      decide (s.getF CLK_REF f = 0))) = true ∧
    (let i : Fin 6 := 4; let s : State := (tRun.setF CLK_REF (refField 4) 1); decide (s.pwrok = true) && (let f := refField i.val;
      decide (s.getF CLK_REF f = 1))) = true :=
  ⟨by decide, by decide, by decide, by decide, by decide, by decide, by decide, by decide, by decide, by decide, by decide, by decide, by decide, by decide⟩

/-- States and operands that meet the hypotheses of clauses of TestAndTelemetryResults. -/
theorem test_meets_TestAndTelemetryResults :
    (let i : Instr := .extest; let j : JtagIr := .extest; let s : State := (State.reset);
      decide ((i = .extest ∧ j = .extest ∨ i = .clamp ∧ j = .clamp ∨ i = .highz ∧ j = .highz)) && (let st := s.startStep;
      decide (st = 0 ∨ st = 1 ∨ st = 2 ∨ st = 15))) = true ∧
    (let i : Instr := .clamp; let j : JtagIr := .clamp; let s : State := tRun;
      decide ((i = .extest ∧ j = .extest ∨ i = .clamp ∧ j = .clamp ∨ i = .highz ∧ j = .highz)) && (let st := s.startStep; decide (st ≠ 0) && (
      decide (st ≠ 1) && (decide (st ≠ 2) && (decide (st ≠ 15)))))) = true ∧
    (let s : State := tRun; decide (s.pwrok = true) && (let x := s.i3c; decide (x.addr = none))) = true ∧
    (let s : State := tRun; decide (s.pwrok = true)) = true ∧
    (let e : BitVec 8 := 1; let s : State := tRun; decide (s.pwrok = true) && (decide (e.getLsbD 0 = true))) = true ∧
    (let e : BitVec 8 := 0; let s : State := tRun; decide (s.pwrok = true) && (decide (e.getLsbD 0 = false))) = true ∧
    (let i : Instr := .getstatus; let k : Nat := 3; let n : Nat := 2; let s : State := tRun;
      decide ((i, k, n) ∈ [(Instr.getpid, 0, 6), (.getbcr, 1, 1), (.getdcr, 2, 1), (.getstatus, 3, 2), (.getmwl, 4, 2), (.getmrl, 5, 3)]) && (
      decide (s.pwrok = true) && (decide (s.i3c.addr = none)))) = true ∧
    (let i : Instr := .getstatus; let k : Nat := 3; let n : Nat := 2; let s : State := ({ tRun with i3c := { tRun.i3c with addr := some 3 } });
      decide ((i, k, n) ∈ [(Instr.getpid, 0, 6), (.getbcr, 1, 1), (.getdcr, 2, 1), (.getstatus, 3, 2), (.getmwl, 4, 2), (.getmrl, 5, 3)]) && (
      decide (s.pwrok = true) && (decide (s.i3c.addr ≠ none)))) = true ∧
    (let s : State := tRun; decide (s.pwrok = true) && (decide (s.i3c.addr = none))) = true ∧
    (let s : State := ({ tRun with i3c := { tRun.i3c with addr := some 3 } }); decide (s.pwrok = true) && (decide (s.i3c.addr ≠ none))) = true :=
  ⟨by decide, by decide, by decide, by decide, by decide, by decide, by decide, by decide, by decide, by decide⟩

/-- States and operands that meet the hypotheses of clauses of StartResults. -/
theorem test_meets_StartResults :
    (let s : State := tRun; decide (s.pwrok = true)) = true ∧
    (let s : State := State.reset; decide (s.pwrok = false)) = true ∧
    (let s : State := tRun; decide (s.pwrok = false ∨ s.startStep ≠ 0)) = true ∧
    (let s : State := ({ State.reset with pwrok := true }); decide (s.pwrok = true) && (decide (s.startStep = 0))) = true ∧
    (let s : State := tRun; decide (s.startStep ≠ 3)) = true ∧
    (let s : State := (tSvc 3 []); decide (s.startStep = 3)) = true ∧
    (let s : State := (tSvc 4 []); decide (s.startStep = 4) && (decide ((∀ n : Nat, n < 16 → s.rtlState n ≠ 1)) && (
      decide ((∀ p : Nat, p < 7 → s.gpState p ≠ 1))))) = true ∧
    (let s : State := ((tSvc 4 []).setF (RTL_STAT 0) RTL_STAT_STATE 1);
      decide ((s.startStep ≠ 4 ∨ (∃ n ∈ List.range 16, s.rtlState n = 1) ∨ (∃ p ∈ List.range 7, s.gpState p = 1)))) = true ∧
    (let st : Stand := 0; let s : State := ({ tRun with standRst := 0 }); decide (s.standClocks = false ∨ bitOf s.standRst st.val = false)) = true ∧
    (let st : Stand := 0; let s : State := ({ tRun with standRst := 15, released := 1 }); decide (s.standClocks = true) && (
      decide (bitOf s.standRst st.val = true))) = true :=
  ⟨by decide, by decide, by decide, by decide, by decide, by decide, by decide, by decide, by decide, by decide⟩

/-- States and operands that meet the hypotheses of clauses of ServicePortResults. -/
theorem test_meets_ServicePortResults :
    (let i : Instr := (.loadKeys 0 268); let op : Nat := 5; let t : BitVec 8 := 0; let l : BitVec 32 := 268; let bad : List Nat := ([] : List Nat);
      let st : Bool := true; let s : State := (tSvF 2 []); decide (svcForm i = some (op, t, l, bad, st)) && (decide (s.svcUp = true) && (
      decide (s.svc = none) && (decide (s.startStep < (svcLimit op).1 ∨ s.startStep = 15))))) = true ∧
    (let i : Instr := (.loadForFw 3 268); let op : Nat := 1; let t : BitVec 8 := 3; let l : BitVec 32 := 268; let bad : List Nat := ([] : List Nat);
      let st : Bool := true; let s : State := (tSvF 3 []); decide (svcForm i = some (op, t, l, bad, st)) && (decide (s.svcUp = true) && (
      decide (s.svc = none) && (decide ((svcLimit op).1 ≤ s.startStep) && (decide (s.startStep ≠ 15) && (
      decide ((svcLimit op).2 t.toNat = false))))))) = true ∧
    (let i : Instr := (.loadForFw 0 268); let op : Nat := 1; let t : BitVec 8 := 0; let l : BitVec 32 := 268; let bad : List Nat := ([] : List Nat);
      let st : Bool := true; let s : State := ({ tSvF 3 [] with fq := [(7, List.replicate 256 ⟨⟨9,5⟩,none⟩)] });
      decide (svcForm i = some (op, t, l, bad, st)) && (decide (s.svcUp = true) && (decide (s.svc = none) && (
      decide ((svcLimit op).1 ≤ s.startStep) && (decide (s.startStep ≠ 15) && (decide ((svcLimit op).2 t.toNat = true) && (
      decide (s.startStep ≠ 1) && (decide (s.svcDirect op = false) && (decide (s.queueFull 7 = true)))))))))) = true ∧
    (let op : BitVec 8 := 0x0B; let s : State := (tSvF 3 []); decide (op = 0 ∨ 0x0A < op.toNat) && (decide (s.svcUp = true) && (
      decide (s.svc = none)))) = true ∧
    (let i : Instr := (.loadForFw 0 268); let op : Nat := 1; let t : BitVec 8 := 0; let l : BitVec 32 := 268; let bad : List Nat := ([] : List Nat);
      let st : Bool := true; let c : SvcCmd := (⟨1,0,268,true,none,0,0,[],true⟩ : SvcCmd);
      let s : State := ({ tSvF 3 [] with svc := some ⟨1,0,268,true,none,0,0,[],true⟩ }); decide (svcForm i = some (op, t, l, bad, st)) && (
      decide (s.svcUp = true) && (decide (s.svc = some c) && (decide (c.begun = true ∨ c.code ≠ none))))) = true ∧
    (let s : State := (tSvF 3 []); decide (s.svcUp = true)) = true ∧
    (let c : SvcCmd := (⟨1,0,268,true,some 3,0,0,[],true⟩ : SvcCmd); let k : Nat := 3;
      let s : State := ({ tSvF 3 [] with svc := some ⟨1,0,268,true,some 3,0,0,[],true⟩ }); decide (s.svc = some c) && (
      decide (c.code = some k))) = true ∧
    (let s : State := (tSvF 3 []); decide (s.svc = none)) = true ∧
    (let off : Nat := 0x10; let b : List Byte := [1,2,3]; let s : State := (tSvF 3 []); decide (s.svcUp = true) && (decide (b ≠ []) && (
      decide (off + b.length ≤ 2 ^ 28)))) = true :=
  ⟨by decide, by decide, by decide, by decide, by decide, by decide, by decide, by decide, by decide⟩

/-- States and operands that meet the hypotheses of some clauses of ServiceCommandResults. -/
theorem test_meets_ServiceCommandResults_1 :
    (let t : BitVec 8 := 0; let l : BitVec 32 := 172;
      let s : State := ((((tSvF 4 tC4).setAct (L3C_SEED 0) (L3C_SEED_NWAYS.put 0 1)).setAct (L3C_SEEDP 0 0) (L3C_SEEDP_LEN.put (L3C_SEEDP_PABASE.put 0 1) 1)).setAct (FBK_GRANT 0) 0xC0);
      let p := t.toNat; let g := s.sent 6 p l.toNat [] true;
      let c := ((match (s.sent 6 0 172 [] true).container 4 172 0x100000 with | .ok c => c | .error _ => ⟨0,0,[]⟩));
      let v := (okS (State.copyOut 2 (s.sent 6 0 172 [] true) 0 0x100000 [1,2,3,4]));
      State.copyOut (c.payload.length / 4 + 1) g p c.loadpa c.payload = .ok () v) ∧
    (let t : BitVec 8 := 0; let l : BitVec 32 := 200; let s : State := (tSvc 1 tC1); decide (s.maySend 1 t.toNat) && (
      let g := s.sent 1 t.toNat l.toNat [] true; decide (s.startStep = 1) && (let e := 14; decide (g.container 1 l.toNat 0 = .error e)))) = true ∧
    (let t : BitVec 8 := 0; let l : BitVec 32 := 268; let s : State := (tSvc 1 tC1); decide (s.maySend 1 t.toNat) && (
      let g := s.sent 1 t.toNat l.toNat [] true; decide (s.startStep = 1) && (
      let c := ((match (s.sent 1 0 268 [] true).container 1 268 0 with | .ok c => c | .error _ => ⟨0,0,[]⟩));
      decide (g.container 1 l.toNat 0 = .ok c)))) = true :=
  ⟨hub_ok (by decide +kernel), by decide +kernel, by decide +kernel⟩

/-- States and operands that meet the hypotheses of some clauses of ServiceCommandResults. -/
theorem test_meets_ServiceCommandResults_2 :
    (let t : BitVec 8 := 0; let s : State := (((tSvF 3 tC1).setF FOR_CLAIM FOR_CLAIM_STBY 2)); decide (s.maySend 1 t.toNat) && (
      decide (s.startStep ≠ 1) && (decide (s.getF FOR_CLAIM FOR_CLAIM_STBY ≠ 0 ∨ s.getF FOR_CLAIM FOR_CLAIM_LATCH = 0xFF)))) = true ∧
    (let t : BitVec 8 := 0; let l : BitVec 32 := 200; let s : State := (tSvF 3 tC1); decide (s.maySend 1 t.toNat) && (
      let g := s.sent 1 t.toNat l.toNat [] true; decide (s.startStep ≠ 1) && (decide (s.getF FOR_CLAIM FOR_CLAIM_STBY = 0) && (
      decide (s.getF FOR_CLAIM FOR_CLAIM_LATCH ≠ 0xFF) && (let e := 14; decide (g.container 1 l.toNat 0 = .error e)))))) = true ∧
    (let t : BitVec 8 := 0; let l : BitVec 32 := 268; let s : State := (tSvF 3 tC1); decide (s.maySend 1 t.toNat) && (
      let g := s.sent 1 t.toNat l.toNat [] true; decide (s.startStep ≠ 1) && (decide (s.getF FOR_CLAIM FOR_CLAIM_STBY = 0) && (
      decide (s.getF FOR_CLAIM FOR_CLAIM_LATCH ≠ 0xFF) && (
      let c := ((match (s.sent 1 0 268 [] true).container 1 268 0 with | .ok c => c | .error _ => ⟨0,0,[]⟩));
      decide (g.container 1 l.toNat 0 = .ok c)))))) = true :=
  ⟨by decide +kernel, by decide +kernel, by decide +kernel⟩

/-- States and operands that meet the hypotheses of some clauses of ServiceCommandResults. -/
theorem test_meets_ServiceCommandResults_3 :
    (let t : BitVec 8 := 0; let s : State := (tSvF 3 []); decide (s.maySend 2 t.toNat) && (
      let part := decide ((Tab.get memDefault s.bar2 0xC).toNat % 2 = 1); decide (part = decide (s.startStep = 2)))) = true ∧
    (let t : BitVec 8 := 0; let s : State := ({ tSvF 3 (List.replicate 12 0 ++ [1]) with ldr := some (LoadJob.start false none) });
      decide (s.maySend 2 t.toNat) && (let part := decide ((Tab.get memDefault s.bar2 0xC).toNat % 2 = 1);
      decide (part ≠ decide (s.startStep = 2)) && (decide (s.ldr ≠ none)))) = true ∧
    (let t : BitVec 8 := 0; let s : State := ({ tSvF 3 (List.replicate 12 0 ++ [1]) with fq := [(5, List.replicate 256 ⟨⟨9,5⟩,none⟩)] });
      decide (s.maySend 2 t.toNat) && (let part := decide ((Tab.get memDefault s.bar2 0xC).toNat % 2 = 1);
      decide (part ≠ decide (s.startStep = 2)) && (decide (s.ldr = none) && (decide (s.queueFull 5 = true))))) = true :=
  ⟨by decide +kernel, by decide +kernel, by decide +kernel⟩

/-- States and operands that meet the hypotheses of some clauses of ServiceCommandResults. -/
theorem test_meets_ServiceCommandResults_4 :
    (let t : BitVec 8 := 0; let s : State := (tSvF 3 (List.replicate 12 0 ++ [1])); decide (s.maySend 2 t.toNat) && (
      let part := decide ((Tab.get memDefault s.bar2 0xC).toNat % 2 = 1); decide (part ≠ decide (s.startStep = 2)) && (decide (s.ldr = none) && (
      decide (s.queueFull 5 = false))))) = true ∧
    (let t : BitVec 8 := 0; let l : BitVec 32 := (172 : BitVec 32); let s : State := (tSvF 3 tC3); decide (s.maySend 3 t.toNat) && (let e := t.toNat;
      let g := s.sent 3 e l.toNat [] true; let k := 9; decide (g.container 2 l.toNat 0 = .error k))) = true ∧
    (let t : BitVec 8 := 0; let s : State := (tSvF 3 tC3); decide (s.maySend 4 t.toNat) && (let n := t.toNat;
      decide (s.gldState n ≠ 2 ∨ bitOf s.gladeRst n = false))) = true :=
  ⟨by decide +kernel, by decide +kernel, by decide +kernel⟩

/-- States and operands that meet the hypotheses of some clauses of ServiceCommandResults. -/
theorem test_meets_ServiceCommandResults_5 :
    (let t : BitVec 8 := 0; let l : BitVec 32 := 268; let b : Bool := true;
      let s : State := ({ (tSvF 3 tC1).setF (GLD_STAT 0) GLD_STAT_STATE 2 with gladeRst := 1 }); decide (s.maySend 4 t.toNat) && (let n := t.toNat;
      let g := s.sent 4 n l.toNat [] b; decide (s.gldState n = 2) && (decide (bitOf s.gladeRst n = true) && (let k := 9;
      decide (g.container 3 l.toNat 0 = .error k))))) = true ∧
    (let t : BitVec 8 := 0; let l : BitVec 32 := 172; let b : Bool := false;
      let s : State := ({ (tSvF 3 tC3).setF (GLD_STAT 0) GLD_STAT_STATE 2 with gladeRst := 1 }); decide (s.maySend 4 t.toNat) && (let n := t.toNat;
      let g := s.sent 4 n l.toNat [] b; decide (s.gldState n = 2) && (decide (bitOf s.gladeRst n = true) && (
      let c := ((match (s.sent 4 0 172 [] b).container 3 172 0 with | .ok c => c | .error _ => ⟨0,0,[]⟩));
      decide (g.container 3 l.toNat 0 = .ok c) && (decide (b = false)))))) = true ∧
    (let t : BitVec 8 := 0; let l : BitVec 32 := 172; let b : Bool := true;
      let s : State := ({ (tSvF 3 tC3).setF (GLD_STAT 0) GLD_STAT_STATE 2 with gladeRst := 1 }); decide (s.maySend 4 t.toNat) && (let n := t.toNat;
      let g := s.sent 4 n l.toNat [] b; decide (s.gldState n = 2) && (decide (bitOf s.gladeRst n = true) && (
      let c := ((match (s.sent 4 0 172 [] b).container 3 172 0 with | .ok c => c | .error _ => ⟨0,0,[]⟩));
      decide (g.container 3 l.toNat 0 = .ok c) && (decide (b = true)))))) = true :=
  ⟨by decide +kernel, by decide +kernel, by decide +kernel⟩

/-- States and operands that meet the hypotheses of some clauses of ServiceCommandResults. -/
theorem test_meets_ServiceCommandResults_6 :
    (let t : BitVec 8 := 0; let s : State := (tSvF 3 tC5); decide (s.maySend 5 t.toNat) && (decide (s.getF KST_STAT KST_STAT_EPRDY = 0))) = true ∧
    (let t : BitVec 8 := 0; let l : BitVec 32 := 200; let s : State := ((tSvF 3 tC5).setF KST_STAT KST_STAT_EPRDY 1);
      decide (s.maySend 5 t.toNat) && (let g := s.sent 5 t.toNat l.toNat [] true; decide (s.getF KST_STAT KST_STAT_EPRDY ≠ 0) && (let k := 14;
      decide (g.container 5 l.toNat 0 = .error k)))) = true ∧
    (let t : BitVec 8 := 0; let l : BitVec 32 := 232; let s : State := ((tSvF 3 tC5).setF KST_STAT KST_STAT_EPRDY 1);
      decide (s.maySend 5 t.toNat) && (let g := s.sent 5 t.toNat l.toNat [] true; decide (s.getF KST_STAT KST_STAT_EPRDY ≠ 0) && (
      let c := ((match (s.sent 5 0 232 [] true).container 5 232 0 with | .ok c => c | .error _ => ⟨0,0,[]⟩));
      decide (g.container 5 l.toNat 0 = .ok c)))) = true :=
  ⟨by decide +kernel, by decide +kernel, by decide +kernel⟩

/-- States and operands that meet the hypotheses of some clauses of ServiceCommandResults. -/
theorem test_meets_ServiceCommandResults_7 :
    (let t : BitVec 8 := 0; let s : State := (tSvF 4 tC4); decide (s.maySend 6 t.toNat) && (let p := t.toNat; let r := L3C_SEEDP 0 p;
      let size := s.actF r L3C_SEEDP_LEN * 2 ^ 20;
      decide (s.actF (L3C_SEED 0) L3C_SEED_NWAYS = 0 ∨ s.getF (L3C_SEED 0) L3C_SEED_RELEASED = 1 ∨ size = 0))) = true ∧
    (let t : BitVec 8 := 0; let l : BitVec 32 := 200;
      let s : State := (((tSvF 4 tC4).setAct (L3C_SEED 0) (L3C_SEED_NWAYS.put 0 1)).setAct (L3C_SEEDP 0 0) (L3C_SEEDP_LEN.put (L3C_SEEDP_PABASE.put 0 1) 1));
      decide (s.maySend 6 t.toNat) && (let p := t.toNat; let g := s.sent 6 p l.toNat [] true; let r := L3C_SEEDP 0 p;
      let size := s.actF r L3C_SEEDP_LEN * 2 ^ 20; decide (s.actF (L3C_SEED 0) L3C_SEED_NWAYS ≠ 0) && (
      decide (s.getF (L3C_SEED 0) L3C_SEED_RELEASED ≠ 1) && (decide (size ≠ 0) && (let k := 14;
      decide (g.container 4 l.toNat size = .error k)))))) = true ∧
    (let t : BitVec 8 := 0; let l : BitVec 32 := 172;
      let s : State := (((tSvF 4 tC4).setAct (L3C_SEED 0) (L3C_SEED_NWAYS.put 0 1)).setAct (L3C_SEEDP 0 0) (L3C_SEEDP_LEN.put (L3C_SEEDP_PABASE.put 0 2) 1));
      decide (s.maySend 6 t.toNat) && (let p := t.toNat; let g := s.sent 6 p l.toNat [] true; let r := L3C_SEEDP 0 p;
      let size := s.actF r L3C_SEEDP_LEN * 2 ^ 20; let base := s.actF r L3C_SEEDP_PABASE * 2 ^ 20;
      decide (s.actF (L3C_SEED 0) L3C_SEED_NWAYS ≠ 0) && (decide (s.getF (L3C_SEED 0) L3C_SEED_RELEASED ≠ 1) && (decide (size ≠ 0) && (
      let c := ((match (s.sent 6 0 172 [] true).container 4 172 0x100000 with | .ok c => c | .error _ => ⟨0,0,[]⟩));
      decide (g.container 4 l.toNat size = .ok c) && (decide (c.loadpa < base ∨ base + size < c.loadpa + c.payload.length))))))) = true :=
  ⟨by decide +kernel, by decide +kernel, by decide +kernel⟩

/-- States and operands that meet the hypotheses of some clauses of ServiceCommandResults. -/
theorem test_meets_ServiceCommandResults_8 :
    (let t : BitVec 8 := 0; let l : BitVec 32 := 172;
      let s : State := ((((tSvF 4 tC4).setAct (L3C_SEED 0) (L3C_SEED_NWAYS.put 0 1)).setAct (L3C_SEEDP 0 0) (L3C_SEEDP_LEN.put (L3C_SEEDP_PABASE.put 0 1) 1)).setAct (FBK_GRANT 0) 0xC0);
      decide (s.maySend 6 t.toNat) && (let p := t.toNat; let g := s.sent 6 p l.toNat [] true; let r := L3C_SEEDP 0 p;
      let size := s.actF r L3C_SEEDP_LEN * 2 ^ 20; let base := s.actF r L3C_SEEDP_PABASE * 2 ^ 20;
      decide (s.actF (L3C_SEED 0) L3C_SEED_NWAYS ≠ 0) && (decide (s.getF (L3C_SEED 0) L3C_SEED_RELEASED ≠ 1) && (decide (size ≠ 0) && (
      let c := ((match (s.sent 6 0 172 [] true).container 4 172 0x100000 with | .ok c => c | .error _ => ⟨0,0,[]⟩));
      decide (g.container 4 l.toNat size = .ok c) && (decide (base ≤ c.loadpa) && (decide (c.loadpa + c.payload.length ≤ base + size)))))))) = true ∧
    (let t : BitVec 8 := 0; let s : State := (tSvF 5 []); decide (s.maySend 7 t.toNat) && (let p := t.toNat; decide (bitOf s.mfw p = false))) = true ∧
    (let t : BitVec 8 := 0; let s : State := ({ tSvF 5 [] with mfw := 1, threads := [] }); decide (s.maySend 7 t.toNat) && (let p := t.toNat;
      decide (bitOf s.mfw p = true))) = true :=
  ⟨by decide +kernel, by decide +kernel, by decide +kernel⟩

/-- States and operands that meet the hypotheses of some clauses of ServiceCommandResults. -/
theorem test_meets_ServiceCommandResults_9 :
    (let t : BitVec 8 := 0; let s : State := ((tSvF 5 []).setReg SVP_RADDR 0x0200000000000008); decide (s.maySend 8 t.toNat)) = true ∧
    (let t : BitVec 8 := 0; let s : State := ((tSvF 5 []).setReg SVP_RADDR 0x0200000000000008); decide (s.maySend 9 t.toNat)) = true ∧
    (let t : BitVec 8 := 0x11; let s : State := (tSvF 5 []); decide (s.maySend 10 t.toNat) && (let d := t.toNat; decide (0x10 ≤ d) && (
      decide (d < 0x20) && (decide (s.actF (RTL_CTL (d - 0x10)) RTL_CTL_EN = 0))))) = true :=
  ⟨by decide +kernel, by decide +kernel, by decide +kernel⟩

/-- States and operands that meet the hypotheses of some clauses of ServiceCommandResults. -/
theorem test_meets_ServiceCommandResults_10 :
    (let t : BitVec 8 := 0x23; let s : State := (tSvF 5 []); decide (s.maySend 10 t.toNat) && (let d := t.toNat; decide (0x20 ≤ d) && (
      decide (d < 0x30) && (decide (s.gpEn (d - 0x20) = false))))) = true ∧
    (let t : BitVec 8 := 0; let s : State := ({ tSvF 5 [] with threads := [(0, tThr)] }); decide (s.maySend 10 t.toNat) && (let d := t.toNat;
      decide (d < 4) && (decide (bitOf s.standRst d = false) && (decide ((∀ c ∈ standCores d, s.inTakeover c = false)))))) = true ∧
    (let t : BitVec 8 := 0x10; let s : State := (tIl ((tSvF 5 []).setAct (RTL_CTL 0) (RTL_CTL_EN.put 0 1))); decide (s.maySend 10 t.toNat) && (
      let d := t.toNat; decide (0x10 ≤ d) && (decide (d < 0x20) && (decide (s.actF (RTL_CTL (d - 0x10)) RTL_CTL_EN = 1) && (
      decide (s.inService (d - 0x10) = true)))))) = true :=
  ⟨by decide +kernel, by decide +kernel, by decide +kernel⟩

/-- States and operands that meet the hypotheses of some clauses of ServiceCommandResults. -/
theorem test_meets_ServiceCommandResults_11 :
    (let t : BitVec 8 := 0x20; let s : State := (tGrove (tSvF 5 [])); decide (s.maySend 10 t.toNat) && (let d := t.toNat; decide (0x20 ≤ d) && (
      decide (d < 0x30) && (decide (s.gpEn (d - 0x20) = true) && (decide (s.clocksUp = true)))))) = true ∧
    (let t : BitVec 8 := 0x30; let s : State := ({ tSvF 5 [] with gladeRst := 0 }); decide (s.maySend 10 t.toNat) && (let d := t.toNat;
      decide (0x30 ≤ d))) = true :=
  ⟨by decide +kernel, by decide +kernel⟩

/-- States and operands that meet the hypotheses of some clauses of LoaderResults. -/
theorem test_meets_LoaderResults_1 :
    (let s : State := tQuiet; decide (s.ldr = none) && (decide (s.queueFull 5 = false))) = true ∧
    (let s : State := ({ tQuiet with ldr := some (tJob 352) }); decide (s.ldr ≠ none ∨ s.queueFull 5 = true)) = true ∧
    (let s : State := ({ tQuiet with ldr := some { tJob 352 with verified := true } }); let j : LoadJob := ({ tJob 352 with verified := true });
      decide (s.ldr = some j) && (decide (j.groups = []) && (decide (s.clrs = [])))) = true ∧
    (let b : BitVec 8 := 0x0A; let i : BitVec 8 := 0; let s : State := tQuiet; decide (holdsRws b.toNat i.toNat = true) && (
      decide (s.queueFull 5 = false))) = true ∧
    (let b : BitVec 8 := 0x0A; let i : BitVec 8 := 7; let s : State := tQuiet;
      decide (holdsRws b.toNat i.toNat = false ∨ s.queueFull 5 = true)) = true ∧
    (let o : BitVec 4 := 9; decide (o ≠ 1) && (decide (o ≠ 2))) = true ∧
    (let s : State := tQuiet; decide (s.ldr = none)) = true ∧
    (let s : State := ({ tSvF 5 [] with ldr := some (tJob 352) }); let j : LoadJob := (tJob 352); decide (s.ldr = some j) && (
      decide (j.verified = false) && (let e := (⟨1,0⟩ : Rej); decide (s.verifyImage j.len = .error e)))) = true :=
  ⟨by decide +kernel, by decide +kernel, by decide +kernel, by decide +kernel, by decide +kernel, by decide +kernel, by decide +kernel, by decide +kernel⟩

/-- States and operands that meet the hypotheses of some clauses of LoaderResults. -/
theorem test_meets_LoaderResults_2 :
    (let c : ClrJob := (⟨1,0,true,false⟩ : ClrJob); let s : State := ({ tQuiet with clrs := [⟨1,0,true,false⟩], tkos := [tTko] });
      decide (s.loaderIdle) && (decide (s.ldr = none) && (decide (s.clrs = [c]) && (decide (c.started = true) && (decide (c.commit = false) && (
      decide (c.block = 0x01) && (decide (c.inst < 72) && (decide (s.inTakeover c.inst = true))))))))) = true ∧
    (let c : ClrJob := (⟨1,0,true,false⟩ : ClrJob); let s : State := ({ tQuiet with clrs := [⟨1,0,true,false⟩] }); decide (s.loaderIdle) && (
      decide (s.ldr = none) && (decide (s.clrs = [c]) && (decide (c.started = true) && (decide (c.commit = false) && (decide (c.block = 0x01) && (
      decide (c.inst < 72) && (decide (s.inTakeover c.inst = false) && (decide (s.parkedInst 0x01 c.inst = false) && (
      decide (s.unmet [(0x01, c.inst)] = none))))))))))) = true ∧
    (let c : ClrJob := (⟨0x0A,0,true,false⟩ : ClrJob); let r : Reg := HOM_MIRROR;
      let s : State := ({ ((tQuiet.setReg (HOM_IL 0) 0).setAct HOM_MIRROR 1).setF (HOM_MSTAT 0) HOM_MSTAT_STATE 3 with clrs := [⟨0x0A,0,true,false⟩] });
      decide (s.loaderIdle) && (decide (s.ldr = none) && (decide (s.clrs = [c]) && (decide (c.started = true) && (decide (c.commit = false) && (
      decide (c.block = 0x0A) && (decide (c.inst = 0) && (decide (s.parkedInst 0x0A 0 = false) && (
      decide (s.unmet [(0x0A, 0)] = some r)))))))))) = true ∧
    (let b : Nat := 0x0A; let i : Nat := 0; let j : LoadJob := tGoing; let s : State := ({ tQuiet with ldr := some tGoing });
      decide (s.loaderIdle) && (decide (s.ldr = some j) && (decide (j.going = true) && (decide (j.commit = false) && (decide ((b, i) ∈ j.live) && (
      decide ((b, i) ∉ j.ready))))))) = true ∧
    (let c : ClrJob := (⟨0x0A,0,true,true⟩ : ClrJob); let s : State := ({ tQuiet with clrs := [⟨0x0A,0,true,true⟩] }); decide (s.loaderIdle) && (
      decide (s.ldr = none) && (decide (s.clrs = [c]) && (decide (c.commit = true))))) = true ∧
    (let j : LoadJob := ({ tGoing with commit := true }); let g : Nat := 1;
      let s : State := ({ tQuiet with ldr := some { tGoing with commit := true } }); decide (s.loaderIdle) && (decide (s.ldr = some j) && (
      decide (j.commit = true) && (decide (j.groups = [g]) && (decide (s.clrs = [])))))) = true ∧
    (let j : LoadJob := tGoing; let g : Nat := 1; let gs : List Nat := ([] : List Nat); let s : State := ({ tQuiet with ldr := some tGoing });
      decide (s.loaderIdle) && (decide (s.ldr = some j) && (decide (j.going = true) && (decide (j.commit = false) && (decide (j.groups = g :: gs) && (
      decide (s.clrs = []) && (decide ((∀ m ∈ j.live, m.2 < 256)) && (decide ((∃ m ∈ j.live, m ∉ j.ready ∧ s.overdue m = true)))))))))) = true ∧
    (let j : LoadJob := tGoing1; let g : Nat := 1; let gs : List Nat := ([] : List Nat); let s : State := tTaken; decide (s.loaderIdle) && (
      decide (s.ldr = some j) && (decide (j.going = true) && (decide (j.commit = false) && (decide (j.groups = g :: gs) && (decide (s.clrs = []) && (
      decide ((∀ m ∈ j.live, m.2 < 256)) && (decide ((∀ m ∈ j.live, m ∉ j.ready → s.overdue m = false)))))))))) = true :=
  ⟨by decide +kernel, by decide +kernel, by decide +kernel, by decide +kernel, by decide +kernel, by decide +kernel, by decide +kernel, by decide +kernel⟩

/-- States and operands that meet the hypotheses of some clauses of LoaderResults. -/
theorem test_meets_LoaderResults_3 :
    (let c : ClrJob := (⟨0x0A,0,true,false⟩ : ClrJob); let s : State := ({ tQuiet with clrs := [⟨0x0A,0,true,false⟩] }); decide (s.loaderIdle) && (
      decide (s.ldr = none) && (decide (s.clrs = [c]) && (decide (c.started = true) && (decide (c.commit = false) && (
      decide (s.overdue (c.block, c.inst) = true))))))) = true :=
  by decide +kernel

/-- States and operands that meet the hypotheses of clauses of RegisterResults. -/
theorem test_meets_RegisterResults :
    (let b : Nat := 0x0A; let i : Nat := 0; let off : Nat := 0xF00; let size : Nat := 8; let s : State := (tSvF 5 []); decide (b ∈ plainBlocks) && (
      decide (i < blockCount b) && (decide (s.domainUp b i = true) && (let r : Reg := ⟨b, i, off / 8 * 8⟩;
      decide ((size = 8 ∧ off % 8 = 0) ∨ (size = 4 ∧ off % 4 = 0)) && (decide (r.spec? = none)))))) = true ∧
    (let b : Nat := 0x0A; let i : Nat := 0; let off : Nat := 0x104; let size : Nat := 4; let s : State := (tSvF 5 []); decide (b ∈ plainBlocks) && (
      decide (i < blockCount b) && (decide (s.domainUp b i = true) && (let r : Reg := ⟨b, i, off / 8 * 8⟩;
      decide ((size = 8 ∧ off % 8 = 0) ∨ (size = 4 ∧ off % 4 = 0)) && (let sp := (((HOM_IL 0).spec?).getD ⟨"",0,0,0,0,[]⟩);
      decide (r.spec? = some sp) && (decide (s.inCommit b i = false))))))) = true ∧
    (let b : Nat := 0x0A; let i : Nat := 0; let off : Nat := 0x104; let size : Nat := 4;
      let s : State := ({ tSvF 5 [] with clrs := [⟨0x0A,0,true,true⟩] }); decide (b ∈ plainBlocks) && (decide (i < blockCount b) && (
      decide (s.domainUp b i = true) && (let r : Reg := ⟨b, i, off / 8 * 8⟩; decide ((size = 8 ∧ off % 8 = 0) ∨ (size = 4 ∧ off % 4 = 0)) && (
      let sp := (((HOM_IL 0).spec?).getD ⟨"",0,0,0,0,[]⟩); decide (r.spec? = some sp) && (decide (s.inCommit b i = true))))))) = true ∧
    (let b : Nat := 0x0A; let i : Nat := 0; let off : Nat := 0x102; let size : Nat := 4; let s : State := (tSvF 5 []); decide (b ∈ plainBlocks) && (
      decide (i < blockCount b) && (decide (s.domainUp b i = true) && (decide (¬ ((size = 8 ∧ off % 8 = 0) ∨ (size = 4 ∧ off % 4 = 0))))))) = true ∧
    (let b : Nat := 0x0A; let i : Nat := 0; let off : Nat := 0x104; let size : Nat := 4; let s : State := (tSvF 5 []); decide (b ∈ plainBlocks) && (
      decide (i < blockCount b) && (decide (s.domainUp b i = true) && (let r : Reg := ⟨b, i, off / 8 * 8⟩;
      decide ((size = 8 ∧ off % 8 = 0) ∨ (size = 4 ∧ off % 4 = 0)) && (let sp := (((HOM_IL 0).spec?).getD ⟨"",0,0,0,0,[]⟩);
      decide (r.spec? = some sp) && (decide (b ≠ 0x02))))))) = true ∧
    (let b : Nat := 0x0A; let i : Nat := 0; let s : State := (tSvF 5 []); decide (b ≠ 0x16) && (decide (i < blockCount b) && (
      decide (s.domainUp b i = true)))) = true ∧
    (let b : Nat := 1; let i : Nat := 0; let s : State := ({ tSvF 5 [] with standRst := 15 }); decide (b ≠ 0x16) && (decide (i < blockCount b) && (
      decide (s.domainUp b i = false)))) = true ∧
    (let s : State := (tSvF 5 []); decide (s.domainUp 0x07 0 = true)) = true :=
  ⟨by decide, by decide, by decide, by decide, by decide, by decide, by decide, by decide⟩

/-- States and operands that meet the hypotheses of clauses of EncodeThenDecode. -/
theorem test_meets_EncodeThenDecode :
    (let i : Instr := (.addi 0 5 5 1); let t : Thr := 0; let w : Nat := 0x08A50001; decide (aisWord i = some (t, w)) && (
      decide (legalWord w = true))) = true ∧
    (let w : BitVec 32 := 0x8CA40000; decide (legalWord w.toNat = true)) = true ∧
    (let w : BitVec 32 := 0xFFFFFFFF; decide (legalWord w.toNat = false)) = true :=
  ⟨by decide, by decide, by decide⟩

/-- A state in canonical form from which a step answers. -/
theorem test_meets_MemoryKeepsItsForm : memWf State.reset.mem = true ∧ step State.reset = .next State.reset.tick := ⟨by decide, rfl⟩

/-! The well-formedness checks: each refuses an ill-formed command. -/

theorem test_wf_window_bounds :
    (Instr.registerWrite .config 256 0 0 8 0).wf = false ∧ (Instr.registerWrite .config 1 256 0 8 0).wf = false ∧
    (Instr.registerWrite .config 1 0 (2 ^ 32) 8 0).wf = false ∧ (Instr.registerWrite .config 1 0 0 3 0).wf = false ∧
    (Instr.rcFieldRead .config 256 0 0 8).wf = false ∧ (Instr.rcFieldRead .config 1 0 0 5).wf = false := by decide

theorem test_wf_unclocked : (Instr.unclockedAccessComplete .config 256 0 0 false).wf = false := by decide

theorem test_wf_bar2 : (Instr.bar2Write (2 ^ 28) [0]).wf = false ∧ (Instr.bar2Write (2 ^ 28 - 1) [0]).wf = true := by decide

theorem test_wf_cxl :
    (Instr.cxlReadResponse 0 1 default).wf = false ∧ (Instr.cxlWriteCompletion 0 (2 ^ 41)).wf = false ∧
    (Instr.mtmoExpire 0 128 default).wf = false ∧ (Instr.cxlWriteCompletion 0 256).wf = true := by decide

theorem test_wf_lengths :
    (Instr.inboundWrite 0 0 0 (List.replicate 4097 0)).wf = false ∧ (Instr.inboundRead 0 0 0 4097).wf = false ∧
    (Instr.i3cPrivateWrite (List.replicate 257 0)).wf = false ∧ (Instr.i3cPrivateRead 257).wf = false := by decide +kernel

/-! Instruction words, written out from the encodings of 04_cores.md and 06_arithmetic.md (their worked examples give the same words). -/

theorem test_decode_atomic_increment :
    aisOf 0 0x8CA40000 = some (.lrsv 0 5 4) ∧ aisOf 0 0x08A50001 = some (.addi 0 5 5 1) ∧
    aisOf 0 0x8CC42801 = some (.stcd 0 6 4 5) ∧ aisOf 0 0xA4C0FFFD = some (.bne 0 6 0 0xFFFD) ∧
    aisOf 0 0x8CA40804 = some (.aadd 0 5 4 1) := by decide

theorem test_decode_dadd : aisOf 0 0xD94B6188 = some (.dadd 0 12 10 11 3 1) := by decide

theorem test_decode_refuses_reserved : aisOf 0 0xFFFFFFFF = none ∧ aisOf 0 0 = none := by decide

theorem test_table_word : decodeTableWord 32 0x8CA40000 = none ∧ (tRun.withFetchWord 32 5) = tRun := by decide

/-! CRC-32C (R76): the check value of the standard, for the string 123456789. -/

theorem test_crc32c_check : crc32c [0x31, 0x32, 0x33, 0x34, 0x35, 0x36, 0x37, 0x38, 0x39] = 0xE3069283 := by decide +kernel

/-! SHA-384 of the string abc, the value of FIPS 180-4's example. -/

theorem test_sha384_abc : fromBe (sha384 [0x61, 0x62, 0x63]) =
    0xcb00753f45a35e8bb5a03d699ac65007272c32ab0eded1631a8b605a43ff5bed8086072ba1e7cc2358baeca134c825a7 := by decide +kernel

/-! P-384: twice the base point, and the order of the base point (FIPS 186-5). -/

theorem test_p384_double : ecPublic 2 = some
    (0x08d999057ba3d2d969260045c55b97f089025959a6f434d651d207d19fb96e9e4fe0e86ebe0e64f85b96a9c75295df61,
     0x8e80f1fa5b1b3cedb7bfe8dffd6dba74b275d875bc6cc43e904e505f256ab4255ffd43e94d39e22d61501e700a940e80) := by decide +kernel

theorem test_p384_order : ecPublic p384N = none ∧ ecPublic (p384N + 1) = some p384G := by decide +kernel

/-! AES-128, the example of FIPS 197. -/

theorem test_aes :
    fromBe (aesEnc (aesKeys (beBytes 16 0x000102030405060708090a0b0c0d0e0f)) (beBytes 16 0x00112233445566778899aabbccddeeff)) =
      0x69c4e0d86a7b0430d8cdb78070b4c55a := by decide +kernel

/-! The decimal worked example of 06_arithmetic.md. -/

theorem test_decimal_add : decAdd false [0x01, 0x23, 0x45, 0x6C] [0x98, 0x7D] = (2, [0x01, 0x22, 0x46, 0x9C]) := by decide

theorem test_decimal_overflow : decAdd false [0x99, 0x9C] [0x00, 0x1C] = (3, [0x00, 0x0C]) := by decide

theorem test_decimal_compare_zeros : decCmp [0x00, 0x0D] [0x00, 0x0C] = 0 := by decide

theorem test_decimal_invalid : decInvalid [0x1A, 0x3C] none = some 4 := by decide

/-! The worked example of 07_translation.md: words A and B of the entry, its set, and the address it gives. -/

theorem test_tlb_words : (tlbEntOf 0x0042003F891A2B3A 0x00000002456001AF).map
    (fun e => (e.size, e.set, e.tag, e.paOf 0x00007F1234567ABC, e.wr, e.d)) = some (2, 0x1A2, 0x42, 0x0000000245767ABC, true, true) := by decide

/-! Placing a line: the worked example of 09_caches.md. -/

theorem test_line_place : lineOf 0x0005012345678900 = 0x50123456789 ∧ l1Set 0x50123456789 = 9 ∧ l2Set 0x50123456789 = 415 ∧
    l3Slice 0x50123456789 = 26 ∧ l3Set 0x50123456789 = 229 ∧ homeOf 0x0005012345678900 = 5 := by decide

/-- The two interleave sets of the worked example of 11_memory.md, beside R271. -/
def tSets : State :=
  ((((State.reset.setAct (HOM_IL 0)
      (HOM_IL_EN.put (HOM_IL_NLINK.put (HOM_IL_SIZE.put 0 16384) 8) 1)).setAct (HOM_ILMAP 0) 0xD951C840).setAct (HOM_IL 1)
      (HOM_IL_EN.put (HOM_IL_GRAN.put (HOM_IL_NLINK.put (HOM_IL_SIZE.put (HOM_IL_BASE.put 0 16384) 8192) 4) 1) 1)).setAct (HOM_ILMAP 1) 0xEA62)

theorem test_memory_place : tSets.place 0x0005012345678900 = some (4, 0x0000002468ACF100) ∧
    tSets.place 0x0005100000015300 = some (6, 0x5300) := by decide

/-! The device addresses of the worked example of 20_address_map.md. -/

theorem test_device_targets : (paDst 0x000B00000190A000).target = some 144 ∧ paModule 0x000B00000190A000 = 3 ∧
    (paDst 0x00088A0000000000).target = some 170 := by decide

/-! One-step tests: results worked out by hand from the rule named. -/

/-- The state a command leaves, reset where it does not complete. -/
def after (i : Instr) (s : State) : State := match exec i s with | .next u => u | _ => State.reset

/-- ADDI wraps (R133) and the pc goes on by 4. -/
theorem test_addi_wraps :
    let u := (after (.addi 0 1 1 0xFFFF) (tRunOf { tThr with g := [(1, 0)] })).thr 0
    u.gr 1 = 0xFFFFFFFFFFFFFFFF ∧ u.pc = 0x1004 := by decide

/-- A write of g0 is discarded (R69). -/
theorem test_g0_discards : ((after (.addi 0 0 1 5) tRun).thr 0).gr 0 = 0 := by decide

/-- BNE by −3 words (the worked example of 04_cores.md). -/
theorem test_bne_back : ((after (.bne 0 1 0 0xFFFD) tRun).thr 0).pc = 0xFF4 := by decide

/-- JALR with rd = ra jumps to the value ra held before (R84). -/
theorem test_jalr_same_register :
    let u := (after (.jalr 0 1 1) tRun).thr 0
    u.pc = 0x2000 ∧ u.gr 1 = 0x1004 := by decide

/-- LD reads the bytes of its line, little-endian (R79, R80). -/
theorem test_ld : ((after (.ld 0 3 1 0) tRun).thr 0).gr 3 = 0x8877665544332211 := by decide

/-- LB sign-extends (R80). -/
theorem test_lb : ((after (.lb 0 3 1 7) tRun).thr 0).gr 3 = 0xFFFFFFFFFFFFFF88 := by decide

/-- A store enters the store buffer; memory is as before until it becomes visible (R177). -/
theorem test_sd_buffers :
    let u := after (.sd 0 2 1 8) tRun
    ((u.thr 0).sb.length = 1) ∧ u.line 32 = tRun.line 32 := by decide

/-- The first unit of an MVL ends where the first operand reaches a multiple of 256 (R86): 128 bytes, the pc kept. -/
theorem test_mvl_unit :
    let u := (after (.mvl 0 8 12) (tRunOf { tThr with g := [(8, 0x2080), (9, 0x100), (12, 0x2000)] })).thr 0
    u.gr 8 = 0x2100 ∧ u.gr 9 = 0x80 ∧ u.gr 12 = 0x2080 ∧ u.pc = 0x1000 := by decide

/-- The empty queue is one tick (log entry 6). -/
theorem test_idle_is_tick : step tRun = .next tRun.tick := by rfl

/-- Power-up: STEP 0, no thread runs, the queue is empty (R63). -/
theorem test_reset : State.reset.startStep = 0 ∧ State.reset.pending = [] ∧ (State.reset.thr 0).run ≠ .running := by decide

end Sys2Proof.Tests
end

section
/-! SUPPORT. Registers by access code (R6, R8): which field of a catalogue row holds a bit, what the masks of a row cover, and what a write or a read leaves in each bit. -/

namespace Sys2Proof.Machine

/-! The fields of a catalogue row. -/

/-- The bit lies in the field. -/
def FieldSpec.holds (f : FieldSpec) (k : Nat) : Bool := decide (f.lsb ≤ k) && decide (k < f.lsb + f.width)

/-- No bit lies in both fields. -/
def FieldSpec.apart (f g : FieldSpec) : Bool := decide (f.lsb + f.width ≤ g.lsb) || decide (g.lsb + g.width ≤ f.lsb)

/-- The field of a row that holds a bit. -/
def RegSpec.fieldAt (sp : RegSpec) (k : Nat) : Option FieldSpec := sp.fields.find? (·.holds k)

/-- The fields of a row share no bit. -/
def RegSpec.fieldsApart (sp : RegSpec) : Prop := sp.fields.Pairwise fun f g => f.apart g = true

theorem RegSpec.accAt_eq_map_fieldAt (sp : RegSpec) (k : Nat) : sp.accAt k = (sp.fieldAt k).map (·.acc) := rfl

theorem RegSpec.holds_of_fieldAt {sp : RegSpec} {k : Nat} {f : FieldSpec} (h : sp.fieldAt k = some f) : f.holds k = true :=
  List.find?_some (p := fun f : FieldSpec => f.holds k) h

theorem FieldSpec.not_holds_of_apart {f g : FieldSpec} {k : Nat} (h : f.apart g = true) (hf : f.holds k = true) :
    g.holds k = false := by
  simp only [apart, holds, Bool.or_eq_true, Bool.and_eq_true, decide_eq_true_eq, Bool.and_eq_false_iff,
    decide_eq_false_iff_not] at *
  omega

/-- Every row of the blocks without effects of their own has fields that share no bit. -/
theorem fieldsApart_of_plain {r : Reg} {sp : RegSpec} (hb : r.block ∈ plainBlocks) (h : r.spec? = some sp) :
    sp.fieldsApart := by
  have rows : ∀ b ∈ plainBlocks, ∀ e ∈ regCatalogue b, e.fields.Pairwise fun f g => f.apart g = true := by decide
  unfold Reg.spec? at h
  split at h
  · exact rows _ hb _ (List.mem_of_find?_eq_some h)
  · cases h

/-- Where fields share no bit, some field with a property holds the bit exactly if the field found there has it. -/
theorem any_holds_eq_find? (l : List FieldSpec) (p : FieldSpec → Bool) (k : Nat)
    (h : l.Pairwise fun f g => f.apart g = true) :
    (l.any fun f => p f && f.holds k) = (l.find? (·.holds k)).any p := by
  induction l with
  | nil => rfl
  | cons f l ih =>
    obtain ⟨hf, hl⟩ := List.pairwise_cons.mp h
    cases hk : f.holds k with
    | false => simp [hk, ih hl]
    | true =>
      have others : ∀ g ∈ l, g.holds k = false := fun g hg => FieldSpec.not_holds_of_apart (hf g hg) hk
      have : (l.any fun g => p g && g.holds k) = false := by
        simp only [List.any_eq_false]
        exact fun g hg => by simp [others g hg]
      simp [hk, this]

/-! Masks. -/

theorem FieldSpec.getLsbD_mask (f : FieldSpec) {k : Nat} (hk : k < 64) : f.fld.mask.getLsbD k = f.holds k := by
  have := f.fld.testBit_mask k
  rw [BitVec.testBit_toNat] at this
  rw [this, decide_eq_true hk, Bool.true_and]
  rfl

/-- A bit of the union of the masks of the fields with a property. -/
theorem getLsbD_foldl_mask (p : FieldSpec → Prop) [DecidablePred p] {k : Nat} (hk : k < 64) (l : List FieldSpec) :
    ∀ m : Word, (l.foldl (fun m f => if p f then m ||| f.fld.mask else m) m).getLsbD k =
      (m.getLsbD k || l.any fun f => decide (p f) && f.holds k) := by
  induction l with
  | nil => simp
  | cons f l ih =>
    intro m
    rw [List.foldl_cons, ih]
    by_cases hp : p f <;> simp [hp, FieldSpec.getLsbD_mask f hk, Bool.or_assoc]

/-- The mask of some access codes covers the bits whose field has one of them. -/
theorem RegSpec.getLsbD_maskOf {sp : RegSpec} (h : sp.fieldsApart) (accs : List Acc) {k : Nat} (hk : k < 64) :
    (sp.maskOf accs).getLsbD k = (sp.accAt k).any (decide <| · ∈ accs) := by
  rw [maskOf, getLsbD_foldl_mask _ hk, any_holds_eq_find? _ _ _ h, accAt_eq_map_fieldAt, fieldAt, Option.any_map]
  simp

/-- The rc fields that a read under a mask returns whole. -/
def RegSpec.rcMask (sp : RegSpec) (mask : Word) : Word :=
  sp.fields.foldl (fun m f => if f.acc = .rc ∧ f.fld.mask &&& mask = f.fld.mask then m ||| f.fld.mask else m) 0

/-- Only bits of rc fields within the mask are cleared by a read. -/
theorem RegSpec.getLsbD_rcMask_eq_false {sp : RegSpec} (h : sp.fieldsApart) {mask : Word} {k : Nat} (hk : k < 64)
    (hout : sp.accAt k ≠ some .rc ∨ mask.getLsbD k = false) : (sp.rcMask mask).getLsbD k = false := by
  rw [rcMask, getLsbD_foldl_mask _ hk, any_holds_eq_find? _ _ _ h, ← fieldAt]
  rw [accAt_eq_map_fieldAt] at hout
  cases hf : sp.fieldAt k with
  | none => simp
  | some f =>
    have hold := RegSpec.holds_of_fieldAt hf
    have whole : f.fld.mask &&& mask = f.fld.mask → mask.getLsbD k = true := fun e => by
      have := congrArg (·.getLsbD k) e
      simpa [FieldSpec.getLsbD_mask f hk, hold] using this
    rcases hout with hacc | hm
    · have : f.acc ≠ .rc := by simpa [hf] using hacc
      simp [this]
    · have : ¬ f.fld.mask &&& mask = f.fld.mask := fun e => by simp [whole e] at hm
      simp [this]

/-- Every bit of an rc field that a read returns whole is cleared. -/
theorem RegSpec.getLsbD_rcMask_eq_true {sp : RegSpec} {mask : Word} {f : FieldSpec} (hf : f ∈ sp.fields) (hrc : f.acc = .rc)
    (hcov : ∀ k, k < 64 → f.holds k = true → mask.getLsbD k = true) {k : Nat} (hk : k < 64) (hold : f.holds k = true) :
    (sp.rcMask mask).getLsbD k = true := by
  have whole : f.fld.mask &&& mask = f.fld.mask := by
    apply BitVec.eq_of_getLsbD_eq
    intro i hi
    rw [BitVec.getLsbD_and, FieldSpec.getLsbD_mask f hi]
    cases hh : f.holds i with
    | false => rfl
    | true => simp [hcov i hi hh]
  rw [rcMask, getLsbD_foldl_mask _ hk]
  simp only [BitVec.ofNat_eq_ofNat, BitVec.getLsbD_zero, Bool.false_or, List.any_eq_true]
  exact ⟨f, hf, by simp [hrc, whole, hold]⟩

/-! Sizes and halves (R6). -/

theorem accOk_iff (off size : Nat) : accOk off size = true ↔ (size = 8 ∧ off % 8 = 0) ∨ (size = 4 ∧ off % 4 = 0) := by
  simp [accOk]

/-- An access of an allowed size covers the bits of its mask. -/
theorem getLsbD_accMask {off size k : Nat} (h : accOk off size = true) (hk : k < 64) :
    (accMask off size).getLsbD k = accessCovers off size k := by
  have upper : ∀ i < 64, (0xFFFFFFFF00000000#64).getLsbD i = decide (i / 32 = 1) := by decide
  have lower : ∀ i < 64, (0x00000000FFFFFFFF#64).getLsbD i = decide (i / 32 = 0) := by decide
  rcases (accOk_iff off size).mp h with ⟨rfl, -⟩ | ⟨rfl, ho⟩
  · simp only [accMask, if_pos, BitVec.getLsbD_allOnes, accessCovers, hk, decide_true, beq_self_eq_true, Bool.true_or]
  · by_cases hu : off % 8 = 4
    · have : off / 4 % 2 = 1 := by omega
      simp [accMask, accessCovers, hu, this, upper k hk]
    · have : off / 4 % 2 = 0 := by omega
      simp [accMask, accessCovers, hu, this, lower k hk]

/-- The bits a read returns: those of its half, moved down. -/
theorem getLsbD_readPart {off size k : Nat} (h : accOk off size = true) (hk : k < 64) (w : Word) :
    (readPart off size w).getLsbD k = (decide (k < 8 * size) && w.getLsbD (k + off % 8 * 8)) := by
  have lower : ∀ i < 64, (0xFFFFFFFF#64).getLsbD i = decide (i < 32) := by decide
  rcases (accOk_iff off size).mp h with ⟨rfl, ho⟩ | ⟨rfl, ho⟩
  · simp [readPart, ho, hk]
  · by_cases hu : off % 8 = 4
    · rw [readPart, if_neg (by decide), if_pos hu, BitVec.getLsbD_ushiftRight, hu, Nat.add_comm]
      by_cases h32 : k < 32
      · simp [h32]
      · simp [h32, BitVec.getLsbD_of_ge w (k + 32) (by omega)]
    · have : off % 8 = 0 := by omega
      simp [readPart, this, lower k hk, Bool.and_comm]

/-! A write by access code (R8). -/

/-- What a write leaves in a bit that it covers, by the bit's access code; `held` while its group commits (R8, R10). -/
def bitAfter (acc : Option Acc) (held old v : Bool) : Bool :=
  match acc with
  | some .rw | some .rwl => v
  | some .rws => if held then old else v
  | some .w1c => old && !v
  | _ => old

theorem getLsbD_writeWord {sp : RegSpec} (h : sp.fieldsApart) (old v mask : Word) (held : Bool) {k : Nat} (hk : k < 64) :
    (writeWord sp old v mask held).getLsbD k =
      if mask.getLsbD k = false then old.getLsbD k else bitAfter (sp.accAt k) held (old.getLsbD k) (v.getLsbD k) := by
  simp only [writeWord, BitVec.getLsbD_and, BitVec.getLsbD_or, BitVec.getLsbD_not, hk, decide_true, Bool.true_and,
    RegSpec.getLsbD_maskOf h _ hk]
  cases mask.getLsbD k with
  | false => simp
  | true =>
    cases sp.accAt k with
    | none => simp [bitAfter]
    | some a => cases a <;> cases held <;> simp [bitAfter]

end Sys2Proof.Machine
end

section
/-! SUPPORT. What an access to a register window comes to: refused, of a reserved offset, or by access code (R6 to R8, R10). -/

namespace Sys2Proof.Machine

/-! What access by code leaves of the state. -/

/-- The write that is held while its group commits: the rw-s bits of the mask, if any (R10). -/
def State.heldBy (s : State) (r : Reg) (sp : RegSpec) (v mask : Word) : List (Nat × Word × Word) :=
  if s.inCommit r.block r.inst && mask &&& sp.maskOf [.rws] != 0 then [(r.key, mask &&& sp.maskOf [.rws], v)] else []

theorem State.writeCodes_of_reserved (s : State) {r : Reg} (v mask : Word) (h : r.spec? = none) : s.writeCodes r v mask = s := by
  simp [writeCodes, h]

/-- A write by access code: one register and the list of held writes. -/
theorem State.writeCodes_eq (s : State) {r : Reg} {sp : RegSpec} (v mask : Word) (h : r.spec? = some sp) :
    s.writeCodes r v mask = State.setReg { s with heldW := s.heldW ++ s.heldBy r sp v mask } r
      (writeWord sp (s.reg r) v mask (s.inCommit r.block r.inst)) := by
  simp only [writeCodes, h, heldBy]
  cases s.inCommit r.block r.inst && mask &&& sp.maskOf [.rws] != 0 with
  | true => rfl
  | false => simp only [Bool.false_eq_true, if_false, List.append_nil]

section
variable (s : State) {r : Reg} {sp : RegSpec} (v mask : Word) (h : r.spec? = some sp)
include h

theorem State.reg_writeCodes_self :
    (s.writeCodes r v mask).reg r = writeWord sp (s.reg r) v mask (s.inCommit r.block r.inst) := by
  rw [s.writeCodes_eq v mask h, State.reg_setReg_self]

theorem State.reg_writeCodes_ne {q : Reg} (hq : q.key ≠ r.key) : (s.writeCodes r v mask).reg q = s.reg q := by
  rw [s.writeCodes_eq v mask h, State.reg_setReg_ne _ _ hq]
  rfl

theorem State.heldW_writeCodes : (s.writeCodes r v mask).heldW = s.heldW ++ s.heldBy r sp v mask := by
  rw [s.writeCodes_eq v mask h, State.setReg_heldW]

/-- A write by access code changes neither active values, threads, memory nor the Canopy. -/
theorem State.writeCodes_frame : (s.writeCodes r v mask).active = s.active ∧ (s.writeCodes r v mask).threads = s.threads ∧
    (s.writeCodes r v mask).mem = s.mem ∧ (s.writeCodes r v mask).canopy = s.canopy := by
  rw [s.writeCodes_eq v mask h]
  simp

end

theorem State.clearRc_of_reserved (s : State) {r : Reg} (mask : Word) (h : r.spec? = none) : s.clearRc r mask = s := by
  simp [clearRc, h]

/-- What a read clears: the rc fields it returned whole. -/
theorem State.clearRc_eq (s : State) {r : Reg} {sp : RegSpec} (mask : Word) (h : r.spec? = some sp) :
    s.clearRc r mask = if sp.rcMask mask = 0 then s else s.setReg r (s.reg r &&& ~~~ sp.rcMask mask) := by
  simp only [clearRc, h]
  rfl

section
variable (s : State) {r : Reg} {sp : RegSpec} (mask : Word) (h : r.spec? = some sp)
include h

theorem State.reg_clearRc_self : (s.clearRc r mask).reg r = s.reg r &&& ~~~ sp.rcMask mask := by
  rw [s.clearRc_eq mask h]
  split
  · rename_i h0
    rw [h0, BitVec.ofNat_eq_ofNat, BitVec.not_zero, BitVec.and_allOnes]
  · rw [State.reg_setReg_self]

theorem State.reg_clearRc_ne {q : Reg} (hq : q.key ≠ r.key) : (s.clearRc r mask).reg q = s.reg q := by
  rw [s.clearRc_eq mask h]
  split
  · rfl
  · rw [State.reg_setReg_ne _ _ hq]

theorem State.clearRc_frame : (s.clearRc r mask).active = s.active ∧ (s.clearRc r mask).threads = s.threads := by
  rw [s.clearRc_eq mask h]
  split <;> simp

end

theorem visible_of_reserved {r : Reg} (w : Word) (h : r.spec? = none) : visible r w = 0 := by
  simp [visible, h]

/-- A read returns wo bits as zero. -/
theorem getLsbD_visible {r : Reg} {sp : RegSpec} (h : r.spec? = some sp) (ha : sp.fieldsApart) (w : Word) (k : Nat) :
    (visible r w).getLsbD k = (w.getLsbD k && decide (sp.accAt k ≠ some .wo)) := by
  by_cases hk : k < 64
  · simp only [visible, h, BitVec.getLsbD_and, BitVec.getLsbD_not, RegSpec.getLsbD_maskOf ha _ hk, hk, decide_true, Bool.true_and]
    cases sp.accAt k <;> simp
  · simp [BitVec.getLsbD_of_ge _ k (Nat.le_of_not_lt hk)]

/-! The configuration bus (R18). -/

section
variable {s : State} {b i : Nat} (hi : i < blockCount b) (hb : b ≠ 0x16)
include hi hb

/-- The configuration bus reaches every block but the service port. -/
theorem exec_registerWrite_config (off size : Nat) (v : Word) :
    exec (.registerWrite .config b i off size v) s = .next (s.regWrite (s.who .config) b i off size v) := by
  simp [exec_registerWrite, execRegisterWrite, State.writeAs, State.reaches, hi, hb]

theorem exec_rcFieldRead_config (off size : Nat) :
    exec (.rcFieldRead .config b i off size) s = .next
      { (s.regRead (s.who .config) b i off size).2 with readData := (s.regRead (s.who .config) b i off size).1 } := by
  simp [exec_rcFieldRead, execRcFieldRead, State.readAs, State.reaches, hi, hb]

end

/-! Blocks whose registers have no effect beside their access codes. -/

section
variable {s : State} {w : Who} {b i off size : Nat} (hup : s.domainUp b i = true)
include hup

theorem State.regWrite_of_misaligned (v : Word) (h : accOk off size = false) :
    s.regWrite w b i off size v = s.logC b i 0x0A (leBytes 4 off) := by
  simp [regWrite, hup, h]

theorem State.regRead_of_misaligned (h : accOk off size = false) :
    s.regRead w b i off size = (onesAt size, s.logC b i 0x0A (leBytes 4 off)) := by
  simp [regRead, hup, h]

/-- A write to a plain block acts by access code alone. -/
theorem State.regWrite_of_plain (v : Word) (hb : b ∈ plainBlocks) (h : accOk off size = true) :
    s.regWrite w b i off size v = s.writeCodes ⟨b, i, off / 8 * 8⟩ (accWord off size v) (accMask off size) := by
  simp only [plainBlocks, List.mem_cons, List.not_mem_nil, or_false] at hb
  rcases hb with rfl | rfl | rfl | rfl | rfl | rfl | rfl <;>
    simp [regWrite, hup, h, inMbox, unitWrite, inGlade]

/-- A read of a plain block returns the register as it stands and clears by access code. -/
theorem State.regRead_of_plain (hb : b ∈ plainBlocks) (h : accOk off size = true) :
    s.regRead w b i off size = (readPart off size (visible ⟨b, i, off / 8 * 8⟩ (s.regVal ⟨b, i, off / 8 * 8⟩)),
      s.clearRc ⟨b, i, off / 8 * 8⟩ (accMask off size)) := by
  simp only [plainBlocks, List.mem_cons, List.not_mem_nil, or_false] at hb
  rcases hb with rfl | rfl | rfl | rfl | rfl | rfl | rfl <;>
    simp [regRead, hup, h, inMbox, turnedAway, hiddenAttr]

end

/-- Of the plain blocks, only the cores' registers are computed when read. -/
theorem State.regVal_of_plain (s : State) {r : Reg} (hb : r.block ∈ plainBlocks) (h2 : r.block ≠ 0x02) : s.regVal r = s.reg r := by
  obtain ⟨b, i, o⟩ := r
  simp only [plainBlocks, List.mem_cons, List.not_mem_nil, or_false] at hb
  rcases hb with rfl | rfl | rfl | rfl | rfl | rfl | rfl
  case inr.inl => exact absurd rfl h2
  all_goals simp [regVal, inGlade]

theorem ne_servicePort_of_plain {b : Nat} (hb : b ∈ plainBlocks) : b ≠ 0x16 := by
  rintro rfl
  simp [plainBlocks] at hb

end Sys2Proof.Machine
end

section
/-! SUPPORT. The corrected-error counts of Canopy ways: one way's count cleared and the others kept, and what a write of CNP_WAYST leaves (R249). -/

namespace Sys2Proof.Machine

/-! A count register: sixteen counts of four bits. -/

/-- The counts of a register with that of one way cleared. -/
def clearedCount (v w : Nat) : Nat := v - v / 16 ^ w % 16 * 16 ^ w

/-- The count of a way. -/
def countAt (v w : Nat) : Nat := v / 16 ^ w % 16

theorem clearedCount_le (v w : Nat) : clearedCount v w ≤ v := Nat.sub_le _ _

/-- Clearing a count leaves what stands above it and what stands below. -/
theorem clearedCount_eq (v w : Nat) : clearedCount v w = v / 16 ^ (w + 1) * 16 ^ (w + 1) + v % 16 ^ w := by
  have above : v / 16 ^ w = v / 16 ^ (w + 1) * 16 + v / 16 ^ w % 16 := by
    rw [pow_succ, ← Nat.div_div_eq_div_mul]
    omega
  have whole : v = v / 16 ^ (w + 1) * 16 ^ (w + 1) + v / 16 ^ w % 16 * 16 ^ w + v % 16 ^ w := by
    calc v = v / 16 ^ w * 16 ^ w + v % 16 ^ w := (Nat.div_add_mod' v _).symm
      _ = (v / 16 ^ (w + 1) * 16 + v / 16 ^ w % 16) * 16 ^ w + v % 16 ^ w := by rw [← above]
      _ = _ := by ring
  unfold clearedCount
  omega

theorem countAt_clearedCount_self (v w : Nat) : countAt (clearedCount v w) w = 0 := by
  have low : v % 16 ^ w / 16 ^ w = 0 := Nat.div_eq_of_lt (Nat.mod_lt _ (by positivity))
  rw [countAt, clearedCount_eq, show v / 16 ^ (w + 1) * 16 ^ (w + 1) + v % 16 ^ w =
    v % 16 ^ w + 16 ^ w * (v / 16 ^ (w + 1) * 16) by ring, Nat.add_mul_div_left _ _ (by positivity), low]
  omega

theorem countAt_clearedCount_ne (v : Nat) {w j : Nat} (h : j ≠ w) : countAt (clearedCount v w) j = countAt v j := by
  rcases Nat.lt_or_gt_of_ne h with hlt | hgt
  · have same : clearedCount v w % 16 ^ (j + 1) = v % 16 ^ (j + 1) := by
      have d1 : 16 ^ (j + 1) ∣ 16 ^ w := pow_dvd_pow 16 hlt
      have d2 : 16 ^ (j + 1) ∣ v / 16 ^ (w + 1) * 16 ^ (w + 1) := Dvd.dvd.mul_left (d1.trans (pow_dvd_pow 16 (Nat.le_succ w))) _
      rw [clearedCount_eq, Nat.add_mod, Nat.mod_eq_zero_of_dvd d2, Nat.zero_add, Nat.mod_mod, Nat.mod_mod_of_dvd _ d1]
    have cut (x : Nat) : countAt x j = x % 16 ^ (j + 1) / 16 ^ j := by
      rw [countAt, pow_succ, Nat.mod_mul_right_div_self]
    rw [cut, cut, same]
  · have high : clearedCount v w / 16 ^ (w + 1) = v / 16 ^ (w + 1) := by
      rw [clearedCount_eq, Nat.add_comm, Nat.add_mul_div_right _ _ (by positivity), Nat.div_eq_of_lt, Nat.zero_add]
      exact (Nat.mod_lt _ (by positivity)).trans (Nat.pow_lt_pow_right (by omega) (Nat.lt_succ_self w))
    have cut (x : Nat) : countAt x j = x / 16 ^ (w + 1) / 16 ^ (j - (w + 1)) % 16 := by
      rw [countAt, Nat.div_div_eq_div_mul, ← pow_add, Nat.add_sub_cancel' hgt]
    rw [cut, cut, high]

/-! The counts of a bank. -/

/-- The counts of a Canopy bank after those of some of the listed ways are cleared. -/
def State.clearCounts (s : State) (b : Nat) (gone : Nat → Bool) (ws : List Nat) : State :=
  ws.foldl (fun s w => if gone w then s.setReg (CNP_CECNT b) (BitVec.ofNat 64 (clearedCount (s.reg (CNP_CECNT b)).toNat w)) else s) s

/-- The way was disabled in the old word of CNP_WAYST and is not in the new one. -/
def wayFreed (old new : Word) (w : Nat) : Bool := bitOf (CNP_WAYST_DIS.get old) w && !bitOf (CNP_WAYST_DIS.get new) w

/-- A write of CNP_WAYST clears the counts of the ways that it re-enabled. -/
theorem State.reenabled_canopy (s : State) (k : Nat) (old : Word) : s.reenabled (CNP_WAYST k) old =
    s.clearCounts k (wayFreed old (s.reg (CNP_WAYST k))) (List.range 16) := by
  have bank : (0x100 + 8 * k - 0x100) / 8 = k := by omega
  simp only [reenabled, CNP_WAYST, bank]
  rfl

/-- Clearing counts changes no other register, no thread and nothing of the Canopy. -/
theorem State.clearCounts_frame (b : Nat) (gone : Nat → Bool) (ws : List Nat) : ∀ s : State,
    (∀ q : Reg, q.key ≠ (CNP_CECNT b).key → (s.clearCounts b gone ws).reg q = s.reg q) ∧
    (s.clearCounts b gone ws).canopy = s.canopy ∧ (s.clearCounts b gone ws).threads = s.threads := by
  induction ws with
  | nil => exact fun s => ⟨fun _ _ => rfl, rfl, rfl⟩
  | cons w ws ih =>
    intro s
    by_cases h : gone w = true
    · obtain ⟨hreg, hcan, hthr⟩ := ih (s.setReg (CNP_CECNT b) (BitVec.ofNat 64 (clearedCount (s.reg (CNP_CECNT b)).toNat w)))
      simp only [clearCounts, List.foldl_cons, if_pos h] at hreg hcan hthr ⊢
      exact ⟨fun q hq => (hreg q hq).trans (State.reg_setReg_ne _ _ hq), by simpa using hcan, by simpa using hthr⟩
    · simpa only [clearCounts, List.foldl_cons, if_neg h] using ih s

/-- A way's count is cleared if it is listed, and else kept. -/
theorem State.countAt_clearCounts (b : Nat) (gone : Nat → Bool) (j : Nat) (ws : List Nat) : ∀ s : State,
    countAt ((s.clearCounts b gone ws).reg (CNP_CECNT b)).toNat j =
      if j ∈ ws ∧ gone j = true then 0 else countAt (s.reg (CNP_CECNT b)).toNat j := by
  induction ws with
  | nil => simp [clearCounts]
  | cons w ws ih =>
    intro s
    by_cases h : gone w = true
    · have := ih (s.setReg (CNP_CECNT b) (BitVec.ofNat 64 (clearedCount (s.reg (CNP_CECNT b)).toNat w)))
      have small := (clearedCount_le (s.reg (CNP_CECNT b)).toNat w).trans_lt (s.reg (CNP_CECNT b)).isLt
      rw [State.reg_setReg_self, BitVec.toNat_ofNat, Nat.mod_eq_of_lt small] at this
      simp only [clearCounts, List.foldl_cons, if_pos h] at this ⊢
      rw [this]
      by_cases hj : j = w
      · subst hj
        simp [h, countAt_clearedCount_self]
      · simp [hj, countAt_clearedCount_ne _ hj]
    · have hne : gone j = true → j ≠ w := fun hg e => h (e ▸ hg)
      have := ih s
      simp only [clearCounts, List.foldl_cons, if_neg h] at this ⊢
      rw [this]
      by_cases hg : gone j = true <;> simp [hg, hne]

/-! Fields that a write clears. -/

theorem bitOf_eq_testBit (x i : Nat) : bitOf x i = x.testBit i := by
  rw [bitOf, Nat.testBit_eq_decide_div_mod_eq]
  rfl

/-- A field whose bits are all w1c keeps those bits that the write has 0 in. -/
theorem Fld.get_w1c (f : Fld) (old v new : Word)
    (h : ∀ i < f.width, new.getLsbD (f.lsb + i) = (old.getLsbD (f.lsb + i) && !v.getLsbD (f.lsb + i))) :
    f.get new = f.get old &&& ((2 ^ f.width - 1) ^^^ f.get v) := by
  apply Nat.eq_of_testBit_eq
  intro i
  rw [Nat.testBit_and, Nat.testBit_xor, Nat.testBit_two_pow_sub_one, f.testBit_get, f.testBit_get, f.testBit_get]
  by_cases hi : i < f.width
  · simp [hi, BitVec.testBit_toNat, h i hi]
  · simp [hi]

/-- A way is re-enabled if it was disabled and its DIS bit is written with 1. -/
theorem wayFreed_iff {old v new : Word} {w : Nat} (hw : w < 16)
    (h : CNP_WAYST_DIS.get new = CNP_WAYST_DIS.get old &&& ((2 ^ 16 - 1) ^^^ CNP_WAYST_DIS.get v)) :
    wayFreed old new w = true ↔ bitOf (CNP_WAYST_DIS.get old) w = true ∧ bitOf (CNP_WAYST_DIS.get v) w = true := by
  have ones : (2 ^ 16 - 1).testBit w = true := by rw [Nat.testBit_two_pow_sub_one, decide_eq_true hw]
  rw [wayFreed, h]
  simp only [bitOf_eq_testBit, Nat.testBit_and, Nat.testBit_xor, ones]
  cases (CNP_WAYST_DIS.get old).testBit w <;> simp

/-- The catalogue row of CNP_WAYST. -/
def wayStSpec : RegSpec := ⟨"CNP_WAYST", 0x07, 0x100, 8, 16, [⟨48, 16, .w1c, 0⟩, ⟨47, 1, .w1c, 0⟩]⟩

theorem spec?_CNP_WAYST (k : Fin 16) : (CNP_WAYST k.val).spec? = some wayStSpec := by
  revert k
  decide

/-- Every bit of DIS and FLOOR is cleared where the write has 1. -/
theorem getLsbD_writeWord_wayStSpec (old v : Word) (held : Bool) {k : Nat} (h47 : 47 ≤ k) (hk : k < 64) :
    (writeWord wayStSpec old v (BitVec.allOnes 64) held).getLsbD k = (old.getLsbD k && !v.getLsbD k) := by
  have apart : wayStSpec.fieldsApart := by unfold RegSpec.fieldsApart; decide
  have codes : ∀ i < 64, 47 ≤ i → wayStSpec.accAt i = some .w1c := by decide
  have covered : (BitVec.allOnes 64).getLsbD k = true := by rw [BitVec.getLsbD_allOnes, decide_eq_true hk]
  rw [getLsbD_writeWord apart _ _ _ _ hk, if_neg (by rw [covered]; decide), codes k hk h47]
  rfl

/-- A field of CNP_WAYST after a write: its bits that the write has 1 in are cleared. -/
theorem State.getF_writeCodes_CNP_WAYST (s : State) (k : Fin 16) (v : Word) (f : Fld) (hlow : 47 ≤ f.lsb)
    (hhigh : f.lsb + f.width ≤ 64) : (s.writeCodes (CNP_WAYST k.val) v (BitVec.allOnes 64)).getF (CNP_WAYST k.val) f =
      s.getF (CNP_WAYST k.val) f &&& ((2 ^ f.width - 1) ^^^ f.get v) := by
  rw [getF, s.reg_writeCodes_self _ _ (spec?_CNP_WAYST k)]
  exact f.get_w1c _ _ _ fun i hi => getLsbD_writeWord_wayStSpec _ _ _ (by omega) (by omega)

/-- The keys of the ways' states and of their counts differ. -/
theorem CNP_WAYST_key_ne (k : Fin 16) : (CNP_WAYST k.val).key ≠ (CNP_CECNT k.val).key := by
  simp only [Reg.key, CNP_WAYST, CNP_CECNT]
  omega

theorem exec_canopyWayReenable_config (k : Fin 16) (v : Word) (s : State) (h : s.domainUp 0x07 0 = true) :
    exec (.canopyWayReenable .config k v) s = .next
      ((s.writeCodes (CNP_WAYST k.val) v (BitVec.allOnes 64)).reenabled (CNP_WAYST k.val) (s.reg (CNP_WAYST k.val))) := by
  have hoff : (0x100 + 8 * k.val) / 8 * 8 = 0x100 + 8 * k.val := by omega
  have hok : accOk (0x100 + 8 * k.val) 8 = true := (accOk_iff _ _).mpr (.inl ⟨rfl, by omega⟩)
  have hlow : 0x100 + 8 * k.val < 0x180 := by omega
  simp [exec_canopyWayReenable, execCanopyWayReenable, State.writeAs, State.reaches, blockCount, State.regWrite, h, hok, hoff,
    inMbox, State.unitWrite, inGlade, hlow, accWord, accMask, CNP_WAYST]

/-- What CANOPY_WAY_REENABLE does (R249): bits written with 1 are cleared, and the counts of the ways it re-enables. -/
theorem exec_canopyWayReenable_effects (k : Fin 16) (v : Word) (s : State) (h : s.domainUp 0x07 0 = true) :
    ∃ u : State, exec (.canopyWayReenable .config k v) s = .next u ∧
      (∀ f : Fld, 47 ≤ f.lsb → f.lsb + f.width ≤ 64 →
        u.getF (CNP_WAYST k.val) f = s.getF (CNP_WAYST k.val) f &&& ((2 ^ f.width - 1) ^^^ f.get v)) ∧
      (∀ w < 16, countAt (u.reg (CNP_CECNT k.val)).toNat w =
        if bitOf (s.getF (CNP_WAYST k.val) CNP_WAYST_DIS) w = true ∧ bitOf (CNP_WAYST_DIS.get v) w = true then 0
        else countAt (s.reg (CNP_CECNT k.val)).toNat w) ∧ u.canopy = s.canopy ∧ u.threads = s.threads := by
  have hsp := spec?_CNP_WAYST k
  have field := s.getF_writeCodes_CNP_WAYST k v
  obtain ⟨-, wthr, -, wcan⟩ := s.writeCodes_frame v (BitVec.allOnes 64) hsp
  have count := s.reg_writeCodes_ne v (BitVec.allOnes 64) hsp (CNP_WAYST_key_ne k).symm
  rw [exec_canopyWayReenable_config k v s h, State.reenabled_canopy]
  generalize s.writeCodes (CNP_WAYST k.val) v (BitVec.allOnes 64) = g at *
  obtain ⟨hreg, hcan, hthr⟩ := State.clearCounts_frame k.val (wayFreed (s.reg (CNP_WAYST k.val)) (g.reg (CNP_WAYST k.val)))
    (List.range 16) g
  refine ⟨_, rfl, fun f hlow hhigh => ?_, fun w hw => ?_, hcan.trans wcan, hthr.trans wthr⟩
  · rw [State.getF, hreg _ (CNP_WAYST_key_ne k)]
    exact field f hlow hhigh
  · rw [State.countAt_clearCounts, count]
    refine if_congr ?_ rfl rfl
    rw [wayFreed_iff hw (field CNP_WAYST_DIS (by decide) (by decide))]
    simp [State.getF, hw]

/-! The window's end. -/

/-- The counts of the listed Canopy banks restart. -/
def State.clearBanks (s : State) (bs : List Nat) : State := bs.foldl (fun s b => s.setReg (CNP_CECNT b) 0) s

theorem exec_canopyWindowEnd_eq_clearBanks (s : State) : exec .canopyWindowEnd s = .next (s.clearBanks (List.range 16)) := rfl

@[simp] theorem State.clearBanks_nil (s : State) : s.clearBanks [] = s := rfl
@[simp] theorem State.clearBanks_cons (s : State) (b : Nat) (bs : List Nat) :
    s.clearBanks (b :: bs) = (s.setReg (CNP_CECNT b) 0).clearBanks bs := rfl

/-- Restarting counts changes no other register, no thread and nothing of the Canopy. -/
theorem State.clearBanks_frame (bs : List Nat) : ∀ s : State,
    (∀ q : Reg, (∀ b ∈ bs, q.key ≠ (CNP_CECNT b).key) → (s.clearBanks bs).reg q = s.reg q) ∧
    (s.clearBanks bs).canopy = s.canopy ∧ (s.clearBanks bs).threads = s.threads := by
  induction bs with
  | nil => exact fun s => ⟨fun _ _ => rfl, rfl, rfl⟩
  | cons b bs ih =>
    intro s
    obtain ⟨hreg, hcan, hthr⟩ := ih (s.setReg (CNP_CECNT b) 0)
    refine ⟨fun q hq => ?_, by simpa using hcan, by simpa using hthr⟩
    rw [clearBanks_cons, hreg q fun c hc => hq c (List.mem_cons_of_mem _ hc), State.reg_setReg_ne _ _ (hq b List.mem_cons_self)]

theorem State.reg_clearBanks (bs : List Nat) (b : Nat) : ∀ s : State,
    (s.clearBanks bs).reg (CNP_CECNT b) = if b ∈ bs then 0 else s.reg (CNP_CECNT b) := by
  induction bs with
  | nil => simp
  | cons c bs ih =>
    intro s
    rw [clearBanks_cons, ih]
    by_cases hc : b = c
    · subst hc
      simp
    · have : (CNP_CECNT b).key ≠ (CNP_CECNT c).key := by
        simp only [Reg.key, CNP_CECNT]
        omega
      simp [hc, State.reg_setReg_ne _ _ this]

end Sys2Proof.Machine
end

section
/-! PROOF. O57: register writes and reads by access code, accesses without a clock, Canopy ways and windows. -/

namespace Sys2Proof.Machine

section
variable {s : State} {r : Reg} {sp : RegSpec} {off size : Nat} (hsp : r.spec? = some sp) (ha : sp.fieldsApart)
  (hok : accOk off size = true)
include hsp ha hok

/-- Each bit after a write by access code, as R8 gives it. -/
theorem State.getLsbD_writeCodes (v : Word) {k : Nat} (hk : k < 64) :
    ((s.writeCodes r v (accMask off size)).reg r).getLsbD k =
      if accessCovers off size k = false then (s.reg r).getLsbD k
      else bitAfter (sp.accAt k) (s.inCommit r.block r.inst) ((s.reg r).getLsbD k) (v.getLsbD k) := by
  rw [s.reg_writeCodes_self _ _ hsp, getLsbD_writeWord ha _ _ _ _ hk, getLsbD_accMask hok hk]

omit hsp in
/-- The rw-s bits that an access covers. -/
theorem getLsbD_rwsMask {k : Nat} (hk : k < 64) :
    (accMask off size &&& sp.maskOf [.rws]).getLsbD k = (accessCovers off size k && decide (sp.accAt k = some .rws)) := by
  rw [BitVec.getLsbD_and, getLsbD_accMask hok hk, RegSpec.getLsbD_maskOf ha _ hk]
  cases sp.accAt k <;> simp

omit hsp in
/-- In COMMIT a write of an rw-s bit is held, with the rw-s bits it covers (R10). -/
theorem State.heldBy_of_inCommit (v : Word) (hc : s.inCommit r.block r.inst = true)
    (hex : ∃ k < 64, sp.accAt k = some .rws ∧ accessCovers off size k = true) :
    s.heldBy r sp v (accMask off size) = [(r.key, accMask off size &&& sp.maskOf [.rws], v)] := by
  obtain ⟨k, hk, hrws, hcov⟩ := hex
  have nonzero : accMask off size &&& sp.maskOf [.rws] ≠ 0 := fun h0 => by
    have := getLsbD_rwsMask ha hok hk
    simp [h0, hrws, hcov] at this
  rw [heldBy, hc, Bool.true_and, if_pos (bne_iff_ne.mpr nonzero)]

/-- A bit that is not in an rc field returned whole keeps its value in a read. -/
theorem State.getLsbD_clearRc_of_kept {k : Nat} (hk : k < 64) (hout : sp.accAt k ≠ some .rc ∨ accessCovers off size k = false) :
    ((s.clearRc r (accMask off size)).reg r).getLsbD k = (s.reg r).getLsbD k := by
  have kept := RegSpec.getLsbD_rcMask_eq_false ha hk (mask := accMask off size) (by rwa [getLsbD_accMask hok hk])
  rw [s.reg_clearRc_self _ hsp, BitVec.getLsbD_and, BitVec.getLsbD_not, kept]
  simp [hk]

omit ha in
/-- An rc field that a read returns whole is cleared. -/
theorem State.getF_clearRc_of_whole {f : FieldSpec} (hf : f ∈ sp.fields) (hrc : f.acc = .rc)
    (hcov : ∀ k, f.fld.lsb ≤ k → k < f.fld.lsb + f.fld.width → accessCovers off size k = true) :
    (s.clearRc r (accMask off size)).getF r f.fld = 0 := by
  have covered (k : Nat) (hk : k < 64) (hold : f.holds k = true) : (accMask off size).getLsbD k = true := by
    simp only [FieldSpec.holds, Bool.and_eq_true, decide_eq_true_eq] at hold
    rw [getLsbD_accMask hok hk, hcov k hold.1 hold.2]
  rw [State.getF, s.reg_clearRc_self _ hsp]
  apply Nat.eq_of_testBit_eq
  intro i
  rw [Fld.testBit_get, BitVec.testBit_toNat, BitVec.getLsbD_and, BitVec.getLsbD_not, Nat.zero_testBit]
  by_cases hi : i < f.fld.width ∧ f.fld.lsb + i < 64
  · have hold : f.holds (f.fld.lsb + i) = true := by
      simp only [FieldSpec.holds, Bool.and_eq_true, decide_eq_true_eq]
      exact ⟨Nat.le_add_right _ _, Nat.add_lt_add_left hi.1 _⟩
    simp [RegSpec.getLsbD_rcMask_eq_true hf hrc covered hi.2 hold]
  · by_cases hw : i < f.fld.width
    · simp [show ¬ f.fld.lsb + i < 64 from fun h => hi ⟨hw, h⟩]
    · simp [hw]

end

/-- Settles O57: writes and reads of the plain blocks act bit by bit through `writeCodes` and `clearRc`; the counts of Canopy ways through `clearCounts`. -/
theorem registerResults : Obligations.RegisterResults := by
  unfold Obligations.RegisterResults
  refine ⟨fun b i off size v s hb hi hup => ?_, fun b i off size s hb hi hup => ?_, fun b i off s hb hi => ?_,
    fun k v s hup => ?_, fun s => ?_⟩
  · -- REGISTER_WRITE: no register there, outside COMMIT, in COMMIT, refused (R6 to R8, R10)
    rw [exec_registerWrite_config hi (ne_servicePort_of_plain hb)]
    refine ⟨fun hok => ?_, fun hbad => ?_⟩
    · rw [← accOk_iff] at hok
      rw [State.regWrite_of_plain hup v hb hok]
      refine ⟨fun hsp => by rw [State.writeCodes_of_reserved _ _ _ hsp], fun sp hsp hc => ?_, fun sp hsp hc => ?_⟩
      · obtain ⟨hact, hthr, hmem, -⟩ := s.writeCodes_frame (accWord off size v) (accMask off size) hsp
        refine ⟨_, rfl, hact, ?_, fun q hq => s.reg_writeCodes_ne _ _ hsp hq, hthr, hmem, fun k hk => ?_⟩
        · simp [s.heldW_writeCodes _ _ hsp, State.heldBy, hc]
        · rw [State.getLsbD_writeCodes hsp (fieldsApart_of_plain hb hsp) hok _ hk, hc]
          cases sp.accAt k with
          | none => rfl
          | some a => cases a <;> rfl
      · have ha := fieldsApart_of_plain hb hsp
        obtain ⟨hact, -, -, -⟩ := s.writeCodes_frame (accWord off size v) (accMask off size) hsp
        refine ⟨_, rfl, hact, fun q hq => s.reg_writeCodes_ne _ _ hsp hq, fun k hk hrws => ?_, fun hex => ?_⟩
        · rw [State.getLsbD_writeCodes hsp ha hok _ hk, hc, hrws]
          exact ite_self _
        · refine ⟨_, ?_, fun k hk => getLsbD_rwsMask ha hok hk⟩
          rw [s.heldW_writeCodes _ _ hsp, State.heldBy_of_inCommit ha hok _ hc hex]
          rfl
    · rw [← accOk_iff, Bool.not_eq_true] at hbad
      rw [State.regWrite_of_misaligned hup v hbad]
  · -- RC_FIELD_READ: no register there, by access code, refused (R6 to R8)
    rw [exec_rcFieldRead_config hi (ne_servicePort_of_plain hb)]
    refine ⟨fun hok => ?_, fun hbad => ?_⟩
    · rw [← accOk_iff] at hok
      rw [State.regRead_of_plain hup hb hok]
      refine ⟨fun hsp => ?_, fun sp hsp h2 => ?_⟩
      · simp [visible_of_reserved _ hsp, State.clearRc_of_reserved _ _ hsp, readPart]
      · have ha := fieldsApart_of_plain hb hsp
        obtain ⟨hact, hthr⟩ := s.clearRc_frame (accMask off size) hsp
        refine ⟨_, rfl, fun k hk => ?_, fun f hf hrc hcov => State.getF_clearRc_of_whole hsp hok hf hrc hcov,
          fun k hk hout => State.getLsbD_clearRc_of_kept hsp ha hok hk hout, fun q hq => s.reg_clearRc_ne _ hsp hq, hact, hthr⟩
        rw [getLsbD_readPart hok hk, getLsbD_visible hsp ha, State.regVal_of_plain s hb h2]
    · rw [← accOk_iff, Bool.not_eq_true] at hbad
      rw [State.regRead_of_misaligned hup hbad]
      rfl
  · -- UNCLOCKED_ACCESS_COMPLETE (R25)
    refine ⟨fun hup w => ?_, fun hdown => ?_⟩
    · simp [exec_unclockedAccessComplete, execUnclockedAccessComplete, hup]
    · simp [exec_unclockedAccessComplete, execUnclockedAccessComplete, hdown, State.writeAs, State.readAs, State.reaches, hi, hb,
        State.regWrite, State.regRead, onesAt]
  · -- CANOPY_WAY_REENABLE (R249)
    obtain ⟨u, hu, hfield, hcount, hcan, hthr⟩ := exec_canopyWayReenable_effects k v s hup
    refine ⟨u, hu, hfield CNP_WAYST_DIS (by decide) (by decide), fun h1 => ?_, fun h0 => ?_, hcount, hcan, hthr⟩
    · rw [hfield CNP_WAYST_FLOOR (by decide) (by decide), h1]
      exact Nat.and_zero _
    · have one : CNP_WAYST_FLOOR.get (s.reg (CNP_WAYST k.val)) < 2 := Nat.mod_lt _ (by decide)
      rw [hfield CNP_WAYST_FLOOR (by decide) (by decide), h0]
      exact (Nat.and_two_pow_sub_one_eq_mod _ 1).trans (Nat.mod_eq_of_lt one)
  · -- CANOPY_WINDOW_END (R249)
    obtain ⟨hreg, hcan, hthr⟩ := State.clearBanks_frame (List.range 16) s
    exact ⟨_, exec_canopyWindowEnd_eq_clearBanks s, fun b hb => by rw [State.reg_clearBanks, if_pos (List.mem_range.mpr hb)],
      fun q hq => hreg q fun b hb => hq b (List.mem_range.mp hb), hcan, hthr⟩

end Sys2Proof.Machine
end

section
/-! SUPPORT. What memory traffic, device failures and records leave alone: the commands, the loader, active values and resets. -/

namespace Sys2Proof.Machine

/-- The state with everything that memory traffic, threads, caches and records may change put to a fixed value. -/
def State.offTraffic (s : State) : State :=
  { s with
    fresh := 0, regs := [], fst := ForesterSt.reset, mem := [], mpois := [], lines := [], canopy := [], home := [], out := [], inb := []
    gports := [], peers := [], roots := [], failed := [], threads := [], cores := [], rseq := 0, collHeld := [], fq := [], flog := []
    flogCnt := 0, flogWait := [] }

@[simp] theorem State.offTraffic_with (s : State) (fresh : Nat) (regs : Tab Word) (fst : ForesterSt) (mem : Tab Byte) (mpois : Tab Bool)
    (lines : Tab Line) (canopy : Tab CanEnt) (home : List HomeTx) (out : List OutTx) (inb : List InBcast) (gports : Tab GPort)
    (peers : Tab Peer) (roots : Tab RootLink) (failed : List Nat) (threads : Tab Thread) (cores : Tab Core) (rseq : Nat)
    (collHeld : List Rec) (fq : Tab (List QEnt)) (flog : Tab (Option Rec)) (flogCnt : Nat) (flogWait : List Rec) :
    ({ s with
      fresh := fresh, regs := regs, fst := fst, mem := mem, mpois := mpois, lines := lines, canopy := canopy, home := home, out := out
      inb := inb, gports := gports, peers := peers, roots := roots, failed := failed, threads := threads, cores := cores, rseq := rseq
      collHeld := collHeld, fq := fq, flog := flog, flogCnt := flogCnt, flogWait := flogWait } : State).offTraffic = s.offTraffic := rfl

/-- What every step of a fold keeps, the fold keeps. -/
theorem State.foldl_keeps {α β : Type} (p : State → β) (f : State → α → State) (h : ∀ s a, p (f s a) = p s) (l : List α) :
    ∀ s : State, p (l.foldl f s) = p s := by
  induction l with
  | nil => exact fun _ => rfl
  | cons a l ih => exact fun s => (ih (f s a)).trans (h s a)

@[simp] theorem State.foldl_offTraffic {α : Type} (f : State → α → State) (h : ∀ s a, (f s a).offTraffic = s.offTraffic) (l : List α)
    (s : State) : (l.foldl f s).offTraffic = s.offTraffic := State.foldl_keeps State.offTraffic f h l s

@[simp] theorem State.setReg_offTraffic (s : State) (r : Reg) (v : Word) : (s.setReg r v).offTraffic = s.offTraffic := by
  rw [State.setReg, State.offTraffic_with]
@[simp] theorem State.setF_offTraffic (s : State) (r : Reg) (f : Fld) (v : Nat) : (s.setF r f v).offTraffic = s.offTraffic := by
  rw [State.setF, State.setReg_offTraffic]
@[simp] theorem State.incF_offTraffic (s : State) (r : Reg) (f : Fld) (n : Nat) : (s.incF r f n).offTraffic = s.offTraffic := by
  rw [State.incF, State.setF_offTraffic]
@[simp] theorem State.setThr_offTraffic (s : State) (t : Nat) (x : Thread) : (s.setThr t x).offTraffic = s.offTraffic := by
  rw [State.setThr, State.offTraffic_with]
@[simp] theorem State.modThr_offTraffic (s : State) (t : Nat) (f : Thread → Thread) : (s.modThr t f).offTraffic = s.offTraffic := by
  rw [State.modThr, State.setThr_offTraffic]
@[simp] theorem State.setCore_offTraffic (s : State) (c : Nat) (x : Core) : (s.setCore c x).offTraffic = s.offTraffic := by
  rw [State.setCore, State.offTraffic_with]
@[simp] theorem State.modCore_offTraffic (s : State) (c : Nat) (f : Core → Core) : (s.modCore c f).offTraffic = s.offTraffic := by
  rw [State.modCore, State.setCore_offTraffic]
@[simp] theorem State.tickFree_offTraffic (s : State) : s.tickFree.offTraffic = s.offTraffic := by
  rw [State.tickFree, State.offTraffic_with]
@[simp] theorem State.setLogSlot_offTraffic (s : State) (i : Nat) (r : Option Rec) : (s.setLogSlot i r).offTraffic = s.offTraffic := by
  rw [State.setLogSlot, State.offTraffic_with]
@[simp] theorem State.vectorBank_offTraffic (s : State) (b pc : Nat) : (s.vectorBank b pc).offTraffic = s.offTraffic := by
  rw [State.vectorBank, State.offTraffic_with]

@[simp] theorem State.setQueue_offTraffic (s : State) (c : Nat) (q : List QEnt) : (s.setQueue c q).offTraffic = s.offTraffic := by
  simp only [State.setQueue, apply_ite State.offTraffic, setF_offTraffic, offTraffic_with, vectorBank_offTraffic, ite_self]

@[simp] theorem State.enterLog_offTraffic (s : State) (r : Rec) : (s.enterLog r).offTraffic = s.offTraffic := by
  unfold State.enterLog
  repeat' split
  all_goals simp

@[simp] theorem State.mergeRec_offTraffic (s : State) (x : Rec) : (s.mergeRec x).offTraffic = s.offTraffic := by
  unfold State.mergeRec
  dsimp only
  repeat' split
  all_goals simp

@[simp] theorem State.handOn_offTraffic (s : State) (r : Rec) : (s.handOn r).offTraffic = s.offTraffic := by
  unfold State.handOn
  repeat' split
  all_goals simp

@[simp] theorem State.setMci_offTraffic (s : State) (p : Nat) (w : Word) : (s.setMci p w).offTraffic = s.offTraffic :=
  State.foldl_offTraffic _ (fun _ _ => modThr_offTraffic ..) _ _

@[simp] theorem State.log_offTraffic (s : State) (i : RecIn) : (s.log i).offTraffic = s.offTraffic := by
  unfold State.log
  repeat' split
  all_goals simp

@[simp] theorem State.logC_offTraffic (s : State) (b i t : Nat) (d : List Byte) : (s.logC b i t d).offTraffic = s.offTraffic := by
  rw [State.logC, State.log_offTraffic]

end Sys2Proof.Machine
end

section
/-! SUPPORT. What the home agent, caches and links leave alone. -/

namespace Sys2Proof.Machine

/-! The Grove and its messages. -/

@[simp] theorem State.modGp_offTraffic (s : State) (p : Nat) (f : GPort → GPort) : (s.modGp p f).offTraffic = s.offTraffic := by
  rw [State.modGp, State.setGp, State.offTraffic_with]
@[simp] theorem State.setPeer_offTraffic (s : State) (m : Nat) (x : Peer) : (s.setPeer m x).offTraffic = s.offTraffic := by
  rw [State.setPeer, State.offTraffic_with]
@[simp] theorem State.modPeer_offTraffic (s : State) (m : Nat) (f : Peer → Peer) : (s.modPeer m f).offTraffic = s.offTraffic := by
  rw [State.modPeer, State.setPeer_offTraffic]

@[simp] theorem State.send_offTraffic (s : State) (m : Msg) : (s.send m).offTraffic = s.offTraffic := by
  unfold State.send
  repeat' split
  all_goals simp

@[simp] theorem State.sendReq_offTraffic (s : State) (opc l part : Nat) (thr : Option Nat) (d : Option (LineData × Bool)) :
    (s.sendReq opc l part thr d).offTraffic = s.offTraffic := by
  simp [State.sendReq]

@[simp] theorem State.snoop_offTraffic (s : State) (x : HomeTx) (opc l mods : Nat) : (s.snoop x opc l mods).offTraffic = s.offTraffic := by
  simp [State.snoop]

@[simp] theorem State.reply_offTraffic (s : State) (x : HomeTx) (opc st : Nat) (d : Option (LineData × Bool)) :
    (s.reply x opc st d).offTraffic = s.offTraffic := by
  simp [State.reply]

/-! Caches. -/

@[simp] theorem State.setLine_offTraffic (s : State) (l : Nat) (x : Line) : (s.setLine l x).offTraffic = s.offTraffic := by
  rw [State.setLine, State.offTraffic_with]
@[simp] theorem State.modLine_offTraffic (s : State) (l : Nat) (f : Line → Line) : (s.modLine l f).offTraffic = s.offTraffic := by
  rw [State.modLine, State.setLine_offTraffic]
@[simp] theorem State.takeErr_offTraffic (s : State) (l : Nat) : (s.takeErr l).offTraffic = s.offTraffic := by
  rw [State.takeErr, State.modLine_offTraffic]

@[simp] theorem State.clearResv_offTraffic (s : State) (l : Nat) (f : Nat → Bool) : (s.clearResv l f).offTraffic = s.offTraffic :=
  State.foldl_offTraffic _ (fun _ _ => modThr_offTraffic ..) _ _

@[simp] theorem State.coreDrop_offTraffic (s : State) (l c : Nat) : (s.coreDrop l c).offTraffic = s.offTraffic := by
  simp [State.coreDrop]
@[simp] theorem State.dropCores_offTraffic (s : State) (l : Nat) (keep : Nat → Bool) : (s.dropCores l keep).offTraffic = s.offTraffic := by
  simp [State.dropCores]
@[simp] theorem State.pmcCore_offTraffic (s : State) (c e : Nat) : (s.pmcCore c e).offTraffic = s.offTraffic := by
  simp [State.pmcCore]
@[simp] theorem State.backInval_offTraffic (s : State) (l : Nat) : (s.backInval l).offTraffic = s.offTraffic := by
  simp [State.backInval]

@[simp] theorem State.fillL2_offTraffic (s : State) (c l : Nat) : (s.fillL2 c l).offTraffic = s.offTraffic := by
  unfold State.fillL2
  dsimp only
  repeat' split
  all_goals simp

@[simp] theorem State.fillL1_offTraffic (s : State) (c k l : Nat) : (s.fillL1 c k l).offTraffic = s.offTraffic := by
  unfold State.fillL1
  dsimp only
  repeat' split
  all_goals simp

@[simp] theorem State.writeOwned_offTraffic (s : State) (t pa : Nat) (b : List Byte) (p : Bool) :
    (s.writeOwned t pa b p).offTraffic = s.offTraffic := by
  simp [State.writeOwned]

/-! Memory behind the home agent. -/

@[simp] theorem State.modRoot_offTraffic (s : State) (n : Nat) (f : RootLink → RootLink) : (s.modRoot n f).offTraffic = s.offTraffic := by
  rw [State.modRoot, State.setRoot, State.offTraffic_with]

@[simp] theorem State.setMemLine_offTraffic (s : State) (n la : Nat) (d : LineData) (p : Bool) :
    (s.setMemLine n la d p).offTraffic = s.offTraffic := by
  rw [State.setMemLine, State.offTraffic_with]

@[simp] theorem State.logDead_offTraffic (s : State) (n l : Nat) : (s.logDead n l).offTraffic = s.offTraffic := by
  unfold State.logDead
  dsimp only
  split <;> simp

theorem State.memRead_offTraffic {s u : State} {l : Nat} {r : RdRes} (h : s.memRead l = (u, r)) : u.offTraffic = s.offTraffic := by
  have first : (s.memRead l).1.offTraffic = s.offTraffic := by
    unfold State.memRead
    repeat' split
    all_goals simp
  rwa [h] at first

@[simp] theorem State.linkWrite_offTraffic (s : State) (n la l : Nat) (d : LineData) (p : Bool) :
    (s.linkWrite n la l d p).offTraffic = s.offTraffic := by
  unfold State.linkWrite
  repeat' split
  all_goals simp

@[simp] theorem State.memWrite_offTraffic (s : State) (l : Nat) (d : LineData) (p : Bool) : (s.memWrite l d p).offTraffic = s.offTraffic := by
  unfold State.memWrite
  repeat' split
  all_goals simp

@[simp] theorem State.evictL3_offTraffic (s : State) (l : Nat) : (s.evictL3 l).offTraffic = s.offTraffic := by
  unfold State.evictL3
  dsimp only
  repeat' split
  all_goals simp

@[simp] theorem State.install_offTraffic (s : State) (l : Nat) (st : LineSt) (d : LineData) (p : Bool) (part : Nat) :
    (s.install l st d p part).offTraffic = s.offTraffic := by
  unfold State.install
  dsimp only
  repeat' split
  all_goals simp

@[simp] theorem State.localInval_offTraffic (s : State) (l : Nat) : (s.localInval l).offTraffic = s.offTraffic := by
  unfold State.localInval
  dsimp only
  repeat' split
  all_goals simp

/-! Canopy and the home agent. -/

@[simp] theorem State.setCan_offTraffic (s : State) (i : Nat) (e : CanEnt) : (s.setCan i e).offTraffic = s.offTraffic := by
  rw [State.setCan, State.offTraffic_with]

@[simp] theorem State.canPut_offTraffic (s : State) (l : Nat) (ex : Bool) (pres : Nat) : (s.canPut l ex pres).offTraffic = s.offTraffic := by
  unfold State.canPut
  repeat' split
  all_goals simp

@[simp] theorem State.modTx_offTraffic (s : State) (l : Nat) (f : HomeTx → HomeTx) : (s.modTx l f).offTraffic = s.offTraffic := by
  rw [State.modTx, State.offTraffic_with]
@[simp] theorem State.endTx_offTraffic (s : State) (l : Nat) : (s.endTx l).offTraffic = s.offTraffic := by
  rw [State.endTx, State.offTraffic_with]

@[simp] theorem State.localClean_offTraffic (s : State) (l : Nat) (st : LineSt) : (s.localClean l st).offTraffic = s.offTraffic := by
  unfold State.localClean
  dsimp only
  repeat' split
  all_goals simp

@[simp] theorem State.homeLookup_offTraffic (s : State) (x : HomeTx) : (s.homeLookup x).offTraffic = s.offTraffic := by
  unfold State.homeLookup
  dsimp only
  repeat' split
  all_goals simp

theorem State.canRoom_offTraffic {s u : State} {x : HomeTx} (h : s.canRoom x = some u) : u.offTraffic = s.offTraffic := by
  unfold State.canRoom at h
  dsimp only at h
  repeat' split at h
  all_goals simp at h
  all_goals simp [← h]

@[simp] theorem State.homeStart_offTraffic (s : State) (x : HomeTx) : (s.homeStart x).offTraffic = s.offTraffic := by
  unfold State.homeStart
  dsimp only
  cases h : s.canRoom x with
  | none => repeat' split
            all_goals simp_all
  | some u =>
    have hu := State.canRoom_offTraffic h
    repeat' split
    all_goals simp_all

@[simp] theorem State.deliver_offTraffic (s : State) (x : HomeTx) : (s.deliver x).offTraffic = s.offTraffic := by
  unfold State.deliver
  dsimp only
  repeat' split
  all_goals simp

@[simp] theorem State.cmoVisible_offTraffic (s : State) (thr : Option Nat) (l : Nat) (owed : Bool) :
    (s.cmoVisible thr l owed).offTraffic = s.offTraffic := by
  unfold State.cmoVisible
  split <;> simp

@[simp] theorem State.homeAdvance1_offTraffic (s : State) (l : Nat) : (s.homeAdvance1 l).offTraffic = s.offTraffic := by
  unfold State.homeAdvance1
  dsimp only
  repeat' split
  all_goals simp
  all_goals exact State.memRead_offTraffic (by assumption)

@[simp] theorem State.homeRun_offTraffic (s : State) (x : HomeTx) : (s.homeRun x).offTraffic = s.offTraffic := by
  simp [State.homeRun, State.homeAdvance]

@[simp] theorem State.homeKick_offTraffic (n : Nat) : ∀ s : State, (State.homeKick n s).offTraffic = s.offTraffic := by
  induction n with
  | zero => exact fun _ => rfl
  | succ n ih =>
    intro s
    unfold State.homeKick
    split <;> simp [ih]

@[simp] theorem State.homeServe_offTraffic (s : State) : s.homeServe.offTraffic = s.offTraffic := by
  rw [State.homeServe, State.homeKick_offTraffic]

@[simp] theorem State.homeAccept_offTraffic (s : State) (opc l src tid part : Nat) (thr : Option Nat) (d : Option (LineData × Bool)) :
    (s.homeAccept opc l src tid part thr d).offTraffic = s.offTraffic := by
  rw [State.homeAccept, State.homeServe_offTraffic, State.offTraffic_with]

@[simp] theorem State.request_offTraffic (s : State) (opc l part : Nat) (thr : Option Nat) : (s.request opc l part thr).offTraffic = s.offTraffic := by
  unfold State.request
  dsimp only
  repeat' split
  all_goals simp

end Sys2Proof.Machine
end

section
/-! SUPPORT. What threads, stores and resets of ports leave alone. -/

namespace Sys2Proof.Machine

/-! Threads that stop, and their stores. -/

@[simp] theorem State.stopThread_offTraffic (s : State) (t : Nat) (why : Run) : (s.stopThread t why).offTraffic = s.offTraffic := by
  unfold State.stopThread
  dsimp only
  split <;> simp

@[simp] theorem State.takeM_offTraffic (s : State) (t : Nat) (c : Cause) (ret : Word) (vec : Option Word) (double : Bool) :
    (s.takeM t c ret vec double).offTraffic = s.offTraffic := by
  unfold State.takeM
  dsimp only
  repeat' split
  all_goals simp

@[simp] theorem State.storeErr_offTraffic (s : State) (t : Nat) (e : StoreEnt) (st : Nat) : (s.storeErr t e st).offTraffic = s.offTraffic := by
  unfold State.storeErr
  dsimp only
  split <;> simp

@[simp] theorem State.startCmo_offTraffic (s : State) (t opc l : Nat) : (s.startCmo t opc l).offTraffic = s.offTraffic := by
  unfold State.startCmo
  dsimp only
  repeat' split
  all_goals simp

theorem State.reachOwned_offTraffic {s u : State} {t pa : Nat} {a : LineAcc} (h : s.reachOwned t pa = (a, u)) :
    u.offTraffic = s.offTraffic := by
  have second : (s.reachOwned t pa).2.offTraffic = s.offTraffic := by
    unfold State.reachOwned
    dsimp only
    repeat' split
    all_goals simp
  rwa [h] at second

@[simp] theorem State.storeVisible_offTraffic (s : State) (t : Nat) : (s.storeVisible t).offTraffic = s.offTraffic := by
  unfold State.storeVisible
  dsimp only
  repeat' split
  any_goals simp only [modThr_offTraffic, writeOwned_offTraffic, clearResv_offTraffic, storeErr_offTraffic, startCmo_offTraffic,
    request_offTraffic]
  all_goals exact State.reachOwned_offTraffic (by assumption)

@[simp] theorem State.markFailed_offTraffic (s : State) (k : Nat) : (s.markFailed k).offTraffic = s.offTraffic := by
  unfold State.markFailed
  dsimp only
  repeat' split
  all_goals simp

@[simp] theorem State.logDev_offTraffic (s : State) (t pa cls : Nat) : (s.logDev t pa cls).offTraffic = s.offTraffic := by
  simp [State.logDev]

@[simp] theorem State.failTarget_offTraffic (s : State) (pa : Nat) : (s.failTarget pa).offTraffic = s.offTraffic := by
  simp [State.failTarget]

@[simp] theorem State.failStore_offTraffic (s : State) (t pa : Nat) : (s.failStore t pa).offTraffic = s.offTraffic := by
  unfold State.failStore
  dsimp only
  split <;> simp

@[simp] theorem State.settleBcasts_offTraffic (s : State) : s.settleBcasts.offTraffic = s.offTraffic := by
  simp [State.settleBcasts]

@[simp] theorem State.acceptStore_offTraffic (s : State) (t room : Nat) : (s.acceptStore t room).offTraffic = s.offTraffic := by
  unfold State.acceptStore
  dsimp only
  repeat' split
  all_goals simp

@[simp] theorem State.handOnStore_offTraffic (s : State) (t : Nat) (lost : List Nat) : (s.handOnStore t lost).offTraffic = s.offTraffic := by
  unfold State.handOnStore
  dsimp only
  repeat' split
  all_goals simp

@[simp] theorem State.handOnStores_offTraffic (t : Nat) (lost : List Nat) (n : Nat) :
    ∀ s : State, (State.handOnStores n s t lost).offTraffic = s.offTraffic := by
  induction n with
  | zero => exact fun _ => rfl
  | succ n ih =>
    intro s
    unfold State.handOnStores
    dsimp only
    split <;> simp [ih]

@[simp] theorem State.drainCore_offTraffic (s : State) (c : Nat) (lost : List Nat) : (s.drainCore c lost).offTraffic = s.offTraffic := by
  simp [State.drainCore]

@[simp] theorem State.skipCore_offTraffic (s : State) (c : Nat) : (s.skipCore c).offTraffic = s.offTraffic := by
  simp [State.skipCore]

@[simp] theorem State.openWindow_offTraffic (s : State) (f : Nat → Bool) : (s.openWindow f).offTraffic = s.offTraffic := by
  simp [State.openWindow]

@[simp] theorem State.failHalf_offTraffic (s : State) (x : Nat) : (s.failHalf x).offTraffic = s.offTraffic := by
  unfold State.failHalf
  split <;> simp

@[simp] theorem State.unmarkHalf_offTraffic (s : State) (x : Nat) : (s.unmarkHalf x).offTraffic = s.offTraffic := by
  rw [State.unmarkHalf, State.offTraffic_with, State.setF_offTraffic]

end Sys2Proof.Machine
end

section
/-! SUPPORT. Registers under writes of one of their fields, and the Forester's queues: what queueing work and ending it change. -/

namespace Sys2Proof.Machine

/-! Keys and fields. -/

theorem Reg.inWindow_of {r : Reg} (hi : r.inst < 2 ^ 8) (ho : r.off < 2 ^ 24) : r.inWindow = true := by
  rw [inWindow, decide_eq_true hi, decide_eq_true ho, Bool.and_self]

/-- Registers within their windows have keys of their own (R515). -/
theorem Reg.eq_of_key {q r : Reg} (hq : q.inWindow = true) (hr : r.inWindow = true) (h : q.key = r.key) : q = r := by
  simp only [Reg.inWindow, Bool.and_eq_true, decide_eq_true_eq] at hq hr
  simp only [Reg.key] at h
  cases q
  cases r
  simp only [Reg.mk.injEq] at *
  omega

theorem Reg.key_ne {q r : Reg} (hq : q.inWindow = true) (hr : r.inWindow = true) (h : q ≠ r) : q.key ≠ r.key :=
  fun e => h (Reg.eq_of_key hq hr e)

theorem State.reg_setF_ne (s : State) {q r : Reg} (f : Fld) (v : Nat) (h : q.key ≠ r.key) : (s.setF r f v).reg q = s.reg q :=
  State.reg_setReg_ne _ _ h

theorem State.getF_setF_ne (s : State) {q r : Reg} (f g : Fld) (v : Nat) (h : q.key ≠ r.key) :
    (s.setF r f v).getF q g = s.getF q g := by
  rw [getF, s.reg_setF_ne f v h, getF]

theorem State.getF_setF_self (s : State) (r : Reg) (f : Fld) (v : Nat) (h : f.lsb + f.width ≤ 64) :
    (s.setF r f v).getF r f = v % 2 ^ f.width := by
  rw [getF, setF, State.reg_setReg_self, Fld.get_put_self _ _ _ h]

/-- A field that shares no bit with the one written keeps its value. -/
theorem State.getF_setF_apart (s : State) (r : Reg) (f g : Fld) (v : Nat) (h : g.lsb + g.width ≤ f.lsb ∨ f.lsb + f.width ≤ g.lsb) :
    (s.setF r f v).getF r g = s.getF r g := by
  rw [getF, setF, State.reg_setReg_self, Fld.get_put_ne _ _ _ _ h, getF]

/-! Work of the Forester. -/

/-- The state without its registers and without the queues and banks of the Forester. -/
def State.offQueues (s : State) : State := { s with regs := [], fst := ForesterSt.reset, fq := [] }

@[simp] theorem State.offQueues_with (s : State) (regs : Tab Word) (fst : ForesterSt) (fq : Tab (List QEnt)) :
    ({ s with regs := regs, fst := fst, fq := fq } : State).offQueues = s.offQueues := rfl

/-! What lies outside the registers and queues. -/

theorem State.svc_of_offQueues {s u : State} (h : u.offQueues = s.offQueues) : u.svc = s.svc := (congrArg State.svc h :)
theorem State.ldr_of_offQueues {s u : State} (h : u.offQueues = s.offQueues) : u.ldr = s.ldr := (congrArg State.ldr h :)
theorem State.clrs_of_offQueues {s u : State} (h : u.offQueues = s.offQueues) : u.clrs = s.clrs := (congrArg State.clrs h :)
theorem State.active_of_offQueues {s u : State} (h : u.offQueues = s.offQueues) : u.active = s.active := (congrArg State.active h :)
theorem State.retained_of_offQueues {s u : State} (h : u.offQueues = s.offQueues) : u.retained = s.retained := (congrArg State.retained h :)
theorem State.threads_of_offQueues {s u : State} (h : u.offQueues = s.offQueues) : u.threads = s.threads := (congrArg State.threads h :)
theorem State.rootKey_of_offQueues {s u : State} (h : u.offQueues = s.offQueues) : u.rootKey = s.rootKey := (congrArg State.rootKey h :)

@[simp] theorem State.setReg_offQueues (s : State) (r : Reg) (v : Word) : (s.setReg r v).offQueues = s.offQueues := by
  rw [State.setReg, State.offQueues_with]
@[simp] theorem State.setF_offQueues (s : State) (r : Reg) (f : Fld) (v : Nat) : (s.setF r f v).offQueues = s.offQueues := by
  rw [State.setF, State.setReg_offQueues]
@[simp] theorem State.incF_offQueues (s : State) (r : Reg) (f : Fld) (n : Nat) : (s.incF r f n).offQueues = s.offQueues := by
  rw [State.incF, State.setF_offQueues]
@[simp] theorem State.vectorBank_offQueues (s : State) (b pc : Nat) : (s.vectorBank b pc).offQueues = s.offQueues := by
  rw [State.vectorBank, State.offQueues_with]

@[simp] theorem State.setQueue_offQueues (s : State) (c : Nat) (q : List QEnt) : (s.setQueue c q).offQueues = s.offQueues := by
  simp only [State.setQueue, apply_ite State.offQueues, setF_offQueues, offQueues_with, vectorBank_offQueues, ite_self]

@[simp] theorem State.queueWork_offQueues (s : State) (c : Nat) (w : Work) : (s.queueWork c w).offQueues = s.offQueues := by
  unfold State.queueWork
  split <;> simp

@[simp] theorem State.workDone_offQueues (s : State) (c k v : Nat) : (s.workDone c k v).offQueues = s.offQueues := by
  unfold State.workDone
  split <;> simp

@[simp] theorem State.reg_vectorBank (s : State) (b pc : Nat) (q : Reg) : (s.vectorBank b pc).reg q = s.reg q := rfl

/-- Changing a queue writes no register but the class's FOR_QSTAT. -/
theorem State.reg_setQueue_ne (s : State) {c : Nat} (l : List QEnt) {q : Reg} (h : q.key ≠ (FOR_QSTAT (c - 1)).key) :
    (s.setQueue c l).reg q = s.reg q := by
  have queued (u : State) : ({ u with fq := Tab.set fqDefault u.fq c l } : State).reg q = u.reg q := rfl
  unfold State.setQueue
  dsimp only
  repeat' split
  all_goals simp only [State.reg_setF_ne _ _ _ h, queued, State.reg_vectorBank]

theorem State.reg_queueWork_ne (s : State) {c : Nat} (w : Work) {q : Reg} (h : q.key ≠ (FOR_QSTAT (c - 1)).key) :
    (s.queueWork c w).reg q = s.reg q := by
  unfold State.queueWork
  split
  · exact s.reg_setQueue_ne _ h
  · exact s.reg_setF_ne _ _ h

theorem State.reg_workDone_ne (s : State) {c : Nat} (k v : Nat) {q : Reg} (h : q.key ≠ (FOR_QSTAT (c - 1)).key) :
    (s.workDone c k v).reg q = s.reg q := by
  unfold State.workDone
  split
  · exact s.reg_setQueue_ne _ h
  · rfl

/-- An arrival may start a bank of the Forester; the claim is not lost by it. -/
@[simp] theorem State.setQueue_lost (s : State) (c : Nat) (l : List QEnt) : (s.setQueue c l).fst.lost = s.fst.lost := by
  unfold State.setQueue
  dsimp only
  repeat' split
  all_goals rfl

@[simp] theorem State.queueWork_lost (s : State) (c : Nat) (w : Work) : (s.queueWork c w).fst.lost = s.fst.lost := by
  unfold State.queueWork
  split
  · exact s.setQueue_lost c _
  · rfl

theorem State.queue_setQueue_ne (s : State) {c d : Nat} (l : List QEnt) (h : d ≠ c) : (s.setQueue c l).queue d = s.queue d := by
  have queued (u : State) : ({ u with fq := Tab.set fqDefault u.fq c l } : State).queue d = u.queue d := Tab.get_set_ne _ _ _ h
  unfold State.setQueue
  dsimp only
  repeat' split
  all_goals exact queued _

end Sys2Proof.Machine
end

section
/-! SUPPORT. A command of the service port as it is issued (R55 to R58). -/

namespace Sys2Proof.Machine

/-! A command as it is issued (R55 to R58). -/

/-- The write of SVP_CMD that issues a command (R56). -/
theorem State.writeAs_SVP_CMD {s : State} (h : s.svcUp = true) (w : Word) :
    s.writeAs .host 0x16 0 0x010 8 w = s.svcWrite w (BitVec.allOnes 64) := by
  simp [writeAs, reaches, h, blockCount, regWrite, domainUp, accOk, inMbox, unitWrite, inGlade, sysWrite, accWord, accMask, SVP_CMD,
    CPC_APP]

/-- The fields of the word that issues a command. -/
theorem svpCmd_fields {op t l : Nat} (hop : op < 256) (ht : t < 256) (hl : l < 2 ^ 32) :
    let w := BitVec.ofNat 64 (op * 2 ^ 56 + t * 2 ^ 48 + l)
    SVP_CMD_OP.get w = op ∧ SVP_CMD_TARGET.get w = t ∧ SVP_CMD_LEN.get w = l := by
  simp only [Fld.get, SVP_CMD_OP, SVP_CMD_TARGET, SVP_CMD_LEN, BitVec.toNat_ofNat]
  omega

/-- The limits of the operations as the model's table has them (R58, R66). -/
theorem svcRow_of_svcLimit {op t : Nat} (h1 : 1 ≤ op) (h10 : op ≤ 10) (h : (svcLimit op).2 t = true) :
    (svcRow op).2 = (svcLimit op).1 ∧ t ≤ (svcRow op).1 ∧ (op = 10 → domainOk t = true) := by
  interval_cases op <;> simp [svcLimit, svcRow, domainOk] at h ⊢ <;> omega

/-- Nothing ends a command that may be sent as it is issued (R58). -/
theorem State.svcCode_of_maySend {s : State} {op t : Nat} (h : s.maySend op t) (h1 : 1 ≤ op) (h10 : op ≤ 10) : s.svcCode op t = none := by
  obtain ⟨-, -, -, h15, hstep, hlimit, -⟩ := h
  obtain ⟨hrow, ht, hdom⟩ := svcRow_of_svcLimit h1 h10 hlimit
  have early : ¬ (s.startStep < 2 ∧ op ≠ 1) := by
    rintro ⟨h2, hne⟩
    have : 2 ≤ (svcLimit op).1 := by interval_cases op <;> simp [svcLimit] at hne ⊢
    omega
  have known : ¬ (op = 0 ∨ 0x0A < op) := by omega
  have reached : ¬ (s.startStep = 15 ∨ s.startStep < (svcRow op).2) := by omega
  have aimed : ¬ ((svcRow op).1 < t ∨ (op = 0x0A ∧ domainOk t = false)) := by
    rintro (hlt | ⟨ha, hd⟩)
    · omega
    · simp [hdom ha] at hd
  simp only [svcCode, if_neg early, if_neg known, if_neg reached, if_neg aimed]

theorem State.svcDirect_of_reg {s u : State} (h : u.reg SVP_RADDR = s.reg SVP_RADDR) (op : Nat) : u.svcDirect op = s.svcDirect op := by
  simp only [svcDirect, getF, h]

/-- BUSY and LEN leave every other register and field. -/
theorem State.reg_busyWith_ne (s : State) (l : Nat) {q : Reg} (hc : q.key ≠ SVP_CMD.key) (hs : q.key ≠ SVP_STAT.key) :
    (s.busyWith l).reg q = s.reg q := by
  rw [busyWith, State.reg_setF_ne _ _ _ hs, State.reg_setF_ne _ _ _ hc]

theorem State.startStep_busyWith (s : State) (l : Nat) : (s.busyWith l).startStep = s.startStep := by
  rw [startStep, busyWith, State.getF_setF_apart _ _ _ _ _ (by decide), State.getF_setF_ne _ _ _ _ (by decide), startStep]

/-- What issuing a command that nothing refuses leaves (R56, R476). -/
theorem State.svcIssue_of_maySend {s : State} {op t : Nat} (h : s.maySend op t) (h1 : 1 ≤ op) (h10 : op ≤ 10) (l : Nat) :
    (s.setF SVP_CMD SVP_CMD_LEN l).svcIssue op t l = s.sent op t l [] true := by
  have hstep := s.startStep_busyWith l
  have hdirect : (s.busyWith l).svcDirect op = s.svcDirect op := State.svcDirect_of_reg (s.reg_busyWith_ne l (by decide) (by decide)) op
  have hcode : (s.busyWith l).svcCode op t = none := by rw [← State.svcCode_of_maySend h h1 h10, svcCode, svcCode, hstep]
  obtain ⟨-, -, -, -, -, -, hroom⟩ := h
  have hroom' : (s.busyWith l).queueFull 7 = false := hroom
  have hbusy : (s.setF SVP_CMD SVP_CMD_LEN l).setF SVP_STAT SVP_STAT_BUSY 1 = s.busyWith l := rfl
  simp only [svcIssue, sent, hbusy, hcode, hstep, hdirect, hroom', Option.isSome_none, Bool.false_eq_true, false_or, if_false]
  split <;> rfl

/-- A command that may be sent is issued and then served. -/
theorem State.svcSend_of_maySend {s : State} {op t l : Nat} (h : s.maySend op t) (h1 : 1 ≤ op) (h10 : op ≤ 10) (ht : t < 256)
    (hl : l < 2 ^ 32) (bad : List Nat) (starts : Bool) : s.svcSend op t l bad starts = (s.sent op t l bad starts).svcBegin := by
  have hissue := State.svcIssue_of_maySend h h1 h10 l
  obtain ⟨hup, hsvc, -⟩ := h
  obtain ⟨hop, htgt, hlen⟩ := svpCmd_fields (op := op) (by omega) ht hl
  have kept : (s.setF SVP_CMD SVP_CMD_LEN l).getF SVP_CMD SVP_CMD_LEN = l :=
    (State.getF_setF_self _ _ _ _ (by decide)).trans (Nat.mod_eq_of_lt hl)
  have written : s.svcWrite (BitVec.ofNat 64 (op * 2 ^ 56 + t * 2 ^ 48 + l)) (BitVec.allOnes 64) = s.sent op t l [] true := by
    have low : ¬ BitVec.allOnes 64 &&& 1 = 0 := by decide
    have high : ¬ BitVec.allOnes 64 >>> 32 &&& 1 = 0 := by decide
    simp only [svcWrite, hsvc, Option.isSome_none, Bool.false_eq_true, if_neg low, if_neg high, if_false, hop, htgt, hlen, kept, hissue]
  simp only [svcSend, hsvc, Option.isSome_none, Bool.false_eq_true, if_false, State.writeAs_SVP_CMD hup, written]
  rfl

/-! The state of an issued command. -/

section
variable (s : State) (op t l : Nat) (bad : List Nat) (starts : Bool)

@[simp] theorem State.sent_svc : (s.sent op t l bad starts).svc = some ⟨op, t, l, false, none, 0, 0, bad, starts⟩ := rfl

@[simp] theorem State.sent_offQueues : (s.sent op t l bad starts).offQueues =
    { s.offQueues with svc := some ⟨op, t, l, false, none, 0, 0, bad, starts⟩ } := by
  have h (g : State) (c : Option SvcCmd) : ({ g with svc := c } : State).offQueues = { g.offQueues with svc := c } := rfl
  have hb : (s.busyWith l).offQueues = s.offQueues := by simp [busyWith]
  rw [sent, h]
  split
  · rw [hb]
  · rw [State.queueWork_offQueues, hb]

@[simp] theorem State.sent_lost : (s.sent op t l bad starts).fst.lost = s.fst.lost := by
  have h (g : State) (c : Option SvcCmd) : ({ g with svc := c } : State).fst.lost = g.fst.lost := rfl
  rw [sent, h]
  split
  · rfl
  · exact State.queueWork_lost _ _ _

/-- Issuing a command writes SVP_CMD, SVP_STAT and FOR_QSTAT of class 7. -/
theorem State.reg_sent_ne {q : Reg} (hc : q.key ≠ SVP_CMD.key) (hs : q.key ≠ SVP_STAT.key) (hq : q.key ≠ (FOR_QSTAT 6).key) :
    (s.sent op t l bad starts).reg q = s.reg q := by
  have h (g : State) (c : Option SvcCmd) : ({ g with svc := c } : State).reg q = g.reg q := rfl
  have hb := s.reg_busyWith_ne l hc hs
  rw [sent, h]
  split
  · exact hb
  · rw [State.reg_queueWork_ne _ _ hq, hb]

theorem State.startStep_sent : (s.sent op t l bad starts).startStep = s.startStep := by
  have h (g : State) (c : Option SvcCmd) : ({ g with svc := c } : State).startStep = g.startStep := rfl
  rw [sent, h]
  split
  · exact s.startStep_busyWith l
  · rw [startStep, getF, State.reg_queueWork_ne _ _ (by decide)]
    exact s.startStep_busyWith l

theorem State.queue_sent_ne {c : Nat} (hc : c ≠ 7) : (s.sent op t l bad starts).queue c = s.queue c := by
  have h (g : State) (c : Option SvcCmd) (d : Nat) : ({ g with svc := c } : State).queue d = g.queue d := rfl
  rw [sent, h]
  split
  · rfl
  · unfold queueWork
    split
    · exact State.queue_setQueue_ne _ _ hc
    · rfl

@[simp] theorem State.sent_threads : (s.sent op t l bad starts).threads = s.threads := (congrArg State.threads (s.sent_offQueues op t l bad starts) :)
@[simp] theorem State.sent_cores : (s.sent op t l bad starts).cores = s.cores := (congrArg State.cores (s.sent_offQueues op t l bad starts) :)
@[simp] theorem State.sent_active : (s.sent op t l bad starts).active = s.active := (congrArg State.active (s.sent_offQueues op t l bad starts) :)
@[simp] theorem State.sent_mem : (s.sent op t l bad starts).mem = s.mem := (congrArg State.mem (s.sent_offQueues op t l bad starts) :)
@[simp] theorem State.sent_engines : (s.sent op t l bad starts).engines = s.engines := (congrArg State.engines (s.sent_offQueues op t l bad starts) :)
@[simp] theorem State.sent_ldr : (s.sent op t l bad starts).ldr = s.ldr := (congrArg State.ldr (s.sent_offQueues op t l bad starts) :)
@[simp] theorem State.sent_bar2 : (s.sent op t l bad starts).bar2 = s.bar2 := (congrArg State.bar2 (s.sent_offQueues op t l bad starts) :)
@[simp] theorem State.sent_mfw : (s.sent op t l bad starts).mfw = s.mfw := (congrArg State.mfw (s.sent_offQueues op t l bad starts) :)
@[simp] theorem State.sent_tkos : (s.sent op t l bad starts).tkos = s.tkos := (congrArg State.tkos (s.sent_offQueues op t l bad starts) :)
@[simp] theorem State.sent_standRst : (s.sent op t l bad starts).standRst = s.standRst := (congrArg State.standRst (s.sent_offQueues op t l bad starts) :)
@[simp] theorem State.sent_gladeRst : (s.sent op t l bad starts).gladeRst = s.gladeRst := (congrArg State.gladeRst (s.sent_offQueues op t l bad starts) :)

@[simp] theorem State.act_sent (r : Reg) : (s.sent op t l bad starts).act r = s.act r := by simp [act]
@[simp] theorem State.actF_sent (r : Reg) (f : Fld) : (s.sent op t l bad starts).actF r f = s.actF r f := by simp [actF]

end

end Sys2Proof.Machine
end

section
/-! SUPPORT. The service of an issued command, and its result (R58, R59). -/

namespace Sys2Proof.Machine

/-! What an issued command does as it is served, and its result. -/

section
variable {s g : State} {op t l : Nat} {bad : List Nat} {starts : Bool}

/-- A result that is not known yet becomes known (R59). -/
theorem State.svcResult_of_svc {c : SvcCmd} (h : g.svc = some c) (hc : c.code = none) (code data : Nat) :
    g.svcResult code data = g.answered code data := by
  simp [svcResult, answered, h, hc]

theorem State.svcKnown_svcResult {c : SvcCmd} (h : g.svc = some c) (hc : c.code = none) (code data : Nat) :
    (g.svcResult code data).svcKnown = some code := by
  simp [State.svcResult_of_svc h hc, answered, svcKnown, h]

/-- A command under way has no result yet. -/
theorem State.svcKnown_underWay {c : SvcCmd} (h : g.svc = some c) (hc : c.code = none) : g.underWay.svcKnown = none := by
  simp [underWay, svcKnown, h, hc]

theorem State.svcResult_sent (code data : Nat) :
    (s.sent op t l bad starts).svcResult code data = (s.sent op t l bad starts).answered code data :=
  State.svcResult_of_svc (s.sent_svc ..) rfl code data

/-- The result of a command served by a function that keeps the command. -/
theorem State.svcKnown_of_sent (h : g.svc = (s.sent op t l bad starts).svc) (code data : Nat) :
    (g.svcResult code data).svcKnown = some code :=
  State.svcKnown_svcResult (h.trans (s.sent_svc ..)) rfl code data

theorem State.svcResult_keeps (g : State) (code data : Nat) : ∃ c, g.svcResult code data = { g with svc := c } := by
  unfold State.svcResult
  split
  · split
    · exact ⟨_, rfl⟩
    · exact ⟨g.svc, rfl⟩
  · exact ⟨g.svc, rfl⟩

theorem State.reg_svcResult (g : State) (code data : Nat) (q : Reg) : (g.svcResult code data).reg q = g.reg q := by
  obtain ⟨c, h⟩ := g.svcResult_keeps code data
  rw [h]
  rfl

theorem State.getF_svcResult (g : State) (code data : Nat) (q : Reg) (f : Fld) : (g.svcResult code data).getF q f = g.getF q f := by
  rw [getF, g.reg_svcResult, getF]

theorem State.eng_svcResult (g : State) (code data e : Nat) : (g.svcResult code data).eng e = g.eng e := by
  obtain ⟨c, h⟩ := g.svcResult_keeps code data
  rw [h]
  rfl

theorem State.gladeRst_svcResult (g : State) (code data : Nat) : (g.svcResult code data).gladeRst = g.gladeRst := by
  obtain ⟨c, h⟩ := g.svcResult_keeps code data
  rw [h]

theorem State.getF_underWay (g : State) (q : Reg) (f : Fld) : g.underWay.getF q f = g.getF q f := rfl
theorem State.eng_underWay (g : State) (e : Nat) : g.underWay.eng e = g.eng e := rfl

theorem State.withContainer_error {kind len carve e : Nat} {k : Container → State} (h : g.container kind len carve = .error e) :
    g.withContainer kind len carve k = g.svcResult e 0 := by
  simp only [withContainer, h]

theorem State.withContainer_ok {kind len carve : Nat} {k : Container → State} {c : Container} (h : g.container kind len carve = .ok c) :
    g.withContainer kind len carve k = k c := by
  simp only [withContainer, h]

/-- What serves a command of R58, by its OP. -/
def State.serve (g : State) (op t l : Nat) (bad : List Nat) (starts : Bool) : State :=
  match op with
  | 0x01 => g.loadForFw l
  | 0x02 => g.loadTilet l
  | 0x03 => g.loadUcode t l
  | 0x04 => g.loadGladeFw t l starts
  | 0x05 => g.loadKeyObject l
  | 0x06 => g.loadMfw t l
  | 0x07 => g.release t bad
  | 0x08 => g.svpRegRead
  | 0x09 => g.svpRegWrite
  | _ => g.resetDomain t

theorem State.svcBegin_sent (h : s.fst.lost = false) :
    (s.sent op t l bad starts).svcBegin = (s.sent op t l bad starts).serve op t l bad starts := by
  have fresh : ¬ (false = true ∨ (none : Option Nat).isSome = true ∨
      (s.sent op t l bad starts).fst.lost = true ∧ (s.sent op t l bad starts).svcDirect op = false) := by
    simp [h]
  simp only [svcBegin, sent_svc, if_neg fresh]
  rfl

/-- A command that may be sent is served at once. -/
theorem State.svcSend_serve (h : s.maySend op t) (h1 : 1 ≤ op) (h10 : op ≤ 10) (ht : t < 256) (hl : l < 2 ^ 32) (bad : List Nat)
    (starts : Bool) : s.svcSend op t l bad starts = (s.sent op t l bad starts).serve op t l bad starts := by
  rw [State.svcSend_of_maySend h h1 h10 ht hl]
  obtain ⟨-, -, hlost, -⟩ := h
  exact State.svcBegin_sent hlost

end

section
variable {s : State} {t : BitVec 8} {l : BitVec 32}

theorem exec_loadForFw_sent (h : s.maySend 1 t.toNat) :
    exec (.loadForFw t l) s = .next ((s.sent 1 t.toNat l.toNat [] true).loadForFw l.toNat) :=
  congrArg Host.Outcome.next (State.svcSend_serve h (by decide) (by decide) t.isLt l.isLt [] true)
theorem exec_loadTilet_sent (h : s.maySend 2 t.toNat) :
    exec (.loadTilet t l) s = .next ((s.sent 2 t.toNat l.toNat [] true).loadTilet l.toNat) :=
  congrArg Host.Outcome.next (State.svcSend_serve h (by decide) (by decide) t.isLt l.isLt [] true)
theorem exec_loadUcode_sent (h : s.maySend 3 t.toNat) :
    exec (.loadUcode t l) s = .next ((s.sent 3 t.toNat l.toNat [] true).loadUcode t.toNat l.toNat) :=
  congrArg Host.Outcome.next (State.svcSend_serve h (by decide) (by decide) t.isLt l.isLt [] true)
theorem exec_loadGladeFw_sent (h : s.maySend 4 t.toNat) (b : Bool) :
    exec (.loadGladeFw t l b) s = .next ((s.sent 4 t.toNat l.toNat [] b).loadGladeFw t.toNat l.toNat b) :=
  congrArg Host.Outcome.next (State.svcSend_serve h (by decide) (by decide) t.isLt l.isLt [] b)
theorem exec_loadKeys_sent (h : s.maySend 5 t.toNat) :
    exec (.loadKeys t l) s = .next ((s.sent 5 t.toNat l.toNat [] true).loadKeyObject l.toNat) :=
  congrArg Host.Outcome.next (State.svcSend_serve h (by decide) (by decide) t.isLt l.isLt [] true)
theorem exec_loadMfw_sent (h : s.maySend 6 t.toNat) :
    exec (.loadMfw t l) s = .next ((s.sent 6 t.toNat l.toNat [] true).loadMfw t.toNat l.toNat) :=
  congrArg Host.Outcome.next (State.svcSend_serve h (by decide) (by decide) t.isLt l.isLt [] true)
theorem exec_release_sent (h : s.maySend 7 t.toNat) :
    exec (.release t l []) s = .next ((s.sent 7 t.toNat l.toNat [] true).release t.toNat []) :=
  congrArg Host.Outcome.next (State.svcSend_serve h (by decide) (by decide) t.isLt l.isLt [] true)
theorem exec_regRead_sent (h : s.maySend 8 t.toNat) :
    exec (.regRead t l) s = .next (s.sent 8 t.toNat l.toNat [] true).svpRegRead :=
  congrArg Host.Outcome.next (State.svcSend_serve h (by decide) (by decide) t.isLt l.isLt [] true)
theorem exec_regWrite_sent (h : s.maySend 9 t.toNat) :
    exec (.regWrite t l) s = .next (s.sent 9 t.toNat l.toNat [] true).svpRegWrite :=
  congrArg Host.Outcome.next (State.svcSend_serve h (by decide) (by decide) t.isLt l.isLt [] true)
theorem exec_resetDomain_sent (h : s.maySend 10 t.toNat) :
    exec (.resetDomain t l) s = .next ((s.sent 10 t.toNat l.toNat [] true).resetDomain t.toNat) :=
  congrArg Host.Outcome.next (State.svcSend_serve h (by decide) (by decide) t.isLt l.isLt [] true)

end

end Sys2Proof.Machine
end

section
/-! SUPPORT. LOAD_FOR_FW: firmware enters (R472, R475). -/

namespace Sys2Proof.Machine

/-! Bits of a mask. -/

theorem bitOf_setBit_self (m i : Nat) (b : Bool) : bitOf (setBit m i b) i = b := by
  cases b with
  | true => simp [setBit, bitOf_eq_testBit, Nat.testBit_or]
  | false =>
    unfold setBit
    split
    · contradiction
    · split
      · next h =>
        have hm : m / 2 ^ i % 2 = 1 := by simpa [bitOf] using h
        have hs : (m - 2 ^ i) / 2 ^ i = m / 2 ^ i - 1 := by simpa using Nat.sub_mul_div m (2 ^ i) 1
        simp only [bitOf, hs, beq_eq_false_iff_ne]
        omega
      · next h => simpa using h

theorem bitOf_setBit_true_of (m : Nat) {i j : Nat} (h : bitOf m j = true) : bitOf (setBit m i true) j = true := by
  simp only [bitOf_eq_testBit] at h ⊢
  simp [setBit, Nat.testBit_or, h]

/-! LOAD_FOR_FW (R472). -/

/-- Banks other than bank 0 enter their vectors: registers, RAM and bank 0 stay. -/
theorem State.vectorBanks_keeps (cs : List Nat) (h : ∀ c ∈ cs, 2 ≤ c) : ∀ s : State,
    let u := cs.foldl (fun s c => s.vectorBank (c - 1) 0x40) s
    u.offQueues = s.offQueues ∧ u.regs = s.regs ∧ u.fst.ram = s.fst.ram ∧
      Tab.get bankDefault u.fst.banks 0 = Tab.get bankDefault s.fst.banks 0 ∧ (bitOf s.fst.busy 0 = true → bitOf u.fst.busy 0 = true) := by
  induction cs with
  | nil => exact fun s => ⟨rfl, rfl, rfl, rfl, id⟩
  | cons c cs ih =>
    intro s
    obtain ⟨hoff, hregs, hram, hbank, hbusy⟩ := ih (fun d hd => h d (by simp [hd])) (s.vectorBank (c - 1) 0x40)
    have hc : 0 ≠ c - 1 := by have := h c (by simp); omega
    refine ⟨hoff.trans (s.vectorBank_offQueues ..), hregs, hram, hbank.trans (Tab.get_set_ne _ _ _ hc), fun hb => hbusy ?_⟩
    exact bitOf_setBit_true_of _ hb

/-- Firmware enters: its RAM is the image, bank 0 stands at 0 with work; registers stay (R472, R475). -/
theorem State.enterFirmware_spec (s : State) (fw : List Byte) :
    let u := s.enterFirmware fw
    u.offQueues = s.offQueues ∧ u.regs = s.regs ∧ u.fst.ram = memPut [] 0 fw ∧ (Tab.get bankDefault u.fst.banks 0).pc = 0 ∧
      bitOf u.fst.busy 0 = true := by
  have later : ∀ p : Nat → Bool, ∀ c ∈ ([2, 3, 4, 5, 6, 7] : List Nat).filter p, 2 ≤ c := by
    intro p c hc
    have hc := List.mem_of_mem_filter hc
    simp only [List.mem_cons, List.not_mem_nil, or_false] at hc
    omega
  let s0 : State := { s with fst := { s.fst with banks := [], busy := 0, trapped := 0, last := 0, ram := memPut [] 0 fw, fcb := 0, fpg := 0 } }
  obtain ⟨hoff, hregs, hram, hbank, hbusy⟩ := State.vectorBanks_keeps _ (later _) (s0.vectorBank 0 0x0000).kickDog
  refine ⟨hoff, hregs, hram, ?_, hbusy (bitOf_setBit_self 0 0 true)⟩
  exact (congrArg TwigBank.pc hbank).trans (congrArg TwigBank.pc (Tab.get_set_self bankDefault [] 0 { TwigBank.zero with pc := 0 }))

/-- A byte of a RAM that was written from its start. -/
theorem get_memPut_empty (fw : List Byte) (k : Nat) : Tab.get memDefault (memPut [] 0 fw) k = fw.getD k 0 := by
  by_cases hk : k < fw.length
  · have h := memPut_get fw [] 0 k hk
    rw [Nat.zero_add] at h
    rw [h, List.getD_eq_getElem _ _ hk]
  · rw [memPut_ne fw [] 0 k (by omega), List.getD_eq_default _ _ (by omega)]
    rfl

/-- What the first start of firmware leaves (R63 step 4, R472). -/
theorem State.startFirmware_spec (s : State) (fw : List Byte) :
    let u := s.startFirmware fw
    u.offQueues = s.offQueues ∧ u.startStep = 2 ∧ (∀ k, Tab.get memDefault u.fst.ram k = fw.getD k 0) ∧
      u.getF FOR_CLAIM FOR_CLAIM_LATCH = 2 ∧ (Tab.get bankDefault u.fst.banks 0).pc = 0 ∧ bitOf u.fst.busy 0 = true := by
  let b := s.getF FOR_CLAIM FOR_CLAIM_ACTIVE
  let alone := s.getF FOR_CLAIM FOR_CLAIM_STBY == 1
  let claims := (s.setF FOR_CLAIM FOR_CLAIM_CLAIMA (if b = 1 then 0 else 2)).setF FOR_CLAIM FOR_CLAIM_CLAIMB
    (if b = 1 then 2 else if alone then 0 else 1)
  let latched := (claims.setF FOR_CLAIM FOR_CLAIM_LATCH 2).setF SVP_STAT SVP_STAT_CLAIM b
  obtain ⟨hoff, hregs, hram, hpc, hbusy⟩ := latched.enterFirmware_spec fw
  have hclaim : (latched.enterFirmware fw).reg FOR_CLAIM = latched.reg FOR_CLAIM := by rw [reg, hregs, reg]
  have hlatch : latched.getF FOR_CLAIM FOR_CLAIM_LATCH = 2 :=
    (State.getF_setF_ne _ _ _ _ (by decide)).trans (State.getF_setF_self _ _ _ _ (by decide))
  refine ⟨?_, State.getF_setF_self _ _ _ _ (by decide), fun k => ?_, ?_, hpc, hbusy⟩
  · exact (State.setF_offQueues _ _ _ _).trans (hoff.trans (by simp [latched, claims]))
  · exact (congrArg (Tab.get memDefault · k) hram).trans (get_memPut_empty fw k)
  · exact (State.getF_setF_ne _ _ _ _ (by decide)).trans ((by rw [getF, hclaim, getF] : _ = latched.getF FOR_CLAIM FOR_CLAIM_LATCH).trans hlatch)

end Sys2Proof.Machine
end

section
/-! SUPPORT. The commands of the service port, with what they test read in the state before the command was issued. -/

namespace Sys2Proof.Machine

section
variable {s : State} {op t l : Nat} {bad : List Nat} {starts : Bool}

theorem State.getF_sent_ne {q : Reg} (f : Fld) (hc : q.key ≠ SVP_CMD.key) (hs : q.key ≠ SVP_STAT.key) (hq : q.key ≠ (FOR_QSTAT 6).key) :
    (s.sent op t l bad starts).getF q f = s.getF q f := by
  rw [getF, s.reg_sent_ne op t l bad starts hc hs hq, getF]

/-- A container that fails its checks ends the command with its code (R60). -/
theorem State.withContainer_sent_error {kind carve e : Nat} {k : Container → State}
    (h : (s.sent op t l bad starts).container kind l carve = .error e) :
    (s.sent op t l bad starts).withContainer kind l carve k = (s.sent op t l bad starts).answered e :=
  (State.withContainer_error h).trans (State.svcResult_sent e 0)

end

/-- The PARTIAL flag of a staged image (R37). -/
theorem State.staged_partial (s : State) : (byteAt (s.staged 16) 0xC % 2 == 1) = decide ((Tab.get memDefault s.bar2 0xC).toNat % 2 = 1) := rfl

/-- LOAD_KEYS keeps the command in progress: it changes the keystore. -/
theorem State.renewDeviceKey_svc (s : State) : s.renewDeviceKey.svc = s.svc := by
  have hfold (ks : List Nat) : ∀ s : State, (ks.foldl (fun s k => s.setReg (KST_EPUB k) 0) s).svc = s.svc := by
    induction ks with
    | nil => exact fun _ => rfl
    | cons k ks ih => exact fun s => (ih _).trans (s.setReg_svc ..)
  simp only [renewDeviceKey, incF, setF, setReg_svc, hfold]

theorem State.loadKeys_svc (s : State) (p : List Byte) : (s.loadKeys p).2.svc = s.svc := by
  unfold State.loadKeys
  split
  · exact (State.renewDeviceKey_svc _).trans (by simp [setF])
  · exact (State.renewDeviceKey_svc _).trans (by simp [setF])

/-- The register that RADDR names is the one of the state before the command. -/
theorem State.svpAddr_sent (s : State) (op t l : Nat) (bad : List Nat) (starts : Bool) : (s.sent op t l bad starts).svpAddr = s.svpAddr := by
  simp only [svpAddr, getF, s.reg_sent_ne op t l bad starts (q := SVP_RADDR) (by decide) (by decide) (by decide)]

theorem busWindow_iff (b i : Nat) : busWindow b i = true ↔ b ≠ 0x16 ∧ i < blockCount b := by
  simp [busWindow, and_comm]

/-! The commands, with what they test read in the state before the command was issued. -/

section
variable (s : State) (t l : Nat)

theorem State.loadForFw_sent : (s.sent 1 t l [] true).loadForFw l =
    if s.startStep = 1 then
      (s.sent 1 t l [] true).withContainer 1 l 0 fun c => ((s.sent 1 t l [] true).startFirmware c.payload).svcResult 0 0
    else if s.getF FOR_CLAIM FOR_CLAIM_STBY ≠ 0 ∨ s.getF FOR_CLAIM FOR_CLAIM_LATCH = 0xFF then (s.sent 1 t l [] true).answered 0x02
    else (s.sent 1 t l [] true).withContainer 1 l 0 fun _ => ((s.sent 1 t l [] true).setF FOR_CLAIM FOR_CLAIM_STBY 3).underWay := by
  have claim (f : Fld) : (s.sent 1 t l [] true).getF FOR_CLAIM f = s.getF FOR_CLAIM f :=
    State.getF_sent_ne f (by decide) (by decide) (by decide)
  simp only [loadForFw, s.startStep_sent, claim, State.svcResult_sent]
  rfl

theorem State.loadTilet_sent : (s.sent 2 t l [] true).loadTilet l =
    if decide ((Tab.get memDefault s.bar2 0xC).toNat % 2 = 1) = decide (s.startStep = 2) then (s.sent 2 t l [] true).answered 0x02
    else if s.ldr.isSome then (s.sent 2 t l [] true).answered 0x0B 0x0F
    else if s.queueFull 5 then
      (((s.sent 2 t l [] true).incF (FOR_QSTAT 4) FOR_QSTAT_FULL).svcResult 0x01 0).modSvc
        fun c => { c with retry := (s.sent 2 t l [] true).busyRetry }
    else ({ (s.sent 2 t l [] true).queueWork 5 ⟨5, 0⟩ with ldr := some (LoadJob.start true (some l)) } : State).underWay := by
  have hroom : (s.sent 2 t l [] true).queueFull 5 = s.queueFull 5 := by
    rw [queueFull, s.queue_sent_ne _ _ _ _ _ (by decide), queueFull]
  simp only [loadTilet, State.staged_partial, s.startStep_sent, s.sent_bar2, s.sent_ldr, hroom, State.svcResult_sent]
  rfl

theorem State.loadKeyObject_sent : (s.sent 5 t l [] true).loadKeyObject l =
    if s.getF KST_STAT KST_STAT_EPRDY = 0 then (s.sent 5 t l [] true).answered 0x02
    else (s.sent 5 t l [] true).withContainer 5 l 0 fun c =>
      ((s.sent 5 t l [] true).loadKeys c.payload).2.answered ((s.sent 5 t l [] true).loadKeys c.payload).1 := by
  have ready : (s.sent 5 t l [] true).getF KST_STAT KST_STAT_EPRDY = s.getF KST_STAT KST_STAT_EPRDY :=
    State.getF_sent_ne _ (by decide) (by decide) (by decide)
  have known (p : List Byte) (code : Nat) : ((s.sent 5 t l [] true).loadKeys p).2.svcResult code 0 =
      ((s.sent 5 t l [] true).loadKeys p).2.answered code :=
    State.svcResult_of_svc ((State.loadKeys_svc _ p).trans (s.sent_svc ..)) rfl code 0
  simp only [loadKeyObject, ready, State.svcResult_sent, known]

theorem State.loadMfw_sent (p : Nat) : (s.sent 6 p l [] true).loadMfw p l =
    if s.actF (L3C_SEED 0) L3C_SEED_NWAYS = 0 ∨ s.getF (L3C_SEED 0) L3C_SEED_RELEASED = 1 ∨
        s.actF (L3C_SEEDP 0 p) L3C_SEEDP_LEN * 2 ^ 20 = 0 then (s.sent 6 p l [] true).answered 0x02
    else (s.sent 6 p l [] true).withContainer 4 l (s.actF (L3C_SEEDP 0 p) L3C_SEEDP_LEN * 2 ^ 20) fun c =>
      if c.loadpa < s.actF (L3C_SEEDP 0 p) L3C_SEEDP_PABASE * 2 ^ 20 ∨ s.actF (L3C_SEEDP 0 p) L3C_SEEDP_PABASE * 2 ^ 20 +
          s.actF (L3C_SEEDP 0 p) L3C_SEEDP_LEN * 2 ^ 20 < c.loadpa + c.payload.length then (s.sent 6 p l [] true).answered 0x02
      else
        (State.copyOut (c.payload.length / 4 + 1) (s.sent 6 p l [] true) p c.loadpa c.payload).run (s.sent 6 p l [] true)
          (fun _ v => ({ v with mfw := setBit v.mfw p true } : State).svcResult 0 0) fun _ v => v.svcResult 0x07 0 := by
  have released : (s.sent 6 p l [] true).getF (L3C_SEED 0) L3C_SEED_RELEASED = s.getF (L3C_SEED 0) L3C_SEED_RELEASED :=
    State.getF_sent_ne _ (by decide) (by decide) (by decide)
  simp only [loadMfw, s.actF_sent, released, State.svcResult_sent]

theorem State.svpRegRead_sent : (s.sent 8 t l [] true).svpRegRead =
    let r := if s.svpAddr.1 ≠ 0x16 ∧ s.svpAddr.2.1 < blockCount s.svpAddr.1 then
      (s.sent 8 t l [] true).regRead ⟨.host, 3, none⟩ s.svpAddr.1 s.svpAddr.2.1 s.svpAddr.2.2 8 else (0, s.sent 8 t l [] true)
    (r.2.setReg SVP_RDATA r.1).svcResult 0 0 := by
  simp only [svpRegRead, s.svpAddr_sent, busWindow_iff]
  rfl

theorem State.svpRegWrite_sent : (s.sent 9 t l [] true).svpRegWrite =
    (if s.svpAddr.1 ≠ 0x16 ∧ s.svpAddr.2.1 < blockCount s.svpAddr.1 then
      (s.sent 9 t l [] true).regWrite ⟨.host, 3, none⟩ s.svpAddr.1 s.svpAddr.2.1 s.svpAddr.2.2 8 (s.reg SVP_RDATA)
      else s.sent 9 t l [] true).svcResult 0 0 := by
  have data : (s.sent 9 t l [] true).reg SVP_RDATA = s.reg SVP_RDATA := s.reg_sent_ne _ _ _ _ _ (by decide) (by decide) (by decide)
  simp only [svpRegWrite, s.svpAddr_sent, busWindow_iff, data]
  rfl

end

/-- LOAD_FOR_FW at STEP 1 (R63 step 4). -/
theorem State.loadForFw_first {s : State} (h1 : s.startStep = 1) (t l : Nat) {c : Container}
    (hc : (s.sent 1 t l [] true).container 1 l 0 = .ok c) :
    let u := (s.sent 1 t l [] true).loadForFw l
    u.svcKnown = some 0 ∧ u.startStep = 2 ∧ (∀ k, Tab.get memDefault u.fst.ram k = c.payload.getD k 0) ∧
      u.getF FOR_CLAIM FOR_CLAIM_LATCH = 2 ∧ (Tab.get bankDefault u.fst.banks 0).pc = 0 ∧ bitOf u.fst.busy 0 = true ∧
      u.threads = s.threads := by
  obtain ⟨hoff, hstep, hram, hlatch, hpc, hbusy⟩ := (s.sent 1 t l [] true).startFirmware_spec c.payload
  have served : (s.sent 1 t l [] true).loadForFw l = ((s.sent 1 t l [] true).startFirmware c.payload).svcResult 0 0 := by
    rw [State.loadForFw_sent, if_pos h1, State.withContainer_ok hc]
  obtain ⟨v, hv⟩ := ((s.sent 1 t l [] true).startFirmware c.payload).svcResult_keeps 0 0
  have known := State.svcKnown_of_sent (State.svc_of_offQueues hoff) 0 0
  rw [hv] at served known
  rw [served]
  exact ⟨known, hstep, hram, hlatch, hpc, hbusy, (State.threads_of_offQueues hoff).trans (s.sent_threads ..)⟩

/-- LOAD_TILET where class 5 is full (R478). -/
theorem State.loadTilet_full {s : State} (t l : Nat) (hk : decide ((Tab.get memDefault s.bar2 0xC).toNat % 2 = 1) ≠ decide (s.startStep = 2))
    (hldr : s.ldr = none) (hfull : s.queueFull 5 = true) :
    let u := (s.sent 2 t l [] true).loadTilet l
    u.svcKnown = some 0x01 ∧ u.ldr = none ∧ u.threads = s.threads := by
  let counted := (s.sent 2 t l [] true).incF (FOR_QSTAT 4) FOR_QSTAT_FULL
  have hoff : counted.offQueues = (s.sent 2 t l [] true).offQueues := State.incF_offQueues ..
  have hsvc := (State.svc_of_offQueues hoff).trans (s.sent_svc ..)
  have served : (s.sent 2 t l [] true).loadTilet l = (counted.answered 0x01).modSvc fun c => { c with retry := (s.sent 2 t l [] true).busyRetry } := by
    rw [State.loadTilet_sent, if_neg hk, if_neg (by simp [hldr]), if_pos hfull, State.svcResult_of_svc hsvc rfl]
  rw [served]
  refine ⟨?_, ?_, ?_⟩
  · simp [svcKnown, modSvc, answered, hsvc]
  · exact (State.ldr_of_offQueues hoff).trans ((s.sent_ldr ..).trans hldr)
  · exact (State.threads_of_offQueues hoff).trans (s.sent_threads ..)

end Sys2Proof.Machine
end

section
/-! SUPPORT. LOAD_UCODE: the stores of an engine (R319, R381, R383). -/

namespace Sys2Proof.Machine

/-- A register outside the Forester's block and the service port's keeps its value as a command is issued. -/
theorem State.reg_sent_of_block (s : State) (op t l : Nat) (bad : List Nat) (starts : Bool) {q : Reg} (hq : q.inWindow = true)
    (h13 : q.block ≠ 0x13) (h16 : q.block ≠ 0x16) : (s.sent op t l bad starts).reg q = s.reg q :=
  s.reg_sent_ne _ _ _ _ _ (Reg.key_ne hq (by decide) fun e => h16 (congrArg Reg.block e))
    (Reg.key_ne hq (by decide) fun e => h16 (congrArg Reg.block e)) (Reg.key_ne hq (by decide) fun e => h13 (congrArg Reg.block e))

/-! The microwords of a payload. -/

theorem get_microWords_below (n : Nat) (p : List Byte) : ∀ j < n, Tab.get (fun _ => (0 : BitVec 24)) (microWords n p) j = 0 := by
  fun_induction microWords n p with
  | case1 i a b c d t w h ih => exact fun j hj => ih j (by omega)
  | case2 i a b c d t w h ih =>
    intro j hj
    rw [Tab.get, if_neg (by omega)]
    exact ih j (by omega)
  | case3 => exact fun j _ => rfl

/-- Word i of the image lies in the bytes 4i to 4i + 2. -/
theorem get_microWords (n : Nat) (p : List Byte) : ∀ i, 4 * i + 4 ≤ p.length →
    Tab.get (fun _ => (0 : BitVec 24)) (microWords n p) (n + i) = BitVec.ofNat 24 (fromLe ((p.drop (4 * i)).take 3)) := by
  fun_induction microWords n p with
  | case1 n a b c d t w h ih =>
    intro i hi
    cases i with
    | zero => exact (get_microWords_below (n + 1) t n (by omega)).trans h.symm
    | succ i =>
      simp only [List.length_cons] at hi
      rw [show n + (i + 1) = n + 1 + i by omega, ih i (by omega)]
      rfl
  | case2 n a b c d t w h ih =>
    intro i hi
    cases i with
    | zero => exact if_pos rfl
    | succ i =>
      simp only [List.length_cons] at hi
      rw [Tab.get, if_neg (by omega), show n + (i + 1) = n + 1 + i by omega, ih i (by omega)]
      rfl
  | case3 p n hp =>
    intro i hi
    match p, hp with
    | a :: b :: c :: d :: t, hp => exact absurd rfl (hp a b c d t)
    | [], _ | [_], _ | [_, _], _ | [_, _, _], _ => simp at hi

/-- The words of a payload, each as its bytes spell it. -/
theorem get_microWords_zero (p : List Byte) (i : Nat) (h : 4 * i + 4 ≤ p.length) :
    Tab.get (fun _ => (0 : BitVec 24)) (microWords 0 p) i = BitVec.ofNat 24 (fromLe ((p.drop (4 * i)).take 3)) := by
  rw [← get_microWords 0 p i h, Nat.zero_add]

/-! Engines. -/

@[simp] theorem State.eng_modEng_self (s : State) (e : Nat) (f : TwigEng → TwigEng) : (s.modEng e f).eng e = f (s.eng e) :=
  Tab.get_set_self _ _ _ _
theorem State.eng_modEng_ne (s : State) {d e : Nat} (f : TwigEng → TwigEng) (h : d ≠ e) : (s.modEng e f).eng d = s.eng d :=
  Tab.get_set_ne _ _ _ h
theorem State.reg_modEng (s : State) (e : Nat) (f : TwigEng → TwigEng) (q : Reg) : (s.modEng e f).reg q = s.reg q := rfl
theorem State.modEng_svc (s : State) (e : Nat) (f : TwigEng → TwigEng) : (s.modEng e f).svc = s.svc := rfl
theorem State.setF_svc (s : State) (r : Reg) (f : Fld) (v : Nat) : (s.setF r f v).svc = s.svc := s.setReg_svc ..
theorem State.eng_setF (s : State) (r : Reg) (f : Fld) (v e : Nat) : (s.setF r f v).eng e = s.eng e := by
  rw [eng, setF, setReg_engines, eng]

theorem twg_mcstat_inWindow {e : Nat} (h : e < 256) : (TWG_MCSTAT e).inWindow = true :=
  Reg.inWindow_of h (show 0x28 < 2 ^ 24 by decide)

theorem State.storeOk_of_reg {s u : State} {e : Nat} (h : u.reg (TWG_MCSTAT e) = s.reg (TWG_MCSTAT e)) : u.storeOk e = s.storeOk e := by
  have field (f : Fld) : u.getF (TWG_MCSTAT e) f = s.getF (TWG_MCSTAT e) f := by rw [getF, h, getF]
  simp only [storeOk, field]

/-- An engine with an image in store 0, or in its other store (R381). -/
def TwigEng.loaded (x : TwigEng) (k : Nat) (w : Tab (BitVec 24)) : TwigEng := if k = 0 then { x with store0 := w } else { x with store1 := w }

theorem TwigEng.stores_loaded_zero (x : TwigEng) (w : Tab (BitVec 24)) : (x.loaded 0 w).store0 = w ∧ (x.loaded 0 w).store1 = x.store1 :=
  ⟨rfl, rfl⟩
theorem TwigEng.stores_loaded_one (x : TwigEng) (w : Tab (BitVec 24)) : (x.loaded 1 w).store0 = x.store0 ∧ (x.loaded 1 w).store1 = w :=
  ⟨rfl, rfl⟩

/-- The field that says that a store holds a valid image (R381). -/
def mcVal (k : Nat) : Fld := if k = 0 then TWG_MCSTAT_VAL0 else TWG_MCSTAT_VAL1

/-- An image in a store of an engine: its words, and VAL; the other store, the other engines' registers and the command stay. -/
theorem State.fillStore_spec (s : State) (e k serial : Nat) (p : List Byte) (hk : k < 2) :
    let u := s.fillStore e k serial p
    u.svc = s.svc ∧ u.eng e = (s.eng e).loaded k (microWords 0 p) ∧
      u.reg (TWG_MCSTAT e) = (mcVal k).put (s.reg (TWG_MCSTAT e)) 1 ∧ ∀ d, d ≠ e → u.reg (TWG_MCSTAT d) = s.reg (TWG_MCSTAT d) := by
  have version (d : Nat) : (TWG_MCSTAT d).key ≠ (TWG_MCVER e k).key := by
    simp only [Reg.key, TWG_MCSTAT, TWG_MCVER]
    omega
  have engine (d : Nat) (hd : d ≠ e) : (TWG_MCSTAT d).key ≠ (TWG_MCSTAT e).key := by
    simp only [Reg.key, TWG_MCSTAT]
    omega
  refine ⟨?_, ?_, ?_, fun d hd => ?_⟩
  · simp only [fillStore, setF_svc, modEng_svc]
  · simp only [fillStore, eng_setF, eng_modEng_self]
    rfl
  · rw [fillStore, setF, State.reg_setReg_self, State.reg_setF_ne _ _ _ (version e), State.reg_setF_ne _ _ _ (version e), State.reg_modEng]
    rfl
  · rw [fillStore, State.reg_setF_ne _ _ _ (engine d hd), State.reg_setF_ne _ _ _ (version d), State.reg_setF_ne _ _ _ (version d),
      State.reg_modEng]

/-- Store 0 of an engine in reset holds an image and is the active one. -/
def State.fillReset (s : State) (e serial : Nat) (p : List Byte) : State := (s.fillStore e 0 serial p).setF (TWG_MCSTAT e) TWG_MCSTAT_ACT 0

/-- STATE 2 of a Glade whose engines both hold a valid image in their active stores (R319). -/
def State.noteStores (s : State) (g : Nat) : State :=
  if s.storeOk (2 * g) && s.storeOk (2 * g + 1) then s.setF (GLD_STAT g) GLD_STAT_STATE 2 else s

/-- The store that is not active holds an image, and a swap is asked for (R383). -/
def State.fillOther (s : State) (e k serial : Nat) (p : List Byte) : State := (s.fillStore e k serial p).setF (TWG_MCSTAT e) TWG_MCSTAT_SWAP 1

theorem State.fillReset_spec (s : State) (e serial : Nat) (p : List Byte) :
    let u := s.fillReset e serial p
    u.svc = s.svc ∧ u.eng e = (s.eng e).loaded 0 (microWords 0 p) ∧ u.getF (TWG_MCSTAT e) TWG_MCSTAT_VAL0 = 1 ∧
      u.getF (TWG_MCSTAT e) TWG_MCSTAT_ACT = 0 ∧ ∀ d, d ≠ e → u.storeOk d = s.storeOk d := by
  obtain ⟨hsvc, heng, hreg, hother⟩ := s.fillStore_spec e 0 serial p (by decide)
  refine ⟨?_, ?_, ?_, State.getF_setF_self _ _ _ _ (by decide), fun d hd => State.storeOk_of_reg ?_⟩
  · rw [fillReset, setF_svc, hsvc]
  · rw [fillReset, eng_setF, heng]
  · rw [fillReset, State.getF_setF_apart _ _ _ _ _ (by decide), getF, hreg]
    exact Fld.get_put_self _ _ _ (by decide)
  · rw [fillReset, State.reg_setF_ne _ _ _ (by simp only [Reg.key, TWG_MCSTAT]; omega), hother d hd]

theorem State.noteStores_spec (s : State) (g : Nat) :
    let u := s.noteStores g
    u.svc = s.svc ∧ (∀ e, u.eng e = s.eng e) ∧ (∀ e f, e < 8 → u.getF (TWG_MCSTAT e) f = s.getF (TWG_MCSTAT e) f) ∧
      (s.storeOk (2 * g) = true → s.storeOk (2 * g + 1) = true → u.gldState g = 2) := by
  unfold State.noteStores
  split
  · refine ⟨State.setF_svc .., fun e => State.eng_setF .., fun e f he => State.getF_setF_ne _ _ _ _ ?_, fun _ _ => ?_⟩
    · simp only [Reg.key, TWG_MCSTAT, GLD_STAT]
      omega
    · exact State.getF_setF_self _ _ _ _ (by decide)
  · next h => exact ⟨rfl, fun _ => rfl, fun _ _ _ => rfl, fun h0 h1 => absurd (by rw [h0, h1]; rfl) h⟩

theorem State.fillOther_spec (s : State) (e k serial : Nat) (p : List Byte) (hk : k < 2) :
    let u := s.fillOther e k serial p
    u.svc = s.svc ∧ u.eng e = (s.eng e).loaded k (microWords 0 p) ∧
      u.getF (TWG_MCSTAT e) TWG_MCSTAT_SWAP = 1 ∧ u.getF (TWG_MCSTAT e) TWG_MCSTAT_ACT = s.getF (TWG_MCSTAT e) TWG_MCSTAT_ACT := by
  obtain ⟨hsvc, heng, hreg, -⟩ := s.fillStore_spec e k serial p hk
  refine ⟨?_, ?_, State.getF_setF_self _ _ _ _ (by decide), ?_⟩
  · rw [fillOther, setF_svc, hsvc]
  · rw [fillOther, eng_setF, heng]
  · rw [fillOther, State.getF_setF_apart _ _ _ _ _ (by decide), getF, hreg, Fld.get_put_ne _ _ _ _ (by unfold mcVal; split <;> decide), getF]

section
variable {s : State} {e l : Nat} {c : Container}

theorem State.mcstat_sent (op t l : Nat) (bad : List Nat) (starts : Bool) (he : e < 8) :
    (s.sent op t l bad starts).reg (TWG_MCSTAT e) = s.reg (TWG_MCSTAT e) :=
  s.reg_sent_of_block _ _ _ _ _ (twg_mcstat_inWindow (by omega)) (by simp [TWG_MCSTAT]) (by simp [TWG_MCSTAT])

theorem State.eng_sent (op t l : Nat) (bad : List Nat) (starts : Bool) (e : Nat) : (s.sent op t l bad starts).eng e = s.eng e := by
  rw [eng, s.sent_engines, eng]

theorem State.loadUcode_sent (he : e < 8) : (s.sent 3 e l [] true).loadUcode e l = (s.sent 3 e l [] true).withContainer 2 l 0 fun c =>
    if bitOf s.gladeRst (e / 2) then (((s.sent 3 e l [] true).fillReset e c.serial c.payload).noteStores (e / 2)).svcResult 0 0
    else ((s.sent 3 e l [] true).fillOther e (1 - s.getF (TWG_MCSTAT e) TWG_MCSTAT_ACT) c.serial c.payload).underWay := by
  have hact : (s.sent 3 e l [] true).getF (TWG_MCSTAT e) TWG_MCSTAT_ACT = s.getF (TWG_MCSTAT e) TWG_MCSTAT_ACT := by
    rw [getF, State.mcstat_sent _ _ _ _ _ he, getF]
  simp only [loadUcode, s.sent_gladeRst, hact]
  rfl

/-- LOAD_UCODE of an engine in reset fills store 0 and makes it the active one; with both engines loaded the Glade's STATE is 2 (R319). -/
theorem State.loadUcode_inReset (he : e < 8) (hrst : bitOf s.gladeRst (e / 2) = true)
    (hc : (s.sent 3 e l [] true).container 2 l 0 = .ok c) :
    let u := (s.sent 3 e l [] true).loadUcode e l
    u.svcKnown = some 0 ∧ u.eng e = (s.eng e).loaded 0 (microWords 0 c.payload) ∧ u.getF (TWG_MCSTAT e) TWG_MCSTAT_VAL0 = 1 ∧
      u.getF (TWG_MCSTAT e) TWG_MCSTAT_ACT = 0 ∧ (s.storeOk (e / 2 * 2 + (1 - e % 2)) = true → u.gldState (e / 2) = 2) := by
  obtain ⟨fsvc, feng, fval, fact, fother⟩ := (s.sent 3 e l [] true).fillReset_spec e c.serial c.payload
  obtain ⟨nsvc, neng, nreg, nstate⟩ := ((s.sent 3 e l [] true).fillReset e c.serial c.payload).noteStores_spec (e / 2)
  have fok : ((s.sent 3 e l [] true).fillReset e c.serial c.payload).storeOk e = true := by simp [storeOk, fval, fact]
  rw [State.loadUcode_sent he, State.withContainer_ok hc, if_pos hrst]
  refine ⟨State.svcKnown_of_sent (nsvc.trans fsvc) 0 0, ?_, ?_, ?_, fun hok => ?_⟩
  · rw [State.eng_svcResult, neng, feng, State.eng_sent]
  · rw [State.getF_svcResult, nreg _ _ he, fval]
  · rw [State.getF_svcResult, nreg _ _ he, fact]
  · have other : ((s.sent 3 e l [] true).fillReset e c.serial c.payload).storeOk (e / 2 * 2 + (1 - e % 2)) = true := by
      rw [fother _ (by omega), State.storeOk_of_reg (State.mcstat_sent _ _ _ _ _ (by omega)), hok]
    rw [gldState, State.getF_svcResult, ← gldState]
    rcases Nat.mod_two_eq_zero_or_one e with h0 | h1
    · rw [show e / 2 * 2 + (1 - e % 2) = 2 * (e / 2) + 1 by omega] at other
      exact nstate (by rw [show 2 * (e / 2) = e by omega]; exact fok) other
    · rw [show e / 2 * 2 + (1 - e % 2) = 2 * (e / 2) by omega] at other
      exact nstate other (by rw [show 2 * (e / 2) + 1 = e by omega]; exact fok)

/-- LOAD_UCODE of an engine that runs fills the store that is not active, and asks for the swap (R383). -/
theorem State.loadUcode_running (he : e < 8) (hrst : bitOf s.gladeRst (e / 2) = false)
    (hc : (s.sent 3 e l [] true).container 2 l 0 = .ok c) :
    let u := (s.sent 3 e l [] true).loadUcode e l
    u.svcKnown = none ∧ u.getF (TWG_MCSTAT e) TWG_MCSTAT_SWAP = 1 ∧
      u.getF (TWG_MCSTAT e) TWG_MCSTAT_ACT = s.getF (TWG_MCSTAT e) TWG_MCSTAT_ACT ∧
      (s.getF (TWG_MCSTAT e) TWG_MCSTAT_ACT = 0 → u.eng e = (s.eng e).loaded 1 (microWords 0 c.payload)) ∧
      (s.getF (TWG_MCSTAT e) TWG_MCSTAT_ACT = 1 → u.eng e = (s.eng e).loaded 0 (microWords 0 c.payload)) := by
  obtain ⟨fsvc, feng, fswap, fact⟩ :=
    (s.sent 3 e l [] true).fillOther_spec e (1 - s.getF (TWG_MCSTAT e) TWG_MCSTAT_ACT) c.serial c.payload (by omega)
  rw [State.loadUcode_sent he, State.withContainer_ok hc, if_neg (by simp [hrst])]
  refine ⟨State.svcKnown_underWay (fsvc.trans (s.sent_svc ..)) rfl, ?_, ?_, fun h0 => ?_, fun h1 => ?_⟩
  · rw [State.getF_underWay, fswap]
  · rw [State.getF_underWay, fact, getF, State.mcstat_sent _ _ _ _ _ he, getF]
  · rw [State.eng_underWay, feng, State.eng_sent, h0]
  · rw [State.eng_underWay, feng, State.eng_sent, h1]

end

end Sys2Proof.Machine
end

section
/-! SUPPORT. Blocks that leave a reset change registers and active values only (R40); LOAD_GLADE_FW (R319, R359). -/

namespace Sys2Proof.Machine

/-- The state without its registers and active values. -/
def State.offRegs (s : State) : State := { s with regs := [], active := [] }

@[simp] theorem State.offRegs_with (s : State) (regs active : Tab Word) :
    ({ s with regs := regs, active := active } : State).offRegs = s.offRegs := rfl

theorem State.svc_of_offRegs {s u : State} (h : u.offRegs = s.offRegs) : u.svc = s.svc := (congrArg State.svc h :)
theorem State.engines_of_offRegs {s u : State} (h : u.offRegs = s.offRegs) : u.engines = s.engines := (congrArg State.engines h :)
theorem State.gladeRst_of_offRegs {s u : State} (h : u.offRegs = s.offRegs) : u.gladeRst = s.gladeRst := (congrArg State.gladeRst h :)
theorem State.released_of_offRegs {s u : State} (h : u.offRegs = s.offRegs) : u.released = s.released := (congrArg State.released h :)
theorem State.mem_of_offRegs {s u : State} (h : u.offRegs = s.offRegs) : u.mem = s.mem := (congrArg State.mem h :)
theorem State.standRst_of_offRegs {s u : State} (h : u.offRegs = s.offRegs) : u.standRst = s.standRst := (congrArg State.standRst h :)
theorem State.threads_of_offRegs {s u : State} (h : u.offRegs = s.offRegs) : u.threads = s.threads := (congrArg State.threads h :)
theorem State.cores_of_offRegs {s u : State} (h : u.offRegs = s.offRegs) : u.cores = s.cores := (congrArg State.cores h :)

@[simp] theorem State.setReg_offRegs (s : State) (r : Reg) (v : Word) : (s.setReg r v).offRegs = s.offRegs := by
  rw [State.setReg, State.offRegs_with]
@[simp] theorem State.setF_offRegs (s : State) (r : Reg) (f : Fld) (v : Nat) : (s.setF r f v).offRegs = s.offRegs := by
  rw [State.setF, State.setReg_offRegs]
@[simp] theorem State.setAct_offRegs (s : State) (r : Reg) (v : Word) : (s.setAct r v).offRegs = s.offRegs := by
  rw [State.setAct, State.offRegs_with]

@[simp] theorem State.resetRegs_offRegs (s : State) (b i : Nat) : (s.resetRegs b i).offRegs = s.offRegs := by
  rw [State.resetRegs, State.offRegs_with]

@[simp] theorem State.fromRetained_offRegs (s : State) (b i : Nat) : (s.fromRetained b i).offRegs = s.offRegs := by
  refine State.foldl_keeps State.offRegs _ (fun s e => ?_) _ s
  split
  · rw [setAct_offRegs, setReg_offRegs]
  · rfl

/-! LOAD_GLADE_FW. -/

/-- An engine as firmware starts on it: the image in its memory, task 0 alone ready (R359). -/
def TwigEng.started (x : TwigEng) (fw : List Byte) : TwigEng :=
  { x with local_ := memPut x.local_ 0 fw, tasks := [(0, { TwigTask.free with st := 1, resident := true })], lru := [0] }

theorem State.eng_startEngine_self (s : State) (e : Nat) (fw : List Byte) : (s.startEngine e fw).eng e = (s.eng e).started fw := by
  rw [startEngine, showResident, eng_setF, eng_modEng_self]
  rfl

theorem State.eng_startEngine_ne (s : State) {d e : Nat} (fw : List Byte) (h : d ≠ e) : (s.startEngine e fw).eng d = s.eng d := by
  rw [startEngine, showResident, eng_setF, State.eng_modEng_ne _ _ h]

theorem State.startEngine_svc (s : State) (e : Nat) (fw : List Byte) : (s.startEngine e fw).svc = s.svc := by
  rw [startEngine, showResident, setF_svc, modEng_svc]

theorem State.setF_gladeRst (s : State) (r : Reg) (f : Fld) (v : Nat) : (s.setF r f v).gladeRst = s.gladeRst := s.setReg_gladeRst ..
theorem State.modEng_gladeRst (s : State) (e : Nat) (f : TwigEng → TwigEng) : (s.modEng e f).gladeRst = s.gladeRst := rfl

theorem State.startEngine_gladeRst (s : State) (e : Nat) (fw : List Byte) : (s.startEngine e fw).gladeRst = s.gladeRst := by
  rw [startEngine, showResident, setF_gladeRst, modEng_gladeRst]

/-- What a started engine's tasks and memory are. -/
theorem State.task_started {s u : State} {e : Nat} {fw : List Byte} (h : u.eng e = (s.eng e).started fw) :
    (u.task e 0).st = 1 ∧ (u.task e 0).bank.pc = 0 ∧ (∀ k, k ≠ 0 → (u.task e k).st = 0) ∧
      ∀ k < fw.length, Tab.get memDefault (u.eng e).local_ k = fw.getD k 0 := by
  have tasks : (u.eng e).tasks = [(0, { TwigTask.free with st := 1, resident := true })] := congrArg TwigEng.tasks h
  have mem : (u.eng e).local_ = memPut (s.eng e).local_ 0 fw := congrArg TwigEng.local_ h
  refine ⟨by rw [task, tasks]; rfl, by rw [task, tasks]; rfl, fun k hk => ?_, fun k hk => ?_⟩
  · rw [task, tasks, Tab.get, if_neg (Ne.symm hk)]
    rfl
  · rw [mem, List.getD_eq_getElem _ _ hk]
    simpa using memPut_get fw (s.eng e).local_ 0 k hk

/-- A Glade out of reset, with firmware on both engines (R319 steps 4 and 5). -/
def State.startGlade (s : State) (n : Nat) (fw : List Byte) : State :=
  ((((gladeInsts n).foldl (fun (s : State) i => s.fromRetained i.1 i.2) { s with gladeRst := setBit s.gladeRst n false }).startEngine (2 * n) fw).startEngine
    (2 * n + 1) fw).setF (GLD_STAT n) GLD_STAT_STATE 3

theorem State.startGlade_spec (s : State) (n : Nat) (fw : List Byte) :
    let u := s.startGlade n fw
    u.svc = s.svc ∧ bitOf u.gladeRst n = false ∧ u.gldState n = 3 ∧ ∀ e, e = 2 * n ∨ e = 2 * n + 1 → u.eng e = (s.eng e).started fw := by
  let out (s : State) : State := { s with gladeRst := setBit s.gladeRst n false }
  have outSvc (s : State) : (out s).svc = s.svc := rfl
  have outEng (s : State) (e : Nat) : (out s).eng e = s.eng e := rfl
  have outRst (s : State) : bitOf (out s).gladeRst n = false := bitOf_setBit_self s.gladeRst n false
  have img := State.foldl_keeps State.offRegs (fun s (i : Nat × Nat) => s.fromRetained i.1 i.2) (fun s i => s.fromRetained_offRegs _ _) (gladeInsts n) (out s)
  have imgEng (e : Nat) : ((gladeInsts n).foldl (fun (s : State) i => s.fromRetained i.1 i.2) (out s)).eng e = s.eng e := by
    rw [eng, State.engines_of_offRegs img, ← eng, outEng]
  refine ⟨?_, ?_, State.getF_setF_self _ _ _ _ (by decide), fun e he => ?_⟩
  · rw [startGlade, setF_svc, startEngine_svc, startEngine_svc, State.svc_of_offRegs img, outSvc]
  · rw [startGlade, setF_gladeRst, startEngine_gladeRst, startEngine_gladeRst, State.gladeRst_of_offRegs img, outRst]
  · rw [startGlade, eng_setF]
    rcases he with rfl | rfl
    · rw [State.eng_startEngine_ne _ _ (by omega), State.eng_startEngine_self, imgEng]
    · rw [State.eng_startEngine_self, State.eng_startEngine_ne _ _ (by omega), imgEng]

theorem State.gldState_sent (s : State) (op t l : Nat) (bad : List Nat) (starts : Bool) {n : Nat} (hn : n < 256) :
    (s.sent op t l bad starts).gldState n = s.gldState n := by
  rw [gldState, getF, s.reg_sent_of_block _ _ _ _ _ (Reg.inWindow_of hn (show 0x0 < 2 ^ 24 by decide)) (by simp [GLD_STAT]) (by simp [GLD_STAT]),
    gldState, getF]

theorem State.loadGladeFw_sent (s : State) (l : Nat) (b : Bool) {n : Nat} (hn : n < 256) : (s.sent 4 n l [] b).loadGladeFw n l b =
    if s.gldState n ≠ 2 ∨ bitOf s.gladeRst n = false then (s.sent 4 n l [] b).answered 0x02
    else (s.sent 4 n l [] b).withContainer 3 l 0 fun c =>
      if b = false then (s.sent 4 n l [] b).answered 0x0C else ((s.sent 4 n l [] b).startGlade n c.payload).svcResult 0 0 := by
  simp only [loadGladeFw, State.gldState_sent _ _ _ _ _ _ hn, s.sent_gladeRst, State.svcResult_sent, startGlade]

/-- LOAD_GLADE_FW of a Glade that starts. -/
theorem State.loadGladeFw_starts (s : State) (l : Nat) {n : Nat} (p : List Byte) :
    let u := ((s.sent 4 n l [] true).startGlade n p).svcResult 0 0
    u.svcKnown = some 0 ∧ bitOf u.gladeRst n = false ∧ u.gldState n = 3 ∧ ∀ e, e = 2 * n ∨ e = 2 * n + 1 →
      (u.task e 0).st = 1 ∧ (u.task e 0).bank.pc = 0 ∧ (∀ k, k ≠ 0 → (u.task e k).st = 0) ∧
        ∀ k < p.length, Tab.get memDefault (u.eng e).local_ k = p.getD k 0 := by
  obtain ⟨hsvc, hrst, hstate, heng⟩ := (s.sent 4 n l [] true).startGlade_spec n p
  refine ⟨State.svcKnown_of_sent hsvc 0 0, ?_, ?_, fun e he => State.task_started (s := s) (fw := p) ?_⟩
  · rw [State.gladeRst_svcResult, hrst]
  · rw [gldState, State.getF_svcResult, ← gldState, hstate]
  · rw [State.eng_svcResult, heng e he, State.eng_sent]

end Sys2Proof.Machine
end

section
/-! SUPPORT. Cores that start (R64, R68, R119), and RELEASE. -/

namespace Sys2Proof.Machine

/-- The state without its threads and cores. -/
def State.offThreads (s : State) : State := { s with threads := [], cores := [] }

@[simp] theorem State.offThreads_with (s : State) (threads : Tab Thread) (cores : Tab Core) :
    ({ s with threads := threads, cores := cores } : State).offThreads = s.offThreads := rfl

theorem State.active_of_offThreads {s u : State} (h : u.offThreads = s.offThreads) : u.active = s.active := (congrArg State.active h :)
theorem State.svc_of_offThreads {s u : State} (h : u.offThreads = s.offThreads) : u.svc = s.svc := (congrArg State.svc h :)
theorem State.mem_of_offThreads {s u : State} (h : u.offThreads = s.offThreads) : u.mem = s.mem := (congrArg State.mem h :)

@[simp] theorem State.setThr_offThreads (s : State) (t : Nat) (x : Thread) : (s.setThr t x).offThreads = s.offThreads := by
  rw [State.setThr, State.offThreads_with]
@[simp] theorem State.modCore_offThreads (s : State) (c : Nat) (f : Core → Core) : (s.modCore c f).offThreads = s.offThreads := by
  rw [State.modCore, State.setCore, State.offThreads_with]

/-! What the active values alone decide. -/

section
variable {s u : State} (h : u.active = s.active)
include h

theorem State.act_of_active (r : Reg) : u.act r = s.act r := by rw [act, h, act]
theorem State.actF_of_active (r : Reg) (f : Fld) : u.actF r f = s.actF r f := by rw [actF, State.act_of_active h, actF]
theorem State.coreActive_of_active (c : Nat) : u.coreActive c = s.coreActive c := by rw [coreActive, State.actF_of_active h, coreActive]
theorem State.corePart_of_active (c : Nat) : u.corePart c = s.corePart c := by rw [corePart, State.actF_of_active h, corePart]
theorem State.coreThreads_of_active (c : Nat) : u.coreThreads c = s.coreThreads c := by
  simp only [coreThreads, lcore, State.actF_of_active h]
theorem State.mbaseOf_of_active (t : Nat) : u.mbaseOf t = s.mbaseOf t := by
  simp only [mbaseOf, mbase, part, corePart, pcore, pcoreOfL, coreActive, State.actF_of_active h]

end

/-! Threads that start. -/

theorem State.startThread_offThreads (s : State) (t reason : Nat) : (s.startThread t reason).offThreads = s.offThreads := by
  rw [startThread, setThr_offThreads]

/-- A thread at its entry to M-base (R68, R119). -/
theorem State.starts_startThread (s : State) (t : Nat) {reason : Nat} (hr : reason < 2 ^ 32) :
    ((s.startThread t reason).thr t).starts (s.mbaseOf t) reason := by
  have cause : ({ code := 0x20, info := reason : Cause }.word) = BitVec.ofNat 64 (0x20 * 2 ^ 32 + reason) := by
    simp only [Cause.word, b2n, Bool.false_eq_true, if_false]
    congr 1
    omega
  rw [startThread, State.thr_setThr_self]
  refine ⟨rfl, rfl, ?_, ?_, ?_, fun r => ?_, fun r => rfl, rfl⟩
  · exact (Thread.srg_setSr_ne _ _ (by decide)).trans (Thread.srg_setSr_self ..)
  · exact (Thread.srg_setSr_self ..).trans cause
  · exact (Thread.srg_setSr_ne _ _ (by decide)).trans ((Thread.srg_setSr_ne _ _ (by decide)).trans rfl)
  · exact ite_self (0 : Word)

/-- Starting threads of a list starts each of them, and keeps the ones that had started. -/
theorem State.startThreads_spec {reason : Nat} (hr : reason < 2 ^ 32) (ts : List Nat) : ∀ s : State,
    let u := ts.foldl (fun s t => s.startThread t reason) s
    u.offThreads = s.offThreads ∧ u.cores = s.cores ∧
      ∀ v, v ∈ ts ∨ (s.thr v).starts (s.mbaseOf v) reason → (u.thr v).starts (s.mbaseOf v) reason := by
  induction ts with
  | nil => exact fun s => ⟨rfl, rfl, fun v h => h.resolve_left (by simp)⟩
  | cons t ts ih =>
    intro s
    obtain ⟨hoff, hcores, hstart⟩ := ih (s.startThread t reason)
    have hbase (v : Nat) : (s.startThread t reason).mbaseOf v = s.mbaseOf v :=
      State.mbaseOf_of_active (State.active_of_offThreads (s.startThread_offThreads t reason)) v
    refine ⟨hoff.trans (s.startThread_offThreads t reason), hcores.trans (by rw [startThread, setThr_cores]), fun v hv => ?_⟩
    rw [← hbase v]
    apply hstart v
    rw [hbase v]
    by_cases hvt : v = t
    · subst hvt
      exact .inr (s.starts_startThread v hr)
    · have same : (s.startThread t reason).thr v = s.thr v := by rw [startThread, State.thr_setThr_ne _ _ hvt]
      rw [same]
      simpa [hvt] using hv

/-- A core that starts leaves reset with its threads at M-base; cores and threads that had started stay so. -/
theorem State.startCore_spec (s : State) (c : Nat) {reason : Nat} (hr : reason < 2 ^ 32) :
    let u := s.startCore c reason
    u.offThreads = s.offThreads ∧ (∀ d, d = c ∨ (s.core d).held = false → (u.core d).held = false) ∧
      ∀ v, v ∈ s.coreThreads c ∨ (s.thr v).starts (s.mbaseOf v) reason → (u.thr v).starts (s.mbaseOf v) reason := by
  let g := s.modCore c fun x => { x with held := false }
  obtain ⟨hoff, hcores, hstart⟩ := State.startThreads_spec hr (s.coreThreads c) g
  have goff : g.offThreads = s.offThreads := s.modCore_offThreads ..
  have gthr (v : Nat) : g.thr v = s.thr v := by simp only [g, modCore, State.thr_setCore]
  refine ⟨hoff.trans goff, fun d hd => ?_, fun v hv => ?_⟩
  · have same : ((s.coreThreads c).foldl (fun s t => s.startThread t reason) g).core d = g.core d := by rw [core, hcores, core]
    rw [startCore, same]
    by_cases hdc : d = c
    · rw [hdc]
      simp only [g, modCore, State.core_setCore_self]
    · simp only [g, modCore, State.core_setCore_ne _ _ hdc]
      exact hd.resolve_left hdc
  · have := hstart v
    rw [State.mbaseOf_of_active (State.active_of_offThreads goff), gthr] at this
    exact this hv

/-- Every core of a list starts (R64). -/
theorem State.foldl_startCore_spec {reason : Nat} (hr : reason < 2 ^ 32) (cs : List Nat) : ∀ s : State,
    let u := cs.foldl (fun s c => s.startCore c reason) s
    u.offThreads = s.offThreads ∧ (∀ d, d ∈ cs ∨ (s.core d).held = false → (u.core d).held = false) ∧
      ∀ v, (∃ c ∈ cs, v ∈ s.coreThreads c) ∨ (s.thr v).starts (s.mbaseOf v) reason → (u.thr v).starts (s.mbaseOf v) reason := by
  induction cs with
  | nil => exact fun s => ⟨rfl, fun d h => h.resolve_left (by simp), fun v h => h.resolve_left (by simp)⟩
  | cons c cs ih =>
    intro s
    obtain ⟨coff, cheld, cstart⟩ := s.startCore_spec c hr
    obtain ⟨hoff, hheld, hstart⟩ := ih (s.startCore c reason)
    have act : (s.startCore c reason).active = s.active := State.active_of_offThreads coff
    refine ⟨hoff.trans coff, fun d hd => hheld d ?_, fun v hv => ?_⟩
    · rcases hd with hd | hd
      · rcases List.mem_cons.mp hd with rfl | hd
        · exact .inr (cheld d (.inl rfl))
        · exact .inl hd
      · exact .inr (cheld d (.inr hd))
    · rw [← State.mbaseOf_of_active act v]
      apply hstart v
      rw [State.mbaseOf_of_active act v]
      rcases hv with ⟨d, hd, hv⟩ | hv
      · rcases List.mem_cons.mp hd with rfl | hd
        · exact .inr (cstart v (.inl hv))
        · exact .inl ⟨d, hd, by rwa [State.coreThreads_of_active act]⟩
      · exact .inr (cstart v (.inr hv))

/-- Where no core fails its self-test, each of the cores starts. -/
theorem State.startCores_nil (s : State) (cs : List Nat) (reason : Nat) :
    s.startCores cs [] reason = cs.foldl (fun s c => s.startCore c reason) s := by
  have noneLost : ∀ (cs : List Nat) (s : State), cs.foldl (fun (a : State × List Nat) c => (a.1.startCore c reason, a.2)) (s, []) =
      (cs.foldl (fun s c => s.startCore c reason) s, []) := by
    intro cs
    induction cs with
    | nil => exact fun _ => rfl
    | cons c cs ih => exact fun s => ih (s.startCore c reason)
  simp only [startCores, List.contains_nil, Bool.false_eq_true, if_false, noneLost, List.foldl_nil]

/-! The voltage of a Stand. -/

@[simp] theorem State.parkVolt_offRegs (s : State) (st : Nat) : (s.parkVolt st).offRegs = s.offRegs := by
  unfold State.parkVolt
  split
  · exact s.setF_offRegs ..
  · split
    · exact s.setF_offRegs ..
    · rfl

theorem State.reg_parkVolt (s : State) (st : Nat) {q : Reg} (h : q.key ≠ (PWR_RAIL st).key) : (s.parkVolt st).reg q = s.reg q := by
  unfold State.parkVolt
  split
  · exact State.reg_setF_ne _ _ _ h
  · split
    · exact State.reg_setF_ne _ _ _ h
    · rfl

theorem State.reg_parkVolts {q : Reg} (sts : List Nat) (h : ∀ st ∈ sts, q.key ≠ (PWR_RAIL st).key) :
    ∀ s : State, (sts.foldl State.parkVolt s).reg q = s.reg q := by
  induction sts with
  | nil => exact fun _ => rfl
  | cons st sts ih =>
    intro s
    exact (ih (fun x hx => h x (by simp [hx])) _).trans (s.reg_parkVolt st (h st (by simp)))

end Sys2Proof.Machine
end

section
/-! SUPPORT. RELEASE (R63, R64). -/

namespace Sys2Proof.Machine

/-! RELEASE. -/

theorem State.mem_heldCores (s : State) (p c : Nat) : c ∈ s.heldCores p ↔
    c < 72 ∧ s.coreActive c = true ∧ s.corePart c = p ∧ (s.core c).held = true ∧ bitOf s.standRst (c / 18) = false := by
  simp only [heldCores, List.mem_filter, List.mem_range, Bool.and_eq_true, beq_iff_eq, Bool.not_eq_true', standOf, and_assoc]

/-- The held cores of a partition have started, with STEP 6 and the partition released. -/
def State.startPart (s : State) (p : Nat) : State :=
  let s := (s.heldCores p).foldl (fun s c => s.startCore c 0) s |>.setF SVP_STAT SVP_STAT_STEP 6
  { s with released := setBit s.released p true }

theorem State.startPart_spec (s : State) (p : Nat) :
    let u := s.startPart p
    u.svc = s.svc ∧ u.mem = s.mem ∧ bitOf u.released p = true ∧ u.startStep = 6 ∧
      ∀ c ∈ s.heldCores p, (u.core c).held = false ∧ ∀ v ∈ s.coreThreads c, (u.thr v).starts (s.mbaseOf v) 0 := by
  let g := (s.heldCores p).foldl (fun s c => s.startCore c 0) s
  obtain ⟨hoff, hheld, hstart⟩ := State.foldl_startCore_spec (reason := 0) (by decide) (s.heldCores p) s
  have released (w : State) (r : Nat) : ({ w with released := r } : State).svc = w.svc ∧ ({ w with released := r } : State).mem = w.mem ∧
    ({ w with released := r } : State).startStep = w.startStep ∧ (∀ c, ({ w with released := r } : State).core c = w.core c) ∧
    ∀ v, ({ w with released := r } : State).thr v = w.thr v := ⟨rfl, rfl, rfl, fun _ => rfl, fun _ => rfl⟩
  obtain ⟨rsvc, rmem, rstep, rcore, rthr⟩ := released (g.setF SVP_STAT SVP_STAT_STEP 6)
    (setBit (g.setF SVP_STAT SVP_STAT_STEP 6).released p true)
  refine ⟨rsvc.trans ?_, rmem.trans ?_, bitOf_setBit_self (g.setF SVP_STAT SVP_STAT_STEP 6).released p true, rstep.trans ?_,
    fun c hc => ⟨?_, fun v hv => ?_⟩⟩
  · rw [setF_svc, State.svc_of_offThreads hoff]
  · rw [setF, setReg_mem, State.mem_of_offThreads hoff]
  · exact State.getF_setF_self _ _ _ _ (by decide)
  · have := hheld c (.inl hc)
    rw [startPart, rcore, setF, State.core_setReg]
    exact this
  · have := hstart v (.inl ⟨c, hc, hv⟩)
    rw [startPart, rthr, setF, State.thr_setReg]
    exact this

theorem State.release_sent (s : State) (p l : Nat) : (s.sent 7 p l [] true).release p [] =
    if bitOf s.mfw p = false then (s.sent 7 p l [] true).answered 0x02
    else ((List.range 4).foldl State.parkVolt ((s.sent 7 p l [] true).startPart p)).svcResult 0 0 := by
  simp only [release, s.sent_mfw, State.svcResult_sent, State.startCores_nil, startPart]

/-- RELEASE of a loaded partition: its held active cores run at M-base, with STEP 6 (R63 step 11, R64). -/
theorem State.release_loaded (s : State) (p l : Nat) :
    let u := ((List.range 4).foldl State.parkVolt ((s.sent 7 p l [] true).startPart p)).svcResult 0 0
    u.svcKnown = some 0 ∧ u.startStep = 6 ∧ bitOf u.released p = true ∧
      (∀ c < 72, s.coreActive c = true → s.corePart c = p → (s.core c).held = true → bitOf s.standRst (c / 18) = false →
        (u.core c).held = false ∧ ∀ v ∈ s.coreThreads c, (u.thr v).starts (s.mbaseOf v) 0) ∧ u.mem = s.mem := by
  let g := s.sent 7 p l [] true
  let w := (List.range 4).foldl State.parkVolt (g.startPart p)
  have act : g.active = s.active := s.sent_active ..
  obtain ⟨psvc, pmem, preleased, pstep, pcores⟩ := g.startPart_spec p
  have woff : w.offRegs = (g.startPart p).offRegs := State.foldl_keeps State.offRegs State.parkVolt State.parkVolt_offRegs _ _
  have rail : ∀ st ∈ List.range 4, SVP_STAT.key ≠ (PWR_RAIL st).key := by decide
  have wstep : w.startStep = 6 := by
    rw [← pstep, startStep, getF, State.reg_parkVolts _ rail, startStep, getF]
  obtain ⟨x, hx⟩ := w.svcResult_keeps 0 0
  have known := State.svcKnown_of_sent ((State.svc_of_offRegs woff).trans psvc) 0 0
  have fields : (w.svcResult 0 0).released = w.released ∧ (w.svcResult 0 0).mem = w.mem ∧ (w.svcResult 0 0).cores = w.cores ∧
      (w.svcResult 0 0).threads = w.threads := by
    rw [hx]
    exact ⟨rfl, rfl, rfl, rfl⟩
  obtain ⟨rreleased, rmem, rcores, rthreads⟩ := fields
  have hreleased : w.released = (g.startPart p).released := State.released_of_offRegs woff
  refine ⟨known, ?_, ?_, fun c hc hact hpart hheld hrst => ?_, ?_⟩
  · rw [startStep, State.getF_svcResult]
    exact wstep
  · exact (congrArg (bitOf · p) (rreleased.trans hreleased)).trans preleased
  · have held : c ∈ g.heldCores p := by
      rw [g.mem_heldCores, State.coreActive_of_active act, State.corePart_of_active act, core, s.sent_cores, s.sent_standRst]
      exact ⟨hc, hact, hpart, hheld, hrst⟩
    obtain ⟨hrun, hthr⟩ := pcores c held
    refine ⟨?_, fun v hv => ?_⟩
    · rw [core, rcores, State.cores_of_offRegs woff]
      exact hrun
    · rw [thr, rthreads, State.threads_of_offRegs woff, ← State.mbaseOf_of_active act]
      exact hthr v (by rwa [State.coreThreads_of_active act])
  · rw [rmem, State.mem_of_offRegs woff, pmem, s.sent_mem]

end Sys2Proof.Machine
end

section
/-! SUPPORT. RESET_DOMAIN: what the reset of each domain leaves (R66, R259, R275, R455). -/

namespace Sys2Proof.Machine

theorem State.svc_of_offTraffic {s u : State} (h : u.offTraffic = s.offTraffic) : u.svc = s.svc := (congrArg State.svc h :)
theorem State.standRst_of_offTraffic {s u : State} (h : u.offTraffic = s.offTraffic) : u.standRst = s.standRst := (congrArg State.standRst h :)

/-- A fold over distinct things, each step of which settles its own and keeps what is settled, settles all of them. -/
theorem State.foldl_each {α : Type} (P : State → α → Prop) (f : State → α → State) (own : ∀ s a, P (f s a) a)
    (other : ∀ s a b, P s b → P (f s a) b) (l : List α) : ∀ s : State, ∀ b, b ∈ l ∨ P s b → P (l.foldl f s) b := by
  induction l with
  | nil => exact fun s b h => h.resolve_left (by simp)
  | cons a l ih =>
    intro s b h
    refine ih (f s a) b ?_
    rcases h with h | h
    · rcases List.mem_cons.mp h with rfl | h
      · exact .inr (own s b)
      · exact .inl h
    · exact .inr (other s a b h)

/-! A Stand. -/

/-- A thread that a Stand's reset has discarded (R66). -/
def Thread.discarded (x : Thread) : Prop := x.run = .held ∧ ∀ r, x.gr r = 0

/-- A core that a Stand's reset has emptied (R66). -/
def Core.emptied (x : Core) : Prop := x.held = true ∧ x.l2 = []

theorem Thread.reset_discarded (k : List TrkEnt) : ({ Thread.reset with trk := k } : Thread).discarded :=
  ⟨rfl, fun _ => ite_self (0 : Word)⟩

theorem Core.renew_emptied (x : Core) : (x.renew true).emptied := ⟨rfl, rfl⟩

theorem State.coreRegs_offRegs (s : State) (c : Nat) : (s.coreRegs c).offRegs = s.offRegs := by
  have blocks := State.foldl_keeps State.offRegs (fun (s : State) b => (s.resetRegs b c).fromRetained b c)
    (fun s b => by rw [fromRetained_offRegs, resetRegs_offRegs]) [0x01, 0x02, 0x04] s
  rw [coreRegs, setReg_offRegs, setReg_offRegs]
  exact blocks

theorem State.send_threads (s : State) (m : Msg) : (s.send m).threads = s.threads := by
  unfold State.send
  repeat' split
  all_goals rfl

theorem State.send_cores (s : State) (m : Msg) : (s.send m).cores = s.cores := by
  unfold State.send
  repeat' split
  all_goals rfl

theorem State.settleBcasts_threads (s : State) : s.settleBcasts.threads = s.threads := by
  have answered (i : List InBcast) : ({ s with inb := i } : State).threads = s.threads := rfl
  rw [settleBcasts, State.foldl_keeps State.threads _ (fun s i => s.send_threads _), answered]

theorem State.settleBcasts_cores (s : State) : s.settleBcasts.cores = s.cores := by
  have answered (i : List InBcast) : ({ s with inb := i } : State).cores = s.cores := rfl
  rw [settleBcasts, State.foldl_keeps State.cores _ (fun s i => s.send_cores _), answered]

/-- The threads of a Stand stop and hand on what they completed, and its lines leave (R66). -/
def State.standLeaves (s : State) (st : Nat) : State :=
  let act := (standCores st).filter s.coreActive
  let ts := act.flatMap s.coreThreads
  act.foldl (fun s c => (s.drainCore c []).skipCore c)
    (ts.foldl (fun s t => State.handOnStores 49 (s.stopThread t .held) t []) (s.openWindow fun c => standOf c == st))

/-- Threads in reset; what their tracked stores are stays. -/
def State.discardThreads (s : State) (ts : List Nat) : State :=
  ts.foldl (fun s t => s.setThr t { Thread.reset with trk := (s.thr t).trk }) s

/-- Cores in reset, their registers at their reset and retained values. -/
def State.renewCores (s : State) (cs : List Nat) : State := cs.foldl (fun s c => (s.modCore c fun x => x.renew true).coreRegs c) s

theorem State.standReset_eq (s : State) (st : Nat) (h : bitOf s.standRst st = false) : s.standReset st =
    let r := ((s.standLeaves st).discardThreads (((standCores st).filter s.coreActive).flatMap s.coreThreads)).renewCores (standCores st)
    ({ r with standRst := setBit r.standRst st true }.parkVolt st).settleBcasts := by
  rw [standReset, if_neg (by simp [h])]
  rfl

theorem State.standLeaves_offTraffic (s : State) (st : Nat) : (s.standLeaves st).offTraffic = s.offTraffic := by
  simp [standLeaves]

theorem State.discardThreads_offTraffic (s : State) (ts : List Nat) : (s.discardThreads ts).offTraffic = s.offTraffic := by
  simp [discardThreads]

theorem State.discardThreads_discarded (s : State) (ts : List Nat) : ∀ t ∈ ts, ((s.discardThreads ts).thr t).discarded := by
  refine fun t ht => State.foldl_each (fun s t => (s.thr t).discarded) _ (fun s t => ?_) (fun s t v hv => ?_) ts s t (.inl ht)
  · rw [State.thr_setThr_self]
    exact Thread.reset_discarded _
  · by_cases h : v = t
    · rw [h, State.thr_setThr_self]
      exact Thread.reset_discarded _
    · rwa [State.thr_setThr_ne _ _ h]

theorem State.renewCores_threads (s : State) (cs : List Nat) : (s.renewCores cs).threads = s.threads :=
  State.foldl_keeps State.threads _ (fun s c => by rw [State.threads_of_offRegs (State.coreRegs_offRegs _ c), modCore, setCore_threads]) cs s

theorem State.renewCores_svc (s : State) (cs : List Nat) : (s.renewCores cs).svc = s.svc :=
  State.foldl_keeps State.svc _ (fun s c => by rw [State.svc_of_offRegs (State.coreRegs_offRegs _ c), modCore, setCore_svc]) cs s

theorem State.renewCores_emptied (s : State) (cs : List Nat) : ∀ c ∈ cs, ((s.renewCores cs).core c).emptied := by
  have kept (s : State) (c d : Nat) : (((s.modCore c fun x => x.renew true).coreRegs c).core d) = (s.modCore c fun x => x.renew true).core d := by
    rw [core, State.cores_of_offRegs (State.coreRegs_offRegs _ c), core]
  refine fun c hc => State.foldl_each (fun s c => (s.core c).emptied) _ (fun s c => ?_) (fun s c d hd => ?_) cs s c (.inl hc)
  · rw [kept, modCore, State.core_setCore_self]
    exact Core.renew_emptied _
  · rw [kept, modCore]
    by_cases h : d = c
    · rw [h, State.core_setCore_self]
      exact Core.renew_emptied _
    · rwa [State.core_setCore_ne _ _ h]

/-- A Stand that enters its reset: its cores are emptied and held, its threads discarded (R66). -/
theorem State.standReset_spec (s : State) (st : Nat) (h : bitOf s.standRst st = false) :
    let u := s.standReset st
    u.svc = s.svc ∧ bitOf u.standRst st = true ∧ (∀ c ∈ standCores st, (u.core c).emptied) ∧
      ∀ c ∈ standCores st, s.coreActive c = true → ∀ v ∈ s.coreThreads c, (u.thr v).discarded := by
  let ts := ((standCores st).filter s.coreActive).flatMap s.coreThreads
  let d := (s.standLeaves st).discardThreads ts
  let r := d.renewCores (standCores st)
  let into (r : State) : State := { r with standRst := setBit r.standRst st true }
  have intoSvc (r : State) : (into r).svc = r.svc := rfl
  have intoThr (r : State) (v : Nat) : (into r).thr v = r.thr v := rfl
  have intoCore (r : State) (c : Nat) : (into r).core c = r.core c := rfl
  have intoRst (r : State) : bitOf (into r).standRst st = true := bitOf_setBit_self r.standRst st true
  have eq : s.standReset st = ((into r).parkVolt st).settleBcasts := s.standReset_eq st h
  have thr (v : Nat) : (((into r).parkVolt st).settleBcasts).thr v = d.thr v := by
    rw [State.thr, settleBcasts_threads, State.threads_of_offRegs (State.parkVolt_offRegs ..), ← State.thr, intoThr, State.thr,
      State.renewCores_threads, State.thr]
  have core (c : Nat) : (((into r).parkVolt st).settleBcasts).core c = r.core c := by
    rw [State.core, settleBcasts_cores, State.cores_of_offRegs (State.parkVolt_offRegs ..), ← State.core, intoCore]
  refine ⟨?_, ?_, fun c hc => ?_, fun c hc hact v hv => ?_⟩
  · rw [eq, State.svc_of_offTraffic (State.settleBcasts_offTraffic _), State.svc_of_offRegs (State.parkVolt_offRegs ..), intoSvc,
      State.renewCores_svc, State.svc_of_offTraffic (State.discardThreads_offTraffic ..), State.svc_of_offTraffic (State.standLeaves_offTraffic ..)]
  · rw [eq, State.standRst_of_offTraffic (State.settleBcasts_offTraffic _), State.standRst_of_offRegs (State.parkVolt_offRegs ..), intoRst]
  · rw [eq, core]
    exact d.renewCores_emptied _ c hc
  · rw [eq, thr]
    refine (s.standLeaves st).discardThreads_discarded ts v ?_
    exact List.mem_flatMap.mpr ⟨c, List.mem_filter.mpr ⟨hc, hact⟩, hv⟩

end Sys2Proof.Machine
end

section
/-! SUPPORT. RESET_DOMAIN of links, ports and Glades, and the command itself (R66, R259, R275, R319). -/

namespace Sys2Proof.Machine

/-! A Root link, a Grove port. -/

theorem State.modRoot_svc (s : State) (n : Nat) (f : RootLink → RootLink) : (s.modRoot n f).svc = s.svc := rfl
theorem State.modRoot_mem (s : State) (n : Nat) (f : RootLink → RootLink) : (s.modRoot n f).mem = s.mem := rfl
theorem State.reg_modRoot (s : State) (n : Nat) (f : RootLink → RootLink) (q : Reg) : (s.modRoot n f).reg q = s.reg q := rfl
theorem State.modGp_svc (s : State) (p : Nat) (f : GPort → GPort) : (s.modGp p f).svc = s.svc := rfl
theorem State.modGp_mem (s : State) (p : Nat) (f : GPort → GPort) : (s.modGp p f).mem = s.mem := rfl
theorem State.reg_modGp (s : State) (p : Nat) (f : GPort → GPort) (q : Reg) : (s.modGp p f).reg q = s.reg q := rfl
theorem State.setF_mem (s : State) (r : Reg) (f : Fld) (v : Nat) : (s.setF r f v).mem = s.mem := s.setReg_mem ..

/-- A link in service that is reset trains (R275). -/
theorem State.linkReset_inService (s : State) (n : Nat) (h : s.inService n = true) :
    let u := s.linkReset n
    u.svc = s.svc ∧ u.rtlState n = 1 ∧ u.mem = s.mem := by
  have trains : s.linkReset n = s.trainLink n (s.rtlState n) := by
    rw [linkReset, if_pos (by simpa [inService] using h)]
  refine ⟨?_, ?_, ?_⟩
  · rw [trains, trainLink, modRoot_svc, setRtl, setF_svc, setF_svc]
  · rw [trains, trainLink, rtlState, getF, State.reg_modRoot, ← getF, State.getF_setF_apart _ _ _ _ _ (by decide), setRtl,
      State.getF_setF_self _ _ _ _ (by decide)]
    rfl
  · rw [trains, trainLink, modRoot_mem, setRtl, setF_mem, setF_mem]

theorem State.routeOne_svc (s : State) (m : Nat) : (s.routeOne m).svc = s.svc := by
  rw [routeOne, setF_svc, setReg_svc]
theorem State.routeOne_mem (s : State) (m : Nat) : (s.routeOne m).mem = s.mem := by
  rw [routeOne, setF_mem, setReg_mem]
theorem State.reg_routeOne (s : State) (m : Nat) {q : Reg} (hr : q.key ≠ GRV_ROUTE.key) (hg : q.key ≠ GRV_GROUP.key) :
    (s.routeOne m).reg q = s.reg q := by
  rw [routeOne, State.reg_setF_ne _ _ _ hg, State.reg_setReg_ne _ _ hr]

/-- A port that trains (R259). -/
theorem State.trainPort_spec (s : State) (p : Nat) :
    let u := s.trainPort p
    u.svc = s.svc ∧ u.gpState p = 1 ∧ u.mem = s.mem := by
  have route : (GRV_STAT p).key ≠ GRV_ROUTE.key := by simp only [Reg.key, GRV_STAT, GRV_ROUTE]; omega
  have group : (GRV_STAT p).key ≠ GRV_GROUP.key := by simp only [Reg.key, GRV_STAT, GRV_GROUP]; omega
  refine ⟨?_, ?_, ?_⟩
  · rw [trainPort, refreshRoutes, State.foldl_keeps State.svc _ State.routeOne_svc, modGp_svc, setF_svc, setF_svc, setF_svc]
  · rw [trainPort, refreshRoutes, gpState, getF, State.foldl_keeps (fun s : State => s.reg (GRV_STAT p)) _ (fun s m => s.reg_routeOne m route group),
      State.reg_modGp, ← getF, State.getF_setF_apart _ _ _ _ _ (by decide), State.getF_setF_apart _ _ _ _ _ (by decide),
      State.getF_setF_self _ _ _ _ (by decide)]
    rfl
  · rw [trainPort, refreshRoutes, State.foldl_keeps State.mem _ State.routeOne_mem, modGp_mem, setF_mem, setF_mem, setF_mem]

/-! A Glade. -/

/-- A command whose target is not the Glade that is reset goes on. -/
theorem State.svcLosesTarget_miss (s : State) (hit : SvcCmd → Bool) (h : ∀ c, s.svc = some c → hit c = false) : s.svcLosesTarget hit = s := by
  unfold State.svcLosesTarget
  split
  · next c hc => rw [h c hc]; rfl
  · rfl

/-- The halves of a Glade's ports are lost and cleared, and its blocks return to their reset values (R291, R319). -/
def State.gladeLeaves (s : State) (g : Nat) : State :=
  let live := (List.range 8).filter fun h => (s.firstToHalf (8 * g + h)).isSome
  (gladeInsts g).foldl (fun s i => (s.resetRegs i.1 i.2).fromRetained i.1 i.2)
    ((List.range 8).foldl (fun s h => s.unmarkHalf (8 * g + h)) (live.foldl (fun s h => s.failHalf (8 * g + h)) s))

/-- The Glade's own state and engines in reset (R319). -/
def State.gladeBlank (s : State) (g : Nat) : State :=
  { s with
    glades := Tab.set gladeDefault s.glades g GladeSt.reset
    engines := Tab.set engDefault (Tab.set engDefault s.engines (2 * g) TwigEng.reset) (2 * g + 1) TwigEng.reset
    gladeRst := setBit s.gladeRst g true }

theorem State.gladeLeaves_svc (s : State) (g : Nat) : (s.gladeLeaves g).svc = s.svc := by
  rw [gladeLeaves, State.foldl_keeps State.svc _ (fun s i => by
      rw [State.svc_of_offRegs (State.fromRetained_offRegs ..), State.svc_of_offRegs (State.resetRegs_offRegs ..)]),
    State.foldl_keeps State.svc _ (fun s h => State.svc_of_offTraffic (s.unmarkHalf_offTraffic _)),
    State.foldl_keeps State.svc _ (fun s h => State.svc_of_offTraffic (s.failHalf_offTraffic _))]

/-- A Glade that enters its reset counts it (R66, R319). -/
theorem State.gladeReset_spec (s : State) (g : Nat) (h : ∀ c, s.svc = some c → c.op = 10) :
    let u := s.gladeReset g
    u.svc = s.svc ∧ bitOf u.gladeRst g = true ∧
      u.getF (GLD_STAT g) GLD_STAT_RESETS = min (s.getF (GLD_STAT g) GLD_STAT_RESETS + 1) 0xFFFF := by
  let v := ((s.gladeLeaves g).gladeBlank g).setF (GLD_STAT g) GLD_STAT_RESETS (min (s.getF (GLD_STAT g) GLD_STAT_RESETS + 1) 0xFFFF)
  have blank (r : State) : (r.gladeBlank g).svc = r.svc := rfl
  have blankRst (r : State) : bitOf (r.gladeBlank g).gladeRst g = true := bitOf_setBit_self r.gladeRst g true
  have vsvc : v.svc = s.svc := by rw [setF_svc, blank, gladeLeaves_svc]
  have eq : s.gladeReset g = v := by
    refine State.svcLosesTarget_miss v (fun c => (c.op == 3 && c.target / 2 == g) || (c.op == 4 && c.target == g)) fun c hc => ?_
    simp [h c (vsvc.symm.trans hc)]
  refine ⟨?_, ?_, ?_⟩
  · rw [eq, vsvc]
  · rw [eq, setF_gladeRst, blankRst]
  · rw [eq, State.getF_setF_self _ _ _ _ (by decide)]
    exact Nat.mod_eq_of_lt (by simp only [GLD_STAT_RESETS]; omega)

/-! The command. -/

section
variable (s : State) (d l : Nat)

/-- RESET_DOMAIN under way. -/
def State.resetting (s : State) (d l : Nat) : State := (s.sent 10 d l [] true).underWay

theorem State.resetting_svc : (s.resetting d l).svc = some ⟨10, d, l, true, none, 0, 0, [], true⟩ := by
  simp [resetting, underWay]

theorem State.resetting_active : (s.resetting d l).active = s.active := s.sent_active 10 d l [] true
theorem State.resetting_mem : (s.resetting d l).mem = s.mem := s.sent_mem 10 d l [] true
theorem State.resetting_standRst : (s.resetting d l).standRst = s.standRst := s.sent_standRst 10 d l [] true

/-- What has the command of `resetting` has no result yet. -/
theorem State.svcKnown_resetting {u : State} (h : u.svc = (s.resetting d l).svc) : u.svcKnown = none := by
  rw [svcKnown, h, State.resetting_svc]
  rfl

theorem State.resetRefused_sent : (s.sent 10 d l [] true).resetRefused d = s.resetRefused d := by
  have port (p : Nat) : (s.sent 10 d l [] true).gpEn p = s.gpEn p := by rw [gpEn, s.actF_sent, gpEn]
  simp only [resetRefused, s.actF_sent, port]

theorem State.resetWaits_sent : (s.sent 10 d l [] true).resetWaits d = s.resetWaits d := by
  have takeovers : (s.sent 10 d l [] true).inTakeover = s.inTakeover := by
    funext c
    simp only [inTakeover, leaving, receiving, s.sent_tkos]
  simp only [resetWaits, s.sent_standRst, takeovers]

variable {s d}

theorem State.resetDomain_refused {k : Nat} (h : s.resetRefused d = some k) :
    (s.sent 10 d l [] true).resetDomain d = (s.sent 10 d l [] true).answered k := by
  simp only [resetDomain, State.resetRefused_sent, h, State.svcResult_sent]

theorem State.resetDomain_starts (h : s.resetRefused d = none) (hw : s.resetWaits d = false) :
    (s.sent 10 d l [] true).resetDomain d = (s.resetting d l).resetStart d := by
  simp only [resetDomain, State.resetRefused_sent, h, State.resetWaits_sent, hw]
  rfl

/-- A domain that is in range and, as a link or port, enabled is not refused. -/
theorem State.resetRefused_none (hd : domainOk d = true) (hl : 0x10 ≤ d → d < 0x20 → s.actF (RTL_CTL (d - 0x10)) RTL_CTL_EN ≠ 0)
    (hp : 0x20 ≤ d → d < 0x30 → s.gpEn (d - 0x20) ≠ false) : s.resetRefused d = none := by
  rw [resetRefused, if_neg (by simp [hd]), if_neg (by tauto), if_neg (by tauto)]

theorem State.resetWaits_other (h : 4 ≤ d) : s.resetWaits d = false := by
  simp [resetWaits, Nat.not_lt.mpr h]

theorem State.reg_resetting (l : Nat) {q : Reg} (hq : q.inWindow = true) (h13 : q.block ≠ 0x13) (h16 : q.block ≠ 0x16) :
    (s.resetting d l).reg q = s.reg q := s.reg_sent_of_block 10 d l [] true hq h13 h16

theorem State.startStep_resetting (l : Nat) : (s.resetting d l).startStep = s.startStep := s.startStep_sent 10 d l [] true

/-! RESET_DOMAIN of each kind of domain. -/

theorem State.resetRefused_link (hd : domainOk d = true) (h1 : 0x10 ≤ d) (h2 : d < 0x20) (h : s.actF (RTL_CTL (d - 0x10)) RTL_CTL_EN = 0) :
    s.resetRefused d = some 0x02 := by
  rw [resetRefused, if_neg (by simp [hd]), if_pos ⟨h1, h2, h⟩]

theorem State.resetRefused_port (hd : domainOk d = true) (h1 : 0x20 ≤ d) (h2 : d < 0x30) (h : s.gpEn (d - 0x20) = false) :
    s.resetRefused d = some 0x02 := by
  rw [resetRefused, if_neg (by simp [hd]), if_neg (by omega), if_pos ⟨h1, h2, h⟩]

theorem State.resetDomain_stand (hd : domainOk d = true) (h4 : d < 4) (hrst : bitOf s.standRst d = false)
    (htk : ∀ c ∈ standCores d, s.inTakeover c = false) :
    let u := (s.sent 10 d l [] true).resetDomain d
    u.svcKnown = none ∧ bitOf u.standRst d = true ∧ (∀ c ∈ standCores d, (u.core c).held = true ∧ (u.core c).l2 = []) ∧
      ∀ c ∈ standCores d, s.coreActive c = true → ∀ v ∈ s.coreThreads c, (u.thr v).run = .held ∧ ∀ r, (u.thr v).gr r = 0 := by
  have waits : s.resetWaits d = false := by
    have none : (standCores d).any s.inTakeover = false := List.any_eq_false.mpr fun c hc => by simp [htk c hc]
    simp [resetWaits, none]
  obtain ⟨hsvc, hst, hcores, hthreads⟩ := (s.resetting d l).standReset_spec d ((congrArg (bitOf · d) (s.resetting_standRst d l)).trans hrst)
  rw [State.resetDomain_starts _ (State.resetRefused_none hd (by omega) (by omega)) waits, resetStart, if_pos h4]
  refine ⟨State.svcKnown_resetting _ _ _ hsvc, hst, hcores, fun c hc hact v hv => hthreads c hc ?_ v ?_⟩
  · rw [State.coreActive_of_active (s.resetting_active d l), hact]
  · rwa [State.coreThreads_of_active (s.resetting_active d l)]

theorem State.resetDomain_link (hd : domainOk d = true) (h1 : 0x10 ≤ d) (h2 : d < 0x20) (hen : s.actF (RTL_CTL (d - 0x10)) RTL_CTL_EN = 1)
    (hin : s.inService (d - 0x10) = true) :
    let u := (s.sent 10 d l [] true).resetDomain d
    u.svcKnown = none ∧ u.rtlState (d - 0x10) = 1 ∧ u.mem = s.mem := by
  have state : (s.resetting d l).rtlState (d - 0x10) = s.rtlState (d - 0x10) := by
    rw [rtlState, getF, State.reg_resetting l (Reg.inWindow_of (show d - 0x10 < 256 by omega) (show 0x8 < 2 ^ 24 by decide))
      (by simp [RTL_STAT]) (by simp [RTL_STAT]), rtlState, getF]
  obtain ⟨hsvc, hst, hmem⟩ := (s.resetting d l).linkReset_inService (d - 0x10) (by rw [inService, state, ← inService, hin])
  rw [State.resetDomain_starts _ (State.resetRefused_none hd (by omega) (by omega)) (State.resetWaits_other (by omega)), resetStart,
    if_neg (by omega), if_pos h2]
  exact ⟨State.svcKnown_resetting _ _ _ hsvc, hst, hmem.trans (s.resetting_mem d l)⟩

theorem State.resetDomain_port (hd : domainOk d = true) (h1 : 0x20 ≤ d) (h2 : d < 0x30) (hen : s.gpEn (d - 0x20) = true)
    (hclk : s.clocksUp = true) :
    let u := (s.sent 10 d l [] true).resetDomain d
    u.svcKnown = none ∧ u.gpState (d - 0x20) = 1 ∧ u.mem = s.mem := by
  have clocks : (s.resetting d l).clocksUp = true := by rw [clocksUp, State.startStep_resetting, ← clocksUp, hclk]
  rw [State.resetDomain_starts _ (State.resetRefused_none hd (by omega) (by simp [hen])) (State.resetWaits_other (by omega)), resetStart,
    if_neg (by omega), if_neg (by omega), if_pos h2]
  by_cases htrains : (s.resetting d l).gpState (d - 0x20) = 1
  · rw [if_neg (by simp [htrains])]
    exact ⟨State.svcKnown_resetting _ _ _ rfl, htrains, s.resetting_mem d l⟩
  · obtain ⟨hsvc, hst, hmem⟩ := (s.resetting d l).trainPort_spec (d - 0x20)
    rw [if_pos ⟨clocks, htrains⟩]
    exact ⟨State.svcKnown_resetting _ _ _ hsvc, hst, hmem.trans (s.resetting_mem d l)⟩

theorem State.resetDomain_glade (hd : domainOk d = true) (h3 : 0x30 ≤ d) :
    let u := (s.sent 10 d l [] true).resetDomain d
    u.svcKnown = none ∧ bitOf u.gladeRst (d - 0x30) = true ∧
      u.getF (GLD_STAT (d - 0x30)) GLD_STAT_RESETS = min (s.getF (GLD_STAT (d - 0x30)) GLD_STAT_RESETS + 1) 0xFFFF := by
  have range : d < 0x34 := by simp [domainOk] at hd; omega
  have resets : (s.resetting d l).getF (GLD_STAT (d - 0x30)) GLD_STAT_RESETS = s.getF (GLD_STAT (d - 0x30)) GLD_STAT_RESETS := by
    rw [getF, State.reg_resetting l (Reg.inWindow_of (show d - 0x30 < 256 by omega) (show 0x0 < 2 ^ 24 by decide))
      (by simp [GLD_STAT]) (by simp [GLD_STAT]), getF]
  obtain ⟨hsvc, hst, hcount⟩ := (s.resetting d l).gladeReset_spec (d - 0x30) fun c hc => by
    rw [State.resetting_svc] at hc
    exact (congrArg SvcCmd.op (Option.some.inj hc)).symm
  rw [State.resetDomain_starts _ (State.resetRefused_none hd (by omega) (by omega)) (State.resetWaits_other (by omega)), resetStart,
    if_neg (by omega), if_neg (by omega), if_neg (by omega), ← resets]
  exact ⟨State.svcKnown_resetting _ _ _ hsvc, hst, hcount⟩

end

end Sys2Proof.Machine
end

section
/-! PROOF. O55: what the commands of the service port do once they may be issued. -/

namespace Sys2Proof.Machine

/-- Settles O55, command by command: each is served at once on the state as it was issued, and tests what it found there. -/
theorem serviceCommandResults : Obligations.ServiceCommandResults := by
  refine ⟨fun t l s h => ?_, fun t l s h => ?_, fun t l s h => ?_, fun t l b s h => ?_, fun t l s h => ?_, fun t l s h => ?_,
    fun t l s h => ?_, fun t l s h => ?_, fun t l s h => ?_, fun t l s h => ?_⟩
  · -- LOAD_FOR_FW (R63, R472)
    rw [exec_loadForFw_sent h, State.loadForFw_sent]
    refine ⟨fun h1 => ⟨fun e he => ?_, fun c hc => ⟨_, rfl, ?_⟩⟩, fun h1 => ⟨fun hbusy => ?_,
      fun hs hl => ⟨fun e he => ?_, fun c hc => ?_⟩⟩⟩
    · rw [if_pos h1, State.withContainer_sent_error he]
    · rw [← State.loadForFw_sent]
      exact State.loadForFw_first h1 _ _ hc
    · rw [if_neg h1, if_pos hbusy]
    · rw [if_neg h1, if_neg (by tauto), State.withContainer_sent_error he]
    · rw [if_neg h1, if_neg (by tauto), State.withContainer_ok hc]
  · -- LOAD_TILET (R58)
    rw [exec_loadTilet_sent h, State.loadTilet_sent]
    refine ⟨fun hk => ?_, fun hk => ⟨fun hj => ?_, fun hj hfull => ⟨_, rfl, ?_⟩, fun hj hfree => ?_⟩⟩
    · rw [if_pos hk]
    · rw [if_neg hk, if_pos (Option.isSome_iff_ne_none.mpr hj)]
    · rw [← State.loadTilet_sent]
      exact State.loadTilet_full _ _ hk hj hfull
    · rw [if_neg hk, if_neg (by simp [hj]), if_neg (by simp [hfree])]
  · -- LOAD_UCODE (R319, R383)
    obtain ⟨-, -, -, -, -, htgt, -⟩ := id h
    have he : t.toNat < 8 := by simp [svcLimit] at htgt; omega
    rw [exec_loadUcode_sent h]
    refine ⟨fun k hk => ?_, fun c hc => ⟨fun hrst => ⟨_, rfl, ?_⟩, fun hrst => ⟨_, rfl, ?_⟩⟩⟩
    · rw [State.loadUcode_sent he, State.withContainer_sent_error hk]
    · obtain ⟨known, eng, val, act, glade⟩ := State.loadUcode_inReset he hrst hc
      obtain ⟨words, other⟩ := (s.eng t.toNat).stores_loaded_zero (microWords 0 c.payload)
      exact ⟨known, fun i hi => by rw [eng, words, get_microWords_zero _ _ hi], val, act, by rw [eng, other], glade⟩
    · obtain ⟨known, swap, act, in1, in0⟩ := State.loadUcode_running he hrst hc
      obtain ⟨other0, words0⟩ := (s.eng t.toNat).stores_loaded_one (microWords 0 c.payload)
      obtain ⟨words1, other1⟩ := (s.eng t.toNat).stores_loaded_zero (microWords 0 c.payload)
      exact ⟨known, swap, act, fun h0 => ⟨by rw [in1 h0, other0], fun i hi => by rw [in1 h0, words0, get_microWords_zero _ _ hi]⟩,
        fun h1 => ⟨by rw [in0 h1, other1], fun i hi => by rw [in0 h1, words1, get_microWords_zero _ _ hi]⟩⟩
  · -- LOAD_GLADE_FW (R319, R359)
    rw [exec_loadGladeFw_sent h, State.loadGladeFw_sent _ _ _ t.isLt]
    refine ⟨fun hno => ?_, fun hst hrst => ⟨fun k hk => ?_, fun c hc => ⟨fun hb => ?_, fun hb => ⟨_, rfl, ?_⟩⟩⟩⟩
    · rw [if_pos hno]
    · rw [if_neg (by simp [hst, hrst]), State.withContainer_sent_error hk]
    · rw [if_neg (by simp [hst, hrst]), State.withContainer_ok hc, if_pos hb]
    · subst hb
      rw [if_neg (by simp [hst, hrst]), State.withContainer_ok hc, if_neg (by decide)]
      exact s.loadGladeFw_starts l.toNat c.payload
  · -- LOAD_KEYS (R422)
    rw [exec_loadKeys_sent h, State.loadKeyObject_sent]
    refine ⟨fun h0 => ?_, fun h0 => ⟨fun k hk => ?_, fun c hc => ?_⟩⟩
    · rw [if_pos h0]
    · rw [if_neg h0, State.withContainer_sent_error hk]
    · rw [if_neg h0, State.withContainer_ok hc]
  · -- LOAD_MFW (R63)
    rw [exec_loadMfw_sent h, State.loadMfw_sent]
    refine ⟨fun hno => ?_, fun hnw hnr hsz => ⟨fun k hk => ?_, fun c hc => ⟨fun hout => ?_, fun hlo hhi v hv => ?_⟩⟩⟩
    · exact congrArg Host.Outcome.next (if_pos hno)
    · exact congrArg Host.Outcome.next ((if_neg (by tauto)).trans (State.withContainer_sent_error hk))
    · exact congrArg Host.Outcome.next ((if_neg (by tauto)).trans ((State.withContainer_ok hc).trans (if_pos hout)))
    · exact congrArg Host.Outcome.next ((if_neg (by tauto)).trans ((State.withContainer_ok hc).trans ((if_neg (by omega)).trans (by rw [hv]; rfl))))
  · -- RELEASE (R63, R64)
    rw [exec_release_sent h, State.release_sent]
    refine ⟨fun hno => ?_, fun hmfw => ⟨_, rfl, ?_⟩⟩
    · rw [if_pos hno]
    · rw [if_neg (by simp [hmfw])]
      exact s.release_loaded t.toNat l.toNat
  · -- REG_READ (R58)
    exact (exec_regRead_sent h).trans (congrArg Host.Outcome.next (s.svpRegRead_sent ..))
  · -- REG_WRITE (R58)
    exact (exec_regWrite_sent h).trans (congrArg Host.Outcome.next (s.svpRegWrite_sent ..))
  · -- RESET_DOMAIN (R66)
    obtain ⟨-, -, -, -, -, htgt, -⟩ := id h
    obtain ⟨-, -, hdom⟩ := svcRow_of_svcLimit (op := 10) (by decide) (by decide) htgt
    have hd := hdom rfl
    rw [exec_resetDomain_sent h]
    refine ⟨fun h1 h2 hen => ?_, fun h1 h2 hen => ?_, fun h4 hrst htk => ⟨_, rfl, ?_⟩, fun h1 h2 hen hin => ⟨_, rfl, ?_⟩,
      fun h1 h2 hen hclk => ⟨_, rfl, ?_⟩, fun h3 => ⟨_, rfl, ?_⟩⟩
    · exact congrArg Host.Outcome.next (State.resetDomain_refused _ (State.resetRefused_link hd h1 h2 hen))
    · exact congrArg Host.Outcome.next (State.resetDomain_refused _ (State.resetRefused_port hd h1 h2 hen))
    · exact State.resetDomain_stand _ hd h4 hrst htk
    · exact State.resetDomain_link _ hd h1 h2 hen hin
    · exact State.resetDomain_port _ hd h1 h2 hen hclk
    · exact State.resetDomain_glade _ hd h3

end Sys2Proof.Machine
end

section
/-! SUPPORT. The registers that a clearing changes, and how they return to their active values (R41, R42). -/

namespace Sys2Proof.Machine

theorem regCatalogue_other {b : Nat} (h : 0x18 ≤ b) : regCatalogue b = [] := by
  obtain ⟨n, rfl⟩ := Nat.exists_eq_add_of_le' h
  rfl

/-- Every register of the catalogue lies within its window (R515). -/
theorem off_lt_of_mem_regCatalogue {b : Nat} {e : RegSpec} (he : e ∈ regCatalogue b) {k : Nat} (hk : k < e.count) :
    e.base + e.stride * k < 2 ^ 24 := by
  have rows : ∀ b < 0x18, ∀ e ∈ regCatalogue b, 0 < e.stride ∧ e.base + e.stride * e.count ≤ 2 ^ 24 := by decide
  have hb : b < 0x18 := by
    by_contra h
    rw [regCatalogue_other (by omega)] at he
    simp at he
  obtain ⟨hpos, hend⟩ := rows b hb e he
  have := Nat.mul_lt_mul_of_pos_left hk hpos
  omega

theorem State.differing_inWindow {s : State} {b i : Nat} {r : Reg} (h : r ∈ s.differing b i) :
    r.block = b ∧ r.inst = i ∧ r.off < 2 ^ 24 := by
  simp only [differing, List.mem_flatMap, List.mem_filter, List.mem_map, List.mem_range] at h
  obtain ⟨e, ⟨he, -⟩, ⟨k, hk, rfl⟩, -⟩ := h
  exact ⟨rfl, rfl, off_lt_of_mem_regCatalogue he hk⟩

/-- The registers that a commit changes lie in their windows. -/
theorem State.changes_inWindow {s : State} {ms : List (Nat × Nat)} (hms : ∀ m ∈ ms, m.2 < 256) {r : Reg} (h : r ∈ s.changes ms) :
    r.inWindow = true := by
  simp only [changes, List.mem_flatMap] at h
  obtain ⟨m, hm, hr⟩ := h
  obtain ⟨-, hinst, hoff⟩ := State.differing_inWindow hr
  have := hms m hm
  exact Reg.inWindow_of (by omega) hoff

theorem State.changes_singleton (s : State) (b i : Nat) : s.changes [(b, i)] = s.differing b i := by
  simp [changes]

/-! The shadow values return. -/

/-- A shadow value takes the rw-s bits of another word. -/
theorem merge_and_mask (a b m : Word) : ((a &&& ~~~ m) ||| (b &&& m)) &&& m = b &&& m := by
  apply BitVec.eq_of_getLsbD_eq
  intro k hk
  simp only [BitVec.getLsbD_and, BitVec.getLsbD_or, BitVec.getLsbD_not, hk, decide_true, Bool.true_and]
  cases m.getLsbD k <;> simp

/-- One register of a member returns to its active value (R42). -/
def State.revert1 (s : State) (r : Reg) : State := s.setReg r ((s.reg r &&& ~~~ r.rwsMask) ||| (s.act r &&& r.rwsMask))

/-- The shadow holds the active value of a register. -/
def State.unchanged (s : State) (r : Reg) : Prop := s.reg r &&& r.rwsMask = s.act r &&& r.rwsMask

theorem State.revert1_unchanged (s : State) (r : Reg) : (s.revert1 r).unchanged r := by
  rw [unchanged, revert1, State.reg_setReg_self, State.act_setReg]
  exact merge_and_mask _ _ _

theorem State.revert1_keeps {s : State} {q r : Reg} (h : s.unchanged q) (hne : q.key ≠ r.key) : (s.revert1 r).unchanged q := by
  rw [unchanged, revert1, State.reg_setReg_ne _ _ hne, State.act_setReg]
  exact h

theorem State.revert_offQueues (s : State) (ms : List (Nat × Nat)) : (s.revert ms).offQueues = s.offQueues :=
  State.foldl_keeps State.offQueues _ (fun s _ => s.setReg_offQueues _ _) _ s

/-- After an abort the shadow of every changed register holds the active value (R42). -/
theorem State.revert_unchanged (s : State) {ms : List (Nat × Nat)} (hms : ∀ m ∈ ms, m.2 < 256) :
    ∀ r ∈ s.changes ms, (s.revert ms).unchanged r := by
  intro r hr
  have window : ∀ q ∈ s.changes ms, q.inWindow = true := fun q => State.changes_inWindow hms
  have each : ∀ (l : List Reg), (∀ q ∈ l, q.inWindow = true) → ∀ s : State, r ∈ l ∨ s.unchanged r → (l.foldl State.revert1 s).unchanged r := by
    intro l
    induction l with
    | nil => exact fun _ s h => h.resolve_left (by simp)
    | cons q l ih =>
      intro hl s h
      refine ih (fun x hx => hl x (by simp [hx])) (s.revert1 q) ?_
      by_cases e : r = q
      · exact .inr (e ▸ s.revert1_unchanged r)
      · rcases h with h | h
        · exact .inl ((List.mem_cons.mp h).resolve_left e)
        · exact .inr (State.revert1_keeps h (Reg.key_ne (window r hr) (hl q (by simp)) e))
  exact each (s.changes ms) window s (.inl hr)

end Sys2Proof.Machine
end

section
/-! SUPPORT. How loads and clearings end (R45, R46, R59, R521). -/

namespace Sys2Proof.Machine

/-- A register that the end of a load or of a clearing writes: TLT_STAT, TLT_ERROFF, or FOR_QSTAT of class 5. -/
def Reg.ofTlt (q : Reg) : Prop := q.key = TLT_STAT.key ∨ q.key = TLT_ERROFF.key ∨ q.key = (FOR_QSTAT 4).key

/-- None of them holds an rw-s field. -/
theorem Reg.rwsMask_ofTlt {q : Reg} (hq : q.inWindow = true) (h : q.ofTlt) : q.rwsMask = 0 := by
  rcases h with h | h | h
  · rw [Reg.eq_of_key hq (by decide) h]
    decide
  · rw [Reg.eq_of_key hq (by decide) h]
    decide
  · rw [Reg.eq_of_key hq (by decide) h]
    decide

section
variable (s : State) (code off : Nat)

theorem State.tltEnd_offQueues : (s.tltEnd code off).offQueues = s.offQueues := by
  simp [tltEnd]

theorem State.tltEnd_ended : (s.tltEnd code off).tltEnded code := by
  refine ⟨?_, ?_⟩
  · rw [tltEnd, State.getF_setF_ne _ _ _ _ (by decide), State.getF_setF_apart _ _ _ _ _ (by decide), State.getF_setF_self _ _ _ _ (by decide)]
    rfl
  · rw [tltEnd, State.getF_setF_ne _ _ _ _ (by decide), State.getF_setF_self _ _ _ _ (by decide)]
    rfl

theorem State.tltEnd_erroff : (s.tltEnd code off).getF TLT_ERROFF TLT_ERROFF_OFFSET = off % 2 ^ TLT_ERROFF_OFFSET.width :=
  State.getF_setF_self _ _ _ _ (by decide)

theorem State.reg_tltEnd_ne {q : Reg} (h : ¬ q.ofTlt) : (s.tltEnd code off).reg q = s.reg q := by
  rw [Reg.ofTlt, not_or, not_or] at h
  obtain ⟨hstat, hoff, -⟩ := h
  rw [tltEnd, State.reg_setF_ne _ _ _ hoff, State.reg_setF_ne _ _ _ hstat, State.reg_setF_ne _ _ _ hstat]

theorem State.reg_workDone5_ne (kind val : Nat) {q : Reg} (h : ¬ q.ofTlt) : (s.workDone 5 kind val).reg q = s.reg q := by
  rw [Reg.ofTlt, not_or, not_or] at h
  obtain ⟨-, -, hq⟩ := h
  exact s.reg_workDone_ne kind val hq

end

/-! The end of a load. -/

section
variable (s : State) (j : LoadJob) (code off : Nat)

/-- No load is in progress. -/
def State.noLoad (g : State) : State := { g with ldr := none }

theorem State.noLoad_frame (g : State) : g.noLoad.ldr = none ∧ g.noLoad.clrs = g.clrs ∧ g.noLoad.active = g.active ∧
    g.noLoad.retained = g.retained ∧ g.noLoad.rootKey = g.rootKey := ⟨rfl, rfl, rfl, rfl, rfl⟩
theorem State.noLoad_svc (g : State) : g.noLoad.svc = g.svc := rfl
theorem State.reg_noLoad (g : State) (q : Reg) : g.noLoad.reg q = g.reg q := rfl

theorem State.svcResult_frame (g : State) (code data : Nat) : (g.svcResult code data).ldr = g.ldr ∧ (g.svcResult code data).clrs = g.clrs ∧
    (g.svcResult code data).active = g.active ∧ (g.svcResult code data).retained = g.retained ∧
    (g.svcResult code data).rootKey = g.rootKey := by
  obtain ⟨c, h⟩ := g.svcResult_keeps code data
  rw [h]
  exact ⟨rfl, rfl, rfl, rfl, rfl⟩

/-- The end of a load before the service port hears of it. -/
def State.loadOver (s : State) (code off : Nat) : State := ((s.workDone 5 5 0).tltEnd code off).noLoad

theorem State.loadEnds_eq : s.loadEnds j code off =
    if j.svc then (s.loadOver code off).svcResult (if code = 0 then 0 else 0x0B) code else s.loadOver code off := rfl

theorem State.loadOver_svc : (s.loadOver code off).svc = s.svc := by
  rw [loadOver, noLoad_svc, State.svc_of_offQueues (State.tltEnd_offQueues ..), State.svc_of_offQueues (State.workDone_offQueues ..)]

theorem State.reg_loadEnds (q : Reg) : (s.loadEnds j code off).reg q = (((s.workDone 5 5 0).tltEnd code off)).reg q := by
  rw [State.loadEnds_eq]
  split
  · rw [State.reg_svcResult, loadOver, reg_noLoad]
  · rw [loadOver, reg_noLoad]

theorem State.getF_loadEnds (q : Reg) (f : Fld) : (s.loadEnds j code off).getF q f = (((s.workDone 5 5 0).tltEnd code off)).getF q f := by
  rw [getF, State.reg_loadEnds, getF]

theorem State.loadEnds_ended : (s.loadEnds j code off).tltEnded code := by
  rw [tltEnded, State.getF_loadEnds, State.getF_loadEnds]
  exact State.tltEnd_ended _ code off

theorem State.loadEnds_erroff : (s.loadEnds j code off).getF TLT_ERROFF TLT_ERROFF_OFFSET = off % 2 ^ TLT_ERROFF_OFFSET.width := by
  rw [State.getF_loadEnds]
  exact State.tltEnd_erroff _ code off

theorem State.reg_loadEnds_ne {q : Reg} (h : ¬ q.ofTlt) : (s.loadEnds j code off).reg q = s.reg q := by
  rw [State.reg_loadEnds, State.reg_tltEnd_ne _ _ _ h, State.reg_workDone5_ne _ _ _ h]

/-- The load is gone; the clearings, the active values, the retained image and the keys stay. -/
theorem State.loadEnds_frame : (s.loadEnds j code off).ldr = none ∧ (s.loadEnds j code off).clrs = s.clrs ∧
    (s.loadEnds j code off).active = s.active ∧ (s.loadEnds j code off).retained = s.retained ∧
    (s.loadEnds j code off).rootKey = s.rootKey := by
  have hoff := (State.tltEnd_offQueues (s.workDone 5 5 0) code off).trans (s.workDone_offQueues 5 5 0)
  have gone : (s.loadOver code off).ldr = none ∧ (s.loadOver code off).clrs = s.clrs ∧ (s.loadOver code off).active = s.active ∧
      (s.loadOver code off).retained = s.retained ∧ (s.loadOver code off).rootKey = s.rootKey := by
    obtain ⟨hldr, hclrs, hact, hret, hroot⟩ := ((s.workDone 5 5 0).tltEnd code off).noLoad_frame
    exact ⟨hldr, hclrs.trans (State.clrs_of_offQueues hoff), hact.trans (State.active_of_offQueues hoff),
      hret.trans (State.retained_of_offQueues hoff), hroot.trans (State.rootKey_of_offQueues hoff)⟩
  rw [State.loadEnds_eq]
  split
  · obtain ⟨hldr, hclrs, hact, hret, hroot⟩ := (s.loadOver code off).svcResult_frame (if code = 0 then 0 else 0x0B) code
    rwa [hldr, hclrs, hact, hret, hroot]
  · exact gone

/-- A LOAD_TILET that the load serves has its result (R59). -/
theorem State.loadEnds_told : (s.loadEnds j code off).tiletTold s j code := by
  intro c hc hj hcode
  have hsvc := (s.loadOver_svc code off).trans hc
  rw [State.loadEnds_eq, if_pos hj, State.svcResult_of_svc hsvc hcode, answered]
  simp only [hsvc, Option.map_some]

/-- What a commit or an abort left of the command in progress is what the result is told to. -/
theorem State.tiletTold_of_svc {u v s : State} {j k : LoadJob} {code : Nat} (h : u.tiletTold v k code) (hs : v.svc = s.svc)
    (hj : k.svc = j.svc) : u.tiletTold s j code :=
  fun c hc hsvc hcode => h c (hs.trans hc) (hj.trans hsvc) hcode

end

/-! The end of a load that has committed. -/

section
variable (s : State) (j : LoadJob)

/-- The keys of an image are in force (R61). -/
def State.keysOf (g : State) (j : LoadJob) : State :=
  { g with
    rootKey := some j.root
    ownerKey := (match j.owner with | some k => some k | none => g.ownerKey) }

theorem State.keysOf_frame (g : State) (j : LoadJob) : (g.keysOf j).svc = g.svc ∧ (g.keysOf j).clrs = g.clrs ∧ (g.keysOf j).active = g.active :=
  ⟨rfl, rfl, rfl⟩
theorem State.reg_keysOf (g : State) (j : LoadJob) (q : Reg) : (g.keysOf j).reg q = g.reg q := rfl

/-- The serial number and the keys of an image in force (R45, R61). -/
def State.inForce (s : State) (j : LoadJob) : State := (s.setReg TLT_SERIAL (BitVec.ofNat 64 j.serial)).keysOf j

theorem State.loadDone_eq : s.loadDone j = (s.inForce j).loadEnds j 0 0 := rfl

theorem State.inForce_reg : (s.inForce j).reg TLT_SERIAL = BitVec.ofNat 64 j.serial := by
  rw [inForce, reg_keysOf, State.reg_setReg_self]
theorem State.inForce_reg_ne {q : Reg} (h : q.key ≠ TLT_SERIAL.key) : (s.inForce j).reg q = s.reg q := by
  rw [inForce, reg_keysOf, State.reg_setReg_ne _ _ h]
theorem State.inForce_frame : (s.inForce j).svc = s.svc ∧ (s.inForce j).clrs = s.clrs ∧ (s.inForce j).active = s.active := by
  obtain ⟨hsvc, hclrs, hact⟩ := (s.setReg TLT_SERIAL (BitVec.ofNat 64 j.serial)).keysOf_frame j
  exact ⟨hsvc.trans (s.setReg_svc ..), hclrs.trans (s.setReg_clrs ..), hact.trans (s.setReg_active ..)⟩

theorem not_ofTlt {q : Reg} (h : q.key ≠ TLT_STAT.key ∧ q.key ≠ TLT_ERROFF.key ∧ q.key ≠ (FOR_QSTAT 4).key) : ¬ q.ofTlt := by
  rw [Reg.ofTlt, not_or, not_or]
  exact h

/-- The end of a load whose last group has committed (R45). -/
theorem State.loadDone_spec :
    let u := s.loadDone j
    u.ldr = none ∧ u.clrs = s.clrs ∧ u.tltEnded 0 ∧ u.reg TLT_SERIAL = BitVec.ofNat 64 j.serial ∧ u.tiletTold s j 0 ∧
      u.rootKey = some j.root ∧ u.active = s.active ∧ u.startStep = s.startStep := by
  have root : (s.inForce j).rootKey = some j.root := rfl
  obtain ⟨isvc, iclrs, iact⟩ := s.inForce_frame j
  obtain ⟨hldr, hclrs, hact, -, hroot⟩ := (s.inForce j).loadEnds_frame j 0 0
  rw [State.loadDone_eq]
  refine ⟨hldr, hclrs.trans iclrs, State.loadEnds_ended _ j 0 0, ?_, ?_, hroot.trans root, hact.trans iact, ?_⟩
  · rw [State.reg_loadEnds_ne _ _ _ _ (not_ofTlt (by decide)), State.inForce_reg]
  · exact State.tiletTold_of_svc ((s.inForce j).loadEnds_told j 0 0) isvc rfl
  · rw [startStep, getF, State.reg_loadEnds_ne _ _ _ _ (not_ofTlt (by decide)), State.inForce_reg_ne _ _ (by decide), startStep, getF]

end

/-! The end of a block clearing. -/

/-- A block clearing has left. -/
def State.noClear (g : State) (c : ClrJob) : State := { g with clrs := g.clrs.erase c }

theorem State.noClear_frame (g : State) (c : ClrJob) : (g.noClear c).clrs = g.clrs.erase c ∧ (g.noClear c).active = g.active ∧
    (g.noClear c).ldr = g.ldr := ⟨rfl, rfl, rfl⟩
theorem State.reg_noClear (g : State) (c : ClrJob) (q : Reg) : (g.noClear c).reg q = g.reg q := rfl

theorem State.clrEnds_eq (s : State) (c : ClrJob) (code : Nat) :
    s.clrEnds c code = ((s.workDone 5 6 (c.block * 256 + c.inst)).tltEnd code 0).noClear c := rfl

/-- A block clearing ends with its code (R46). -/
theorem State.clrEnds_spec (s : State) (c : ClrJob) (code : Nat) (h : s.clrs = [c]) :
    let u := s.clrEnds c code
    u.clrs = [] ∧ u.tltEnded code ∧ u.active = s.active ∧ u.ldr = s.ldr ∧ ∀ q : Reg, ¬ q.ofTlt → u.reg q = s.reg q := by
  have hoff := (State.tltEnd_offQueues (s.workDone 5 6 (c.block * 256 + c.inst)) code 0).trans (s.workDone_offQueues 5 6 _)
  obtain ⟨hclrs, hact, hldr⟩ := ((s.workDone 5 6 (c.block * 256 + c.inst)).tltEnd code 0).noClear_frame c
  rw [State.clrEnds_eq]
  refine ⟨?_, ?_, hact.trans (State.active_of_offQueues hoff), hldr.trans (State.ldr_of_offQueues hoff), fun q hq => ?_⟩
  · rw [hclrs, State.clrs_of_offQueues hoff, h, List.erase_cons_head]
  · rw [tltEnded, getF, getF, State.reg_noClear]
    exact State.tltEnd_ended _ code 0
  · rw [State.reg_noClear, State.reg_tltEnd_ne _ _ _ hq, State.reg_workDone5_ne _ _ _ hq]

/-- With no load and no clearing the loader has nothing to go on with. -/
theorem State.settleLoader_idle {s : State} (hldr : s.ldr = none ∨ ∃ j, s.ldr = some j ∧ j.groups = []) (hclrs : s.clrs = []) : s.loaderIdle := by
  have start : s.startGroup = s := by
    rcases hldr with h | ⟨j, h, hg⟩
    · simp only [startGroup, h]
    · simp only [startGroup, h, hg]
  have settle : s.settleGroup = s := by
    rcases hldr with h | ⟨j, h, hg⟩
    · simp only [settleGroup, h]
    · simp only [settleGroup, h, hg]
  have clears : s.startClears = s := by simp only [startClears, hclrs, List.foldl_nil]
  simp only [loaderIdle, settleLoader, start, settle, clears, ite_self]

end Sys2Proof.Machine
end

section
/-! SUPPORT. The full image of the start (R63 step 5): each entry's active value, and what the later steps leave alone. -/

namespace Sys2Proof.Machine

/-- The active values and the command in progress. -/
def State.view (s : State) : Tab Word × Option SvcCmd := (s.active, s.svc)

theorem State.active_of_view {s u : State} (h : u.view = s.view) : u.active = s.active := (congrArg Prod.fst h :)
theorem State.svc_of_view {s u : State} (h : u.view = s.view) : u.svc = s.svc := (congrArg Prod.snd h :)
theorem State.view_of_offTraffic {s u : State} (h : u.offTraffic = s.offTraffic) : u.view = s.view := (congrArg State.view h :)

theorem State.setReg_view (s : State) (r : Reg) (v : Word) : (s.setReg r v).view = s.view := State.view_of_offTraffic (s.setReg_offTraffic r v)
theorem State.setF_view (s : State) (r : Reg) (f : Fld) (v : Nat) : (s.setF r f v).view = s.view := State.view_of_offTraffic (s.setF_offTraffic r f v)
theorem State.modGp_view (s : State) (p : Nat) (f : GPort → GPort) : (s.modGp p f).view = s.view := rfl
theorem State.setRaise_view (s : State) (st : Nat) (v : Option Nat) : (s.setRaise st v).view = s.view := rfl
theorem State.clampRec_view (s : State) (v : Nat) : (s.clampRec v).view = s.view :=
  State.view_of_offTraffic (s.logC_offTraffic 0x15 0 0x0D (leBytes 4 v))

theorem State.setPair_view (s : State) (k st : Nat) : (s.setPair k st).view = s.view := by rw [setPair, setF_view, setF_view]

theorem State.routeOne_view (s : State) (m : Nat) : (s.routeOne m).view = s.view := by rw [routeOne, setF_view, setReg_view]
theorem State.refreshRoutes_view (s : State) : s.refreshRoutes.view = s.view := State.foldl_keeps State.view _ State.routeOne_view _ s

theorem State.assignBuckets_view (s : State) (m : Nat) : (s.assignBuckets m).view = s.view := by
  unfold State.assignBuckets
  dsimp only
  split
  · rw [modGp_view, State.foldl_keeps State.view _ (fun s p => s.modGp_view p _)]
  · rw [State.foldl_keeps State.view _ (fun s p => s.modGp_view p _)]

theorem State.roleHealth_view (s : State) (c : Nat) : (s.roleHealth c).view = s.view := by
  unfold State.roleHealth
  dsimp only
  split
  · rw [setF_view, setF_view]
  · rw [setF_view, setF_view]

/-! The frequencies (R3). -/

theorem State.setEff_view (s : State) (st f : Nat) : (s.setEff st f).view = s.view := by
  rw [setEff, setRaise_view, setF_view, setF_view]

theorem State.steer_view (s : State) (st : Nat) : (s.steer st).view = s.view := by
  rw [steer, showLimit, setF_view]
  generalize (if s.avsHeld st then capped (s.eff st) (s.emergency st) else s.wanted st) = w
  split
  · rw [setEff_view]
  · split
    · split
      · rw [setEff_view]
      · rw [setRaise_view, setF_view]
    · rw [setRaise_view]

theorem State.steerAll_view (s : State) : s.steerAll.view = s.view := by
  unfold State.steerAll
  split
  · exact State.foldl_keeps State.view _ State.steer_view _ s
  · rfl

/-- The records of the targets of one Stand that lie out of range. -/
def State.clampStand (s : State) (st : Nat) : State :=
  let f := s.actF (CLK_STAND st) CLK_STAND_FREQ
  let b := s.actF (CLK_STAND st) CLK_STAND_BOOSTF
  let s := if f ≠ s.freqOf st then s.clampRec f else s
  if 200 < b then s.clampRec b else s

theorem State.clampStand_view (s : State) (st : Nat) : (s.clampStand st).view = s.view := by
  unfold State.clampStand
  dsimp only
  split
  · rw [clampRec_view]
    split
    · rw [clampRec_view]
    · rfl
  · split
    · rw [clampRec_view]
    · rfl

theorem State.retarget_view (s : State) (ch : List Reg) : (s.retarget ch).view = s.view := by
  have stands (l : List Nat) : (l.foldl State.clampStand s).view = s.view := State.foldl_keeps State.view _ State.clampStand_view l s
  have eq : s.retarget ch = (let g := ((List.range 4).filter fun st => ch.contains (CLK_STAND st)).foldl State.clampStand s
    (if 480 < g.actF PWR_LIMIT PWR_LIMIT_PL1 ∧ ch.contains PWR_LIMIT = true then g.clampRec (g.actF PWR_LIMIT PWR_LIMIT_PL1) else g).steerAll) := rfl
  rw [eq]
  dsimp only
  rw [steerAll_view]
  split
  · rw [clampRec_view, stands]
  · rw [stands]

/-! The entries. -/

/-- An entry of the image enters its register, as shadow and as active value, and the retained image. -/
def State.bootEnt (s : State) (e : ImgEnt) : State :=
  ((s.setReg e.reg ((s.reg e.reg &&& ~~~ e.reg.rwsMask) ||| (e.val &&& e.reg.rwsMask))).setAct e.reg (e.val &&& e.reg.rwsMask)).retain e.reg e.val

theorem State.retain_act (s : State) (r q : Reg) (v : Word) : (s.retain r v).act q = s.act q := rfl

theorem State.act_bootEnt_self (s : State) (e : ImgEnt) : (s.bootEnt e).act e.reg = e.val &&& e.reg.rwsMask := by
  rw [bootEnt, retain_act, State.act_setAct_self]
theorem State.act_bootEnt_ne (s : State) {e : ImgEnt} {q : Reg} (h : q.key ≠ e.reg.key) : (s.bootEnt e).act q = s.act q := by
  rw [bootEnt, retain_act, State.act_setAct_ne _ _ h, State.act_setReg]
theorem State.bootEnt_svc (s : State) (e : ImgEnt) : (s.bootEnt e).svc = s.svc := by
  rw [bootEnt, retain_svc, setAct_svc, setReg_svc]

/-- The last entry of a register decides its active value. -/
theorem State.act_bootEnts {e : ImgEnt} (l : List ImgEnt) (only : ∀ x ∈ l, x.reg.key = e.reg.key → x = e) :
    ∀ s : State, e ∈ l ∨ s.act e.reg = e.val &&& e.reg.rwsMask → (l.foldl State.bootEnt s).act e.reg = e.val &&& e.reg.rwsMask := by
  induction l with
  | nil => exact fun s h => h.resolve_left (by simp)
  | cons x l ih =>
    intro s h
    refine ih (fun y hy => only y (by simp [hy])) (s.bootEnt x) ?_
    by_cases hk : x.reg.key = e.reg.key
    · exact .inr (only x (by simp) hk ▸ s.act_bootEnt_self x)
    · rcases h with h | h
      · exact .inl ((List.mem_cons.mp h).resolve_left fun hx => hk (by rw [hx]))
      · exact .inr ((s.act_bootEnt_ne (Ne.symm hk)).trans h)

/-- The entries group by group. -/
def byGroup (es : List ImgEnt) : List ImgEnt := (groupsOf es).flatMap fun g => es.filter fun e => e.group == g

theorem mem_byGroup {es : List ImgEnt} {e : ImgEnt} : e ∈ byGroup es ↔ e ∈ es ∧ e.group < 4096 := by
  simp only [byGroup, groupsOf, List.mem_flatMap, List.mem_filter, List.mem_range, List.any_eq_true, beq_iff_eq]
  constructor
  · rintro ⟨g, ⟨hg, -⟩, he, rfl⟩
    exact ⟨he, hg⟩
  · exact fun ⟨he, hg⟩ => ⟨e.group, ⟨hg, e, he, rfl⟩, he, rfl⟩

/-- The steps of the image's start after its entries. -/
def State.bootRest (s : State) (es : List ImgEnt) : State :=
  let s := (List.range 8).foldl (fun s k => if s.pairEn k then s.setPair k 1 else s) s
  let s := ((List.range 8).foldl State.assignBuckets s).refreshRoutes
  let s := (List.range 72).foldl State.roleHealth s
  s.retarget ((es.map ImgEnt.reg).eraseDups.filter fun r => r.block == 0x15)

theorem State.bootRest_view (s : State) (es : List ImgEnt) : (s.bootRest es).view = s.view := by
  have pairs : ((List.range 8).foldl (fun (s : State) k => if s.pairEn k then s.setPair k 1 else s) s).view = s.view := by
    refine State.foldl_keeps State.view _ (fun s k => ?_) _ s
    split
    · rw [setPair_view]
    · rfl
  rw [bootRest, retarget_view, State.foldl_keeps State.view _ State.roleHealth_view, refreshRoutes_view,
    State.foldl_keeps State.view _ State.assignBuckets_view, pairs]

/-- The number of the last group that has committed. -/
def State.noteGroup (s : State) (g : Option Nat) : State := (g.map fun g => s.setF TLT_STAT TLT_STAT_GROUP g).getD s

theorem State.noteGroup_view (s : State) (g : Option Nat) : (s.noteGroup g).view = s.view := by
  cases g with
  | none => rfl
  | some g => exact s.setF_view ..

theorem State.bootImage_eq (s : State) (es : List ImgEnt) :
    s.bootImage es = (((byGroup es).foldl State.bootEnt s).bootRest es).noteGroup (groupsOf es).getLast? := by
  rw [byGroup, List.foldl_flatMap]
  unfold bootImage
  generalize groupsOf es = gs
  dsimp only
  cases gs.getLast? with
  | none => rfl
  | some g => rfl

theorem State.bootImage_view (s : State) (es : List ImgEnt) : (s.bootImage es).view = ((byGroup es).foldl State.bootEnt s).view := by
  rw [State.bootImage_eq, noteGroup_view, bootRest_view]

theorem State.bootImage_svc (s : State) (es : List ImgEnt) : (s.bootImage es).svc = s.svc :=
  (State.svc_of_view (s.bootImage_view es)).trans (State.foldl_keeps State.svc _ State.bootEnt_svc _ s)

/-- An entry of a group is active after the start, where no other entry names its register. -/
theorem State.bootImage_act (s : State) {es : List ImgEnt} (hnd : (es.map fun e => e.reg.key).Nodup) {e : ImgEnt} (he : e ∈ es)
    (hg : e.group < 4096) : (s.bootImage es).act e.reg = e.val &&& e.reg.rwsMask := by
  have only : ∀ x ∈ byGroup es, x.reg.key = e.reg.key → x = e := fun x hx hk =>
    List.inj_on_of_nodup_map hnd (mem_byGroup.mp hx).1 he hk
  have entries := State.act_bootEnts (byGroup es) only s (.inl (mem_byGroup.mpr ⟨he, hg⟩))
  rw [act, State.active_of_view (s.bootImage_view es)]
  exact entries

end Sys2Proof.Machine
end

section
/-! SUPPORT. Commits and their ends (R10, R41, R46, R49). -/

namespace Sys2Proof.Machine

/-! The shadow values become active. -/

/-- A register's shadow value becomes active and enters the retained image (R38, R40). -/
def State.activate1 (s : State) (r : Reg) : State := (s.setAct r (s.reg r &&& r.rwsMask)).retain r (s.reg r &&& r.rwsMask)

theorem State.retain_frame (s : State) (r : Reg) (v : Word) : (s.retain r v).regs = s.regs ∧ (s.retain r v).threads = s.threads ∧
    (s.retain r v).clrs = s.clrs := ⟨rfl, rfl, rfl⟩

theorem State.activate1_frame (s : State) (r : Reg) : (s.activate1 r).regs = s.regs ∧ (s.activate1 r).threads = s.threads ∧
    (s.activate1 r).clrs = s.clrs := by
  obtain ⟨hregs, hthr, hclrs⟩ := (s.setAct r (s.reg r &&& r.rwsMask)).retain_frame r (s.reg r &&& r.rwsMask)
  exact ⟨hregs.trans (s.setAct_regs ..), hthr.trans (s.setAct_threads ..), hclrs.trans (s.setAct_clrs ..)⟩

theorem State.activate_frame (s : State) (ch : List Reg) : (s.activate ch).regs = s.regs ∧ (s.activate ch).threads = s.threads ∧
    (s.activate ch).clrs = s.clrs := by
  induction ch generalizing s with
  | nil => exact ⟨rfl, rfl, rfl⟩
  | cons r ch ih =>
    obtain ⟨hregs, hthr, hclrs⟩ := ih (s.activate1 r)
    obtain ⟨regs1, thr1, clrs1⟩ := s.activate1_frame r
    exact ⟨hregs.trans regs1, hthr.trans thr1, hclrs.trans clrs1⟩

/-- Each register of a list is active with its shadow value. -/
theorem State.act_activate {r : Reg} (l : List Reg) (only : ∀ q ∈ l, q.key = r.key → q = r) :
    ∀ s v : State, v.regs = s.regs → (r ∈ l ∨ v.act r = s.reg r &&& r.rwsMask) → (v.activate l).act r = s.reg r &&& r.rwsMask := by
  induction l with
  | nil => exact fun s v _ h => h.resolve_left (by simp)
  | cons q l ih =>
    intro s v hv h
    obtain ⟨hregs, -⟩ := v.activate1_frame q
    refine ih (fun x hx => only x (by simp [hx])) s (v.activate1 q) (hregs.trans hv) ?_
    by_cases hk : q.key = r.key
    · have e := only q (by simp) hk
      subst e
      exact .inr (by rw [activate1, State.retain_act, State.act_setAct_self, reg, reg, hv])
    · rcases h with h | h
      · exact .inl ((List.mem_cons.mp h).resolve_left fun e => hk (by rw [e]))
      · exact .inr (by rw [activate1, State.retain_act, State.act_setAct_ne _ _ (Ne.symm hk), h])

/-! A commit of a core's block 0x01 has no effect beside its active values. -/

theorem State.releases_other (s : State) {ms : List (Nat × Nat)} (h : (0x05, 0) ∉ ms) : releases s ms = false := by
  have same : nf s ms (L3C_SEED 0) L3C_SEED_NWAYS = s.actF (L3C_SEED 0) L3C_SEED_NWAYS := by
    have out : ms.contains ((L3C_SEED 0).block, (L3C_SEED 0).inst) = false := by simpa [L3C_SEED] using h
    rw [nf, nv, out]
    rfl
  rw [releases, same]
  cases hz : s.actF (L3C_SEED 0) L3C_SEED_NWAYS == 0 <;> simp [hz, bne]

theorem State.effects_core (old s : State) (i : Nat) {ch : List Reg} (h : ∀ r ∈ ch, r.block = 0x01) :
    State.effects old [(0x01, i)] ch false s = s := by
  have on (b : Nat) (hb : b ≠ 0x01) : (ch.filter fun r => r.block == b) = [] :=
    List.filter_eq_nil_iff.mpr fun r hr => by simp [h r hr, Ne.symm hb]
  have rel : releases old [(0x01, i)] = false := old.releases_other (by simp)
  simp only [effects, on 0x02 (by decide), on 0x08 (by decide), on 0x09 (by decide), on 0x0A (by decide), on 0x0B (by decide),
    on 0x0C (by decide), on 0x0F (by decide), on 0x11 (by decide), on 0x12 (by decide), on 0x13 (by decide), on 0x15 (by decide), rel,
    List.contains_nil, List.filter_nil, List.map_nil, List.foldl_nil, List.eraseDups_nil, if_true, and_self, Bool.false_or, bne_self_eq_false,
    Bool.false_eq_true, if_false]

theorem State.commitMembers_core (s : State) (i : Nat) : s.commitMembers [(0x01, i)] false = s.activate (s.differing 0x01 i) := by
  have block : ∀ r ∈ s.differing 0x01 i, r.block = 0x01 := fun r hr => (State.differing_inWindow hr).1
  have none : (([(0x01, i)] : List (Nat × Nat)).any fun m => m.1 == 0x02) = false := rfl
  simp only [commitMembers, State.changes_singleton, none, Bool.false_eq_true, if_false]
  exact State.effects_core s _ i block

/-- A commit of block 0x01 of a core: its shadow values are active (R41 step 4). -/
theorem State.commitMembers_core_act (s : State) {i : Nat} (hi : i < 256) :
    ∀ r ∈ s.differing 0x01 i, (s.commitMembers [(0x01, i)] false).act r = s.reg r &&& r.rwsMask := by
  intro r hr
  have window : ∀ q ∈ s.differing 0x01 i, q.inWindow = true := fun q hq => by
    obtain ⟨-, hinst, hoff⟩ := State.differing_inWindow hq
    exact Reg.inWindow_of (by omega) hoff
  rw [State.commitMembers_core]
  exact State.act_activate _ (fun q hq hk => Reg.eq_of_key (window q hq) (window r hr) hk) s s rfl (.inl hr)

/-! The members resume. -/

theorem State.clrs_of_offThreads {s u : State} (h : u.offThreads = s.offThreads) : u.clrs = s.clrs := (congrArg State.clrs h :)
theorem State.ldr_of_offThreads {s u : State} (h : u.offThreads = s.offThreads) : u.ldr = s.ldr := (congrArg State.ldr h :)

theorem State.restartThreads_offThreads (s : State) : s.restartThreads.offThreads = s.offThreads :=
  State.foldl_keeps State.offThreads _ (fun s t => s.startThread_offThreads t 1) _ s

/-- The writes held during a commit reach shadow registers alone (R10). -/
theorem State.releaseHeld_frame (s : State) (ms : List (Nat × Nat)) : (s.releaseHeld ms).svc = s.svc ∧ (s.releaseHeld ms).active = s.active ∧
    (s.releaseHeld ms).clrs = s.clrs ∧ (s.releaseHeld ms).ldr = s.ldr := by
  have taken (g : State) (w : List (Nat × Word × Word)) : ({ g with heldW := w } : State).svc = g.svc ∧
      ({ g with heldW := w } : State).active = g.active ∧ ({ g with heldW := w } : State).clrs = g.clrs ∧
      ({ g with heldW := w } : State).ldr = g.ldr := ⟨rfl, rfl, rfl, rfl⟩
  have writes (l : List (Nat × Word × Word)) : (l.foldl (fun (s : State) e => s.setReg (Reg.ofKey e.1)
      ((s.reg (Reg.ofKey e.1) &&& ~~~ e.2.1) ||| (e.2.2 &&& e.2.1))) s).offQueues = s.offQueues :=
    State.foldl_keeps State.offQueues _ (fun s e => s.setReg_offQueues _ _) l s
  rw [releaseHeld]
  obtain ⟨hsvc, hact, hclrs, hldr⟩ := taken _ _
  exact ⟨hsvc.trans (State.svc_of_offQueues (writes _)), hact.trans (State.active_of_offQueues (writes _)),
    hclrs.trans (State.clrs_of_offQueues (writes _)), hldr.trans (State.ldr_of_offQueues (writes _))⟩

/-- The members of a commit resume; the command in progress, the active values and the loader's state stay. -/
theorem State.resume_frame (s : State) (ms : List (Nat × Nat)) : let u := (s.releaseHeld ms).restartThreads
    u.svc = s.svc ∧ u.active = s.active ∧ u.clrs = s.clrs ∧ u.ldr = s.ldr := by
  obtain ⟨hsvc, hact, hclrs, hldr⟩ := s.releaseHeld_frame ms
  have hoff := (s.releaseHeld ms).restartThreads_offThreads
  exact ⟨(State.svc_of_offThreads hoff).trans hsvc, (State.active_of_offThreads hoff).trans hact, (State.clrs_of_offThreads hoff).trans hclrs,
    (State.ldr_of_offThreads hoff).trans hldr⟩

end Sys2Proof.Machine
end

section
/-! SUPPORT. TLT_CMD over the configuration bus (R46), and the loader's aborts (R42). -/

namespace Sys2Proof.Machine

/-! TLT_CMD. -/

/-- A write of TLT_CMD reaches the loader, which then goes on with whatever can. -/
theorem State.tltWrite_config (s : State) (v : Word) : s.tltWrite .config v = (s.tltCmd v).settleLoader := by
  have whole : TLT_CMD_OP.mask &&& 0xFFFFFFFFFFFFFFFF#64 = TLT_CMD_OP.mask := by decide
  have all : v &&& 0xFFFFFFFFFFFFFFFF#64 = v := BitVec.and_allOnes
  have wrote : s.writeAs .config 0x14 0 0x010 8 v = s.tltCmd v := by
    simp [writeAs, reaches, blockCount, regWrite, domainUp, accOk, inMbox, unitWrite, inGlade, sysWrite, accWord, accMask, CPC_APP, SVP_CMD,
      TLT_CMD, whole, all]
  rw [tltWrite, wrote]

/-- The operation that a written word names. -/
theorem tltCmd_op {n : Nat} (h : n < 16) : TLT_CMD_OP.get (TLT_CMD_OP.put 0 n) = n :=
  (Fld.get_put_self _ _ _ (by decide)).trans (Nat.mod_eq_of_lt h)

/-- The fields of the word that asks for a clearing. -/
theorem tltCmd_clear {b i : Nat} (hb : b < 256) (hi : i < 256) :
    let w := TLT_CMD_INST.put (TLT_CMD_BLOCK.put (TLT_CMD_OP.put 0 2) b) i
    TLT_CMD_OP.get w = 2 ∧ TLT_CMD_BLOCK.get w = b ∧ TLT_CMD_INST.get w = i := by
  refine ⟨?_, ?_, ?_⟩
  · rw [Fld.get_put_ne _ _ _ _ (by decide), Fld.get_put_ne _ _ _ _ (by decide), tltCmd_op (by decide)]
  · rw [Fld.get_put_ne _ _ _ _ (by decide), Fld.get_put_self _ _ _ (by decide)]
    exact Nat.mod_eq_of_lt hb
  · rw [Fld.get_put_self _ _ _ (by decide)]
    exact Nat.mod_eq_of_lt hi

theorem exec_tltCmdLoad_config (s : State) : exec (.tltCmdLoad .config) s = .next
    (if s.ldr.isSome ∨ s.queueFull 5 then s.logC 0x14 0 0x0D [1]
      else { s.queueWork 5 ⟨5, 0⟩ with ldr := some (LoadJob.start false none) } : State).settleLoader := by
  rw [exec_tltCmdLoad, execTltCmdLoad, State.tltWrite_config, State.tltCmd, tltCmd_op (by decide)]
  rfl

theorem exec_tltCmdClear_config (b i : BitVec 8) (s : State) : exec (.tltCmdClear .config b i) s = .next
    (if holdsRws b.toNat i.toNat = false ∨ s.queueFull 5 then s.logC 0x14 0 0x0D [2]
      else { s.queueWork 5 ⟨6, BitVec.ofNat 64 (b.toNat * 256 + i.toNat)⟩ with
        clrs := s.clrs ++ [⟨b.toNat, i.toNat, false, false⟩] } : State).settleLoader := by
  obtain ⟨hop, hblk, hinst⟩ := tltCmd_clear b.isLt i.isLt
  rw [exec_tltCmdClear, execTltCmdClear, State.tltWrite_config, State.tltCmd, hop, hblk, hinst]
  rfl

theorem exec_tltCmdIgnoredOp_config {o : BitVec 4} (s : State) (h1 : o ≠ 1) (h2 : o ≠ 2) :
    exec (.tltCmdIgnoredOp .config o) s = .next (s.logC 0x14 0 0x0D [o.setWidth 8]).settleLoader := by
  have n1 : o.toNat ≠ 1 := fun e => h1 (BitVec.eq_of_toNat_eq e)
  have n2 : o.toNat ≠ 2 := fun e => h2 (BitVec.eq_of_toNat_eq e)
  rw [exec_tltCmdIgnoredOp, execTltCmdIgnoredOp, if_neg (not_or.mpr ⟨h1, h2⟩), State.tltWrite_config, State.tltCmd, tltCmd_op o.isLt,
    if_neg n1, if_neg n2, BitVec.ofNat_toNat]

/-! Aborts. -/

/-- What a commit or an abort left of the registers outside the loader's own is unchanged in its rw-s bits. -/
theorem State.unchanged_of_tlt {s u v : State} {r : Reg} (hr : r.inWindow = true) (h : v.unchanged r) (hact : v.act r = s.act r)
    (hreg : ∀ q : Reg, ¬ q.ofTlt → u.reg q = v.reg q) : u.reg r &&& r.rwsMask = s.act r &&& r.rwsMask := by
  by_cases ht : r.ofTlt
  · rw [Reg.rwsMask_ofTlt hr ht]
    simp
  · rw [hreg r ht, ← hact]
    exact h

/-- A load whose group is aborted ends; the shadow values of its members return (R42). -/
theorem State.abortGroup_spec (s : State) (j : LoadJob) (code off : Nat) (hms : ∀ m ∈ j.live, m.2 < 256) :
    let u := s.abortGroup j code off
    u.ldr = none ∧ u.clrs = s.clrs ∧ u.tltEnded code ∧ u.tiletTold s j code ∧ u.active = s.active ∧
      ∀ r ∈ s.changes j.live, u.reg r &&& r.rwsMask = s.act r &&& r.rwsMask := by
  have hoff := s.revert_offQueues j.live
  obtain ⟨hldr, hclrs, hact, -⟩ := (s.revert j.live).loadEnds_frame j code off
  refine ⟨hldr, hclrs.trans (State.clrs_of_offQueues hoff), State.loadEnds_ended _ j code off,
    State.tiletTold_of_svc ((s.revert j.live).loadEnds_told j code off) (State.svc_of_offQueues hoff) rfl,
    hact.trans (State.active_of_offQueues hoff), fun r hr => ?_⟩
  exact State.unchanged_of_tlt (State.changes_inWindow hms hr) (s.revert_unchanged hms r hr)
    (State.act_of_active (State.active_of_offQueues hoff) r) fun q hq => State.reg_loadEnds_ne _ j code off hq

/-- A block clearing that is aborted ends; the shadow values of its member return (R42, R46). -/
theorem State.abortClear_spec (s : State) {c : ClrJob} (code : Nat) (hc : s.clrs = [c]) :
    let u := (s.revert [(c.block, c.inst)]).clrEnds c code
    u.ldr = s.ldr ∧ u.clrs = [] ∧ u.tltEnded code ∧ u.active = s.active ∧
      (c.inst < 256 → ∀ r ∈ s.differing c.block c.inst, u.reg r &&& r.rwsMask = s.act r &&& r.rwsMask) := by
  have hoff := s.revert_offQueues [(c.block, c.inst)]
  obtain ⟨hclrs, hend, hact, hldr, hreg⟩ := (s.revert [(c.block, c.inst)]).clrEnds_spec c code ((State.clrs_of_offQueues hoff).trans hc)
  refine ⟨hldr.trans (State.ldr_of_offQueues hoff), hclrs, hend, hact.trans (State.active_of_offQueues hoff), fun hi r hr => ?_⟩
  have hms : ∀ m ∈ [(c.block, c.inst)], m.2 < 256 := by simpa using hi
  rw [← State.changes_singleton] at hr
  exact State.unchanged_of_tlt (State.changes_inWindow hms hr) (s.revert_unchanged hms r hr)
    (State.act_of_active (State.active_of_offQueues hoff) r) hreg

/-! READY, COMMITTED and CLEARING_TIMEOUT where a block clearing alone is in progress. -/

section
variable {s : State} {c : ClrJob} (hidle : s.loaderIdle) (hldr : s.ldr = none) (hc : s.clrs = [c])
include hidle hldr hc

theorem exec_ready_clear (hs : c.started = true) (hk : c.commit = false) :
    exec (.ready c.block c.inst) s = .next (if s.memberReady [(c.block, c.inst)] c.block c.inst then s.commitClear c else s) := by
  have found : s.clrs.find? (fun x => x.started && !x.commit && x.block == c.block && x.inst == c.inst) = some c := by
    simp [hc, hs, hk]
  rw [exec_ready, execReady, hidle]
  simp only [State.memberReports, hldr, found]

theorem exec_committed_clear (hk : c.commit = true) : exec .committed s = .next (s.clrCommitted c) ∧ (s.clrCommitted c).clrs = [] ∧
    (s.clrCommitted c).tltEnded 0 ∧ (s.clrCommitted c).active = s.active := by
  obtain ⟨-, ract, rclrs, rldr⟩ := s.resume_frame [(c.block, c.inst)]
  obtain ⟨hclrs, hend, hact, hl, -⟩ := ((s.releaseHeld [(c.block, c.inst)]).restartThreads).clrEnds_spec c 0 (rclrs.trans hc)
  have found : s.clrs.find? (fun x => x.commit) = some c := by simp [hc, hk]
  have idle : (s.clrCommitted c).loaderIdle := State.settleLoader_idle (.inl (hl.trans (rldr.trans hldr))) hclrs
  refine ⟨?_, hclrs, hend, hact.trans ract⟩
  rw [exec_committed, execCommitted, hidle]
  simp only [hldr, found]
  rw [idle]

theorem exec_clearingTimeout_clear (hs : c.started = true) (hk : c.commit = false) (ho : s.overdue (c.block, c.inst) = true) :
    exec .clearingTimeout s = .next ((s.revert [(c.block, c.inst)]).clrEnds c 0x10) := by
  obtain ⟨hl, hclrs, -⟩ := s.abortClear_spec 0x10 hc
  have found : s.clrs.find? (fun x => x.started && !x.commit && s.overdue (x.block, x.inst)) = some c := by
    simp [hc, hs, hk, ho]
  have idle : ((s.revert [(c.block, c.inst)]).clrEnds c 0x10).loaderIdle := State.settleLoader_idle (.inl (hl.trans hldr)) hclrs
  rw [exec_clearingTimeout, execClearingTimeout, hidle]
  simp only [hldr, found]
  rw [idle]

end

/-! The loader's group. -/

section
variable {s : State} {j : LoadJob} (hidle : s.loaderIdle) (hj : s.ldr = some j)
include hidle hj

theorem exec_ready_group (hg : j.going = true) (hk : j.commit = false) {b i : Nat} (hm : (b, i) ∈ j.live) (hr : (b, i) ∉ j.ready) :
    exec (.ready b i) s = .next (if s.memberReady j.live b i then
      ({ s with ldr := some { j with ready := j.ready ++ [(b, i)] } } : State).settleGroup else s) := by
  rw [exec_ready, execReady, hidle]
  have waits : (j.going && !j.commit && j.live.contains (b, i) && !j.ready.contains (b, i)) = true := by simp [hg, hk, hm, hr]
  simp only [State.memberReports, hj, waits, if_true]

/-- COMMITTED of the last group ends the load (R45). -/
theorem exec_committed_last (hk : j.commit = true) {g : Nat} (hg : j.groups = [g]) (hc : s.clrs = []) :
    ∃ u : State, exec .committed s = .next u ∧ u.ldr = none ∧ u.tltEnded 0 ∧ u.reg TLT_SERIAL = BitVec.ofNat 64 j.serial ∧
      u.tiletTold s j 0 ∧ u.active = s.active := by
  let k : LoadJob := { j with groups := j.groups.drop 1, going := false, live := [], ready := [], commit := false, retried := false }
  obtain ⟨rsvc, ract, rclrs, -⟩ := s.resume_frame j.live
  obtain ⟨hldr, hclrs, hend, hserial, htold, -, hact, -⟩ := ((s.releaseHeld j.live).restartThreads).loadDone_spec k
  have idle : (((s.releaseHeld j.live).restartThreads).loadDone k).loaderIdle :=
    State.settleLoader_idle (.inl hldr) (hclrs.trans (rclrs.trans hc))
  have last : s.groupCommitted j = ((s.releaseHeld j.live).restartThreads).loadDone k := by
    rw [State.groupCommitted, if_pos (by simp [hg])]
  refine ⟨_, ?_, hldr, hend, hserial, State.tiletTold_of_svc htold rsvc rfl, hact.trans ract⟩
  rw [exec_committed, execCommitted, hidle]
  simp only [hj, hk, if_true]
  rw [last, idle]

/-- A bound that expires aborts the group where a member outside a takeover has not finished (R42). -/
theorem exec_clearingTimeout_group (hg : j.going = true) (hk : j.commit = false) (hc : s.clrs = []) (hms : ∀ m ∈ j.live, m.2 < 256)
    (ho : ∃ m ∈ j.live, m ∉ j.ready ∧ s.overdue m = true) :
    ∃ u : State, exec .clearingTimeout s = .next u ∧ u.ldr = none ∧ u.tltEnded 0x10 ∧ u.tiletTold s j 0x10 ∧ u.active = s.active ∧
      ∀ r ∈ s.changes j.live, u.reg r &&& r.rwsMask = s.act r &&& r.rwsMask := by
  have late : (j.live.filter fun m => !j.ready.contains m).any s.overdue = true := by
    obtain ⟨m, hm, hr, hd⟩ := ho
    exact List.any_eq_true.mpr ⟨m, List.mem_filter.mpr ⟨hm, by simpa using hr⟩, hd⟩
  let off := match j.groups with | g :: _ => firstRec (j.entsOf g) | [] => 0
  obtain ⟨hldr, hclrs, hend, htold, hact, hback⟩ := s.abortGroup_spec j 0x10 off hms
  have idle : (s.abortGroup j 0x10 off).loaderIdle := State.settleLoader_idle (.inl hldr) (hclrs.trans hc)
  refine ⟨_, ?_, hldr, hend, htold, hact, hback⟩
  have waits : (j.going && !j.commit) = true := by simp [hg, hk]
  rw [exec_clearingTimeout, execClearingTimeout, hidle]
  simp only [hj, waits, late, if_true]
  exact congrArg Host.Outcome.next idle

theorem exec_clearingTimeout_takeover (hg : j.going = true) (hk : j.commit = false)
    (ho : ∀ m ∈ j.live, m ∉ j.ready → s.overdue m = false) : exec .clearingTimeout s = .next s := by
  have none : (j.live.filter fun m => !j.ready.contains m).any s.overdue = false := by
    refine List.any_eq_false.mpr fun m hm => ?_
    obtain ⟨hl, hr⟩ := List.mem_filter.mp hm
    simp [ho m hl (by simpa using hr)]
  have waits : (j.going && !j.commit) = true := by simp [hg, hk]
  rw [exec_clearingTimeout, execClearingTimeout, hidle]
  simp only [hj, waits, none, if_true, Bool.false_eq_true, if_false]
  rw [hidle]

end

/-! COMMIT of a block clearing. -/

/-- A block clearing has committed. -/
def State.noteCommit (g : State) (c : ClrJob) : State :=
  { g with clrs := g.clrs.map fun x => if x == c then { c with started := true, commit := true } else x }

theorem State.noteCommit_clrs {g : State} {c : ClrJob} (h : g.clrs = [c]) (hs : c.started = true) :
    (g.noteCommit c).clrs = [{ c with commit := true }] := by
  simp only [noteCommit, h, List.map_cons, List.map_nil, beq_self_eq_true, if_true, ← hs]
theorem State.noteCommit_frame (g : State) (c : ClrJob) : (∀ r, (g.noteCommit c).act r = g.act r) ∧ (g.noteCommit c).regs = g.regs ∧
    (g.noteCommit c).threads = g.threads := ⟨fun _ => rfl, rfl, rfl⟩

theorem State.commitClear_met {s : State} {c : ClrJob} (hp : s.parkedInst c.block c.inst = false)
    (hu : s.unmet [(c.block, c.inst)] = none) : s.commitClear c = (s.commitMembers [(c.block, c.inst)] false).noteCommit c := by
  rw [State.commitClear, if_neg (by simp [hp]), hu]
  rfl

/-- A commit of a core's block 0x01 whose preconditions hold (R41 step 4). -/
theorem State.commitClear_core {s : State} {c : ClrJob} (hc : s.clrs = [c]) (hs : c.started = true) (hb : c.block = 0x01) (hi : c.inst < 72)
    (hp : s.parkedInst 0x01 c.inst = false) (hu : s.unmet [(0x01, c.inst)] = none) :
    (s.commitClear c).clrs = [{ c with commit := true }] ∧
      (∀ r ∈ s.differing 0x01 c.inst, (s.commitClear c).act r = s.reg r &&& r.rwsMask) ∧ (s.commitClear c).regs = s.regs ∧
      (s.commitClear c).threads = s.threads := by
  obtain ⟨nact, nregs, nthr⟩ := (s.commitMembers [(0x01, c.inst)] false).noteCommit_frame c
  obtain ⟨aregs, athr, aclrs⟩ := s.activate_frame (s.differing 0x01 c.inst)
  rw [← State.commitMembers_core] at aregs athr aclrs
  have met : s.commitClear c = (s.commitMembers [(0x01, c.inst)] false).noteCommit c := by
    rw [State.commitClear_met (by rw [hb, hp]) (by rw [hb, hu]), hb]
  rw [met]
  exact ⟨State.noteCommit_clrs (aclrs.trans hc) hs, fun r hr => (nact r).trans (s.commitMembers_core_act (by omega) r hr),
    nregs.trans aregs, nthr.trans athr⟩

theorem State.commitClear_unmet {s : State} {c : ClrJob} (hp : s.parkedInst c.block c.inst = false) {r : Reg}
    (hu : s.unmet [(c.block, c.inst)] = some r) : s.commitClear c = (s.revert [(c.block, c.inst)]).clrEnds c 0x11 := by
  rw [State.commitClear, if_neg (by simp [hp]), hu]

/-! IMAGE_VERIFY_DONE. -/

/-- A load whose image has passed verification (R52). -/
def LoadJob.passed (j : LoadJob) (m : Image) : LoadJob :=
  { j with verified := true, serial := m.serial, root := m.root, owner := m.owner, ents := m.ents, groups := groupsOf m.ents }

section
variable {s : State} {j : LoadJob} (hj : s.ldr = some j) (hv : j.verified = false)
include hj hv

theorem exec_imageVerifyDone_error {e : Rej} (he : s.verifyImage j.len = .error e) : exec .imageVerifyDone s = .next (s.loadEnds j e.1 e.2) := by
  rw [exec_imageVerifyDone, execImageVerifyDone]
  simp only [hj, hv, he, Bool.false_eq_true, if_false]

theorem exec_imageVerifyDone_ok {m : Image} (hm : s.verifyImage j.len = .ok m) : exec .imageVerifyDone s = .next
    (if m.part = false ∧ s.startStep = 2 then ((s.bootImage m.ents).setF SVP_STAT SVP_STAT_STEP 3).loadDone (j.passed m)
    else if groupsOf m.ents = [] then s.loadDone (j.passed m)
    else ({ s with ldr := some (j.passed m) } : State).settleLoader) := by
  rw [exec_imageVerifyDone, execImageVerifyDone]
  simp only [hj, hv, hm, Bool.false_eq_true, if_false]
  rfl

end

/-- A full image at STEP 2 commits at once (R63 step 5). -/
theorem State.bootImage_done (s : State) (j : LoadJob) (m : Image) :
    let u := ((s.bootImage m.ents).setF SVP_STAT SVP_STAT_STEP 3).loadDone (j.passed m)
    u.ldr = none ∧ u.startStep = 3 ∧ u.tltEnded 0 ∧ u.reg TLT_SERIAL = BitVec.ofNat 64 m.serial ∧ u.tiletTold s j 0 ∧ u.rootKey = some m.root ∧
      ((m.ents.map fun e => e.reg.key).Nodup → ∀ e ∈ m.ents, e.group < 4096 → u.act e.reg = (e.val &&& e.reg.rwsMask)) := by
  obtain ⟨hldr, -, hend, hserial, htold, hroot, hact, hstep⟩ :=
    ((s.bootImage m.ents).setF SVP_STAT SVP_STAT_STEP 3).loadDone_spec (j.passed m)
  have bootAct : ((s.bootImage m.ents).setF SVP_STAT SVP_STAT_STEP 3).active = (s.bootImage m.ents).active := State.setReg_active ..
  refine ⟨hldr, hstep.trans (State.getF_setF_self _ _ _ _ (by decide)), hend, hserial, ?_, hroot, fun hnd e he hg => ?_⟩
  · exact State.tiletTold_of_svc htold ((State.setF_svc ..).trans (s.bootImage_svc m.ents)) rfl
  · rw [State.act_of_active hact, State.act_of_active bootAct]
    exact s.bootImage_act hnd he hg

theorem groupsOf_ne_nil {es : List ImgEnt} (h : ∃ e ∈ es, e.group < 4096) : groupsOf es ≠ [] := by
  obtain ⟨e, he, hg⟩ := h
  have mem : e.group ∈ groupsOf es :=
    List.mem_filter.mpr ⟨List.mem_range.mpr hg, List.any_eq_true.mpr ⟨e, he, beq_self_eq_true _⟩⟩
  exact List.ne_nil_of_mem mem

theorem groupsOf_nil : groupsOf [] = [] := List.filter_eq_nil_iff.mpr fun _ _ => by simp

end Sys2Proof.Machine
end

section
/-! PROOF. O56: what the loader's commands and its clearings come to. -/

namespace Sys2Proof.Machine

/-- Settles O56, clause by clause: TLT_CMD, IMAGE_VERIFY_DONE, READY, COMMITTED and CLEARING_TIMEOUT. -/
theorem loaderResults : Obligations.LoaderResults := by
  refine ⟨fun s => ?_, fun b i s => ?_, fun o s h1 h2 => exec_tltCmdIgnoredOp_config s h1 h2, fun s => ?_,
    fun c s hidle hldr hc hs hk hb hi => ?_, fun c r s hidle hldr hc hs hk hb hi hp hu => ?_,
    fun b i j s hidle hj hg hk hm hr => exec_ready_group hidle hj hg hk hm hr, fun c s hidle hldr hc hk => ?_,
    fun j g s hidle hj hk hg hc => exec_committed_last hidle hj hk hg hc, fun j g gs s hidle hj hg hk _ hc hms => ?_,
    fun c s hidle hldr hc hs hk ho => ?_⟩
  · -- TLT_CMD_LOAD (R46)
    rw [exec_tltCmdLoad_config]
    refine ⟨fun hj hq => ?_, fun h => ?_, fun j hj hg hc => State.settleLoader_idle (.inr ⟨j, hj, hg⟩) hc⟩
    · rw [if_neg (by simp [hj, hq])]
    · rw [if_pos (h.imp_left Option.isSome_iff_ne_none.mpr)]
  · -- TLT_CMD_CLEAR (R46)
    rw [exec_tltCmdClear_config]
    refine ⟨fun hh hq => ?_, fun h => ?_⟩
    · rw [if_neg (by simp [hh, hq])]
    · rw [if_pos h]
  · -- IMAGE_VERIFY_DONE (R45, R51, R52, R63)
    refine ⟨fun hj => ?_, fun j hj hv => ⟨fun e he => ⟨_, exec_imageVerifyDone_error hj hv he, ?_⟩, fun m hm => ?_⟩⟩
    · rw [exec_imageVerifyDone, execImageVerifyDone]
      simp only [hj]
    · obtain ⟨hldr, -, hact, hret, -⟩ := s.loadEnds_frame j e.1 e.2
      exact ⟨hldr, s.loadEnds_ended j e.1 e.2, s.loadEnds_erroff j e.1 e.2, s.loadEnds_told j e.1 e.2, hact, hret⟩
    · rw [exec_imageVerifyDone_ok hj hv hm]
      refine ⟨fun hfull hstep => ⟨_, congrArg Host.Outcome.next (if_pos ⟨hfull, hstep⟩), s.bootImage_done j m⟩, fun hpart hes => ?_,
        fun hpart hes => ?_⟩
      · obtain ⟨hldr, -, hend, hserial, -, -, hact, -⟩ := s.loadDone_spec (j.passed m)
        refine ⟨_, ?_, hldr, hend, hserial, hact⟩
        rw [if_neg (by simp [hpart]), if_pos (by rw [hes, groupsOf_nil])]
      · rw [if_neg (by simp [hpart]), if_neg (groupsOf_ne_nil hes)]
        rfl
  · -- READY of a core's block 0x01 (R41, R42)
    have ready := exec_ready_clear hidle hldr hc hs hk
    rw [hb] at ready
    refine ⟨fun htk => ?_, fun htk hp hu => ⟨_, ?_, State.commitClear_core hc hs hb hi hp hu⟩⟩
    · rw [ready, if_neg (by simp [State.memberReady, coreBlock, htk])]
    · rw [ready, if_pos (by simp [State.memberReady, coreBlock, htk])]
  · -- READY of block 0x0A with a precondition broken (R42, R43)
    have ready := exec_ready_clear hidle hldr hc hs hk
    have aborts : s.commitClear c = (s.revert [(c.block, c.inst)]).clrEnds c 0x11 :=
      State.commitClear_unmet (by rw [hb, hi, hp]) (by rw [hb, hi, hu])
    obtain ⟨-, hclrs, hend, hact, hback⟩ := s.abortClear_spec 0x11 hc
    rw [← aborts, hb, hi] at hback
    rw [← aborts] at hclrs hend hact
    rw [hb, hi] at ready
    refine ⟨_, ?_, hclrs, hend, hback (by decide), hact⟩
    rw [ready, if_pos (by simp [State.memberReady, coreBlock])]
  · -- COMMITTED of a block clearing (R46)
    obtain ⟨hexec, hclrs, hend, hact⟩ := exec_committed_clear hidle hldr hc hk
    exact ⟨_, hexec, hclrs, hend, hact⟩
  · -- CLEARING_TIMEOUT of a group (R42)
    exact ⟨fun ho => exec_clearingTimeout_group hidle hj hg hk hc hms ho, fun ho => exec_clearingTimeout_takeover hidle hj hg hk ho⟩
  · -- CLEARING_TIMEOUT of a block clearing (R42, R46)
    obtain ⟨-, hclrs, hend, hact, -⟩ := s.abortClear_spec 0x10 hc
    exact ⟨_, exec_clearingTimeout_clear hidle hldr hc hs hk ho, hclrs, hend, hact⟩

end Sys2Proof.Machine
end

section
/-! PROOF. O60: the state at power-up. -/

namespace Sys2Proof.Machine

/-- A thread before its first release (R68, R109, R110, R136). -/
theorem Thread.reset_fields : let x := Thread.reset
    x.run = .held ∧ (∀ r, x.gr r = 0) ∧ (∀ r, x.fr r = 0) ∧ x.srg SR_PST = 0x4003 ∧ x.srg SR_STCMP = BitVec.allOnes 64 ∧ x.srg SR_FCS = 0x400 ∧
    x.sq = [] ∧ x.mq = [] ∧ x.ssi = none ∧ x.msi = none ∧ x.sb = [] :=
  ⟨rfl, fun _ => ite_self (0 : Word), fun _ => rfl, rfl, rfl, rfl, rfl, rfl, rfl, rfl, rfl⟩

/-- No register has been written at power-up (R13). -/
theorem State.reg_reset (r : Reg) : State.reset.reg r = regReset r.key := by
  simp only [reg, reset, Tab.get]

/-- STEP is 0 at power-up (R63). -/
theorem State.startStep_reset : State.reset.startStep = 0 := by decide

/-- Settles O60: no table of the reset state holds an entry, so each reads its default. -/
theorem resetState : Obligations.ResetState := by
  have resets : ∀ n < 4, bitOf 0xF n = true := by decide
  exact ⟨rfl, rfl, rfl, State.startStep_reset, State.reg_reset, fun _ => Thread.reset_fields, fun _ => ⟨rfl, rfl, rfl⟩,
    fun n hn => ⟨resets n hn, resets n hn⟩, fun _ => rfl, fun _ => rfl, rfl, fun _ => rfl, rfl⟩

end Sys2Proof.Machine
end

section
/-! SUPPORT. SVP_CMD as the host writes it: with the link down, with a command in progress, and with a command that ends as it is issued (R55 to R58). -/

namespace Sys2Proof.Machine

/-! The write of SVP_CMD. -/

/-- With the link down the host reaches no register of the service port (R18). -/
theorem State.writeAs_host_of_down {s : State} (h : s.svcUp = false) (off size : Nat) (w : Word) : s.writeAs .host 0x16 0 off size w = s := by
  simp [writeAs, reaches, h]

/-- A write of the lower half of SVP_CMD (R56). -/
theorem State.writeAs_SVP_CMD_low {s : State} (h : s.svcUp = true) (w : Word) :
    s.writeAs .host 0x16 0 0x010 4 w = s.svcWrite w 0x00000000FFFFFFFF#64 := by
  simp [writeAs, reaches, h, blockCount, regWrite, domainUp, accOk, inMbox, unitWrite, inGlade, sysWrite, accWord, accMask, SVP_CMD,
    CPC_APP]

/-- A write of SVP_CMD while a command is in progress sets OVR alone (R56). -/
theorem State.svcWrite_of_busy {s : State} {c : SvcCmd} (h : s.svc = some c) (v mask : Word) :
    s.svcWrite v mask = s.setF SVP_STAT SVP_STAT_OVR 1 := by
  simp [svcWrite, h]

/-- With no command in progress a write of the lower half is kept as LEN (R56). -/
theorem State.svcWrite_low {s : State} (h : s.svc = none) (v : Word) :
    s.svcWrite v 0x00000000FFFFFFFF#64 = s.setF SVP_CMD SVP_CMD_LEN (SVP_CMD_LEN.get v) := by
  have low : ¬ 0x00000000FFFFFFFF#64 &&& 1 = 0 := by decide
  have high : 0x00000000FFFFFFFF#64 >>> 32 &&& 1 = 0 := by decide
  simp only [svcWrite, h, Option.isSome_none, Bool.false_eq_true, if_false, if_neg low, if_pos high]

/-- With no command in progress a write of the whole register issues a command (R56). -/
theorem State.svcWrite_issues {s : State} (h : s.svc = none) {op t l : Nat} (hop : op < 256) (ht : t < 256) (hl : l < 2 ^ 32) :
    s.svcWrite (BitVec.ofNat 64 (op * 2 ^ 56 + t * 2 ^ 48 + l)) (BitVec.allOnes 64) = (s.setF SVP_CMD SVP_CMD_LEN l).svcIssue op t l := by
  obtain ⟨wop, wtgt, wlen⟩ := svpCmd_fields hop ht hl
  have low : ¬ BitVec.allOnes 64 &&& 1 = 0 := by decide
  have high : ¬ BitVec.allOnes 64 >>> 32 &&& 1 = 0 := by decide
  have kept : (s.setF SVP_CMD SVP_CMD_LEN l).getF SVP_CMD SVP_CMD_LEN = l :=
    (State.getF_setF_self _ _ _ _ (by decide)).trans (Nat.mod_eq_of_lt hl)
  simp only [svcWrite, h, Option.isSome_none, Bool.false_eq_true, if_neg low, if_neg high, if_false, wop, wtgt, wlen, kept]

theorem svpCmdLen_get (l : BitVec 32) : SVP_CMD_LEN.get (l.setWidth 64) = l.toNat := by
  have := l.isLt
  simp only [Fld.get, SVP_CMD_LEN, BitVec.toNat_setWidth]
  omega

/-! A command of R58 as the host sends it. -/

section
variable {s : State} {op t l : Nat} {bad : List Nat} {starts : Bool}

/-- A command whose result is known, or that is under way, is not served again. -/
theorem State.svcBegin_of_settled {c : SvcCmd} (h : s.svc = some c) (hc : c.begun = true ∨ c.code ≠ none) : s.svcBegin = s := by
  have settled : c.begun = true ∨ c.code.isSome = true ∨ (s.fst.lost = true ∧ s.svcDirect c.op = false) :=
    hc.imp_right fun h => .inl (Option.isSome_iff_ne_none.mpr h)
  simp only [svcBegin, h, if_pos settled]

theorem State.modSvc_of_none (h : s.svc = none) (f : SvcCmd → SvcCmd) : s.modSvc f = s := by
  rw [modSvc, h, Option.map_none, ← h]

theorem State.svcSend_of_down (h : s.svcUp = false) (hsvc : s.svc = none) : s.svcSend op t l bad starts = s := by
  simp only [svcSend, State.writeAs_host_of_down h, hsvc, Option.isSome_none, Bool.false_eq_true, if_false, State.modSvc_of_none hsvc, svcBegin]

theorem State.svcSend_of_busy (h : s.svcUp = true) {c : SvcCmd} (hsvc : s.svc = some c) (hc : c.begun = true ∨ c.code ≠ none) :
    s.svcSend op t l bad starts = s.setF SVP_STAT SVP_STAT_OVR 1 := by
  simp only [svcSend, State.writeAs_SVP_CMD h, State.svcWrite_of_busy hsvc, hsvc, Option.isSome_some, if_true]
  exact State.svcBegin_of_settled ((State.setF_svc ..).trans hsvc) hc

/-- With the link up and no command in progress a command is issued, and served unless its result is known. -/
theorem State.svcSend_of_idle (h : s.svcUp = true) (hsvc : s.svc = none) (hop : op < 256) (ht : t < 256) (hl : l < 2 ^ 32) :
    s.svcSend op t l bad starts =
      (((s.setF SVP_CMD SVP_CMD_LEN l).svcIssue op t l).modSvc fun c => { c with bad := bad, starts := starts }).svcBegin := by
  simp only [svcSend, hsvc, Option.isSome_none, Bool.false_eq_true, if_false, State.writeAs_SVP_CMD h, State.svcWrite_issues hsvc hop ht hl]

theorem State.svcCode_busyWith (l : Nat) : (s.busyWith l).svcCode op t = s.svcCode op t := by
  rw [svcCode, s.startStep_busyWith, svcCode]

/-- A command that R58 ends as it is issued: BUSY and LEN are set, its result is known. -/
theorem State.svcSend_coded (h : s.svcUp = true) (hsvc : s.svc = none) (hop : op < 256) (ht : t < 256) (hl : l < 2 ^ 32) {k : Nat}
    (hk : s.svcCode op t = some k) :
    s.svcSend op t l bad starts = { s.busyWith l with svc := some ⟨op, t, l, false, some k, 0, 0, bad, starts⟩ } := by
  have issued : (s.setF SVP_CMD SVP_CMD_LEN l).svcIssue op t l =
      { s.busyWith l with svc := some ⟨op, t, l, false, some k, 0, 0, [], true⟩ } := by
    have busy : (s.setF SVP_CMD SVP_CMD_LEN l).setF SVP_STAT SVP_STAT_BUSY 1 = s.busyWith l := rfl
    simp only [svcIssue, busy, State.svcCode_busyWith, hk, Option.isSome_some, true_or, if_true]
  rw [State.svcSend_of_idle h hsvc hop ht hl, issued]
  exact State.svcBegin_of_settled (s := { s.busyWith l with svc := some ⟨op, t, l, false, some k, 0, 0, bad, starts⟩ }) rfl (.inr (by simp))

/-- A command that finds the class 7 queue full ends with 0x01 and RETRY (R478). -/
theorem State.svcSend_full (h : s.svcUp = true) (hsvc : s.svc = none) (hop : op < 256) (ht : t < 256) (hl : l < 2 ^ 32)
    (hcode : s.svcCode op t = none) (h1 : s.startStep ≠ 1) (hdirect : s.svcDirect op = false) (hfull : s.queueFull 7 = true) :
    s.svcSend op t l bad starts = { (s.busyWith l).queueWork 7 ⟨7, 0⟩ with
      svc := some ⟨op, t, l, false, some 0x01, 0, s.busyRetry, bad, starts⟩ } := by
  have issued : (s.setF SVP_CMD SVP_CMD_LEN l).svcIssue op t l = { (s.busyWith l).queueWork 7 ⟨7, 0⟩ with
      svc := some ⟨op, t, l, false, some 0x01, 0, s.busyRetry, [], true⟩ } := by
    have busy : (s.setF SVP_CMD SVP_CMD_LEN l).setF SVP_STAT SVP_STAT_BUSY 1 = s.busyWith l := rfl
    have direct : (s.busyWith l).svcDirect op = false := by
      rw [State.svcDirect_of_reg (s.reg_busyWith_ne l (by decide) (by decide)), hdirect]
    have full : (s.busyWith l).queueFull 7 = true := hfull
    have queued : ¬ ((none : Option Nat).isSome = true ∨ s.startStep = 1 ∨ false = true) := by simp [h1]
    simp only [svcIssue, busy, State.svcCode_busyWith, hcode, s.startStep_busyWith, direct, full, if_neg queued, if_true]
    rfl
  rw [State.svcSend_of_idle h hsvc hop ht hl, issued]
  exact State.svcBegin_of_settled (s := { (s.busyWith l).queueWork 7 ⟨7, 0⟩ with
    svc := some ⟨op, t, l, false, some 0x01, 0, s.busyRetry, bad, starts⟩ }) rfl (.inr (by simp))

end

/-! What ends a command as it is issued (R58). -/

section
variable {s : State} {op t : Nat}

/-- The table of R58: the minimum STEP of an operation, and the TARGET values it takes. -/
theorem svcLimit_eq_svcRow (h1 : 1 ≤ op) (h10 : op ≤ 10) : (svcLimit op).1 = (svcRow op).2 ∧
    (t < 256 → ((svcLimit op).2 t = false ↔ (svcRow op).1 < t ∨ op = 10 ∧ domainOk t = false)) := by
  interval_cases op
  all_goals simp [svcLimit, svcRow, domainOk]
  omega

/-- Before firmware has started LOAD_FOR_FW alone may be issued (R58). -/
theorem two_le_svcLimit (h : op ≠ 1) : 2 ≤ (svcLimit op).1 := by
  simp only [svcLimit, if_neg h]
  repeat' split
  all_goals decide

theorem State.svcCode_early (h1 : 1 ≤ op) (h10 : op ≤ 10) (h : s.startStep < (svcLimit op).1 ∨ s.startStep = 15) :
    s.svcCode op t = some 0x02 := by
  have known : ¬ (op = 0 ∨ 0x0A < op) := by omega
  have early : s.startStep = 15 ∨ s.startStep < (svcRow op).2 := by
    rw [← (svcLimit_eq_svcRow (t := t) h1 h10).1]
    exact h.symm
  simp only [svcCode, if_neg known, if_pos early]
  split <;> rfl

/-- From its minimum STEP on an operation of R58 is refused for its TARGET alone. -/
theorem State.svcCode_reached (h1 : 1 ≤ op) (h10 : op ≤ 10) (ht : t < 256) (hstep : (svcLimit op).1 ≤ s.startStep) (h15 : s.startStep ≠ 15) :
    s.svcCode op t = if (svcLimit op).2 t = false then some 0x08 else none := by
  obtain ⟨row, target⟩ := svcLimit_eq_svcRow (t := t) h1 h10
  have first : ¬ (s.startStep < 2 ∧ op ≠ 1) := fun ⟨h2, hne⟩ => by
    have := two_le_svcLimit hne
    omega
  have known : ¬ (op = 0 ∨ 0x0A < op) := by omega
  have reached : ¬ (s.startStep = 15 ∨ s.startStep < (svcRow op).2) := by omega
  simp only [svcCode, if_neg first, if_neg known, if_neg reached, target ht]

theorem State.svcCode_unknown (h : op = 0 ∨ 0x0A < op) : s.svcCode op t = some (if s.startStep < 2 then 0x02 else 0x0D) := by
  have other : op ≠ 1 := by omega
  simp only [svcCode, if_pos h, other, ne_eq, not_false_eq_true, and_true]
  split <;> rfl

end

/-- The operations of R58 as commands: each sends its OP. -/
theorem exec_of_svcForm {i : Instr} {op : Nat} {t : BitVec 8} {l : BitVec 32} {bad : List Nat} {starts : Bool}
    (h : svcForm i = some (op, t, l, bad, starts)) (s : State) :
    exec i s = .next (s.svcSend op t.toNat l.toNat bad starts) ∧ 1 ≤ op ∧ op ≤ 10 := by
  unfold svcForm at h
  split at h <;> simp only [Option.some.injEq, Prod.mk.injEq, reduceCtorEq] at h
  all_goals
    obtain ⟨rfl, rfl, rfl, rfl, rfl⟩ := h
    exact ⟨rfl, by decide, by decide⟩

end Sys2Proof.Machine
end

section
/-! SUPPORT. The end of a command and its message (R57, R59, R480), the staging area (R54, R55), and the reset of the port (R57). -/

namespace Sys2Proof.Machine

/-! The end of a command. -/

/-- The registers of a command that has ended, but for the work queue: its result, and DONE (R57, R59). -/
def State.shown (s : State) (c : SvcCmd) (k : Nat) : State :=
  (((((s.setF SVP_RESP SVP_RESP_CODE k).setF SVP_RESP SVP_RESP_OP c.op).setF SVP_RESP SVP_RESP_RETRY c.retry).setF SVP_RESP SVP_RESP_DATA
    c.data).setF SVP_STAT SVP_STAT_BUSY 0).setF SVP_STAT SVP_STAT_DONE 1

theorem State.shown_resp (s : State) (c : SvcCmd) (k : Nat) :
    (s.shown c k).getF SVP_RESP SVP_RESP_CODE = k % 256 ∧
    (s.shown c k).getF SVP_RESP SVP_RESP_OP = c.op % 2 ^ SVP_RESP_OP.width ∧
    (s.shown c k).getF SVP_RESP SVP_RESP_RETRY = c.retry % 2 ^ SVP_RESP_RETRY.width ∧
    (s.shown c k).getF SVP_RESP SVP_RESP_DATA = c.data % 2 ^ SVP_RESP_DATA.width := by
  have stat (f : Fld) : (s.shown c k).getF SVP_RESP f = ((((s.setF SVP_RESP SVP_RESP_CODE k).setF SVP_RESP SVP_RESP_OP c.op).setF SVP_RESP
      SVP_RESP_RETRY c.retry).setF SVP_RESP SVP_RESP_DATA c.data).getF SVP_RESP f := by
    rw [shown, State.getF_setF_ne _ _ _ _ (by decide), State.getF_setF_ne _ _ _ _ (by decide)]
  refine ⟨?_, ?_, ?_, ?_⟩
  · rw [stat, State.getF_setF_apart _ _ _ _ _ (by decide), State.getF_setF_apart _ _ _ _ _ (by decide),
      State.getF_setF_apart _ _ _ _ _ (by decide), State.getF_setF_self _ _ _ _ (by decide)]
    rfl
  · rw [stat, State.getF_setF_apart _ _ _ _ _ (by decide), State.getF_setF_apart _ _ _ _ _ (by decide),
      State.getF_setF_self _ _ _ _ (by decide)]
  · rw [stat, State.getF_setF_apart _ _ _ _ _ (by decide), State.getF_setF_self _ _ _ _ (by decide)]
  · rw [stat, State.getF_setF_self _ _ _ _ (by decide)]

theorem State.shown_stat (s : State) (c : SvcCmd) (k : Nat) :
    (s.shown c k).getF SVP_STAT SVP_STAT_BUSY = 0 ∧ (s.shown c k).getF SVP_STAT SVP_STAT_DONE = 1 ∧ (s.shown c k).startStep = s.startStep := by
  refine ⟨?_, ?_, ?_⟩
  · rw [shown, State.getF_setF_apart _ _ _ _ _ (by decide), State.getF_setF_self _ _ _ _ (by decide), Nat.zero_mod]
  · exact State.getF_setF_self _ _ _ _ (by decide)
  · rw [startStep, shown, State.getF_setF_apart _ _ _ _ _ (by decide), State.getF_setF_apart _ _ _ _ _ (by decide),
      State.getF_setF_ne _ _ _ _ (by decide), State.getF_setF_ne _ _ _ _ (by decide), State.getF_setF_ne _ _ _ _ (by decide),
      State.getF_setF_ne _ _ _ _ (by decide), startStep]

/-- No command is in progress any more, and its work item is gone. -/
def State.unqueued (s : State) : State := { s.workDone 7 7 0 with svc := none }

theorem State.unqueued_offQueues (s : State) : s.unqueued.offQueues = { s.offQueues with svc := none } :=
  congrArg (fun u : State => { u with svc := none }) (s.workDone_offQueues 7 7 0)

theorem State.getF_unqueued (s : State) {q : Reg} (f : Fld) (h : q.key ≠ (FOR_QSTAT 6).key) : s.unqueued.getF q f = s.getF q f :=
  congrArg f.get (s.reg_workDone_ne 7 0 h)

theorem State.doneMsix_regs (s : State) : s.doneMsix.regs = s.regs ∧ s.doneMsix.svc = s.svc := by
  unfold State.doneMsix
  split <;> exact ⟨rfl, rfl⟩

/-- What the end of a command leaves: its result and DONE, with a message where DONE has risen (R57, R59). -/
theorem State.svcEnd_eq (s : State) (c : SvcCmd) (k : Nat) :
    s.svcEnd c k = if s.getF SVP_STAT SVP_STAT_DONE = 0 then (s.shown c k).unqueued.doneMsix else (s.shown c k).unqueued := by
  have was : ((((s.setF SVP_RESP SVP_RESP_CODE k).setF SVP_RESP SVP_RESP_OP c.op).setF SVP_RESP SVP_RESP_RETRY c.retry).setF SVP_RESP
      SVP_RESP_DATA c.data).getF SVP_STAT SVP_STAT_DONE = s.getF SVP_STAT SVP_STAT_DONE := by
    rw [State.getF_setF_ne _ _ _ _ (by decide), State.getF_setF_ne _ _ _ _ (by decide), State.getF_setF_ne _ _ _ _ (by decide),
      State.getF_setF_ne _ _ _ _ (by decide)]
  simp only [svcEnd, was]
  rfl

theorem State.svcEnd_fields (s : State) (c : SvcCmd) (k : Nat) : let u := s.svcEnd c k
    u.svc = none ∧ u.startStep = s.startStep ∧ (∀ f, u.getF SVP_RESP f = (s.shown c k).getF SVP_RESP f) ∧
      ∀ f, u.getF SVP_STAT f = (s.shown c k).getF SVP_STAT f := by
  have keeps : (s.svcEnd c k).regs = (s.shown c k).unqueued.regs ∧ (s.svcEnd c k).svc = none := by
    rw [State.svcEnd_eq]
    split
    · exact State.doneMsix_regs _
    · exact ⟨rfl, rfl⟩
  have field (q : Reg) (f : Fld) : (s.svcEnd c k).getF q f = (s.shown c k).unqueued.getF q f := by
    rw [getF, reg, keeps.1, getF, reg]
  have stat (f : Fld) : (s.svcEnd c k).getF SVP_STAT f = (s.shown c k).getF SVP_STAT f := by
    rw [field, State.getF_unqueued _ _ (by decide)]
  refine ⟨keeps.2, ?_, fun f => ?_, stat⟩
  · rw [startStep, stat, ← startStep, (s.shown_stat c k).2.2]
  · rw [field, State.getF_unqueued _ _ (by decide)]

/-- The message for DONE as it rises, and none where it was set (R57, R480). -/
theorem State.svcEnd_msix (s : State) (c : SvcCmd) (k : Nat) : let u := s.svcEnd c k
    (s.getF SVP_STAT SVP_STAT_DONE = 0 → s.msixBusy = false → u.msixSent = s.msixSent + 1 ∧ u.msixBusy = true) ∧
    (s.getF SVP_STAT SVP_STAT_DONE = 0 → s.msixBusy = true → u.msixSent = s.msixSent ∧ u.msixDue = true) ∧
    (s.getF SVP_STAT SVP_STAT_DONE ≠ 0 → u.msixSent = s.msixSent ∧ u.msixDue = s.msixDue) := by
  have off : (s.shown c k).unqueued.offQueues = { s.offQueues with svc := none } := by
    rw [State.unqueued_offQueues, shown]
    simp only [State.setF_offQueues]
  have busy : (s.shown c k).unqueued.msixBusy = s.msixBusy := (congrArg State.msixBusy off :)
  have due : (s.shown c k).unqueued.msixDue = s.msixDue := (congrArg State.msixDue off :)
  have sent : (s.shown c k).unqueued.msixSent = s.msixSent := (congrArg State.msixSent off :)
  rw [State.svcEnd_eq]
  refine ⟨fun h0 hb => ?_, fun h0 hb => ?_, fun h0 => ?_⟩
  · rw [if_pos h0, doneMsix, if_neg (by simp [busy, hb]), sent]
    exact ⟨rfl, rfl⟩
  · rw [if_pos h0, doneMsix, if_pos (busy.trans hb)]
    exact ⟨sent, rfl⟩
  · rw [if_neg h0]
    exact ⟨sent, due⟩

/-- SVP_COMMAND_DONE of a command whose result is known ends it with that result. -/
theorem exec_svpCommandDone_known {s : State} {c : SvcCmd} {k : Nat} (h : s.svc = some c) (hk : c.code = some k) :
    exec .svpCommandDone s = .next (s.svcEnd c k) := by
  have served : s.svcBegin = s := State.svcBegin_of_settled h (.inr (by simp [hk]))
  rw [exec_svpCommandDone, execSvpCommandDone]
  simp only [served, h, hk]

theorem exec_svpCommandDone_none {s : State} (h : s.svc = none) : exec .svpCommandDone s = .next s := by
  have served : s.svcBegin = s := by simp only [State.svcBegin, h]
  rw [exec_svpCommandDone, execSvpCommandDone]
  simp only [served, h]

/-! The staging area. -/

/-- A byte of a table after bytes were written. -/
theorem get_memPut (m : Tab Byte) (off : Nat) (b : List Byte) (k : Nat) :
    Tab.get memDefault (memPut m off b) k = if off ≤ k ∧ k < off + b.length then b.getD (k - off) 0 else Tab.get memDefault m k := by
  split
  · rename_i h
    obtain ⟨i, rfl⟩ := Nat.exists_eq_add_of_le h.1
    have hi : i < b.length := by omega
    rw [memPut_get b m off i hi, Nat.add_sub_cancel_left, List.getD_eq_getElem _ _ hi]
  · exact memPut_ne b m off k (by omega)

/-- A byte of the staging area after a write that reaches the retained area: what lies there is not stored (R54). -/
theorem get_staged (m : Tab Byte) (off : Nat) (b : List Byte) (k : Nat) :
    Tab.get memDefault (memPut m off (b.take (stageSize - off))) k =
      if off ≤ k ∧ k < off + b.length ∧ k < 2 ^ 27 then b.getD (k - off) 0 else Tab.get memDefault m k := by
  have stored : (off ≤ k ∧ k < off + (b.take (stageSize - off)).length) ↔ (off ≤ k ∧ k < off + b.length ∧ k < 2 ^ 27) := by
    simp only [List.length_take, stageSize]
    omega
  simp only [get_memPut, stored]
  split
  · next h =>
    simp only [List.getD_eq_getElem?_getD, stageSize]
    rw [List.getElem?_take_of_lt (by omega)]
  · rfl

/-- A counter that advances by one stops at all ones (R11). -/
theorem State.incF_counted (s : State) (r : Reg) (f : Fld) (h : f.lsb + f.width ≤ 64) : (s.incF r f).counted s r f := by
  have pos := Nat.two_pow_pos f.width
  rw [counted, incF, State.getF_setF_self _ _ _ _ h, Nat.mod_eq_of_lt (by omega)]

/-- LOCKDROP counts a write to BAR2 of which something is not stored (R55). -/
def State.lockDrop (s : State) (e : Nat) : State := if s.svc.isSome ∨ stageSize < e then s.incF SVP_STAT SVP_STAT_LOCKDROP else s

theorem exec_bar2Write_up {s : State} (h : s.svcUp = true) {off : Nat} {b : List Byte} (hb : b ≠ []) (he : off + b.length ≤ 2 ^ 28) :
    exec (.bar2Write off b) s = .next (if s.svc.isSome ∨ stageSize ≤ off then s.lockDrop (off + b.length)
      else { s.lockDrop (off + b.length) with bar2 := memPut s.bar2 off (b.take (stageSize - off)) }) := by
  have kept : (s.lockDrop (off + b.length)).bar2 = s.bar2 := by
    unfold State.lockDrop
    split <;> simp [State.incF, State.setF]
  rw [exec_bar2Write, execBar2Write, if_neg (by simp [h, hb]; omega), ← kept]
  rfl

theorem State.lockDrop_fields (s : State) (e : Nat) :
    (s.lockDrop e).svc = s.svc ∧ (s.lockDrop e).threads = s.threads ∧ (s.lockDrop e).bar2 = s.bar2 ∧
    (s.svc = none → e ≤ 2 ^ 27 → (s.lockDrop e).regs = s.regs) ∧
    (s.svc ≠ none ∨ 2 ^ 27 < e → (s.lockDrop e).counted s SVP_STAT SVP_STAT_LOCKDROP) := by
  by_cases h : s.svc.isSome ∨ stageSize < e
  · rw [lockDrop, if_pos h]
    refine ⟨by simp [incF, setF], by simp [incF, setF], by simp [incF, setF], fun hs he => ?_,
      fun _ => s.incF_counted _ _ (by decide)⟩
    simp [hs, stageSize] at h
    omega
  · rw [lockDrop, if_neg h]
    refine ⟨rfl, rfl, rfl, fun _ _ => rfl, fun hd => absurd ?_ h⟩
    exact hd.imp_left Option.isSome_iff_ne_none.mpr

/-- What a write to BAR2 leaves (R54, R55). -/
theorem exec_bar2Write_spec {s : State} (h : s.svcUp = true) {off : Nat} {b : List Byte} (hb : b ≠ []) (he : off + b.length ≤ 2 ^ 28) :
    ∃ u : State, exec (.bar2Write off b) s = .next u ∧
      (∀ k, Tab.get memDefault u.bar2 k =
        if s.svc = none ∧ off ≤ k ∧ k < off + b.length ∧ k < 2 ^ 27 then b.getD (k - off) 0 else Tab.get memDefault s.bar2 k) ∧
      (s.svc = none → off + b.length ≤ 2 ^ 27 → u.regs = s.regs) ∧
      (s.svc ≠ none ∨ 2 ^ 27 < off + b.length → u.counted s SVP_STAT SVP_STAT_LOCKDROP) ∧ u.svc = s.svc ∧ u.threads = s.threads := by
  obtain ⟨hsvc, hthr, hbar, hregs, hcount⟩ := s.lockDrop_fields (off + b.length)
  rw [exec_bar2Write_up h hb he]
  by_cases drop : s.svc.isSome ∨ stageSize ≤ off
  · refine ⟨_, congrArg Host.Outcome.next (if_pos drop), fun k => ?_, hregs, hcount, hsvc, hthr⟩
    rw [hbar, if_neg]
    rintro ⟨hn, hlo, -, hhi⟩
    simp [hn, stageSize] at drop
    omega
  · have idle : s.svc = none := by simpa using (not_or.mp drop).1
    refine ⟨_, congrArg Host.Outcome.next (if_neg drop), fun k => ?_, hregs, hcount, hsvc, hthr⟩
    exact (get_staged s.bar2 off b k).trans (by simp only [idle, true_and])

/-! The reset of the service-port domain. -/

/-- The registers of the port after its reset (R57). -/
def State.portCleared (s : State) : State :=
  ((((s.setReg SVP_RADDR 0).setReg SVP_RDATA 0).setReg SVP_CMD 0).setF SVP_STAT SVP_STAT_OVR 0).setF SVP_STAT SVP_STAT_LOCKDROP 0

theorem State.portCleared_fields (s : State) : s.portCleared.reg SVP_RADDR = 0 ∧ s.portCleared.reg SVP_RDATA = 0 ∧
    s.portCleared.reg SVP_CMD = 0 ∧ s.portCleared.getF SVP_STAT SVP_STAT_OVR = 0 ∧ s.portCleared.getF SVP_STAT SVP_STAT_LOCKDROP = 0 ∧
    s.portCleared.reg SVP_RESP = s.reg SVP_RESP ∧
    ∀ f : Fld, (f.lsb + f.width ≤ SVP_STAT_LOCKDROP.lsb ∨ SVP_STAT_LOCKDROP.lsb + SVP_STAT_LOCKDROP.width ≤ f.lsb) →
      (f.lsb + f.width ≤ SVP_STAT_OVR.lsb ∨ SVP_STAT_OVR.lsb + SVP_STAT_OVR.width ≤ f.lsb) →
      s.portCleared.getF SVP_STAT f = s.getF SVP_STAT f := by
  have other {q : Reg} (hq : q.key ≠ SVP_STAT.key) :
      s.portCleared.reg q = (((s.setReg SVP_RADDR 0).setReg SVP_RDATA 0).setReg SVP_CMD 0).reg q := by
    rw [portCleared, State.reg_setF_ne _ _ _ hq, State.reg_setF_ne _ _ _ hq]
  have stat (f : Fld) : (((s.setReg SVP_RADDR 0).setReg SVP_RDATA 0).setReg SVP_CMD 0).getF SVP_STAT f = s.getF SVP_STAT f := by
    rw [getF, State.reg_setReg_ne _ _ (by decide), State.reg_setReg_ne _ _ (by decide), State.reg_setReg_ne _ _ (by decide), getF]
  refine ⟨?_, ?_, ?_, ?_, ?_, ?_, fun f hdrop hovr => ?_⟩
  · rw [other (by decide), State.reg_setReg_ne _ _ (by decide), State.reg_setReg_ne _ _ (by decide), State.reg_setReg_self]
  · rw [other (by decide), State.reg_setReg_ne _ _ (by decide), State.reg_setReg_self]
  · rw [other (by decide), State.reg_setReg_self]
  · rw [portCleared, State.getF_setF_apart _ _ _ _ _ (by decide), State.getF_setF_self _ _ _ _ (by decide), Nat.zero_mod]
  · rw [portCleared, State.getF_setF_self _ _ _ _ (by decide), Nat.zero_mod]
  · rw [other (by decide), State.reg_setReg_ne _ _ (by decide), State.reg_setReg_ne _ _ (by decide), State.reg_setReg_ne _ _ (by decide)]
  · rw [portCleared, State.getF_setF_apart _ _ _ _ _ hdrop, State.getF_setF_apart _ _ _ _ _ hovr, stat]

/-- The port after the reset of its domain: the link is down, no message is due (R57). -/
def State.portReset (s : State) : State := { s.portCleared with svcUp := false, msixBusy := false, msixDue := false }

theorem exec_svcLinkReset_eq (s : State) : exec .svcLinkReset s = .next s.portReset := rfl
theorem State.reg_portReset (s : State) (q : Reg) : s.portReset.reg q = s.portCleared.reg q := rfl
theorem State.getF_portReset (s : State) (q : Reg) (f : Fld) : s.portReset.getF q f = s.portCleared.getF q f := rfl

theorem State.portReset_frame (s : State) :
    s.portReset.svcUp = false ∧ s.portReset.svc = s.svc ∧ s.portReset.bar2 = s.bar2 ∧ s.portReset.threads = s.threads := by
  simp [portReset, portCleared, setF]

end Sys2Proof.Machine
end

section
/-! PROOF. O54: the service port. -/

namespace Sys2Proof.Machine

/-- Settles O54, clause by clause: commands as they are issued, their end, the message, the staging area, and the reset of the link. -/
theorem servicePortResults : Obligations.ServicePortResults := by
  refine ⟨fun i op t l bad st s hi hup hsvc => ?_, fun op t l s hop hup hsvc => ?_, fun i op t l bad st c s hi => ?_, fun l s hup => ?_,
    fun c k s hsvc hk => ?_, fun s hsvc => exec_svpCommandDone_none hsvc, fun s => rfl, fun off b s hup hb he => exec_bar2Write_spec hup hb he,
    fun s => ?_⟩
  · -- A command that ends as it is issued (R58, R478)
    obtain ⟨sends, h1, h10⟩ := exec_of_svcForm hi s
    have hop : op < 256 := by omega
    rw [sends]
    refine ⟨fun early => ?_, fun reached h15 aim => ?_, fun reached h15 aim hs1 direct full => ?_⟩
    · rw [State.svcSend_coded hup hsvc hop t.isLt l.isLt (State.svcCode_early h1 h10 early)]
    · rw [State.svcSend_coded hup hsvc hop t.isLt l.isLt ((State.svcCode_reached h1 h10 t.isLt reached h15).trans (if_pos aim))]
    · have free : s.svcCode op t.toNat = none := (State.svcCode_reached h1 h10 t.isLt reached h15).trans (if_neg (by simp [aim]))
      rw [State.svcSend_full hup hsvc hop t.isLt l.isLt free hs1 direct full]
  · -- SVP_CMD_UNKNOWN_OP (R58)
    have unknown : op.toNat = 0 ∨ 0x0A < op.toNat := hop.imp_left fun h => by rw [h]; rfl
    rw [exec_svpCmdUnknownOp, execSvpCmdUnknownOp, if_pos hop,
      State.svcSend_coded hup hsvc op.isLt t.isLt l.isLt (State.svcCode_unknown unknown)]
  · -- A command while one is in progress, or with the link down (R56)
    obtain ⟨sends, -, -⟩ := exec_of_svcForm hi s
    rw [sends]
    exact ⟨fun hup hsvc hc => congrArg Host.Outcome.next (State.svcSend_of_busy hup hsvc hc),
      fun hdown hsvc => congrArg Host.Outcome.next (State.svcSend_of_down hdown hsvc)⟩
  · -- SVP_CMD_SET_LEN (R56)
    rw [exec_svpCmdSetLen, execSvpCmdSetLen, State.writeAs_SVP_CMD_low hup]
    cases hsvc : s.svc with
    | none => rw [State.svcWrite_low hsvc, svpCmdLen_get, if_pos rfl]
    | some c => rw [State.svcWrite_of_busy hsvc, if_neg (by simp)]
  · -- SVP_COMMAND_DONE (R57, R59)
    obtain ⟨ended, step, resp, stat⟩ := s.svcEnd_fields c k
    obtain ⟨code, op, retry, data⟩ := s.shown_resp c k
    obtain ⟨busy, done, -⟩ := s.shown_stat c k
    exact ⟨_, exec_svpCommandDone_known hsvc hk, ended, (resp _).trans code, (resp _).trans op, (resp _).trans retry, (resp _).trans data,
      (stat _).trans busy, (stat _).trans done, step, s.svcEnd_msix c k⟩
  · -- SVC_LINK_RESET (R57)
    obtain ⟨raddr, rdata, cmd, ovr, drop, resp, stat⟩ := s.portCleared_fields
    obtain ⟨down, svc, bar2, threads⟩ := s.portReset_frame
    simp only [← State.reg_portReset, ← State.getF_portReset] at raddr rdata cmd ovr drop resp stat
    refine ⟨_, exec_svcLinkReset_eq s, down, raddr, rdata, ?_, ovr, drop, fun f hf => ?_, resp, svc, bar2, threads⟩
    · rw [State.getF, cmd]
      decide
    · simp only [List.mem_cons, List.not_mem_nil, or_false] at hf
      rcases hf with rfl | rfl | rfl | rfl | rfl <;> exact stat _ (by decide) (by decide)

end Sys2Proof.Machine
end

section
/-! SUPPORT. What a record changes: the collector's queues, the host log, three registers of the Forester, and MIP.MCI of a partition (R461, R464, R476, R479). -/

namespace Sys2Proof.Machine

/-! Folds. -/

/-- What every step of a fold over the list's own elements keeps, the fold keeps. -/
theorem State.foldl_keeps_of_mem {α β : Type} (p : State → β) (f : State → α → State) (l : List α) (h : ∀ a ∈ l, ∀ s, p (f s a) = p s) :
    ∀ s : State, p (l.foldl f s) = p s := by
  induction l with
  | nil => exact fun _ => rfl
  | cons a l ih => exact fun s => (ih (fun b hb => h b (by simp [hb])) (f s a)).trans (h a (by simp) s)

/-! Registers. -/

/-- A register that a record may change. -/
def Reg.ofRecords (q : Reg) : Prop := q.key = (FOR_QSTAT 2).key ∨ q.key = (FOR_QSTAT 5).key ∨ q.key = FOR_LOGSTAT.key

theorem Reg.not_ofRecords {q : Reg} (h : q.inWindow = true) (hb : q.block ≠ 0x13) : ¬ q.ofRecords := by
  rintro (e | e | e)
  · exact Reg.key_ne h (by decide) (fun e => hb (congrArg Reg.block e)) e
  · exact Reg.key_ne h (by decide) (fun e => hb (congrArg Reg.block e)) e
  · exact Reg.key_ne h (by decide) (fun e => hb (congrArg Reg.block e)) e

theorem State.reg_setLogSlot (s : State) (i : Nat) (r : Option Rec) (q : Reg) : (s.setLogSlot i r).reg q = s.reg q := by
  rw [reg, State.setLogSlot_regs, reg]

theorem State.reg_setMci (s : State) (p : Nat) (w : Word) (q : Reg) : (s.setMci p w).reg q = s.reg q :=
  State.foldl_keeps (fun s : State => s.reg q) _ (fun s t => by rw [modThr, State.reg_setThr]) _ s

section
variable (s : State) {q : Reg} (h : ¬ q.ofRecords)
include h

theorem State.reg_setQueue3 (l : List QEnt) : (s.setQueue 3 l).reg q = s.reg q := s.reg_setQueue_ne l fun e => h (.inl e)
theorem State.reg_setQueue6 (l : List QEnt) : (s.setQueue 6 l).reg q = s.reg q := s.reg_setQueue_ne l fun e => h (.inr (.inl e))
theorem State.reg_incF_logstat (f : Fld) (n : Nat) : (s.incF FOR_LOGSTAT f n).reg q = s.reg q := s.reg_setF_ne _ _ fun e => h (.inr (.inr e))
theorem State.reg_enterLog (r : Rec) : (s.enterLog r).reg q = s.reg q := by
  have counted (u : State) (n : Nat) : ({ u with flogCnt := n } : State).reg q = u.reg q := rfl
  have waits (u : State) (l : List Rec) : ({ u with flogWait := l } : State).reg q = u.reg q := rfl
  unfold State.enterLog
  repeat' split
  all_goals simp only [State.reg_incF_logstat _ h, State.reg_setLogSlot, counted, waits]

theorem State.reg_mergeRec (r : Rec) : (s.mergeRec r).reg q = s.reg q := by
  unfold State.mergeRec
  dsimp only
  repeat' split
  all_goals simp only [State.reg_incF_logstat _ h, State.reg_setLogSlot, State.reg_setQueue6 _ h]

theorem State.reg_handOn (r : Rec) : (s.handOn r).reg q = s.reg q := by
  have held (u : State) (l : List Rec) : ({ u with collHeld := l } : State).reg q = u.reg q := rfl
  unfold State.handOn
  repeat' split
  · rw [State.reg_enterLog _ h, State.reg_setQueue6 _ h]
  · exact (State.reg_setF_ne _ _ _ fun e => h (.inr (.inl e))).trans (s.reg_mergeRec h r)
  · rw [State.reg_enterLog _ h, State.reg_setQueue3 _ h]
  · exact (held _ _).trans (State.reg_setF_ne _ _ _ fun e => h (.inl e))

theorem State.reg_log (i : RecIn) : (s.log i).reg q = s.reg q := by
  have numbered (n : Nat) : ({ s with rseq := n } : State).reg q = s.reg q := rfl
  unfold State.log
  repeat' split
  all_goals simp only [State.reg_setMci, State.reg_handOn _ h, numbered]

theorem State.reg_logC (b i t : Nat) (d : List Byte) : (s.logC b i t d).reg q = s.reg q := s.reg_log h _
theorem State.getF_logC (b i t : Nat) (d : List Byte) (f : Fld) : (s.logC b i t d).getF q f = s.getF q f := congrArg f.get (s.reg_logC h b i t d)

end

/-! The rest of the state. -/

/-- The state without what a record that names no partition may change. -/
def State.offRecords (s : State) : State :=
  { s with regs := [], fst := ForesterSt.reset, rseq := 0, collHeld := [], fq := [], flog := [], flogCnt := 0, flogWait := [] }

@[simp] theorem State.offRecords_with (s : State) (regs : Tab Word) (fst : ForesterSt) (rseq : Nat) (collHeld : List Rec) (fq : Tab (List QEnt))
    (flog : Tab (Option Rec)) (flogCnt : Nat) (flogWait : List Rec) :
    ({ s with
      regs := regs, fst := fst, rseq := rseq, collHeld := collHeld, fq := fq, flog := flog, flogCnt := flogCnt
      flogWait := flogWait } : State).offRecords = s.offRecords := rfl

theorem State.threads_of_offRecords {s u : State} (h : u.offRecords = s.offRecords) : u.threads = s.threads := (congrArg State.threads h :)
theorem State.mem_of_offRecords {s u : State} (h : u.offRecords = s.offRecords) : u.mem = s.mem := (congrArg State.mem h :)
theorem State.rootHash_of_offRecords {s u : State} (h : u.offRecords = s.offRecords) : u.rootHash = s.rootHash := (congrArg State.rootHash h :)
theorem State.gports_of_offRecords {s u : State} (h : u.offRecords = s.offRecords) : u.gports = s.gports := (congrArg State.gports h :)

@[simp] theorem State.setReg_offRecords (s : State) (r : Reg) (v : Word) : (s.setReg r v).offRecords = s.offRecords := by
  rw [State.setReg, State.offRecords_with]
@[simp] theorem State.setF_offRecords (s : State) (r : Reg) (f : Fld) (v : Nat) : (s.setF r f v).offRecords = s.offRecords := by
  rw [State.setF, State.setReg_offRecords]
@[simp] theorem State.incF_offRecords (s : State) (r : Reg) (f : Fld) (n : Nat) : (s.incF r f n).offRecords = s.offRecords := by
  rw [State.incF, State.setF_offRecords]
@[simp] theorem State.setLogSlot_offRecords (s : State) (i : Nat) (r : Option Rec) : (s.setLogSlot i r).offRecords = s.offRecords := by
  rw [State.setLogSlot, State.offRecords_with]
@[simp] theorem State.setQueue_offRecords (s : State) (c : Nat) (q : List QEnt) : (s.setQueue c q).offRecords = s.offRecords :=
  (congrArg State.offRecords (s.setQueue_offQueues c q) :)

@[simp] theorem State.enterLog_offRecords (s : State) (r : Rec) : (s.enterLog r).offRecords = s.offRecords := by
  unfold State.enterLog
  repeat' split
  all_goals simp

@[simp] theorem State.mergeRec_offRecords (s : State) (r : Rec) : (s.mergeRec r).offRecords = s.offRecords := by
  unfold State.mergeRec
  dsimp only
  repeat' split
  all_goals simp

@[simp] theorem State.handOn_offRecords (s : State) (r : Rec) : (s.handOn r).offRecords = s.offRecords := by
  unfold State.handOn
  repeat' split
  all_goals simp

/-- A record that names no partition reaches no thread. -/
theorem State.log_offRecords (s : State) {i : RecIn} (h : i.part = none) : (s.log i).offRecords = s.offRecords := by
  simp [State.log, h]

@[simp] theorem State.logC_offRecords (s : State) (b i t : Nat) (d : List Byte) : (s.logC b i t d).offRecords = s.offRecords :=
  s.log_offRecords rfl

end Sys2Proof.Machine
end

section
/-! SUPPORT. PWROK (R495, R502), the self-test (R53, R65, R472) and the step of the start (R63). -/

namespace Sys2Proof.Machine

/-! PWROK_ASSERT. -/

theorem State.pwrok_of_offRegs {s u : State} (h : u.offRegs = s.offRegs) : u.pwrok = s.pwrok := (congrArg State.pwrok h :)
theorem State.uptime_of_offRegs {s u : State} (h : u.offRegs = s.offRegs) : u.uptime = s.uptime := (congrArg State.uptime h :)

/-- The state in which PWROK has risen, with the module's number sampled (R495, R502). -/
def State.powered (s : State) (m : Nat) : State := { s with pwrok := true, uptime := 0 }.setF GRV_GROUP GRV_GROUP_SELF m

/-- Every reference input runs (R500). -/
def State.refsRun (s : State) : State := (List.range 6).foldl (fun s i => s.setF CLK_REF (refField i) 1) s

/-- One rail at its target (R493). -/
def State.railOn (s : State) (i : Nat) : State :=
  (s.setF (PWR_RAIL i) PWR_RAIL_VSET (railNominal i)).setF (PWR_RAIL i) PWR_RAIL_AVS (b2n (decide (i < 4)))

/-- Every rail at its target. -/
def State.railsOn (s : State) : State := (List.range 10).foldl State.railOn s

theorem exec_pwrokAssert_low {s : State} (h : s.pwrok = false) (m : Module) :
    exec (.pwrokAssert m) s = .next (s.powered m.val).refsRun.railsOn := by
  rw [exec_pwrokAssert, execPwrokAssert, if_neg (by simp [h])]
  rfl

/-- The reference fields are one-bit fields that share no bit. -/
theorem refField_apart (i j : Nat) : (refField i).lsb + (refField i).width ≤ 64 ∧ (refField i).width = 1 ∧
    (refField i = refField j ∨ (refField i).lsb + (refField i).width ≤ (refField j).lsb ∨ (refField j).lsb + (refField j).width ≤ (refField i).lsb) := by
  let inputs : List Fld := [CLK_REF_SYSOK, CLK_REF_LREF0OK, CLK_REF_LREF1OK, CLK_REF_GREFOK, CLK_REF_FOSCOK, CLK_REF_FALTOK]
  have known (i : Nat) : refField i ∈ inputs := by
    unfold refField
    match i with
    | 0 | 1 | 2 | 3 | 4 | 5 => decide
    | n + 6 => exact List.mem_cons_self
  have table : ∀ f ∈ inputs, ∀ g ∈ inputs, f.lsb + f.width ≤ 64 ∧ f.width = 1 ∧ (f = g ∨ f.lsb + f.width ≤ g.lsb ∨ g.lsb + g.width ≤ f.lsb) := by
    decide
  exact table _ (known i) _ (known j)

theorem State.refsRun_fields (s : State) : (∀ i < 6, s.refsRun.getF CLK_REF (refField i) = 1) ∧
    (∀ q : Reg, q.key ≠ CLK_REF.key → s.refsRun.reg q = s.reg q) ∧ s.refsRun.offRegs = s.offRegs := by
  have own (s : State) (i : Nat) : (s.setF CLK_REF (refField i) 1).getF CLK_REF (refField i) = 1 := by
    obtain ⟨h64, h1, -⟩ := refField_apart i i
    rw [State.getF_setF_self _ _ _ _ h64, h1]
    rfl
  refine ⟨fun i hi => ?_, fun q hq => ?_, ?_⟩
  · refine State.foldl_each (fun s i => s.getF CLK_REF (refField i) = 1) _ own (fun s a b hb => ?_) _ s i (.inl (List.mem_range.mpr hi))
    obtain ⟨-, -, same | apart⟩ := refField_apart b a
    · rw [← same]
      exact own s b
    · exact (State.getF_setF_apart _ _ _ _ _ apart).trans hb
  · exact State.foldl_keeps (fun s : State => s.reg q) _ (fun s _ => s.reg_setF_ne _ _ hq) _ s
  · exact State.foldl_keeps State.offRegs _ (fun s _ => s.setF_offRegs ..) _ s

theorem pwrRail_key_ne {a b : Nat} (h : a ≠ b) : (PWR_RAIL a).key ≠ (PWR_RAIL b).key := by
  simp only [Reg.key, PWR_RAIL]
  omega

theorem State.railsOn_fields (s : State) : (∀ i < 10, s.railsOn.getF (PWR_RAIL i) PWR_RAIL_VSET = railNominal i) ∧
    (∀ q : Reg, (∀ i < 10, q.key ≠ (PWR_RAIL i).key) → s.railsOn.reg q = s.reg q) ∧ s.railsOn.offRegs = s.offRegs := by
  have small (i : Nat) : railNominal i < 2 ^ PWR_RAIL_VSET.width := by
    unfold railNominal
    match i with
    | 0 | 1 | 2 | 3 | 4 | 5 | 6 | 7 | 8 | 9 => decide
    | n + 10 => exact Nat.two_pow_pos _
  have own (s : State) (i : Nat) : (s.railOn i).getF (PWR_RAIL i) PWR_RAIL_VSET = railNominal i := by
    rw [railOn, State.getF_setF_apart _ _ _ _ _ (by decide), State.getF_setF_self _ _ _ _ (by decide), Nat.mod_eq_of_lt (small i)]
  have other (s : State) (i : Nat) {q : Reg} (h : q.key ≠ (PWR_RAIL i).key) : (s.railOn i).reg q = s.reg q := by
    rw [railOn, State.reg_setF_ne _ _ _ h, State.reg_setF_ne _ _ _ h]
  refine ⟨fun i hi => ?_, fun q hq => ?_, ?_⟩
  · refine State.foldl_each (fun s i => s.getF (PWR_RAIL i) PWR_RAIL_VSET = railNominal i) _ own (fun s a b hb => ?_) _ s i
      (.inl (List.mem_range.mpr hi))
    by_cases h : b = a
    · rw [h]
      exact own s a
    · rw [getF, other s a (pwrRail_key_ne h), ← getF, hb]
  · exact State.foldl_keeps_of_mem (fun s : State => s.reg q) _ _ (fun i hi s => other s i (hq i (List.mem_range.mp hi))) s
  · exact State.foldl_keeps State.offRegs _ (fun s i => by rw [railOn, setF_offRegs, setF_offRegs]) _ s

/-- What the rise of PWROK leaves (R493, R495, R502). -/
theorem exec_pwrokAssert_spec {s : State} (h : s.pwrok = false) (m : Module) : ∃ u : State, exec (.pwrokAssert m) s = .next u ∧
    u.pwrok = true ∧ u.uptime = 0 ∧ u.getF GRV_GROUP GRV_GROUP_SELF = m.val ∧ (∀ i < 6, u.getF CLK_REF (refField i) = 1) ∧
    (∀ i < 10, u.getF (PWR_RAIL i) PWR_RAIL_VSET = railNominal i) ∧ u.threads = s.threads ∧ u.mem = s.mem ∧ u.standRst = s.standRst := by
  obtain ⟨runs, refOther, refOff⟩ := (s.powered m.val).refsRun_fields
  obtain ⟨rails, railOther, railOff⟩ := (s.powered m.val).refsRun.railsOn_fields
  have off : (s.powered m.val).refsRun.railsOn.offRegs = (s.powered m.val).offRegs := railOff.trans refOff
  have pwrok : (s.powered m.val).pwrok = true := by rw [State.powered, State.setF, State.setReg_pwrok]
  have uptime : (s.powered m.val).uptime = 0 := by rw [State.powered, State.setF, State.setReg_uptime]
  have kept : (s.powered m.val).threads = s.threads ∧ (s.powered m.val).mem = s.mem ∧ (s.powered m.val).standRst = s.standRst := by
    simp [State.powered, State.setF]
  obtain ⟨threads, mem, standRst⟩ := kept
  refine ⟨_, exec_pwrokAssert_low h m, ?_, ?_, ?_, fun i hi => ?_, rails, (State.threads_of_offRegs off).trans threads,
    (State.mem_of_offRegs off).trans mem, (State.standRst_of_offRegs off).trans standRst⟩
  · exact (State.pwrok_of_offRegs off).trans pwrok
  · exact (State.uptime_of_offRegs off).trans uptime
  · rw [State.getF, railOther _ (by decide), refOther _ (by decide), ← State.getF, State.powered, State.getF_setF_self _ _ _ _ (by decide)]
    exact Nat.mod_eq_of_lt m.isLt
  · rw [State.getF, railOther _ (by decide), ← State.getF, runs i hi]

/-! The step of the start. -/

theorem State.startFails_fields (s : State) (k : Nat) : (s.startFails k).startStep = 15 ∧ (s.startFails k).getF SVP_STAT SVP_STAT_FAIL = k % 256 ∧
    (s.startFails k).offRegs = s.offRegs ∧ ∀ q : Reg, q.key ≠ SVP_STAT.key → (s.startFails k).reg q = s.reg q := by
  refine ⟨State.getF_setF_self _ _ _ _ (by decide), ?_, ?_, fun q hq => ?_⟩
  · rw [startFails, State.getF_setF_apart _ _ _ _ _ (by decide), State.getF_setF_self _ _ _ _ (by decide)]
    rfl
  · rw [startFails, setF_offRegs, setF_offRegs]
  · rw [startFails, State.reg_setF_ne _ _ _ hq, State.reg_setF_ne _ _ _ hq]

/-! ROM_SELF_TEST_DONE. -/

/-- The fuses as the self-test reads them (R53). -/
def State.fused (s : State) (ok : Bool) (z : Fuses) : State :=
  if ok then { s.setReg SVP_IDENT z.ident with rootHash := z.rootHash } else s

theorem State.fused_fields (s : State) (ok : Bool) (z : Fuses) :
    (ok = true → (s.fused ok z).reg SVP_IDENT = z.ident ∧ (s.fused ok z).rootHash = z.rootHash) ∧
    (ok = false → (s.fused ok z).reg SVP_IDENT = s.reg SVP_IDENT ∧ (s.fused ok z).rootHash = s.rootHash) ∧
    (∀ q : Reg, q.key ≠ SVP_IDENT.key → (s.fused ok z).reg q = s.reg q) ∧ (s.fused ok z).threads = s.threads ∧ (s.fused ok z).mem = s.mem := by
  cases ok with
  | false => exact ⟨nofun, fun _ => ⟨rfl, rfl⟩, fun _ _ => rfl, rfl, rfl⟩
  | true =>
    have kept : (s.fused true z).threads = s.threads ∧ (s.fused true z).mem = s.mem := by simp [fused]
    exact ⟨fun _ => ⟨s.reg_setReg_self _ _, rfl⟩, nofun, fun q hq => s.reg_setReg_ne _ hq, kept⟩

/-- One unit of the Forester has passed: the other is failed (R472). -/
def State.oneUnit (s : State) (a : Bool) : State :=
  ((s.setF FOR_CLAIM FOR_CLAIM_STBY 1).setF FOR_CLAIM FOR_CLAIM_ACTIVE (b2n (!a))).logC 0x13 0 0x0E

theorem State.oneUnit_fields (s : State) (a : Bool) : (s.oneUnit a).getF FOR_CLAIM FOR_CLAIM_STBY = 1 ∧
    (s.oneUnit a).getF FOR_CLAIM FOR_CLAIM_ACTIVE = (if a then 0 else 1) ∧ (s.oneUnit a).offRecords = s.offRecords ∧
    (∀ f, (s.oneUnit a).getF SVP_STAT f = s.getF SVP_STAT f) ∧ (s.oneUnit a).reg SVP_IDENT = s.reg SVP_IDENT := by
  have claim : ¬ FOR_CLAIM.ofRecords := by unfold Reg.ofRecords; decide
  have stat : ¬ SVP_STAT.ofRecords := by unfold Reg.ofRecords; decide
  have ident : ¬ SVP_IDENT.ofRecords := by unfold Reg.ofRecords; decide
  refine ⟨?_, ?_, ?_, fun f => ?_, ?_⟩
  · rw [oneUnit, State.getF_logC _ claim, State.getF_setF_apart _ _ _ _ _ (by decide), State.getF_setF_self _ _ _ _ (by decide)]
    rfl
  · rw [oneUnit, State.getF_logC _ claim, State.getF_setF_self _ _ _ _ (by decide)]
    cases a <;> rfl
  · rw [oneUnit, State.logC_offRecords, State.setF_offRecords, State.setF_offRecords]
  · rw [oneUnit, State.getF_logC _ stat, State.getF_setF_ne _ _ _ _ (by decide), State.getF_setF_ne _ _ _ _ (by decide)]
  · rw [oneUnit, State.reg_logC _ ident, State.reg_setF_ne _ _ _ (by decide), State.reg_setF_ne _ _ _ (by decide)]

/-- What the self-test's end leaves at STEP 0 (R63 step 2, R65, R472). -/
def State.selfTested (s : State) (a b f p : Bool) : State :=
  if a = false ∧ b = false then s.startFails 1
  else if f = false then s.startFails 2
  else if p = false then s.startFails 3
  else (if a && b then s else s.oneUnit a).setF SVP_STAT SVP_STAT_STEP 1

theorem exec_romSelfTestDone_off {s : State} (h : s.pwrok = false ∨ s.startStep ≠ 0) (a b f p : Bool) (z : Fuses) :
    exec (.romSelfTestDone a b f p z) s = .next s := by
  rw [exec_romSelfTestDone, execRomSelfTestDone, if_pos h]

theorem exec_romSelfTestDone_first {s : State} (hp : s.pwrok = true) (h0 : s.startStep = 0) (a b f p : Bool) (z : Fuses) :
    exec (.romSelfTestDone a b f p z) s = .next ((s.fused f z).selfTested a b f p) := by
  rw [exec_romSelfTestDone, execRomSelfTestDone, if_neg (by simp [hp, h0])]
  rfl

/-- The self-test's end changes no register but SVP_STAT, FOR_CLAIM and those of a record, and nothing else but the records. -/
theorem State.selfTested_frame (s : State) (a b f p : Bool) :
    (s.selfTested a b f p).reg SVP_IDENT = s.reg SVP_IDENT ∧ (s.selfTested a b f p).offRecords = s.offRecords := by
  have fails (k : Nat) : (s.startFails k).reg SVP_IDENT = s.reg SVP_IDENT ∧ (s.startFails k).offRecords = s.offRecords := by
    obtain ⟨-, -, -, other⟩ := s.startFails_fields k
    exact ⟨other _ (by decide), by simp [startFails]⟩
  obtain ⟨-, -, off, -, ident⟩ := s.oneUnit_fields a
  unfold State.selfTested
  split
  · exact fails 1
  · split
    · exact fails 2
    · split
      · exact fails 3
      · rw [State.reg_setF_ne _ _ _ (by decide), State.setF_offRecords]
        split
        · exact ⟨rfl, rfl⟩
        · exact ⟨ident, off⟩

theorem State.selfTested_stat (s : State) (a b f p : Bool) : let u := s.selfTested a b f p
    if a = false ∧ b = false then u.startStep = 15 ∧ u.getF SVP_STAT SVP_STAT_FAIL = 1
    else if f = false then u.startStep = 15 ∧ u.getF SVP_STAT SVP_STAT_FAIL = 2
    else if p = false then u.startStep = 15 ∧ u.getF SVP_STAT SVP_STAT_FAIL = 3
    else u.startStep = 1 ∧ u.getF SVP_STAT SVP_STAT_FAIL = s.getF SVP_STAT SVP_STAT_FAIL ∧
      (a ≠ b → u.getF FOR_CLAIM FOR_CLAIM_STBY = 1 ∧ u.getF FOR_CLAIM FOR_CLAIM_ACTIVE = (if a then 0 else 1)) := by
  have fails (k : Nat) : (s.startFails k).startStep = 15 ∧ (s.startFails k).getF SVP_STAT SVP_STAT_FAIL = k % 256 :=
    ⟨(s.startFails_fields k).1, (s.startFails_fields k).2.1⟩
  unfold State.selfTested
  split
  · exact fails 1
  · split
    · exact fails 2
    · split
      · exact fails 3
      · refine ⟨State.getF_setF_self _ _ _ _ (by decide), ?_, fun hab => ?_⟩
        · rw [State.getF_setF_apart _ _ _ _ _ (by decide)]
          split
          · rfl
          · exact (s.oneUnit_fields a).2.2.2.1 _
        · obtain ⟨stby, active, -⟩ := s.oneUnit_fields a
          have one : ¬ (a && b) = true := by cases a <;> cases b <;> simp at hab ⊢
          rw [if_neg one, State.getF_setF_ne _ _ _ _ (by decide), State.getF_setF_ne _ _ _ _ (by decide)]
          exact ⟨stby, active⟩

end Sys2Proof.Machine
end

section
/-! SUPPORT. CLOCKS_SEED_READY: the Stands' frequencies, and the training of links and ports (R63 step 6, R255, R265, R498). -/

namespace Sys2Proof.Machine

/-! The frequency control. -/

/-- The state without its registers and the power controller. -/
def State.offPower (s : State) : State := { s with regs := [], pwr := PwrSt.reset }

@[simp] theorem State.offPower_with (s : State) (regs : Tab Word) (pwr : PwrSt) :
    ({ s with regs := regs, pwr := pwr } : State).offPower = s.offPower := rfl

theorem State.active_of_offPower {s u : State} (h : u.offPower = s.offPower) : u.active = s.active := (congrArg State.active h :)
theorem State.threads_of_offPower {s u : State} (h : u.offPower = s.offPower) : u.threads = s.threads := (congrArg State.threads h :)
theorem State.mem_of_offPower {s u : State} (h : u.offPower = s.offPower) : u.mem = s.mem := (congrArg State.mem h :)
theorem State.standRst_of_offPower {s u : State} (h : u.offPower = s.offPower) : u.standRst = s.standRst := (congrArg State.standRst h :)

@[simp] theorem State.setReg_offPower (s : State) (r : Reg) (v : Word) : (s.setReg r v).offPower = s.offPower := by
  rw [State.setReg, State.offPower_with]
@[simp] theorem State.setF_offPower (s : State) (r : Reg) (f : Fld) (v : Nat) : (s.setF r f v).offPower = s.offPower := by
  rw [State.setF, State.setReg_offPower]
@[simp] theorem State.setRaise_offPower (s : State) (st : Nat) (v : Option Nat) : (s.setRaise st v).offPower = s.offPower := by
  rw [State.setRaise, State.offPower_with]
@[simp] theorem State.setEff_offPower (s : State) (st f : Nat) : (s.setEff st f).offPower = s.offPower := by
  simp [setEff]

@[simp] theorem State.steer_offPower (s : State) (st : Nat) : (s.steer st).offPower = s.offPower := by
  unfold State.steer State.showLimit
  dsimp only
  repeat' split
  all_goals simp

theorem State.steerAll_offPower (s : State) : s.steerAll.offPower = s.offPower := by
  unfold State.steerAll
  split
  · exact State.foldl_keeps State.offPower _ State.steer_offPower _ s
  · rfl

theorem State.lockStands_offPower (s : State) : s.lockStands.offPower = s.offPower :=
  (State.steerAll_offPower _).trans (State.foldl_keeps State.offPower _ (fun s st => s.setEff_offPower st _) _ s)

theorem State.parkVolts_offPower (s : State) : ((List.range 4).foldl State.parkVolt s).offPower = s.offPower := by
  refine State.foldl_keeps State.offPower _ (fun s st => ?_) _ s
  unfold State.parkVolt
  repeat' split
  all_goals simp

/-- A register other than the Stands' clocks and rails. -/
def Reg.offStands (q : Reg) : Prop := ∀ st < 4, q.key ≠ (CLK_STAND st).key ∧ q.key ≠ (PWR_RAIL st).key

section
variable {q : Reg} (h : q.offStands)
include h

theorem State.reg_setEff (s : State) {st : Nat} (hst : st < 4) (f : Nat) : (s.setEff st f).reg q = s.reg q := by
  have raised (u : State) (v : Option Nat) : (u.setRaise st v).reg q = u.reg q := rfl
  obtain ⟨clk, rail⟩ := h st hst
  rw [setEff, raised, State.reg_setF_ne _ _ _ rail, State.reg_setF_ne _ _ _ clk]

theorem State.reg_steer (s : State) {st : Nat} (hst : st < 4) : (s.steer st).reg q = s.reg q := by
  have raised (u : State) (v : Option Nat) : (u.setRaise st v).reg q = u.reg q := rfl
  obtain ⟨clk, rail⟩ := h st hst
  unfold State.steer State.showLimit
  dsimp only
  repeat' split
  all_goals simp only [State.reg_setF_ne _ _ _ clk, State.reg_setF_ne _ _ _ rail, raised, State.reg_setEff h _ hst]

theorem State.reg_steerAll (s : State) : s.steerAll.reg q = s.reg q := by
  unfold State.steerAll
  split
  · exact State.foldl_keeps_of_mem (fun s : State => s.reg q) _ _ (fun st hst s => State.reg_steer h s (List.mem_range.mp hst)) s
  · rfl

theorem State.reg_lockStands (s : State) : s.lockStands.reg q = s.reg q :=
  (State.reg_steerAll h _).trans
    (State.foldl_keeps_of_mem (fun s : State => s.reg q) _ _ (fun _ hst s => State.reg_setEff h s (List.mem_range.mp hst) _) s)

end

/-! Links and ports that train. -/

theorem rtlStat_key_ne {a b : Nat} (h : a ≠ b) : (RTL_STAT a).key ≠ (RTL_STAT b).key := by
  simp only [Reg.key, RTL_STAT]
  omega

theorem grvStat_key_ne {a b : Nat} (h : a ≠ b) : (GRV_STAT a).key ≠ (GRV_STAT b).key := by
  simp only [Reg.key, GRV_STAT]
  omega

/-- The state without its registers and Root links. -/
def State.offLinks (s : State) : State := { s with regs := [], roots := [] }

theorem State.offLinks_with (s : State) (regs : Tab Word) (roots : Tab RootLink) :
    ({ s with regs := regs, roots := roots } : State).offLinks = s.offLinks := rfl

theorem State.active_of_offLinks {s u : State} (h : u.offLinks = s.offLinks) : u.active = s.active := (congrArg State.active h :)
theorem State.threads_of_offLinks {s u : State} (h : u.offLinks = s.offLinks) : u.threads = s.threads := (congrArg State.threads h :)
theorem State.mem_of_offLinks {s u : State} (h : u.offLinks = s.offLinks) : u.mem = s.mem := (congrArg State.mem h :)
theorem State.standRst_of_offLinks {s u : State} (h : u.offLinks = s.offLinks) : u.standRst = s.standRst := (congrArg State.standRst h :)

theorem State.setF_offLinks (s : State) (r : Reg) (f : Fld) (v : Nat) : (s.setF r f v).offLinks = s.offLinks := by
  rw [State.setF, State.setReg, State.offLinks_with]
theorem State.modRoot_offLinks (s : State) (n : Nat) (f : RootLink → RootLink) : (s.modRoot n f).offLinks = s.offLinks := by
  rw [State.modRoot, State.setRoot, State.offLinks_with]

theorem State.trainLink_offLinks (s : State) (n back : Nat) : (s.trainLink n back).offLinks = s.offLinks := by
  rw [trainLink, modRoot_offLinks, setF_offLinks, setRtl, setF_offLinks]

theorem State.reg_trainLink_ne (s : State) {n : Nat} (back : Nat) {q : Reg} (h : q.key ≠ (RTL_STAT n).key) :
    (s.trainLink n back).reg q = s.reg q := by
  rw [trainLink, State.reg_modRoot, State.reg_setF_ne _ _ _ h, setRtl, State.reg_setF_ne _ _ _ h]

theorem State.rtlState_trainLink (s : State) (n back : Nat) : (s.trainLink n back).rtlState n = 1 := by
  rw [trainLink, rtlState, getF, State.reg_modRoot, ← getF, State.getF_setF_apart _ _ _ _ _ (by decide), setRtl,
    State.getF_setF_self _ _ _ _ (by decide)]
  rfl

/-- The links of a list train. -/
def State.trainLinks (s : State) (ns : List Nat) : State := ns.foldl (fun s n => s.trainLink n 0) s

theorem State.trainLinks_fields (s : State) (ns : List Nat) : (s.trainLinks ns).offLinks = s.offLinks ∧
    (∀ n ∈ ns, (s.trainLinks ns).rtlState n = 1) ∧ ∀ q : Reg, (∀ n ∈ ns, q.key ≠ (RTL_STAT n).key) → (s.trainLinks ns).reg q = s.reg q := by
  refine ⟨State.foldl_keeps State.offLinks _ (fun s n => s.trainLink_offLinks n 0) ns s, fun n hn => ?_, fun q hq => ?_⟩
  · refine State.foldl_each (fun s n => s.rtlState n = 1) _ (fun s n => s.rtlState_trainLink n 0) (fun s a b hb => ?_) ns s n (.inl hn)
    by_cases h : b = a
    · rw [h]
      exact s.rtlState_trainLink a 0
    · rw [rtlState, getF, s.reg_trainLink_ne 0 (rtlStat_key_ne h), ← getF, ← rtlState, hb]
  · exact State.foldl_keeps_of_mem (fun s : State => s.reg q) _ ns (fun n hn s => s.reg_trainLink_ne 0 (hq n hn)) s

/-- Every enabled port trains, every other one is disabled (R63, R257). -/
def State.trainPorts (s : State) : State := (List.range 7).foldl (fun s p => s.setF (GRV_STAT p) GRV_STAT_STATE (if s.gpEn p then 1 else 5)) s

theorem State.trainPorts_fields (s : State) : s.trainPorts.offLinks = s.offLinks ∧
    (∀ p < 7, s.trainPorts.gpState p = if s.gpEn p then 1 else 5) ∧
    ∀ q : Reg, (∀ p < 7, q.key ≠ (GRV_STAT p).key) → s.trainPorts.reg q = s.reg q := by
  have enabled (s : State) (a b v : Nat) : (s.setF (GRV_STAT a) GRV_STAT_STATE v).gpEn b = s.gpEn b := by
    rw [gpEn, State.actF, State.setF, State.act_setReg, ← State.actF, gpEn]
  have all : s.trainPorts.offLinks = s.offLinks := State.foldl_keeps State.offLinks _ (fun s p => s.setF_offLinks ..) _ s
  refine ⟨all, fun p hp => ?_, fun q hq => ?_⟩
  · have same : s.trainPorts.gpEn p = s.gpEn p := by
      rw [gpEn, State.actF_of_active (State.active_of_offLinks all), gpEn]
    rw [← same]
    refine State.foldl_each (fun s p => s.gpState p = if s.gpEn p then 1 else 5) _ (fun s a => ?_) (fun s a b hb => ?_) _ s p
      (.inl (List.mem_range.mpr hp))
    · rw [gpState, State.getF_setF_self _ _ _ _ (by decide), enabled]
      split <;> rfl
    · rw [enabled]
      by_cases h : b = a
      · rw [h, gpState, State.getF_setF_self _ _ _ _ (by decide)]
        split <;> rfl
      · rw [gpState, State.getF_setF_ne _ _ _ _ (grvStat_key_ne h), ← gpState, hb]
  · exact State.foldl_keeps_of_mem (fun s : State => s.reg q) _ _ (fun p hp s => s.reg_setF_ne _ _ (hq p (List.mem_range.mp hp))) s

/-! The command. -/

/-- STEP 4, no Stand in reset, the Stands' clocks locked (R63 step 6). -/
def State.clocked (s : State) : State :=
  (List.range 4).foldl State.parkVolt (({ s with standRst := 0 } : State).setF SVP_STAT SVP_STAT_STEP 4).lockStands

/-- The links that the committed image enables. -/
def State.enabledLinks (s : State) : List Nat := (List.range 16).filter fun n => s.actF (RTL_CTL n) RTL_CTL_EN == 1

theorem exec_clocksSeedReady_third {s : State} (h : s.startStep = 3) : exec (.clocksSeedReady false) s = .next (s.startFails 4) ∧
    exec (.clocksSeedReady true) s = .next (s.clocked.trainLinks s.clocked.enabledLinks).trainPorts := by
  have due : ¬ s.startStep ≠ 3 := not_not.mpr h
  refine ⟨?_, ?_⟩
  · rw [exec_clocksSeedReady, execClocksSeedReady, if_neg due, if_pos rfl]
  · rw [exec_clocksSeedReady, execClocksSeedReady, if_neg due, if_neg (by decide)]
    rfl

theorem State.clocked_fields (s : State) : s.clocked.startStep = 4 ∧ s.clocked.standRst = 0 ∧ s.clocked.active = s.active ∧
    s.clocked.threads = s.threads ∧ s.clocked.mem = s.mem ∧ ∀ q : Reg, q.offStands → q.key ≠ SVP_STAT.key → s.clocked.reg q = s.reg q := by
  let g : State := ({ s with standRst := 0 } : State).setF SVP_STAT SVP_STAT_STEP 4
  have off : s.clocked.offPower = g.offPower := (State.parkVolts_offPower _).trans (State.lockStands_offPower _)
  have kept : g.standRst = 0 ∧ g.active = s.active ∧ g.threads = s.threads ∧ g.mem = s.mem := by simp [g, setF]
  obtain ⟨standRst, active, threads, mem⟩ := kept
  have reg {q : Reg} (hq : q.offStands) : s.clocked.reg q = g.reg q :=
    (State.reg_parkVolts _ (fun st hst => (hq st (List.mem_range.mp hst)).2) _).trans (State.reg_lockStands hq g)
  have step : SVP_STAT.offStands := by unfold Reg.offStands; decide
  refine ⟨?_, (State.standRst_of_offPower off).trans standRst, (State.active_of_offPower off).trans active,
    (State.threads_of_offPower off).trans threads, (State.mem_of_offPower off).trans mem, fun q hq hs => ?_⟩
  · rw [startStep, getF, reg step, ← getF, State.getF_setF_self _ _ _ _ (by decide)]
    rfl
  · exact (reg hq).trans (State.reg_setF_ne _ _ _ hs)

/-- What the start of training leaves (R63 step 6, R255, R265). -/
theorem State.trained_fields (s : State) : let u := (s.clocked.trainLinks s.clocked.enabledLinks).trainPorts
    u.startStep = 4 ∧ u.standRst = 0 ∧ (∀ n < 16, s.actF (RTL_CTL n) RTL_CTL_EN = 1 → u.rtlState n = 1) ∧
    (∀ n < 16, s.actF (RTL_CTL n) RTL_CTL_EN ≠ 1 → u.rtlState n = s.rtlState n) ∧
    (∀ p < 7, u.gpState p = if s.gpEn p then 1 else 5) ∧ u.threads = s.threads ∧ u.mem = s.mem := by
  let g := s.clocked.trainLinks s.clocked.enabledLinks
  obtain ⟨step, standRst, active, threads, mem, other⟩ := s.clocked_fields
  obtain ⟨loff, trains, lother⟩ := s.clocked.trainLinks_fields s.clocked.enabledLinks
  obtain ⟨poff, ports, pother⟩ := g.trainPorts_fields
  have enabled (n : Nat) : n ∈ s.clocked.enabledLinks ↔ n < 16 ∧ s.actF (RTL_CTL n) RTL_CTL_EN = 1 := by
    simp [enabledLinks, State.actF_of_active active]
  have link (n : Nat) : g.trainPorts.rtlState n = g.rtlState n := by
    have apart (p : Nat) (_ : p < 7) : (RTL_STAT n).key ≠ (GRV_STAT p).key := by
      simp only [Reg.key, RTL_STAT, GRV_STAT]
      omega
    rw [rtlState, getF, pother _ apart, ← getF, ← rtlState]
  refine ⟨?_, ?_, fun n hn hen => ?_, fun n hn hen => ?_, fun p hp => ?_, ?_, ?_⟩
  · have portless (p : Nat) (_ : p < 7) : SVP_STAT.key ≠ (GRV_STAT p).key := by
      simp only [Reg.key, SVP_STAT, GRV_STAT]
      omega
    have linkless : ∀ n ∈ s.clocked.enabledLinks, SVP_STAT.key ≠ (RTL_STAT n).key := fun n hn => by
      have := ((enabled n).mp hn).1
      simp only [Reg.key, SVP_STAT, RTL_STAT]
      omega
    rw [startStep, getF, pother _ portless, lother _ linkless, ← getF, ← startStep, step]
  · rw [State.standRst_of_offLinks poff, State.standRst_of_offLinks loff, standRst]
  · rw [link, trains n ((enabled n).mpr ⟨hn, hen⟩)]
  · have still : ∀ m ∈ s.clocked.enabledLinks, (RTL_STAT n).key ≠ (RTL_STAT m).key := fun m hm =>
      rtlStat_key_ne fun e => hen (e ▸ ((enabled m).mp hm).2)
    have stands : (RTL_STAT n).offStands := fun st _ => by
      constructor
      · simp only [ne_eq, Reg.key, RTL_STAT, CLK_STAND]
        omega
      · simp only [ne_eq, Reg.key, RTL_STAT, PWR_RAIL]
        omega
    have stat : (RTL_STAT n).key ≠ SVP_STAT.key := by
      simp only [Reg.key, RTL_STAT, SVP_STAT]
      omega
    rw [link, rtlState, getF, lother _ still, other _ stands stat, ← getF, ← rtlState]
  · rw [ports p hp, gpEn, State.actF_of_active (State.active_of_offLinks loff), State.actF_of_active active, gpEn]
  · rw [State.threads_of_offLinks poff, State.threads_of_offLinks loff, threads]
  · rw [State.mem_of_offLinks poff, State.mem_of_offLinks loff, mem]

/-! TRAINING_ENDED. -/

theorem any_training_eq_false {n : Nat} {st : Nat → Nat} (h : ∀ i < n, st i ≠ 1) : (List.range n).any (fun i => st i == 1) = false := by
  simpa using h

theorem any_training_eq_true {n : Nat} {st : Nat → Nat} (h : ∃ i < n, st i = 1) : (List.range n).any (fun i => st i == 1) = true := by
  simpa using h

theorem exec_trainingEnded_quiet {s : State} (h4 : s.startStep = 4) (hl : ∀ n < 16, s.rtlState n ≠ 1) (hp : ∀ p < 7, s.gpState p ≠ 1) :
    exec .trainingEnded s = .next (s.setF SVP_STAT SVP_STAT_STEP 5) := by
  rw [exec_trainingEnded, execTrainingEnded]
  exact congrArg Host.Outcome.next (if_pos ⟨h4, any_training_eq_false hl, any_training_eq_false hp⟩)

theorem exec_trainingEnded_other {s : State} (h : s.startStep ≠ 4 ∨ (∃ n < 16, s.rtlState n = 1) ∨ ∃ p < 7, s.gpState p = 1) :
    exec .trainingEnded s = .next s := by
  rw [exec_trainingEnded, execTrainingEnded]
  refine congrArg Host.Outcome.next (if_neg ?_)
  rintro ⟨h4, hl, hp⟩
  rcases h with h | h | h
  · exact h h4
  · exact Bool.false_ne_true (hl.symm.trans (any_training_eq_true h))
  · exact Bool.false_ne_true (hp.symm.trans (any_training_eq_true h))

end Sys2Proof.Machine
end

section
/-! SUPPORT. STAND_RESET_EXIT: which cores and threads start, and that no other is touched (R40, R66, R119). -/

namespace Sys2Proof.Machine

/-- A thread outside a list of threads is not touched as they start. -/
theorem State.thr_startThreads_ne (s : State) {ts : List Nat} {v : Nat} (h : v ∉ ts) (reason : Nat) :
    (ts.foldl (fun s t => s.startThread t reason) s).thr v = s.thr v :=
  State.foldl_keeps_of_mem (fun s : State => s.thr v) _ ts
    (fun t ht s => by rw [startThread, State.thr_setThr_ne _ _ (ne_of_mem_of_not_mem ht h).symm]) s

theorem State.core_startThreads (s : State) (ts : List Nat) (reason d : Nat) :
    (ts.foldl (fun s t => s.startThread t reason) s).core d = s.core d :=
  State.foldl_keeps (fun s : State => s.core d) _ (fun s t => by rw [startThread, State.core_setThr]) ts s

theorem State.thr_startCore_ne (s : State) {c v : Nat} (h : v ∉ s.coreThreads c) (reason : Nat) : (s.startCore c reason).thr v = s.thr v := by
  rw [startCore, State.thr_startThreads_ne _ h, modCore, State.thr_setCore]

theorem State.core_startCore_ne (s : State) {c d : Nat} (h : d ≠ c) (reason : Nat) : (s.startCore c reason).core d = s.core d := by
  rw [startCore, State.core_startThreads, modCore, State.core_setCore_ne _ _ h]

/-- Cores outside a list of cores, and the threads of none of them, are not touched as they start. -/
theorem State.foldl_startCore_frame (cs : List Nat) (reason : Nat) : ∀ s : State,
    let u := cs.foldl (fun s c => s.startCore c reason) s
    (∀ v, (∀ c ∈ cs, v ∉ s.coreThreads c) → u.thr v = s.thr v) ∧ ∀ d, d ∉ cs → u.core d = s.core d := by
  intro s
  refine ⟨?_, fun d hd => State.foldl_keeps_of_mem (fun s : State => s.core d) _ cs
    (fun c hc s => s.core_startCore_ne (ne_of_mem_of_not_mem hc hd).symm reason) s⟩
  induction cs generalizing s with
  | nil => exact fun _ _ => rfl
  | cons c cs ih =>
    intro v hv
    have same (d : Nat) : (s.startCore c reason).coreThreads d = s.coreThreads d :=
      State.coreThreads_of_active (by rw [startCore, State.foldl_keeps State.active _ (fun s t => by rw [startThread, setThr_active]), modCore,
        setCore_active]) d
    exact (ih _ v fun d hd => by rw [same]; exact hv d (by simp [hd])).trans (s.thr_startCore_ne (hv c (by simp)) reason)

/-- A Stand out of reset: its cores' registers are the retained image's, and nothing else has changed (R40, R66). -/
theorem State.standBack_fields (s : State) (st : Nat) : bitOf (s.standBack st).standRst st = false ∧ (s.standBack st).threads = s.threads ∧
    (s.standBack st).cores = s.cores ∧ (s.standBack st).mem = s.mem ∧ (s.standBack st).released = s.released := by
  let out : State := { s with standRst := setBit s.standRst st false }
  have rst : bitOf out.standRst st = false := bitOf_setBit_self s.standRst st false
  have off : (s.standBack st).offRegs = out.offRegs := State.foldl_keeps State.offRegs _
    (fun s c => State.foldl_keeps State.offRegs _ (fun s b => s.fromRetained_offRegs b c) _ s) _ out
  have kept : out.threads = s.threads ∧ out.cores = s.cores ∧ out.mem = s.mem ∧ out.released = s.released := ⟨rfl, rfl, rfl, rfl⟩
  obtain ⟨threads, cores, mem, released⟩ := kept
  exact ⟨(congrArg (bitOf · st) (State.standRst_of_offRegs off)).trans rst, (State.threads_of_offRegs off).trans threads,
    (State.cores_of_offRegs off).trans cores, (State.mem_of_offRegs off).trans mem,
    (State.released_of_offRegs off).trans released⟩

/-- The active cores of a Stand in partitions that `rel` releases. -/
def State.startable (g : State) (st : Nat) (rel : Nat) : List Nat :=
  (standCores st).filter fun c => g.coreActive c && bitOf rel (g.corePart c)

theorem exec_standResetExit_held {s : State} {st : Stand} (hclk : s.standClocks = true) (hrst : bitOf s.standRst st.val = true) :
    exec (.standResetExit st []) s =
      .next ((((s.standBack st.val).startable st.val s.released).foldl (fun s c => s.startCore c 2) (s.standBack st.val)).parkVolt st.val) := by
  obtain ⟨-, -, -, -, released⟩ := s.standBack_fields st.val
  rw [← released, exec_standResetExit, execStandResetExit, if_neg (by simp [hclk, hrst]), ← State.startCores_nil]
  simp only [State.startable, State.standBack, List.map_nil]

theorem exec_standResetExit_off {s : State} {st : Stand} (h : s.standClocks = false ∨ bitOf s.standRst st.val = false) (bad : List Pcore) :
    exec (.standResetExit st bad) s = .next s := by
  rw [exec_standResetExit, execStandResetExit, if_pos h]

/-- What a Stand's exit from reset leaves (R66, R119). -/
theorem State.standStarts (g : State) (st : Nat) (cs : List Nat) : let u := (cs.foldl (fun s c => s.startCore c 2) g).parkVolt st
    u.standRst = g.standRst ∧ u.mem = g.mem ∧
    (∀ c ∈ cs, (u.core c).held = false ∧ ∀ t ∈ g.coreThreads c, (u.thr t).starts (g.mbaseOf t) 2) ∧
    (∀ t, (∀ c ∈ cs, t ∉ g.coreThreads c) → u.thr t = g.thr t) ∧ ∀ c, c ∉ cs → u.core c = g.core c := by
  let w := cs.foldl (fun s c => s.startCore c 2) g
  have off : (w.parkVolt st).offRegs = w.offRegs := w.parkVolt_offRegs st
  have thr (t : Nat) : (w.parkVolt st).thr t = w.thr t := by rw [State.thr, State.threads_of_offRegs off, ← State.thr]
  have core (c : Nat) : (w.parkVolt st).core c = w.core c := by rw [State.core, State.cores_of_offRegs off, ← State.core]
  obtain ⟨woff, held, starts⟩ := State.foldl_startCore_spec (reason := 2) (by decide) cs g
  obtain ⟨thrs, cores⟩ := State.foldl_startCore_frame cs 2 g
  refine ⟨(State.standRst_of_offRegs off).trans (congrArg State.standRst woff :), (State.mem_of_offRegs off).trans (State.mem_of_offThreads woff),
    fun c hc => ⟨?_, fun t ht => ?_⟩, fun t ht => (thr t).trans (thrs t ht), fun c hc => (core c).trans (cores c hc)⟩
  · rw [core]
    exact held c (.inl hc)
  · rw [thr]
    exact starts t (.inl ⟨c, hc, ht⟩)

end Sys2Proof.Machine
end

section
/-! PROOF. O53: the start, step by step. -/

namespace Sys2Proof.Machine

/-- Settles O53, event by event: power, self-test, link, clocks, training, and the exit of a Stand from reset. -/
theorem startResults : Obligations.StartResults := by
  refine ⟨fun m s => ⟨fun h => ?_, fun h => exec_pwrokAssert_spec h m⟩, fun a b f p z s => ⟨fun h => exec_romSelfTestDone_off h a b f p z,
    fun hp h0 => ⟨_, exec_romSelfTestDone_first hp h0 a b f p z, ?_⟩⟩, fun s => rfl, fun s => ⟨fun h ok => ?_, fun h => ?_⟩,
    fun s => ⟨exec_trainingEnded_quiet, exec_trainingEnded_other⟩, fun st s => ⟨exec_standResetExit_off, fun hclk hrst => ?_⟩⟩
  · -- PWROK_ASSERT with PWROK high
    rw [exec_pwrokAssert, execPwrokAssert, if_pos h]
  · -- ROM_SELF_TEST_DONE at STEP 0 (R53, R63, R65, R472)
    obtain ⟨good, bad, other, threads, mem⟩ := s.fused_fields f z
    obtain ⟨ident, off⟩ := (s.fused f z).selfTested_frame a b f p
    have stat := (s.fused f z).selfTested_stat a b f p
    have hash := State.rootHash_of_offRecords off
    have kept : (s.fused f z).getF SVP_STAT SVP_STAT_FAIL = s.getF SVP_STAT SVP_STAT_FAIL := congrArg _ (other SVP_STAT (by decide))
    rw [kept] at stat
    exact ⟨stat, fun hf => ⟨ident.trans (good hf).1, hash.trans (good hf).2⟩, fun hf => ⟨ident.trans (bad hf).1, hash.trans (bad hf).2⟩,
      (State.threads_of_offRecords off).trans threads, (State.mem_of_offRecords off).trans mem⟩
  · -- CLOCKS_SEED_READY at another STEP
    rw [exec_clocksSeedReady, execClocksSeedReady, if_pos h]
  · -- CLOCKS_SEED_READY at STEP 3 (R63, R65, R255, R265)
    obtain ⟨fails, trains⟩ := exec_clocksSeedReady_third h
    obtain ⟨step, code, off, -⟩ := s.startFails_fields 4
    exact ⟨⟨_, fails, step, code, State.standRst_of_offRegs off⟩, ⟨_, trains, s.trained_fields⟩⟩
  · -- STAND_RESET_EXIT of a Stand in reset (R66, R119)
    obtain ⟨out, threads, cores, mem, -⟩ := s.standBack_fields st.val
    obtain ⟨rst, umem, starts, thrs, rest⟩ := (s.standBack st.val).standStarts st.val ((s.standBack st.val).startable st.val s.released)
    refine ⟨_, exec_standResetExit_held hclk hrst, ?_, starts, fun t ht => (thrs t ht).trans ?_, fun c hc => (rest c hc).trans ?_,
      umem.trans mem⟩
    · rw [rst, out]
    · rw [State.thr, threads, State.thr]
    · rw [State.core, cores, State.core]

end Sys2Proof.Machine
end

section
/-! SUPPORT. What the Grove's link layer shows: its registers, the peers it has severed, the failed targets; and what leaves that alone. -/

namespace Sys2Proof.Machine

/-- A register of the Grove's block. -/
def Reg.ofGrove (q : Reg) : Prop := q.key / 2 ^ 40 = 0x08

theorem Reg.ofGrove.key_ne {q r : Reg} (hq : q.ofGrove) (hr : r.key / 2 ^ 40 ≠ 0x08) : q.key ≠ r.key := fun e => hr (e ▸ hq)

theorem Reg.ofGrove.not_ofRecords {q : Reg} (hq : q.ofGrove) : ¬ q.ofRecords := by
  rintro (e | e | e)
  · exact hq.key_ne (by decide) e
  · exact hq.key_ne (by decide) e
  · exact hq.key_ne (by decide) e

/-- The Grove's registers with the severed peers, and the failed targets. -/
def State.grove (s : State) : (({ q : Reg // q.ofGrove } → Word) × (Nat → Bool)) × List Nat :=
  ((fun q => s.reg q.1, fun m => (s.peer m).severed), s.failed)

theorem State.grove_ext {s u : State} (hreg : ∀ q : Reg, q.ofGrove → u.reg q = s.reg q) (hpeer : u.peers = s.peers)
    (hfail : u.failed = s.failed) : u.grove = s.grove := by
  have regs : (fun q : { q : Reg // q.ofGrove } => u.reg q.1) = fun q => s.reg q.1 := funext fun q => hreg q.1 q.2
  rw [grove, regs, hfail]
  simp only [grove, peer, hpeer]

section
variable {s u : State} (h : u.grove.1 = s.grove.1)
include h

theorem State.reg_of_grove {q : Reg} (hq : q.ofGrove) : u.reg q = s.reg q := congrFun (congrArg Prod.fst h) ⟨q, hq⟩
theorem State.getF_of_grove {q : Reg} (hq : q.ofGrove) (f : Fld) : u.getF q f = s.getF q f := congrArg f.get (State.reg_of_grove h hq)
theorem State.severed_of_grove (m : Nat) : (u.peer m).severed = (s.peer m).severed := congrFun (congrArg Prod.snd h) m

end

theorem State.failed_of_grove {s u : State} (h : u.grove = s.grove) : u.failed = s.failed := congrArg Prod.snd h

@[simp] theorem State.grove_with (s : State) (fresh : Nat) (fst : ForesterSt) (mem : Tab Byte) (mpois : Tab Bool)
    (lines : Tab Line) (canopy : Tab CanEnt) (home : List HomeTx) (out : List OutTx) (purges : List Purge) (inb : List InBcast)
    (snpQ : List Msg) (gports : Tab GPort) (roots : Tab RootLink) (threads : Tab Thread) (cores : Tab Core) (rseq : Nat)
    (collHeld : List Rec) (fq : Tab (List QEnt)) (flog : Tab (Option Rec)) (flogCnt : Nat) (flogWait : List Rec) :
    ({ s with
      fresh := fresh, fst := fst, mem := mem, mpois := mpois, lines := lines, canopy := canopy, home := home, out := out, purges := purges
      inb := inb, snpQ := snpQ, gports := gports, roots := roots, threads := threads, cores := cores, rseq := rseq
      collHeld := collHeld, fq := fq, flog := flog, flogCnt := flogCnt, flogWait := flogWait } : State).grove = s.grove := rfl

/-! Registers, threads, cores. -/

theorem State.setReg_grove (s : State) {r : Reg} (hr : r.key / 2 ^ 40 ≠ 0x08) (v : Word) : (s.setReg r v).grove = s.grove :=
  State.grove_ext (fun _ hq => s.reg_setReg_ne v (hq.key_ne hr)) (s.setReg_peers r v) (s.setReg_failed r v)
theorem State.setF_grove (s : State) {r : Reg} (hr : r.key / 2 ^ 40 ≠ 0x08) (f : Fld) (v : Nat) : (s.setF r f v).grove = s.grove := by
  rw [State.setF, s.setReg_grove hr]
@[simp] theorem State.incF_cnpStat_grove (s : State) (f : Fld) (n : Nat) : (s.incF CNP_STAT f n).grove = s.grove := by
  rw [State.incF, s.setF_grove (by decide)]

@[simp] theorem State.setThr_grove (s : State) (t : Nat) (x : Thread) : (s.setThr t x).grove = s.grove := by
  rw [State.setThr, State.grove_with]
@[simp] theorem State.modThr_grove (s : State) (t : Nat) (f : Thread → Thread) : (s.modThr t f).grove = s.grove := by
  rw [State.modThr, State.setThr_grove]
@[simp] theorem State.setCore_grove (s : State) (c : Nat) (x : Core) : (s.setCore c x).grove = s.grove := by
  rw [State.setCore, State.grove_with]
@[simp] theorem State.modCore_grove (s : State) (c : Nat) (f : Core → Core) : (s.modCore c f).grove = s.grove := by
  rw [State.modCore, State.setCore_grove]
@[simp] theorem State.tickFree_grove (s : State) : s.tickFree.grove = s.grove := by
  rw [State.tickFree, State.grove_with]

@[simp] theorem State.foldl_grove {α : Type} (f : State → α → State) (h : ∀ s a, (f s a).grove = s.grove) (l : List α) (s : State) :
    (l.foldl f s).grove = s.grove := State.foldl_keeps State.grove f h l s

/-! Records. -/

theorem State.handOn_peers_failed (s : State) (r : Rec) : (s.handOn r).peers = s.peers ∧ (s.handOn r).failed = s.failed := by
  have off := s.handOn_offRecords r
  exact ⟨(congrArg State.peers off :), (congrArg State.failed off :)⟩

@[simp] theorem State.setMci_grove (s : State) (p : Nat) (w : Word) : (s.setMci p w).grove = s.grove :=
  State.foldl_grove _ (fun _ _ => modThr_grove ..) _ _

@[simp] theorem State.handOn_grove (s : State) (r : Rec) : (s.handOn r).grove = s.grove :=
  have ⟨peers, failed⟩ := s.handOn_peers_failed r
  State.grove_ext (fun _ hq => s.reg_handOn hq.not_ofRecords r) peers failed

@[simp] theorem State.log_grove (s : State) (i : RecIn) : (s.log i).grove = s.grove := by
  unfold State.log
  repeat' split
  all_goals simp

@[simp] theorem State.logC_grove (s : State) (b i t : Nat) (d : List Byte) : (s.logC b i t d).grove = s.grove := by
  rw [State.logC, State.log_grove]

/-! Ports, peers and their messages: a message sent severs no one. -/

@[simp] theorem State.modGp_grove (s : State) (p : Nat) (f : GPort → GPort) : (s.modGp p f).grove = s.grove := by
  rw [State.modGp, State.setGp, State.grove_with]

theorem State.peer_setPeer_ne (s : State) {m k : Nat} (h : k ≠ m) (x : Peer) : (s.setPeer m x).peer k = s.peer k := Tab.get_set_ne _ _ _ h
theorem State.peer_setPeer_self (s : State) (m : Nat) (x : Peer) : (s.setPeer m x).peer m = x := Tab.get_set_self ..

theorem State.setPeer_grove (s : State) {m : Nat} {x : Peer} (h : x.severed = (s.peer m).severed) : (s.setPeer m x).grove = s.grove := by
  have peers : (fun k => ((s.setPeer m x).peer k).severed) = fun k => (s.peer k).severed := by
    funext k
    by_cases e : k = m
    · rw [e, State.peer_setPeer_self, h]
    · rw [s.peer_setPeer_ne e]
  rw [grove, peers, grove]
  rfl

theorem State.modPeer_grove (s : State) (m : Nat) {f : Peer → Peer} (h : ∀ x, (f x).severed = x.severed) : (s.modPeer m f).grove = s.grove := by
  rw [State.modPeer, s.setPeer_grove (h _)]

@[simp] theorem State.send_grove (s : State) (m : Msg) : (s.send m).grove = s.grove := by
  have waits : (s.modPeer m.dst fun x => { x with stalled := x.stalled ++ [m] }).grove = s.grove := s.modPeer_grove _ fun _ => rfl
  unfold State.send
  repeat' split
  all_goals simp only [waits, modGp_grove]
  exact s.setPeer_grove rfl

@[simp] theorem State.unstall_grove (s : State) (m : Nat) : (s.unstall m).grove = s.grove :=
  (State.foldl_grove _ State.send_grove _ _).trans (s.modPeer_grove m fun _ => rfl)

@[simp] theorem State.sendReq_grove (s : State) (opc l part : Nat) (thr : Option Nat) (d : Option (LineData × Bool)) :
    (s.sendReq opc l part thr d).grove = s.grove := by
  simp [State.sendReq]

@[simp] theorem State.snoop_grove (s : State) (x : HomeTx) (opc l mods : Nat) : (s.snoop x opc l mods).grove = s.grove := by
  simp [State.snoop]

@[simp] theorem State.reply_grove (s : State) (x : HomeTx) (opc st : Nat) (d : Option (LineData × Bool)) :
    (s.reply x opc st d).grove = s.grove := by
  simp [State.reply]

end Sys2Proof.Machine
end

section
/-! SUPPORT. Caches, memory and the home agent leave the Grove's link layer alone. -/

namespace Sys2Proof.Machine

/-! Caches. -/

@[simp] theorem State.setLine_grove (s : State) (l : Nat) (x : Line) : (s.setLine l x).grove = s.grove := by
  rw [State.setLine, State.grove_with]
@[simp] theorem State.modLine_grove (s : State) (l : Nat) (f : Line → Line) : (s.modLine l f).grove = s.grove := by
  rw [State.modLine, State.setLine_grove]
@[simp] theorem State.takeErr_grove (s : State) (l : Nat) : (s.takeErr l).grove = s.grove := by
  rw [State.takeErr, State.modLine_grove]
@[simp] theorem State.clearResv_grove (s : State) (l : Nat) (f : Nat → Bool) : (s.clearResv l f).grove = s.grove :=
  State.foldl_grove _ (fun _ _ => modThr_grove ..) _ _
@[simp] theorem State.dropCores_grove (s : State) (l : Nat) (keep : Nat → Bool) : (s.dropCores l keep).grove = s.grove := by
  simp [State.dropCores, State.coreDrop]
@[simp] theorem State.backInval_grove (s : State) (l : Nat) : (s.backInval l).grove = s.grove := by
  simp [State.backInval, State.coreDrop, State.pmcCore]
@[simp] theorem State.dropLine_grove (s : State) (l : Nat) : (s.dropLine l).grove = s.grove := by
  rw [State.dropLine, State.setLine_grove, State.backInval_grove]

/-! Memory behind the home agent. -/

@[simp] theorem State.modRoot_grove (s : State) (n : Nat) (f : RootLink → RootLink) : (s.modRoot n f).grove = s.grove := by
  rw [State.modRoot, State.setRoot, State.grove_with]

@[simp] theorem State.setMemLine_grove (s : State) (n la : Nat) (d : LineData) (p : Bool) : (s.setMemLine n la d p).grove = s.grove := by
  rw [State.setMemLine, State.grove_with]

@[simp] theorem State.logDead_grove (s : State) (n l : Nat) : (s.logDead n l).grove = s.grove := by
  unfold State.logDead
  dsimp only
  split <;> simp

theorem State.memRead_grove {s u : State} {l : Nat} {r : RdRes} (h : s.memRead l = (u, r)) : u.grove = s.grove := by
  have first : (s.memRead l).1.grove = s.grove := by
    unfold State.memRead
    repeat' split
    all_goals simp
  rwa [h] at first

@[simp] theorem State.linkWrite_grove (s : State) (n la l : Nat) (d : LineData) (p : Bool) : (s.linkWrite n la l d p).grove = s.grove := by
  unfold State.linkWrite
  repeat' split
  all_goals simp

@[simp] theorem State.memWrite_grove (s : State) (l : Nat) (d : LineData) (p : Bool) : (s.memWrite l d p).grove = s.grove := by
  unfold State.memWrite
  repeat' split
  all_goals simp

@[simp] theorem State.evictL3_grove (s : State) (l : Nat) : (s.evictL3 l).grove = s.grove := by
  unfold State.evictL3
  dsimp only
  repeat' split
  all_goals simp

@[simp] theorem State.install_grove (s : State) (l : Nat) (st : LineSt) (d : LineData) (p : Bool) (part : Nat) :
    (s.install l st d p part).grove = s.grove := by
  unfold State.install
  dsimp only
  repeat' split
  all_goals simp

@[simp] theorem State.localInval_grove (s : State) (l : Nat) : (s.localInval l).grove = s.grove := by
  unfold State.localInval
  dsimp only
  repeat' split
  all_goals simp

@[simp] theorem State.localClean_grove (s : State) (l : Nat) (st : LineSt) : (s.localClean l st).grove = s.grove := by
  unfold State.localClean
  dsimp only
  repeat' split
  all_goals simp

/-! Canopy and the home agent. -/

@[simp] theorem State.setCan_grove (s : State) (i : Nat) (e : CanEnt) : (s.setCan i e).grove = s.grove := by
  rw [State.setCan, State.grove_with]

@[simp] theorem State.canPut_grove (s : State) (l : Nat) (ex : Bool) (pres : Nat) : (s.canPut l ex pres).grove = s.grove := by
  unfold State.canPut
  repeat' split
  all_goals simp

@[simp] theorem State.modTx_grove (s : State) (l : Nat) (f : HomeTx → HomeTx) : (s.modTx l f).grove = s.grove := by
  rw [State.modTx, State.grove_with]
@[simp] theorem State.endTx_grove (s : State) (l : Nat) : (s.endTx l).grove = s.grove := by
  rw [State.endTx, State.grove_with]

@[simp] theorem State.homeLookup_grove (s : State) (x : HomeTx) : (s.homeLookup x).grove = s.grove := by
  unfold State.homeLookup
  dsimp only
  repeat' split
  all_goals simp

theorem State.canRoom_grove {s u : State} {x : HomeTx} (h : s.canRoom x = some u) : u.grove = s.grove := by
  unfold State.canRoom at h
  dsimp only at h
  repeat' split at h
  all_goals simp at h
  all_goals simp [← h]

@[simp] theorem State.homeStart_grove (s : State) (x : HomeTx) : (s.homeStart x).grove = s.grove := by
  unfold State.homeStart
  dsimp only
  cases h : s.canRoom x with
  | none => repeat' split
            all_goals simp_all
  | some u =>
    have hu := State.canRoom_grove h
    repeat' split
    all_goals simp_all

@[simp] theorem State.deliver_grove (s : State) (x : HomeTx) : (s.deliver x).grove = s.grove := by
  unfold State.deliver
  dsimp only
  repeat' split
  all_goals simp

@[simp] theorem State.cmoVisible_grove (s : State) (thr : Option Nat) (l : Nat) (owed : Bool) : (s.cmoVisible thr l owed).grove = s.grove := by
  unfold State.cmoVisible
  split <;> simp

@[simp] theorem State.homeAdvance1_grove (s : State) (l : Nat) : (s.homeAdvance1 l).grove = s.grove := by
  unfold State.homeAdvance1
  dsimp only
  repeat' split
  all_goals simp
  all_goals exact State.memRead_grove (by assumption)

@[simp] theorem State.homeAdvance_grove (s : State) (l : Nat) : (s.homeAdvance l).grove = s.grove := by
  simp [State.homeAdvance]

@[simp] theorem State.homeKick_grove (n : Nat) : ∀ s : State, (State.homeKick n s).grove = s.grove := by
  induction n with
  | zero => exact fun _ => rfl
  | succ n ih =>
    intro s
    unfold State.homeKick
    split <;> simp [ih, State.homeRun]

@[simp] theorem State.homeServe_grove (s : State) : s.homeServe.grove = s.grove := by
  rw [State.homeServe, State.homeKick_grove]

@[simp] theorem State.snoopResponse_grove (s : State) (l m st : Nat) (d : Option (LineData × Bool)) :
    (s.snoopResponse l m st d).grove = s.grove := by
  unfold State.snoopResponse
  dsimp only
  repeat' split
  all_goals simp

@[simp] theorem State.purgeDone_grove (s : State) (set m : Nat) : (s.purgeDone set m).grove = s.grove := by
  unfold State.purgeDone
  dsimp only
  repeat' split
  all_goals simp [State.clearSet]

end Sys2Proof.Machine
end

section
/-! SUPPORT. What the severance of a peer does to the Canopy, the home agent and this module's own requests leaves the link layer alone. -/

namespace Sys2Proof.Machine

@[simp] theorem State.stopThread_grove (s : State) (t : Nat) (why : Run) : (s.stopThread t why).grove = s.grove := by
  unfold State.stopThread
  dsimp only
  split <;> simp

@[simp] theorem State.takeM_grove (s : State) (t : Nat) (c : Cause) (ret : Word) (vec : Option Word) (double : Bool) :
    (s.takeM t c ret vec double).grove = s.grove := by
  unfold State.takeM
  dsimp only
  repeat' split
  all_goals simp

@[simp] theorem State.storeErr_grove (s : State) (t : Nat) (e : StoreEnt) (st : Nat) : (s.storeErr t e st).grove = s.grove := by
  unfold State.storeErr
  dsimp only
  split <;> simp

@[simp] theorem State.settleBcasts_grove (s : State) : s.settleBcasts.grove = s.grove := by
  simp [State.settleBcasts]

@[simp] theorem State.severCanopy_grove (s : State) (m : Nat) : (s.severCanopy m).grove = s.grove := by
  refine State.foldl_grove _ (fun s e => ?_) _ s
  dsimp only
  repeat' split
  all_goals simp
  all_goals exact State.memRead_grove (by assumption)

@[simp] theorem State.severHome_grove (s : State) (m : Nat) : (s.severHome m).grove = s.grove := by
  unfold State.severHome
  refine (State.homeServe_grove _).trans <| (State.foldl_grove _ (fun _ _ => State.purgeDone_grove ..) _ _).trans <|
    (State.foldl_grove _ (fun s x => ?_) _ _).trans (State.grove_with ..)
  split <;> simp

/-! A target marked failed: its mark, and a Glade's register. -/

theorem State.mem_failed_markFailed (s : State) (k : Nat) : k ∈ (s.markFailed k).failed := by
  have marked : k ∈ (if s.failed.contains k then s else { s with failed := k :: s.failed } : State).failed := by
    split
    · next h => simpa using h
    · simp
  unfold State.markFailed
  dsimp only
  split
  · rwa [State.setF, State.setReg_failed]
  · exact marked

/-- The register that shows a failed slice target is a Glade's. -/
@[simp] theorem State.markFailed_grove (s : State) (k : Nat) : (s.markFailed k).grove.1 = s.grove.1 := by
  have glade (g p h : Nat) : (GLD_PST g p h).key / 2 ^ 40 ≠ 0x08 := by
    simp only [Reg.key, GLD_PST]
    omega
  have marked : (if s.failed.contains k then s else { s with failed := k :: s.failed } : State).grove.1 = s.grove.1 := by
    split <;> rfl
  unfold State.markFailed
  dsimp only
  split
  · rwa [State.setF_grove _ (glade _ _ _)]
  · exact marked

@[simp] theorem State.failTarget_grove (s : State) (pa : Nat) : (s.failTarget pa).grove.1 = s.grove.1 := by
  simp [State.failTarget]

@[simp] theorem State.logDev_grove (s : State) (t pa cls : Nat) : (s.logDev t pa cls).grove = s.grove := by
  simp [State.logDev]

@[simp] theorem State.failStore_grove (s : State) (t pa : Nat) : (s.failStore t pa).grove.1 = s.grove.1 := by
  unfold State.failStore
  dsimp only
  split <;> simp

theorem State.severOut_grove (s : State) (m : Nat) : (s.severOut m).grove.1 = s.grove.1 := by
  refine State.foldl_keeps (fun s : State => s.grove.1) _ (fun s o => ?_) _ s
  dsimp only
  repeat' split
  all_goals simp [State.dropOut, State.lostLoad, State.giveTid, State.bcastAnswered]

end Sys2Proof.Machine
end

section
/-! SUPPORT. Ports and their registers: what a state field, a record, a refresh of the routes and a message leave of them (R251, R257). -/

namespace Sys2Proof.Machine

/-! The registers. -/

theorem grvStat_ofGrove {p : Nat} (h : p < 7) : (GRV_STAT p).ofGrove := by
  simp only [Reg.ofGrove, Reg.key, GRV_STAT]
  omega
theorem grvErr_ofGrove {p : Nat} (h : p < 7) : (GRV_ERR p).ofGrove := by
  simp only [Reg.ofGrove, Reg.key, GRV_ERR]
  omega
theorem grvGroup_ofGrove : GRV_GROUP.ofGrove := by unfold Reg.ofGrove; decide

theorem grvErr_key_ne_grvStat (p q : Nat) : (GRV_ERR p).key ≠ (GRV_STAT q).key := by
  simp only [Reg.key, GRV_ERR, GRV_STAT]
  omega
theorem grvStat_key_ne_grvErr (p q : Nat) : (GRV_STAT p).key ≠ (GRV_ERR q).key := (grvErr_key_ne_grvStat q p).symm
theorem grvStat_key_ne_grvRoute (p : Nat) : (GRV_STAT p).key ≠ GRV_ROUTE.key := by
  simp only [Reg.key, GRV_STAT, GRV_ROUTE]
  omega
theorem grvStat_key_ne_grvGroup (p : Nat) : (GRV_STAT p).key ≠ GRV_GROUP.key := by
  simp only [Reg.key, GRV_STAT, GRV_GROUP]
  omega

theorem State.self_setF_grvStat (s : State) (p : Nat) (f : Fld) (v : Nat) : (s.setF (GRV_STAT p) f v).self = s.self :=
  State.getF_setF_ne _ _ _ _ (grvStat_key_ne_grvGroup p).symm

theorem State.peers_of_offRegs {s u : State} (h : u.offRegs = s.offRegs) : u.peers = s.peers := (congrArg State.peers h :)
theorem State.gports_of_offRegs {s u : State} (h : u.offRegs = s.offRegs) : u.gports = s.gports := (congrArg State.gports h :)
theorem State.failed_of_offRegs {s u : State} (h : u.offRegs = s.offRegs) : u.failed = s.failed := (congrArg State.failed h :)

/-! A port in a new state, with its record (R257). -/

/-- The port's new state is shown and recorded. -/
def State.portShows (s : State) (p st : Nat) : State := (s.setF (GRV_STAT p) GRV_STAT_STATE st).logPort p st

theorem State.logPort_grove (s : State) (p st : Nat) : (s.logPort p st).grove = s.grove := s.log_grove _
theorem State.logPort_gports (s : State) (p st : Nat) : (s.logPort p st).gports = s.gports := State.gports_of_offRecords (s.log_offRecords rfl)

theorem State.portShows_spec (s : State) {p : Nat} (hp : p < 7) {st : Nat} (hst : st < 16) : let u := s.portShows p st
    u.gpState p = st ∧ (∀ f : Fld, f.lsb + f.width ≤ 60 → u.getF (GRV_STAT p) f = s.getF (GRV_STAT p) f) ∧
    (∀ q < 7, q ≠ p → u.gpState q = s.gpState q) ∧ u.gports = s.gports ∧ u.self = s.self := by
  have log := congrArg Prod.fst ((s.setF (GRV_STAT p) GRV_STAT_STATE st).logPort_grove p st)
  refine ⟨?_, fun f hf => ?_, fun q hq hne => ?_, ?_, ?_⟩
  · rw [portShows, gpState, State.getF_of_grove log (grvStat_ofGrove hp), State.getF_setF_self _ _ _ _ (by decide)]
    exact Nat.mod_eq_of_lt hst
  · rw [portShows, State.getF_of_grove log (grvStat_ofGrove hp), State.getF_setF_apart _ _ _ _ _ (.inl hf)]
  · rw [portShows, gpState, State.getF_of_grove log (grvStat_ofGrove hq), State.getF_setF_ne _ _ _ _ (grvStat_key_ne hne), ← gpState]
  · rw [portShows, State.logPort_gports, setF, State.setReg_gports]
  · rw [portShows, self, State.getF_of_grove log grvGroup_ofGrove, ← self, State.self_setF_grvStat]

/-! Routes (R251). -/

theorem State.refreshRoutes_offRegs (s : State) : s.refreshRoutes.offRegs = s.offRegs :=
  State.foldl_keeps State.offRegs _ (fun s m => by rw [routeOne, setF_offRegs, setReg_offRegs]) _ s

theorem State.refreshRoutes_gports (s : State) : s.refreshRoutes.gports = s.gports := State.gports_of_offRegs s.refreshRoutes_offRegs
theorem State.refreshRoutes_gp (s : State) (p : Nat) : s.refreshRoutes.gp p = s.gp p := by rw [gp, State.refreshRoutes_gports, gp]
theorem State.refreshRoutes_peer (s : State) (m : Nat) : s.refreshRoutes.peer m = s.peer m := by
  rw [peer, State.peers_of_offRegs s.refreshRoutes_offRegs, peer]

theorem State.getF_refreshRoutes_grvStat (s : State) (p : Nat) (f : Fld) : s.refreshRoutes.getF (GRV_STAT p) f = s.getF (GRV_STAT p) f :=
  congrArg f.get (State.foldl_keeps (fun s : State => s.reg (GRV_STAT p)) _
    (fun s m => s.reg_routeOne m (grvStat_key_ne_grvRoute p) (grvStat_key_ne_grvGroup p)) _ s)

theorem State.self_routeOne (s : State) (m : Nat) : (s.routeOne m).self = s.self := by
  rw [self, routeOne, State.getF_setF_apart _ _ _ _ _ (by decide), State.getF, State.reg_setReg_ne _ _ (by decide), ← State.getF, self]

theorem State.self_refreshRoutes (s : State) : s.refreshRoutes.self = s.self := State.foldl_keeps State.self _ State.self_routeOne _ s

/-- A set bit taken away leaves every other bit. -/
theorem bitOf_sub_two_pow {m i j : Nat} (h : j ≠ i) (hm : bitOf m i = true) : bitOf (m - 2 ^ i) j = bitOf m j := by
  have odd : m / 2 ^ i % 2 = 1 := by simpa [bitOf] using hm
  have one {x : Nat} (hx : x % 2 = 1) : 1 ≤ x := by omega
  have half {x : Nat} (hx : x % 2 = 1) : (x - 1) / 2 = x / 2 := by omega
  have even {x y : Nat} (hx : 2 * y ≤ x) : (x - 2 * y) % 2 = x % 2 := by omega
  rcases Nat.lt_or_gt_of_ne h with hlt | hgt
  · obtain ⟨d, rfl⟩ := Nat.exists_eq_add_of_lt hlt
    have power : 2 ^ (j + d + 1) = 2 ^ j * (2 * 2 ^ d) := by ring
    have low : 2 * 2 ^ d ≤ m / 2 ^ j := by
      rw [Nat.le_div_iff_mul_le (Nat.two_pow_pos j), Nat.mul_comm, ← power]
      exact (Nat.one_le_div_iff (Nat.two_pow_pos _)).mp (one odd)
    rw [bitOf, power, Nat.sub_mul_div, even low, bitOf]
  · obtain ⟨d, rfl⟩ := Nat.exists_eq_add_of_lt hgt
    have power : 2 ^ (i + d + 1) = 2 ^ i * (2 * 2 ^ d) := by ring
    have less : (m - 2 ^ i) / 2 ^ i = m / 2 ^ i - 1 := by simpa using Nat.sub_mul_div m (2 ^ i) 1
    simp only [bitOf, power, ← Nat.div_div_eq_div_mul, less, half odd]

theorem bitOf_setBit_ne (m : Nat) {i j : Nat} (h : j ≠ i) (b : Bool) : bitOf (setBit m i b) j = bitOf m j := by
  cases b with
  | true => simp [setBit, bitOf_eq_testBit, Nat.testBit_or, Nat.testBit_two_pow_of_ne h.symm]
  | false =>
    unfold setBit
    rw [if_neg (by decide)]
    split
    · next set => exact bitOf_sub_two_pow h set
    · rfl

theorem setBit_false_le (m i : Nat) : setBit m i false ≤ m := by
  unfold setBit
  split
  · contradiction
  · split
    · exact Nat.sub_le ..
    · exact le_rfl

theorem State.live_routeOne (s : State) (m : Nat) {k : Nat} (hk : k < 8) : (s.routeOne m).live k =
    if k = m then (m == s.self && s.member m) || (s.member m && !(s.peer m).severed && (s.direct m || (s.relay m).isSome)) else s.live k := by
  have low (x : Nat) : bitOf (x % 2 ^ 8) k = bitOf x k := by
    rw [bitOf_eq_testBit, bitOf_eq_testBit, Nat.testBit_mod_two_pow]
    simp [hk]
  have shown (v : Word) : (s.setReg GRV_ROUTE v).getF GRV_GROUP GRV_GROUP_LIVE = s.getF GRV_GROUP GRV_GROUP_LIVE :=
    congrArg GRV_GROUP_LIVE.get (s.reg_setReg_ne v (by decide))
  rw [live, routeOne, State.getF_setF_self _ _ _ _ (by decide), shown]
  refine (low _).trans ?_
  by_cases h : k = m
  · rw [if_pos h, h, bitOf_setBit_self]
    rfl
  · rw [if_neg h]
    exact bitOf_setBit_ne _ h _

/-- No path leads to a severed peer (R260). -/
theorem State.live_refreshRoutes_severed (s : State) {m : Nat} (hm : m < 8) (hs : (s.peer m).severed = true) (hne : m ≠ s.self) :
    s.refreshRoutes.live m = false := by
  have peer (s : State) (a k : Nat) : (s.routeOne a).peer k = s.peer k := by rw [State.peer, routeOne, setF, setReg_peers, setReg_peers, State.peer]
  have cut (s : State) {k : Nat} (hk : k < 8) (hs : (s.peer k).severed = true) (hne : k ≠ s.self) : (s.routeOne k).live k = false := by
    rw [s.live_routeOne k hk, if_pos rfl, hs]
    simp [hne]
  refine State.foldl_each (fun s k => k < 8 → (s.peer k).severed = true → k ≠ s.self → s.live k = false) State.routeOne
    (fun s a hk hs hne => ?_) (fun s a b hb hk hs hne => ?_) _ s m (.inl (List.mem_range.mpr hm)) hm ?_ ?_
  · exact cut s hk (by rwa [peer] at hs) (by rwa [State.self_routeOne] at hne)
  · rw [peer] at hs
    rw [State.self_routeOne] at hne
    by_cases e : b = a
    · exact e ▸ cut s hk hs hne
    · rw [s.live_routeOne a hk, if_neg e, hb hk hs hne]
  · rwa [← refreshRoutes, State.refreshRoutes_peer]
  · rwa [← refreshRoutes, State.self_refreshRoutes]

/-! Messages: what a port keeps of its failures. -/

/-- The quick retrains that failed and the RESUME awaited. -/
def State.waits (s : State) (p : Nat) : Nat × List Nat := ((s.gp p).qrFail, (s.gp p).resumeFor)

theorem State.gp_modGp_self (s : State) (p : Nat) (f : GPort → GPort) : (s.modGp p f).gp p = f (s.gp p) := Tab.get_set_self ..
theorem State.gp_modGp_ne (s : State) {p q : Nat} (h : q ≠ p) (f : GPort → GPort) : (s.modGp p f).gp q = s.gp q := Tab.get_set_ne _ _ _ h

/-- What a change of one port keeps of a port, the state keeps of every port. -/
theorem State.gp_modGp_keeps {β : Type} (k : GPort → β) {f : GPort → GPort} (h : ∀ x, k (f x) = k x) (s : State) (p q : Nat) :
    k ((s.modGp p f).gp q) = k (s.gp q) := by
  by_cases e : q = p
  · rw [e, State.gp_modGp_self, h]
  · rw [s.gp_modGp_ne e]

theorem GPort.push_waits (x : GPort) (b : FlitBody) : ((x.push b).qrFail, (x.push b).resumeFor) = (x.qrFail, x.resumeFor) := by
  cases b <;> rfl

theorem GPort.offer_waits (x : GPort) (b : FlitBody) : ((x.offer b).qrFail, (x.offer b).resumeFor) = (x.qrFail, x.resumeFor) := by
  unfold GPort.offer
  split
  · exact x.push_waits b
  · rfl

theorem State.offer_waits (s : State) (p q : Nat) (b : FlitBody) : (s.modGp p fun x => x.offer b).waits q = s.waits q :=
  State.gp_modGp_keeps (fun x => (x.qrFail, x.resumeFor)) (fun x => x.offer_waits b) s p q

theorem State.setPeer_waits (s : State) (m : Nat) (x : Peer) (q : Nat) : (s.setPeer m x).waits q = s.waits q := rfl

theorem State.send_waits (s : State) (m : Msg) (q : Nat) : (s.send m).waits q = s.waits q := by
  unfold State.send
  repeat' split
  all_goals simp only [State.offer_waits, State.modPeer, State.setPeer_waits]

theorem State.unstall_waits (s : State) (m q : Nat) : (s.unstall m).waits q = s.waits q :=
  (State.foldl_keeps (fun s : State => s.waits q) _ (fun s m => s.send_waits m q) _ _).trans rfl

end Sys2Proof.Machine
end

section
/-! SUPPORT. The widths of a port: which groups of good lanes `widest` finds (R256). -/

namespace Sys2Proof.Machine

theorem lanesGood_four {ok g : Nat} : lanesGood ok 4 g = true ↔ ok / 2 ^ (4 * g) % 16 = 15 := by simp [lanesGood]

theorem lanesGood_sixteen {ok : Nat} (h : ok < 2 ^ 16) : lanesGood ok 16 0 = true ↔ ok = 0xFFFF := by
  simp only [lanesGood, beq_iff_eq]
  omega

theorem lanesGood_low {ok : Nat} : lanesGood ok 8 0 = true ↔ ok % 256 = 255 := by simp [lanesGood]

theorem lanesGood_high {ok : Nat} (h : ok < 2 ^ 16) : lanesGood ok 8 1 = true ↔ ok / 256 = 255 := by
  simp only [lanesGood, beq_iff_eq]
  omega

theorem widest_sixteen : widest 0xFFFF = (3, 0) := rfl

section
variable {ok : Nat} (h : ok < 2 ^ 16)
include h

theorem widest_eight_low (hne : ok ≠ 0xFFFF) (hl : ok % 256 = 255) : widest ok = (2, 0) := by
  have found : (List.range 2).find? (lanesGood ok 8) = some 0 := List.find?_range_eq_some.mpr
    ⟨lanesGood_low.mpr hl, by simp, fun j hj => absurd hj (Nat.not_lt_zero j)⟩
  rw [widest, if_neg (mt (lanesGood_sixteen h).mp hne), found]

theorem widest_eight_high (hl : ok % 256 ≠ 255) (hh : ok / 256 = 255) : widest ok = (2, 1) := by
  have found : (List.range 2).find? (lanesGood ok 8) = some 1 := List.find?_range_eq_some.mpr
    ⟨(lanesGood_high h).mpr hh, by simp, fun j hj => by
      obtain rfl : j = 0 := by omega
      simpa using mt lanesGood_low.mp hl⟩
  rw [widest, if_neg (mt (lanesGood_sixteen h).mp (by omega)), found]

/-- With neither half good the lowest good group of four serves, if there is one. -/
theorem widest_four (hl : ok % 256 ≠ 255) (hh : ok / 256 ≠ 255) :
    widest ok = ((List.range 4).find? (lanesGood ok 4)).elim (0, 0) fun g => (1, g) := by
  have halves : (List.range 2).find? (lanesGood ok 8) = none := List.find?_range_eq_none.mpr fun j hj => by
    have : j = 0 ∨ j = 1 := by omega
    rcases this with rfl | rfl
    · simpa using mt lanesGood_low.mp hl
    · simpa using mt (lanesGood_high h).mp hh
  rw [widest, if_neg (mt (lanesGood_sixteen h).mp (by omega)), halves]
  cases (List.range 4).find? (lanesGood ok 4) <;> rfl

theorem widest_four_some (hl : ok % 256 ≠ 255) (hh : ok / 256 ≠ 255) (hex : ∃ g < 4, ok / 2 ^ (4 * g) % 16 = 15) :
    ∃ g < 4, widest ok = (1, g) ∧ ok / 2 ^ (4 * g) % 16 = 15 ∧ ∀ k < g, ok / 2 ^ (4 * k) % 16 ≠ 15 := by
  obtain ⟨k, hk, good⟩ := hex
  cases found : (List.range 4).find? (lanesGood ok 4) with
  | none => exact absurd (lanesGood_four.mpr good) (by simpa using List.find?_range_eq_none.mp found k hk)
  | some g =>
    obtain ⟨hg, hmem, first⟩ := List.find?_range_eq_some.mp found
    refine ⟨g, List.mem_range.mp hmem, ?_, lanesGood_four.mp hg, fun k hk e => ?_⟩
    · rw [widest_four h hl hh, found, Option.elim_some]
    · simpa [lanesGood_four.mpr e] using first k hk

/-- A width is left exactly where a group of four good lanes is (R256, R257). -/
theorem widest_eq_zero_iff : (widest ok).1 = 0 ↔ ¬ ∃ g < 4, ok / 2 ^ (4 * g) % 16 = 15 := by
  have low (hl : ok % 256 = 255) : ok / 2 ^ (4 * 0) % 16 = 15 := by
    simp only [Nat.mul_zero, Nat.pow_zero]
    omega
  have high (hh : ok / 256 = 255) : ok / 2 ^ (4 * 2) % 16 = 15 := by
    simp only [Nat.reduceMul, Nat.reducePow]
    omega
  by_cases hex : ∃ g < 4, ok / 2 ^ (4 * g) % 16 = 15
  · suffices (widest ok).1 ≠ 0 by simpa [hex]
    by_cases hf : ok = 0xFFFF
    · rw [hf, widest_sixteen]
      decide
    by_cases hl : ok % 256 = 255
    · rw [widest_eight_low h hf hl]
      decide
    by_cases hh : ok / 256 = 255
    · rw [widest_eight_high h hl hh]
      decide
    obtain ⟨g, -, hw, -⟩ := widest_four_some h hl hh hex
    rw [hw]
    exact Nat.one_ne_zero
  · have none : (List.range 4).find? (lanesGood ok 4) = none := List.find?_range_eq_none.mpr fun g hg => by
      simpa using mt lanesGood_four.mp fun e => hex ⟨g, hg, e⟩
    rw [widest_four h (fun e => hex ⟨0, by decide, low e⟩) fun e => hex ⟨2, by decide, high e⟩, none]
    simpa using hex

end

end Sys2Proof.Machine
end

section
/-! SUPPORT. A port retrains, is lost, or comes up; a peer is severed (R254 to R260). -/

namespace Sys2Proof.Machine

theorem State.getF_modGp (s : State) (p : Nat) (f : GPort → GPort) (r : Reg) (k : Fld) : (s.modGp p f).getF r k = s.getF r k :=
  congrArg k.get (s.reg_modGp p f r)
theorem State.setF_gports (s : State) (r : Reg) (f : Fld) (v : Nat) : (s.setF r f v).gports = s.gports := by rw [setF, setReg_gports]
theorem State.setF_peers (s : State) (r : Reg) (f : Fld) (v : Nat) : (s.setF r f v).peers = s.peers := by rw [setF, setReg_peers]
theorem State.setF_failed (s : State) (r : Reg) (f : Fld) (v : Nat) : (s.setF r f v).failed = s.failed := by rw [setF, setReg_failed]
theorem State.incF_gports (s : State) (r : Reg) (f : Fld) (n : Nat) : (s.incF r f n).gports = s.gports := by rw [incF, setF_gports]

/-! A quick retrain, and the loss of a port (R254, R257, R258). -/

theorem State.quickRetrain_spec {s : State} {p : Nat} (hp : p < 7) (h : s.gpState p = 2) : let u := s.quickRetrain p
    u.gpState p = 3 ∧ (∀ f : Fld, f.lsb + f.width ≤ 60 → u.getF (GRV_STAT p) f = s.getF (GRV_STAT p) f) ∧
    u.counted s (GRV_ERR p) GRV_ERR_QRETRAIN ∧ u.gports = s.gports := by
  let a := s.setF (GRV_STAT p) GRV_STAT_STATE 3
  let b := a.incF (GRV_ERR p) GRV_ERR_QRETRAIN
  have run : s.quickRetrain p = b.logC 0x08 p 0x0C := if_pos h
  have log : (b.logC 0x08 p 0x0C).grove.1 = b.grove.1 := congrArg Prod.fst (b.logC_grove 0x08 p 0x0C [])
  have stat (f : Fld) : (s.quickRetrain p).getF (GRV_STAT p) f = a.getF (GRV_STAT p) f := by
    rw [run, State.getF_of_grove log (grvStat_ofGrove hp)]
    exact State.getF_setF_ne _ _ _ _ (grvStat_key_ne_grvErr p p)
  refine ⟨?_, fun f hf => ?_, ?_, ?_⟩
  · rw [gpState, stat, State.getF_setF_self _ _ _ _ (by decide)]
    rfl
  · rw [stat, State.getF_setF_apart _ _ _ _ _ (.inl hf)]
  · rw [counted, run, State.getF_of_grove log (grvErr_ofGrove hp), a.incF_counted _ _ (by decide),
      State.getF_setF_ne _ _ _ _ (grvErr_key_ne_grvStat p p)]
  · rw [run, State.gports_of_offRecords (b.logC_offRecords 0x08 p 0x0C []), State.incF_gports, State.setF_gports]

/-- A lost port before RESUME for it goes out over another. -/
def State.lostPort (s : State) (p : Nat) : State :=
  ((s.portShows p 4).modGp p fun x => { x with resumeFor := [p], qrFail := 0 }).refreshRoutes

/-- A control flit goes out on a port. -/
def State.sendCtl (s : State) (q : Nat) (c : CtlFlit) : State := s.modGp q fun x => { x with ctl := c :: x.ctl }

theorem State.sendCtl_gp (s : State) (q : Nat) (c : CtlFlit) (p : Nat) :
    ((s.sendCtl q c).gp p).resumeFor = (s.gp p).resumeFor ∧ ((s.sendCtl q c).gp p).buf = (s.gp p).buf :=
  Prod.mk.inj (State.gp_modGp_keeps (f := fun x => { x with ctl := c :: x.ctl }) (fun x => (x.resumeFor, x.buf)) (fun _ => rfl) s q p)

/-- RESUME for a lost port goes out over another port, if there is one. -/
theorem State.portLost_eq (s : State) (p : Nat) : s.portLost p = s.lostPort p ∨ ∃ (q : Nat) (c : CtlFlit),
    s.portLost p = (s.lostPort p).sendCtl q c := by
  unfold State.portLost
  dsimp only
  split
  · exact .inr ⟨_, _, rfl⟩
  · exact .inl rfl

theorem State.portLost_spec (s : State) {p : Nat} (hp : p < 7) : let u := s.portLost p
    u.gpState p = 4 ∧ (∀ f : Fld, f.lsb + f.width ≤ 60 → u.getF (GRV_STAT p) f = s.getF (GRV_STAT p) f) ∧
    (u.gp p).resumeFor = [p] ∧ (u.gp p).buf = (s.gp p).buf := by
  obtain ⟨state, fields, -, gports, -⟩ := s.portShows_spec hp (st := 4) (by decide)
  let a := (s.portShows p 4).modGp p fun x => { x with resumeFor := [p], qrFail := 0 }
  have stat (f : Fld) : (s.lostPort p).getF (GRV_STAT p) f = (s.portShows p 4).getF (GRV_STAT p) f := a.getF_refreshRoutes_grvStat p f
  have port : (s.lostPort p).gp p = { (s.gp p) with resumeFor := [p], qrFail := 0 } := by
    rw [lostPort, State.refreshRoutes_gp, State.gp_modGp_self, gp, gports, ← gp]
  have lost : (s.lostPort p).gpState p = 4 ∧
      (∀ f : Fld, f.lsb + f.width ≤ 60 → (s.lostPort p).getF (GRV_STAT p) f = s.getF (GRV_STAT p) f) ∧
      ((s.lostPort p).gp p).resumeFor = [p] ∧ ((s.lostPort p).gp p).buf = (s.gp p).buf :=
    ⟨(stat _).trans state, fun f hf => (stat f).trans (fields f hf), by rw [port], by rw [port]⟩
  rcases s.portLost_eq p with h | ⟨q, c, h⟩
  · rwa [h]
  · obtain ⟨state, fields, resume, buf⟩ := lost
    rw [h]
    obtain ⟨sameResume, sameBuf⟩ := (s.lostPort p).sendCtl_gp q c p
    exact ⟨(State.getF_modGp ..).trans state, fun f hf => (State.getF_modGp ..).trans (fields f hf), sameResume.trans resume, sameBuf.trans buf⟩

/-! A port in service (R251, R254, R256). -/

/-- The other ports of the bundle give back the buckets assigned to this one. -/
def State.bucketsBack (s : State) (p : Nat) : State :=
  ((s.bundle (s.gpPeer p)).filter fun q => q != p).foldl (fun u q => u.modGp q fun x => { x with
    buckets := x.buckets ^^^ (x.buckets &&& (s.gp p).buckets) }) s

/-- What a port holds as it enters service: the buckets that no port of its bundle carries besides its own, and RESUME to send (R254, R259). -/
def GPort.opened (x : GPort) (p : Nat) (free : List Nat) : GPort :=
  { x with
    buckets := free.foldl (fun a b => setBit a b true) x.buckets, cred := [], qrFail := 0, replays := 0, resumeFor := []
    ctl := .resume p x.delivered :: x.ctl }

/-- A port that has just become active, before the routes and the messages that waited for it. -/
def State.portOpen (s : State) (p : Nat) : State :=
  let u := (s.bucketsBack p).setF (GRV_STAT p) GRV_STAT_STATE 2
  u.modGp p fun x => x.opened p ((List.range 8).filter fun b => (u.bucketPort (s.gpPeer p) b).isNone)

theorem State.portUp_eq (s : State) (p : Nat) : s.portUp p = (s.portOpen p).refreshRoutes.unstall (s.gpPeer p) := rfl

theorem State.bucketsBack_grove (s : State) (p : Nat) : (s.bucketsBack p).grove = s.grove :=
  State.foldl_grove _ (fun _ _ => modGp_grove ..) _ _

theorem State.portOpen_spec (s : State) {p : Nat} (hp : p < 7) : let u := s.portOpen p
    u.gpState p = 2 ∧ (∀ f : Fld, f.lsb + f.width ≤ 60 → u.getF (GRV_STAT p) f = s.getF (GRV_STAT p) f) ∧
    (∀ m, (u.peer m).severed = (s.peer m).severed) ∧ u.failed = s.failed ∧ u.waits p = (0, []) := by
  let a := s.bucketsBack p
  have back : a.grove = s.grove := s.bucketsBack_grove p
  have peers : (s.portOpen p).peers = a.peers := by rw [portOpen, modGp, setGp, setF_peers]
  have failed : (s.portOpen p).failed = a.failed := by rw [portOpen, modGp, setGp, setF_failed]
  have stat (f : Fld) : (s.portOpen p).getF (GRV_STAT p) f = (a.setF (GRV_STAT p) GRV_STAT_STATE 2).getF (GRV_STAT p) f := State.getF_modGp ..
  refine ⟨?_, fun f hf => ?_, fun m => ?_, failed.trans (State.failed_of_grove back), ?_⟩
  · rw [gpState, stat, State.getF_setF_self _ _ _ _ (by decide)]
    rfl
  · rw [stat, State.getF_setF_apart _ _ _ _ _ (.inl hf), State.getF_of_grove (congrArg Prod.fst back) (grvStat_ofGrove hp)]
  · rw [peer, peers, ← peer, State.severed_of_grove (congrArg Prod.fst back)]
  · rw [waits, portOpen, State.gp_modGp_self, GPort.opened]

theorem State.portUp_spec (s : State) {p : Nat} (hp : p < 7) : let u := s.portUp p
    u.gpState p = 2 ∧ (∀ f : Fld, f.lsb + f.width ≤ 60 → u.getF (GRV_STAT p) f = s.getF (GRV_STAT p) f) ∧
    (∀ m, (u.peer m).severed = (s.peer m).severed) ∧ u.failed = s.failed ∧ (u.gp p).qrFail = 0 ∧ (u.gp p).resumeFor = [] := by
  obtain ⟨state, fields, peers, failed, waits⟩ := s.portOpen_spec hp
  let v := (s.portOpen p).refreshRoutes
  have sent : (s.portUp p).grove = v.grove := by rw [State.portUp_eq, State.unstall_grove]
  have stat (f : Fld) : (s.portUp p).getF (GRV_STAT p) f = (s.portOpen p).getF (GRV_STAT p) f :=
    (State.getF_of_grove (congrArg Prod.fst sent) (grvStat_ofGrove hp) f).trans ((s.portOpen p).getF_refreshRoutes_grvStat p f)
  have wait : (s.portUp p).waits p = (s.portOpen p).waits p := by
    rw [State.portUp_eq, State.unstall_waits, State.waits, State.refreshRoutes_gp, State.waits]
  obtain ⟨fails, resume⟩ := Prod.mk.inj (wait.trans waits)
  refine ⟨(stat _).trans state, fun f hf => (stat f).trans (fields f hf), fun m => ?_, ?_, fails, resume⟩
  · rw [State.severed_of_grove (congrArg Prod.fst sent), State.refreshRoutes_peer, peers]
  · rw [State.failed_of_grove sent, State.failed_of_offRegs (State.refreshRoutes_offRegs _), failed]

/-- The width a port shows is its widest good one (R256). -/
theorem State.setWidth_fields (s : State) (p : Nat) : let u := s.setWidth p
    let w := widest (s.getF (GRV_STAT p) GRV_STAT_LANEOK)
    u.getF (GRV_STAT p) GRV_STAT_WIDTH = w.1 % 4 ∧ u.getF (GRV_STAT p) GRV_STAT_GRP = w.2 % 4 ∧
    (∀ f : Fld, f.lsb + f.width ≤ 56 → u.getF (GRV_STAT p) f = s.getF (GRV_STAT p) f) ∧ u.peers = s.peers ∧ u.failed = s.failed := by
  let w := widest (s.getF (GRV_STAT p) GRV_STAT_LANEOK)
  let a := if w.1 < s.getF (GRV_STAT p) GRV_STAT_WIDTH then s.incF (GRV_ERR p) GRV_ERR_WIDTHDN else s
  have run : s.setWidth p = (a.setF (GRV_STAT p) GRV_STAT_WIDTH w.1).setF (GRV_STAT p) GRV_STAT_GRP w.2 := rfl
  have kept : (∀ f, a.getF (GRV_STAT p) f = s.getF (GRV_STAT p) f) ∧ a.peers = s.peers ∧ a.failed = s.failed := by
    unfold a
    split
    · exact ⟨fun f => State.getF_setF_ne _ _ _ _ (grvStat_key_ne_grvErr p p), s.setReg_peers .., s.setReg_failed ..⟩
    · exact ⟨fun _ => rfl, rfl, rfl⟩
  obtain ⟨fields, peers, failed⟩ := kept
  refine ⟨?_, ?_, fun f hf => ?_, ?_, ?_⟩
  · rw [run, State.getF_setF_apart _ _ _ _ _ (by decide), State.getF_setF_self _ _ _ _ (by decide)]
    rfl
  · rw [run, State.getF_setF_self _ _ _ _ (by decide)]
    rfl
  · rw [run, State.getF_setF_apart _ _ _ _ _ (.inl hf), State.getF_setF_apart _ _ _ _ _ (.inl (hf.trans (by decide))), fields]
  · rw [run, setF_peers, setF_peers, peers]
  · rw [run, setF_failed, setF_failed, failed]

/-! Severance (R260). -/

/-- A peer cut off: recorded, marked severed, the ports toward it emptied, the routes refreshed. -/
def State.cutOff (s : State) (m : Nat) : State :=
  let u := (s.log { block := 0x08, inst := ((s.bundle m).head?).getD 0, cls := 2, typ := 0x0C, detail := [4] }).setPeer m
    { Peer.reset with severed := true }
  ((u.bundle m).foldl (fun s p => s.modGp p fun x => { GPort.reset with buckets := x.buckets }) u).refreshRoutes

/-- The lines of a peer's memory are dropped and this module's requests to it end. -/
def State.severWork (s : State) (m : Nat) : State :=
  let u := s.severCanopy m
  (((u.lines.filter fun e => lineHome e.1 == m).map (·.1)).foldl (fun s l => s.dropLine l) u).severOut m

/-- The messages from a peer are dropped, and the home agent goes on without it. -/
def State.severRest (s : State) (m : Nat) : State :=
  (({ s with inb := s.inb.filter fun i => i.src != m, snpQ := s.snpQ.filter fun q => q.src != m } : State).severHome m).settleBcasts

theorem State.sever_eq {s : State} {m : Nat} (hs : (s.peer m).severed = false) (hne : m ≠ s.self) :
    s.sever m = (((s.cutOff m).severWork m).markFailed (0x20000 + m)).severRest m := by
  rw [sever, if_neg (by simp [hs, hne])]
  rfl

theorem State.severWork_grove (s : State) (m : Nat) : (s.severWork m).grove.1 = s.grove.1 := by
  rw [severWork, State.severOut_grove, State.foldl_grove _ fun _ _ => State.dropLine_grove .., State.severCanopy_grove]

theorem State.severRest_grove (s : State) (m : Nat) : (s.severRest m).grove = s.grove := by
  rw [severRest, State.settleBcasts_grove, State.severHome_grove, State.grove_with]

theorem State.getF_setPeer (s : State) (m : Nat) (x : Peer) (r : Reg) (f : Fld) : (s.setPeer m x).getF r f = s.getF r f := rfl

theorem State.cutOff_spec (s : State) {m : Nat} (hm : m < 8) (hne : m ≠ s.self) : let u := s.cutOff m
    (u.peer m).severed = true ∧ u.live m = false ∧ ∀ p < 7, ∀ f, u.getF (GRV_STAT p) f = s.getF (GRV_STAT p) f := by
  let a := s.log { block := 0x08, inst := ((s.bundle m).head?).getD 0, cls := 2, typ := 0x0C, detail := [4] }
  let b := a.setPeer m { Peer.reset with severed := true }
  let c := (b.bundle m).foldl (fun s p => s.modGp p fun x => { GPort.reset with buckets := x.buckets }) b
  have run : s.cutOff m = c.refreshRoutes := rfl
  have log : a.grove.1 = s.grove.1 := congrArg Prod.fst (s.log_grove _)
  have ports : c.grove.1 = b.grove.1 := congrArg Prod.fst (State.foldl_grove _ (fun _ _ => modGp_grove ..) _ b)
  have severed : (c.peer m).severed = true := by rw [State.severed_of_grove ports, State.peer_setPeer_self]
  have fields {q : Reg} (hq : q.ofGrove) (f : Fld) : c.getF q f = s.getF q f := by
    rw [State.getF_of_grove ports hq, State.getF_setPeer, State.getF_of_grove log hq]
  have self : c.self = s.self := fields grvGroup_ofGrove _
  refine ⟨?_, ?_, fun p hp f => ?_⟩
  · rw [run, State.refreshRoutes_peer, severed]
  · rw [run, c.live_refreshRoutes_severed hm severed (self ▸ hne)]
  · rw [run, State.getF_refreshRoutes_grvStat, fields (grvStat_ofGrove hp)]

theorem State.sever_spec {s : State} {m : Nat} (hm : m < 8) (hs : (s.peer m).severed = false) (hne : m ≠ s.self) : let u := s.sever m
    (u.peer m).severed = true ∧ u.live m = false ∧ (0x20000 + m) ∈ u.failed ∧
    ∀ p < 7, ∀ f, u.getF (GRV_STAT p) f = s.getF (GRV_STAT p) f := by
  obtain ⟨severed, live, stat⟩ := s.cutOff_spec hm hne
  let v := (s.cutOff m).severWork m
  let w := v.markFailed (0x20000 + m)
  have rest : (s.sever m).grove = w.grove := by rw [State.sever_eq hs hne, State.severRest_grove]
  have kept : (s.sever m).grove.1 = (s.cutOff m).grove.1 := by rw [rest, State.markFailed_grove, State.severWork_grove]
  refine ⟨(State.severed_of_grove kept m).trans severed, ?_, ?_, fun p hp f => ?_⟩
  · rw [State.live, State.getF_of_grove kept grvGroup_ofGrove, ← State.live, live]
  · rw [State.failed_of_grove rest]
    exact v.mem_failed_markFailed _
  · rw [State.getF_of_grove kept (grvStat_ofGrove hp), stat p hp]

/-- A peer is severed once its severance is due, whether it was before or not; the ports' registers stay. -/
theorem State.sever_severed (s : State) {m : Nat} (hm : m < 8) (hne : m ≠ s.self) : let u := s.sever m
    (u.peer m).severed = true ∧ ∀ p < 7, ∀ f, u.getF (GRV_STAT p) f = s.getF (GRV_STAT p) f := by
  cases hs : (s.peer m).severed with
  | false =>
    obtain ⟨severed, -, -, stat⟩ := State.sever_spec hm hs hne
    exact ⟨severed, stat⟩
  | true =>
    have same : s.sever m = s := by rw [sever, if_pos (by simp [hs])]
    rw [same]
    exact ⟨hs, fun _ _ _ => rfl⟩

theorem State.sever_stat (s : State) {m : Nat} (hm : m < 8) {p : Nat} (hp : p < 7) (f : Fld) :
    (s.sever m).getF (GRV_STAT p) f = s.getF (GRV_STAT p) f := by
  by_cases hne : m = s.self
  · rw [sever, if_pos (by simp [hne])]
  · exact (s.sever_severed hm hne).2 p hp f

end Sys2Proof.Machine
end

section
/-! SUPPORT. The commands of a Grove port: lanes, quick retrains, training (R254 to R257, R260). -/

namespace Sys2Proof.Machine

/-! LANE_FAIL. -/

theorem exec_laneFail_good {s : State} {p : GrovePort} {n : Fin 16} (h : s.gpState p.val = 2)
    (hn : bitOf (s.getF (GRV_STAT p.val) GRV_STAT_LANEOK) n.val = true) : let left := setBit (s.getF (GRV_STAT p.val) GRV_STAT_LANEOK) n.val false
    let u := s.setF (GRV_STAT p.val) GRV_STAT_LANEOK left
    exec (.laneFail p n) s = .next (if (widest left).1 = 0 then u.portLost p.val else u.quickRetrain p.val) := by
  intro left u
  rw [exec_laneFail, execLaneFail, if_neg (by simp [State.gpUp, h, hn])]

theorem State.getF_lt (s : State) (r : Reg) (f : Fld) : s.getF r f < 2 ^ f.width := Nat.mod_lt _ (Nat.two_pow_pos _)

/-- What a failed lane leaves of an active port (R256, R257). -/
theorem State.laneLost_spec {s : State} {p left : Nat} (hp : p < 7) (h : s.gpState p = 2) (hl : left < 2 ^ 16) :
    let u := s.setF (GRV_STAT p) GRV_STAT_LANEOK left
    let v := if (widest left).1 = 0 then u.portLost p else u.quickRetrain p
    v.getF (GRV_STAT p) GRV_STAT_LANEOK = left ∧ v.gpState p = if ∃ g < 4, left / 2 ^ (4 * g) % 16 = 15 then 3 else 4 := by
  intro u v
  have lanes : u.getF (GRV_STAT p) GRV_STAT_LANEOK = left := (State.getF_setF_self _ _ _ _ (by decide)).trans (Nat.mod_eq_of_lt hl)
  have state : u.gpState p = 2 := (State.getF_setF_apart _ _ _ _ _ (by decide)).trans h
  by_cases hw : (widest left).1 = 0
  · obtain ⟨lost, fields, -, -⟩ := u.portLost_spec hp
    have run : v = u.portLost p := if_pos hw
    rw [run, if_neg ((widest_eq_zero_iff hl).mp hw)]
    exact ⟨(fields _ (by decide)).trans lanes, lost⟩
  · obtain ⟨retrains, fields, -, -⟩ := State.quickRetrain_spec hp state
    have run : v = u.quickRetrain p := if_neg hw
    rw [run, if_pos (not_not.mp (mt (widest_eq_zero_iff hl).mpr hw))]
    exact ⟨(fields _ (by decide)).trans lanes, retrains⟩

/-! QUICK_RETRAIN_DONE. -/

section
variable {s : State} {p : GrovePort} (h : s.gpState p.val = 3) (i : PortIdent)
include h

theorem exec_quickRetrainDone_confirmed (hi : s.identOk p.val i = true) :
    exec (.quickRetrainDone p true i) s = .next ((s.setWidth p.val).portUp p.val) := by
  rw [exec_quickRetrainDone, execQuickRetrainDone, if_neg (not_not.mpr h), if_neg (by decide), if_neg (by simp [hi])]

theorem exec_quickRetrainDone_stranger (hi : s.identOk p.val i = false) :
    exec (.quickRetrainDone p true i) s = .next ((s.portShows p.val 0).refreshRoutes.sever (s.gpPeer p.val)) := by
  rw [exec_quickRetrainDone, execQuickRetrainDone, if_neg (not_not.mpr h), if_neg (by decide), if_pos hi]
  rfl

theorem exec_quickRetrainDone_again (hq : (s.gp p.val).qrFail = 0) : exec (.quickRetrainDone p false i) s =
    .next ((s.modGp p.val fun x => { x with qrFail := x.qrFail + 1 }).incF (GRV_ERR p.val) GRV_ERR_QRETRAIN) := by
  rw [exec_quickRetrainDone, execQuickRetrainDone, if_neg (not_not.mpr h), if_pos rfl, if_neg (by omega)]

theorem exec_quickRetrainDone_lost (hq : (s.gp p.val).qrFail ≠ 0) : exec (.quickRetrainDone p false i) s = .next (s.portLost p.val) := by
  rw [exec_quickRetrainDone, execQuickRetrainDone, if_neg (not_not.mpr h), if_pos rfl, if_pos (by omega)]

end

theorem State.gpPeer_lt (s : State) (p : Nat) : s.gpPeer p < 8 := Nat.mod_lt _ (Nat.two_pow_pos _)

/-- A quick retrain that has failed is counted, and the port goes on retraining (R257). -/
theorem State.retrainsAgain_spec (s : State) (p : Nat) :
    let u := (s.modGp p fun x => { x with qrFail := x.qrFail + 1 }).incF (GRV_ERR p) GRV_ERR_QRETRAIN
    u.gpState p = s.gpState p ∧ (u.gp p).qrFail = (s.gp p).qrFail + 1 ∧ u.counted s (GRV_ERR p) GRV_ERR_QRETRAIN := by
  refine ⟨?_, ?_, ?_⟩
  · rw [gpState, incF, State.getF_setF_ne _ _ _ _ (grvStat_key_ne_grvErr p p), State.getF_modGp, gpState]
  · rw [gp, State.incF_gports, ← gp, State.gp_modGp_self]
  · rw [counted, State.incF_counted _ _ _ (by decide), State.getF_modGp]

/-- A port that is down, with its state shown and its routes refreshed. -/
theorem State.down_spec (s : State) {p : Nat} (hp : p < 7) : let u := (s.portShows p 0).refreshRoutes
    u.gpState p = 0 ∧ (∀ f : Fld, f.lsb + f.width ≤ 60 → u.getF (GRV_STAT p) f = s.getF (GRV_STAT p) f) ∧
    (∀ q < 7, q ≠ p → u.gpState q = s.gpState q) ∧ u.gports = s.gports ∧ u.self = s.self := by
  obtain ⟨state, fields, others, gports, self⟩ := s.portShows_spec hp (st := 0) (by decide)
  have stat (q : Nat) (f : Fld) := (s.portShows p 0).getF_refreshRoutes_grvStat q f
  exact ⟨(stat p _).trans state, fun f hf => (stat p f).trans (fields f hf), fun q hq hne => (stat q _).trans (others q hq hne),
    (State.refreshRoutes_gports _).trans gports, (State.self_refreshRoutes _).trans self⟩

/-- A port that is down and whose peer is severed. -/
theorem State.downSevered_spec (s : State) {p m : Nat} (hp : p < 7) (hm : m < 8) : let u := (s.portShows p 0).refreshRoutes.sever m
    u.gpState p = 0 ∧ (∀ f : Fld, f.lsb + f.width ≤ 60 → u.getF (GRV_STAT p) f = s.getF (GRV_STAT p) f) ∧
    (m ≠ s.self → (u.peer m).severed = true) := by
  obtain ⟨state, fields, -, -, self⟩ := s.down_spec hp
  let a := (s.portShows p 0).refreshRoutes
  have stat (f : Fld) : (a.sever m).getF (GRV_STAT p) f = a.getF (GRV_STAT p) f := a.sever_stat hm hp f
  exact ⟨(stat _).trans state, fun f hf => (stat f).trans (fields f hf), fun hne => (a.sever_severed hm (self ▸ hne)).1⟩

/-! GROVE_PORT_TRAINED. -/

/-- The peer and the lanes that training found are shown. -/
def State.trainedAs (s : State) (p : Nat) (i : PortIdent) (l : Nat) : State :=
  ((s.setF (GRV_STAT p) GRV_STAT_PEERMOD i.modn.val).setF (GRV_STAT p) GRV_STAT_PEERPORT i.port.val).setF (GRV_STAT p) GRV_STAT_LANEOK l

/-- A peer that has trained again is severed no longer, and its paths are no failed targets (R260, R261). -/
def State.welcome (s : State) (m : Nat) : State :=
  { s.modPeer m fun x => { x with severed := false } with failed := s.failed.filter fun k => k != 0x20000 + m }

theorem State.trainedAs_fields (s : State) (p : Nat) (i : PortIdent) {l : Nat} (hl : l < 2 ^ 16) : let u := s.trainedAs p i l
    u.getF (GRV_STAT p) GRV_STAT_PEERMOD = i.modn.val ∧ u.getF (GRV_STAT p) GRV_STAT_PEERPORT = i.port.val ∧
    u.getF (GRV_STAT p) GRV_STAT_LANEOK = l := by
  have modn : i.modn.val < 2 ^ 3 := i.modn.isLt
  have port : i.port.val < 2 ^ 3 := by omega
  refine ⟨?_, ?_, ?_⟩
  · rw [trainedAs, State.getF_setF_apart _ _ _ _ _ (by decide), State.getF_setF_apart _ _ _ _ _ (by decide),
      State.getF_setF_self _ _ _ _ (by decide)]
    exact Nat.mod_eq_of_lt modn
  · rw [trainedAs, State.getF_setF_apart _ _ _ _ _ (by decide), State.getF_setF_self _ _ _ _ (by decide)]
    exact Nat.mod_eq_of_lt port
  · rw [trainedAs, State.getF_setF_self _ _ _ _ (by decide)]
    exact Nat.mod_eq_of_lt hl

theorem State.setF_active (s : State) (r : Reg) (f : Fld) (v : Nat) : (s.setF r f v).active = s.active := by rw [setF, setReg_active]

theorem State.trainedAs_active (s : State) (p : Nat) (i : PortIdent) (l : Nat) : (s.trainedAs p i l).active = s.active := by
  rw [trainedAs, setF_active, setF_active, setF_active]

theorem State.gpPeer_trainedAs (s : State) (p : Nat) (i : PortIdent) (l q : Nat) : (s.trainedAs p i l).gpPeer q = s.gpPeer q :=
  State.actF_of_active (s.trainedAs_active p i l) ..

theorem State.identOk_trainedAs (s : State) (p : Nat) (i : PortIdent) (l q : Nat) (j : PortIdent) :
    (s.trainedAs p i l).identOk q j = s.identOk q j := by
  have self : (s.trainedAs p i l).self = s.self := by rw [trainedAs, self_setF_grvStat, self_setF_grvStat, self_setF_grvStat]
  simp only [identOk, State.actF_of_active (s.trainedAs_active p i l), gpPeer_trainedAs, self, member]

theorem State.identOk_peer {s : State} {p : Nat} {i : PortIdent} (h : s.identOk p i = true) : i.modn.val = s.gpPeer p := by
  simp only [identOk, Bool.and_eq_true, beq_iff_eq] at h
  obtain ⟨⟨⟨⟨-, modn⟩, -⟩, -⟩, -⟩ := h
  exact modn

section
variable {s : State} {p : GrovePort} (h : s.gpState p.val = 1) (lanes : BitVec 16) (hw : (widest lanes.toNat).1 ≠ 0) (i : PortIdent)
include h hw

theorem exec_grovePortTrained_stranger (hi : s.identOk p.val i = false) : let u := s.trainedAs p.val i lanes.toNat
    exec (.grovePortTrained p lanes i) s =
      .next (if u.live (s.gpPeer p.val) then (u.portShows p.val 0).refreshRoutes.sever (s.gpPeer p.val)
        else (u.portShows p.val 0).refreshRoutes) := by
  intro u
  have stranger : u.identOk p.val i = false := (s.identOk_trainedAs ..).trans hi
  have peer : u.gpPeer p.val = s.gpPeer p.val := s.gpPeer_trainedAs ..
  rw [exec_grovePortTrained, execGrovePortTrained, if_neg (by simp [h, hw]), ← peer]
  exact congrArg Host.Outcome.next (if_pos stranger)

theorem exec_grovePortTrained_confirmed (hi : s.identOk p.val i = true) :
    exec (.grovePortTrained p lanes i) s = .next
      (((((s.trainedAs p.val i lanes.toNat).welcome (s.gpPeer p.val)).setF (GRV_STAT p.val) GRV_STAT_WIDTH 0).setWidth p.val).portUp p.val) := by
  have known : ¬ (s.trainedAs p.val i lanes.toNat).identOk p.val i = false := by rw [s.identOk_trainedAs, hi]; decide
  have peer : (s.trainedAs p.val i lanes.toNat).gpPeer p.val = s.gpPeer p.val := s.gpPeer_trainedAs ..
  rw [exec_grovePortTrained, execGrovePortTrained, if_neg (by simp [h, hw]), ← peer]
  exact congrArg Host.Outcome.next (if_neg known)

end

/-- A port whose peer is not the one expected: down, its peer severed if it was live (R255, R260). -/
theorem State.strangerDown_spec (s : State) {p m : Nat} (hp : p < 7) (hm : m < 8) :
    let u := if s.live m then (s.portShows p 0).refreshRoutes.sever m else (s.portShows p 0).refreshRoutes
    u.gpState p = 0 ∧ ∀ f : Fld, f.lsb + f.width ≤ 60 → u.getF (GRV_STAT p) f = s.getF (GRV_STAT p) f := by
  intro u
  by_cases hl : s.live m = true
  · obtain ⟨state, fields, -⟩ := s.downSevered_spec hp hm
    have run : u = (s.portShows p 0).refreshRoutes.sever m := if_pos hl
    exact run ▸ ⟨state, fields⟩
  · obtain ⟨state, fields, -⟩ := s.down_spec hp
    have run : u = (s.portShows p 0).refreshRoutes := if_neg hl
    exact run ▸ ⟨state, fields⟩

/-- A port that comes up with its peer confirmed (R254, R255, R256, R260). -/
theorem State.confirmed_spec (s : State) {p m : Nat} (hp : p < 7) :
    let w := widest (s.getF (GRV_STAT p) GRV_STAT_LANEOK)
    let u := (((s.welcome m).setF (GRV_STAT p) GRV_STAT_WIDTH 0).setWidth p).portUp p
    u.gpState p = 2 ∧ (∀ f : Fld, f.lsb + f.width ≤ 56 → u.getF (GRV_STAT p) f = s.getF (GRV_STAT p) f) ∧
    u.getF (GRV_STAT p) GRV_STAT_WIDTH = w.1 % 4 ∧ u.getF (GRV_STAT p) GRV_STAT_GRP = w.2 % 4 ∧
    (u.peer m).severed = false ∧ (0x20000 + m) ∉ u.failed := by
  let a := (s.welcome m).setF (GRV_STAT p) GRV_STAT_WIDTH 0
  have before (f : Fld) (hf : f.lsb + f.width ≤ 56) : a.getF (GRV_STAT p) f = s.getF (GRV_STAT p) f :=
    State.getF_setF_apart _ _ _ _ _ (.inl (hf.trans (by decide)))
  obtain ⟨width, grp, fields, peers, failed⟩ := a.setWidth_fields p
  obtain ⟨state, kept, severed, marks, -, -⟩ := (a.setWidth p).portUp_spec hp
  rw [before _ (by decide)] at width grp
  have welcomed : ((a.setWidth p).peer m).severed = false := by
    rw [peer, peers, State.setF_peers]
    exact congrArg Peer.severed (State.peer_setPeer_self s m _)
  have cleared : (0x20000 + m) ∉ (a.setWidth p).failed := by
    rw [failed, State.setF_failed, welcome]
    simp
  refine ⟨state, fun f hf => ?_, (kept _ (by decide)).trans width, (kept _ (by decide)).trans grp, (severed m).trans welcomed, marks ▸ cleared⟩
  rw [kept f (hf.trans (by decide)), fields f hf, before f hf]

/-- The widest good width as the port shows it, lower group first (R256). -/
theorem widest_shown {l : Nat} (hl : l < 2 ^ 16) (hex : ∃ g < 4, l / 2 ^ (4 * g) % 16 = 15) :
    let w := (widest l).1 % 4
    let g := (widest l).2 % 4
    (l = 0xFFFF → w = 3 ∧ g = 0) ∧
    (l ≠ 0xFFFF → l % 256 = 255 → w = 2 ∧ g = 0) ∧ (l ≠ 0xFFFF → l % 256 ≠ 255 → l / 256 = 255 → w = 2 ∧ g = 1) ∧
    (l % 256 ≠ 255 → l / 256 ≠ 255 → w = 1 ∧ l / 2 ^ (4 * g) % 16 = 15 ∧ ∀ k < g, l / 2 ^ (4 * k) % 16 ≠ 15) := by
  refine ⟨fun h => ?_, fun h low => ?_, fun _ low high => ?_, fun low high => ?_⟩
  · rw [h, widest_sixteen]
    decide
  · rw [widest_eight_low hl h low]
    decide
  · rw [widest_eight_high hl low high]
    decide
  · obtain ⟨g, hg, hw, good, first⟩ := widest_four_some hl low high hex
    rw [hw, Nat.mod_eq_of_lt hg]
    exact ⟨rfl, good, first⟩

end Sys2Proof.Machine
end

section
/-! PROOF. O37: the states of a Grove port. -/

namespace Sys2Proof.Machine

/-- Settles O37, command by command: timeouts, lanes, quick retrains, training, severance. -/
theorem grovePortStates : Obligations.GrovePortStates := by
  refine ⟨fun p s => ⟨fun h => ?_, fun h => ?_, fun h => ?_, fun h => ?_, fun h => ?_, fun h => ?_⟩,
    fun p n s => ⟨fun h => ?_, fun h hn => ?_⟩,
    fun p ok i s => ⟨fun h => ?_, fun h hok hi => ?_, fun h hok hi hne => ?_, fun h hok hq => ?_, fun h hok hq => ?_⟩,
    fun p lanes i s h => ?_, fun m s hm hd hr hs hne => ?_⟩
  · -- FLIT_TIMEOUT of an active port (R254, R257)
    obtain ⟨state, -, counted, gports⟩ := State.quickRetrain_spec p.isLt h
    exact ⟨_, exec_flitTimeout p s, state, counted, gports⟩
  · -- FLIT_TIMEOUT of another port
    rw [exec_flitTimeout, execFlitTimeout, State.quickRetrain, if_neg h]
  · -- QUICK_RETRAIN_TIMEOUT of a port that retrains (R257, R258)
    obtain ⟨state, -, resume, buf⟩ := s.portLost_spec p.isLt
    exact ⟨_, by rw [exec_quickRetrainTimeout, execQuickRetrainTimeout, if_pos h], state, resume, buf⟩
  · -- QUICK_RETRAIN_TIMEOUT of another port
    rw [exec_quickRetrainTimeout, execQuickRetrainTimeout, if_neg h]
  · -- GROVE_TRAIN_TIMEOUT of a training port (R64)
    obtain ⟨state, -, others, gports, -⟩ := s.down_spec p.isLt
    exact ⟨_, by rw [exec_groveTrainTimeout, execGroveTrainTimeout, if_pos h]; rfl, state, gports, others⟩
  · -- GROVE_TRAIN_TIMEOUT of another port
    rw [exec_groveTrainTimeout, execGroveTrainTimeout, if_neg h]
  · -- LANE_FAIL of a lane that has failed
    rw [exec_laneFail, execLaneFail, if_pos (.inr h)]
  · -- LANE_FAIL of a good lane of an active port (R256, R257)
    have less : setBit (s.getF (GRV_STAT p.val) GRV_STAT_LANEOK) n.val false < 2 ^ 16 :=
      lt_of_le_of_lt (setBit_false_le ..) (s.getF_lt (GRV_STAT p.val) GRV_STAT_LANEOK)
    exact ⟨_, exec_laneFail_good h hn, State.laneLost_spec p.isLt h less⟩
  · -- QUICK_RETRAIN_DONE of another port
    rw [exec_quickRetrainDone, execQuickRetrainDone, if_pos h]
  · -- the identity confirmed (R254, R255)
    subst hok
    obtain ⟨state, -, -, -, fails, resume⟩ := (s.setWidth p.val).portUp_spec p.isLt
    exact ⟨_, exec_quickRetrainDone_confirmed h i hi, state, fails, resume⟩
  · -- a peer of another identity (R255, R260)
    subst hok
    obtain ⟨state, -, severed⟩ := s.downSevered_spec p.isLt (s.gpPeer_lt p.val)
    exact ⟨_, exec_quickRetrainDone_stranger h i hi, state, severed hne⟩
  · -- the first failure in succession (R257)
    subst hok
    obtain ⟨state, fails, counted⟩ := s.retrainsAgain_spec p.val
    exact ⟨_, exec_quickRetrainDone_again h i hq, state.trans h, by rw [fails, hq], counted⟩
  · -- the second failure in succession (R257)
    subst hok
    exact ⟨_, exec_quickRetrainDone_lost h i hq, (s.portLost_spec p.isLt).1⟩
  · -- GROVE_PORT_TRAINED with a group of four good lanes (R254 to R256, R260)
    intro l hex
    have wide : (widest lanes.toNat).1 ≠ 0 := fun e => (widest_eq_zero_iff lanes.isLt).mp e hex
    obtain ⟨modn, port, laneok⟩ := s.trainedAs_fields p.val i lanes.isLt
    let a := s.trainedAs p.val i lanes.toNat
    cases hi : s.identOk p.val i with
    | false =>
      obtain ⟨state, fields⟩ := a.strangerDown_spec p.isLt (s.gpPeer_lt p.val)
      exact ⟨_, exec_grovePortTrained_stranger h lanes wide i hi, (fields _ (by decide)).trans modn, (fields _ (by decide)).trans port,
        (fields _ (by decide)).trans laneok, fun _ => state, nofun⟩
    | true =>
      obtain ⟨state, fields, width, grp, severed, marks⟩ := a.confirmed_spec (m := s.gpPeer p.val) p.isLt
      refine ⟨_, exec_grovePortTrained_confirmed h lanes wide i hi, (fields _ (by decide)).trans modn, (fields _ (by decide)).trans port,
        (fields _ (by decide)).trans laneok, nofun, fun _ => ?_⟩
      rw [State.identOk_peer hi, width, grp, laneok]
      exact ⟨state, severed, marks, widest_shown lanes.isLt hex⟩
  · -- SEVERANCE_TIMEOUT of a member without a path (R260)
    obtain ⟨severed, live, failed, -⟩ := State.sever_spec m.isLt hs hne
    exact ⟨_, by rw [exec_severanceTimeout, execSeveranceTimeout, if_pos ⟨hm, hd, hr⟩], severed, live, failed⟩

end Sys2Proof.Machine
end

section
/-! SUPPORT. Decoding the words that the encoder makes, format by format (R71). -/

open Sys2Proof

namespace Sys2Proof.Machine

@[simp] theorem gOf_val (r : GReg) : gOf r.val = r := Fin.ofNat_val_eq_self r
@[simp] theorem fOf_val (r : FReg) : fOf r.val = r := Fin.ofNat_val_eq_self r
@[simp] theorem gOf_zero : gOf 0 = 0 := rfl

section
variable (t : Thr)

/-! Each format's row, by its fields. -/

theorem rowOf_encOpr (w : Bool) (rd ra rb : GReg) {fn : Nat} (hf : fn < 1024) :
    rowOf t (encOpr w rd.val ra.val rb.val fn) = oprOf t w rd ra rb fn := by
  have hb : b2n w * 1024 + fn < 2048 := by cases w <;> simp [b2n] <;> omega
  have hw : bitOf (encR 0x01 rd.val ra.val rb.val (b2n w * 1024 + fn)) 10 = w := by
    cases w <;> simp [bitOf, encR, b2n] <;> omega
  have hm : (b2n w * 1024 + fn) % 1024 = fn := by omega
  unfold encOpr
  simp (disch := omega) only [rowOf, encR_op, encR_x, encR_y, encR_z, encR_fn, hw, hm, gOf_val]

theorem ofNat_encI (op rd ra : Nat) (imm : BitVec 16) : BitVec.ofNat 16 (encI op rd ra imm.toNat) = imm := by
  apply BitVec.eq_of_toNat_eq
  simp only [BitVec.toNat_ofNat, encI]; omega

theorem ofNat_encJ (op : Nat) (disp : BitVec 26) : BitVec.ofNat 26 (encJ op disp.toNat) = disp := by
  apply BitVec.eq_of_toNat_eq
  simp only [BitVec.toNat_ofNat, encJ]; omega

/-- The number of a state register stands in the low bits of its word (R98). -/
theorem ofNat_encI_sr (op rd ra : Nat) (n : BitVec 12) : BitVec.ofNat 12 (encI op rd ra n.toNat) = n := by
  apply BitVec.eq_of_toNat_eq
  simp only [BitVec.toNat_ofNat, encI]; omega

theorem rowOf_encShi (rd ra : GReg) (sh : BitVec 6) {kind : Nat} (hk : kind < 8) :
    rowOf t (encShi kind rd.val ra.val sh.toNat) = shiOf t rd ra sh kind := by
  have hs : BitVec.ofNat 6 (encI 0x0B rd.val ra.val (kind * 256 + sh.toNat)) = sh := by
    apply BitVec.eq_of_toNat_eq
    simp only [BitVec.toNat_ofNat, encI]; omega
  have hkind : bitsOf (encI 0x0B rd.val ra.val (kind * 256 + sh.toNat)) 10 8 = kind := by
    simp only [bitsOf, encI]; norm_num; omega
  unfold encShi
  simp (disch := omega) only [rowOf, encI_op, encI_x, encI_y, hs, hkind, gOf_val]

section
variable {rd ra rb fn : Nat} (hd : rd < 32) (ha : ra < 32) (hb : rb < 32) (hf : fn < 2048)
include hd ha hb hf

theorem rowOf_atom : rowOf t (encR 0x23 rd ra rb fn) = atomOf t (gOf rd) (gOf ra) (gOf rb) fn := by
  simp (disch := omega) only [rowOf, encR_op, encR_x, encR_y, encR_z, encR_fn]

theorem rowOf_cmaint : rowOf t (encR 0x24 rd ra rb fn) = cmaintOf t (gOf ra) fn := by
  simp (disch := omega) only [rowOf, encR_op, encR_y, encR_fn]

theorem rowOf_sys : rowOf t (encR 0x38 rd ra rb fn) = sysOf t fn := by
  simp (disch := omega) only [rowOf, encR_op, encR_fn]

theorem rowOf_mmu : rowOf t (encR 0x3B rd ra rb fn) = mmuOf t (gOf rd) (gOf ra) (gOf rb) fn := by
  simp (disch := omega) only [rowOf, encR_op, encR_x, encR_y, encR_z, encR_fn]

end

theorem rowOf_encF {fd fa fb fn : Nat} (fmt : BitVec 2) (rm : BitVec 3) (hd : fd < 32) (ha : fa < 32) (hb : fb < 32) (hf : fn < 64) :
    rowOf t (encF fd fa fb fmt.toNat rm.toNat fn) = fprOf t fd fa fb fmt rm fn := by
  simp (disch := omega) only [rowOf, encF_op, encF_x, encF_y, encF_z, encF_fmt, encF_rm, encF_fn, BitVec.ofNat_toNat, BitVec.setWidth_eq]

/-- A row without an rm field encodes zero there (R90). -/
theorem rowOf_encF_noRm {fd fa fb fn : Nat} (fmt : BitVec 2) (hd : fd < 32) (ha : fa < 32) (hb : fb < 32) (hf : fn < 64) :
    rowOf t (encF fd fa fb fmt.toNat 0 fn) = fprOf t fd fa fb fmt 0 fn := rowOf_encF t fmt 0 hd ha hb hf

theorem rowOf_fused (fmt : BitVec 2) (rm : BitVec 3) (fd fa fb fc : FReg) :
    rowOf t (encF4 0x31 fd.val fa.val fb.val fc.val fmt.toNat rm.toNat) = some (.fmadd t fmt rm fd fa fb fc) ∧
    rowOf t (encF4 0x32 fd.val fa.val fb.val fc.val fmt.toNat rm.toNat) = some (.fmsub t fmt rm fd fa fb fc) ∧
    rowOf t (encF4 0x33 fd.val fa.val fb.val fc.val fmt.toNat rm.toNat) = some (.fnmadd t fmt rm fd fa fb fc) ∧
    rowOf t (encF4 0x34 fd.val fa.val fb.val fc.val fmt.toNat rm.toNat) = some (.fnmsub t fmt rm fd fa fb fc) := by
  refine ⟨?_, ?_, ?_, ?_⟩ <;>
    simp (disch := omega) only [rowOf, encF4_op, encF4_x, encF4_y, encF4_z, encF4_c, encF4_fmt, encF4_rm, fOf_val, BitVec.ofNat_toNat,
      BitVec.setWidth_eq]

theorem rowOf_long (rd ra rb : GReg) :
    rowOf t (encR 0x35 rd.val ra.val 0 0x000) = some (.mvl t rd ra) ∧
    rowOf t (encR 0x35 rd.val ra.val rb.val 0x001) = some (.cml t rd ra rb) ∧
    rowOf t (encR 0x35 rd.val ra.val 0 0x002) = some (.fll t rd ra) := by
  refine ⟨?_, ?_, ?_⟩ <;> simp (disch := omega) only [rowOf, encR_op, encR_x, encR_y, encR_z, encR_fn, gOf_val]

theorem rowOf_dec (rd ra rb : GReg) (l1 l2 : BitVec 4) :
    rowOf t (encD ra.val rb.val rd.val l1.toNat l2.toNat 0) = some (.dadd t rd ra rb l1 l2) ∧
    rowOf t (encD ra.val rb.val rd.val l1.toNat l2.toNat 1) = some (.dsub t rd ra rb l1 l2) ∧
    rowOf t (encD ra.val rb.val rd.val l1.toNat l2.toNat 2) = some (.dcmp t rd ra rb l1 l2) ∧
    rowOf t (encD ra.val 0 rd.val l1.toNat 0 3) = some (.dval t rd ra l1) := by
  refine ⟨?_, ?_, ?_, ?_⟩ <;>
    simp (disch := omega) only [rowOf, encD_op, encD_x, encD_y, encD_z, encD_l1, encD_l2, encD_fn, gOf_val, BitVec.ofNat_toNat,
      BitVec.setWidth_eq]

/-- The instruction a row of AIS encodes is the one its word decodes to (R71, R72). -/
theorem rowOf_aisWord {i : Instr} {w : Nat} (h : aisWord i = some (t, w)) : rowOf t w = some i := by
  cases i
  all_goals simp only [aisWord, reduceCtorEq, Option.some.injEq, Prod.mk.injEq] at h
  all_goals obtain ⟨rfl, rfl⟩ := h
  case add | sub | and | or | xor | andn | orn | xnor | sll | srl | sra | ror | slt | sltu | min | max | minu | maxu | mul | mulh | mulhu |
      mulhsu | div | divu | rem | remu | cmovz | cmovnz | crc32cb | crc32cd =>
    exact rowOf_encOpr _ _ _ _ _ (by decide)
  case clz | ctz | popc | bswap | sextb | sexth | zextw | jalr => exact rowOf_encOpr _ _ _ _ 0 (by decide)
  case slli | srli | srai | rori | slliw | srliw | sraiw => exact rowOf_encShi _ _ _ _ (by decide)
  case addi | andi | ori | xori | slti | sltiu | oris | addiw | lui | addpc | beq | bne | blt | bge | bltu | bgeu | lb | lbu | lh | lhu |
      lw | lwu | ld | ldq | sb | sh | sw | sd | stq | flw | fld | flq | fsw | fsd | fsq | svc =>
    simp (disch := omega) only [rowOf, encI_op, encI_x, encI_y, ofNat_encI, gOf_val, fOf_val]
  case mfs | mts => simp (disch := omega) only [rowOf, encI_op, encI_x, encI_y, ofNat_encI_sr, gOf_val]
  case j | jal => simp (disch := omega) only [rowOf, encJ_op, ofNat_encJ]
  case lrsv | stcd | casd | casq | aadd | swpd | aand | aor => simp (disch := omega) only [rowOf_atom, gOf_val, atomOf]
  case clwb | clflush | clinv | clzero | prefr | prefw | icinv => simp (disch := omega) only [rowOf_cmaint, gOf_val, cmaintOf]
  case sync | drain | fbar | synci | retl | wait | brk | pause => exact rowOf_sys _ (by decide) (by decide) (by decide) (by decide)
  case tlbwr | twalk | tlbiVa | tlbiVaB | wciVa | wciVaB | tlbiTag | tlbiTagB | wciTag | wciTagB | tlbiAll | tlbiAllB | wciAll | wciAllB =>
    simp (disch := omega) only [rowOf_mmu, gOf_val, mmuOf]
  case fadd | fsub | fmul | fdiv | fsqrt | frint | fcvt | fcvtis | fcvtiu | fcvtsi | fcvtui =>
    simp (disch := omega) only [rowOf_encF, fprOf, gOf_val, fOf_val, BitVec.ofNat_toNat, BitVec.setWidth_eq]
  case fmin | fmax | fminn | fmaxn | fneg | fabs | fcpys | fceq | fclt | fcle | fcun | fclass | fmvgf | fmvfg =>
    simp (disch := omega) only [rowOf_encF_noRm, fprOf, gOf_val, fOf_val]
  case fmadd => exact (rowOf_fused ..).1
  case fmsub => exact (rowOf_fused ..).2.1
  case fnmadd => exact (rowOf_fused ..).2.2.1
  case fnmsub => exact (rowOf_fused ..).2.2.2
  case mvl => exact (rowOf_long _ _ _ 0).1
  case cml => exact (rowOf_long ..).2.1
  case fll => exact (rowOf_long _ _ _ 0).2.2
  case dadd => exact (rowOf_dec ..).1
  case dsub => exact (rowOf_dec ..).2.1
  case dcmp => exact (rowOf_dec ..).2.2.1
  case dval => exact (rowOf_dec _ _ _ 0 _ 0).2.2.2

end

end Sys2Proof.Machine
end

section
/-! PROOF. O58: every instruction decodes from its own word, and a legal word encodes what it decodes to (R70 to R72). -/

open Sys2Proof

namespace Sys2Proof.Machine

/-! A word is put together again from its fields. -/

theorem gOf_bitsOf (w hi lo : Nat) (h : hi + 1 - lo = 5) : (gOf (bitsOf w hi lo)).val = bitsOf w hi lo := by
  have : bitsOf w hi lo < 32 := by unfold bitsOf; rw [h]; omega
  simp [gOf]; omega
theorem fOf_bitsOf (w hi lo : Nat) (h : hi + 1 - lo = 5) : (fOf (bitsOf w hi lo)).val = bitsOf w hi lo := gOf_bitsOf w hi lo h

section
variable {w op : Nat} (hw : w < 2 ^ 32) (hop : bitsOf w 31 26 = op)
include hw hop

theorem encR_bitsOf {fn : Nat} (hfn : bitsOf w 10 0 = fn) : encR op (bitsOf w 25 21) (bitsOf w 20 16) (bitsOf w 15 11) fn = w := by
  subst hop hfn; unfold encR bitsOf; norm_num; omega

theorem encR_gOf {fn : Nat} (hfn : bitsOf w 10 0 = fn) :
    encR op (gOf (bitsOf w 25 21)).val (gOf (bitsOf w 20 16)).val (gOf (bitsOf w 15 11)).val fn = w := by
  rw [gOf_bitsOf w 25 21 rfl, gOf_bitsOf w 20 16 rfl, gOf_bitsOf w 15 11 rfl, encR_bitsOf hw hop hfn]

theorem encI_gOf : encI op (gOf (bitsOf w 25 21)).val (gOf (bitsOf w 20 16)).val (BitVec.ofNat 16 w).toNat = w := by
  rw [gOf_bitsOf w 25 21 rfl, gOf_bitsOf w 20 16 rfl]
  subst hop; unfold encI bitsOf; norm_num; omega

theorem encI_sr (h : bitsOf w 15 12 = 0) :
    encI op (gOf (bitsOf w 25 21)).val (gOf (bitsOf w 20 16)).val (BitVec.ofNat 12 w).toNat = w := by
  rw [gOf_bitsOf w 25 21 rfl, gOf_bitsOf w 20 16 rfl]
  subst hop; unfold encI bitsOf at *; norm_num at *; omega

theorem encJ_bitsOf : encJ op (BitVec.ofNat 26 w).toNat = w := by
  subst hop; unfold encJ bitsOf; norm_num; omega

end

/-- A decoded row whose word is `w`. -/
def Encodes (t : Thr) (w : Nat) (o : Option Instr) : Prop := ∃ i, o = some i ∧ aisWord i = some (t, w)

section
variable {t : Thr} {w : Nat}

theorem encodes_some {i : Instr} {v : Nat} (h : aisWord i = some (t, v)) (hv : v = w) : Encodes t w (some i) := ⟨i, rfl, hv ▸ h⟩

/-- A legal OPR row that does not take W has bit 10 zero (R75). -/
theorem legalOpr_noW {rb fn f : Nat} (h : legalOpr rb fn = true) (hf : fn % 1024 = f) (hn : oprW.contains f = false) : fn < 1024 := by
  simp only [legalOpr, hf, hn, Bool.false_or, Bool.and_eq_true, decide_eq_true_eq] at h
  exact h.1.2

/-- A legal unary OPR row has rb zero (R75). -/
theorem legalOpr_unary {rb fn f : Nat} (h : legalOpr rb fn = true) (hf : fn % 1024 = f) (hu : oprUnary.contains f = true) : rb = 0 := by
  simp only [legalOpr, hf, hu, Bool.not_true, Bool.false_or, Bool.and_eq_true, beq_iff_eq] at h
  exact h.2

section
variable (hw : w < 2 ^ 32)
include hw

section
variable (hop : bitsOf w 31 26 = 0x01)
include hop

theorem encOpr_bitsOf {f : Nat} (hf : bitsOf w 10 0 % 1024 = f) :
    encOpr (bitOf w 10) (gOf (bitsOf w 25 21)).val (gOf (bitsOf w 20 16)).val (gOf (bitsOf w 15 11)).val f = w := by
  simp only [gOf_bitsOf w 25 21 rfl, gOf_bitsOf w 20 16 rfl, gOf_bitsOf w 15 11 rfl]
  refine encR_bitsOf hw hop ?_
  subst hf
  unfold b2n bitOf bitsOf
  split <;> simp_all <;> omega

omit hw hop in
theorem bitOf_ten_of_lt (hf : bitsOf w 10 0 < 1024) : bitOf w 10 = false := by
  unfold bitsOf at hf; unfold bitOf
  simp at *; omega

theorem encodes_opr (hl : legalOpr (bitsOf w 15 11) (bitsOf w 10 0) = true) :
    Encodes t w (oprOf t (bitOf w 10) (gOf (bitsOf w 25 21)) (gOf (bitsOf w 20 16)) (gOf (bitsOf w 15 11)) (bitsOf w 10 0 % 1024)) := by
  have full {f : Nat} (hf : bitsOf w 10 0 % 1024 = f) := encOpr_bitsOf hw hop hf
  have low {f : Nat} (hf : bitsOf w 10 0 % 1024 = f) (hn : oprW.contains f = false) := bitOf_ten_of_lt (legalOpr_noW hl hf hn)
  have un {f : Nat} (hf : bitsOf w 10 0 % 1024 = f) (hu : oprUnary.contains f = true) : gOf (bitsOf w 15 11) = 0 := by
    rw [legalOpr_unary hl hf hu]; rfl
  unfold oprOf
  split
  case h_1 h | h_2 h | h_9 h | h_10 h | h_11 h | h_12 h | h_21 h | h_25 h | h_26 h | h_27 h | h_28 h =>
    exact encodes_some rfl (full h)
  case h_29 h | h_30 h | h_31 h =>
    have hz := full h
    rw [un h (by decide)] at hz
    exact encodes_some rfl hz
  case h_32 h | h_33 h | h_34 h | h_35 h | h_36 h =>
    have hz := full h
    rw [un h (by decide), low h (by decide)] at hz
    exact encodes_some rfl hz
  case h_39 =>
    simp_all [legalOpr, oprW, oprNoW]
  all_goals
    rename_i h
    have hz := full h
    rw [low h (by decide)] at hz
    exact encodes_some rfl hz
end

/-- A SHI row (R78). -/
theorem encShi_bitsOf (hop : bitsOf w 31 26 = 0x0B) (hl : legalShi (bitsOf w 15 0) = true) {kind : Nat} (hk : bitsOf w 10 8 = kind) :
    encShi kind (gOf (bitsOf w 25 21)).val (gOf (bitsOf w 20 16)).val (BitVec.ofNat 6 w).toNat = w := by
  simp only [legalShi, Bool.and_eq_true, beq_iff_eq] at hl
  obtain ⟨⟨⟨h15, h7⟩, -⟩, -⟩ := hl
  rw [gOf_bitsOf w 25 21 rfl, gOf_bitsOf w 20 16 rfl, encShi, encI]
  subst hk
  simp only [bitsOf, BitVec.toNat_ofNat] at *
  norm_num at *
  omega

theorem encodes_shi (hop : bitsOf w 31 26 = 0x0B) (hl : legalShi (bitsOf w 15 0) = true) :
    Encodes t w (shiOf t (gOf (bitsOf w 25 21)) (gOf (bitsOf w 20 16)) (BitVec.ofNat 6 w) (bitsOf w 10 8)) := by
  have word {kind : Nat} (hk : bitsOf w 10 8 = kind) := encShi_bitsOf hw hop hl hk
  unfold shiOf
  split
  case h_8 =>
    have h8 : bitsOf w 10 8 = bitsOf (bitsOf w 15 0) 10 8 := by simp only [bitsOf]; norm_num; omega
    have h7 : bitsOf w 10 8 < 8 := by simp only [bitsOf]; norm_num; omega
    simp_all [legalShi]
    omega
  all_goals
    rename_i h
    exact encodes_some rfl (word h)

theorem encodes_atom (hop : bitsOf w 31 26 = 0x23) (hl : legalWord w = true) :
    Encodes t w (atomOf t (gOf (bitsOf w 25 21)) (gOf (bitsOf w 20 16)) (gOf (bitsOf w 15 11)) (bitsOf w 10 0)) := by
  have word {fn : Nat} (hf : bitsOf w 10 0 = fn) := encR_gOf hw hop hf
  simp only [legalWord, hop] at hl
  unfold atomOf
  split
  case h_1 h =>
    have hz : bitsOf w 15 11 = 0 := by simpa [h] using hl
    have hv := word h
    rw [hz] at hv
    exact encodes_some rfl hv
  case h_9 => simp_all; omega
  all_goals
    rename_i h
    exact encodes_some rfl (word h)

theorem encodes_cmaint (hop : bitsOf w 31 26 = 0x24) (hl : legalWord w = true) :
    Encodes t w (cmaintOf t (gOf (bitsOf w 20 16)) (bitsOf w 10 0)) := by
  have word {fn : Nat} (hf : bitsOf w 10 0 = fn) := encR_gOf hw hop hf
  simp only [legalWord, hop, Bool.and_eq_true, beq_iff_eq, decide_eq_true_eq] at hl
  obtain ⟨⟨hfn, hx⟩, hz⟩ := hl
  rw [hx, hz] at word
  unfold cmaintOf
  split
  case h_8 => simp_all; omega
  all_goals
    rename_i h
    exact encodes_some rfl (word h)

theorem encodes_sys (hop : bitsOf w 31 26 = 0x38) (hl : legalWord w = true) : Encodes t w (sysOf t (bitsOf w 10 0)) := by
  have word {fn : Nat} (hf : bitsOf w 10 0 = fn) := encR_gOf hw hop hf
  simp only [legalWord, hop, Bool.and_eq_true, beq_iff_eq] at hl
  obtain ⟨⟨⟨hx, hy⟩, hz⟩, hfn⟩ := hl
  rw [hx, hy, hz] at word
  unfold sysOf
  split
  case h_9 => simp_all [sysFns]
  all_goals
    rename_i h
    exact encodes_some rfl (word h)

theorem encodes_mmu (hop : bitsOf w 31 26 = 0x3B) (hl : legalWord w = true) :
    Encodes t w (mmuOf t (gOf (bitsOf w 25 21)) (gOf (bitsOf w 20 16)) (gOf (bitsOf w 15 11)) (bitsOf w 10 0)) := by
  have word {fn : Nat} (hf : bitsOf w 10 0 = fn) := encR_gOf hw hop hf
  simp only [legalWord, hop, legalMmu] at hl
  unfold mmuOf
  split
  case h_2 h => exact encodes_some rfl (word h)
  case h_15 => simp_all
  case h_1 h | h_3 h | h_4 h | h_5 h | h_6 h =>
    have hx : bitsOf w 25 21 = 0 := by simpa [h] using hl
    have hv := word h
    rw [hx] at hv
    exact encodes_some rfl hv
  case h_7 h | h_8 h | h_9 h | h_10 h =>
    have hxy : bitsOf w 25 21 = 0 ∧ bitsOf w 20 16 = 0 := by simpa [h] using hl
    have hv := word h
    rw [hxy.1, hxy.2] at hv
    exact encodes_some rfl hv
  case h_11 h | h_12 h | h_13 h | h_14 h =>
    have hxyz : (bitsOf w 25 21 = 0 ∧ bitsOf w 20 16 = 0) ∧ bitsOf w 15 11 = 0 := by simpa [h] using hl
    have hv := word h
    rw [hxyz.1.1, hxyz.1.2, hxyz.2] at hv
    exact encodes_some rfl hv

/-! Floating-point rows (R90 to R92). -/

omit hw in
/-- Rows without rounding have rm zero (R90). -/
theorem legalFpr_noRm {fd fa fb fmt rm fn : Nat} (h : legalFpr fd fa fb fmt rm fn = true)
    (hf : 5 ≤ fn ∧ fn ≤ 0x10 ∨ 0x17 ≤ fn) : rm = 0 := by
  have h3 : ¬ fn ≤ 3 := by omega
  have h4 : fn ≠ 4 := by omega
  have h11 : fn ≠ 0x11 := by omega
  have h12 : fn ≠ 0x12 := by omega
  have h14 : fn ≤ 0x14 → fn ≤ 0x10 := by omega
  have h16 : fn ≤ 0x16 → fn ≤ 0x10 := by omega
  unfold legalFpr at h
  split_ifs at h <;> simp_all <;> omega

omit hw in
/-- Rows of one source have fb zero (R90). -/
theorem legalFpr_unary {fd fa fb fmt rm fn : Nat} (h : legalFpr fd fa fb fmt rm fn = true)
    (hf : fn ∈ [0x04, 0x09, 0x0A, 0x10, 0x11, 0x13, 0x14, 0x15, 0x16, 0x17, 0x18]) : fb = 0 := by
  simp only [List.mem_cons, List.not_mem_nil, or_false] at hf
  rcases hf with rfl | rfl | rfl | rfl | rfl | rfl | rfl | rfl | rfl | rfl | rfl <;> simp_all [legalFpr]

theorem encF_bitsOf (hop : bitsOf w 31 26 = 0x30) {fn : Nat} (hf : bitsOf w 5 0 = fn) :
    encF (fOf (bitsOf w 25 21)).val (fOf (bitsOf w 20 16)).val (fOf (bitsOf w 15 11)).val (BitVec.ofNat 2 (bitsOf w 10 9)).toNat
      (BitVec.ofNat 3 (bitsOf w 8 6)).toNat fn = w := by
  rw [fOf_bitsOf w 25 21 rfl, fOf_bitsOf w 20 16 rfl, fOf_bitsOf w 15 11 rfl]
  subst hf
  unfold encF bitsOf at *; norm_num at *; omega

theorem encF4_bitsOf {op : Nat} (hop : bitsOf w 31 26 = op) (h0 : bitsOf w 0 0 = 0) :
    encF4 op (fOf (bitsOf w 25 21)).val (fOf (bitsOf w 20 16)).val (fOf (bitsOf w 15 11)).val (fOf (bitsOf w 10 6)).val
      (BitVec.ofNat 2 (bitsOf w 5 4)).toNat (BitVec.ofNat 3 (bitsOf w 3 1)).toNat = w := by
  subst hop
  rw [fOf_bitsOf w 25 21 rfl, fOf_bitsOf w 20 16 rfl, fOf_bitsOf w 15 11 rfl, fOf_bitsOf w 10 6 rfl]
  unfold encF4 bitsOf at *; norm_num at *; omega

theorem encodes_fpr (hop : bitsOf w 31 26 = 0x30)
    (hl : legalFpr (bitsOf w 25 21) (bitsOf w 20 16) (bitsOf w 15 11) (bitsOf w 10 9) (bitsOf w 8 6) (bitsOf w 5 0) = true) :
    Encodes t w (fprOf t (bitsOf w 25 21) (bitsOf w 20 16) (bitsOf w 15 11) (BitVec.ofNat 2 (bitsOf w 10 9))
      (BitVec.ofNat 3 (bitsOf w 8 6)) (bitsOf w 5 0)) := by
  have word {fn : Nat} (hf : bitsOf w 5 0 = fn) := encF_bitsOf hw hop hf
  have noRm {fn : Nat} (hf : bitsOf w 5 0 = fn) (h : 5 ≤ fn ∧ fn ≤ 0x10 ∨ 0x17 ≤ fn) : (BitVec.ofNat 3 (bitsOf w 8 6)).toNat = 0 := by
    rw [legalFpr_noRm hl (hf ▸ h)]; rfl
  have unary {fn : Nat} (hf : bitsOf w 5 0 = fn) (h) := legalFpr_unary hl (hf ▸ h)
  unfold fprOf
  split
  case h_1 h | h_2 h | h_3 h | h_4 h => exact encodes_some rfl (word h)
  case h_5 h | h_18 h | h_20 h | h_21 h | h_22 h | h_23 h =>
    have hv := word h
    rw [unary h (by decide)] at hv
    exact encodes_some rfl hv
  case h_6 h | h_7 h | h_8 h | h_9 h | h_12 h | h_13 h | h_14 h | h_15 h | h_16 h =>
    have hv := word h
    rw [noRm h (by decide)] at hv
    exact encodes_some rfl hv
  case h_10 h | h_11 h | h_17 h | h_24 h | h_25 h =>
    have hv := word h
    rw [noRm h (by decide), unary h (by decide)] at hv
    exact encodes_some rfl hv
  case h_19 h =>
    have hz : bitsOf w 15 11 < 3 := by simp_all [legalFpr]
    have hs : (fOf (bitsOf w 15 11)).val = (BitVec.ofNat 2 (bitsOf w 15 11)).toNat := by
      rw [fOf_bitsOf w 15 11 rfl, BitVec.toNat_ofNat]; omega
    have hv := word h
    rw [hs] at hv
    exact encodes_some rfl hv
  case h_26 =>
    have : 0x18 < bitsOf w 5 0 := by
      by_contra hle
      interval_cases bitsOf w 5 0 <;> simp_all
    unfold legalFpr at hl
    simp (disch := omega) only [if_neg, Bool.and_false, Bool.false_eq_true] at hl

/-! LONG, DEC and the whole word. -/

theorem encD_bitsOf (hop : bitsOf w 31 26 = 0x36) {fn : Nat} (hf : bitsOf w 2 0 = fn) :
    encD (gOf (bitsOf w 25 21)).val (gOf (bitsOf w 20 16)).val (gOf (bitsOf w 15 11)).val (BitVec.ofNat 4 (bitsOf w 10 7)).toNat
      (BitVec.ofNat 4 (bitsOf w 6 3)).toNat fn = w := by
  rw [gOf_bitsOf w 25 21 rfl, gOf_bitsOf w 20 16 rfl, gOf_bitsOf w 15 11 rfl]
  subst hf
  unfold encD bitsOf at *; norm_num at *; omega

theorem encodes_long (hop : bitsOf w 31 26 = 0x35) (hl : legalWord w = true) : Encodes t w (rowOf t w) := by
  have word {fn : Nat} (hf : bitsOf w 10 0 = fn) := encR_gOf hw hop hf
  simp only [legalWord, hop, legalLong, Bool.and_eq_true] at hl
  obtain ⟨-, hfn⟩ := hl
  simp only [rowOf, hop]
  split
  case h_1 h | h_3 h =>
    have hz : bitsOf w 15 11 = 0 := by simpa [h] using hfn
    have hv := word h
    rw [hz] at hv
    exact encodes_some rfl hv
  case h_2 h => exact encodes_some rfl (word h)
  case h_4 => simp_all

theorem encodes_dec (hop : bitsOf w 31 26 = 0x36) (hl : legalWord w = true) : Encodes t w (rowOf t w) := by
  have word {fn : Nat} (hf : bitsOf w 2 0 = fn) := encD_bitsOf hw hop hf
  simp only [legalWord, hop] at hl
  simp only [rowOf, hop]
  split
  case h_1 h | h_2 h | h_3 h => exact encodes_some rfl (word h)
  case h_4 h =>
    have hz : bitsOf w 20 16 = 0 ∧ bitsOf w 6 3 = 0 := by simpa [h] using hl
    have hv := word h
    rw [hz.1, hz.2] at hv
    exact encodes_some rfl hv
  case h_5 h0 h1 h2 h3 =>
    simp only [Bool.and_eq_true, decide_eq_true_eq] at hl
    exact absurd hl.1 (by grind)

/-- A legal word decodes to an instruction whose word it is (R71, R72). -/
theorem encodes_rowOf (hl : legalWord w = true) : Encodes t w (rowOf t w) := by
  by_cases hlong : bitsOf w 31 26 = 0x35
  · exact encodes_long hw hlong hl
  by_cases hdec : bitsOf w 31 26 = 0x36
  · exact encodes_dec hw hdec hl
  have wordI {op : Nat} (hop : bitsOf w 31 26 = op) := encI_gOf hw hop
  unfold rowOf
  split
  case h_1 h => exact encodes_opr hw h (by simpa only [legalWord, h] using hl)
  case h_12 h => exact encodes_shi hw h (by simpa only [legalWord, h] using hl)
  case h_8 h | h_10 h =>
    have hy : bitsOf w 20 16 = 0 := by simpa [legalWord, h] using hl
    have hv := wordI h
    rw [hy] at hv
    exact encodes_some rfl hv
  case h_32 h => exact encodes_atom hw h hl
  case h_33 h => exact encodes_cmaint hw h hl
  case h_40 h | h_41 h => exact encodes_some rfl (encJ_bitsOf hw h)
  case h_42 h => exact encodes_fpr hw h (by simpa only [legalWord, h] using hl)
  case h_43 h | h_44 h | h_45 h | h_46 h =>
    have h0 : bitsOf w 0 0 = 0 := by
      simp only [legalWord, h, legalFused, Bool.and_eq_true, beq_iff_eq] at hl
      exact hl.1.1.1.1.1.1
    exact encodes_some rfl (encF4_bitsOf hw h h0)
  case h_47 h => exact absurd h hlong
  case h_48 h => exact absurd h hdec
  case h_49 h =>
    have hxy : bitsOf w 25 21 = 0 ∧ bitsOf w 20 16 = 0 := by simpa [legalWord, h] using hl
    have hv := wordI h
    rw [hxy.1, hxy.2] at hv
    exact encodes_some rfl hv
  case h_50 h => exact encodes_sys hw h hl
  case h_51 h =>
    simp only [legalWord, h, Bool.and_eq_true, beq_iff_eq] at hl
    obtain ⟨⟨hy, hs⟩, -⟩ := hl
    have hv := encI_sr hw h hs
    rw [hy] at hv
    exact encodes_some rfl hv
  case h_52 h =>
    simp only [legalWord, h, Bool.and_eq_true, beq_iff_eq] at hl
    obtain ⟨⟨hx, hs⟩, -⟩ := hl
    have hv := encI_sr hw h hs
    rw [hx] at hv
    exact encodes_some rfl hv
  case h_53 h => exact encodes_mmu hw h hl
  case h_54 => simp_all [legalWord]
  all_goals
    rename_i h
    exact encodes_some rfl (wordI h)

end
end

theorem encOpr_lt (w : Bool) (rd ra rb : GReg) {fn : Nat} (hf : fn < 1024) : encOpr w rd.val ra.val rb.val fn < 2 ^ 32 :=
  encR_lt (by decide) rd.isLt ra.isLt rb.isLt (by cases w <;> simp [b2n] <;> omega)

/-- The word of an instruction is a word of 32 bits (R71). -/
theorem aisWord_lt {i : Instr} {t : Thr} {w : Nat} (h : aisWord i = some (t, w)) : w < 2 ^ 32 := by
  cases i
  all_goals simp only [aisWord, reduceCtorEq, Option.some.injEq, Prod.mk.injEq] at h
  all_goals obtain ⟨-, rfl⟩ := h
  case add | sub | and | or | xor | andn | orn | xnor | sll | srl | sra | ror | slt | sltu | min | max | minu | maxu | mul | mulh | mulhu |
      mulhsu | div | divu | rem | remu | cmovz | cmovnz | crc32cb | crc32cd =>
    exact encOpr_lt _ _ _ _ (by decide)
  case clz | ctz | popc | bswap | sextb | sexth | zextw | jalr => exact encOpr_lt _ _ _ 0 (by decide)
  all_goals
    simp only [encShi, encR, encI, encJ, encF, encF4, encD]
    omega

/-- Settles O58: `rowOf_aisWord` decodes what is encoded, `encodes_rowOf` encodes what a legal word decodes to. -/
theorem encodeThenDecode : Obligations.EncodeThenDecode := by
  have decoded (t : Thr) (w : BitVec 32) (hl : legalWord w.toNat = true) : aisOf t w = rowOf t w.toNat := by rw [aisOf, if_pos hl]
  refine ⟨fun i t w h hl => ?_, fun t w hl => ?_, fun t w hl => ?_⟩
  · have hw : (BitVec.ofNat 32 w).toNat = w := by
      rw [BitVec.toNat_ofNat, Nat.mod_eq_of_lt (aisWord_lt h)]
    rw [decoded _ _ (by rwa [hw]), hw, rowOf_aisWord t h]
  · rw [decoded t w hl]
    exact encodes_rowOf w.isLt hl
  · rw [aisOf, hl]; rfl

end Sys2Proof.Machine
end

section
/-! SUPPORT. How an instruction of a ready thread ends, by what its body answers. -/

open Sys2Proof

namespace Sys2Proof.Machine

@[simp] theorem Ex.ok_bind {α β : Type} (a : α) (s : State) (k : α → State → Ex β) : (Ex.ok a s).bind k = k a s := rfl
@[simp] theorem Ex.hold_bind {α β : Type} (s : State) (k : α → State → Ex β) : (Ex.hold s : Ex α).bind k = .hold s := rfl

section
variable {t : Nat} {con : Bool}
@[simp] theorem State.finish_ok (npc : Word) (s : State) : State.finish t con (.ok npc s) = s.retire t npc con := rfl
@[simp] theorem State.finish_exc (c : Cause) (s : State) : State.finish t con (.exc c s) = s.takeExc t c := rfl
@[simp] theorem State.finish_hold (s : State) : State.finish t con (.hold s) = s := rfl
end

/-- A part that gave its value is followed by what comes after it. -/
theorem Ex.bind_of_value? {α β : Type} {e : Ex α} {a : α} (h : e.value? = some a) (k : α → State → Ex β) : e.bind k = k a e.state := by
  rw [Ex.ok_of_value? h]; rfl

/-- A part that went on is followed by what comes after it. -/
theorem Ex.bind_of_isOk {β : Type} {e : Ex Unit} (h : e.isOk = true) (k : Unit → State → Ex β) : e.bind k = k () e.state := by
  rw [Ex.ok_of_isOk h]; rfl

theorem State.goesOn_eq (s : State) (t : Thr) (y : Thread) (npc : Word) (con : Bool) :
    s.goesOn t y npc con = (s.setThr t.val y).retire t.val npc con := rfl

/-- A ready thread's level is high enough for every lower one. -/
theorem State.ready_mono {s : State} {t l k : Nat} {fp : Bool} (h : s.ready t l fp = true) (hk : k ≤ l) : s.ready t k fp = true := by
  obtain ⟨hrun, hwait, hload, hbound, hfetch, hlvl, hfen⟩ := (s.ready_iff t l fp).mp h
  exact (s.ready_iff t k fp).mpr ⟨hrun, hwait, hload, hbound, hfetch, hk.trans hlvl, hfen⟩

/-- Readiness for a floating-point instruction is readiness for any other. -/
theorem State.ready_noFp {s : State} {t l : Nat} {fp : Bool} (h : s.ready t l fp = true) : s.ready t l false = true := by
  obtain ⟨hrun, hwait, hload, hbound, hfetch, hlvl, -⟩ := (s.ready_iff t l fp).mp h
  exact (s.ready_iff t l false).mpr ⟨hrun, hwait, hload, hbound, hfetch, hlvl, nofun⟩

end Sys2Proof.Machine
end

section
/-! PROOF. O4: branches and jumps (R83, R84). -/

open Sys2Proof

namespace Sys2Proof.Machine

theorem shiftLeft_two (x : Word) : x <<< 2 = x * 4 := by
  apply BitVec.eq_of_toNat_eq
  simp [Nat.shiftLeft_eq]

/-- A branch of a ready thread: to its target where the condition holds, otherwise on; one completed branch counted (R83, R101). -/
theorem State.branch_ready {s : State} {t : Thr} {op : Nat} {ra rb : GReg} {d : BitVec 16} {c : Word → Word → Bool}
    (hop : op ∈ [0x28, 0x29, 0x2A, 0x2B, 0x2C, 0x2D]) (h : s.ready t.val 0 false = true) :
    s.branch t.val op ra rb d c = (s.fetched t.val).goesOn t (((s.fetched t.val).thr t.val).pmc 0x03)
      (if c (((s.fetched t.val).thr t.val).gr ra) (((s.fetched t.val).thr t.val).gr rb) then
        ((s.fetched t.val).thr t.val).pc + d.signExtend 64 * 4 else ((s.fetched t.val).thr t.val).pc + 4) (decide (0 < d.toInt)) := by
  have hl : legalWord (encI op ra.val rb.val d.toNat) = true := legal_encI ra rb d (by
    simp only [List.mem_cons, List.not_mem_nil, or_false] at hop ⊢
    omega)
  rw [State.branch, State.ais_ready _ _ h hl rfl rfl, finish_ok, goesOn_eq, sext16, shiftLeft_two, apply_ite (_ + ·)]
  rfl

theorem jumpTarget_eq (pc : Word) (d : BitVec 26) : jumpTarget pc d = pc + d.signExtend 64 * 4 := by rw [jumpTarget, shiftLeft_two]

/-- JALR's word is legal whatever its operands (R75). -/
theorem legal_jalr (rd ra : GReg) : legalWord (encOpr false rd.val ra.val 0 0x038) = true :=
  legal_opr rd ra 0 (by decide) fun _ => rfl

/-- What JALR of a ready thread answers (R84). -/
theorem exec_jalr_ready {s : State} {t : Thr} (rd ra : GReg) (h : s.ready t.val 0 false = true) :
    exec (.jalr t rd ra) s = .next (
      if (((s.fetched t.val).thr t.val).gr ra).toNat % 4 ≠ 0 then
        (s.fetched t.val).takeExc t.val { code := 0x03, addr := some (((s.fetched t.val).thr t.val).gr ra) }
      else (s.fetched t.val).goesOn t ((((s.fetched t.val).thr t.val).setGr rd (((s.fetched t.val).thr t.val).pc + 4)).pmc 0x03)
        (((s.fetched t.val).thr t.val).gr ra)) := by
  rw [exec_jalr, execJalr, State.ais_ready _ _ h (legal_jalr rd ra) rfl rfl]
  dsimp only
  split <;> rfl

/-- Settles O4: branches by `branch_ready`, JALR by `exec_jalr_ready`. -/
theorem jumpResults : Obligations.JumpResults := by
  refine ⟨?_, ?_⟩
  · intro i t con rd f s hi h x hal
    cases i
    all_goals simp only [jumpOp, reduceCtorEq, Option.some.injEq, Prod.mk.injEq] at hi
    all_goals obtain ⟨rfl, rfl, rfl, rfl⟩ := hi
    case beq => simp [exec_beq, execBeq, State.branch_ready (op := 0x28) (by decide) h, x]
    case bne => simp [exec_bne, execBne, State.branch_ready (op := 0x29) (by decide) h, x]
    case blt => simp [exec_blt, execBlt, State.branch_ready (op := 0x2A) (by decide) h, x, BitVec.slt]
    case bge => simp [exec_bge, execBge, State.branch_ready (op := 0x2B) (by decide) h, x, BitVec.slt]; simp only [← not_lt, ite_not]
    case bltu => simp [exec_bltu, execBltu, State.branch_ready (op := 0x2C) (by decide) h, x, BitVec.ult]
    case bgeu => simp [exec_bgeu, execBgeu, State.branch_ready (op := 0x2D) (by decide) h, x, BitVec.ult]; simp only [← not_lt, ite_not]
    case j disp =>
      rw [exec_j, execJ, State.ais_ready _ _ h (legal_encJ disp (.inl rfl)) rfl rfl, State.finish_ok, jumpTarget_eq]
      rfl
    case jal disp =>
      rw [exec_jal, execJal, State.ais_ready _ _ h (legal_encJ disp (.inr rfl)) rfl rfl, State.finish_ok, jumpTarget_eq]
      rfl
    case jalr rd ra =>
      rw [exec_jalr_ready rd ra h, if_neg (not_not.mpr (hal rfl))]
  · intro t rd ra s h hmis
    rw [exec_jalr_ready rd ra h, if_pos hmis]

end Sys2Proof.Machine
end

section
/-! SUPPORT. When the words of the atomic, maintenance, call, long, decimal and state-register rows are legal (R70). -/

open Sys2Proof

namespace Sys2Proof.Machine

theorem legalWord_atom (rd ra rb : GReg) {fn : Nat} (hf : fn < 2048) : legalWord (encR 0x23 rd.val ra.val rb.val fn) =
    if fn = 0 then rb.val == 0 else if fn = 3 then rd.val % 2 == 0 && rb.val % 2 == 0 else decide (fn ≤ 7) := by
  simp (disch := omega) only [legalWord, encR_op, encR_x, encR_z, encR_fn]

theorem legalWord_cmaint (ra : GReg) {fn : Nat} (hf : fn < 2048) : legalWord (encR 0x24 0 ra.val 0 fn) = decide (fn ≤ 6) := by
  simp (disch := omega) only [legalWord, encR_op, encR_x, encR_z, encR_fn, beq_self_eq_true, Bool.and_true]

theorem legalWord_svc (imm : BitVec 16) : legalWord (encI 0x37 0 0 imm.toNat) = true := by
  simp (disch := omega) only [legalWord, encI_op, encI_x, encI_y, beq_self_eq_true, Bool.and_true]

theorem legalWord_long (rd ra rb : GReg) {fn : Nat} (hf : fn < 2048) :
    legalWord (encR 0x35 rd.val ra.val rb.val fn) = legalLong rd.val ra.val rb.val fn := by
  simp (disch := omega) only [legalWord, encR_op, encR_x, encR_y, encR_z, encR_fn]

theorem legalWord_dec (rd ra rb : GReg) (l1 l2 : BitVec 4) {fn : Nat} (hf : fn < 3) :
    legalWord (encD ra.val rb.val rd.val l1.toNat l2.toNat fn) = true := by
  simp (disch := omega) only [legalWord, encD_op, encD_fn]
  simp; omega

theorem legalWord_dval (rd ra : GReg) (l1 : BitVec 4) : legalWord (encD ra.val 0 rd.val l1.toNat 0 3) = true := by
  simp (disch := omega) only [legalWord, encD_op, encD_y, encD_l2, encD_fn]
  rfl

end Sys2Proof.Machine
end

section
/-! PROOF. O15, O16: calls, and the exceptions of words and levels (R70, R93, R94, R98). -/

open Sys2Proof

namespace Sys2Proof.Machine

/-- A word that is no encoding takes the illegal-instruction exception at the check (R72, R114 step 2). -/
theorem State.ais_illegal {s : State} {t : Nat} {i : InsnInfo} (body : State → Ex Word) (h : s.ready t 0 false = true) (hl : i.legal = false) :
    s.ais t i body = (s.fetched t).takeExc t { code := 0x01, info := i.word, addr := some ((s.fetched t).thr t).pc } := by
  obtain ⟨hrun, hwait, hload, hbound, hfetch, -, -⟩ := (s.ready_iff t 0 false).mp h
  simp [State.ais, s.wake_of_not_waiting hwait, hrun, hwait, hload, hbound, State.precheck, hfetch, hl, Ex.bind]

/-- An instruction above its thread's level takes exception 0x02 at the check (R114 step 3). -/
theorem State.ais_lowLevel {s : State} {t : Nat} {i : InsnInfo} (body : State → Ex Word) (h : s.ready t 0 false = true) (hl : i.legal = true)
    (hpl : ((s.fetched t).thr t).pl < i.lvl) :
    s.ais t i body = (s.fetched t).takeExc t { code := 0x02, info := i.word, addr := some ((s.fetched t).thr t).pc } := by
  obtain ⟨hrun, hwait, hload, hbound, hfetch, -, -⟩ := (s.ready_iff t 0 false).mp h
  simp [State.ais, s.wake_of_not_waiting hwait, hrun, hwait, hload, hbound, State.precheck, hfetch, hl, hpl, Ex.bind]

/-- Every instruction of AIS but STCD, which serves deferred requests after it, is checked by its own word and lowest level before its effect. -/
theorem exec_eq_ais {i : Instr} {t : Thr} {w : Nat} (s : State) (h : aisWord i = some (t, w)) :
    (∃ rd ra rb, i = .stcd t rd ra rb) ∨
      ∃ lvl fp con body, exec i s = .next (s.ais t.val (info w lvl fp con) body) ∧ ∀ v l, lowestLevel i = some (v, l) → lvl = l := by
  cases i
  all_goals simp only [aisWord, reduceCtorEq, Option.some.injEq, Prod.mk.injEq] at h
  all_goals obtain ⟨rfl, rfl⟩ := h
  case stcd rd ra rb => exact .inl ⟨rd, ra, rb, rfl⟩
  case mfs t rd n =>
    rw [encI, Nat.zero_mul, Nat.add_zero]
    refine .inr ⟨_, _, _, _, rfl, fun v l hl => ?_⟩
    cases hr : srRow n.toNat <;> simp_all [lowestLevel]
  case mts t ra n =>
    rw [encI, Nat.zero_mul, Nat.add_zero]
    refine .inr ⟨_, _, _, _, rfl, fun v l hl => ?_⟩
    cases hr : srRow n.toNat <;> simp_all [lowestLevel]
  all_goals exact .inr ⟨_, _, _, _, rfl, by simp [lowestLevel]⟩

/-- Settles O16: every instruction but STCD, whose word is always legal, meets the checks first. -/
theorem instructionExceptions : Obligations.InstructionExceptions := by
  refine ⟨?_, ?_⟩
  · intro i t w s hw hill h
    obtain ⟨rd, ra, rb, rfl⟩ | ⟨lvl, fp, con, body, hex, -⟩ := exec_eq_ais s hw
    · simp only [aisWord, Option.some.injEq, Prod.mk.injEq, true_and] at hw
      simp [← hw, legalWord_atom rd ra rb (show 1 < 2048 by decide)] at hill
    · rw [hex, State.ais_illegal body h hill]; rfl
  · intro i t l w s hlow hw hleg h hpl
    obtain ⟨rd, ra, rb, rfl⟩ | ⟨lvl, fp, con, body, hex, hlvl⟩ := exec_eq_ais s hw
    · simp [lowestLevel] at hlow
    · obtain rfl := hlvl t l hlow
      rw [hex, State.ais_lowLevel body h hleg hpl]; rfl

/-- Settles O15: SVC's word is legal whatever its operand, BRK's always; the rest is the exception of a word that is no encoding. -/
theorem callResults : Obligations.CallResults := by
  intro t imm w s h f x
  have hsvc : legalWord (encI 0x37 0 0 imm.toNat) = true := legalWord_svc imm
  have hx : exec (.svc t imm) s = .next (f.takeExc t.val
      { code := if x.pl = 0 then 0x06 else if x.pl = 3 then 0x08 else 0x07, info := imm.toNat }) := by
    rw [exec_svc, execSvc, State.ais_ready _ _ h hsvc rfl rfl]; rfl
  refine ⟨?_, ?_, ?_, ?_, ?_⟩
  · intro hpl; rw [hx, hpl]; rfl
  · intro hpl; rw [hx, hpl]; rfl
  · intro hpl; rw [hx, hpl]; rfl
  · rw [exec_brk, execBrk, State.ais_ready _ _ h (by decide) rfl rfl]; rfl
  · intro hill
    rw [exec_illegalInstruction, execIllegalInstruction, if_neg (by simp [hill]), State.ais_illegal _ h hill]; rfl

end Sys2Proof.Machine
end

section
/-! SUPPORT. Two writes of one thread are the last one; what a store that goes on leaves of its thread. -/

open Sys2Proof

namespace Sys2Proof.Machine

section
variable {α : Type} (t : Tab α) (k : Nat) (v w : α)

theorem Tab.insert_insert : Tab.insert k w (Tab.insert k v t) = Tab.insert k w t := by
  induction t with
  | nil => simp [Tab.insert]
  | cons e t ih =>
    obtain ⟨j, u⟩ := e
    by_cases hlt : k < j
    · simp [Tab.insert, hlt]
    · by_cases heq : k = j
      · simp [Tab.insert, heq]
      · simp [Tab.insert, hlt, heq, ih]

theorem Tab.erase_insert : Tab.erase k (Tab.insert k v t) = Tab.erase k t := by
  induction t with
  | nil => simp [Tab.insert, Tab.erase]
  | cons e t ih =>
    obtain ⟨j, u⟩ := e
    by_cases hlt : k < j
    · simp [Tab.insert, Tab.erase, hlt]
    · by_cases heq : k = j
      · simp [Tab.insert, Tab.erase, heq]
      · simp [Tab.insert, Tab.erase, hlt, heq, Ne.symm heq, ih]

variable {v}

/-- A write of a value that the table lists is lost to the next write of its key. -/
theorem Tab.set_set [DecidableEq α] {d : Nat → α} (hv : v ≠ d k) : Tab.set d (Tab.set d t k v) k w = Tab.set d t k w := by
  rw [Tab.set.eq_def d t k v, if_neg hv, Tab.set, Tab.erase_insert, Tab.insert_insert, Tab.set]

end

theorem State.setThr_setThr (s : State) (t : Nat) {x : Thread} (y : Thread) (hx : x ≠ Thread.reset) :
    (s.setThr t x).setThr t y = s.setThr t y := by
  simp only [State.setThr, Tab.set_set _ _ _ (show x ≠ thrDefault t from hx)]

/-- A thread with a store in its buffer is not the reset thread. -/
theorem Thread.ne_reset_of_sb {x : Thread} (h : x.sb ≠ []) : x ≠ Thread.reset := by
  rintro rfl
  exact h rfl

@[simp] theorem State.thr_tickFree (s : State) (t : Nat) : s.tickFree.thr t = s.thr t := rfl

/-- To write back a thread just written changes nothing. -/
theorem State.setThr_thr_self {s : State} {t : Nat} {x : Thread} (hx : x ≠ Thread.reset) :
    (s.setThr t x).setThr t ((s.setThr t x).thr t) = s.setThr t x := by
  rw [State.thr_setThr_self, State.setThr_setThr _ _ _ hx]

theorem Thread.push_sb_ne_nil (x : Thread) {l : List StoreEnt} (hl : l ≠ []) : (x.push l).sb ≠ [] := by
  simp [Thread.push, hl]

theorem pieces_ne_nil (ea n : Nat) (split : Bool) : pieces ea n split ≠ [] := by
  simp only [pieces, ne_eq, List.flatMap_eq_nil_iff, not_forall]
  by_cases hs : (split && n == 16) = true
  · exact ⟨(0, 8), by simp [hs], by dsimp only; split <;> simp⟩
  · exact ⟨(0, n), by simp [hs], by dsimp only; split <;> simp⟩

section
variable {t : Nat} {s u : State}

/-- A translation that gives its address leaves the thread's pc. -/
theorem State.pc_of_translate {va : Word} {a : Acct} {kind pa : Nat} (h : s.translate t va a kind = .ok pa u) :
    (u.thr t).pc = (s.thr t).pc := by
  unfold State.translate at h
  dsimp only at h
  split at h
  · cases h; rfl
  split at h
  · cases h
  split at h
  · cases h
  next e y um _ =>
  split at h
  · cases h
  split at h
  · cases um
    all_goals
      simp only [Bool.false_eq_true, if_false, if_true] at h
      split at h <;> cases h
  cases h
  cases um
  · simp
  · simp [State.modThr]

/-- A piece that passes its checks leaves the thread's pc. -/
theorem State.pc_of_checkPiece {ea : Word} {o kind pa : Nat} {a : Acct} {mis : Bool}
    (h : s.checkPiece t ea o a kind mis = .ok pa u) : (u.thr t).pc = (s.thr t).pc := by
  unfold State.checkPiece at h
  cases htr : s.translate t (ea + BitVec.ofNat 64 o) a kind with
  | ok p v =>
    rw [htr, Ex.ok_bind] at h
    split at h
    · cases h
    split at h
    · cases h; exact State.pc_of_translate htr
    · cases h
  | exc | mchk | hold => rw [htr] at h; cases h

/-- The checks of a store that go on leave the thread's pc, and give an entry for every piece. -/
theorem State.of_storePieces {ea : Word} {mis : Bool} {kind : Nat} {b : List Byte} {ps : List (Nat × Nat)} {l : List StoreEnt}
    (h : s.storePieces t ea mis kind b ps = .ok l u) : (u.thr t).pc = (s.thr t).pc ∧ l.length = ps.length := by
  induction ps generalizing s u l with
  | nil => cases h; exact ⟨rfl, rfl⟩
  | cons p r ih =>
    obtain ⟨o, k⟩ := p
    unfold State.storePieces at h
    cases hc : s.checkPiece t ea o .write kind mis with
    | ok pa v =>
      rw [hc, Ex.ok_bind] at h
      cases hr : v.storePieces t ea mis kind b r with
      | ok rest z =>
        rw [hr, Ex.ok_bind] at h
        cases h
        obtain ⟨hpc, hlen⟩ := ih hr
        exact ⟨hpc.trans (State.pc_of_checkPiece hc), by simp [hlen]⟩
      | exc | mchk | hold => rw [hr] at h; cases h
    | exc | mchk | hold => rw [hc] at h; cases h

/-- A store that goes on has written its thread last, with its entries in the buffer; the pc stands. -/
theorem State.of_store {ea : Word} {b : List Byte} {fp : Bool} (h : (s.store t ea b fp).isOk = true) :
    ∃ (v : State) (l : List StoreEnt), l ≠ [] ∧ (v.thr t).pc = (s.thr t).pc ∧
      s.store t ea b fp = .ok () (v.setThr t ((v.thr t).push l)) := by
  unfold State.store at h ⊢
  dsimp only at h ⊢
  cases hp : s.storePieces t ea (ea.toNat % natAlign b.length != 0) 1 b (pieces ea.toNat b.length (s.splits t ea b.length fp .write)) with
  | ok l v =>
    obtain ⟨hpc, hlen⟩ := State.of_storePieces hp
    rw [hp, Ex.ok_bind, State.pushAll] at h
    rw [Ex.ok_bind, State.pushAll]
    split at h
    · refine ⟨v, l, ?_, hpc, if_pos ‹_›⟩
      rintro rfl
      exact pieces_ne_nil _ _ _ (List.eq_nil_of_length_eq_zero hlen.symm)
    · cases h
  | exc | mchk | hold => rw [hp] at h; cases h

end

end Sys2Proof.Machine
end

section
/-! PROOF. O5, O6: loads and stores (R79). -/

open Sys2Proof

namespace Sys2Proof.Machine

/-- A load of a ready thread whose access delivers its bytes (R79). -/
theorem State.loadInsn_ready {s : State} {t : Thr} {op rd n : Nat} {ra : GReg} {d : BitVec 16} {fp : Bool} {put : Thread → List Byte → Thread}
    {b : List Byte} (h : s.ready t.val 0 fp = true) (hl : legalWord (encI op rd ra.val d.toNat) = true)
    (hb : ((s.fetched t.val).load t.val (((s.fetched t.val).thr t.val).gr ra + d.signExtend 64) n fp).value? = some b) :
    let e := (s.fetched t.val).load t.val (((s.fetched t.val).thr t.val).gr ra + d.signExtend 64) n fp
    s.loadInsn t.val op rd ra d n fp put = e.state.goesOn t (put (e.state.thr t.val) b) ((e.state.thr t.val).pc + 4) := by
  rw [State.loadInsn, State.ais_ready _ _ h hl rfl rfl, Thread.ea, sext16, Ex.bind_of_value? hb]
  rfl

/-- A store of a ready thread whose checks and buffer let it go on (R79). -/
theorem State.storeInsn_ready {s : State} {t : Thr} {op rs : Nat} {ra : GReg} {d : BitVec 16} {fp : Bool} {get : Thread → List Byte}
    (h : s.ready t.val 0 fp = true) (hl : legalWord (encI op rs ra.val d.toNat) = true) :
    let x := (s.fetched t.val).thr t.val
    let e := (s.fetched t.val).store t.val (x.gr ra + d.signExtend 64) (get x) fp
    e.isOk = true →
    s.storeInsn t.val op rs ra d fp get = e.state.goesOn t (e.state.thr t.val) ((e.state.thr t.val).pc + 4) := by
  intro x e he
  obtain ⟨v, l, hl0, hpc, hst⟩ := State.of_store he
  have hx : (v.thr t.val).push l ≠ Thread.reset := Thread.ne_reset_of_sb ((v.thr t.val).push_sb_ne_nil hl0)
  have hes : e.state = v.setThr t.val ((v.thr t.val).push l) := by rw [show e = _ from hst]; rfl
  have hnpc : (e.state.thr t.val).pc = x.pc := by rw [hes, State.thr_setThr_self]; exact hpc
  rw [State.storeInsn, State.ais_ready _ _ h hl rfl rfl]
  dsimp only
  rw [Thread.ea, sext16, Ex.bind_of_isOk he, State.finish_ok, State.goesOn_eq, hnpc, hes, State.setThr_thr_self hx]
  rfl

theorem sextW_eq (n v : Nat) : sextW (n + 1) v = (BitVec.ofNat (n + 1) v).signExtend 64 := by
  rw [BitVec.signExtend, sextW, BitVec.toInt_eq_toNat_cond]
  congr 1
  simp only [sextNat, BitVec.toNat_ofNat, Nat.add_sub_cancel, pow_succ, Nat.mul_comm 2]
  push_cast
  congr 1
  rw [Nat.mul_lt_mul_right two_pos]

/-- Settles O5, by `loadInsn_ready`. -/
theorem loadResults : Obligations.LoadResults := by
  intro i t ra d n fp put w s b hi hw hl h e hb
  cases i
  all_goals simp only [loadOp, reduceCtorEq, Option.some.injEq, Prod.mk.injEq] at hi
  all_goals obtain ⟨rfl, rfl, rfl, rfl, rfl, rfl⟩ := hi
  all_goals simp only [aisWord, Option.some.injEq, Prod.mk.injEq, true_and] at hw
  all_goals subst hw
  case lb => simp only [exec_lb, execLb, State.loadInsn_ready h hl hb, sextW_eq]; rfl
  case lh => simp only [exec_lh, execLh, State.loadInsn_ready h hl hb, sextW_eq]; rfl
  case lw => simp only [exec_lw, execLw, State.loadInsn_ready h hl hb, sextW_eq]; rfl
  all_goals exact congrArg Host.Outcome.next (State.loadInsn_ready h hl hb)

/-- Settles O6, by `storeInsn_ready`. -/
theorem storeResults : Obligations.StoreResults := by
  intro i t ra d fp get w s hi hw hl h x e he
  cases i
  all_goals simp only [storeOp, reduceCtorEq, Option.some.injEq, Prod.mk.injEq] at hi
  all_goals obtain ⟨rfl, rfl, rfl, rfl, rfl⟩ := hi
  all_goals simp only [aisWord, Option.some.injEq, Prod.mk.injEq, true_and] at hw
  all_goals subst hw
  all_goals exact congrArg Host.Outcome.next (State.storeInsn_ready h hl he)

end Sys2Proof.Machine
end

section
/-! PROOF. O22: CLWB, CLFLUSH, CLINV and CLZERO (R97, R215, R216). -/

open Sys2Proof

namespace Sys2Proof.Machine

section
variable {s : State} {t : Nat} {va : Word} (htr : (s.thr t).translated va.toNat = false)
include htr

theorem State.translate_untranslated (a : Acct) (kind : Nat) : s.translate t va a kind = .ok (va.toNat % 2 ^ 52) s := by
  rw [State.translate, if_pos htr]

/-- An untranslated, aligned address of memory that Firebreak allows passes the checks of a memory-only access. -/
theorem State.checkMem_untranslated (sfa : Option Word) (a : Acct) (kind : Nat) (hmem : isMem (va.toNat % 2 ^ 52) = true)
    (hok : s.memOk (s.part t) (va.toNat % 2 ^ 52) (a == .write) = true) :
    s.checkMem t va sfa a kind false = .ok (va.toNat % 2 ^ 52) s := by
  rw [State.checkMem, State.translate_untranslated htr, show Ex.renameAddr sfa (.ok _ s) = .ok _ s from rfl, Ex.ok_bind,
    if_neg Bool.false_ne_true, hmem, if_neg (by decide), if_pos hok]

end

/-- A line operation enters the buffer as a store does; it clears the thread's reservation on its line where it is not CLWB (R201, R216). -/
theorem Thread.push_lineOp (x : Thread) {k : StoreKind} (hk : k ∈ [.clwb, .clflush, .clinv, .clzero]) (pa pl : Nat) (b : Bool) (pc : Word) :
    x.push [⟨k, pa / 256 * 256, [], pl, b, pc⟩] =
      let hit := k ≠ .clwb ∧ x.resv = some (lineOf pa)
      { x with
        sb := x.sb ++ [⟨k, pa / 256 * 256, [], pl, b, pc⟩]
        resv := if hit then none else x.resv
        defer := if hit then 0 else x.defer } := by
  have hline : lineOf (pa / 256 * 256) = lineOf pa := by unfold lineOf; omega
  simp only [List.mem_cons, List.not_mem_nil, or_false] at hk
  rcases hk with rfl | rfl | rfl | rfl <;> simp [Thread.push, hline]

/-- A line operation of a ready thread whose address passes its checks, with room in the buffer (R215, R216). -/
theorem State.cmaint_ready {s : State} {t : Thr} {fn lvl kind : Nat} {ra : GReg} {a : Acct} {k : StoreKind}
    (h : s.ready t.val lvl false = true) (hfn : fn ≤ 6) (hk : k ∈ [.clwb, .clflush, .clinv, .clzero]) :
    let f := s.fetched t.val
    let x := f.thr t.val
    let pa := (x.gr ra).toNat % 2 ^ 52
    x.translated (x.gr ra).toNat = false → isMem pa = true → f.memOk (f.part t.val) pa (a == .write) = true → x.sb.length < 48 →
    let hit := k ≠ .clwb ∧ x.resv = some (lineOf pa)
    s.cmaint t.val fn ra lvl a kind k = f.goesOn t
      (({ x with
          sb := x.sb ++ [⟨k, pa / 256 * 256, [], x.pl, false, x.pc⟩]
          resv := if hit then none else x.resv
          defer := if hit then 0 else x.defer } : Thread).pmc 0x4D) (x.pc + 4) := by
  intro f x pa htr hmem hok hroom hit
  have hl : legalWord (encR 0x24 0 ra.val 0 fn) = true := by rw [legalWord_cmaint ra (by omega)]; simpa using hfn
  have hpush : x.push [⟨k, pa / 256 * 256, [], x.pl, false, x.pc⟩] ≠ Thread.reset :=
    Thread.ne_reset_of_sb (x.push_sb_ne_nil (List.cons_ne_nil _ _))
  have hlen : [(⟨k, pa / 256 * 256, [], x.pl, false, x.pc⟩ : StoreEnt)].length ≤ x.sbRoom := by
    simp only [List.length_singleton, Thread.sbRoom]; omega
  rw [State.cmaint, State.ais_ready _ _ h hl rfl rfl]
  dsimp only
  rw [State.checkMem_untranslated htr none a kind hmem hok, Ex.ok_bind, State.pushAll, if_pos hlen, Ex.ok_bind, State.finish_ok,
    State.modThr, State.thr_setThr_self, State.setThr_setThr _ _ _ hpush]
  exact congrArg (fun y : Thread => f.goesOn t (y.pmc 0x4D) (x.pc + 4)) (x.push_lineOp hk pa x.pl false x.pc)

/-- Settles O22, by `cmaint_ready`. -/
theorem maintenanceBuffered : Obligations.MaintenanceBuffered := by
  intro i t ra lvl wr k s hi h f x pa htr hmem hok hroom hit
  cases i
  all_goals simp only [cmaintOp, reduceCtorEq, Option.some.injEq, Prod.mk.injEq] at hi
  all_goals obtain ⟨rfl, rfl, rfl, rfl, rfl⟩ := hi
  case clwb | clflush =>
    exact congrArg Host.Outcome.next (State.cmaint_ready (a := .read) h (by decide) (by simp) htr hmem hok hroom)
  case clinv | clzero =>
    exact congrArg Host.Outcome.next (State.cmaint_ready (a := .write) h (by decide) (by simp) htr hmem hok hroom)

end Sys2Proof.Machine
end

section
/-! PROOF. O19: MFS and MTS (R98 to R100, R110). -/

open Sys2Proof

namespace Sys2Proof.Machine

theorem legalWord_mfs (rd : GReg) (n : BitVec 12) : legalWord (0x39 * 2 ^ 26 + rd.val * 2 ^ 21 + n.toNat) = (srRow n.toNat).isSome := by
  have hw : 0x39 * 2 ^ 26 + rd.val * 2 ^ 21 + n.toNat = encI 0x39 rd.val 0 n.toNat := by simp [encI]
  have hz : bitsOf (encI 0x39 rd.val 0 n.toNat) 15 12 = 0 := by unfold bitsOf encI; norm_num; omega
  have hn : bitsOf (encI 0x39 rd.val 0 n.toNat) 11 0 = n.toNat := by unfold bitsOf encI; norm_num; omega
  rw [hw]
  simp (disch := omega) [legalWord, encI_op, encI_y, hz, hn]

theorem legalWord_mts (ra : GReg) (n : BitVec 12) :
    legalWord (0x3A * 2 ^ 26 + ra.val * 2 ^ 16 + n.toNat) = ((srRow n.toNat).bind (·.2.2)).isSome := by
  have hw : 0x3A * 2 ^ 26 + ra.val * 2 ^ 16 + n.toNat = encI 0x3A 0 ra.val n.toNat := by simp [encI]
  have hz : bitsOf (encI 0x3A 0 ra.val n.toNat) 15 12 = 0 := by unfold bitsOf encI; norm_num; omega
  have hn : bitsOf (encI 0x3A 0 ra.val n.toNat) 11 0 = n.toNat := by unfold bitsOf encI; norm_num; omega
  rw [hw]
  simp (disch := omega) only [legalWord, encI_op, encI_x, hz, hn, beq_self_eq_true, Bool.true_and]
  cases srRow n.toNat <;> rfl

theorem State.sip_eq (s : State) (x : Thread) : s.sip x =
    BitVec.ofNat 64 ((if x.sq ≠ [] ∨ x.sOvf = true then 4 else 0) + (if (x.srg 0x00A).toNat ≤ s.time.toNat then 2 else 0)
      + (if x.ssi ≠ none then 1 else 0)) := by
  simp only [State.sip, b2n, ite_mul, one_mul, zero_mul, Bool.or_eq_true, bne_iff_ne, decide_eq_true_eq, Option.isSome_iff_ne_none]
  rfl

theorem Thread.mip_eq (x : Thread) : x.mip =
    BitVec.ofNat 64 ((if x.mci ≠ none then 16 else 0) + (if x.mq ≠ [] ∨ x.mOvf = true then 4 else 0) + (if x.msi ≠ none then 1 else 0)) := by
  simp only [Thread.mip, b2n, ite_mul, one_mul, zero_mul, Bool.or_eq_true, bne_iff_ne, Option.isSome_iff_ne_none]

/-- The value MFS reads is the one R99 gives. -/
theorem State.srRead_eq_mfsValue (s : State) (t : Thr) (n : Nat) : s.srRead t.val n = s.mfsValue t n := by
  simp only [State.srRead, State.mfsValue, State.sip_eq, Thread.mip_eq]
  rfl

/-- What MTS answers of a ready thread: its effect on the state after the fetch. -/
theorem exec_mts_ready {s : State} {t : Thr} {ra : GReg} {n : BitVec 12} {r : Nat × Nat × Option Nat} {l : Nat} {fp : Bool}
    (hr : srRow n.toNat = some r) (hw : r.2.2 = some l) (hfp : decide (n.toNat = SR_FCS ∨ n.toNat = SR_FPEA ∨ n.toNat = SR_FPEI) = fp)
    (h : s.ready t.val l fp = true) :
    let f := s.fetched t.val
    let x := f.thr t.val
    let v := x.gr ra
    let trap (c : Nat) : State :=
      f.takeExc t.val { code := c, info := 0x3A * 2 ^ 26 + ra.val * 2 ^ 16 + n.toNat, addr := some x.pc }
    exec (.mts t ra n) s = .next (
      if n.toNat = SR_PST then
        match x.mtsPst v with
        | .error c => trap c
        | .ok y => f.goesOn t y (x.pc + 4)
      else if n.toNat = SR_TIME then ({ f with time := v } : State).retire t.val (x.pc + 4)
      else if n.toNat = SR_FCS ∧ (FCS_RM.get v = 0 ∨ 6 ≤ FCS_RM.get v) then trap 0x01
      else f.goesOn t (x.setSr n.toNat (mergeW (x.srg n.toNat) v (srMask n.toNat))) (x.pc + 4)) := by
  intro f x v trap
  have hl : legalWord (0x3A * 2 ^ 26 + ra.val * 2 ^ 16 + n.toNat) = true := by rw [legalWord_mts, hr, Option.bind_some, hw]; rfl
  rw [exec_mts, execMts]
  simp only [hr, hw, Option.getD_some]
  rw [State.ais_ready _ _ h hl rfl hfp]
  congr 1
  split
  · split <;> rename_i hp
    · rw [show x.mtsPst v = _ from hp]; rfl
    · rw [show x.mtsPst v = _ from hp]; rfl
  split
  · rfl
  split <;> rfl

/-- Every plain state register can be written, under the mask of its row, by no path of its own (R98). -/
theorem plainSrs_spec : ∀ e ∈ plainSrs, e.1 ≠ SR_PST ∧ e.1 ≠ SR_TIME ∧ e.1 ≠ SR_FCS ∧ srMask e.1 = e.2 ∧
    ((srRow e.1).bind (·.2.2)).isSome = true := by decide

theorem exec_mfs_ready {s : State} {t : Thr} {rd : GReg} {n : BitVec 12} {r : Nat × Nat × Option Nat} (hr : srRow n.toNat = some r)
    (h : s.ready t.val r.2.1 (decide (n.toNat = 0x010 ∨ n.toNat = 0x011 ∨ n.toNat = 0x012)) = true) :
    let f := s.fetched t.val
    let x := f.thr t.val
    exec (.mfs t rd n) s = .next (
      if n.toNat = 0x010 ∧ x.pl ≠ 3 ∧ x.fpPend = true then f.takeExc t.val { code := 0x0A }
      else f.goesOn t (x.setGr rd (f.mfsValue t n.toNat)) (x.pc + 4)) := by
  have hl : legalWord (0x39 * 2 ^ 26 + rd.val * 2 ^ 21 + n.toNat) = true := by rw [legalWord_mfs, hr]; rfl
  intro f x
  rw [exec_mfs, execMfs]
  simp only [hr]
  rw [State.ais_ready _ _ h hl rfl rfl, State.srRead_eq_mfsValue, apply_ite (State.finish t.val _)]
  rfl

theorem Thread.pl_le (x : Thread) : x.pl ≤ 3 := by
  have h : x.pl < 2 ^ 2 := Nat.mod_lt _ (by decide)
  omega

theorem State.pl_of_ready {s : State} {t l : Nat} {fp : Bool} (h : s.ready t l fp = true) : l ≤ ((s.fetched t).thr t).pl := by
  obtain ⟨-, -, -, -, -, hlvl, -⟩ := (s.ready_iff t l fp).mp h
  exact hlvl

/-- MTS to PST (R110). -/
theorem exec_mts_pst {s : State} {t : Thr} {ra : GReg} {n : BitVec 12} (hn : n.toNat = 0) (h : s.ready t.val 1 false = true) :
    let f := s.fetched t.val
    let x := f.thr t.val
    exec (.mts t ra n) s = .next (
      match x.mtsPst (x.gr ra) with
      | .error c => f.takeExc t.val { code := c, info := 0x3A * 2 ^ 26 + ra.val * 2 ^ 16 + n.toNat, addr := some x.pc }
      | .ok y => f.goesOn t y (x.pc + 4)) := by
  intro f x
  rw [exec_mts_ready (r := (0, 1, some 1)) (by rw [hn]; rfl) rfl (by rw [hn]; rfl) h, hn]
  rfl

/-- Settles O19, by `exec_mfs_ready` and `exec_mts_ready`. -/
theorem stateRegisterAccess : Obligations.StateRegisterAccess := by
  intro t r n s f x fp v
  refine ⟨fun e hr h => exec_mfs_ready hr h, ?_, ?_, ?_, ?_, ?_, ?_⟩
  · intro m hm h
    obtain ⟨hpst, htime, hfcs, hmask, hsome⟩ := plainSrs_spec _ hm
    obtain ⟨l, hl⟩ := Option.isSome_iff_exists.mp hsome
    obtain ⟨row, hr, hw⟩ := Option.bind_eq_some_iff.mp hl
    rw [hl] at h
    rw [exec_mts_ready hr hw rfl h, if_neg hpst, if_neg htime, if_neg fun hc => hfcs hc.1, hmask]
    rfl
  · intro hn h hlo hhi
    have hrm : ¬(FCS_RM.get v = 0 ∨ 6 ≤ FCS_RM.get v) := by
      simp only [FCS_RM, Fld.get]
      omega
    rw [exec_mts_ready (r := (0x010, 0, some 0)) (by rw [hn]; rfl) rfl (by rw [hn]; rfl) h, hn, if_neg (by decide), if_neg (by decide),
      if_neg fun hc => hrm hc.2]
    rfl
  · intro hn h
    rw [exec_mts_ready (r := (0x030, 0, some 3)) (by rw [hn]; rfl) rfl (by rw [hn]; rfl) h, hn]
    rfl
  · intro hn h hpl
    have hx : x.pl = 3 := Nat.le_antisymm x.pl_le (State.pl_of_ready h)
    have hv : PST_PL.get v ≠ 2 := by simpa [PST_PL, Fld.get] using hpl
    refine ⟨{ x.setSr SR_PST (mergeW (x.srg SR_PST) v 0xE0F3) with
      fpDue := PST_PL.get v != 3 && (x.setSr SR_PST (mergeW (x.srg SR_PST) v 0xE0F3)).fpPend }, ?_, ?_, rfl, rfl, fun k hk => ?_⟩
    · rw [exec_mts_pst hn (State.ready_mono h (by decide)), Thread.mtsPst, if_pos hx, if_neg hv]
      rfl
    · exact Tab.get_set_self ..
    · exact Tab.get_set_ne _ _ _ (by simpa [SR_PST] using hk)
  · intro hn h hx hpl
    have hv : ¬ 2 ≤ PST_PL.get v := by simpa [PST_PL, Fld.get] using hpl
    rw [exec_mts_pst hn h, Thread.mtsPst, if_neg hx, if_neg hv]
    rfl
  · intro hn h hx hpl
    have hv : 2 ≤ PST_PL.get v := by simpa [PST_PL, Fld.get] using hpl
    refine ⟨_, rfl, ?_⟩
    rw [exec_mts_pst hn h, Thread.mtsPst, if_neg hx, if_pos hv, hn, encI, Nat.zero_mul]
    rfl

end Sys2Proof.Machine
end

section
/-! SUPPORT. What a failing device store leaves of a thread's buffer, tracker, wait and pending failure (R192 to R194). -/

open Sys2Proof

namespace Sys2Proof.Machine

/-- A thread after device stores of the module have failed: buffer and wait stand, an empty tracker stays empty, a pending failure stays pending. -/
def Thread.failsTo (x y : Thread) : Prop :=
  y.sb = x.sb ∧ y.wait = x.wait ∧ (x.trk = [] → y.trk = []) ∧ (x.devFail.isSome = true → y.devFail.isSome = true)

theorem Thread.failsTo_refl (x : Thread) : x.failsTo x := ⟨rfl, rfl, id, id⟩

theorem Thread.failsTo_trans {x y z : Thread} (h : x.failsTo y) (h' : y.failsTo z) : x.failsTo z := by
  obtain ⟨hsb, hwait, htrk, hdev⟩ := h
  obtain ⟨hsb', hwait', htrk', hdev'⟩ := h'
  exact ⟨hsb'.trans hsb, hwait'.trans hwait, htrk' ∘ htrk, hdev' ∘ hdev⟩

section
variable {t : Nat}

/-- A fold whose every step fails stores of a thread fails stores of it. -/
theorem State.foldl_failsTo {α : Type} {f : State → α → State} (h : ∀ (s : State) (a : α), (s.thr t).failsTo ((f s a).thr t)) (l : List α)
    (s : State) : (s.thr t).failsTo ((l.foldl f s).thr t) := by
  induction l generalizing s with
  | nil => exact Thread.failsTo_refl _
  | cons a l ih => exact Thread.failsTo_trans (h s a) (ih (f s a))

/-- Where the first step of such a fold leaves a failure pending, the fold does. -/
theorem State.foldl_pending {α : Type} {f : State → α → State} (h : ∀ (s : State) (a : α), (s.thr t).failsTo ((f s a).thr t)) {l : List α}
    {s : State} (hl : l ≠ []) (hfst : ∀ a, l.head? = some a → ((f s a).thr t).devFail.isSome = true) :
    ((l.foldl f s).thr t).devFail.isSome = true := by
  cases l with
  | nil => exact absurd rfl hl
  | cons a l =>
    obtain ⟨-, -, -, hdev⟩ := State.foldl_failsTo h l (f s a)
    exact hdev (hfst a rfl)

/-- A change of one thread that only fails stores fails stores of every thread. -/
theorem State.modThr_failsTo (s : State) (v : Nat) {f : Thread → Thread} (h : ∀ x : Thread, x.failsTo (f x)) :
    (s.thr t).failsTo ((s.modThr v f).thr t) := by
  unfold State.modThr
  by_cases e : t = v
  · subst e; rw [State.thr_setThr_self]; exact h _
  · rw [State.thr_setThr_ne _ _ e]; exact Thread.failsTo_refl _

theorem State.thr_of_threads {s u : State} (h : u.threads = s.threads) : u.thr t = s.thr t := by rw [State.thr, h, State.thr]

theorem State.setMci_failsTo (s : State) (p : Nat) (w : Word) : (s.thr t).failsTo ((s.setMci p w).thr t) :=
  State.foldl_failsTo (f := fun s v => s.modThr v fun x => { x with mci := some w })
    (fun s v => s.modThr_failsTo v fun _ => ⟨rfl, rfl, id, id⟩) _ s

theorem State.log_failsTo (s : State) (i : RecIn) : (s.thr t).failsTo ((s.log i).thr t) := by
  have hon : ({ s with rseq := (s.recOf i).rseq }.handOn (s.recOf i)).thr t = s.thr t :=
    State.thr_of_threads (State.threads_of_offRecords (State.handOn_offRecords _ _))
  unfold State.log
  dsimp only
  rw [← hon]
  split
  · split
    · exact State.setMci_failsTo ..
    · exact Thread.failsTo_refl _
  · exact Thread.failsTo_refl _

theorem State.logDev_failsTo (s : State) (v pa cls : Nat) : (s.thr t).failsTo ((s.logDev v pa cls).thr t) := s.log_failsTo _

theorem Thread.dropFailed_failsTo (x : Thread) (f : Nat → Bool) : x.failsTo (x.dropFailed f) := by
  refine ⟨rfl, rfl, fun h => by simp [Thread.dropFailed, h], fun h => ?_⟩
  obtain ⟨a, ha⟩ := Option.isSome_iff_exists.mp h
  simp [Thread.dropFailed, ha]

theorem State.markFailed_thr (s : State) (k : Nat) : (s.markFailed k).thr t = s.thr t := by
  have hmark : State.thr (if s.failed.contains k then s else { s with failed := k :: s.failed }) t = s.thr t := by split <;> rfl
  unfold State.markFailed
  dsimp only
  split
  · rw [State.setF, State.thr_setReg, hmark]
  · exact hmark

theorem State.failTarget_failsTo (s : State) (pa : Nat) : (s.thr t).failsTo ((s.failTarget pa).thr t) := by
  unfold State.failTarget
  dsimp only
  rw [← s.markFailed_thr (s.devKey pa)]
  exact State.foldl_failsTo (fun s e => s.modThr_failsTo _ fun x => x.dropFailed_failsTo _) _ _

/-- A device store that fails leaves a failure pending in its own thread (R192). -/
theorem State.failStore_failsTo (s : State) (pa : Nat) :
    (s.thr t).failsTo ((s.failStore t pa).thr t) ∧ ((s.failStore t pa).thr t).devFail.isSome = true := by
  refine ⟨?_, ?_⟩
  · have hlog : (s.thr t).failsTo (State.thr (if s.failed.contains (s.devKey pa) then s.logDev t pa 1 else (s.failTarget pa).logDev t pa 2) t) := by
      split
      · exact s.logDev_failsTo ..
      · exact Thread.failsTo_trans (s.failTarget_failsTo pa) (State.logDev_failsTo ..)
    refine Thread.failsTo_trans hlog (State.modThr_failsTo _ t fun x => ⟨rfl, rfl, id, fun h => ?_⟩)
    obtain ⟨a, ha⟩ := Option.isSome_iff_exists.mp h
    rw [ha]; rfl
  · simp only [State.failStore, State.modThr, State.thr_setThr_self]
    split <;> rfl

theorem State.send_thr (s : State) (m : Msg) : (s.send m).thr t = s.thr t := by
  refine State.thr_of_threads ?_
  unfold State.send
  split
  · rfl
  split
  · rfl
  split
  · rfl
  split
  · split <;> rfl
  · rfl

theorem State.settleBcasts_thr (s : State) : s.settleBcasts.thr t = s.thr t :=
  State.foldl_keeps (fun s => s.thr t) _ (fun s _ => s.send_thr _) _ _

/-- A store in the tracker of a thread fails, unless it has left the tracker with another to its target (R194). -/
def State.failTracked (t : Nat) (s : State) (e : TrkEnt) : State := if (s.thr t).trk.contains e then s.failStore t e.pa else s

/-- A thread without its device stores. -/
def Thread.noDev (x : Thread) : Thread :=
  { x with trk := [], sb := x.sb.filter fun e => e.kind != .dev, popped := x.popped + (x.sb.filter fun e => e.kind == .dev).length }

theorem State.failTracked_failsTo (s : State) (e : TrkEnt) : (s.thr t).failsTo ((s.failTracked t e).thr t) := by
  unfold State.failTracked
  split
  · exact (s.failStore_failsTo e.pa).1
  · exact Thread.failsTo_refl _

/-- The tracked stores fail first, then those in the buffer (R194). -/
theorem State.failAllStores_eq (s : State) : ∃ (u : State) (l : List StoreEnt),
    u.thr t = (((s.thr t).trk.foldl (State.failTracked t) s).thr t).noDev ∧
    l = (((s.thr t).trk.foldl (State.failTracked t) s).thr t).sb.filter (fun e => e.kind == .dev) ∧
    s.failAllStores t = l.foldl (fun s e => s.failStore t e.pa) u := by
  refine ⟨_, _, ?_, ?_, rfl⟩
  · rw [State.modThr, State.thr_setThr_self, State.modThr, State.thr_setThr_self]
    rfl
  · rw [State.modThr, State.thr_setThr_self]
    rfl

/-- A thread all of whose device stores fail has none left, and a failure pending if it had one (R194). -/
theorem State.failAllStores_spec (s : State) :
    let x := s.thr t
    let y := (s.failAllStores t).thr t
    y.trk = [] ∧ (∀ e ∈ y.sb, e.kind ≠ .dev) ∧ y.wait = x.wait ∧
    ((x.trk ≠ [] ∨ ∃ e ∈ x.sb, e.kind = .dev) → y.devFail.isSome = true) := by
  intro x y
  let v := x.trk.foldl (State.failTracked t) s
  obtain ⟨u, l, hu, hl, hall⟩ := s.failAllStores_eq (t := t)
  have hfail (s : State) (e : StoreEnt) : (s.thr t).failsTo ((s.failStore t e.pa).thr t) := (s.failStore_failsTo e.pa).1
  obtain ⟨hsb, hwait, -, -⟩ : x.failsTo (v.thr t) := State.foldl_failsTo State.failTracked_failsTo x.trk s
  obtain ⟨hsb', hwait', htrk', hdev'⟩ : (u.thr t).failsTo y := by
    rw [show y = _ from congrArg (fun s : State => s.thr t) hall]
    exact State.foldl_failsTo hfail _ u
  refine ⟨htrk' (by rw [hu]; rfl), fun e he => ?_, ?_, ?_⟩
  · rw [hsb', hu] at he
    simpa using (List.mem_filter.mp he).2
  · rw [hwait', hu]
    exact hwait
  · rintro (htrk | ⟨e, he, hk⟩)
    · refine hdev' ?_
      rw [hu]
      refine State.foldl_pending State.failTracked_failsTo htrk fun e he => ?_
      rw [State.failTracked, if_pos (List.contains_iff_mem.mpr (List.mem_of_mem_head? he))]
      exact (s.failStore_failsTo e.pa).2
    · rw [show y = _ from congrArg (fun s : State => s.thr t) hall]
      refine State.foldl_pending hfail (List.ne_nil_of_mem (a := e) ?_) fun e _ => (u.failStore_failsTo e.pa).2
      rw [hl]
      exact List.mem_filter.mpr ⟨hsb ▸ he, by simpa using hk⟩

end

end Sys2Proof.Machine
end

section
/-! PROOF. O13: SYNC, SYNCI, DRAIN, FBAR, PAUSE and WAIT (R93, R186, R188, R194). -/

open Sys2Proof

namespace Sys2Proof.Machine

/-- A SYS instruction of a ready thread (R93). -/
theorem State.sys_ready {s : State} {t fn lvl : Nat} (body : State → Ex Word) (h : s.ready t lvl false = true)
    (hl : legalWord (encR 0x38 0 0 0 fn) = true) : s.ais t (sysInfo fn lvl) body = State.finish t false (body (s.fetched t)) :=
  State.ais_ready (sysInfo fn lvl) body h hl rfl rfl

theorem State.finish_orWait (s : State) (t : Nat) (con ok : Bool) (w : Wait) :
    State.finish t con (s.orWait t ok w) = if ok then s.retire t ((s.thr t).pc + 4) con else s.setThr t ((s.thr t).waits w) := by
  cases ok <;> rfl

theorem State.finish_drainEnd (s : State) (t : Nat) (con : Bool) :
    State.finish t con (s.drainEnd t) = match (s.thr t).devFail with
      | none => s.retire t ((s.thr t).pc + 4) con
      | some a => (s.setThr t { s.thr t with devFail := none }).takeExc t { code := 0x12, addr := some (BitVec.ofNat 64 a) } := by
  unfold State.drainEnd
  cases (s.thr t).devFail <;> rfl

theorem Thread.synced_iff (x : Thread) : x.synced = true ↔ x.sb = [] := beq_iff_eq

theorem Thread.drained_iff (x : Thread) : x.drained = true ↔ x.sb = [] ∧ x.trk = [] ∧ x.wbs = [] := by
  simp [Thread.drained, and_assoc]

/-- Settles O13: each barrier by its condition, DRAIN_TIMEOUT by `failAllStores_spec`. -/
theorem barrierResults : Obligations.BarrierResults := by
  intro t s f x on
  refine ⟨fun h => ⟨?_, ?_, ?_, ?_, ?_⟩, fun h => ?_, fun hrun => ⟨fun hw hsb => ?_, fun hw hsb htrk hwbs hdev => ?_, fun hw => ?_⟩⟩
  · rw [exec_sync, execSync, State.sys_ready _ h (by decide), State.finish_orWait]
    simp only [Thread.synced_iff]
    rfl
  · rw [exec_synci, execSynci, State.sys_ready _ h (by decide), State.finish_orWait]
    simp only [Thread.synced_iff]
    rfl
  · rw [exec_drain, execDrain, State.sys_ready _ h (by decide), apply_ite (State.finish t.val false), State.finish_drainEnd]
    simp only [Thread.drained_iff]
    rfl
  · rw [exec_fbar, execFbar, State.sys_ready _ h (by decide), apply_ite (State.finish t.val false)]
    rfl
  · rw [exec_pause, execPause, State.sys_ready _ h (by decide)]
    rfl
  · rw [exec_wait, execWait, State.sys_ready _ h (by decide), State.finish_orWait]
  · rw [exec_syncComplete, execSyncComplete, if_pos ⟨hrun, hw, (Thread.synced_iff _).mpr hsb⟩]
    rfl
  · have hthr : (s.modThr t.val fun x => { x with wait := .none }).thr t.val = (s.thr t.val).waits .none := s.thr_setThr_self ..
    rw [exec_drainEnd, execDrainEnd, if_pos ⟨hrun, hw, (Thread.drained_iff _).mpr ⟨hsb, htrk, hwbs⟩⟩, State.finish_drainEnd, hthr,
      show ((s.thr t.val).waits .none).devFail = none from hdev]
    rfl
  · obtain ⟨htrk, hsb, hwait, hdev⟩ := s.failAllStores_spec (t := t.val)
    refine ⟨(s.failAllStores t.val).settleBcasts, by rw [exec_drainTimeout, execDrainTimeout, if_pos ⟨hrun, hw⟩], ?_⟩
    rw [State.settleBcasts_thr]
    exact ⟨htrk, hsb, hwait.trans hw, hdev⟩

end Sys2Proof.Machine
end

section
/-! SUPPORT. The bytes of a line under a write. -/

open Sys2Proof

namespace Sys2Proof.Machine

/-- Byte `k` of a line. -/
def lineByte (d : LineData) (k : Nat) : Byte := BitVec.ofNat 8 (d.toNat / 2 ^ (8 * k))

@[simp] theorem length_leBytes (n v : Nat) : (leBytes n v).length = n := by
  induction n generalizing v with
  | zero => rfl
  | succ n ih => simp [leBytes, ih]

theorem getElem?_leBytes (n v i : Nat) : (leBytes n v)[i]? = if i < n then some (BitVec.ofNat 8 (v / 2 ^ (8 * i))) else none := by
  induction n generalizing v i with
  | zero => simp [leBytes]
  | succ n ih =>
    cases i with
    | zero => simp [leBytes]
    | succ i =>
      have hdiv : v / 256 / 2 ^ (8 * i) = v / 2 ^ (8 * (i + 1)) := by
        rw [Nat.div_div_eq_div_mul, show (256 : Nat) = 2 ^ 8 by rfl, ← pow_add]
        ring_nf
      rw [leBytes, List.getElem?_cons_succ, ih, hdiv]
      simp only [Nat.add_lt_add_iff_right]

theorem getElem?_lineBytes (d : LineData) (off n i : Nat) :
    (lineBytes d off n)[i]? = if i < n then some (lineByte d (off + i)) else none := by
  rw [lineBytes, getElem?_leBytes, lineByte, Nat.div_div_eq_div_mul, ← pow_add, Nat.mul_add]

theorem lineBytes_one (d : LineData) (k : Nat) : lineBytes d k 1 = [lineByte d k] := rfl

theorem getLsbD_lineByte (d : LineData) (k : Nat) {i : Nat} (hi : i < 8) : (lineByte d k).getLsbD i = d.getLsbD (8 * k + i) := by
  rw [lineByte, BitVec.getLsbD_ofNat, Nat.testBit_div_two_pow, BitVec.testBit_toNat, decide_eq_true hi, Bool.true_and, Nat.add_comm]

theorem lineByte_linePutByte (d : LineData) {off k : Nat} (b : Byte) (hk : k < 256) :
    lineByte (linePutByte d off b) k = if k = off then b else lineByte d k := by
  have hff : (255 : Nat) = 2 ^ 8 - 1 := rfl
  refine BitVec.eq_of_getLsbD_eq fun i hi => ?_
  rw [getLsbD_lineByte _ _ hi, linePutByte, BitVec.getLsbD_or, BitVec.getLsbD_and, BitVec.getLsbD_not, BitVec.getLsbD_ofNat,
    BitVec.getLsbD_ofNat, Nat.testBit_mul_two_pow, Nat.testBit_mul_two_pow, hff, Nat.testBit_two_pow_sub_one, BitVec.testBit_toNat]
  have hlt : 8 * k + i < 2048 := by omega
  split
  · next h =>
    subst h
    simp [hlt, hi]
  · next h =>
    rw [getLsbD_lineByte _ _ hi]
    by_cases hle : off < k
    · have hout : ¬ 8 * k + i - 8 * off < 8 := by omega
      simp [hlt, hout, BitVec.getLsbD_of_ge b _ (not_lt.mp hout)]
    · have hout : ¬ 8 * off ≤ 8 * k + i := by omega
      simp [hlt, hout]

/-- A byte of a line after a write of bytes at an offset. -/
theorem lineByte_linePut (d : LineData) (off : Nat) (l : List Byte) {k : Nat} (hk : k < 256) :
    lineByte (linePut d off l) k = if off ≤ k then (l[k - off]?).getD (lineByte d k) else lineByte d k := by
  induction l generalizing d off with
  | nil => simp [linePut]
  | cons b l ih =>
    rw [linePut, ih, lineByte_linePutByte d b hk]
    rcases lt_trichotomy k off with h | rfl | h
    · simp [h.ne, show ¬ off + 1 ≤ k by omega, show ¬ off ≤ k by omega]
    · simp
    · rw [if_pos (show off + 1 ≤ k from h), if_neg h.ne', if_pos h.le, show k - off = k - (off + 1) + 1 by omega, List.getElem?_cons_succ]

/-- The bytes just written are read back. -/
theorem lineBytes_linePut_self (d : LineData) {off : Nat} {l : List Byte} (h : off + l.length ≤ 256) :
    lineBytes (linePut d off l) off l.length = l := by
  refine List.ext_getElem? fun i => ?_
  rw [getElem?_lineBytes]
  split
  · next hi =>
    rw [lineByte_linePut d off l (by omega), if_pos (Nat.le_add_right off i), Nat.add_sub_cancel_left, List.getElem?_eq_getElem hi]
    rfl
  · next hi => exact (List.getElem?_eq_none (by omega)).symm

/-- The other bytes of the line stand. -/
theorem lineByte_linePut_of_outside (d : LineData) {off k : Nat} {l : List Byte} (hk : k < 256) (h : k < off ∨ off + l.length ≤ k) :
    lineByte (linePut d off l) k = lineByte d k := by
  rw [lineByte_linePut d off l hk]
  split
  · rw [List.getElem?_eq_none (by omega)]; rfl
  · rfl

end Sys2Proof.Machine
end

section
/-! SUPPORT. What fills, drops and lost reservations leave of lines and memory (R201, R210). -/

open Sys2Proof

namespace Sys2Proof.Machine

/-- State and data of every line, and the expanders' memory. -/
def State.contents (s : State) : (Nat → LineSt × LineData) × Tab Byte := (fun l => ((s.line l).st, (s.line l).data), s.mem)

@[simp] theorem State.contents_modThr (s : State) (t : Nat) (f : Thread → Thread) : (s.modThr t f).contents = s.contents := rfl
@[simp] theorem State.contents_modCore (s : State) (c : Nat) (f : Core → Core) : (s.modCore c f).contents = s.contents := rfl
@[simp] theorem State.contents_tickFree (s : State) : s.tickFree.contents = s.contents := rfl

theorem State.line_setLine (s : State) (l m : Nat) (x : Line) : (s.setLine l x).line m = if m = l then x else s.line m :=
  Tab.get_set _ _ _ _ _

/-- Presence bits are no contents. -/
@[simp] theorem State.contents_modPres (s : State) (l : Nat) (f : Line → Nat) :
    (s.modLine l fun x => { x with pres := f x }).contents = s.contents := by
  refine Prod.ext (funext fun m => ?_) rfl
  simp only [State.contents, State.modLine, State.line_setLine]
  split
  · next h => rw [h]
  · rfl

@[simp] theorem State.contents_clearResv (s : State) (l : Nat) (f : Nat → Bool) : (s.clearResv l f).contents = s.contents :=
  State.foldl_keeps State.contents _ (fun s t => s.contents_modThr t _) _ s

@[simp] theorem State.contents_coreDrop (s : State) (l c : Nat) : (s.coreDrop l c).contents = s.contents := by
  rw [State.coreDrop, State.contents_clearResv, State.contents_modPres, State.contents_modCore]

@[simp] theorem State.contents_dropCores (s : State) (l : Nat) (keep : Nat → Bool) : (s.dropCores l keep).contents = s.contents :=
  State.foldl_keeps State.contents _ (fun s c => s.contents_coreDrop l c) _ s

@[simp] theorem State.contents_pmcCore (s : State) (c e : Nat) : (s.pmcCore c e).contents = s.contents := by
  rw [State.pmcCore, State.contents_modThr, State.contents_modThr]

@[simp] theorem State.contents_fillL2 (s : State) (c l : Nat) : (s.fillL2 c l).contents = s.contents := by
  unfold State.fillL2
  dsimp only
  repeat' split
  all_goals simp

@[simp] theorem State.contents_fillL1 (s : State) (c k l : Nat) : (s.fillL1 c k l).contents = s.contents := by
  unfold State.fillL1
  dsimp only
  repeat' split
  all_goals simp

theorem State.line_of_contents {s u : State} (h : u.contents = s.contents) (l : Nat) :
    (u.line l).st = (s.line l).st ∧ (u.line l).data = (s.line l).data :=
  Prod.ext_iff.mp (congrFun (congrArg Prod.fst h) l)

/-- A write of an owned line: the line is M with the bytes replaced; memory stands (R185). -/
theorem State.line_writeOwned (s : State) (t pa : Nat) (b : List Byte) (p : Bool) :
    ((s.writeOwned t pa b p).line (lineOf pa)).st = .m ∧
    ((s.writeOwned t pa b p).line (lineOf pa)).data = linePut (s.line (lineOf pa)).data (pa % 256) b ∧
    (s.writeOwned t pa b p).mem = s.mem := by
  let v := (s.dropCores (lineOf pa) fun d => d == s.pcore t).clearResv (lineOf pa) fun u => u != t
  let x := v.line (lineOf pa)
  let y : Line := { x with
    st := .m, data := linePut x.data (pa % 256) b, poison := p || (x.poison && decide (b.length < 256)) }
  have hv : v.contents = s.contents := by simp [v]
  have hu : (s.writeOwned t pa b p).contents = (v.setLine (lineOf pa) y).contents := (State.contents_fillL1 ..).trans (State.contents_fillL2 ..)
  have hy : (v.setLine (lineOf pa) y).line (lineOf pa) = y := by rw [State.line_setLine, if_pos rfl]
  obtain ⟨hst, hdata⟩ := State.line_of_contents hu (lineOf pa)
  obtain ⟨-, hdata'⟩ := State.line_of_contents hv (lineOf pa)
  rw [hy] at hst hdata
  exact ⟨hst, hdata.trans (by rw [← hdata']), (congrArg Prod.snd hu).trans (congrArg Prod.snd hv)⟩

/-- A fold that clears reservations leaves a thread it meets without one, and another as it was. -/
theorem State.resv_foldl_clear (l : List Nat) (s : State) (t : Nat) :
    ((l.foldl (fun s t => s.modThr t fun x => { x with resv := none, defer := 0 }) s).thr t).resv =
      if t ∈ l then none else (s.thr t).resv := by
  induction l generalizing s with
  | nil => simp
  | cons v l ih =>
    rw [List.foldl_cons, ih, State.modThr]
    by_cases e : t = v
    · subst e
      simp
    · simp [State.thr_setThr_ne _ _ e, e]

/-- Threads whose reservation on the granule is cleared hold none on it (R201). -/
theorem State.resv_clearResv (s : State) {l t : Nat} {f : Nat → Bool} (ht : t < 128) (hf : f t = true) :
    ((s.clearResv l f).thr t).resv ≠ some l := by
  rw [State.clearResv, State.resv_foldl_clear]
  split
  · exact nofun
  · next h => exact fun hl => h (by simp [ht, hf, hl])

end Sys2Proof.Machine
end

section
/-! PROOF. O8, O9: atomic instructions (R81, R185, R201). -/

open Sys2Proof

namespace Sys2Proof.Machine

/-- What the write of an atomic instruction leaves (R81, R185). -/
theorem State.writeSelf_spec (s : State) (t : Thr) {pa : Nat} (v : Word) (h : pa % 8 = 0) :
    let u := s.writeSelf t.val pa (leBytes 8 v.toNat)
    u.lineRead pa 8 = leBytes 8 v.toNat ∧
    (∀ k, k < 256 → k < pa % 256 ∨ pa % 256 + 8 ≤ k →
      lineBytes (u.line (lineOf pa)).data k 1 = lineBytes (s.line (lineOf pa)).data k 1) ∧
    (u.line (lineOf pa)).st = .m ∧ (u.thr t.val).resv ≠ some (lineOf pa) ∧ u.mem = s.mem := by
  intro u
  have hcont : u.contents = (s.writeOwned t.val pa (leBytes 8 v.toNat) false).contents := State.contents_clearResv ..
  obtain ⟨hst, hdata, hmem⟩ := s.line_writeOwned t.val pa (leBytes 8 v.toNat) false
  obtain ⟨hst', hdata'⟩ := State.line_of_contents hcont (lineOf pa)
  have hlen := length_leBytes 8 v.toNat
  refine ⟨?_, fun k hk hout => ?_, hst'.trans hst, State.resv_clearResv _ t.isLt (by simp), (congrArg Prod.snd hcont).trans hmem⟩
  · have hself := lineBytes_linePut_self (s.line (lineOf pa)).data (off := pa % 256) (l := leBytes 8 v.toNat) (by omega)
    rwa [hlen, ← hdata, ← hdata'] at hself
  · rw [lineBytes_one, lineBytes_one, hdata', hdata, lineByte_linePut_of_outside _ hk (by omega)]

/-- An atomic instruction of a ready thread, from the checks on (R81, R187). -/
theorem State.atom8_ready {s : State} {t : Thr} {fn : Nat} {rd ra rb : GReg} {f : Thread → Word → Option Word} {pa : Nat}
    (hfn : fn ∈ [2, 4, 5, 6, 7]) (h : s.ready t.val 0 false = true) :
    let ea := ((s.fetched t.val).thr t.val).gr ra
    let c := (s.fetched t.val).checkMem t.val ea none .write 2 (ea.toNat % 8 != 0)
    c.value? = some pa → (c.state.thr t.val).sb = [] →
    let o := c.state.ownLine t.val pa 2 true
    o.isOk = true →
    let u := o.state.touch t.val (o.state.pcore t.val) 1 (lineOf pa)
    let v := match f (u.thr t.val) (o.state.dword pa) with
      | some v => u.writeSelf t.val pa (leBytes 8 v.toNat)
      | none => u
    s.atom8 t.val fn rd ra rb f = v.goesOn t ((v.thr t.val).setGr rd (o.state.dword pa)) ((v.thr t.val).pc + 4) := by
  intro ea c hc hsb o ho u v
  have hl : legalWord (encR 0x23 rd.val ra.val rb.val fn) = true := by
    simp only [List.mem_cons, List.not_mem_nil, or_false] at hfn
    rw [legalWord_atom rd ra rb (by omega), if_neg (by omega), if_neg (by omega), decide_eq_true (by omega)]
  rw [State.atom8, State.ais_ready _ _ h hl rfl rfl]
  dsimp only
  rw [Ex.bind_of_value? hc, State.syncBefore, if_pos hsb, Ex.ok_bind, Ex.bind_of_isOk ho]
  rfl

theorem exec_atomOp {i : Instr} {t : Thr} {rd ra : GReg} {f : Thread → Word → Option Word} (s : State)
    (h : atomOp i = some (t, rd, ra, f)) : ∃ fn ∈ [2, 4, 5, 6, 7], ∃ rb, exec i s = .next (s.atom8 t.val fn rd ra rb f) := by
  cases i
  all_goals simp only [atomOp, reduceCtorEq, Option.some.injEq, Prod.mk.injEq] at h
  all_goals obtain ⟨rfl, rfl, rfl, rfl⟩ := h
  case casd => exact ⟨2, by decide, _, rfl⟩
  case aadd => exact ⟨4, by decide, _, rfl⟩
  case swpd => exact ⟨5, by decide, _, rfl⟩
  case aand => exact ⟨6, by decide, _, rfl⟩
  case aor => exact ⟨7, by decide, _, rfl⟩

/-- Settles O8: the write by `writeSelf_spec`, the instructions by `atom8_ready`. -/
theorem atomicResults : Obligations.AtomicResults := by
  refine ⟨fun s t pa v h => s.writeSelf_spec t v h, ?_⟩
  intro i t rd ra f s pa hi h ea c hc hsb o ho u v
  obtain ⟨fn, hfn, rb, hx⟩ := exec_atomOp s hi
  rw [hx]
  exact congrArg Host.Outcome.next (State.atom8_ready hfn h hc hsb ho)

/-- To touch a line changes no active value, so the thread's core stays where it is. -/
theorem State.pcore_touch (s : State) (t c k l v : Nat) : (s.touch t c k l).pcore v = s.pcore v := by
  have hoff : (s.touch t c k l).offTraffic = s.offTraffic := by
    unfold State.touch
    dsimp only
    repeat' split
    all_goals simp
  have hact : (s.touch t c k l).active = s.active := (congrArg State.active hoff :)
  simp only [State.pcore, State.pcoreOfL, State.coreActive, State.actF, State.act, hact]

/-- STCD of a ready thread whose address passes the checks, with an empty buffer (R81, R202). -/
theorem State.stcd_ready {s : State} {t : Thr} {rd ra rb : GReg} {pa : Nat} (h : s.ready t.val 0 false = true) :
    let ea := ((s.fetched t.val).thr t.val).gr ra
    let c := (s.fetched t.val).checkMem t.val ea none .write 2 (ea.toNat % 8 != 0)
    c.value? = some pa → (c.state.thr t.val).sb = [] →
    ((c.state.thr t.val).resv ≠ some (lineOf pa) →
      s.stcd t.val rd ra rb = c.state.goesOn t
        { (c.state.thr t.val).setGr rd 1 with resv := none, defer := 0 } (((c.state.thr t.val).setGr rd 1).pc + 4)) ∧
    (let o := c.state.ownLine t.val pa 2 false
     (c.state.thr t.val).resv = some (lineOf pa) → o.isOk = true → (o.state.thr t.val).resv = some (lineOf pa) →
      let w := o.state.writeOwned t.val pa (leBytes 8 ((o.state.thr t.val).gr rb).toNat) false
      s.stcd t.val rd ra rb = w.goesOn t
        { (w.thr t.val).setGr rd 0 with resv := none, defer := 0 } (((w.thr t.val).setGr rd 0).pc + 4)) := by
  intro ea c hc hsb
  have hl : legalWord (encR 0x23 rd.val ra.val rb.val 0x001) = true := legalWord_atom rd ra rb (by decide)
  rw [State.stcd, State.ais_ready _ _ h hl rfl rfl]
  dsimp only
  rw [Ex.bind_of_value? hc, State.syncBefore, if_pos hsb, Ex.ok_bind]
  refine ⟨fun hres => ?_, ?_⟩
  · rw [if_pos hres]
    rfl
  · intro hres ho hres'
    rw [if_neg (not_not.mpr hres), Ex.bind_of_isOk ho, if_neg (not_not.mpr hres')]
    rfl

/-- Settles O9: STCD by `stcd_ready`, LRSV and CASQ along the parts of their bodies. -/
theorem reservedPairResults : Obligations.ReservedPairResults := by
  refine ⟨?_, ?_, ?_⟩
  · intro t rd ra s pa b h ea c hc r hr m hm
    have hl : legalWord (encR 0x23 rd.val ra.val (0 : GReg).val 0x000) = true := legalWord_atom rd ra 0 (by decide)
    rw [exec_lrsv, execLrsv, State.ais_ready _ _ h hl rfl rfl]
    dsimp only
    rw [Ex.bind_of_value? hc, Ex.bind_of_isOk hr, Ex.bind_of_value? hm]
    rfl
  · intro t rd ra rb s pa h ea c hc hsb
    obtain ⟨hfail, hstore⟩ := State.stcd_ready (rd := rd) (rb := rb) h hc hsb
    refine ⟨fun hres => ?_, ?_⟩
    · rw [exec_stcd, execStcd, hfail hres]
    · intro o hres ho hres' w
      rw [exec_stcd, execStcd, hstore hres ho hres']
  · intro t rd ra rb s p q h hrd hrb
    simp only [State.pcore_touch]
    intro hc hsb ho ho2 hacc
    have hl : legalWord (encR 0x23 rd.val ra.val rb.val 0x003) = true := by
      rw [legalWord_atom rd ra rb (by decide)]
      simp [hrd, hrb]
    rw [exec_casq, execCasq, State.ais_ready _ _ h hl rfl rfl]
    dsimp only
    rw [Ex.bind_of_value? hc, State.syncBefore, if_pos hsb, Ex.ok_bind, Ex.bind_of_isOk ho, Ex.bind_of_isOk ho2,
      if_neg (not_not.mpr hacc)]
    rfl

end Sys2Proof.Machine
end

section
/-! SUPPORT. Packed-decimal fields by their nibbles (R152, R154). -/

open Sys2Proof

namespace Sys2Proof.Machine

theorem digitsVal_concat (l : List Nat) (d : Nat) : digitsVal (l ++ [d]) = 10 * digitsVal l + d := by
  simp [digitsVal]

theorem nibbles_concat (l : List Byte) (c : Byte) : nibbles (l ++ [c]) = nibbles l ++ [c.toNat / 16] ++ [c.toNat % 16] := by
  simp [nibbles]

/-- The nibbles of a field as decimal digits, the sign among them. -/
theorem foldl_bytes_eq_digitsVal (l : List Byte) :
    l.foldl (fun (a : Nat) b => a * 100 + b.toNat / 16 * 10 + b.toNat % 16) 0 = digitsVal (nibbles l) := by
  induction l using List.reverseRecOn with
  | nil => rfl
  | append_singleton l c ih =>
    rw [List.foldl_concat, ih, nibbles_concat, digitsVal_concat, digitsVal_concat]
    ring

/-- The value of a field, by its bytes and by its nibbles. -/
theorem decValue_eq_packedVal {l : List Byte} (h : l ≠ []) : decValue l = packedVal l := by
  obtain ⟨l, c, rfl⟩ := (List.eq_nil_or_concat l).resolve_left h
  simp only [List.concat_eq_append]
  have hdig : (10 * digitsVal (nibbles l ++ [c.toNat / 16]) + c.toNat % 16 - c.toNat % 16) / 10 = digitsVal (nibbles l ++ [c.toNat / 16]) := by
    omega
  simp only [decValue, packedVal, foldl_bytes_eq_digitsVal, nibbles_concat, digitsVal_concat _ (c.toNat % 16), hdig,
    List.dropLast_concat, List.getLastD_concat]

theorem nibbles_lt_ten_iff (l : List Byte) : (∀ d ∈ nibbles l, d < 10) ↔ ∀ b ∈ l, b.toNat / 16 < 10 ∧ b.toNat % 16 < 10 := by
  simp only [nibbles, List.forall_mem_flatMap, List.forall_mem_cons, List.not_mem_nil, false_implies, implies_true, and_true]

/-- A field is valid where its nibbles are digits but for the last, a sign (R152). -/
theorem decValid_iff (l : List Byte) :
    decValid l = true ↔ l ≠ [] ∧ (∀ d ∈ (nibbles l).dropLast, d < 10) ∧ 10 ≤ (nibbles l).getLastD 0 := by
  induction l using List.reverseRecOn with
  | nil => simp [decValid]
  | append_singleton l c _ =>
    simp only [nibbles_concat, List.dropLast_concat, List.getLastD_concat, List.forall_mem_append, nibbles_lt_ten_iff, forall_and]
    simp [decValid, and_assoc, and_comm]

theorem decDigits_length (n v : Nat) : (decDigits n v).length = n := by
  induction n generalizing v with
  | zero => rfl
  | succ n ih => simp [decDigits, ih]

theorem decDigits_lt_ten {n v d : Nat} (h : d ∈ decDigits n v) : d < 10 := by
  induction n generalizing v with
  | zero => cases h
  | succ n ih =>
    rw [decDigits, List.mem_append, List.mem_singleton] at h
    obtain h | rfl := h
    · exact ih h
    · omega

theorem digitsVal_decDigits (n v : Nat) : digitsVal (decDigits n v) = v % 10 ^ n := by
  induction n generalizing v with
  | zero => simp [decDigits, digitsVal, Nat.mod_one]
  | succ n ih => rw [decDigits, digitsVal_concat, ih, pow_succ', Nat.mod_mul]; omega

/-- Packing an even number of nibbles loses none of them. -/
theorem nibbles_packNibbles {l : List Nat} (heven : l.length % 2 = 0) (h : ∀ d ∈ l, d < 16) : nibbles (packNibbles l) = l := by
  induction l using packNibbles.induct with
  | case1 a b r ih =>
    obtain ⟨ha, hb, hr⟩ : a < 16 ∧ b < 16 ∧ ∀ d ∈ r, d < 16 := by simpa using h
    have hr2 : nibbles (packNibbles r) = r := ih (by simp at heven; omega) hr
    have hval : (BitVec.ofNat 8 (16 * a + b)).toNat = 16 * a + b := by simp; omega
    have hcons : nibbles (packNibbles (a :: b :: r)) = (16 * a + b) / 16 :: (16 * a + b) % 16 :: nibbles (packNibbles r) := by
      simp [packNibbles, nibbles, hval]
    rw [hcons, hr2, show (16 * a + b) / 16 = a by omega, show (16 * a + b) % 16 = b by omega]
  | case2 l hl =>
    match l, heven, hl with
    | [], _, _ => rfl
    | [d], heven, _ => simp at heven
    | a :: b :: r, _, hl => exact (hl a b r rfl).elim

theorem nibbles_length (l : List Byte) : (nibbles l).length = 2 * l.length := by
  simp [nibbles, Nat.mul_comm]

section
variable {n : Nat} (hn : 0 < n) (v : Int)
include hn

theorem nibbles_packResult : nibbles (packResult n v) = decDigits (2 * n - 1) v.natAbs ++ [if v < 0 then 0xD else 0xC] := by
  refine nibbles_packNibbles ?_ fun d hd => ?_
  · simp [decDigits_length]; omega
  · rw [List.mem_append, List.mem_singleton] at hd
    obtain hd | rfl := hd
    · exact (decDigits_lt_ten hd).trans (by decide)
    · split <;> decide

theorem packResult_length : (packResult n v).length = n := by
  have hlen := congrArg List.length (nibbles_packResult hn v)
  rw [nibbles_length, List.length_append, decDigits_length, List.length_singleton] at hlen
  omega

theorem packResult_ne_nil : packResult n v ≠ [] := List.ne_nil_of_length_pos (by rw [packResult_length hn]; exact hn)

/-- A result is a valid field (R154). -/
theorem decValid_packResult : decValid (packResult n v) = true := by
  rw [decValid_iff, nibbles_packResult hn, List.dropLast_concat, List.getLastD_concat]
  refine ⟨packResult_ne_nil hn v, fun d => decDigits_lt_ten, ?_⟩
  split <;> decide

/-- A result that fits its field is read back (R154). -/
theorem packedVal_packResult (h : v.natAbs < 10 ^ (2 * n - 1)) : packedVal (packResult n v) = v := by
  simp only [packedVal, nibbles_packResult hn, List.dropLast_concat, List.getLastD_concat, digitsVal_decDigits, Nat.mod_eq_of_lt h]
  by_cases hv : v < 0
  · rw [if_pos hv, if_pos (by decide)]; omega
  · rw [if_neg hv, if_neg (by decide)]; omega

end

end Sys2Proof.Machine
end

section
/-! PROOF. O11: the packed-decimal instructions (R89, R152 to R156). -/

open Sys2Proof

namespace Sys2Proof.Machine

/-- Sums, differences and comparisons of valid fields (R154 to R156). -/
theorem decAdd_spec (sub : Bool) {a b : List Byte} (ha : decValid a = true) (hb : decValid b = true) :
    let v := if sub then decValue a - decValue b else decValue a + decValue b
    let r := decAdd sub a b
    r.1 = (if 10 ^ (2 * a.length - 1) ≤ v.natAbs then 3 else if v = 0 then 0 else if v < 0 then 1 else 2) ∧
    r.2.length = a.length ∧ decValid r.2 = true ∧
    (v.natAbs < 10 ^ (2 * a.length - 1) → decValue r.2 = v) ∧
    decCmp a b = (if decValue a = decValue b then 0 else if decValue a < decValue b then 1 else 2) := by
  intro v r
  have hane : a ≠ [] := ((decValid_iff a).mp ha).1
  have hbne : b ≠ [] := ((decValid_iff b).mp hb).1
  have hlen : 0 < a.length := List.length_pos_of_ne_nil hane
  have hv : v = if sub then packedVal a - packedVal b else packedVal a + packedVal b := by
    rw [← decValue_eq_packedVal hane, ← decValue_eq_packedVal hbne]
  have hr : r.2 = packResult a.length v := by rw [hv]; rfl
  refine ⟨by rw [hv]; rfl, by rw [hr, packResult_length hlen], by rw [hr, decValid_packResult hlen], fun h => ?_, ?_⟩
  · rw [hr, decValue_eq_packedVal (packResult_ne_nil hlen v), packedVal_packResult hlen v h]
  · rw [decValue_eq_packedVal hane, decValue_eq_packedVal hbne]; rfl

/-- The answer of a decimal instruction on valid fields, by its function code: rd and the bytes stored. -/
def decPlain (fn : Nat) (a b : List Byte) : Nat × Option (List Byte) :=
  if fn < 2 then ((decAdd (fn == 1) a b).1, some (decAdd (fn == 1) a b).2) else (if fn = 2 then decCmp a b else 0, none)

theorem exec_decOp {i : Instr} {t : Thr} {rd ra rb : GReg} {l1 l2 : BitVec 4} {fn : Nat} (s : State)
    (h : decOp i = some (t, rd, ra, rb, l1, l2, fn)) :
    exec i s = .next (s.dec t.val fn rd ra rb l1 l2 (fn != 3) (decide (fn < 2)) (decPlain fn)) ∧
    legalWord (encD ra.val rb.val rd.val l1.toNat l2.toNat fn) = true := by
  cases i
  all_goals simp only [decOp, reduceCtorEq, Option.some.injEq, Prod.mk.injEq] at h
  all_goals obtain ⟨rfl, rfl, rfl, rfl, rfl, rfl, rfl⟩ := h
  case dadd | dsub | dcmp => exact ⟨rfl, legalWord_dec _ _ _ _ _ (by decide)⟩
  case dval => exact ⟨rfl, legalWord_dval ..⟩

/-- A decimal instruction of a ready thread whose fields are read and whose result has room (R153). -/
theorem State.dec_ready {s : State} {t : Thr} {fn : Nat} {rd ra rb : GReg} {l1 l2 : BitVec 4} {m : List (Word × Nat)} {a b : List Byte}
    (hl : legalWord (encD ra.val rb.val rd.val l1.toNat l2.toNat fn) = true) (h : s.ready t.val 0 false = true) :
    let f := s.fetched t.val
    let x := f.thr t.val
    let p := operand (x.gr ra) (l1.toNat + 1) (if fn < 2 then .write else .read) 5 none
    let q := if fn = 3 then [] else operand (x.gr rb) (l2.toNat + 1) .read 5 none
    let e := f.checkAll t.val (sortPieces (p ++ q))
    e.value? = some m → (e.state.readAll t.val m p).value? = some a →
    let r := (e.state.readAll t.val m p).state.readAll t.val m q
    r.value? = some b →
    let bad := decInvalid a (if fn = 3 then none else some b)
    let code := bad.getD (decPlain fn a b).1
    let w := r.state.pushAll t.val (if bad.isNone then ((decPlain fn a b).2.map (fieldStores m x p)).getD [] else [])
    w.isOk = true →
    s.dec t.val fn rd ra rb l1 l2 (fn != 3) (decide (fn < 2)) (decPlain fn) =
      w.state.goesOn t ((w.state.thr t.val).setGr rd (BitVec.ofNat 64 code)) ((w.state.thr t.val).pc + 4) := by
  intro f x p q e he ha r hb bad code w hw
  rw [State.dec, State.ais_ready _ _ h hl rfl rfl]
  simp only [bne_iff_ne, ne_eq, ite_not, decide_eq_true_eq]
  rw [Ex.bind_of_value? he, Ex.bind_of_value? ha, Ex.bind_of_value? hb]
  obtain hbad | ⟨c, hbad⟩ := Option.eq_none_or_eq_some (decInvalid a (if fn = 3 then none else some b))
  · cases hout : (decPlain fn a b).2
    all_goals
      simp only [w, bad, hbad, hout] at hw
      simp only [w, code, bad, hbad, hout]
      exact congrArg (State.finish t.val false) (Ex.bind_of_isOk hw _)
  · simp only [w, bad, hbad] at hw
    simp only [w, code, bad, hbad]
    exact congrArg (State.finish t.val false) (Ex.bind_of_isOk hw _)

/-- The code as the statement of the decimal instructions writes it. -/
theorem decPlain_fst {fn : Nat} (a b : List Byte) : (decPlain fn a b).1 =
    if fn = 0 then (decAdd false a b).1 else if fn = 1 then (decAdd true a b).1 else if fn = 2 then decCmp a b else 0 := by
  match fn with
  | 0 | 1 | 2 => rfl
  | k + 3 => simp [decPlain]

/-- Settles O11: the arithmetic by `decAdd_spec`, the instructions by `dec_ready`. -/
theorem decimalResults : Obligations.DecimalResults := by
  refine ⟨fun sub a b ha hb _ _ => decAdd_spec sub ha hb, ?_⟩
  intro i t rd ra rb l1 l2 fn s m a b hi h f x p q e he ha r hb bad code out w hw
  obtain ⟨hx, hl⟩ := exec_decOp s hi
  have hcode : code = bad.getD (decPlain fn a b).1 := by
    rw [decPlain_fst]
    dsimp only [code]
    cases bad <;> rfl
  have hout : out = if bad.isNone then ((decPlain fn a b).2.map (fieldStores m x p)).getD [] else [] := by
    dsimp only [out]
    by_cases hfn : fn < 2
    · simp [decPlain, hfn]
    · simp [decPlain, hfn]
  rw [hx, hcode]
  simp only [w, hout] at hw ⊢
  exact congrArg Host.Outcome.next (State.dec_ready hl h he ha hb hw)

end Sys2Proof.Machine
end

section
/-! PROOF. O10: MVL, CML and FLL (R85 to R88, R124). -/

open Sys2Proof

namespace Sys2Proof.Machine

/-- One byte copied from `a + i` to `d + i`. -/
def copyStep (a d : Nat) (m : Nat → Byte) (i : Nat) : Nat → Byte := fun j => if j = d + i then m (a + i) else m j

/-- From a memory that the bytes written so far account for, the unit's copy gives the bytes that copying one by one leaves (R85). -/
theorem copyBytes_spec (m : Nat → Byte) (a d n : Nat) : ∀ (j : Nat) (cur : Nat → Byte) (done : List (Nat × Byte)),
    (∀ k, ((done.find? fun e => e.1 == k).map (·.2)).getD (m k) = cur k) →
    let out := copyBytes ((List.range' j n).map fun i => (a + i, m (a + i))) ((List.range' j n).map fun i => d + i) done
    out.length = n ∧ ∀ k, (if d + j ≤ k ∧ k < d + j + n then out.getD (k - (d + j)) 0 else cur k) =
      (List.range' j n).foldl (copyStep a d) cur k := by
  induction n with
  | zero => exact fun j cur done _ => ⟨rfl, fun k => if_neg (by omega)⟩
  | succ n ih =>
    intro j cur done hdone
    have hnext (k : Nat) : ((((d + j, cur (a + j)) :: done).find? fun e => e.1 == k).map (·.2)).getD (m k) = copyStep a d cur j k := by
      by_cases h : k = d + j
      · simp [copyStep, h]
      · rw [List.find?_cons_of_neg (by simpa using Ne.symm h), hdone, copyStep, if_neg h]
    obtain ⟨hlen, hmem⟩ := ih (j + 1) (copyStep a d cur j) ((d + j, cur (a + j)) :: done) hnext
    rw [List.range'_succ, List.map_cons, List.map_cons, copyBytes, hdone, List.foldl_cons]
    refine ⟨by simp [hlen], fun k => ?_⟩
    rw [← hmem k]
    rcases lt_trichotomy k (d + j) with h | rfl | h
    · rw [if_neg (by omega), if_neg (by omega), copyStep, if_neg (by omega)]
    · rw [if_pos (by omega), if_neg (by omega), Nat.sub_self, copyStep, if_pos rfl]
      rfl
    · by_cases hin : k < d + j + (n + 1)
      · rw [if_pos (by omega), if_pos (by omega), show k - (d + j) = k - (d + (j + 1)) + 1 by omega]
        rfl
      · rw [if_neg (by omega), if_neg (by omega), copyStep, if_neg (by omega)]

theorem unitLen_eq_zero_iff (a n : Word) : unitLen a n = 0 ↔ n = 0 := by
  have hmod : a.toNat % 256 < 256 := Nat.mod_lt _ (by decide)
  rw [unitLen, ← BitVec.toNat_inj, show (0 : Word).toNat = 0 from rfl]
  omega

theorem State.finish_endUnit (s : State) (t : Nat) (con : Bool) (rd : GReg) :
    State.finish t con (s.endUnit t rd) = if (s.thr t).gr (oddOf rd) = 0 then s.retire t ((s.thr t).pc + 4) con else s := by
  unfold State.endUnit
  exact apply_ite (State.finish t con) ..

section
variable {s : State} {t : Thr} {rd ra rb : GReg} (h : s.ready t.val 0 false = true)
include h

/-- A LONG instruction of length 0 changes no register; CML sets rb to 0 (R86). -/
theorem exec_long_zero (hz : ((s.fetched t.val).thr t.val).gr (oddOf rd) = 0) :
    let x := (s.fetched t.val).thr t.val
    (legalWord (encR 0x35 rd.val ra.val 0 0x000) = true → exec (.mvl t rd ra) s = .next ((s.fetched t.val).retire t.val (x.pc + 4))) ∧
    (legalWord (encR 0x35 rd.val ra.val 0 0x002) = true → exec (.fll t rd ra) s = .next ((s.fetched t.val).retire t.val (x.pc + 4))) ∧
    (legalWord (encR 0x35 rd.val ra.val rb.val 0x001) = true →
      exec (.cml t rd ra rb) s = .next ((s.fetched t.val).goesOn t (x.setGr rb 0) (x.pc + 4))) := by
  have hu : unitLen (((s.fetched t.val).thr t.val).gr rd) (((s.fetched t.val).thr t.val).gr (oddOf rd)) = 0 := (unitLen_eq_zero_iff _ _).mpr hz
  refine ⟨fun hl => ?_, fun hl => ?_, fun hl => ?_⟩
  · rw [exec_mvl, execMvl, State.ais_ready _ _ h hl rfl rfl]
    dsimp only
    rw [if_pos hu]
    rfl
  · rw [exec_fll, execFll, State.ais_ready _ _ h hl rfl rfl]
    dsimp only
    rw [if_pos hu]
    rfl
  · rw [exec_cml, execCml, State.ais_ready _ _ h hl rfl rfl]
    dsimp only
    rw [if_pos hu]
    rfl

end

/-- Settles O10: the copy by `copyBytes_spec`, length 0 by `exec_long_zero`, a unit along the parts of each body. -/
theorem longResults : Obligations.LongResults := by
  refine ⟨?_, fun t rd ra rb s h hz => exec_long_zero h hz, ?_⟩
  · intro m a d n
    have hspec := copyBytes_spec m a d n 0 m [] fun k => rfl
    rw [← List.range_eq_range', Nat.add_zero] at hspec
    exact hspec
  · intro t rd ra rb s m b c h f x u hz
    have hu : ¬ unitLen (((s.fetched t.val).thr t.val).gr rd) (((s.fetched t.val).thr t.val).gr (oddOf rd)) = 0 :=
      fun hu => hz ((unitLen_eq_zero_iff _ _).mp hu)
    refine ⟨?_, ?_, ?_⟩
    · intro hl p q e he hb w hw y
      rw [exec_mvl, execMvl, State.ais_ready _ _ h hl rfl rfl]
      dsimp only
      rw [if_neg hu, Ex.bind_of_value? he, Ex.bind_of_value? hb, Ex.bind_of_isOk hw, State.finish_endUnit]
      rfl
    · intro hl e he w hw y
      rw [exec_fll, execFll, State.ais_ready _ _ h hl rfl rfl]
      dsimp only
      rw [if_neg hu, Ex.bind_of_value? he, Ex.bind_of_isOk hw, State.finish_endUnit]
      rfl
    · intro hl p q e he hb r hc y
      rw [exec_cml, execCml, State.ais_ready _ _ h hl rfl rfl]
      dsimp only
      rw [if_neg hu, Ex.bind_of_value? he, Ex.bind_of_value? hb, Ex.bind_of_value? hc, apply_ite (State.finish t.val _),
        apply_ite (State.finish t.val _)]
      simp only [decide_eq_true_eq]
      rfl

end Sys2Proof.Machine
end

section
/-! PROOF. O23 fails: a hint's request runs the home agent, which serves every request that waits there, among them a line operation of the hint's
own thread (R215, R232). -/

open Sys2Proof

namespace Sys2Proof.Machine

/-- A thread at S level with a CLWB of line 0x50 at the head of its buffer; g1 holds an address of another line. -/
def hintThread : Thread :=
  { Thread.reset with
    run := .running, pc := 0x1000, g := [(1, 0x3000)], sr := [(SR_PST, 1)], sb := [⟨.clwb, 0x5000, [], 1, false, 0x1000⟩] }

/-- The clean-line request of that CLWB, which waits at its home, this module. -/
def hintWaiting : HomeTx :=
  { line := 0x50, opc := OPC_CMW, src := 0, tid := 0, part := 0, thr := some 0, st := .hq, wait := 0, data := none, direct := false
    grant := 1, keep := 0, evict := none, rdWait := false, dead := false, acked := false }

/-- A TLB entry that maps the first GiB to itself for every access. -/
def hintMap : TlbEnt :=
  { size := 3, vpn := 0, tag := 0, g := true, pa := 0, d := true, a := true, us := true, ex := true, wr := true, rd := true }

/-- Thread 0 runs as above in STEP 6, the line of its pc is held, the first region of memory is granted to partition 0. -/
def hintState : State :=
  ((({ State.reset with
        pwrok := true, threads := [(0, hintThread)], home := [hintWaiting]
        lines := [(16, { st := .m, pres := 1, way := 0, data := 0, poison := false, err := 0 })] } : State).setAct
    (FBK_GRANT 0) 0xC0).setF SVP_STAT SVP_STAT_STEP 6).modCore 0 fun c => { c with held := false, tlb := [hintMap] }

/-- The thread is ready, with the CLWB in its buffer after the fetch. -/
theorem hintState_ready : hintState.ready 0 0 false = true ∧ ((hintState.fetched 0).thr 0).sb ≠ [] := by decide

/-- The hint answers a state in which the CLWB has left the buffer. -/
theorem hintState_prefetch_sb : ((hintState.prefetch 0 0x004 1 false).thr 0).sb = [] := by decide

/-- Refutes O23: PREFR asks for its line at home, and the home agent then completes the thread's own waiting CLWB, whose entry leaves the
store buffer. -/
theorem not_hintResults : ¬ Obligations.HintResults := by
  rintro ⟨-, hhint, -⟩
  obtain ⟨hready, hfull⟩ := hintState_ready
  obtain ⟨u, hu, -, hsb, -, -⟩ := hhint (.prefr 0 1) 0 1 hintState rfl hready
  have hstate : u = hintState.prefetch 0 0x004 1 false := by
    rw [exec_prefr, execPrefr] at hu
    exact (Host.Outcome.next.inj hu).symm
  rw [hstate] at hsb
  exact hfull (hsb.symm.trans hintState_prefetch_sb)

end Sys2Proof.Machine
end

section
/-! SUPPORT. What an entry leaves of a thread: PST, the other state registers, and what it abandons (R112, R115, R116). -/

open Sys2Proof

namespace Sys2Proof.Machine

/-! What an entry or a return leaves alone (`Thread.keeps`). -/

theorem Thread.keeps_refl (x : Thread) : x.keeps x [] := ⟨rfl, rfl, fun _ _ => rfl⟩

theorem Thread.setSr_keeps (x : Thread) (n : Nat) (v : Word) : (x.setSr n v).keeps x [n] :=
  ⟨rfl, rfl, fun _ hm => x.srg_setSr_ne v (by simpa using hm)⟩

theorem Thread.srg_of_keeps {x y : Thread} {l : List Nat} {n : Nat} (h : y.keeps x l) (hn : n ∉ l) : y.srg n = x.srg n := by
  obtain ⟨-, -, hsr⟩ := h
  exact hsr n hn

/-- What is kept twice is kept: the registers that may change add up. -/
theorem Thread.keeps_trans {x y z : Thread} {l m : List Nat} (h : z.keeps y l) (h' : y.keeps x m) : z.keeps x (l ++ m) := by
  obtain ⟨hg, hf, hsr⟩ := h
  obtain ⟨hg', hf', hsr'⟩ := h'
  refine ⟨hg.trans hg', hf.trans hf', fun n hn => ?_⟩
  rw [List.mem_append, not_or] at hn
  obtain ⟨hl, hm⟩ := hn
  exact (hsr n hl).trans (hsr' n hm)

/-- A register that kept its value after all leaves the list of those that may have changed. -/
theorem Thread.keeps_drop {x y : Thread} {l m : List Nat} {k : Nat} (h : y.keeps x l) (hk : y.srg k = x.srg k) (hl : l ⊆ k :: m) :
    y.keeps x m := by
  obtain ⟨hg, hf, hsr⟩ := h
  refine ⟨hg, hf, fun n hn => ?_⟩
  by_cases hnk : n = k
  · rw [hnk, hk]
  · exact hsr n fun hnl => (List.mem_cons.mp (hl hnl)).elim hnk hn

/-! PST after an entry. -/

/-- PST after an entry to S level (R115). -/
def pstAtS (w : Word) : Word := PST_SGIE.put (PST_STA.put (PST_PL.put w 1) 1) 0

/-- PST after an entry to M level (R116). -/
def pstAtM (w : Word) : Word := PST_MGIE.put (PST_MTA.put (PST_PL.put w 3) 1) 0

theorem pstAtS_fields (w : Word) : PST_PL.get (pstAtS w) = 1 ∧ PST_STA.get (pstAtS w) = 1 ∧ PST_SGIE.get (pstAtS w) = 0 ∧
    ∀ g ∈ [PST_MDT, PST_MTA, PST_MGIE, PST_FEN, PST_STR], g.get (pstAtS w) = g.get w := by
  simp (disch := decide) only [pstAtS, Fld.get_put_self, Fld.get_put_ne, List.forall_mem_cons, List.not_mem_nil, false_imp_iff,
    implies_true, and_true]
  decide

theorem pstAtM_fields (w : Word) : PST_PL.get (pstAtM w) = 3 ∧ PST_MTA.get (pstAtM w) = 1 ∧ PST_MGIE.get (pstAtM w) = 0 ∧
    ∀ g ∈ [PST_MDT, PST_STA, PST_SGIE, PST_FEN, PST_STR], g.get (pstAtM w) = g.get w := by
  simp (disch := decide) only [pstAtM, Fld.get_put_self, Fld.get_put_ne, List.forall_mem_cons, List.not_mem_nil, false_imp_iff,
    implies_true, and_true]
  decide

/-! The state registers an entry writes. -/

/-- The address register after an entry: written where the cause names an address (R112). -/
def Thread.nameAddr (x : Thread) (n : Nat) (a : Option Word) : Thread :=
  match a with
  | some w => x.setSr n w
  | none => x

theorem Thread.srg_nameAddr_self (x : Thread) (n : Nat) (a : Option Word) : (x.nameAddr n a).srg n = a.getD (x.srg n) := by
  cases a
  · rfl
  · exact x.srg_setSr_self ..

theorem Thread.srg_nameAddr_ne (x : Thread) {m n : Nat} (a : Option Word) (h : m ≠ n) : (x.nameAddr n a).srg m = x.srg m := by
  cases a
  · rfl
  · exact x.srg_setSr_ne _ h

theorem Thread.srg_setPst_self (x : Thread) (f : Fld) (v : Nat) : (x.setPst f v).srg SR_PST = f.put (x.srg SR_PST) v := x.srg_setSr_self ..

theorem Thread.srg_setPst_ne (x : Thread) {n : Nat} (f : Fld) (v : Nat) (h : n ≠ SR_PST) : (x.setPst f v).srg n = x.srg n :=
  x.srg_setSr_ne _ h

theorem Thread.srg_enter (x : Thread) (pc : Word) (n : Nat) : (x.enter pc).srg n = x.srg n := rfl

theorem Thread.enterS_eq (x : Thread) (c : Cause) (ret : Word) : x.enterS c ret =
    (((((((x.setSr SR_SSS (x.srg SR_PST)).setSr SR_SRP (align4 ret)).setSr SR_SCS c.word).nameAddr SR_SFA c.addr).setPst PST_PL 1).setPst
      PST_STA 1).setPst PST_SGIE 0).enter (x.srg SR_SVB) := by
  unfold enterS nameAddr
  cases c.addr <;> rfl

theorem Thread.enterM_eq (x : Thread) (c : Cause) (ret pc : Word) : x.enterM c ret pc =
    (((((((x.setSr SR_MSS (x.srg SR_PST)).setSr SR_MRP (align4 ret)).setSr SR_MCS c.word).nameAddr SR_MFA c.addr).setPst PST_PL 3).setPst
      PST_MTA 1).setPst PST_MGIE 0).enter pc := by
  unfold enterM nameAddr
  cases c.addr <;> rfl

/-- The state registers that an entry to S level writes (R115). -/
theorem Thread.srg_enterS (x : Thread) (c : Cause) (ret : Word) : let y := x.enterS c ret
    y.srg SR_SSS = x.srg SR_PST ∧ y.srg SR_SRP = align4 ret ∧ y.srg SR_SCS = c.word ∧ y.srg SR_SFA = c.addr.getD (x.srg SR_SFA) ∧
      y.srg SR_PST = pstAtS (x.srg SR_PST) := by
  simp (disch := decide) only [enterS_eq, srg_enter, srg_setPst_self, srg_setPst_ne, srg_nameAddr_self, srg_nameAddr_ne, srg_setSr_self,
    srg_setSr_ne, pstAtS, and_self]

/-- The state registers that an entry to M level writes (R116). -/
theorem Thread.srg_enterM (x : Thread) (c : Cause) (ret pc : Word) : let y := x.enterM c ret pc
    y.srg SR_MSS = x.srg SR_PST ∧ y.srg SR_MRP = align4 ret ∧ y.srg SR_MCS = c.word ∧ y.srg SR_MFA = c.addr.getD (x.srg SR_MFA) ∧
      y.srg SR_PST = pstAtM (x.srg SR_PST) := by
  simp (disch := decide) only [enterM_eq, srg_enter, srg_setPst_self, srg_setPst_ne, srg_nameAddr_self, srg_nameAddr_ne, srg_setSr_self,
    srg_setSr_ne, pstAtM, and_self]

/-! What is no state register. -/

/-- A thread without its state registers. -/
def Thread.offSr (x : Thread) : Thread := { x with sr := [] }

theorem Thread.offSr_setSr (x : Thread) (n : Nat) (v : Word) : (x.setSr n v).offSr = x.offSr := rfl
theorem Thread.offSr_setPst (x : Thread) (f : Fld) (v : Nat) : (x.setPst f v).offSr = x.offSr := rfl
theorem Thread.offSr_enter (x : Thread) (pc : Word) : (x.enter pc).offSr = x.offSr.enter pc := rfl
theorem Thread.offSr_nameAddr (x : Thread) (n : Nat) (a : Option Word) : (x.nameAddr n a).offSr = x.offSr := by cases a <;> rfl

theorem Thread.keeps_of_offSr {x y : Thread} {but : List Nat} (h : y.offSr = x.offSr) (hsr : ∀ n, n ∉ but → y.srg n = x.srg n) :
    y.keeps x but := ⟨(congrArg Thread.g h :), (congrArg Thread.f h :), hsr⟩

/-- But for its state registers, `y` is what an entry at `pc` makes of `x`. -/
def Thread.entersAt (y x : Thread) (pc : Word) : Prop := y.offSr = x.offSr.enter pc

theorem Thread.enterS_entersAt (x : Thread) (c : Cause) (ret : Word) : (x.enterS c ret).entersAt x (x.srg SR_SVB) := by
  rw [entersAt, enterS_eq, offSr_enter, offSr_setPst, offSr_setPst, offSr_setPst, offSr_nameAddr, offSr_setSr, offSr_setSr, offSr_setSr]

theorem Thread.enterM_entersAt (x : Thread) (c : Cause) (ret pc : Word) : (x.enterM c ret pc).entersAt x pc := by
  rw [entersAt, enterM_eq, offSr_enter, offSr_setPst, offSr_setPst, offSr_setPst, offSr_nameAddr, offSr_setSr, offSr_setSr, offSr_setSr]

section
variable {x y : Thread} {pc : Word} (h : y.entersAt x pc)
include h

theorem Thread.pc_of_entersAt : y.pc = pc := (congrArg Thread.pc h :)
theorem Thread.wait_of_entersAt : y.wait = .none := (congrArg Thread.wait h :)
theorem Thread.resv_of_entersAt : y.resv = none := (congrArg Thread.resv h :)
theorem Thread.ssi_of_entersAt : y.ssi = x.ssi := (congrArg Thread.ssi h :)
theorem Thread.msi_of_entersAt : y.msi = x.msi := (congrArg Thread.msi h :)
theorem Thread.mci_of_entersAt : y.mci = x.mci := (congrArg Thread.mci h :)
theorem Thread.sq_of_entersAt : y.sq = x.sq := (congrArg Thread.sq h :)
theorem Thread.mq_of_entersAt : y.mq = x.mq := (congrArg Thread.mq h :)
theorem Thread.tkoPend_of_entersAt : y.tkoPend = x.tkoPend := (congrArg Thread.tkoPend h :)
theorem Thread.rexPend_of_entersAt : y.rexPend = x.rexPend := (congrArg Thread.rexPend h :)
theorem Thread.wtwPend_of_entersAt : y.wtwPend = x.wtwPend := (congrArg Thread.wtwPend h :)

theorem Thread.keeps_of_entersAt {but : List Nat} (hsr : ∀ n, n ∉ but → y.srg n = x.srg n) : y.keeps x but :=
  ⟨(congrArg Thread.g h :), (congrArg Thread.f h :), hsr⟩

end

/-- An entry to S level writes no register but those. -/
theorem Thread.enterS_keeps (x : Thread) (c : Cause) (ret : Word) : (x.enterS c ret).keeps x [SR_PST, SR_SSS, SR_SRP, SR_SCS, SR_SFA] := by
  refine Thread.keeps_of_entersAt (x.enterS_entersAt c ret) fun n hn => ?_
  simp only [List.mem_cons, List.not_mem_nil, or_false, not_or] at hn
  obtain ⟨hpst, hsss, hsrp, hscs, hsfa⟩ := hn
  simp (disch := assumption) only [enterS_eq, srg_enter, srg_setPst_ne, srg_nameAddr_ne, srg_setSr_ne]

/-- An entry to M level writes no register but those. -/
theorem Thread.enterM_keeps (x : Thread) (c : Cause) (ret pc : Word) :
    (x.enterM c ret pc).keeps x [SR_PST, SR_MSS, SR_MRP, SR_MCS, SR_MFA] := by
  refine Thread.keeps_of_entersAt (x.enterM_entersAt c ret pc) fun n hn => ?_
  simp only [List.mem_cons, List.not_mem_nil, or_false, not_or] at hn
  obtain ⟨hpst, hmss, hmrp, hmcs, hmfa⟩ := hn
  simp (disch := assumption) only [enterM_eq, srg_enter, srg_setPst_ne, srg_nameAddr_ne, srg_setSr_ne]

/-- An entry to S level (R115). -/
theorem Thread.enterS_spec (x : Thread) (c : Cause) (ret : Word) : let y := x.enterS c ret
    y.srg SR_SSS = x.srg SR_PST ∧ y.srg SR_SRP = align4 ret ∧ y.srg SR_SCS = c.word ∧ y.srg SR_SFA = c.addr.getD (x.srg SR_SFA) ∧
      y.pl = 1 ∧ y.pstBit PST_STA = true ∧ y.pstBit PST_SGIE = false ∧
      ∀ g ∈ [PST_MDT, PST_MTA, PST_MGIE, PST_FEN, PST_STR], g.get (y.srg SR_PST) = g.get (x.srg SR_PST) := by
  obtain ⟨hsss, hsrp, hscs, hsfa, hpst⟩ := x.srg_enterS c ret
  obtain ⟨hpl, hsta, hsgie, hrest⟩ := pstAtS_fields (x.srg SR_PST)
  refine ⟨hsss, hsrp, hscs, hsfa, ?_⟩
  simp only [pl, pstBit, hpst, hpl, hsta, hsgie]
  exact ⟨trivial, rfl, rfl, hrest⟩

/-- An entry to M level (R116). -/
theorem Thread.enterM_spec (x : Thread) (c : Cause) (ret pc : Word) : let y := x.enterM c ret pc
    y.srg SR_MSS = x.srg SR_PST ∧ y.srg SR_MRP = align4 ret ∧ y.srg SR_MCS = c.word ∧ y.srg SR_MFA = c.addr.getD (x.srg SR_MFA) ∧
      y.pl = 3 ∧ y.pstBit PST_MTA = true ∧ y.pstBit PST_MGIE = false ∧
      ∀ g ∈ [PST_MDT, PST_STA, PST_SGIE, PST_FEN, PST_STR], g.get (y.srg SR_PST) = g.get (x.srg SR_PST) := by
  obtain ⟨hmss, hmrp, hmcs, hmfa, hpst⟩ := x.srg_enterM c ret pc
  obtain ⟨hpl, hmta, hmgie, hrest⟩ := pstAtM_fields (x.srg SR_PST)
  refine ⟨hmss, hmrp, hmcs, hmfa, ?_⟩
  simp only [pl, pstBit, hpst, hpl, hmta, hmgie]
  exact ⟨trivial, rfl, rfl, hrest⟩

/-! The double trap. -/

/-- The state registers that the double trap writes (R116). -/
theorem Thread.srg_enterDouble (x : Thread) (c : Cause) (mb : Word) : let y := x.enterDouble c mb
    y.srg SR_MCS = ({ code := 0x25, info := c.code % 256 + 256 * b2n c.int } : Cause).word ∧ y.srg SR_MFA = x.pc ∧
      y.srg SR_PST = PST_MDT.put (pstAtM (x.srg SR_PST)) 1 := by
  unfold enterDouble
  simp (disch := decide) only [srg_enter, srg_setPst_self, srg_setPst_ne, srg_setSr_self, srg_setSr_ne, pstAtM, and_self]

theorem Thread.enterDouble_entersAt (x : Thread) (c : Cause) (mb : Word) : (x.enterDouble c mb).entersAt x (mb + 0x140) := by
  rw [entersAt, enterDouble, offSr_enter, offSr_setPst, offSr_setPst, offSr_setPst, offSr_setPst, offSr_setSr, offSr_setSr]

/-- The double trap writes no register but those. -/
theorem Thread.enterDouble_keeps (x : Thread) (c : Cause) (mb : Word) : (x.enterDouble c mb).keeps x [SR_PST, SR_MCS, SR_MFA] := by
  refine Thread.keeps_of_entersAt (x.enterDouble_entersAt c mb) fun n hn => ?_
  simp only [List.mem_cons, List.not_mem_nil, or_false, not_or] at hn
  obtain ⟨hpst, hmcs, hmfa⟩ := hn
  unfold enterDouble
  simp (disch := assumption) only [srg_enter, srg_setPst_ne, srg_setSr_ne]

/-- The double trap (R116). -/
theorem Thread.enterDouble_spec (x : Thread) (c : Cause) (mb : Word) : let y := x.enterDouble c mb
    y.srg SR_MCS = ({ code := 0x25, info := c.code % 256 + 256 * b2n c.int } : Cause).word ∧ y.srg SR_MFA = x.pc ∧ y.pl = 3 ∧
      y.pstBit PST_MDT = true := by
  obtain ⟨hmcs, hmfa, hpst⟩ := x.srg_enterDouble c mb
  obtain ⟨hpl, -, -, -⟩ := pstAtM_fields (x.srg SR_PST)
  refine ⟨hmcs, hmfa, ?_⟩
  simp only [pl, pstBit, hpst]
  rw [Fld.get_put_self _ _ _ (by decide), Fld.get_put_ne _ _ _ _ (by decide)]
  exact ⟨hpl, rfl⟩

/-! Causes. -/

/-- The word of an exception's cause: INT is 0 (R112). -/
theorem Cause.word_of_exception {c : Cause} (h : c.int = false) : c.word = BitVec.ofNat 64 (c.code % 256 * 2 ^ 32 + c.info % 2 ^ 32) := by
  simp only [word, h, b2n, Bool.false_eq_true, if_false, Nat.zero_mul, Nat.zero_add]

/-- The word of an interrupt's cause: INT is 1 (R112). -/
theorem Cause.word_of_interrupt {c : Cause} (h : c.int = true) :
    c.word = BitVec.ofNat 64 (2 ^ 63 + c.code % 256 * 2 ^ 32 + c.info % 2 ^ 32) := by
  simp only [word, h, b2n, if_true, Nat.one_mul]

end Sys2Proof.Machine
end

section
/-! PROOF. O17, O18: exceptions taken at S level and at M level (R112, R115 to R117). -/

open Sys2Proof

namespace Sys2Proof.Machine

/-- Where an exception returns to, before its low bits are cut: past an SVC (R117). -/
def Thread.backTo (x : Thread) (code : Nat) : Word := if code = 0x06 ∨ code = 0x07 ∨ code = 0x08 then x.pc + 4 else x.pc

theorem Thread.align4_backTo (x : Thread) (code : Nat) : align4 (x.backTo code) = x.returnPc code := rfl

section
variable {s : State} {t : Nat} {c : Cause} {ret : Word} {vec : Option Word}

/-- Entry to M level, where nothing makes it a double trap (R116, R119). -/
theorem State.takeM_enters {double : Bool} (h : double = false ∨ (s.thr t).pstBit PST_MTA = false) :
    s.takeM t c ret vec double = s.setThr t ((s.thr t).enterM c ret (vec.elim ((s.thr t).srg SR_MVB) (s.mbaseOf t + ·))) := by
  have hno : (double && (s.thr t).pstBit PST_MTA) = false := by rcases h with h | h <;> simp [h]
  unfold takeM
  cases vec <;> simp only [hno, Bool.false_eq_true, if_false] <;> rfl

/-- The double trap: MTA is 1 and MDT is 0 (R116). -/
theorem State.takeM_double (hmta : (s.thr t).pstBit PST_MTA = true) (hmdt : (s.thr t).pstBit PST_MDT = false) :
    s.takeM t c ret vec true = s.setThr t ((s.thr t).enterDouble c (s.mbaseOf t)) := by
  simp only [takeM, hmta, hmdt, Bool.and_self, Bool.false_eq_true, if_true, if_false]

/-- The record of a thread that a trap stops (R116). -/
def State.trapRecord (s : State) (t : Nat) : RecIn :=
  { block := 0x01, inst := s.pcore t, cls := 2, typ := 0x0F, part := some (s.part t), thread := some t
    detail := leBytes 8 (s.thr t).pc.toNat }

/-- With MDT set too the thread stops (R116). -/
theorem State.takeM_stops (hmta : (s.thr t).pstBit PST_MTA = true) (hmdt : (s.thr t).pstBit PST_MDT = true) :
    s.takeM t c ret vec true = (s.log (s.trapRecord t)).stopThread t .stoppedTrap := by
  simp only [takeM, hmta, hmdt, Bool.and_self, if_true, trapRecord]

/-- An exception that R112 takes at M level. -/
theorem State.takeExc_atM (h : takenAtM c.code (s.thr t).pl = true) :
    s.takeExc t c = s.takeM t c ((s.thr t).backTo c.code) (if c.code = 0x24 then some 0x100 else none) true := by
  simp only [takeExc, h, if_true, Bool.or_eq_true, beq_iff_eq, or_assoc]
  split <;> rfl

/-- An exception that R112 takes at S level, while no floating-point trap is pending. -/
theorem State.takeExc_atS (h : takenAtM c.code (s.thr t).pl = false) (hcode : c.code ≠ 0x0A) (hfp : (s.thr t).fpPend = false) :
    s.takeExc t c = s.takeSExc t c ((s.thr t).backTo c.code) := by
  simp only [takeExc, h, hfp, hcode, Bool.false_and, Bool.false_eq_true, if_false, Bool.or_eq_true, beq_iff_eq, or_assoc]
  rfl

theorem State.takeSExc_enters (h : (s.thr t).pstBit PST_STA = false) : s.takeSExc t c ret = s.setThr t ((s.thr t).enterS c ret) := by
  simp only [takeSExc, h, Bool.false_eq_true, if_false]

/-- The thread as a floating-point trap is delivered: PEND clears and nothing is due (R126, R140). -/
def Thread.fpTaken (x : Thread) : Thread := { (x.setSr SR_FPEI (FPEI_PEND.put (x.srg SR_FPEI) 0)) with fpDue := false }

/-- FBAR's exception is the pending floating-point trap (R126). -/
theorem State.takeExc_fp (h : (s.thr t).pl ≠ 3) :
    s.takeExc t { code := 0x0A } = (s.setThr t (s.thr t).fpTaken).takeSExc t { code := 0x0A } (s.thr t).pc := by
  have hS : takenAtM 0x0A (s.thr t).pl = false := by simp [takenAtM, h]
  simp only [takeExc, hS, Bool.false_eq_true, if_false, if_true]
  rfl

/-- The cause of the supervisor double trap that displaces an S entry (R115). -/
def Thread.displaced (x : Thread) (c : Cause) : Cause := { code := 0x15, info := c.code % 256, addr := some (c.addr.getD (x.srg SR_SFA)) }

theorem State.takeSExc_displaced (hsta : (s.thr t).pstBit PST_STA = true) (hmta : (s.thr t).pstBit PST_MTA = false) :
    s.takeSExc t c ret = s.setThr t ((s.thr t).enterM ((s.thr t).displaced c) ret ((s.thr t).srg SR_MVB)) := by
  simp only [takeSExc, hsta, if_true]
  exact State.takeM_enters (.inr hmta)

end

theorem Thread.word_displaced (x : Thread) (c : Cause) : (x.displaced c).word = BitVec.ofNat 64 (0x15 * 2 ^ 32 + c.code % 256) := by
  rw [Cause.word_of_exception rfl]
  exact congrArg (BitVec.ofNat 64) (by simp only [displaced]; omega)

theorem Thread.fpTaken_keeps (x : Thread) : x.fpTaken.keeps x [SR_FPEI] :=
  x.setSr_keeps ..

theorem Cause.word_double (c : Cause) (h : c.int = false) :
    ({ code := 0x25, info := c.code % 256 + 256 * b2n c.int } : Cause).word = BitVec.ofNat 64 (0x25 * 2 ^ 32 + c.code % 256) := by
  rw [Cause.word_of_exception rfl]
  exact congrArg (BitVec.ofNat 64) (by simp only [h, b2n, Bool.false_eq_true, if_false]; omega)

/-! A thread that stops leaves every other thread running or not, as it was. -/

/-- What a change of one thread keeps of every thread. -/
theorem State.thr_modThr_keeps {β : Type} (p : Thread → β) {f : Thread → Thread} (h : ∀ x, p (f x) = p x) (s : State) (t v : Nat) :
    p ((s.modThr t f).thr v) = p (s.thr v) := by
  unfold modThr
  by_cases hv : v = t
  · subst hv; rw [State.thr_setThr_self, h]
  · rw [State.thr_setThr_ne _ _ hv]

theorem State.run_log (s : State) (i : RecIn) (v : Nat) : ((s.log i).thr v).run = (s.thr v).run := by
  have hon : ({ s with rseq := (s.recOf i).rseq }.handOn (s.recOf i)).thr v = s.thr v :=
    State.thr_of_threads (State.threads_of_offRecords (State.handOn_offRecords _ _))
  have hmci (g : State) (p : Nat) (w : Word) : ((g.setMci p w).thr v).run = (g.thr v).run :=
    State.foldl_keeps (fun s : State => (s.thr v).run) (fun s t => s.modThr t fun x => { x with mci := some w })
      (fun s t => State.thr_modThr_keeps Thread.run (fun _ => by rfl) s t v) _ g
  unfold State.log
  dsimp only
  rw [← hon]
  split
  · split
    · exact hmci ..
    · rfl
  · rfl

theorem State.run_stopThread (s : State) (t v : Nat) (why : Run) :
    ((s.stopThread t why).thr v).run = if v = t then why else (s.thr v).run := by
  have hstop : ((s.modThr t fun x => { x with run := why, wait := .none, rexPend := [] }).thr v).run = if v = t then why else (s.thr v).run := by
    split
    · rename_i hv
      rw [hv, modThr, State.thr_setThr_self]
    · rename_i hv
      rw [modThr, State.thr_setThr_ne _ _ hv]
  unfold stopThread
  dsimp only
  split
  · exact (State.thr_modThr_keeps Thread.run (fun _ => by rfl) ..).trans hstop
  · exact hstop

/-- Settles O17: the entry by `enterS_spec`, the displaced entry by `enterM_spec`. -/
theorem entryToSLevel : Obligations.EntryToSLevel := by
  refine ⟨fun s t c hS hint hcode hfp => ⟨fun hsta => ?_, fun hsta hmta => ?_⟩, fun s t hpl hsta hmta => ?_⟩
  · rw [State.takeExc_atS hS hcode hfp, State.takeSExc_enters hsta, State.thr_setThr_self]
    obtain ⟨hsss, hsrp, hscs, hsfa, hpl, hsta', hsgie, hrest⟩ := (s.thr t.val).enterS_spec c ((s.thr t.val).backTo c.code)
    exact ⟨hsss, hsrp, hscs.trans (Cause.word_of_exception hint), hsfa, hpl, hsta', hsgie, hrest,
      Thread.pc_of_entersAt (Thread.enterS_entersAt ..), Thread.enterS_keeps .., fun v hv => State.thr_setThr_ne _ _ hv⟩
  · rw [State.takeExc_atS hS hcode hfp, State.takeSExc_displaced hsta hmta, State.thr_setThr_self]
    obtain ⟨hmss, hmrp, hmcs, hmfa, hpl, -⟩ :=
      (s.thr t.val).enterM_spec ((s.thr t.val).displaced c) ((s.thr t.val).backTo c.code) ((s.thr t.val).srg SR_MVB)
    exact ⟨hmss, hmrp, hmcs.trans (Thread.word_displaced ..), hmfa, hpl, Thread.pc_of_entersAt (Thread.enterM_entersAt ..),
      Thread.enterM_keeps ..⟩
  · have hkeeps := (s.thr t.val).fpTaken_keeps
    have hsr {n : Nat} (hn : n ∉ [SR_FPEI]) : (s.thr t.val).fpTaken.srg n = (s.thr t.val).srg n := Thread.srg_of_keeps hkeeps hn
    have hbit (f : Fld) : (s.thr t.val).fpTaken.pstBit f = (s.thr t.val).pstBit f := by rw [Thread.pstBit, hsr (by decide), Thread.pstBit]
    rw [State.takeExc_fp hpl, State.takeSExc_displaced (by rw [State.thr_setThr_self, hbit, hsta]) (by rw [State.thr_setThr_self, hbit, hmta]),
      State.thr_setThr_self, State.thr_setThr_self]
    obtain ⟨hmss, hmrp, hmcs, hmfa, hpl, hmta', -⟩ := (s.thr t.val).fpTaken.enterM_spec
      ((s.thr t.val).fpTaken.displaced { code := 0x0A }) (s.thr t.val).pc ((s.thr t.val).fpTaken.srg SR_MVB)
    exact ⟨hmss.trans (hsr (by decide)), hmrp, hmcs.trans (Thread.word_displaced ..), hmfa.trans (hsr (by decide)), hpl, hmta',
      (Thread.pc_of_entersAt (Thread.enterM_entersAt ..)).trans (hsr (by decide)), Thread.keeps_trans (Thread.enterM_keeps ..) hkeeps⟩

/-- Settles O18: the entry by `enterM_spec`, the double trap by `enterDouble_spec`, the stop by `run_stopThread`. -/
theorem entryToMLevel : Obligations.EntryToMLevel := by
  intro s t c hM hint
  dsimp only
  rw [State.takeExc_atM hM]
  refine ⟨fun hmta => ?_, fun hmta hmdt => ?_, fun hmta hmdt => ?_⟩
  · have hpc : (if c.code = 0x24 then some 0x100 else none).elim ((s.thr t.val).srg SR_MVB) (s.mbaseOf t.val + ·) =
        if c.code = 0x24 then s.mbaseOf t.val + 0x100 else (s.thr t.val).srg SR_MVB := by split <;> rfl
    rw [State.takeM_enters (.inr hmta), hpc, State.thr_setThr_self]
    obtain ⟨hmss, hmrp, hmcs, hmfa, hpl, hmta', hmgie, hrest⟩ := (s.thr t.val).enterM_spec c ((s.thr t.val).backTo c.code)
      (if c.code = 0x24 then s.mbaseOf t.val + 0x100 else (s.thr t.val).srg SR_MVB)
    exact ⟨hmss, hmrp, hmcs.trans (Cause.word_of_exception hint), hmfa, hpl, hmta', hmgie, hrest,
      Thread.pc_of_entersAt (Thread.enterM_entersAt ..), Thread.enterM_keeps .., fun v hv => State.thr_setThr_ne _ _ hv⟩
  · rw [State.takeM_double hmta hmdt, State.thr_setThr_self]
    obtain ⟨hmcs, hmfa, hpl, hmdt'⟩ := (s.thr t.val).enterDouble_spec c (s.mbaseOf t.val)
    have hkeeps := (s.thr t.val).enterDouble_keeps c (s.mbaseOf t.val)
    exact ⟨Thread.pc_of_entersAt (Thread.enterDouble_entersAt ..), hmcs.trans (c.word_double hint), hmfa, hmdt', hpl,
      Thread.srg_of_keeps hkeeps (by decide), Thread.srg_of_keeps hkeeps (by decide), hkeeps⟩
  · have hsib : (if t.val % 2 = 0 then t.val + 1 else t.val - 1) ≠ t.val := by split <;> omega
    rw [State.takeM_stops hmta hmdt]
    refine ⟨?_, ?_, rfl⟩
    · rw [State.run_stopThread, if_pos rfl]
    · rw [State.run_stopThread, if_neg hsib, State.run_log]

end Sys2Proof.Machine
end

section
/-! PROOF. O14: RETL (R118). -/

open Sys2Proof

namespace Sys2Proof.Machine

/-- A field is as wide as what is read from it. -/
theorem Fld.get_mod (f : Fld) (w : Word) : f.get w % 2 ^ f.width = f.get w := Nat.mod_mod ..

/-- PST after a RETL at S level, from PST and SSS before it (R118). -/
def pstFromSss (p m : Word) : Word :=
  PST_STR.put (PST_FEN.put (PST_SGIE.put (PST_STA.put (PST_PL.put p (PST_PL.get m)) (PST_STA.get m)) (PST_SGIE.get m)) (PST_FEN.get m))
    (PST_STR.get m)

theorem pstFromSss_fields (p m : Word) :
    (∀ g ∈ [PST_PL, PST_STA, PST_SGIE, PST_FEN, PST_STR], g.get (pstFromSss p m) = g.get m) ∧
      ∀ g ∈ [PST_MDT, PST_MTA, PST_MGIE], g.get (pstFromSss p m) = g.get p := by
  simp (disch := decide) only [pstFromSss, Fld.get_put_self, Fld.get_put_ne, Fld.get_mod, List.forall_mem_cons, List.not_mem_nil,
    false_imp_iff, implies_true, and_true]

/-- The thread with the S fields of SSS in PST. -/
def Thread.fromSss (x : Thread) : Thread :=
  let m := x.srg SR_SSS
  ((((x.setPst PST_PL (PST_PL.get m)).setPst PST_STA (PST_STA.get m)).setPst PST_SGIE (PST_SGIE.get m)).setPst PST_FEN (PST_FEN.get m)).setPst
    PST_STR (PST_STR.get m)

theorem Thread.srg_fromSss (x : Thread) : x.fromSss.srg SR_PST = pstFromSss (x.srg SR_PST) (x.srg SR_SSS) := by
  simp only [fromSss, srg_setPst_self, pstFromSss]

theorem Thread.offSr_fromSss (x : Thread) : x.fromSss.offSr = x.offSr := by
  rw [fromSss, offSr_setPst, offSr_setPst, offSr_setPst, offSr_setPst, offSr_setPst]

theorem Thread.fromSss_keeps (x : Thread) : x.fromSss.keeps x [SR_PST] := by
  refine Thread.keeps_of_offSr x.offSr_fromSss fun n hn => ?_
  have hpst : n ≠ SR_PST := by simpa using hn
  simp (disch := exact hpst) only [fromSss, srg_setPst_ne]

/-- A thread that goes on at the return pc, its reservation lost. -/
def Thread.goesBack (y : Thread) (pc : Word) : Thread := { y with pc := pc, resv := none, defer := 0 }

/-- What RETL answers of a thread: its pc, its PST, and nothing else but the reservation, which is lost (R118). -/
def Thread.returned (y x : Thread) (pc pst : Word) : Prop := y.pc = pc ∧ y.srg SR_PST = pst ∧ y.keeps x [SR_PST] ∧ y.resv = none

theorem Thread.goesBack_returned {y x : Thread} (pc : Word) (h : y.keeps x [SR_PST]) : (y.goesBack pc).returned x pc (y.srg SR_PST) :=
  ⟨rfl, rfl, h, rfl⟩

/-- RETL at S level (R118). -/
theorem Thread.retl_S {x : Thread} (h : x.pl = 1) :
    ∃ y, x.retl = some y ∧ y.returned x (x.srg SR_SRP) (pstFromSss (x.srg SR_PST) (x.srg SR_SSS)) := by
  have hretl : x.retl = some (x.fromSss.goesBack (x.srg SR_SRP)) := by
    have hM : ¬ x.pl = 3 := by omega
    simp only [retl, hM, if_false, goesBack, fromSss]
  exact ⟨_, hretl, x.srg_fromSss ▸ Thread.goesBack_returned _ x.fromSss_keeps⟩

/-- RETL at M level (R118). -/
theorem Thread.retl_M {x : Thread} (h : x.pl = 3) (hpl : PST_PL.get (x.srg SR_MSS) ≠ 2) :
    ∃ y, x.retl = some y ∧ y.returned x (x.srg SR_MRP) (x.srg SR_MSS) := by
  unfold retl
  rw [if_pos h]
  dsimp only
  rw [if_neg hpl]
  exact ⟨_, rfl, rfl, x.srg_setSr_self .., x.setSr_keeps .., rfl⟩

theorem Thread.retl_reserved {x : Thread} (h : x.pl = 3) (hpl : PST_PL.get (x.srg SR_MSS) = 2) : x.retl = none := by
  unfold retl
  rw [if_pos h]
  dsimp only
  rw [if_pos hpl]

/-- RETL of a ready thread, by what `Thread.retl` answers. -/
theorem exec_retl_some {s : State} {t : Thr} {y : Thread} (h : s.ready t.val 1 false = true)
    (hfp : ((s.fetched t.val).thr t.val).pl = 3 ∨ ((s.fetched t.val).thr t.val).fpPend = false)
    (hy : ((s.fetched t.val).thr t.val).retl = some y) : exec (.retl t) s = .next ((s.fetched t.val).goesOn t y y.pc) := by
  have hno : ¬ (((s.fetched t.val).thr t.val).pl ≠ 3 ∧ ((s.fetched t.val).thr t.val).fpPend = true) := by
    rcases hfp with h | h <;> simp [h]
  rw [exec_retl, execRetl, State.sys_ready _ h (by decide)]
  dsimp only
  rw [if_neg hno, hy]
  rfl

theorem exec_retl_reserved {s : State} {t : Thr} (h : s.ready t.val 1 false = true) (hpl : ((s.fetched t.val).thr t.val).pl = 3)
    (hy : ((s.fetched t.val).thr t.val).retl = none) : exec (.retl t) s =
      .next ((s.fetched t.val).takeExc t.val { code := 0x01, info := sysWord 0x010, addr := some ((s.fetched t.val).thr t.val).pc }) := by
  rw [exec_retl, execRetl, State.sys_ready _ h (by decide)]
  dsimp only
  rw [if_neg (by simp [hpl]), hy]
  rfl

/-- Settles O14: at S level by `retl_S`, at M level by `retl_M` and `retl_reserved`, at U level by the check of the lowest level. -/
theorem returnResults : Obligations.ReturnResults := by
  intro t s f x
  refine ⟨fun h hpl hfp => ?_, fun h hpl hmss => ?_, fun h hpl hmss => exec_retl_reserved h hpl (Thread.retl_reserved hpl hmss),
    fun h hpl => ?_⟩
  · obtain ⟨y, hy, hpc, hpst, ⟨hg, hf, hsr⟩, hresv⟩ := Thread.retl_S hpl
    obtain ⟨hnew, hold⟩ := pstFromSss_fields (x.srg SR_PST) (x.srg SR_SSS)
    rw [← hpst] at hnew hold
    exact ⟨y, hpc ▸ exec_retl_some h (.inr hfp) hy, hnew, hold, fun n hn => hsr n (by simpa using hn), hg, hf, hresv⟩
  · obtain ⟨y, hy, hpc, hpst, ⟨hg, hf, hsr⟩, hresv⟩ := Thread.retl_M hpl hmss
    exact ⟨y, hpc ▸ exec_retl_some h (.inl hpl) hy, hpst, fun n hn => hsr n (by simpa using hn), hg, hf, hresv⟩
  · have hlow : ((s.fetched t.val).thr t.val).pl < (sysInfo 0x010 1).lvl := by rw [hpl]; decide
    rw [exec_retl, execRetl, State.ais_lowLevel _ h (by decide) hlow]
    rfl

end Sys2Proof.Machine
end

section
/-! SUPPORT. Interrupts and fixed events enter a thread: what their entries leave, and that no other thread changes (R119, R122). -/

open Sys2Proof

namespace Sys2Proof.Machine

/-- An interrupt's entry to S level, of a thread that differs from `x` in no register. -/
theorem Thread.enterS_enteredS {x z : Thread} {c : Cause} (hc : c.addr = none) (h : z.keeps x []) (ret : Word) :
    (z.enterS c ret).enteredS x c.word ret := by
  obtain ⟨hsss, hsrp, hscs, hsfa, hpl, hsta, hsgie, -⟩ := z.enterS_spec c ret
  have hat := z.enterS_entersAt c ret
  rw [hc] at hsfa
  exact ⟨hscs, hsrp, hsss.trans (Thread.srg_of_keeps h (by decide)),
    (Thread.pc_of_entersAt hat).trans (Thread.srg_of_keeps h (by decide)), hpl, hsta, hsgie,
    Thread.wait_of_entersAt hat, Thread.resv_of_entersAt hat,
    Thread.keeps_trans (Thread.keeps_drop (m := [SR_PST, SR_SCS, SR_SRP, SR_SSS]) (z.enterS_keeps c ret) hsfa (by decide)) h⟩

/-- An event's entry to M level, of a thread that differs from `x` at most in `more`, not in PST. -/
theorem Thread.enterM_enteredM {x z : Thread} {c : Cause} {more : List Nat} (hc : c.addr = none) (h : z.keeps x more) (hp : SR_PST ∉ more)
    (ret pc : Word) : (z.enterM c ret pc).enteredM x c.word ret pc more := by
  obtain ⟨hmss, hmrp, hmcs, hmfa, hpl, hmta, hmgie, -⟩ := z.enterM_spec c ret pc
  have hat := z.enterM_entersAt c ret pc
  rw [hc] at hmfa
  exact ⟨hmcs, hmrp, hmss.trans (Thread.srg_of_keeps h hp), Thread.pc_of_entersAt hat, hpl, hmta, hmgie, Thread.wait_of_entersAt hat,
    Thread.resv_of_entersAt hat, Thread.keeps_trans (Thread.keeps_drop (z.enterM_keeps c ret pc) hmfa (by decide)) h⟩

theorem State.mbaseOf_setThr (s : State) (t v : Nat) (x : Thread) : (s.setThr t x).mbaseOf v = s.mbaseOf v :=
  State.mbaseOf_of_active (s.setThr_active t x) v

section
variable (s : State) (t : Nat) (w : Thread) {x z : Thread} {c : Cause} {word : Word} (ret : Word)

/-- What an event's entry to S level leaves: the thread entered, and every other thread as it was. -/
theorem State.eventS (hc : c.addr = none) (hw : c.word = word) (h : z.keeps x []) : let u := (s.setThr t w).setThr t (z.enterS c ret)
    (u.thr t).enteredS x word ret ∧ (u.thr t).entersAt z (z.srg SR_SVB) ∧ ∀ v, v ≠ t → u.thr v = s.thr v := by
  intro u
  rw [State.thr_setThr_self]
  exact ⟨hw ▸ Thread.enterS_enteredS hc h ret, z.enterS_entersAt c ret,
    fun v hv => (State.thr_setThr_ne _ _ hv).trans (State.thr_setThr_ne _ _ hv)⟩

/-- What an event's entry to M level leaves: the thread entered, and every other thread as it was. -/
theorem State.eventM {more : List Nat} (vec : Option Word) (hc : c.addr = none) (hw : c.word = word) (h : z.keeps x more)
    (hp : SR_PST ∉ more ∧ SR_MVB ∉ more) :
    let u := ((s.setThr t w).setThr t z).takeM t c ret vec false
    let pc := vec.elim (x.srg SR_MVB) (s.mbaseOf t + ·)
    (u.thr t).enteredM x word ret pc more ∧ (u.thr t).entersAt z pc ∧ (u.thr t).keeps z [SR_PST, SR_MSS, SR_MRP, SR_MCS, SR_MFA] ∧
      u.active = s.active ∧ ∀ v, v ≠ t → u.thr v = s.thr v := by
  intro u pc
  obtain ⟨hpst, hmvb⟩ := hp
  have hu : u = ((s.setThr t w).setThr t z).setThr t (z.enterM c ret pc) := by
    simp only [u, pc, ← Thread.srg_of_keeps h hmvb, State.takeM_enters (.inl rfl), State.thr_setThr_self, State.mbaseOf_setThr]
  rw [hu, State.thr_setThr_self]
  refine ⟨hw ▸ Thread.enterM_enteredM hc h hpst ret pc, z.enterM_entersAt c ret pc, z.enterM_keeps c ret pc, ?_, fun v hv => ?_⟩
  · rw [State.setThr_active, State.setThr_active, State.setThr_active]
  · rw [State.thr_setThr_ne _ _ hv, State.thr_setThr_ne _ _ hv, State.thr_setThr_ne _ _ hv]

end

/-! The threads that an event may enter. -/

theorem Thread.open_of_atBoundary {x : Thread} (hrun : x.run = .running) (hload : x.devLoad = [])
    (hwait : x.wait = .none ∨ x.wait = .sync ∨ x.wait = .drain) : x.open = true := by
  rcases hwait with h | h | h <;> simp [Thread.open, hrun, hload, h]

theorem Thread.endWait_of_not_waiting {x : Thread} (h : x.wait = .none ∨ x.wait = .sync ∨ x.wait = .drain) : x.endWait = x := by
  rcases h with h | h | h <;> simp [endWait, h]

theorem Thread.open_of_mayEnter {x : Thread} (h : x.mayEnter) : x.open = true ∧ x.intTurn = true ∧ x.endWait = x := by
  obtain ⟨hrun, hload, hwait, hwtw, htko, hrex⟩ := h
  exact ⟨Thread.open_of_atBoundary hrun hload hwait, by simp [intTurn, hwtw, htko, hrex], Thread.endWait_of_not_waiting hwait⟩

end Sys2Proof.Machine
end

section
/-! PROOF. O25: the entries of interrupts (R122). -/

open Sys2Proof

namespace Sys2Proof.Machine

/-- With no mark of overflow an entry delivers the oldest identifier (R122). -/
theorem popId_cons (id : Nat) (q : List Nat) : popId (id :: q) false = (id, q, false) := rfl

section
variable {t : Thr} {s : State} {b : Nat}

theorem exec_sInterruptEntry_enters (h : (s.thr t.val).mayEnter) (hm : (s.thr t.val).mInt = none) (hb : s.sInt (s.thr t.val) = some b) :
    exec (.sInterruptEntry t) s = .next ((s.setThr t.val (s.thr t.val)).takeSInt t.val b (s.thr t.val).pc) := by
  obtain ⟨hopen, hturn, hend⟩ := Thread.open_of_mayEnter h
  rw [exec_sInterruptEntry, execSInterruptEntry, if_pos ⟨hopen, hturn, hm⟩, hb, hend]

theorem exec_mInterruptEntry_enters (h : (s.thr t.val).mayEnter) (hb : (s.thr t.val).mInt = some b) :
    exec (.mInterruptEntry t) s = .next ((s.setThr t.val (s.thr t.val)).takeMInt t.val b (s.thr t.val).pc) := by
  obtain ⟨hopen, hturn, hend⟩ := Thread.open_of_mayEnter h
  rw [exec_mInterruptEntry, execMInterruptEntry, if_pos ⟨hopen, hturn⟩, hb, hend]

end

section
variable (s : State) (t : Nat) {x : Thread} (ret : Word)

theorem State.takeSInt_sei (hfp : x.fpPend = false) {id : Nat} {q : List Nat} (hq : x.sq = id :: q) (ho : x.sOvf = false) :
    let u := (s.setThr t x).takeSInt t 2 ret
    (u.thr t).enteredS x (BitVec.ofNat 64 (2 ^ 63 + 3 * 2 ^ 32 + id % 2 ^ 32)) ret ∧ (u.thr t).sq = q ∧ (u.thr t).ssi = x.ssi ∧
      ∀ v, v ≠ t → u.thr v = s.thr v := by
  have hu : (s.setThr t x).takeSInt t 2 ret =
      (s.setThr t x).setThr t ({ x with sq := q, sOvf := false }.enterS { int := true, code := 0x03, info := id } ret) := by
    simp only [takeSInt, State.thr_setThr_self, hfp, hq, ho, popId_cons, Bool.false_eq_true, if_false, if_true]
  rw [hu]
  obtain ⟨hent, hat, hoth⟩ := s.eventS t x (c := { int := true, code := 0x03, info := id }) ret rfl (Cause.word_of_interrupt rfl)
    (show ({ x with sq := q, sOvf := false } : Thread).keeps x [] from x.keeps_refl)
  exact ⟨hent, (Thread.sq_of_entersAt hat :), (Thread.ssi_of_entersAt hat :), hoth⟩

theorem State.takeSInt_ssi (hfp : x.fpPend = false) {i : Nat} (hi : x.ssi = some i) :
    let u := (s.setThr t x).takeSInt t 0 ret
    (u.thr t).enteredS x (BitVec.ofNat 64 (2 ^ 63 + 1 * 2 ^ 32 + i % 2 ^ 32)) ret ∧ (u.thr t).ssi = none ∧ (u.thr t).sq = x.sq ∧
      ∀ v, v ≠ t → u.thr v = s.thr v := by
  have hu : (s.setThr t x).takeSInt t 0 ret =
      (s.setThr t x).setThr t ({ x with ssi := none }.enterS { int := true, code := 0x01, info := i } ret) := by
    simp only [takeSInt, State.thr_setThr_self, hfp, hi, Bool.false_eq_true, if_false, if_true]
    rfl
  rw [hu]
  obtain ⟨hent, hat, hoth⟩ := s.eventS t x (c := { int := true, code := 0x01, info := i }) ret rfl (Cause.word_of_interrupt rfl)
    (show ({ x with ssi := none } : Thread).keeps x [] from x.keeps_refl)
  exact ⟨hent, (Thread.ssi_of_entersAt hat :), (Thread.sq_of_entersAt hat :), hoth⟩

theorem State.takeSInt_sti (hfp : x.fpPend = false) : let u := (s.setThr t x).takeSInt t 1 ret
    (u.thr t).enteredS x (BitVec.ofNat 64 (2 ^ 63 + 2 * 2 ^ 32)) ret ∧ (u.thr t).sq = x.sq ∧ (u.thr t).ssi = x.ssi ∧
      ∀ v, v ≠ t → u.thr v = s.thr v := by
  have hu : (s.setThr t x).takeSInt t 1 ret = (s.setThr t x).setThr t (x.enterS { int := true, code := 0x02 } ret) := by
    simp only [takeSInt, State.thr_setThr_self, hfp, Bool.false_eq_true, if_false]
    rfl
  rw [hu]
  obtain ⟨hent, hat, hoth⟩ := s.eventS t x (c := { int := true, code := 0x02 }) ret rfl (Cause.word_of_interrupt rfl) x.keeps_refl
  exact ⟨hent, (Thread.sq_of_entersAt hat :), (Thread.ssi_of_entersAt hat :), hoth⟩

theorem State.takeMInt_mci {w : Word} (hw : x.mci = some w) : let u := (s.setThr t x).takeMInt t 4 ret
    (u.thr t).enteredM x (BitVec.ofNat 64 (2 ^ 63 + 0x14 * 2 ^ 32)) ret (x.srg SR_MVB) [SR_MCE] ∧ (u.thr t).srg SR_MCE = w ∧
      (u.thr t).mci = none ∧ ∀ v, v ≠ t → u.thr v = s.thr v := by
  have hu : (s.setThr t x).takeMInt t 4 ret =
      ((s.setThr t x).setThr t { (x.setSr SR_MCE w) with mci := none }).takeM t { int := true, code := 0x14 } ret none false := by
    simp only [takeMInt, State.thr_setThr_self, hw, if_true]
    rfl
  have hz : ({ (x.setSr SR_MCE w) with mci := none } : Thread).keeps x [SR_MCE] := x.setSr_keeps SR_MCE w
  rw [hu]
  obtain ⟨hent, hat, hkeeps, -, hoth⟩ := s.eventM t x (c := { int := true, code := 0x14 }) ret none rfl (Cause.word_of_interrupt rfl)
    hz (by decide)
  exact ⟨hent, (Thread.srg_of_keeps hkeeps (by decide)).trans (x.srg_setSr_self ..), (Thread.mci_of_entersAt hat :), hoth⟩

theorem State.takeMInt_mei {id : Nat} {q : List Nat} (hq : x.mq = id :: q) (ho : x.mOvf = false) :
    let u := (s.setThr t x).takeMInt t 2 ret
    (u.thr t).enteredM x (BitVec.ofNat 64 (2 ^ 63 + 0x13 * 2 ^ 32 + id % 2 ^ 32)) ret (x.srg SR_MVB) [] ∧ (u.thr t).mq = q ∧
      ∀ v, v ≠ t → u.thr v = s.thr v := by
  have hu : (s.setThr t x).takeMInt t 2 ret =
      ((s.setThr t x).setThr t { x with mq := q, mOvf := false }).takeM t { int := true, code := 0x13, info := id } ret none false := by
    simp [takeMInt, State.thr_setThr_self, hq, ho, popId_cons]
  rw [hu]
  obtain ⟨hent, hat, -, -, hoth⟩ := s.eventM t x (c := { int := true, code := 0x13, info := id }) ret none rfl (Cause.word_of_interrupt rfl)
    (show ({ x with mq := q, mOvf := false } : Thread).keeps x [] from x.keeps_refl) (by decide)
  exact ⟨hent, (Thread.mq_of_entersAt hat :), hoth⟩

theorem State.takeMInt_msi {i : Nat} (hi : x.msi = some i) : let u := (s.setThr t x).takeMInt t 0 ret
    (u.thr t).enteredM x (BitVec.ofNat 64 (2 ^ 63 + 0x11 * 2 ^ 32 + i % 2 ^ 32)) ret (x.srg SR_MVB) [] ∧ (u.thr t).msi = none ∧
      ∀ v, v ≠ t → u.thr v = s.thr v := by
  have hu : (s.setThr t x).takeMInt t 0 ret =
      ((s.setThr t x).setThr t { x with msi := none }).takeM t { int := true, code := 0x11, info := i } ret none false := by
    simp [takeMInt, State.thr_setThr_self, hi]
  rw [hu]
  obtain ⟨hent, hat, -, -, hoth⟩ := s.eventM t x (c := { int := true, code := 0x11, info := i }) ret none rfl (Cause.word_of_interrupt rfl)
    (show ({ x with msi := none } : Thread).keeps x [] from x.keeps_refl) (by decide)
  exact ⟨hent, (Thread.msi_of_entersAt hat :), hoth⟩

end

/-- Settles O25, interrupt by interrupt. -/
theorem interruptEntries : Obligations.InterruptEntries := by
  refine ⟨fun t s hmay hm hfp => ⟨fun hb id q hq ho => ?_, fun hb i hi => ?_, fun hb => ?_⟩,
    fun t s hmay => ⟨fun hb w hw => ?_, fun hb id q hq ho => ?_, fun hb i hi => ?_⟩⟩
  · exact ⟨_, exec_sInterruptEntry_enters hmay hm hb, s.takeSInt_sei _ _ hfp hq ho⟩
  · exact ⟨_, exec_sInterruptEntry_enters hmay hm hb, s.takeSInt_ssi _ _ hfp hi⟩
  · exact ⟨_, exec_sInterruptEntry_enters hmay hm hb, s.takeSInt_sti _ _ hfp⟩
  · exact ⟨_, exec_mInterruptEntry_enters hmay hb, s.takeMInt_mci _ _ hw⟩
  · exact ⟨_, exec_mInterruptEntry_enters hmay hb, s.takeMInt_mei _ _ hq ho⟩
  · exact ⟨_, exec_mInterruptEntry_enters hmay hb, s.takeMInt_msi _ _ hi⟩

end Sys2Proof.Machine
end

section
/-! PROOF. O26: what makes an interrupt pending (R121 to R123). -/

open Sys2Proof

namespace Sys2Proof.Machine

/-- SIP.STI: TIME has reached STCMP (R121). -/
theorem State.sip_sti (s : State) (x : Thread) : (s.sip x).getLsbD 1 = decide (x.srg SR_STCMP ≤ s.time) := by
  unfold sip
  cases x.sq != [] || x.sOvf <;> cases decide (x.srg SR_STCMP ≤ s.time) <;> cases x.ssi.isSome <;> rfl

/-- The time at which a thread's STCMP matches (R121). -/
theorem exec_stimerMatch_ahead {t : Thr} {s : State} (hrun : (s.thr t.val).run = .running) (h : s.time < (s.thr t.val).srg SR_STCMP) :
    exec (.stimerMatch t) s = .next { s with
      time := (s.thr t.val).srg SR_STCMP, uptime := s.uptime + ((s.thr t.val).srg SR_STCMP - s.time).toNat } := by
  rw [exec_stimerMatch, execStimerMatch, if_pos ⟨hrun, h⟩]

/-- An identifier at a queue: dropped where it stands already, marked where the queue is full, otherwise last (R122). -/
theorem arriveId_eq (q : List Nat) (ovf : Bool) (id : Nat) : arriveId q ovf id =
    (if id ∈ q ∨ 16 ≤ q.length then q else q ++ [id], ovf || (decide (id ∉ q) && decide (16 ≤ q.length))) := by
  unfold arriveId
  by_cases hin : id ∈ q
  · simp [hin]
  · by_cases hfull : 16 ≤ q.length <;> simp [hin, hfull]

theorem exec_identifierArrive_sends {t : Thr} {m : Bool} {id : BitVec 16} {s : State} (h : id.toNat ≠ 0xFFFF) :
    exec (.identifierArrive t m id) s = .next (s.sendId t.val m id.toNat) := by
  rw [exec_identifierArrive, execIdentifierArrive, if_neg h]

theorem State.thr_sendId_ne (s : State) {t v : Nat} (h : v ≠ t) (m : Bool) (id : Nat) : (s.sendId t m id).thr v = s.thr v :=
  State.thr_setThr_ne _ _ h

theorem State.thr_sendId_self (s : State) (t : Nat) (m : Bool) (id : Nat) : (s.sendId t m id).thr t =
    if m then { s.thr t with mq := (arriveId (s.thr t).mq (s.thr t).mOvf id).1, mOvf := (arriveId (s.thr t).mq (s.thr t).mOvf id).2 }
    else { s.thr t with sq := (arriveId (s.thr t).sq (s.thr t).sOvf id).1, sOvf := (arriveId (s.thr t).sq (s.thr t).sOvf id).2 } :=
  State.thr_setThr_self ..

section
variable {t : Thr} {v : Word} {s : State} (hrun : s.running t.val = true) (hgrant : s.devOk (s.part t.val) (.reg 0x06 0 0x4000) = true)
  (hclk : s.domainUp 0x06 0 = true)
include hrun hgrant hclk

/-- A thread's write of MYC_IPI that reaches Mycel (R18, R123). -/
theorem exec_mycIpi_reaches : exec (.mycIpi (.core t) v) s = .next (s.mycIpi (s.who (.core t)) v.toNat) := by
  have hreach : 0 < blockCount 0x06 ∧ s.reaches (.core t) 0x06 0 0x4000 = true := by
    simp only [State.reaches, hrun, hgrant]
    decide
  have hwrite (w : Who) : s.regWrite w 0x06 0 0x4000 8 v = s.mycIpi w v.toNat := by
    unfold State.regWrite
    rw [hclk, if_neg nofun, if_neg (by decide), if_pos ⟨rfl, rfl⟩]
  rw [exec_mycIpi, execMycIpi, State.writeAs, if_pos hreach, hwrite]

end

theorem bitOf_toNat (v : Word) (i : Nat) : bitOf v.toNat i = v.getLsbD i := (bitOf_eq_testBit ..).trans v.testBit_toNat

section
variable {t : Thr} {v : Word} {s : State}

/-- A send that R123 accepts. -/
theorem State.mycIpi_accepted (hpart : s.part (v.toNat % 128) = s.part t.val)
    (h : v.getLsbD 8 = false ∨ (s.thr t.val).pl = 3) : s.mycIpi (s.who (.core t)) v.toNat =
    s.tickFree.modThr (v.toNat % 128) fun x =>
      if v.getLsbD 8 then { x with msi := some (t.val + s.self * 256) } else { x with ssi := some (t.val + s.self * 256) } := by
  rcases h with h | h <;>
    simp only [mycIpi, who, sender, bitOf_toNat, hpart, h, ne_eq, not_true_eq_false, decide_false, Bool.false_and, Bool.and_false, Bool.or_self,
      Bool.false_eq_true, if_false]

/-- A send that R123 discards. -/
theorem State.mycIpi_discarded (h : v.getLsbD 8 = true) (hpl : (s.thr t.val).pl ≠ 3) : s.mycIpi (s.who (.core t)) v.toNat =
    s.log { block := 0x06, typ := 0x0A, part := some (s.part t.val), detail := [0x00, 0x40, 0, 0] } := by
  simp only [mycIpi, who, bitOf_toNat, h, hpl, ne_eq, not_false_eq_true, decide_true, Bool.and_self, Bool.true_or, if_true]
  rfl

end

/-- Settles O26, source by source. -/
theorem interruptSources : Obligations.InterruptSources := by
  refine ⟨fun t s hrun htime => ?_, fun t m id s hid => ?_, fun t v s hrun hgrant hclk hpart => ?_⟩
  · refine ⟨_, exec_stimerMatch_ahead hrun htime, rfl, ?_, ?_, rfl, rfl⟩
    · rw [State.sip_sti, decide_eq_false_iff_not]
      exact BitVec.not_le.mpr htime
    · rw [State.sip_sti, decide_eq_true_iff]
      exact BitVec.le_refl _
  · refine ⟨_, exec_identifierArrive_sends hid, ?_, fun v hv => s.thr_sendId_ne hv ..⟩
    rw [State.thr_sendId_self, arriveId_eq, arriveId_eq]
    cases m
    · exact ⟨rfl, rfl, ⟨rfl, rfl⟩, ⟨rfl, rfl, fun _ _ => rfl⟩, rfl⟩
    · exact ⟨rfl, rfl, ⟨rfl, rfl⟩, ⟨rfl, rfl, fun _ _ => rfl⟩, rfl⟩
  · rw [exec_mycIpi_reaches hrun hgrant hclk]
    refine ⟨fun h => ?_, fun h hpl => ?_, fun h hpl => ?_⟩
    · rw [State.mycIpi_accepted hpart (.inl h), h]
      rfl
    · rw [State.mycIpi_accepted hpart (.inr hpl), h]
      rfl
    · rw [State.mycIpi_discarded h hpl]

end Sys2Proof.Machine
end

section
/-! PROOF. O27: the entries of fixed events (R119, R120, R128, R130, R132). -/

open Sys2Proof

namespace Sys2Proof.Machine

/-! What is due at a boundary (R128). -/

section
variable {s : State} {t : Nat}

theorem State.boundary_warning (h : (s.thr t).wtwPend = true) : s.boundary t =
    some ((s.setThr t { s.thr t with wtwPend := false }).takeM t { code := 0x26 } (s.thr t).pc (some 0x180) false) := by
  simp only [boundary, h, if_true]

theorem State.boundary_takeover (hw : (s.thr t).wtwPend = false) (hmta : (s.thr t).pstBit PST_MTA = false) {c : Nat} {w : Word}
    (h : (s.thr t).tkoPend = some (c, w)) : s.boundary t = some
      ((s.setThr t { ((s.thr t).setSr SR_MCE w) with tkoPend := none }).takeM t { code := 0x23, info := c } (s.thr t).pc (some 0x0C0) false) := by
  simp only [boundary, hw, hmta, h, Bool.false_eq_true, if_false]

theorem State.boundary_exhausted (hw : (s.thr t).wtwPend = false) (hmta : (s.thr t).pstBit PST_MTA = false) (htko : (s.thr t).tkoPend = none)
    {c : Nat} {w : Word} {r : List (Nat × Word)} (h : (s.thr t).rexPend = (c, w) :: r) : s.boundary t = some
      ((s.setThr t { ((s.thr t).setSr SR_MCE w) with rexPend := r }).takeM t { code := 0x22, info := c } (s.thr t).pc (some 0x080) false) := by
  simp only [boundary, hw, hmta, htko, h, Bool.false_eq_true, if_false]

end

/-! TAKEOVER_RESUME_ENTRY and RETRY_EXHAUSTED_NOTIFICATION. -/

/-- A thread whose wait an event ends. -/
def Thread.atBoundary (x : Thread) : Thread := { x with wait := .none }

section
variable {t : Thr} {s : State}

theorem exec_takeoverResumeEntry_deferred (h : (s.thr t.val).pstBit PST_MTA = true) : exec (.takeoverResumeEntry t) s = .next s := by
  rw [exec_takeoverResumeEntry, execTakeoverResumeEntry]
  simp only [h, Bool.true_eq_false, false_and, and_false, if_false]

theorem exec_retryExhaustedNotification_deferred (h : (s.thr t.val).pstBit PST_MTA = true) :
    exec (.retryExhaustedNotification t) s = .next s := by
  rw [exec_retryExhaustedNotification, execRetryExhaustedNotification]
  simp only [h, Bool.true_eq_false, false_and, and_false, if_false]

variable (hopen : (s.thr t.val).open = true) (hw : (s.thr t.val).wtwPend = false) (hmta : (s.thr t.val).pstBit PST_MTA = false)
include hopen hw hmta

theorem exec_takeoverResumeEntry_due {c : Nat} {w : Word} (h : (s.thr t.val).tkoPend = some (c, w)) : let x := s.thr t.val
    exec (.takeoverResumeEntry t) s = .next (((s.setThr t.val x.atBoundary).setThr t.val
      { (x.atBoundary.setSr SR_MCE w) with tkoPend := none }).takeM t.val { code := 0x23, info := c } x.pc (some 0x0C0) false) := by
  intro x
  have hx : (s.setThr t.val x.atBoundary).thr t.val = x.atBoundary := State.thr_setThr_self ..
  have hdue := State.boundary_takeover (s := s.setThr t.val x.atBoundary) (t := t.val) (by rw [hx]; exact hw) (by rw [hx]; exact hmta)
    (by rw [hx]; exact h)
  rw [exec_takeoverResumeEntry, execTakeoverResumeEntry, if_pos ⟨hopen, hw, hmta, by rw [h]; rfl⟩]
  exact congrArg (fun u => Host.Outcome.next (u.getD s)) (hx ▸ hdue)

theorem exec_retryExhaustedNotification_due (htko : (s.thr t.val).tkoPend = none) {c : Nat} {w : Word} {r : List (Nat × Word)}
    (h : (s.thr t.val).rexPend = (c, w) :: r) : let x := s.thr t.val
    exec (.retryExhaustedNotification t) s = .next (((s.setThr t.val x.atBoundary).setThr t.val
      { (x.atBoundary.setSr SR_MCE w) with rexPend := r }).takeM t.val { code := 0x22, info := c } x.pc (some 0x080) false) := by
  intro x
  have hx : (s.setThr t.val x.atBoundary).thr t.val = x.atBoundary := State.thr_setThr_self ..
  have hdue := State.boundary_exhausted (s := s.setThr t.val x.atBoundary) (t := t.val) (by rw [hx]; exact hw) (by rw [hx]; exact hmta)
    (by rw [hx]; exact htko) (by rw [hx]; exact h)
  rw [exec_retryExhaustedNotification, execRetryExhaustedNotification, if_pos ⟨hopen, hw, hmta, htko, by rw [h]; nofun⟩]
  exact congrArg (fun u => Host.Outcome.next (u.getD s)) (hx ▸ hdue)

end

/-! WINDTHROW_WARNING. -/

/-- The warning of one thread, which ends its wait or its device load (R120). -/
def State.warn (s : State) (t : Nat) : State := ((s.modThr t fun x => { x with wait := .none, devLoad := [] }).boundary t).getD s

/-- What the warning leaves of a thread (R119, R120). -/
def Thread.warned (y x : Thread) (mb : Word) : Prop :=
  y.enteredM x (BitVec.ofNat 64 (0x26 * 2 ^ 32)) x.pc (mb + 0x180) [] ∧ y.wtwPend = false

theorem State.warn_spec {s : State} {t : Nat} (h : (s.thr t).wtwPend = true) :
    ((s.warn t).thr t).warned (s.thr t) (s.mbaseOf t) ∧ (s.warn t).active = s.active ∧ ∀ v, v ≠ t → (s.warn t).thr v = s.thr v := by
  let w : Thread := { s.thr t with wait := .none, devLoad := [] }
  have hw : (s.setThr t w).thr t = w := State.thr_setThr_self ..
  have hdue := State.boundary_warning (s := s.setThr t w) (t := t) (by rw [hw]; exact h)
  have hwarn : s.warn t = ((s.setThr t w).setThr t { w with wtwPend := false }).takeM t { code := 0x26 } (s.thr t).pc (some 0x180) false := by
    rw [hw] at hdue
    rw [warn, modThr, hdue, Option.getD_some]
  rw [hwarn]
  obtain ⟨hent, hat, -, hact, hoth⟩ := s.eventM t w (c := { code := 0x26 }) (s.thr t).pc (some 0x180) rfl (Cause.word_of_exception rfl)
    (show ({ w with wtwPend := false } : Thread).keeps (s.thr t) [] from (s.thr t).keeps_refl) (by decide)
  exact ⟨⟨hent, (Thread.wtwPend_of_entersAt hat :)⟩, hact, hoth⟩

theorem exec_windthrowWarning_eq (s : State) :
    exec .windthrowWarning s = .next ((s.runningThreads.filter fun t => (s.thr t).wtwPend).foldl State.warn s) := rfl

/-- The warning of distinct threads, each of which has one pending, warns them and no other. -/
theorem State.foldl_warn (ts : List Nat) (hnd : ts.Nodup) : ∀ s : State, (∀ t ∈ ts, (s.thr t).wtwPend = true) →
    let u := ts.foldl State.warn s
    (∀ t ∈ ts, (u.thr t).warned (s.thr t) (s.mbaseOf t)) ∧ ∀ v, v ∉ ts → u.thr v = s.thr v := by
  induction ts with
  | nil => exact fun s _ => ⟨nofun, fun _ _ => rfl⟩
  | cons a ts ih =>
    intro s hpend
    obtain ⟨ha, hnd⟩ := List.nodup_cons.mp hnd
    obtain ⟨hwarned, hact, hoth⟩ := State.warn_spec (hpend a (by simp))
    have hne {t : Nat} (ht : t ∈ ts) : t ≠ a := ne_of_mem_of_not_mem ht ha
    obtain ⟨hin, hout⟩ := ih hnd (s.warn a) fun t ht => by rw [hoth t (hne ht)]; exact hpend t (by simp [ht])
    refine ⟨fun t ht => ?_, fun v hv => ?_⟩
    · rcases List.mem_cons.mp ht with rfl | ht
      · rw [List.foldl_cons, hout t ha]
        exact hwarned
      · have := hin t ht
        rwa [hoth t (hne ht), State.mbaseOf_of_active hact] at this
    · obtain ⟨hva, hvt⟩ := not_or.mp (List.mem_cons.not.mp hv)
      exact (hout v hvt).trans (hoth v hva)

/-- Settles O27: the deferred events through `eventM`, the warning by `foldl_warn`. -/
theorem fixedEventEntries : Obligations.FixedEventEntries := by
  refine ⟨?_, ?_, fun s => ⟨_, exec_windthrowWarning_eq s, fun t ht => ?_⟩⟩
  · intro t s c w x hrun hload hwait hwtw htko
    refine ⟨exec_takeoverResumeEntry_deferred, fun hmta => ?_⟩
    have hz : ({ (x.atBoundary.setSr SR_MCE w) with tkoPend := none } : Thread).keeps x [SR_MCE] := x.setSr_keeps SR_MCE w
    obtain ⟨hent, hat, hkeeps, -, hoth⟩ := s.eventM t.val x.atBoundary (c := { code := 0x23, info := c }) x.pc (some 0x0C0) rfl
      (Cause.word_of_exception rfl) hz (by decide)
    exact ⟨_, exec_takeoverResumeEntry_due (Thread.open_of_atBoundary hrun hload hwait) hwtw hmta htko, hent,
      (Thread.srg_of_keeps hkeeps (by decide)).trans (x.srg_setSr_self ..), (Thread.tkoPend_of_entersAt hat :),
      (Thread.rexPend_of_entersAt hat :), hoth⟩
  · intro t s c w r x hrun hload hwait hwtw htko hrex
    refine ⟨exec_retryExhaustedNotification_deferred, fun hmta => ?_⟩
    have hz : ({ (x.atBoundary.setSr SR_MCE w) with rexPend := r } : Thread).keeps x [SR_MCE] := x.setSr_keeps SR_MCE w
    obtain ⟨hent, hat, hkeeps, -, hoth⟩ := s.eventM t.val x.atBoundary (c := { code := 0x22, info := c }) x.pc (some 0x080) rfl
      (Cause.word_of_exception rfl) hz (by decide)
    exact ⟨_, exec_retryExhaustedNotification_due (Thread.open_of_atBoundary hrun hload hwait) hwtw hmta htko hrex, hent,
      (Thread.srg_of_keeps hkeeps (by decide)).trans (x.srg_setSr_self ..), (Thread.rexPend_of_entersAt hat :), hoth⟩
  · have hmem (v : Nat) : v ∈ s.runningThreads.filter (fun t => (s.thr t).wtwPend) ↔
        v < 128 ∧ (s.thr v).run = .running ∧ (s.thr v).wtwPend = true := by
      simp only [State.runningThreads, State.running, List.mem_filter, List.mem_range, beq_iff_eq, and_assoc]
    have hnd : (s.runningThreads.filter fun t => (s.thr t).wtwPend).Nodup := (List.nodup_range.filter _).filter _
    have hall : ∀ v ∈ s.runningThreads.filter (fun t => (s.thr t).wtwPend), (s.thr v).wtwPend = true := fun v hv => by
      obtain ⟨-, -, hpend⟩ := (hmem v).mp hv
      exact hpend
    obtain ⟨hin, hout⟩ := State.foldl_warn _ hnd s hall
    refine ⟨fun hrun hpend => hin t ((hmem t).mpr ⟨ht, hrun, hpend⟩), fun h => hout t fun hm => ?_⟩
    obtain ⟨-, hrun, hpend⟩ := (hmem t).mp hm
    exact h.elim (fun h => h hrun) (fun h => absurd (hpend.symm.trans h) nofun)

end Sys2Proof.Machine
end

section
/-! SUPPORT. The arithmetic of the integer rows (R75, R77, R134) in the terms the statement uses. -/

open Sys2Proof

namespace Sys2Proof.Machine

/-! Counts of bits. -/

theorem clzN_eq_sub_size : ∀ {n v : Nat}, v < 2 ^ n → clzN n v = n - v.size
  | 0, _, _ => (Nat.zero_sub _).symm
  | n + 1, v, hv => by
    rw [clzN, bitOf]
    by_cases h : v < 2 ^ n
    · have hs : v.size ≤ n := Nat.size_le.mpr h
      rw [Nat.div_eq_of_lt h, if_neg (by decide), clzN_eq_sub_size h]
      omega
    · have hs : n < v.size := Nat.lt_size.mpr (not_lt.mp h)
      have hq : v / 2 ^ n = 1 := Nat.div_eq_of_lt_le (by omega) (by rw [Nat.pow_succ'] at hv; omega)
      rw [hq, if_pos (by decide)]
      omega

theorem ctzN_eq_find : ∀ n v : Nat, ctzN n v = ((List.range n).find? v.testBit).getD n
  | 0, _ => rfl
  | n + 1, v => by
    have hsucc : v.testBit ∘ Nat.succ = (v / 2).testBit := funext (v.testBit_succ ·)
    rw [ctzN, List.range_succ_eq_map, List.find?_cons, Nat.testBit_zero, List.find?_map, hsucc, ctzN_eq_find n (v / 2)]
    by_cases h : v % 2 = 1
    · simp [h]
    · cases hf : (List.range n).find? (v / 2).testBit <;> simp [h, Nat.add_comm]

theorem popN_eq_countP : ∀ n v : Nat, popN n v = (List.range n).countP v.testBit
  | 0, _ => rfl
  | n + 1, v => by
    have hsucc : v.testBit ∘ Nat.succ = (v / 2).testBit := funext (v.testBit_succ ·)
    rw [popN, List.range_succ_eq_map, List.countP_cons, List.countP_map, hsucc, Nat.testBit_zero, popN_eq_countP n (v / 2)]
    split <;> simp_all; omega

section
variable {n : Nat} (a : BitVec n)

theorem ofNat_clzN : BitVec.ofNat n (clzN n a.toNat) = BitVec.ofNat n (n - a.toNat.size) := by rw [clzN_eq_sub_size a.isLt]

theorem ofNat_ctzN : BitVec.ofNat n (ctzN n a.toNat) = BitVec.ofNat n (((List.range n).find? fun i => a.getLsbD i).getD n) := by
  rw [ctzN_eq_find]; rfl

theorem ofNat_popN : BitVec.ofNat n (popN n a.toNat) = BitVec.ofNat n ((List.range n).countP fun i => a.getLsbD i) := by
  rw [popN_eq_countP]; rfl

end

/-! Division (R134). -/

/-- A quotient of representable operands is representable, but for the most negative dividend by −1. -/
theorem tdiv_le_of_ne {m a b : Int} (hlo : -m ≤ a) (hhi : a ≤ m - 1) (hb : b ≠ 0) (h : ¬ (a = -m ∧ b = -1)) : a.tdiv b ≤ m - 1 := by
  have habs : (a.tdiv b).natAbs = a.natAbs / b.natAbs := Int.natAbs_tdiv a b
  by_cases h1 : b.natAbs = 1
  · obtain rfl | rfl := Int.natAbs_eq_iff.mp h1
    · simpa using hhi
    · simp only [Nat.cast_one, Int.tdiv_neg, Int.tdiv_one, and_true] at h ⊢
      omega
  · have hle : a.natAbs / b.natAbs ≤ a.natAbs / 2 := Nat.div_le_div_left (by omega) (by decide)
    omega

theorem quotS_eq_divSat {n : Nat} {a b : Int} (hlo : -(2 ^ (n - 1)) ≤ a) (hhi : a ≤ 2 ^ (n - 1) - 1) : quotS n a b = divSat n a b := by
  rw [quotS, divSat]
  by_cases hb : b = 0
  · rw [if_pos hb, if_pos hb]
  · rw [if_neg hb, if_neg hb]
    split
    case isTrue h =>
      obtain ⟨rfl, rfl⟩ := h
      simp
    case isFalse h => rw [min_eq_left (tdiv_le_of_ne hlo hhi hb h)]

theorem remS_eq (n : Nat) (a b : Int) : remS n a b = if b = 0 then 0 else a - b * a.tdiv b := by
  rw [remS, ← Int.tmod_def]
  split
  · rfl
  · split
    case isTrue h =>
      obtain ⟨-, rfl⟩ := h
      simp
    case isFalse => rfl

theorem ofI_quotS {n : Nat} (a b : BitVec n) : ofI n (quotS n a.toInt b.toInt) = BitVec.ofInt n (divSat n a.toInt b.toInt) := by
  rw [ofI, quotS_eq_divSat a.le_toInt (Int.le_sub_one_of_lt a.toInt_lt)]

theorem ofI_remS {n : Nat} (a b : BitVec n) :
    ofI n (remS n a.toInt b.toInt) = if b.toInt = 0 then 0 else BitVec.ofInt n (a.toInt - b.toInt * a.toInt.tdiv b.toInt) := by
  rw [ofI, remS_eq, apply_ite (BitVec.ofInt n), BitVec.ofInt_ofNat]
  rfl

theorem ofNat_quotU {n : Nat} (a b : BitVec n) :
    BitVec.ofNat n (quotU n a.toNat b.toNat) = if b.toNat = 0 then BitVec.allOnes n else BitVec.ofNat n (a.toNat / b.toNat) := by
  have hones : BitVec.ofNat n (2 ^ n - 1) = BitVec.allOnes n := BitVec.eq_of_toNat_eq (by simp)
  rw [quotU, apply_ite (BitVec.ofNat n), hones]

theorem ofNat_remU {n : Nat} (a b : BitVec n) :
    BitVec.ofNat n (remU a.toNat b.toNat) = if b.toNat = 0 then 0 else BitVec.ofNat n (a.toNat % b.toNat) :=
  apply_ite (BitVec.ofNat n) ..

/-! Comparisons. -/

/-- Where equal keys choose equal values, a strict comparison chooses as the weak one does. -/
theorem ite_lt_eq_ite_le {α β : Type} [LinearOrder β] {m n : β} {p q : α} (h : m = n → p = q) :
    (if m < n then p else q) = if m ≤ n then p else q := by
  rcases lt_trichotomy m n with hlt | heq | hgt
  · rw [if_pos hlt, if_pos hlt.le]
  · rw [h heq, ite_self, ite_self]
  · rw [if_neg hgt.asymm, if_neg hgt.not_ge]

theorem boolW_slt {n : Nat} (a b : BitVec n) : boolW (a.slt b) = if a.toInt < b.toInt then 1 else 0 := by
  simp [boolW, BitVec.slt]

theorem boolW_ult {n : Nat} (a b : BitVec n) : boolW (a.ult b) = if a.toNat < b.toNat then 1 else 0 := by
  simp [boolW, BitVec.ult]

theorem boolW_slt_sext16 (a : Word) (imm : BitVec 16) : boolW (a.slt (sext16 imm)) = if a.toInt < imm.toInt then 1 else 0 := by
  rw [boolW_slt, sext16, BitVec.toInt_signExtend_of_le (by decide)]

/-- Choosing by the signed order: it does not matter which of two equal words is taken. -/
theorem ite_slt_eq_ite_le {n : Nat} {α : Type} {a b : BitVec n} {p q : α} (h : a = b → p = q) :
    (if a.slt b then p else q) = if a.toInt ≤ b.toInt then p else q := by
  rw [← ite_lt_eq_ite_le (h ∘ BitVec.eq_of_toInt_eq)]
  simp [BitVec.slt]

/-- Choosing by the unsigned order: it does not matter which of two equal words is taken. -/
theorem ite_ult_eq_ite_le {n : Nat} {α : Type} {a b : BitVec n} {p q : α} (h : a = b → p = q) :
    (if a.ult b then p else q) = if a.toNat ≤ b.toNat then p else q := by
  rw [← ite_lt_eq_ite_le (h ∘ BitVec.eq_of_toNat_eq)]
  simp [BitVec.ult]

/-! Extensions and shifts. -/

theorem sextNat_eq_toInt {m : Nat} (n : Nat) (a : BitVec m) : sextNat n a.toNat = (a.setWidth n).toInt := by
  have hhalf : a.toNat % 2 ^ n < 2 ^ (n - 1) ↔ 2 * (a.toNat % 2 ^ n) < 2 ^ n := by
    cases n with
    | zero => simp [Nat.mod_one]
    | succ n => rw [Nat.add_sub_cancel, Nat.pow_succ']; omega
  simp [sextNat, BitVec.toInt, hhalf]

theorem sextW_eq_signExtend (n : Nat) (a : Word) : sextW n a.toNat = (a.setWidth n).signExtend 64 := by
  rw [sextW, sextNat_eq_toInt, BitVec.signExtend]

theorem and_low32 (a : Word) : a &&& 0xFFFFFFFF#64 = (a.setWidth 32).setWidth 64 := by
  apply BitVec.eq_of_toNat_eq
  have hmod : a.toNat &&& 0xFFFFFFFF = a.toNat % 2 ^ 32 := Nat.and_two_pow_sub_one_eq_mod _ 32
  simp [hmod]
  omega

theorem shiftLeft_sixteen (x : Word) : x <<< 16 = x * 65536 := by
  apply BitVec.eq_of_toNat_eq
  simp [Nat.shiftLeft_eq]

end Sys2Proof.Machine
end

section
/-! PROOF. O3: the integer rows (R75 to R78, R134). -/

open Sys2Proof

namespace Sys2Proof.Machine

/-- One operation given for both widths is its W form. -/
theorem wForm_eq_atWidth {w : Bool} {f64 : Word → Word → Word} {f32 : BitVec 32 → BitVec 32 → BitVec 32}
    {f : (n : Nat) → BitVec n → BitVec n → BitVec n} (h64 : ∀ a b, f64 a b = f 64 a b) (h32 : ∀ a b, f32 a b = f 32 a b) (a b : Word) :
    wForm w f64 f32 a b = atWidth w f a b := by
  rw [wForm, atWidth, h64, h32]

theorem State.next_alu_congr {s : State} {t w : Nat} {con : Bool} {rd : GReg} {f g : Thread → Word} (h : ∀ x, f x = g x) :
    (.next (s.alu t w con rd f) : Host.Outcome State Fault Refusal) = .next (s.alu t w con rd g) := by
  rw [funext h]

/-- Every integer row is the computation of one register, by its word. -/
theorem exec_of_intOp {i : Instr} {t : Thr} {con : Bool} {rd : GReg} {f : Thread → Word} {w : Nat} (s : State)
    (hi : intOp i = some (t, con, rd, f)) (hw : aisWord i = some (t, w)) : exec i s = .next (s.alu t.val w con rd f) := by
  cases i
  all_goals simp only [intOp, reduceCtorEq, Option.some.injEq, Prod.mk.injEq] at hi
  all_goals obtain ⟨rfl, rfl, rfl, rfl⟩ := hi
  all_goals simp only [aisWord, Option.some.injEq, Prod.mk.injEq, true_and] at hw
  all_goals subst hw
  all_goals refine State.next_alu_congr fun x => ?_
  case slt => exact boolW_slt ..
  case sltu => exact boolW_ult ..
  case min => exact ite_slt_eq_ite_le id
  case max => exact ite_slt_eq_ite_le Eq.symm
  case minu => exact ite_ult_eq_ite_le id
  case maxu => exact ite_ult_eq_ite_le Eq.symm
  case cmovnz => exact ite_not ..
  case div => exact wForm_eq_atWidth ofI_quotS ofI_quotS ..
  case divu => exact wForm_eq_atWidth ofNat_quotU ofNat_quotU ..
  case rem => exact wForm_eq_atWidth ofI_remS ofI_remS ..
  case remu => exact wForm_eq_atWidth ofNat_remU ofNat_remU ..
  case clz => exact wForm_eq_atWidth (fun a _ => ofNat_clzN a) (fun a _ => ofNat_clzN a) ..
  case ctz => exact wForm_eq_atWidth (fun a _ => ofNat_ctzN a) (fun a _ => ofNat_ctzN a) ..
  case popc => exact wForm_eq_atWidth (fun a _ => ofNat_popN a) (fun a _ => ofNat_popN a) ..
  case sextb => exact sextW_eq_signExtend ..
  case sexth => exact sextW_eq_signExtend ..
  case zextw => exact and_low32 ..
  case slti => exact boolW_slt_sext16 ..
  case sltiu => exact boolW_ult ..
  case lui => exact shiftLeft_sixteen ..
  case addpc => exact congrArg (x.pc + ·) (shiftLeft_sixteen ..)
  -- The other rows are written alike in the model and in the statement.
  all_goals rfl

/-- Settles O3: every integer row computes one register (`exec_of_intOp`), which a ready thread with a legal word does (`alu_ready`). -/
theorem integerResults : Obligations.IntegerResults := by
  intro i t con rd f w s hi hw hl h
  rw [exec_of_intOp s hi hw, State.alu_ready con rd f h hl, State.goesOn_eq]

end Sys2Proof.Machine
end

section
/-! SUPPORT. What raising flags does to a thread (R137 to R139). -/

open Sys2Proof

namespace Sys2Proof.Machine

/-- FPEI when a trap becomes pending (R139). -/
def fpeiFirst (i : Word) (pl e w : Nat) : Word :=
  FPEI_WORD.put (FPEI_EXC.put (FPEI_PL.put (FPEI_CNT.put (FPEI_PEND.put i 1) 0) pl) e) w

/-- FPEI when a trap is pending already (R139). -/
def fpeiCount (i : Word) : Word := FPEI_CNT.put i (min (FPEI_CNT.get i + 1) 0xFF)

theorem fpeiFirst_fields (i : Word) {pl e w : Nat} (he : e < 2 ^ 5) (hw : w < 2 ^ 32) :
    FPEI_PEND.get (fpeiFirst i pl e w) = 1 ∧ FPEI_CNT.get (fpeiFirst i pl e w) = 0 ∧ FPEI_EXC.get (fpeiFirst i pl e w) = e ∧
      FPEI_WORD.get (fpeiFirst i pl e w) = w ∧ FPEI_PL.get (fpeiFirst i pl e w) = pl % 2 := by
  simp (disch := decide) only [fpeiFirst, Fld.get_put_self, Fld.get_put_ne]
  exact ⟨rfl, rfl, Nat.mod_eq_of_lt he, Nat.mod_eq_of_lt hw, rfl⟩

theorem fpeiCount_fields (i : Word) : FPEI_CNT.get (fpeiCount i) = min (FPEI_CNT.get i + 1) 0xFF ∧
    FPEI_EXC.get (fpeiCount i) = FPEI_EXC.get i := by
  simp (disch := decide) only [fpeiCount, Fld.get_put_self, Fld.get_put_ne, and_true]
  exact Nat.mod_eq_of_lt (by simp only [FPEI_CNT]; omega)

/-- Not pending is PEND = 0: the field is one bit. -/
theorem Thread.pend_of_not_fpPend {x : Thread} (h : x.fpPend = false) : FPEI_PEND.get (x.srg SR_FPEI) = 0 := by
  have hlt : FPEI_PEND.get (x.srg SR_FPEI) < 2 := Nat.mod_lt _ (by decide)
  have hne : FPEI_PEND.get (x.srg SR_FPEI) ≠ 1 := by simpa [Thread.fpPend] using h
  omega

theorem Thread.pend_of_fpPend {x : Thread} (h : x.fpPend = true) : FPEI_PEND.get (x.srg SR_FPEI) = 1 := by
  simpa [Thread.fpPend] using h

section
variable {x : Thread} {w fl : Nat}

/-- At M level or with no raised flag enabled, only the flags are ORed (R127, R139). -/
theorem Thread.raiseFp_quiet (h : x.pl = 3 ∨ fl &&& FCS_EN.get (x.srg SR_FCS) = 0) :
    x.raiseFp w fl = x.setSr SR_FCS (x.srg SR_FCS ||| BitVec.ofNat 64 fl) := if_pos h

/-- The first enabled exception below M level becomes pending (R139). -/
theorem Thread.raiseFp_first (hpl : x.pl ≠ 3) (he : fl &&& FCS_EN.get (x.srg SR_FCS) ≠ 0) (hp : x.fpPend = false) :
    x.raiseFp w fl = ((x.setSr SR_FCS (x.srg SR_FCS ||| BitVec.ofNat 64 fl)).setSr SR_FPEA (align4 x.pc)).setSr SR_FPEI
      (fpeiFirst (x.srg SR_FPEI) x.pl (fl &&& FCS_EN.get (x.srg SR_FCS)) w) :=
  (if_neg (not_or.mpr ⟨hpl, he⟩)).trans (if_pos (Thread.pend_of_not_fpPend hp))

/-- A later one is counted (R139). -/
theorem Thread.raiseFp_later (hpl : x.pl ≠ 3) (he : fl &&& FCS_EN.get (x.srg SR_FCS) ≠ 0) (hp : x.fpPend = true) :
    x.raiseFp w fl = (x.setSr SR_FCS (x.srg SR_FCS ||| BitVec.ofNat 64 fl)).setSr SR_FPEI (fpeiCount (x.srg SR_FPEI)) :=
  (if_neg (not_or.mpr ⟨hpl, he⟩)).trans (if_neg (by rw [Thread.pend_of_fpPend hp]; decide))

end

/-- What may have changed may be said to be more. -/
theorem Thread.keeps_mono {x y : Thread} {l m : List Nat} (h : y.keeps x l) (hl : l ⊆ m) : y.keeps x m := by
  obtain ⟨hg, hf, hsr⟩ := h
  exact ⟨hg, hf, fun n hn => hsr n fun hnl => hn (hl hnl)⟩

/-- Raising flags ORs them into FCS and writes at most FPEA and FPEI besides (R138, R139). -/
theorem Thread.raiseFp_keeps (x : Thread) (w fl : Nat) : (x.raiseFp w fl).srg SR_FCS = x.srg SR_FCS ||| BitVec.ofNat 64 fl ∧
    (x.raiseFp w fl).keeps x [SR_FPEI, SR_FPEA, SR_FCS] ∧ (x.raiseFp w fl).pc = x.pc := by
  have hfcs := x.setSr_keeps SR_FCS (x.srg SR_FCS ||| BitVec.ofNat 64 fl)
  by_cases hq : x.pl = 3 ∨ fl &&& FCS_EN.get (x.srg SR_FCS) = 0
  · rw [Thread.raiseFp_quiet hq]
    exact ⟨x.srg_setSr_self .., Thread.keeps_mono hfcs (by simp), rfl⟩
  · obtain ⟨hpl, he⟩ := not_or.mp hq
    cases hp : x.fpPend
    · rw [Thread.raiseFp_first hpl he hp]
      refine ⟨?_, Thread.keeps_trans (Thread.setSr_keeps ..) (Thread.keeps_trans (Thread.setSr_keeps ..) hfcs), rfl⟩
      rw [Thread.srg_setSr_ne _ _ (by decide), Thread.srg_setSr_ne _ _ (by decide), Thread.srg_setSr_self]
    · rw [Thread.raiseFp_later hpl he hp]
      refine ⟨?_, Thread.keeps_mono (Thread.keeps_trans (Thread.setSr_keeps ..) hfcs) (by simp), rfl⟩
      rw [Thread.srg_setSr_ne _ _ (by decide), Thread.srg_setSr_self]

end Sys2Proof.Machine
end

section
/-! SUPPORT. Rounding mode, operand bits and sign of a floating-point row in the terms the statement uses (R69, R73). -/

open Sys2Proof

namespace Sys2Proof.Machine

/-- The mode a row rounds with: its rm field, or FCS.RM (R73). -/
theorem Thread.rmode_eq_rounding (x : Thread) (rm : BitVec 3) : x.rmode rm.toNat = x.rounding rm := by
  simp only [Thread.rmode, Thread.rounding, BitVec.toNat_eq]
  rfl

/-- Inverting the top bit of a number of `n + 1` bits. -/
theorem xor_two_pow_eq_ite {n v : Nat} (h : v < 2 ^ (n + 1)) : v ^^^ 2 ^ n = if v < 2 ^ n then v + 2 ^ n else v - 2 ^ n := by
  have hmod : (v ^^^ 2 ^ n) % 2 ^ n = v % 2 ^ n := by simp [Nat.xor_mod_two_pow]
  have hdiv : (v ^^^ 2 ^ n) / 2 ^ n = v / 2 ^ n ^^^ 1 := by simp [Nat.xor_div_two_pow]
  have hsum := Nat.div_add_mod (v ^^^ 2 ^ n) (2 ^ n)
  rw [hmod, hdiv] at hsum
  rw [← hsum]
  split
  case isTrue hlt =>
    rw [Nat.div_eq_of_lt hlt, Nat.mod_eq_of_lt hlt, Nat.zero_xor, Nat.mul_one, Nat.add_comm]
  case isFalse hge =>
    have hq : v / 2 ^ n = 1 := Nat.div_eq_of_lt_le (by omega) (by rw [Nat.pow_succ'] at h; omega)
    have hr := Nat.div_add_mod v (2 ^ n)
    rw [hq] at hr ⊢
    rw [Nat.xor_self]
    omega

/-- A floating-point operand has the bits of its format. -/
theorem Thread.fbits_lt (x : Thread) (fmt : Nat) (r : FReg) : x.fbits fmt r < 2 ^ (fpW fmt - 1 + 1) := by
  have hhi := (x.fr r.val).isLt
  have hlo := (x.fr (r.val + 1)).isLt
  simp only [Thread.fbits, fpW]
  split
  · omega
  · split <;> omega

end Sys2Proof.Machine
end

section
/-! PROOF. O12: the floating-point rows (R69, R90 to R92, R136 to R139). -/

open Sys2Proof

namespace Sys2Proof.Machine

/-- The floating-point instruction of word `w` with the operation `f`, its result to `d`. -/
def State.fpuTo (s : State) (t w : Nat) (d : FpDst) (f : Thread → Nat × Nat) : State :=
  s.ais t (info w 0 true) fun s =>
    .ok ((s.thr t).pc + 4) (s.setThr t (((s.thr t).raiseFp w (f (s.thr t)).2).putFp (f (s.thr t)).1 d))

theorem Thread.setFbits_eq_putFp (x : Thread) (fmt : Nat) (r : FReg) (v : Nat) : x.setFbits fmt r v = x.putFp v (.f fmt r) := by
  rw [Thread.setFbits]
  split
  case isTrue h => rw [h, Thread.putFp]
  case isFalse h => rw [Thread.putFp]; exact h

section
variable {s : State} {t w fmt : Nat} {f g : Thread → Nat × Nat}

theorem State.next_fpu_eq {fd : FReg} (h : ∀ x, f x = g x) :
    (.next (s.fpu t w fmt fd f) : Host.Outcome State Fault Refusal) = .next (s.fpuTo t w (.f fmt fd) g) := by
  simp only [State.fpu, State.fpuTo, Thread.setFbits_eq_putFp, h]

theorem State.next_fpuG_eq {rd : GReg} (h : ∀ x, f x = g x) :
    (.next (s.fpuG t w rd f) : Host.Outcome State Fault Refusal) = .next (s.fpuTo t w (.g rd) g) := by
  simp only [State.fpuG, State.fpuTo, Thread.putFp, h]

end

theorem State.fpuTo_ready {s : State} {t : Thr} {w : Nat} (d : FpDst) (f : Thread → Nat × Nat) (h : s.ready t.val 0 true = true)
    (hl : legalWord w = true) : s.fpuTo t.val w d f = (s.fetched t.val).goesOn t
      ((((s.fetched t.val).thr t.val).raiseFp w (f ((s.fetched t.val).thr t.val)).2).putFp (f ((s.fetched t.val).thr t.val)).1 d)
      (((s.fetched t.val).thr t.val).pc + 4) := by
  rw [State.fpuTo, State.ais_ready (info w 0 true) _ h hl rfl rfl]
  rfl

/-- Every floating-point row is its operation with its word and its destination. -/
theorem exec_of_fpOp {i : Instr} {t : Thr} {d : FpDst} {f : Thread → Nat × Nat} {w : Nat} (s : State)
    (hi : fpOp i = some (t, d, f)) (hw : aisWord i = some (t, w)) : exec i s = .next (s.fpuTo t.val w d f) := by
  cases i
  all_goals simp only [fpOp, reduceCtorEq, Option.some.injEq, Prod.mk.injEq] at hi
  all_goals obtain ⟨rfl, rfl, rfl⟩ := hi
  all_goals simp only [aisWord, Option.some.injEq, Prod.mk.injEq, true_and] at hw
  all_goals subst hw
  case fceq | fclt | fcle | fcun | fclass | fmvgf => rfl
  case fmin | fmax | fminn | fmaxn | fabs | fcpys | fmvfg => exact State.next_fpu_eq fun x => rfl
  case fneg => exact State.next_fpu_eq fun x => congrArg (·, 0) (xor_two_pow_eq_ite (x.fbits_lt ..))
  case fcvtis | fcvtiu => exact State.next_fpuG_eq fun x => by rw [Thread.rmode_eq_rounding]
  case fmadd | fmsub | fnmadd | fnmsub => exact State.next_fpu_eq fun x => by rw [Thread.rmode_eq_rounding]; rfl
  -- The other rows round, with a floating-point result.
  all_goals exact State.next_fpu_eq fun x => by rw [Thread.rmode_eq_rounding]

/-- Settles O12: the pending trap by the three cases of `raiseFp`, the rows by `exec_of_fpOp`. -/
theorem floatingPointResults : Obligations.FloatingPointResults := by
  refine ⟨?_, ?_⟩
  · intro x w fl hfl hw
    obtain ⟨hfcs, ⟨hg, hf, hsr⟩, hpc⟩ := x.raiseFp_keeps w fl
    refine ⟨hfcs, ⟨?_, ?_, ?_⟩, fun n hc hi ha => hsr n (by simp [hc, hi, ha]), hg, hf, hpc⟩
    · intro hq
      rw [Thread.raiseFp_quiet hq]
      exact ⟨x.srg_setSr_ne _ (by decide), x.srg_setSr_ne _ (by decide)⟩
    · intro hpl he hp
      obtain ⟨hpend, hcnt, hexc, hword, hfpl⟩ := fpeiFirst_fields (x.srg SR_FPEI) (pl := x.pl)
        (Nat.lt_of_le_of_lt Nat.and_le_left hfl : fl &&& FCS_EN.get (x.srg SR_FCS) < 32) hw
      rw [Thread.raiseFp_first hpl he hp, Thread.fpPend, Thread.srg_setSr_self, Thread.srg_setSr_ne _ _ (by decide), Thread.srg_setSr_self]
      exact ⟨by rw [hpend]; rfl, rfl, hexc, hcnt, hword, fun hle => hfpl.trans (Nat.mod_eq_of_lt (by omega))⟩
    · intro hpl he hp
      obtain ⟨hcnt, hexc⟩ := fpeiCount_fields (x.srg SR_FPEI)
      rw [Thread.raiseFp_later hpl he hp, Thread.srg_setSr_self, Thread.srg_setSr_ne _ _ (by decide), Thread.srg_setSr_ne _ _ (by decide)]
      exact ⟨rfl, hcnt, hexc⟩
  · intro i t d f w s hi hw hl h
    rw [exec_of_fpOp s hi hw, State.fpuTo_ready d f h hl]

end Sys2Proof.Machine
end

section
/-! SUPPORT. Caches, memory, records and the home agent write no general register: a fetch leaves every thread's as they were (R69, R114 step 1). -/

open Sys2Proof

namespace Sys2Proof.Machine

/-- The general registers of every thread. -/
def State.gprs (s : State) (t : Nat) : Tab Word := (s.thr t).g

theorem State.gr_of_gprs {s u : State} (h : u.gprs = s.gprs) (t : Nat) (r : GReg) : (u.thr t).gr r = (s.thr t).gr r := by
  rw [Thread.gr, show (u.thr t).g = (s.thr t).g from congrFun h t, Thread.gr]

@[simp] theorem State.gprs_with (s : State) (fresh : Nat) (regs : Tab Word) (fst : ForesterSt) (mem : Tab Byte) (mpois : Tab Bool)
    (lines : Tab Line) (canopy : Tab CanEnt) (home : List HomeTx) (out : List OutTx) (gports : Tab GPort) (peers : Tab Peer)
    (roots : Tab RootLink) (cores : Tab Core) (rseq : Nat) (collHeld : List Rec) (fq : Tab (List QEnt)) (flog : Tab (Option Rec))
    (flogCnt : Nat) (flogWait : List Rec) :
    ({ s with
      fresh := fresh, regs := regs, fst := fst, mem := mem, mpois := mpois, lines := lines, canopy := canopy, home := home, out := out
      gports := gports, peers := peers, roots := roots, cores := cores, rseq := rseq, collHeld := collHeld, fq := fq, flog := flog
      flogCnt := flogCnt, flogWait := flogWait } : State).gprs = s.gprs := rfl

/-! Threads, cores, registers. -/

@[simp] theorem Thread.g_pmc (x : Thread) (e n : Nat) : (x.pmc e n).g = x.g := by
  obtain ⟨sr, h⟩ := x.pmc_eq e n
  rw [h]

theorem State.modThr_gprs (s : State) (t : Nat) {f : Thread → Thread} (h : ∀ x, (f x).g = x.g) : (s.modThr t f).gprs = s.gprs :=
  funext fun v => State.thr_modThr_keeps Thread.g h s t v

@[simp] theorem State.modThr_pmc_gprs (s : State) (t e n : Nat) : (s.modThr t fun x => x.pmc e n).gprs = s.gprs :=
  s.modThr_gprs t fun x => x.g_pmc e n

@[simp] theorem State.foldl_gprs {α : Type} (f : State → α → State) (h : ∀ s a, (f s a).gprs = s.gprs) (l : List α) (s : State) :
    (l.foldl f s).gprs = s.gprs := State.foldl_keeps State.gprs f h l s

@[simp] theorem State.setCore_gprs (s : State) (c : Nat) (x : Core) : (s.setCore c x).gprs = s.gprs := by
  rw [State.setCore, State.gprs_with]
@[simp] theorem State.modCore_gprs (s : State) (c : Nat) (f : Core → Core) : (s.modCore c f).gprs = s.gprs := by
  rw [State.modCore, State.setCore_gprs]
@[simp] theorem State.tickFree_gprs (s : State) : s.tickFree.gprs = s.gprs := by
  rw [State.tickFree, State.gprs_with]
@[simp] theorem State.setReg_gprs (s : State) (r : Reg) (v : Word) : (s.setReg r v).gprs = s.gprs := by
  rw [State.setReg, State.gprs_with]
@[simp] theorem State.incF_gprs (s : State) (r : Reg) (f : Fld) (n : Nat) : (s.incF r f n).gprs = s.gprs := by
  rw [State.incF, State.setF, State.setReg_gprs]

/-! Records. -/

@[simp] theorem State.log_gprs (s : State) (i : RecIn) : (s.log i).gprs = s.gprs := by
  have handed (r : Rec) (n : Nat) : ({ s with rseq := n }.handOn r).gprs = s.gprs :=
    funext fun _ => congrArg Thread.g (State.thr_of_threads (State.threads_of_offRecords (State.handOn_offRecords _ _)))
  have marked (u : State) (p : Nat) (w : Word) : (u.setMci p w).gprs = u.gprs :=
    State.foldl_gprs _ (fun s t => s.modThr_gprs t fun _ => by rfl) _ u
  unfold State.log
  dsimp only
  repeat' split
  all_goals simp only [marked, handed]

/-! Messages. -/

@[simp] theorem State.send_gprs (s : State) (m : Msg) : (s.send m).gprs = s.gprs :=
  funext fun _ => congrArg Thread.g (State.thr_of_threads (s.send_threads m))

@[simp] theorem State.sendReq_gprs (s : State) (opc l part : Nat) (thr : Option Nat) (d : Option (LineData × Bool)) :
    (s.sendReq opc l part thr d).gprs = s.gprs := by
  simp [State.sendReq]
@[simp] theorem State.snoop_gprs (s : State) (x : HomeTx) (opc l mods : Nat) : (s.snoop x opc l mods).gprs = s.gprs := by
  simp [State.snoop]
@[simp] theorem State.reply_gprs (s : State) (x : HomeTx) (opc st : Nat) (d : Option (LineData × Bool)) :
    (s.reply x opc st d).gprs = s.gprs := by
  simp [State.reply]

/-! Caches. -/

@[simp] theorem State.setLine_gprs (s : State) (l : Nat) (x : Line) : (s.setLine l x).gprs = s.gprs := by
  rw [State.setLine, State.gprs_with]
@[simp] theorem State.modLine_gprs (s : State) (l : Nat) (f : Line → Line) : (s.modLine l f).gprs = s.gprs := by
  rw [State.modLine, State.setLine_gprs]
@[simp] theorem State.clearResv_gprs (s : State) (l : Nat) (f : Nat → Bool) : (s.clearResv l f).gprs = s.gprs :=
  State.foldl_gprs _ (fun s t => s.modThr_gprs t fun _ => by rfl) _ s
@[simp] theorem State.coreDrop_gprs (s : State) (l c : Nat) : (s.coreDrop l c).gprs = s.gprs := by
  simp [State.coreDrop]
@[simp] theorem State.backInval_gprs (s : State) (l : Nat) : (s.backInval l).gprs = s.gprs := by
  simp [State.backInval, State.pmcCore]

@[simp] theorem State.fillL2_gprs (s : State) (c l : Nat) : (s.fillL2 c l).gprs = s.gprs := by
  unfold State.fillL2
  dsimp only
  repeat' split
  all_goals simp [State.pmcCore]

@[simp] theorem State.fillL1_gprs (s : State) (c k l : Nat) : (s.fillL1 c k l).gprs = s.gprs := by
  unfold State.fillL1
  dsimp only
  repeat' split
  all_goals simp

@[simp] theorem State.touch_gprs (s : State) (t c k l : Nat) : (s.touch t c k l).gprs = s.gprs := by
  unfold State.touch
  dsimp only
  repeat' split
  all_goals simp

/-! Memory behind the home agent. -/

@[simp] theorem State.modRoot_gprs (s : State) (n : Nat) (f : RootLink → RootLink) : (s.modRoot n f).gprs = s.gprs := by
  rw [State.modRoot, State.setRoot, State.gprs_with]
@[simp] theorem State.setMemLine_gprs (s : State) (n la : Nat) (d : LineData) (p : Bool) : (s.setMemLine n la d p).gprs = s.gprs := by
  rw [State.setMemLine, State.gprs_with]

@[simp] theorem State.logDead_gprs (s : State) (n l : Nat) : (s.logDead n l).gprs = s.gprs := by
  unfold State.logDead
  dsimp only
  split <;> simp

@[simp] theorem State.memRead_gprs (s : State) (l : Nat) : (s.memRead l).1.gprs = s.gprs := by
  unfold State.memRead
  repeat' split
  all_goals simp

@[simp] theorem State.memWrite_gprs (s : State) (l : Nat) (d : LineData) (p : Bool) : (s.memWrite l d p).gprs = s.gprs := by
  have sent (s : State) (n la : Nat) : (s.linkWrite n la l d p).gprs = s.gprs := by
    unfold State.linkWrite
    repeat' split
    all_goals simp
  unfold State.memWrite
  repeat' split
  all_goals simp [sent]

@[simp] theorem State.evictL3_gprs (s : State) (l : Nat) : (s.evictL3 l).gprs = s.gprs := by
  unfold State.evictL3
  dsimp only
  repeat' split
  all_goals simp

@[simp] theorem State.install_gprs (s : State) (l : Nat) (st : LineSt) (d : LineData) (p : Bool) (part : Nat) :
    (s.install l st d p part).gprs = s.gprs := by
  unfold State.install
  dsimp only
  repeat' split
  all_goals simp

@[simp] theorem State.localInval_gprs (s : State) (l : Nat) : (s.localInval l).gprs = s.gprs := by
  unfold State.localInval
  dsimp only
  repeat' split
  all_goals simp

/-! Canopy and the home agent. -/

@[simp] theorem State.setCan_gprs (s : State) (i : Nat) (e : CanEnt) : (s.setCan i e).gprs = s.gprs := by
  rw [State.setCan, State.gprs_with]

@[simp] theorem State.canPut_gprs (s : State) (l : Nat) (ex : Bool) (pres : Nat) : (s.canPut l ex pres).gprs = s.gprs := by
  unfold State.canPut
  repeat' split
  all_goals simp

@[simp] theorem State.modTx_gprs (s : State) (l : Nat) (f : HomeTx → HomeTx) : (s.modTx l f).gprs = s.gprs := by
  rw [State.modTx, State.gprs_with]
@[simp] theorem State.endTx_gprs (s : State) (l : Nat) : (s.endTx l).gprs = s.gprs := by
  rw [State.endTx, State.gprs_with]

@[simp] theorem State.localClean_gprs (s : State) (l : Nat) (st : LineSt) : (s.localClean l st).gprs = s.gprs := by
  unfold State.localClean
  dsimp only
  repeat' split
  all_goals simp

@[simp] theorem State.homeLookup_gprs (s : State) (x : HomeTx) : (s.homeLookup x).gprs = s.gprs := by
  unfold State.homeLookup
  dsimp only
  repeat' split
  all_goals simp

theorem State.canRoom_gprs {s u : State} {x : HomeTx} (h : s.canRoom x = some u) : u.gprs = s.gprs := by
  unfold State.canRoom at h
  dsimp only at h
  repeat' split at h
  all_goals simp at h
  all_goals simp [← h]

@[simp] theorem State.homeStart_gprs (s : State) (x : HomeTx) : (s.homeStart x).gprs = s.gprs := by
  unfold State.homeStart
  dsimp only
  cases h : s.canRoom x with
  | none => repeat' split
            all_goals simp_all
  | some u =>
    have hu := State.canRoom_gprs h
    repeat' split
    all_goals simp_all

@[simp] theorem State.deliver_gprs (s : State) (x : HomeTx) : (s.deliver x).gprs = s.gprs := by
  unfold State.deliver
  dsimp only
  repeat' split
  all_goals simp

/-- A maintenance operation that completes leaves its thread's store buffer, and no register changes. -/
@[simp] theorem State.cmoVisible_gprs (s : State) (thr : Option Nat) (l : Nat) (owed : Bool) : (s.cmoVisible thr l owed).gprs = s.gprs := by
  unfold State.cmoVisible
  cases thr with
  | none => rfl
  | some t =>
    refine s.modThr_gprs t fun x => ?_
    repeat' split
    all_goals rfl

@[simp] theorem State.homeAdvance1_gprs (s : State) (l : Nat) : (s.homeAdvance1 l).gprs = s.gprs := by
  have read {u : State} {r : RdRes} (h : s.memRead l = (u, r)) : u.gprs = s.gprs := by
    rw [← s.memRead_gprs l, h]
  unfold State.homeAdvance1
  dsimp only
  repeat' split
  all_goals simp
  all_goals exact read (by assumption)

@[simp] theorem State.homeRun_gprs (s : State) (x : HomeTx) : (s.homeRun x).gprs = s.gprs := by
  simp [State.homeRun, State.homeAdvance]

@[simp] theorem State.homeKick_gprs (n : Nat) : ∀ s : State, (State.homeKick n s).gprs = s.gprs := by
  induction n with
  | zero => exact fun _ => rfl
  | succ n ih =>
    intro s
    unfold State.homeKick
    split <;> simp [ih]

@[simp] theorem State.homeAccept_gprs (s : State) (opc l src tid part : Nat) (thr : Option Nat) (d : Option (LineData × Bool)) :
    (s.homeAccept opc l src tid part thr d).gprs = s.gprs := by
  rw [State.homeAccept, State.homeServe, State.homeKick_gprs, State.gprs_with]

@[simp] theorem State.request_gprs (s : State) (opc l part : Nat) (thr : Option Nat) : (s.request opc l part thr).gprs = s.gprs := by
  unfold State.request
  dsimp only
  repeat' split
  all_goals simp

/-! The fetch. -/

/-- An instruction's part that went on went on after each of its steps. -/
theorem Ex.bind_eq_ok {α β : Type} {e : Ex α} {k : α → State → Ex β} {b : β} {u : State} (h : e.bind k = .ok b u) :
    ∃ a v, e = .ok a v ∧ k a v = .ok b u := by
  cases e with
  | ok a v => exact ⟨a, v, rfl, h⟩
  | exc | mchk | hold => cases h

theorem State.lineErr_ne_ok (s u : State) (st pa kind : Nat) : s.lineErr st pa kind ≠ .ok () u := by
  unfold State.lineErr
  dsimp only
  split <;> exact nofun

theorem State.reachLine_gprs {s u : State} {t k pa kind : Nat} (h : s.reachLine t k pa kind = .ok () u) : u.gprs = s.gprs := by
  have reached {v : State} (h : (if (v.line (lineOf pa)).poison then .mchk pa kind v
      else .ok () (v.touch t (v.pcore t) k (lineOf pa)) : Ex Unit) = .ok () u) : u.gprs = v.gprs := by
    split at h
    · cases h
    · cases h; exact v.touch_gprs ..
  have refused {v : State} {st : Nat} : v.lineErr st pa kind ≠ .ok () u := v.lineErr_ne_ok u st pa kind
  unfold State.reachLine at h
  dsimp only at h
  split at h
  · cases h
  split at h
  · exact reached h
  · cases h
  · exact absurd h refused
  split at h
  · exact (reached h).trans (s.request_gprs ..)
  · exact absurd h refused
  · cases h

theorem State.translate_gprs {s u : State} {t kind pa : Nat} {va : Word} {a : Acct} (h : s.translate t va a kind = .ok pa u) :
    u.gprs = s.gprs := by
  unfold State.translate at h
  dsimp only at h
  repeat' split at h
  any_goals cases h
  all_goals simp

/-- The fetch that succeeds leaves every thread's general registers as they were. -/
theorem State.fetch_gprs {s u : State} {t : Nat} (h : s.fetch t = .ok () u) : u.gprs = s.gprs := by
  obtain ⟨pa, v, hv, h⟩ := Ex.bind_eq_ok h
  refine Eq.trans ?_ (State.translate_gprs hv)
  split at h
  · cases h
  split at h
  · exact State.reachLine_gprs h
  · dsimp only at h
    split at h <;> cases h

theorem State.gr_fetched {s : State} {t lvl : Nat} {fp : Bool} (h : s.ready t lvl fp = true) (r : GReg) :
    ((s.fetched t).thr t).gr r = (s.thr t).gr r := by
  obtain ⟨-, -, -, -, hfetch, -⟩ := (s.ready_iff t lvl fp).mp h
  exact State.gr_of_gprs (State.fetch_gprs hfetch) t r

end Sys2Proof.Machine
end

section
/-! PROOF. O20: TLBI, WCI and their broadcasts (R96, R176 to R178, R241). -/

open Sys2Proof

namespace Sys2Proof.Machine

theorem legalWord_mmu {rd ra rb fn : Nat} (hd : rd < 32) (ha : ra < 32) (hb : rb < 32) (hf : fn < 2048) :
    legalWord (encR 0x3B rd ra rb fn) = legalMmu rd ra rb fn := by
  simp (disch := omega) only [legalWord, encR_op, encR_x, encR_y, encR_z, encR_fn]

/-! The operands of TLBI and WCI (R96). -/

/-- The number in the field of an operand register, 0 where the row has none. -/
def operandNo (r : Option GReg) : Nat := match r with | some r => r.val | none => 0

/-- The value of an operand register, 0 where the row has none. -/
def Thread.operand (x : Thread) (r : Option GReg) : Word := match r with | some r => x.gr r | none => 0

theorem operandNo_lt (r : Option GReg) : operandNo r < 32 := by
  cases r with
  | none => decide
  | some r => exact r.isLt

/-- The function codes of the local and the broadcast forms (R96). -/
def invalFns : List Nat := [0, 1, 2, 3, 4, 5, 8, 9, 10, 11, 12, 13]

theorem invalFn_lt : ∀ fn ∈ invalFns, fn < 6 ∨ 8 ≤ fn ∧ fn < 14 := by decide

/-- Every TLBI and WCI is `State.inval` with its code, and its word is legal. -/
theorem exec_of_invalOp {i : Instr} {t : Thr} {fn : Nat} {ra rb : Option GReg} (s : State) (hi : invalOp i = some (t, fn, ra, rb)) :
    exec i s = .next (s.inval t.val fn ra rb) ∧ fn ∈ invalFns ∧ legalMmu 0 (operandNo ra) (operandNo rb) (0x010 + fn) = true := by
  cases i
  all_goals simp only [invalOp, reduceCtorEq, Option.some.injEq, Prod.mk.injEq] at hi
  all_goals obtain ⟨rfl, rfl, rfl, rfl⟩ := hi
  all_goals exact ⟨rfl, by decide, rfl⟩

/-! What a core removes (R176). -/

theorem bitOf_three_of_invalFn : ∀ fn ∈ invalFns, bitOf fn 3 = decide (8 ≤ fn) := by decide

theorem tlbiHits_eq_goneTlb {fn : Nat} (h : fn ∈ invalFns) (hfn : fn < 8) (va w : Nat) (e : TlbEnt) :
    tlbiHits fn va w e = goneTlb fn va (w % 2 ^ 16) e := by
  have : fn < 6 := by have := invalFn_lt fn h; omega
  interval_cases fn <;> rfl

theorem wciHits_eq_goneWalk {fn : Nat} (h : fn ∈ invalFns) (hfn : 8 ≤ fn) (va w : Nat) (e : WalkEnt) :
    wciHits fn va w e = goneWalk fn va (w % 2 ^ 16) e := by
  have : fn < 14 := by have := invalFn_lt fn h; omega
  interval_cases fn <;> rfl

/-- A TLBI takes the entries it selects from the TLB and the micro-TLBs, a WCI from the walk cache. -/
theorem Core.invalidate_eq {fn : Nat} (h : fn ∈ invalFns) (x : Core) (va w : Nat) :
    let gone (e : TlbEnt) : Bool := decide (fn < 8) && goneTlb fn va (w % 2 ^ 16) e
    x.invalidate fn va w = { x with
      tlb := x.tlb.filter fun e => !gone e
      utlbI := x.utlbI.filter fun e => !gone e
      utlbD := x.utlbD.filter fun e => !gone e
      wc := x.wc.filter fun e => !(decide (8 ≤ fn) && goneWalk fn va (w % 2 ^ 16) e) } := by
  intro gone
  rw [Core.invalidate, bitOf_three_of_invalFn fn h]
  by_cases hfn : fn < 8
  · have hle : ¬ 8 ≤ fn := by omega
    simp [gone, hfn, hle, Core.tlbDrop, tlbiHits_eq_goneTlb h hfn]
  · have hle : 8 ≤ fn := by omega
    simp [gone, hfn, hle, wciHits_eq_goneWalk h hle]

/-! An invalidation that awaits nothing (R178). -/

/-- What a core's threads with no store on its way have to drain has drained, once the core has performed an invalidation that awaits no other. -/
theorem State.bcastDone_bcastAt {s : State} {b : Bcast} {c : Nat} (hc : b.cores = 0) (hd : b.drains = [])
    (hq : ∀ u ∈ s.coreThreads c, (s.thr u).sb = [] ∧ (s.thr u).trk = []) : (s.bcastAt b c).1.bcastDone (s.bcastAt b c).2 = true := by
  have hcores : setBit 0 c false = 0 := Nat.le_zero.mp (setBit_false_le 0 c)
  simp only [coreThreads, List.forall_mem_cons] at hq
  obtain ⟨⟨hsb, htrk⟩, ⟨hsb', htrk'⟩, -⟩ := hq
  simp [bcastAt, bcastDone, bcastDrained, drainsOf, modCore, hc, hd, hcores, hsb, htrk, hsb', htrk']

/-- What a TLBI or WCI does with its operands (R176 to R178). -/
def State.invalidates (s : State) (t fn : Nat) (va w : Word) : Ex Word :=
  let c := s.pcore t
  let g := s.actF (HWD_XLAT c) HWD_XLAT_BGRP
  let r := s.bcastAt ⟨fn, va, w, if fn % 2 == 1 then s.bcastCores c else 0, []⟩ c
  let mods := if fn % 2 == 1 && g != 0 then r.1.liveOthers else []
  if mods ≠ [] ∧ 4089 ≤ r.1.out.length + r.1.home.length then .hold r.1 else
  let u := mods.foldl (fun u m => u.sendTlbb t g r.2 m) r.1
  u.orWait t (mods == [] && u.bcastDone r.2) (.inval r.2 (mods.foldl (fun a m => a + 2 ^ m) 0))

theorem State.inval_eq_ais (s : State) (t fn : Nat) (ra rb : Option GReg) : s.inval t fn ra rb =
    s.ais t (info (encR 0x3B 0 (operandNo ra) (operandNo rb) (0x010 + fn)) 1) fun f =>
      f.invalidates t fn ((s.thr t).operand ra) ((s.thr t).operand rb) := rfl

/-- An invalidation whose core awaits no other and has nothing to drain completes at once (R178). -/
theorem State.invalidates_alone {s : State} {t fn : Nat} (va w : Word)
    (hgrp : fn % 2 = 1 → s.bcastCores (s.pcore t) = 0 ∧ s.actF (HWD_XLAT (s.pcore t)) HWD_XLAT_BGRP = 0)
    (hq : ∀ u ∈ s.coreThreads (s.pcore t), (s.thr u).sb = [] ∧ (s.thr u).trk = []) :
    s.invalidates t fn va w =
      .ok ((s.thr t).pc + 4) (s.modCore (s.pcore t) fun y => y.invalidate fn va.toNat w.toNat) := by
  have hcores : (if fn % 2 == 1 then s.bcastCores (s.pcore t) else 0) = 0 := by
    by_cases hodd : fn % 2 = 1
    · rw [(hgrp hodd).1, ite_self]
    · simp [hodd]
  have hmods : (fn % 2 == 1 && s.actF (HWD_XLAT (s.pcore t)) HWD_XLAT_BGRP != 0) = false := by
    by_cases hodd : fn % 2 = 1
    · simp [(hgrp hodd).2]
    · simp [hodd]
  have hdone := State.bcastDone_bcastAt (b := ⟨fn, va, w, 0, []⟩) rfl rfl hq
  simp only [invalidates, hcores, hmods, Bool.false_eq_true, if_false, ne_eq, not_true_eq_false, false_and, List.foldl_nil,
    beq_self_eq_true, Bool.true_and, hdone]
  rfl

/-! The commands. -/

theorem State.operand_fetched {s : State} {t lvl : Nat} {fp : Bool} (h : s.ready t lvl fp = true) (r : Option GReg) :
    (s.thr t).operand r = ((s.fetched t).thr t).operand r := by
  cases r with
  | none => rfl
  | some r => exact (State.gr_fetched h r).symm

/-- A TLBI or WCI of a ready thread whose core is the whole group removes what it selects, and the thread goes on. -/
theorem exec_inval_alone {i : Instr} {t : Thr} {fn : Nat} {ra rb : Option GReg} {s : State} (hi : invalOp i = some (t, fn, ra, rb))
    (h : s.ready t.val 1 false = true) :
    let f := s.fetched t.val
    let x := f.thr t.val
    let c := f.pcore t.val
    (fn % 2 = 1 → f.bcastCores c = 0 ∧ f.actF (HWD_XLAT c) HWD_XLAT_BGRP = 0) →
    (∀ u ∈ f.coreThreads c, (f.thr u).sb = [] ∧ (f.thr u).trk = []) →
    exec i s = .next ((f.modCore c fun y => y.invalidate fn (x.operand ra).toNat (x.operand rb).toNat).retire t.val (x.pc + 4)) := by
  intro f x c hgrp hq
  obtain ⟨hex, hfn, hl⟩ := exec_of_invalOp s hi
  have hlt := invalFn_lt fn hfn
  have hw := (legalWord_mmu (by decide) (operandNo_lt ra) (operandNo_lt rb) (by omega)).trans hl
  rw [hex, State.inval_eq_ais, State.ais_ready _ _ h hw rfl rfl, State.invalidates_alone _ _ hgrp hq, State.finish_ok,
    State.operand_fetched h, State.operand_fetched h]
  rfl

theorem exec_broadcastReceive {t : Thr} {b : Bcast} {m : Nat} {s : State} (c : Pcore) (h : (s.thr t.val).wait = .inval b m) :
    exec (.invalidationBroadcastReceive (.thread t) c) s = .next (
      if bitOf b.cores c.val then
        (s.bcastAt b c.val).1.modThr t.val fun x => x.waits (.inval (s.bcastAt b c.val).2 m)
      else s) := by
  rw [exec_invalidationBroadcastReceive, execInvalidationBroadcastReceive]
  simp only [h]
  rfl

theorem exec_invalidationComplete_done {t : Thr} {b : Bcast} {s : State} (hrun : (s.thr t.val).run = .running)
    (hwait : (s.thr t.val).wait = .inval b 0) (hdone : s.bcastDone b = true) :
    exec (.invalidationComplete t) s = .next (s.endWaiting t.val) := by
  rw [exec_invalidationComplete, execInvalidationComplete]
  simp only [hwait, hrun, hdone, and_self, if_true]

/-- Settles O20: the broadcast by its two rows, an invalidation that awaits nothing by `exec_inval_alone` and `Core.invalidate_eq`. -/
theorem invalidationResults : Obligations.InvalidationResults := by
  refine ⟨⟨fun t c b m s h => ⟨fun hb => ?_, fun hb => ?_⟩, fun t b s hrun hwait hcores hdrains => ?_⟩, ?_⟩
  · rw [exec_broadcastReceive c h, if_pos hb]
    rfl
  · rw [exec_broadcastReceive c h, if_neg (by simp [hb])]
  · have hdone : s.bcastDone b = true := by
      simp only [State.bcastDone, State.bcastDrained, hcores, beq_self_eq_true, Bool.true_and, List.all_eq_true, Bool.and_eq_true,
        decide_eq_true_eq]
      exact hdrains
    exact exec_invalidationComplete_done hrun hwait hdone
  · intro i t fn ra rb s hi h f x c va tag hgrp hq
    obtain ⟨-, hfn, -⟩ := exec_of_invalOp s hi
    have hva : va = (x.operand ra).toNat := by cases ra <;> rfl
    have htag : tag = (x.operand rb).toNat % 2 ^ 16 := by cases rb <;> rfl
    refine ⟨_, exec_inval_alone hi h hgrp hq, ?_⟩
    rw [State.modCore, State.core_setCore_self, Core.invalidate_eq hfn, hva, htag]
    exact ⟨rfl, rfl, rfl, rfl, fun d hd => State.core_setCore_ne _ _ hd, State.setCore_threads .., State.setCore_regs ..⟩

end Sys2Proof.Machine
end

section
/-! PROOF. O21: TLBWR and TWALK (R163 to R165, R170 to R174). -/

open Sys2Proof

namespace Sys2Proof.Machine

/-! TLBWR. -/

theorem legalWord_tlbwr (ra rb : GReg) : legalWord (encR 0x3B 0 ra.val rb.val 0x000) = true :=
  (legalWord_mmu (by decide) ra.isLt rb.isLt (by decide)).trans rfl

section
variable {t : Thr} {ra rb : GReg} {s : State} (h : s.ready t.val 1 false = true)
include h

theorem exec_tlbwr_enters {e : TlbEnt}
    (he : tlbEntOf (((s.fetched t.val).thr t.val).gr ra).toNat (((s.fetched t.val).thr t.val).gr rb).toNat = some e) :
    exec (.tlbwr t ra rb) s = .next (((s.fetched t.val).modCore ((s.fetched t.val).pcore t.val) fun c => c.tlbWrite e).retire t.val
      (((s.fetched t.val).thr t.val).pc + 4)) := by
  rw [exec_tlbwr, execTlbwr, State.ais_ready _ _ h (legalWord_tlbwr ra rb) rfl rfl]
  simp only [he]
  rfl

/-- Words that spell no entry are an illegal instruction (R165). -/
theorem exec_tlbwr_illegal
    (he : tlbEntOf (((s.fetched t.val).thr t.val).gr ra).toNat (((s.fetched t.val).thr t.val).gr rb).toNat = none) :
    exec (.tlbwr t ra rb) s = .next ((s.fetched t.val).takeExc t.val
      { code := 0x01, info := encR 0x3B 0 ra.val rb.val 0x000, addr := some ((s.fetched t.val).thr t.val).pc }) := by
  rw [exec_tlbwr, execTlbwr, State.ais_ready _ _ h (legalWord_tlbwr ra rb) rfl rfl]
  simp only [he]
  rfl

end

/-- A written entry is the most recently used; the others were there, and none of them is for the same page (R163, R165). -/
theorem Core.tlb_tlbWrite (x : Core) (n : TlbEnt) :
    (x.tlbWrite n).tlb.head? = some n ∧ ∀ o ∈ (x.tlbWrite n).tlb.drop 1, n.clashes o = false ∧ o ∈ x.tlb := by
  refine ⟨rfl, fun o ho => ?_⟩
  have kept : o ∈ (x.tlbDrop fun e => n.clashes e).tlb := by
    simp only [Core.tlbWrite, List.drop_succ_cons, List.drop_zero] at ho
    split at ho
    · exact ho
    split at ho
    · exact List.mem_of_mem_filter ho
    · exact ho
  obtain ⟨hmem, hclash⟩ := List.mem_filter.mp kept
  exact ⟨by simpa using hclash, hmem⟩

/-! TWALK. -/

/-- The address of the table entry a walk reads (R171 step 2). -/
def walkEa (va b : Nat) : Nat := b / 2 ^ 12 * 2 ^ 12 + 8 * bitsOf va (20 + 9 * (b % 8)) (12 + 9 * (b % 8))

theorem walkEa_eq (va b : Nat) : walkEa va b = b / 4096 * 4096 + 8 * (va / 2 ^ (12 + 9 * (b % 8)) % 512) := by
  rw [walkEa, bitsOf, show 20 + 9 * (b % 8) + 1 - (12 + 9 * (b % 8)) = 9 by omega]
  rfl

theorem bitOf_walkEa {b : Nat} (va : Nat) (hb : b / 2 ^ 52 = 0) : bitOf (walkEa va b) 51 = decide (2 ^ 51 ≤ walkEa va b) := by
  have hidx : va / 2 ^ (12 + 9 * (b % 8)) % 512 < 512 := Nat.mod_lt _ (by decide)
  rw [walkEa_eq, bitOf, Bool.eq_iff_iff, beq_iff_eq, decide_eq_true_iff]
  omega

/-- What a walk answers goes to rd (R172). -/
theorem exec_twalk_of_walk {t : Thr} {rd ra rb : GReg} {s g : State} {v : Word} (h : s.ready t.val 1 false = true)
    (hw : (s.fetched t.val).walk t.val (((s.fetched t.val).thr t.val).gr ra).toNat (((s.fetched t.val).thr t.val).gr rb).toNat = .ok v g) :
    exec (.twalk t rd ra rb) s = .next (g.goesOn t ((g.thr t.val).setGr rd v) ((g.thr t.val).pc + 4)) := by
  have hl := (legalWord_mmu rd.isLt ra.isLt rb.isLt (show 0x002 < 2048 by decide)).trans rfl
  rw [exec_twalk, execTwalk, State.ais_ready _ _ h hl rfl rfl]
  simp only [hw, Ex.ok_bind, State.finish_ok]
  rfl

section
variable {s : State} {t va b : Nat}

theorem State.walk_malformed (h : b / 2 ^ 52 ≠ 0 ∨ b / 16 % 256 ≠ 0 ∨ 4 < b % 8 ∨ canonical va = false) :
    s.walk t va b = .ok (walkRes 5 0) s := if_pos h

/-- An operand of TWALK that is not malformed (R171 step 1). -/
def walkOperand (va b : Nat) : Prop := b / 2 ^ 52 = 0 ∧ b / 16 % 256 = 0 ∧ b % 8 ≤ 4 ∧ canonical va = true

variable (hop : walkOperand va b)
include hop

theorem not_malformed_of_walkOperand : ¬ (b / 2 ^ 52 ≠ 0 ∨ bitsOf b 11 4 ≠ 0 ∨ 4 < b % 8 ∨ canonical va = false) := by
  obtain ⟨hbase, hzero, hlvl, hcan⟩ := hop
  have hzero : bitsOf b 11 4 = 0 := hzero
  simp only [hbase, hzero, hcan, ne_eq, not_true_eq_false, Bool.true_eq_false, or_false, false_or, not_lt, hlvl]

/-- A table address in device space (R171 step 2). -/
theorem State.walk_device (hea : 2 ^ 51 ≤ walkEa va b) : s.walk t va b = .ok (walkRes 3 (walkEa va b)) s := by
  obtain ⟨hbase, -⟩ := id hop
  have hbit := (bitOf_walkEa va hbase).trans (decide_eq_true hea)
  unfold State.walk
  rw [if_neg (not_malformed_of_walkOperand hop)]
  exact if_pos hbit

variable (hea : walkEa va b < 2 ^ 51)
include hea

theorem bitOf_walkEa_memory : ¬ bitOf (walkEa va b) 51 = true := by
  obtain ⟨hbase, -⟩ := hop
  rw [bitOf_walkEa va hbase, decide_eq_true_iff]
  omega

/-- A table that Firebreak does not let the partition read (R171 step 3). -/
theorem State.walk_refused (hmem : s.memOk (s.part t) (walkEa va b) false = false) :
    s.walk t va b = .ok (walkRes 4 (walkEa va b)) s := by
  unfold State.walk
  rw [if_neg (not_malformed_of_walkOperand hop)]
  exact (if_neg (bitOf_walkEa_memory hop hea)).trans (if_pos hmem)

/-- A walk at level 0 looks for no walk-cache hit and goes by the entry it reads, which is a leaf where it is not malformed (R161, R171
steps 4 to 8). -/
theorem State.walk_reads {l : List Byte} {u : State} (hmem : s.memOk (s.part t) (walkEa va b) false = true) (hlvl : b % 8 = 0)
    (hread : s.readMem t (walkEa va b) 8 7 = .ok l u) :
    s.walk t va b =
      let w := fromLe l
      if w % 2 = 0 then .ok (walkRes 1 w) u
      else if malformed w 0 then .ok (walkRes 2 w) u
      else if u.actF (HWD_XLAT (s.pcore t)) HWD_XLAT_ADHW = 1 then u.walkMark t (walkEa va b) w (markBits w (bitOf b 3))
      else .ok (walkRes 0 w) u := by
  have hbit := bitOf_walkEa_memory hop hea
  have hok : ¬ s.memOk (s.part t) (walkEa va b) false = false := by simp [hmem]
  have valid (w : Nat) : (bitOf w 0 = false) = (w % 2 = 0) := by simp [bitOf]
  have leaf {w : Nat} (h : ¬ malformed w 0 = true) : ¬ bitOf w 1 = false := fun hw => h (by simp [malformed, hw])
  unfold State.walk
  rw [if_neg (not_malformed_of_walkOperand hop)]
  refine (if_neg hbit).trans ((if_neg hok).trans ?_)
  rw [walkEa] at hread
  rw [if_neg (by omega)]
  simp only [hread, Ex.ok_bind, valid]
  simp only [walkEa, hlvl]
  split
  · rfl
  split
  · rfl
  next h => exact if_neg (leaf h)

end

/-- Settles O21: TLBWR by its two cases, TWALK by the branches of the walk in the order of R171. -/
theorem translationResults : Obligations.TranslationResults := by
  refine ⟨?_, ?_⟩
  · intro t ra rb s h f x
    exact ⟨fun e he => ⟨exec_tlbwr_enters h he, Core.tlb_tlbWrite _ e⟩, exec_tlbwr_illegal h⟩
  · intro t rd ra rb s h f x va b ea out
    refine ⟨fun hbad => exec_twalk_of_walk h (State.walk_malformed hbad), fun hbase hzero hlvl hcan => ?_⟩
    have hop : walkOperand va b := ⟨hbase, hzero, hlvl, hcan⟩
    rw [show ea = walkEa va b from (walkEa_eq va b).symm]
    refine ⟨fun hdev => exec_twalk_of_walk h (State.walk_device hop hdev),
      fun hlt hmem => exec_twalk_of_walk h (State.walk_refused hop hlt hmem), ?_⟩
    intro l hlt hmem hl0 e hval w
    have hwalk := State.walk_reads hop hlt hmem hl0 (Ex.ok_of_value? hval)
    refine ⟨fun h0 => ?_, fun h1 hbad => ?_, fun h1 hgood hleaf hadhw hact => ?_⟩
    · exact exec_twalk_of_walk h (hwalk.trans (if_pos h0))
    · exact exec_twalk_of_walk h (hwalk.trans ((if_neg (by omega)).trans (if_pos hbad)))
    · have hoff : ¬ e.state.actF (HWD_XLAT (f.pcore t.val)) HWD_XLAT_ADHW = 1 := by
        rw [State.actF_of_active hact, hadhw]
        decide
      have hgood : ¬ malformed w 0 = true := by simp [hgood]
      exact exec_twalk_of_walk h (hwalk.trans ((if_neg (by omega)).trans ((if_neg hgood).trans (if_neg hoff))))

end Sys2Proof.Machine
end

section
/-! PROOF. O49: reports, triggers of Windthrow, and what scrub finds (R182, R443, R459 to R468). -/

open Sys2Proof

namespace Sys2Proof.Machine

/-! What a record keeps beside what it changes. -/

theorem State.active_of_offRecords {s u : State} (h : u.offRecords = s.offRecords) : u.active = s.active := (congrArg State.active h :)
theorem State.cores_of_offRecords {s u : State} (h : u.offRecords = s.offRecords) : u.cores = s.cores := (congrArg State.cores h :)
theorem State.wind_of_offTraffic {s u : State} (h : u.offTraffic = s.offTraffic) : u.wind = s.wind := (congrArg State.wind h :)
theorem State.kst_of_offTraffic {s u : State} (h : u.offTraffic = s.offTraffic) : u.kst = s.kst := (congrArg State.kst h :)
theorem State.tkos_of_offTraffic {s u : State} (h : u.offTraffic = s.offTraffic) : u.tkos = s.tkos := (congrArg State.tkos h :)
theorem State.active_of_offTraffic {s u : State} (h : u.offTraffic = s.offTraffic) : u.active = s.active := (congrArg State.active h :)

theorem State.core_logC (s : State) (b i ty : Nat) (d : List Byte) (c : Nat) : (s.logC b i ty d).core c = s.core c := by
  rw [core, State.cores_of_offRecords (s.logC_offRecords ..), core]

/-! The number of a record (R461). -/

theorem State.setQueue_rseq (s : State) (c : Nat) (q : List QEnt) : (s.setQueue c q).rseq = s.rseq :=
  (congrArg State.rseq (s.setQueue_offQueues c q) :)

theorem State.incF_rseq (s : State) (r : Reg) (f : Fld) (n : Nat) : (s.incF r f n).rseq = s.rseq := by
  rw [incF, setF, setReg_rseq]

theorem State.enterLog_rseq (s : State) (r : Rec) : (s.enterLog r).rseq = s.rseq := by
  unfold State.enterLog
  repeat' split
  all_goals simp only [State.incF_rseq, State.setLogSlot_rseq]

theorem State.mergeRec_rseq (s : State) (r : Rec) : (s.mergeRec r).rseq = s.rseq := by
  unfold State.mergeRec
  dsimp only
  repeat' split
  all_goals simp only [State.incF_rseq, State.setLogSlot_rseq, State.setQueue_rseq]

theorem State.handOn_rseq (s : State) (r : Rec) : (s.handOn r).rseq = s.rseq := by
  unfold State.handOn
  repeat' split
  all_goals simp only [State.enterLog_rseq, State.mergeRec_rseq, State.incF_rseq, State.setQueue_rseq]

/-- A record has the number after the last one's. -/
theorem State.log_rseq (s : State) (i : RecIn) : (s.log i).rseq = nextRseq s.rseq := by
  have handed := State.handOn_rseq { s with rseq := (s.recOf i).rseq } (s.recOf i)
  have marked (u : State) (p : Nat) (w : Word) : (u.setMci p w).rseq = u.rseq :=
    State.foldl_keeps State.rseq _ (fun _ _ => by rw [modThr, setThr_rseq]) _ u
  unfold State.log
  dsimp only
  repeat' split
  all_goals simp only [marked, handed]
  all_goals rfl

/-! The threads a contained record reaches (R464). -/

/-- A change that every thread of a list takes, once taken, stays. -/
theorem State.foldl_modThr_each {f : Thread → Thread} {P : Thread → Prop} (h : ∀ x, P (f x)) (ts : List Nat) (s : State) {t : Nat}
    (ht : t ∈ ts) : P ((ts.foldl (fun s t => s.modThr t f) s).thr t) := by
  refine State.foldl_each (fun s t => P (s.thr t)) _ (fun s t => ?_) (fun s t v hv => ?_) ts s t (.inl ht)
  · rw [modThr, State.thr_setThr_self]
    exact h _
  · by_cases e : v = t
    · rw [e, modThr, State.thr_setThr_self]
      exact h _
    · rw [modThr, State.thr_setThr_ne _ _ e]
      exact hv

theorem State.mem_runningThreads {s : State} {t : Nat} : t ∈ s.runningThreads ↔ t < 128 ∧ s.running t = true := by
  rw [runningThreads, List.mem_filter, List.mem_range]

theorem State.part_of_active {s u : State} (h : u.active = s.active) (t : Nat) : u.part t = s.part t := by
  simp only [part, corePart, pcore, pcoreOfL, coreActive, State.actF_of_active h]

theorem State.running_of_threads {s u : State} (h : u.threads = s.threads) (t : Nat) : u.running t = s.running t := by
  rw [running, State.thr_of_threads h, running]

/-- A contained record of a partition for which no machine check is taken becomes pending in its running threads. -/
theorem State.mci_log {s : State} {i : RecIn} {p t : Nat} (hp : i.part = some p) (hc : i.cls = 2) (hm : i.mchk = false) (ht : t < 128)
    (hrun : s.running t = true) (hpart : s.part t = p) : ((s.log i).thr t).mci = some (s.recOf i).summary := by
  have off := State.handOn_offRecords { s with rseq := (s.recOf i).rseq } (s.recOf i)
  have hrun := (State.running_of_threads (State.threads_of_offRecords off) t).trans hrun
  have hpart := (State.part_of_active (State.active_of_offRecords off) t).trans hpart
  simp only [log, hp, hc, hm, and_self, if_true]
  refine State.foldl_modThr_each (P := fun x => x.mci = some (s.recOf i).summary) (fun _ => rfl) _ _ ?_
  exact List.mem_filter.mpr ⟨State.mem_runningThreads.mpr ⟨ht, hrun⟩, beq_iff_eq.mpr hpart⟩

/-! Triggers (R466, R467). -/

/-- The record of a trigger. -/
def trigRec (n : Nat) : RecIn := { block := trigBlock n, cls := 3, typ := 0x10, detail := [BitVec.ofNat 8 n] }

theorem exec_uncontainedTrigger_eq (n : Fin 9) (b : BitVec 8) (s : State) : exec (.uncontainedTrigger n b) s =
    .next (if n ≠ 0 ∧ trigBlock n.val = b.toNat then s.trigger n.val else s) := rfl

theorem State.trigger_underWay {s : State} (n : Nat) (h : s.wind ≠ 0) : s.trigger n = s.log (trigRec n) :=
  if_pos ((State.wind_of_offTraffic (s.log_offTraffic _)).symm ▸ h)

/-- Every trained Grove port offers WTHROW (R261). -/
def State.offerWthrow (s : State) : State :=
  ((List.range 7).filter fun p => s.gpState p == 2).foldl (fun s p => s.modGp p fun x => x.offer .wthrow) s

theorem State.offerWthrow_threads (s : State) : s.offerWthrow.threads = s.threads :=
  State.foldl_keeps State.threads _ (fun s p => by rw [modGp, setGp]) _ s
theorem State.offerWthrow_mem (s : State) : s.offerWthrow.mem = s.mem := State.foldl_keeps State.mem _ (fun s p => s.modGp_mem p _) _ s

theorem State.foldl_modThr_frame (f : Thread → Thread) (ts : List Nat) (s : State) :
    let u := ts.foldl (fun s t => s.modThr t f) s
    u.wind = s.wind ∧ u.windAge = s.windAge ∧ u.wthrow = s.wthrow ∧ u.mem = s.mem :=
  ⟨State.foldl_keeps State.wind _ (fun s t => by rw [modThr, setThr_wind]) ts s,
    State.foldl_keeps State.windAge _ (fun s t => by rw [modThr, setThr_windAge]) ts s,
    State.foldl_keeps State.wthrow _ (fun s t => by rw [modThr, setThr_wthrow]) ts s,
    State.foldl_keeps State.mem _ (fun s t => by rw [modThr, setThr_mem]) ts s⟩

/-- The first trigger starts Windthrow. -/
theorem State.trigger_starts {s : State} (n : Nat) (h : s.wind = 0) :
    let u := s.trigger n
    u.wind = 1 ∧ u.windAge = 0 ∧ u.wthrow = true ∧ (∀ t < 128, s.running t = true → (u.thr t).wtwPend = true) ∧ u.mem = s.mem := by
  let g := (s.log (trigRec n)).offerWthrow
  have threads : g.threads = s.threads := (State.offerWthrow_threads _).trans (State.threads_of_offRecords (s.log_offRecords rfl))
  have mem : g.mem = s.mem := (State.offerWthrow_mem _).trans (State.mem_of_offRecords (s.log_offRecords rfl))
  have started : s.trigger n = g.runningThreads.foldl (fun s t => s.modThr t fun x => { x with wtwPend := true })
      { g with wind := 1, windAge := 0, wthrow := true } := by
    refine if_neg ?_
    rw [State.wind_of_offTraffic (s.log_offTraffic _), h]
    decide
  obtain ⟨hwind, hage, hthrow, hmem⟩ := State.foldl_modThr_frame (fun x => { x with wtwPend := true }) g.runningThreads
    { g with wind := 1, windAge := 0, wthrow := true }
  rw [started]
  refine ⟨hwind, hage, hthrow, fun t ht hrun => ?_, hmem.trans mem⟩
  exact State.foldl_modThr_each (P := fun x => x.wtwPend = true) (fun _ => rfl) _ _
    (State.mem_runningThreads.mpr ⟨ht, (State.running_of_threads threads t).trans hrun⟩)

/-! A lost image (R443). -/

theorem State.stopCore_offTraffic (s : State) (c : Nat) (why : Run) : (s.stopCore c why).offTraffic = s.offTraffic :=
  State.foldl_offTraffic _ (fun _ _ => by simp) _ s

theorem State.dropTko_threads (s : State) (id : Nat) : (s.dropTko id).threads = s.threads :=
  (State.threads_of_offQueues (s.setQueue_offQueues ..) : (s.approvalDone id).threads = s.threads)

theorem State.mem_tkos_dropTko {s : State} {id : Nat} {k : Takeover} : k ∈ (s.dropTko id).tkos ↔ k ∈ s.tkos ∧ k.reqid ≠ id := by
  rw [dropTko, List.mem_filter, bne_iff_ne]

/-- Dropping the takeovers of a list leaves none of them, and adds none. -/
theorem State.not_mem_tkos_foldl_dropTko (ks : List Takeover) (s : State) {k : Takeover} (h : k ∈ ks ∨ k ∉ s.tkos) :
    k ∉ (ks.foldl (fun s k => s.dropTko k.reqid) s).tkos := by
  refine State.foldl_each (fun s k => k ∉ s.tkos) _ (fun s k hk => ?_) (fun s j k hk hmem => ?_) ks s k h
  · exact (State.mem_tkos_dropTko.mp hk).2 rfl
  · exact hk (State.mem_tkos_dropTko.mp hmem).1

theorem State.giveUp_offTraffic (s : State) (blk f why : Nat) : (s.giveUp blk f why).offTraffic = s.offTraffic := by
  have notified (u : State) (p lc : Nat) (w : Word) : (u.notifyRex p lc w).offTraffic = u.offTraffic := by
    unfold State.notifyRex
    split <;> simp
  unfold State.giveUp
  dsimp only
  split <;> simp [notified]

theorem State.run_giveUp (s : State) (blk f why v : Nat) : ((s.giveUp blk f why).thr v).run = (s.thr v).run := by
  have notified (u : State) (p lc : Nat) (w : Word) : ((u.notifyRex p lc w).thr v).run = (u.thr v).run := by
    unfold State.notifyRex
    split
    · exact State.thr_modThr_keeps Thread.run (fun _ => by rfl) ..
    · rfl
  have counted (u : State) : ((u.incF CPC_STAT CPC_STAT_DECLINE).thr v).run = (u.thr v).run := by
    rw [incF, setF, State.thr_setReg]
  unfold State.giveUp
  dsimp only
  split
  · exact (counted _).trans ((notified ..).trans (s.run_log ..))
  · exact (notified ..).trans (s.run_log ..)

/-- Both threads of a core whose image is lost are stopped for good, and no takeover leaves the core. -/
theorem State.imageLost_stops {s : State} {c : Nat} (h : s.leaving c = false) :
    (∀ v ∈ s.coreThreads c, ((s.imageLost c).thr v).run = .stoppedImage) ∧ ∀ k ∈ (s.imageLost c).tkos, k.failing ≠ c := by
  let a := s.stopCore c .stoppedRetry
  let b := (a.coreThreads c).foldl (fun s t => s.modThr t fun x => { x with run := .stoppedImage }) a
  let d := (b.tkos.filter fun k => k.failing == c).foldl (fun s k => s.dropTko k.reqid) b
  have lost : s.imageLost c = d.giveUp 0x02 c 4 := by
    unfold State.imageLost
    rw [if_neg (by simp [h])]
  have threads : d.threads = b.threads := 
    State.foldl_keeps State.threads (fun s (k : Takeover) => s.dropTko k.reqid) (fun s k => s.dropTko_threads k.reqid) _ b
  rw [lost, State.tkos_of_offTraffic (State.giveUp_offTraffic ..)]
  refine ⟨fun v hv => ?_, fun k hk hfail => ?_⟩
  · have hv : v ∈ a.coreThreads c := by rwa [State.coreThreads_of_active (State.active_of_offTraffic (s.stopCore_offTraffic ..))]
    rw [State.run_giveUp, State.thr_of_threads threads]
    exact State.foldl_modThr_each (f := fun x => { x with run := .stoppedImage }) (P := fun x => x.run = .stoppedImage) (fun _ => rfl)
      _ a hv
  · refine State.not_mem_tkos_foldl_dropTko (b.tkos.filter fun k => k.failing == c) b ?_ hk
    rw [List.mem_filter, beq_iff_eq]
    exact or_iff_not_imp_right.mpr fun hb => ⟨not_not.mp hb, hfail⟩

theorem exec_scrub_heartwood {t : Thr} {s : State} (ue : Bool) (h : (s.thr t.val).run ≠ .held) :
    exec (.arrayScrub (.heartwood t ue)) s = .next (if ue then s.imageLost (s.pcore t.val)
      else (s.incF (HWD_STAT (s.pcore t.val)) HWD_STAT_CE).logC 0x02 (s.pcore t.val) 0x01 (leBytes 4 (t.val % 2))) :=
  congrArg _ (if_neg h)

/-! An active value (R467, R468). -/

section
variable {b i o : Nat} {s : State} (h : (⟨b, i, o⟩ : Reg).rwsMask ≠ 0)
include h

theorem exec_scrub_active_corrected : exec (.arrayScrub (.active b i o false)) s = .next (s.logC b i 0x01 (leBytes 4 o)) :=
  congrArg _ (if_neg h)

/-- What the image retains replaces an active value that scrub could not correct. -/
theorem exec_scrub_active_reloaded {v : Word} (hv : s.retainedOf ⟨b, i, o⟩ = some v) : exec (.arrayScrub (.active b i o true)) s =
    .next ((s.setAct ⟨b, i, o⟩ (v &&& (⟨b, i, o⟩ : Reg).rwsMask)).logC b i 0x02 (leBytes 4 o)) := by
  simp only [exec_arrayScrub, execArrayScrub, State.activeError, if_neg h, hv, if_true]

end

/-! Keys, and entries of the TLB and the walk cache (R182, R415). -/

/-- The keystore without the key of a slot. -/
def State.dropKey (s : State) (k : Nat) : State := { s with kst := { s.kst with slots := Tab.set (fun _ => none) s.kst.slots k none } }

theorem exec_scrub_keystore (k : Fin 4096) (s : State) : exec (.arrayScrub (.keystore k true)) s = .next ((s.dropKey k.val).log
    { block := 0x12, cls := 2, typ := 0x02, part := s.slotOwner k.val, detail := leBytes 4 k.val }) := rfl

theorem State.keySlot_log (s : State) (i : RecIn) (n : Nat) : (s.log i).keySlot n = s.keySlot n := by
  rw [keySlot, State.kst_of_offTraffic (s.log_offTraffic i), keySlot]

theorem State.keySlot_dropKey_self (s : State) (k : Nat) : (s.dropKey k).keySlot k = none := by
  rw [keySlot, dropKey, Tab.get_set_self]
theorem State.keySlot_dropKey_ne (s : State) {k n : Nat} (h : n ≠ k) : (s.dropKey k).keySlot n = s.keySlot n := by
  rw [keySlot, dropKey, Tab.get_set_ne _ _ _ h, keySlot]

theorem exec_scrub_tlb {c : Pcore} {va : Word} {g : BitVec 16} {s : State} {e : TlbEnt} (w : Fin 8)
    (h : tlbFind (s.core c.val).tlb va.toNat g.toNat = some e) : exec (.arrayScrub (.tlb c va g w)) s =
      .next ((s.modCore c.val fun x => x.tlbDrop fun f => f == e).logC 0x01 c.val 0x01 (leBytes 4 (e.set * 8 + w.val))) := by
  simp only [exec_arrayScrub, execArrayScrub, State.tlbError, h]

theorem exec_scrub_walk {c : Pcore} {g : BitVec 16} {l : Fin 5} {ea va : Word} {s : State} {e : WalkEnt} (w : Fin 8)
    (h : (s.core c.val).walkHit g.toNat l.val ea.toNat va.toNat = some e) : exec (.arrayScrub (.walk c g l ea va w)) s =
      .next ((s.modCore c.val fun x => { x with wc := x.wc.filter fun f => f != e }).logC 0x01 c.val 0x01
        (leBytes 4 (walkSet e.ea * 8 + w.val))) := by
  simp only [exec_arrayScrub, execArrayScrub, State.walkError, h]

theorem exec_errorRecord_eq (r : Report) (s : State) : exec (.errorRecord r) s =
    .next (if reportOk r = false then s else (s.log (reportIn r)).serveRecord) := rfl

/-- Settles O49, clause by clause: reports, triggers, and the errors of each array. -/
theorem recordsAndTriggers : Obligations.RecordsAndTriggers := by
  refine ⟨?_, ?_, ?_, ?_, ?_, ?_, ?_, ?_⟩
  · intro r s
    rw [exec_errorRecord_eq]
    refine ⟨fun hbad => by rw [if_pos hbad], fun hgood => ⟨?_, State.log_rseq s _, fun p t hp hc ht hrun hpart => ?_⟩⟩
    · rw [if_neg (by simp [hgood])]
    · exact State.mci_log (congrArg (Option.map Fin.val) hp) (congrArg BitVec.toNat hc) rfl ht hrun hpart
  · intro n b s
    rw [exec_uncontainedTrigger_eq]
    refine ⟨fun hno => ?_, fun hn hb => ?_⟩
    · rw [if_neg (by tauto)]
    · rw [if_pos ⟨hn, hb⟩]
      exact ⟨fun hw => congrArg _ (State.trigger_underWay _ hw), fun hw => ⟨_, rfl, State.trigger_starts _ hw⟩⟩
  · intro t s hheld c
    refine ⟨?_, fun hl => ?_, fun hl _ => ⟨_, ?_, State.imageLost_stops hl⟩⟩
    · rw [exec_scrub_heartwood _ hheld]
      rfl
    · rw [exec_scrub_heartwood _ hheld]
      exact congrArg _ (if_pos hl)
    · rw [exec_scrub_heartwood _ hheld]
      rfl
  · intro b i o v s r hr
    exact ⟨exec_scrub_active_corrected hr, exec_scrub_active_reloaded hr⟩
  · intro k s
    refine ⟨rfl, _, exec_scrub_keystore k s, ?_, fun n hn => ?_, ?_⟩
    · rw [State.keySlot_log, State.keySlot_dropKey_self]
    · rw [State.keySlot_log, s.keySlot_dropKey_ne hn]
    · rw [State.kst_of_offTraffic (State.log_offTraffic ..)]
      rfl
  · exact fun x w s => rfl
  · intro c va g w s
    refine ⟨fun hnone => ?_, fun e he => ⟨_, exec_scrub_tlb w he, rfl, ?_, fun f => ?_⟩⟩
    · simp only [exec_arrayScrub, execArrayScrub, State.tlbError, hnone]
    · rw [State.mem_of_offRecords (State.logC_offRecords ..), State.modCore, State.setCore_mem]
    · rw [State.core_logC, State.modCore, State.core_setCore_self]
      simp [Core.tlbDrop]
  · intro c g l ea va w s
    refine ⟨fun hnone => ?_, fun e he => ⟨_, exec_scrub_walk w he, fun f => ?_⟩⟩
    · simp only [exec_arrayScrub, execArrayScrub, State.walkError, hnone]
    · rw [State.core_logC, State.modCore, State.core_setCore_self]
      simp

end Sys2Proof.Machine
end

section
/-! SUPPORT. What a failing target, a failing device store and a record leave of every thread (R192, R193, R464). -/

open Sys2Proof

namespace Sys2Proof.Machine

/-- A key that does not read as its default stands in the table with the value it reads as. -/
theorem Tab.mem_of_get_ne {α : Type} {d : Nat → α} {t : Tab α} {k : Nat} (h : Tab.get d t k ≠ d k) : (k, Tab.get d t k) ∈ t := by
  induction t with
  | nil => exact absurd rfl h
  | cons e t ih =>
    obtain ⟨j, v⟩ := e
    simp only [Tab.get] at h ⊢
    split
    · next hj => rw [hj]; exact List.mem_cons_self ..
    · next hj => exact List.mem_cons_of_mem _ (ih (by rwa [if_neg hj] at h))

theorem State.thr_modThr_self (s : State) (t : Nat) (f : Thread → Thread) : (s.modThr t f).thr t = f (s.thr t) := s.thr_setThr_self ..
theorem State.thr_modThr_ne (s : State) {t v : Nat} (h : v ≠ t) (f : Thread → Thread) : (s.modThr t f).thr v = s.thr v :=
  s.thr_setThr_ne _ h

/-- A change made once or more to each listed thread, where once more changes nothing. -/
theorem State.thr_foldl_modThr {α : Type} {f : Thread → Thread} (hf : ∀ x, f (f x) = f x) (k : α → Nat) (l : List α) (s : State) (v : Nat) :
    (l.foldl (fun s a => s.modThr (k a) f) s).thr v = if v ∈ l.map k then f (s.thr v) else s.thr v := by
  induction l generalizing s with
  | nil => rfl
  | cons a l ih =>
    rw [List.foldl_cons, ih, List.map_cons]
    by_cases e : v = k a
    · rw [e, State.thr_modThr_self, hf, ite_self, if_pos (List.mem_cons_self ..)]
    · simp only [s.thr_modThr_ne e f, List.mem_cons, e, false_or]

/-! Records. -/

theorem State.thr_setMci (s : State) (p : Nat) (m : Word) (v : Nat) : ∃ w, (s.setMci p m).thr v = { s.thr v with mci := w } := by
  have marked := s.thr_foldl_modThr (f := fun x => { x with mci := some m }) (fun _ => rfl) id (s.runningThreads.filter fun t => s.part t == p) v
  split at marked
  · exact ⟨_, marked⟩
  · exact ⟨_, marked⟩

/-- A record changes nothing of a thread but its pending machine-check interrupt (R464). -/
theorem State.thr_log (s : State) (i : RecIn) (v : Nat) : ∃ w, (s.log i).thr v = { s.thr v with mci := w } := by
  have handed : ({ s with rseq := (s.recOf i).rseq }.handOn (s.recOf i)).thr v = s.thr v :=
    State.thr_of_threads (State.threads_of_offRecords (State.handOn_offRecords _ _))
  unfold State.log
  dsimp only
  generalize ({ s with rseq := (s.recOf i).rseq }.handOn (s.recOf i)) = u at *
  rw [← handed]
  split
  · split
    · exact u.thr_setMci ..
    · exact ⟨_, rfl⟩
  · exact ⟨_, rfl⟩

/-! A target that fails. -/

/-- Whether a device address leads to the target of another (R192). -/
def State.sameTarget (s : State) (pa a : Nat) : Bool := s.devKey a == s.devKey pa

theorem Thread.dropFailed_eq (x : Thread) (f : Nat → Bool) : x.dropFailed f =
    { x with trk := x.trk.filter fun e => !f e.pa, devFail := x.devFail.or ((x.trk.find? fun e => f e.pa).map (·.pa)) } := by
  have hor : (x.dropFailed f).devFail = x.devFail.or ((x.trk.find? fun e => f e.pa).map (·.pa)) := by
    rw [← List.head?_filter, Thread.dropFailed]
    cases x.devFail <;> rfl
  rw [← hor]
  rfl

theorem Thread.dropFailed_dropFailed (x : Thread) (f : Nat → Bool) : (x.dropFailed f).dropFailed f = x.dropFailed f := by
  have hnone : (x.trk.filter fun e => !f e.pa).find? (fun e => f e.pa) = none := by simp
  simp [Thread.dropFailed_eq, hnone]

theorem Thread.dropFailed_of_trk_nil {x : Thread} (h : x.trk = []) (f : Nat → Bool) : x.dropFailed f = x := by
  have htrk : (x.trk.filter fun e => !f e.pa) = x.trk := by rw [h]; rfl
  have hfirst : (x.trk.find? fun e => f e.pa) = none := by rw [h]; rfl
  rw [Thread.dropFailed_eq, htrk, hfirst, Option.map_none, Option.or_none]

theorem State.self_markFailed (s : State) (k : Nat) : (s.markFailed k).self = s.self :=
  State.getF_of_grove (s.markFailed_grove k) grvGroup_ofGrove _

theorem State.devKey_of_self {s u : State} (h : u.self = s.self) (a : Nat) : u.devKey a = s.devKey a := by
  rw [State.devKey, h, State.devKey]

/-- Targets are told apart by the module's own number, which a change of threads leaves. -/
theorem State.foldl_dropFailed (l : List (Nat × Thread)) (s : State) (pa : Nat) {u : State} (h : u.self = s.self) :
    l.foldl (fun u e => u.modThr e.1 fun x => x.dropFailed fun a => u.devKey a == s.devKey pa) u =
      l.foldl (fun u e => u.modThr e.1 fun x => x.dropFailed (s.sameTarget pa)) u := by
  induction l generalizing u with
  | nil => rfl
  | cons e l ih =>
    have hkey : (fun a => u.devKey a == s.devKey pa) = s.sameTarget pa := funext fun a => by rw [State.sameTarget, State.devKey_of_self h]
    have hself : (u.modThr e.1 fun x => x.dropFailed (s.sameTarget pa)).self = s.self :=
      (State.getF_of_grove (congrArg Prod.fst (u.modThr_grove ..)) grvGroup_ofGrove _).trans h
    rw [List.foldl_cons, List.foldl_cons, hkey, ih hself]

/-- A failing target takes along the stores to it of every thread (R192). -/
theorem State.thr_failTarget (s : State) (pa v : Nat) : (s.failTarget pa).thr v = (s.thr v).dropFailed (s.sameTarget pa) := by
  let u := s.markFailed (s.devKey pa)
  have hthr : u.thr v = s.thr v := s.markFailed_thr _
  have hfail : s.failTarget pa = (u.threads.filter fun e => e.2.trk != []).foldl _ u :=
    State.foldl_dropFailed _ s pa (s.self_markFailed _)
  rw [hfail, State.thr_foldl_modThr (fun x => x.dropFailed_dropFailed _) Prod.fst, hthr]
  split
  · rfl
  · next hout =>
    refine (Thread.dropFailed_of_trk_nil ?_ _).symm
    by_contra htrk
    have hne : u.thr v ≠ thrDefault v := fun e => htrk (by rw [← hthr, e]; rfl)
    have hmem : (v, u.thr v) ∈ u.threads := Tab.mem_of_get_ne hne
    exact hout (List.mem_map.mpr ⟨_, List.mem_filter.mpr ⟨hmem, by simpa [hthr] using htrk⟩, rfl⟩)

theorem State.failed_failTarget (s : State) (pa : Nat) : s.devKey pa ∈ (s.failTarget pa).failed := by
  have hfold : (s.failTarget pa).grove = (s.markFailed (s.devKey pa)).grove := State.foldl_grove _ (fun _ _ => State.modThr_grove ..) _ _
  rw [State.failed_of_grove hfold]
  exact s.mem_failed_markFailed _

/-! A device load or store that fails. -/

/-- A lost device load leaves the threads as its failing target does, with a record (R196). -/
theorem State.thr_lostLoad (s : State) (t pa v : Nat) :
    ∃ w, (s.lostLoad t pa).thr v = { (s.thr v).dropFailed (s.sameTarget pa) with mci := w } := by
  rw [← State.thr_failTarget]
  exact State.thr_log ..

theorem State.failed_lostLoad (s : State) (t pa : Nat) : s.devKey pa ∈ (s.lostLoad t pa).failed := by
  rw [State.lostLoad, State.failed_of_grove (State.logDev_grove ..)]
  exact s.failed_failTarget pa

/-- A failure is due to a thread, unless one is. -/
def Thread.failDue (x : Thread) (pa : Nat) : Thread := { x with devFail := x.devFail.or (some pa) }

theorem State.failStore_eq (s : State) {t pa : Nat} (h : s.devKey pa ∉ s.failed) :
    s.failStore t pa = (s.lostLoad t pa).modThr t fun x => x.failDue pa := by
  have hnew : ¬ s.failed.contains (s.devKey pa) = true := fun hc => h (List.contains_iff_mem.mp hc)
  rw [State.failStore, if_neg hnew]
  refine congrArg _ (funext fun x => ?_)
  cases hx : x.devFail <;> rw [Thread.failDue, hx] <;> rfl

theorem State.failed_failStore (s : State) {t pa : Nat} (h : s.devKey pa ∉ s.failed) : s.devKey pa ∈ (s.failStore t pa).failed := by
  rw [s.failStore_eq h, State.failed_of_grove (State.modThr_grove ..)]
  exact s.failed_lostLoad t pa

/-- What the failure of a thread's own store to the target adds for that thread, and of another's for no other (R192). -/
theorem State.thr_failStore (s : State) {t pa : Nat} (h : s.devKey pa ∉ s.failed) (v : Nat) : ∃ w, (s.failStore t pa).thr v =
    let y : Thread := { (s.thr v).dropFailed (s.sameTarget pa) with mci := w }
    if v = t then y.failDue pa else y := by
  obtain ⟨w, hw⟩ := s.thr_lostLoad t pa v
  refine ⟨w, ?_⟩
  rw [s.failStore_eq h, ← hw]
  split
  · next e => rw [e, State.thr_modThr_self]
  · next e => rw [State.thr_modThr_ne _ e]

/-- A thread with a store to the failed target has a failure pending, so its own failing store adds none. -/
theorem Thread.failDue_dropFailed {x : Thread} {f : Nat → Bool} {e : TrkEnt} (he : e ∈ x.trk) (hf : f e.pa = true) (pa : Nat) :
    (x.dropFailed f).failDue pa = x.dropFailed f := by
  have hsome : (x.dropFailed f).devFail.isSome = true := by
    rw [Thread.dropFailed_eq]
    simpa using .inr ⟨e, he, hf⟩
  rw [Thread.failDue, Option.or_of_isSome hsome]

/-- Every thread after a tracked store has failed with its target (R192). -/
theorem State.thr_failStore_tracked (s : State) {t : Nat} {e : TrkEnt} (he : e ∈ (s.thr t).trk) (h : s.devKey e.pa ∉ s.failed) (v : Nat) :
    ∃ w, (s.failStore t e.pa).thr v = { (s.thr v).dropFailed (s.sameTarget e.pa) with mci := w } := by
  obtain ⟨w, hw⟩ := s.thr_failStore (t := t) h v
  refine ⟨w, hw.trans ?_⟩
  split
  · next hv =>
    subst hv
    have hf : s.sameTarget e.pa e.pa = true := beq_self_eq_true _
    exact congrArg (fun x : Thread => { x with mci := w }) (Thread.failDue_dropFailed he hf e.pa)
  · rfl

end Sys2Proof.Machine
end

section
/-! PROOF. O29: device stores (R192). -/

open Sys2Proof

namespace Sys2Proof.Machine

theorem State.failed_settleBcasts (s : State) : s.settleBcasts.failed = s.failed := State.failed_of_grove s.settleBcasts_grove

theorem exec_deviceStoreAccept_full {s : State} {t : Thr} (h : 16 ≤ (s.thr t.val).trk.length) : exec (.deviceStoreAccept t) s = .next s := by
  rw [exec_deviceStoreAccept, execDeviceStoreAccept, State.acceptStore]
  split
  · rfl
  · rw [if_pos (.inr (.inl h))]

/-- A device store that its target on this module accepts (R190 to R193). -/
theorem exec_deviceStoreAccept_enters {s : State} {t : Thr} {e : StoreEnt} {r : List StoreEnt} (hsb : (s.thr t.val).sb = e :: r)
    (hdev : e.kind = .dev) (hwind : s.wind < 2) (hroom : (s.thr t.val).trk.length < 16) (hok : s.devKey e.pa ∉ s.failed)
    (hself : paModule e.pa = s.self)
    (hdst : (match paDst e.pa with | .reg _ _ _ => true | .port h _ => !s.halfDown h | .none => false) = true) :
    let x := s.thr t.val
    exec (.deviceStoreAccept t) s = .next (s.setThr t.val
      { x with sb := r, popped := x.popped + 1, trk := x.trk ++ [⟨e.pa, e.bytes, e.lvl, x.popped, false, none⟩] }) := by
  intro x
  have hrest : r = x.sb.drop 1 := congrArg (List.drop 1) hsb.symm
  have hnew : ¬ s.failed.contains (s.devKey e.pa) = true := fun hc => hok (List.contains_iff_mem.mp hc)
  rw [exec_deviceStoreAccept, execDeviceStoreAccept, State.acceptStore, hsb]
  dsimp only
  rw [if_neg (by simp [hdev]; omega), if_neg hnew, if_neg (not_not.mpr hself), hrest]
  cases hd : paDst e.pa with
  | reg b i o => rfl
  | port h o =>
    rw [hd] at hdst
    exact congrArg Host.Outcome.next (if_neg (by simpa using hdst))
  | none => rw [hd] at hdst; cases hdst

/-- A register window performs a store that no earlier one to the same target precedes (R188, R189). -/
theorem exec_deviceStoreComplete_reg {s : State} {t : Thr} {i : Nat} {e : TrkEnt} {b k o : Nat} (he : (s.thr t.val).trk[i]? = some e)
    (hself : paModule e.pa = s.self) (hdst : paDst e.pa = .reg b k o) :
    let x := s.thr t.val
    exec (.deviceStoreComplete t i) s = .next (if x.trk.take i |>.any fun f => s.devKey f.pa == s.devKey e.pa then s
      else ((s.setThr t.val { x with trk := x.trk.take i ++ x.trk.drop (i + 1) }).regWrite ⟨.core t, e.lvl, some (s.part t.val)⟩ b k o
        e.bytes.length (BitVec.ofNat 64 (fromLe e.bytes))).settleBcasts) := by
  intro x
  rw [exec_deviceStoreComplete, execDeviceStoreComplete, he]
  dsimp only
  rw [if_pos hself, hdst]
  cases hearlier : (x.trk.take i).any fun f => s.devKey f.pa == s.devKey e.pa
  · exact congrArg Host.Outcome.next (if_pos rfl)
  · exact congrArg Host.Outcome.next (if_neg (by decide))

/-- Settles O29: acceptance by the branches of R190 to R193, completion by the store's place, failure by `thr_failStore_tracked`. -/
theorem deviceStores : Obligations.DeviceStores := by
  refine ⟨fun t e r s hsb hdev hwind => ⟨exec_deviceStoreAccept_full, exec_deviceStoreAccept_enters hsb hdev hwind⟩, ?_, ?_⟩
  · intro t i e b k o s he hself hdst x
    rw [exec_deviceStoreComplete_reg he hself hdst]
    refine ⟨fun ⟨f, hf, hkey⟩ => ?_, fun hfirst => ?_⟩
    · have hearlier : (x.trk.take i).any (fun f => s.devKey f.pa == s.devKey e.pa) = true :=
        List.any_eq_true.mpr ⟨f, hf, beq_iff_eq.mpr hkey⟩
      exact congrArg Host.Outcome.next (if_pos hearlier)
    · exact congrArg Host.Outcome.next (if_neg (by simpa using hfirst))
  · intro t i e s he hok
    refine ⟨(s.failStore t.val e.pa).settleBcasts, by rw [exec_deviceStoreTimeout, execDeviceStoreTimeout, he], ?_, fun v _ => ?_⟩
    · rw [State.failed_settleBcasts]
      exact s.failed_failStore hok
    · obtain ⟨w, hw⟩ := s.thr_failStore_tracked (List.mem_of_getElem? he) hok v
      rw [State.settleBcasts_thr, hw, Thread.dropFailed_eq]
      refine ⟨rfl, ?_, ⟨rfl, rfl, fun _ _ => rfl⟩, rfl⟩
      cases (s.thr v).devFail <;> rfl

end Sys2Proof.Machine
end

section
/-! SUPPORT. A thread that defers nothing goes on deferring nothing while caches, memory and the home agent act (R201, R203). -/

open Sys2Proof

namespace Sys2Proof.Machine

/-- The thread defers no request for the granule it reserved (R203). -/
def State.defersNone (s : State) (t : Nat) : Prop := (s.thr t).defer = 0

section
variable {t : Nat}

theorem State.defersNone_of_threads {s u : State} (h : u.threads = s.threads) : u.defersNone t ↔ s.defersNone t := by
  rw [State.defersNone, State.thr_of_threads h, State.defersNone]

@[simp] theorem State.defersNone_with (s : State) (fresh : Nat) (regs : Tab Word) (fst : ForesterSt) (mem : Tab Byte) (mpois : Tab Bool)
    (lines : Tab Line) (canopy : Tab CanEnt) (home : List HomeTx) (out : List OutTx) (snpQ : List Msg) (gports : Tab GPort)
    (peers : Tab Peer) (roots : Tab RootLink) (cores : Tab Core) :
    ({ s with
      fresh := fresh, regs := regs, fst := fst, mem := mem, mpois := mpois, lines := lines, canopy := canopy, home := home, out := out
      snpQ := snpQ, gports := gports, peers := peers, roots := roots, cores := cores } : State).defersNone t ↔ s.defersNone t := Iff.rfl

/-! What changes no thread. -/

@[simp] theorem State.defersNone_modCore (s : State) (c : Nat) (f : Core → Core) : (s.modCore c f).defersNone t ↔ s.defersNone t := Iff.rfl
@[simp] theorem State.defersNone_tickFree (s : State) : s.tickFree.defersNone t ↔ s.defersNone t := Iff.rfl
@[simp] theorem State.defersNone_incF (s : State) (r : Reg) (f : Fld) (n : Nat) : (s.incF r f n).defersNone t ↔ s.defersNone t :=
  State.defersNone_of_threads (by rw [State.incF, State.setF, State.setReg_threads])
@[simp] theorem State.defersNone_setLine (s : State) (l : Nat) (x : Line) : (s.setLine l x).defersNone t ↔ s.defersNone t := Iff.rfl
@[simp] theorem State.defersNone_modLine (s : State) (l : Nat) (f : Line → Line) : (s.modLine l f).defersNone t ↔ s.defersNone t := Iff.rfl
@[simp] theorem State.defersNone_modRoot (s : State) (n : Nat) (f : RootLink → RootLink) : (s.modRoot n f).defersNone t ↔ s.defersNone t :=
  Iff.rfl
@[simp] theorem State.defersNone_setMemLine (s : State) (n la : Nat) (d : LineData) (p : Bool) :
    (s.setMemLine n la d p).defersNone t ↔ s.defersNone t := Iff.rfl
@[simp] theorem State.defersNone_setCan (s : State) (i : Nat) (e : CanEnt) : (s.setCan i e).defersNone t ↔ s.defersNone t := Iff.rfl
@[simp] theorem State.defersNone_modTx (s : State) (l : Nat) (f : HomeTx → HomeTx) : (s.modTx l f).defersNone t ↔ s.defersNone t := Iff.rfl
@[simp] theorem State.defersNone_endTx (s : State) (l : Nat) : (s.endTx l).defersNone t ↔ s.defersNone t := Iff.rfl
@[simp] theorem State.defersNone_toSt (s : State) (l : Nat) (st : LineSt) : (s.toSt l st).defersNone t ↔ s.defersNone t := Iff.rfl

@[simp] theorem State.defersNone_canPut (s : State) (l : Nat) (ex : Bool) (pres : Nat) : (s.canPut l ex pres).defersNone t ↔ s.defersNone t := by
  unfold State.canPut
  repeat' split
  all_goals exact Iff.rfl

@[simp] theorem State.defersNone_send (s : State) (m : Msg) : (s.send m).defersNone t ↔ s.defersNone t :=
  State.defersNone_of_threads (s.send_threads m)
@[simp] theorem State.defersNone_sendReq (s : State) (opc l part : Nat) (thr : Option Nat) (d : Option (LineData × Bool)) :
    (s.sendReq opc l part thr d).defersNone t ↔ s.defersNone t := by
  simp [State.sendReq]
@[simp] theorem State.defersNone_snoop (s : State) (x : HomeTx) (opc l mods : Nat) : (s.snoop x opc l mods).defersNone t ↔ s.defersNone t :=
  State.defersNone_of_threads (State.foldl_keeps State.threads _ (fun s _ => s.send_threads _) _ s)
@[simp] theorem State.defersNone_reply (s : State) (x : HomeTx) (opc st : Nat) (d : Option (LineData × Bool)) :
    (s.reply x opc st d).defersNone t ↔ s.defersNone t := by
  simp [State.reply]
@[simp] theorem State.defersNone_log (s : State) (i : RecIn) : (s.log i).defersNone t ↔ s.defersNone t := by
  obtain ⟨w, hw⟩ := s.thr_log i t
  rw [State.defersNone, hw, State.defersNone]

@[simp] theorem State.defersNone_logDead (s : State) (n l : Nat) : (s.logDead n l).defersNone t ↔ s.defersNone t := by
  unfold State.logDead
  dsimp only
  split <;> simp
@[simp] theorem State.defersNone_memRead (s : State) (l : Nat) : (s.memRead l).1.defersNone t ↔ s.defersNone t := by
  unfold State.memRead
  repeat' split
  all_goals simp

theorem State.defersNone_modThr (s : State) (v : Nat) {f : Thread → Thread} (hf : ∀ x, (f x).defer = x.defer) :
    (s.modThr v f).defersNone t ↔ s.defersNone t := by
  rw [State.defersNone, State.thr_modThr_keeps Thread.defer hf, State.defersNone]

@[simp] theorem State.defersNone_pmc (s : State) (v e n : Nat) : (s.modThr v fun x => x.pmc e n).defersNone t ↔ s.defersNone t := by
  refine s.defersNone_modThr v fun x => ?_
  obtain ⟨sr, hsr⟩ := x.pmc_eq e n
  rw [hsr]

@[simp] theorem State.defersNone_cmoVisible (s : State) (thr : Option Nat) (l : Nat) (owed : Bool) :
    (s.cmoVisible thr l owed).defersNone t ↔ s.defersNone t := by
  unfold State.cmoVisible
  cases thr with
  | none => exact Iff.rfl
  | some v =>
    refine s.defersNone_modThr v fun x => ?_
    repeat' split
    all_goals rfl

/-! What a lost reservation ends. -/

variable {s : State} (h : s.defersNone t)
include h

theorem State.defersNone_foldl {α : Type} {f : State → α → State} (hf : ∀ (s : State) (a : α), s.defersNone t → (f s a).defersNone t)
    (l : List α) : (l.foldl f s).defersNone t := by
  induction l generalizing s with
  | nil => exact h
  | cons a l ih => exact ih (hf s a h)

@[simp] theorem State.defersNone_clearResv (l : Nat) (f : Nat → Bool) : (s.clearResv l f).defersNone t := by
  refine State.defersNone_foldl h (fun s v h => ?_) _
  by_cases e : t = v
  · rw [State.defersNone, e, State.thr_modThr_self]
  · rwa [State.defersNone, s.thr_modThr_ne e]

@[simp] theorem State.defersNone_coreDrop (l c : Nat) : (s.coreDrop l c).defersNone t := by
  simp [State.coreDrop, h]

@[simp] theorem State.defersNone_backInval (l : Nat) : (s.backInval l).defersNone t :=
  State.defersNone_foldl h (fun s c h => by simp [State.pmcCore, h]) _

@[simp] theorem State.defersNone_linkWrite (n la l : Nat) (d : LineData) (p : Bool) : (s.linkWrite n la l d p).defersNone t := by
  unfold State.linkWrite
  repeat' split
  all_goals simp [h]

@[simp] theorem State.defersNone_memWrite (l : Nat) (d : LineData) (p : Bool) : (s.memWrite l d p).defersNone t := by
  unfold State.memWrite
  split
  · simp [h]
  · split
    · exact h
    · exact State.defersNone_foldl h (fun s n h => State.defersNone_linkWrite h ..) _

@[simp] theorem State.defersNone_evictL3 (l : Nat) : (s.evictL3 l).defersNone t := by
  unfold State.evictL3
  dsimp only
  repeat' split
  all_goals simp [h]

@[simp] theorem State.defersNone_install (l : Nat) (st : LineSt) (d : LineData) (p : Bool) (part : Nat) :
    (s.install l st d p part).defersNone t := by
  unfold State.install
  dsimp only
  repeat' split
  all_goals simp [h]

@[simp] theorem State.defersNone_localInval (l : Nat) : (s.localInval l).defersNone t := by
  unfold State.localInval
  dsimp only
  repeat' split
  all_goals simp [h]

@[simp] theorem State.defersNone_localClean (l : Nat) (st : LineSt) : (s.localClean l st).defersNone t := by
  unfold State.localClean
  dsimp only
  repeat' split
  all_goals simp [h]

/-! The home agent. -/

@[simp] theorem State.defersNone_homeLookup (x : HomeTx) : (s.homeLookup x).defersNone t := by
  unfold State.homeLookup
  dsimp only
  repeat' split
  all_goals simp [h]

theorem State.defersNone_canRoom {u : State} {x : HomeTx} (hu : s.canRoom x = some u) : u.defersNone t := by
  unfold State.canRoom at hu
  dsimp only at hu
  repeat' split at hu
  all_goals simp at hu
  all_goals simp [← hu, h]

@[simp] theorem State.defersNone_homeStart (x : HomeTx) : (s.homeStart x).defersNone t := by
  unfold State.homeStart
  dsimp only
  cases hroom : s.canRoom x with
  | none =>
    repeat' split
    all_goals simp_all
  | some u =>
    have hu := State.defersNone_canRoom h hroom
    repeat' split
    all_goals simp_all

@[simp] theorem State.defersNone_deliver (x : HomeTx) : (s.deliver x).defersNone t := by
  unfold State.deliver
  dsimp only
  repeat' split
  all_goals simp [h]

@[simp] theorem State.defersNone_homeAdvance1 (l : Nat) : (s.homeAdvance1 l).defersNone t := by
  rcases hread : s.memRead l with ⟨u, r⟩
  have hu : u.defersNone t := by
    rw [show u = (s.memRead l).1 by rw [hread], State.defersNone_memRead]
    exact h
  unfold State.homeAdvance1
  dsimp only
  repeat' split
  all_goals simp_all

theorem State.defersNone_homeRun (x : HomeTx) : (s.homeRun x).defersNone t := by
  have hstart := State.defersNone_homeStart h x
  exact State.defersNone_homeAdvance1 (State.defersNone_homeAdvance1 hstart _) _

omit h in
theorem State.defersNone_homeKick (n : Nat) {s : State} (h : s.defersNone t) : (State.homeKick n s).defersNone t := by
  induction n generalizing s with
  | zero => exact h
  | succ n ih =>
    unfold State.homeKick
    split
    · exact ih (State.defersNone_homeRun h _)
    · exact h

/-! Snoops. -/

@[simp] theorem State.defersNone_dropLine (l : Nat) : (s.dropLine l).defersNone t := by
  simp [State.dropLine, h]

theorem State.defersNone_answerSnoop (m : Msg) : (s.answerSnoop m).defersNone t := by
  unfold State.answerSnoop
  dsimp only
  repeat' split
  all_goals simp [State.answer, State.supply, h]

theorem State.defersNone_serveDeferred : s.serveDeferred.defersNone t := by
  let kept : State := { s with snpQ := s.snpQ.filter fun m => s.lineDeferred m.la }
  have hkept : kept.defersNone t := h
  exact State.defersNone_homeKick _ (State.defersNone_foldl hkept (fun _ m h => State.defersNone_answerSnoop h m) _)

end

end Sys2Proof.Machine
end

section
/-! PROOF. O30: port writes, device loads and deferrals (R189, R191, R192, R196, R203). -/

open Sys2Proof

namespace Sys2Proof.Machine

/-- The first load that awaits a value and is selected takes it. -/
theorem giveLoad_append {f : DevLoad → Bool} {a b : List DevLoad} {d : DevLoad} (ha : ∀ x ∈ a, (x.val.isNone && f x) = false)
    (hd : (d.val.isNone && f d) = true) (v : BitVec 128) : giveLoad f v (a ++ d :: b) = a ++ { d with val := some v } :: b := by
  induction a with
  | nil => exact if_pos hd
  | cons x a ih =>
    have hx : ¬ (x.val.isNone && f x) = true := by simp [ha x (List.mem_cons_self ..)]
    rw [List.cons_append, giveLoad, if_neg hx, ih fun y hy => ha y (List.mem_cons_of_mem _ hy), List.cons_append]

theorem find?_append_cons {α : Type} {p : α → Bool} {a b : List α} {d : α} (ha : ∀ x ∈ a, p x = false) (hd : p d = true) :
    (a ++ d :: b).find? p = some d :=
  List.find?_eq_some_iff_append.mpr ⟨hd, a, b, rfl, fun x hx => by rw [ha x hx]; rfl⟩

/-- A load that fails: all ones at its size in its place, its target marked failed, no register changed (R196). -/
theorem State.loadFails_spec (s : State) {t : Nat} {a b : List DevLoad} {d : DevLoad} {f : DevLoad → Bool}
    (hsplit : (s.thr t).devLoad = a ++ d :: b) (ha : ∀ x ∈ a, (x.val.isNone && f x) = false) (hd : (d.val.isNone && f d) = true) :
    let u := (s.lostLoad t d.pa).modThr t fun x => { x with devLoad := giveLoad f (onesVal d.size) x.devLoad }
    (u.thr t).devLoad = a ++ { d with val := some (onesVal d.size) } :: b ∧ s.devKey d.pa ∈ u.failed ∧ (u.thr t).keeps (s.thr t) [] := by
  intro u
  obtain ⟨w, hw⟩ := s.thr_lostLoad t d.pa t
  have hthr : u.thr t = { (s.lostLoad t d.pa).thr t with devLoad := giveLoad f (onesVal d.size) ((s.lostLoad t d.pa).thr t).devLoad } :=
    State.thr_modThr_self ..
  rw [hw] at hthr
  refine ⟨?_, ?_, ?_⟩
  · rw [hthr, ← giveLoad_append ha hd, ← hsplit]
    rfl
  · rw [State.failed_of_grove (State.modThr_grove ..)]
    exact s.failed_lostLoad t d.pa
  · rw [hthr]
    exact ⟨rfl, rfl, fun _ _ => rfl⟩

theorem State.homeServe_of_home_nil {s : State} (h : s.home = []) : s.homeServe = s := by
  rw [State.homeServe, h, List.length_nil, State.homeKick, h]
  rfl

/-- With no snoop and no request waiting, nothing is served (R203). -/
theorem State.serveDeferred_of_nil {s : State} (hq : s.snpQ = []) (hh : s.home = []) : s.serveDeferred = s := by
  have hsame : ({ s with snpQ := [] } : State) = s := by rw [← hq]
  rw [State.serveDeferred, hq]
  exact (congrArg State.homeServe hsame).trans (State.homeServe_of_home_nil hh)

/-- Settles O30, command by command: the failures by `failStore_eq` and `loadFails_spec`, the end of a deferral by `defersNone_serveDeferred`. -/
theorem portStoresAndLoads : Obligations.PortStoresAndLoads := by
  refine ⟨fun _ _ _ => rfl, fun _ _ _ => rfl, ?_, ?_, ?_, fun t s => ⟨?_, fun hq hh => ?_⟩⟩
  · intro t h e s hfind hok
    refine ⟨(s.failStore t.val e.pa).settleBcasts, ?_, ?_, ?_, ?_⟩
    · rw [exec_zeroLengthReadCompletion, execZeroLengthReadCompletion]
      dsimp only
      rw [if_neg (by decide), hfind]
    · rw [State.failed_settleBcasts]
      exact s.failed_failStore hok
    all_goals
      obtain ⟨w, hw⟩ := s.thr_failStore_tracked (List.mem_of_find?_eq_some hfind) hok t.val
      rw [State.settleBcasts_thr]
    · rw [hw, Thread.dropFailed_eq]
      intro f hf
      simpa [State.sameTarget] using (List.mem_filter.mp hf).2
    · exact Option.isSome_iff_ne_none.mp (s.failStore_failsTo e.pa).2
  · intro t a b d v s hsplit ha hval htid
    have hbefore : ∀ x ∈ a, (x.val.isNone && x.tid.isNone) = false := fun x hx => by
      simpa [← Option.ne_none_iff_isSome, imp_iff_not_or] using ha x hx
    have hhere : (d.val.isNone && d.tid.isNone) = true := by rw [hval, htid]; rfl
    have hfind : ((s.thr t.val).devLoad.find? fun d => d.val.isNone && d.tid.isNone) = some d := by
      rw [hsplit]; exact find?_append_cons hbefore hhere
    rw [exec_deviceLoadComplete, exec_deviceLoadComplete, execDeviceLoadComplete, execDeviceLoadComplete, hfind]
    refine ⟨?_, _, rfl, s.loadFails_spec hsplit hbefore hhere⟩
    rw [← giveLoad_append hbefore hhere, ← hsplit]
    rfl
  · intro t a b d s hsplit ha hval
    have hbefore : ∀ x ∈ a, (x.val.isNone && true) = false := fun x hx => by simpa [← Option.ne_none_iff_isSome] using ha x hx
    have hhere : (d.val.isNone && true) = true := by rw [hval]; rfl
    have hfind : ((s.thr t.val).devLoad.find? fun d => d.val.isNone) = some d := by
      rw [hsplit]; exact find?_append_cons (fun x hx => (Bool.and_true _).symm.trans (hbefore x hx)) (by rw [hval]; rfl)
    let v : State := { s with out := s.out.filter fun o => !(d.tid == some o.tid) }
    rw [exec_deviceLoadTimeout, execDeviceLoadTimeout, hfind]
    exact ⟨_, rfl, v.loadFails_spec hsplit hbefore hhere⟩
  · rw [exec_reservationDeferExpire, execReservationDeferExpire]
    exact ⟨_, rfl, State.defersNone_serveDeferred (s := s.modThr t.val fun x => { x with defer := 0 })
      (congrArg Thread.defer (s.thr_modThr_self ..))⟩
  · rw [exec_reservationDeferExpire, execReservationDeferExpire]
    exact congrArg Host.Outcome.next (State.serveDeferred_of_nil hq hh)

end Sys2Proof.Machine
end

section
/-! SUPPORT. What a message sent or a broadcast answered leaves alone: everything but ports, peers and the broadcasts themselves (R241, R253). -/

open Sys2Proof

namespace Sys2Proof.Machine

/-- The state without what messages wait in and the broadcasts still to be answered. -/
def State.offMessages (s : State) : State := { s with gports := [], peers := [], inb := [] }

theorem State.lines_of_offMessages {s u : State} (h : u.offMessages = s.offMessages) : u.lines = s.lines := (congrArg State.lines h :)
theorem State.mem_of_offMessages {s u : State} (h : u.offMessages = s.offMessages) : u.mem = s.mem := (congrArg State.mem h :)
theorem State.roots_of_offMessages {s u : State} (h : u.offMessages = s.offMessages) : u.roots = s.roots := (congrArg State.roots h :)
theorem State.cores_of_offMessages {s u : State} (h : u.offMessages = s.offMessages) : u.cores = s.cores := (congrArg State.cores h :)

theorem State.line_of_lines {s u : State} (h : u.lines = s.lines) (l : Nat) : u.line l = s.line l := by rw [State.line, h, State.line]

@[simp] theorem State.offMessages_with (s : State) (gports : Tab GPort) (peers : Tab Peer) (inb : List InBcast) :
    ({ s with gports := gports, peers := peers, inb := inb } : State).offMessages = s.offMessages := rfl
@[simp] theorem State.offMessages_modGp (s : State) (p : Nat) (f : GPort → GPort) : (s.modGp p f).offMessages = s.offMessages := by
  rw [State.modGp, State.setGp, State.offMessages_with]
@[simp] theorem State.offMessages_setPeer (s : State) (m : Nat) (x : Peer) : (s.setPeer m x).offMessages = s.offMessages := by
  rw [State.setPeer, State.offMessages_with]
@[simp] theorem State.offMessages_modPeer (s : State) (m : Nat) (f : Peer → Peer) : (s.modPeer m f).offMessages = s.offMessages := by
  rw [State.modPeer, State.offMessages_setPeer]

@[simp] theorem State.offMessages_send (s : State) (m : Msg) : (s.send m).offMessages = s.offMessages := by
  unfold State.send
  repeat' split
  all_goals simp

@[simp] theorem State.offMessages_settleBcasts (s : State) : s.settleBcasts.offMessages = s.offMessages :=
  (State.foldl_keeps State.offMessages _ (fun s _ => s.offMessages_send _) _ _).trans (State.offMessages_with ..)

end Sys2Proof.Machine
end

section
/-! SUPPORT. What a write of an owned line leaves of presence, poison and store buffers (R185, R201, R210, R463). -/

open Sys2Proof

namespace Sys2Proof.Machine

/-! Poison and store buffers. -/

/-- The poison of every line and the store buffer of every thread. -/
def State.poisonAndBufs (s : State) : (Nat → Bool) × (Nat → List StoreEnt) := (fun l => (s.line l).poison, fun t => (s.thr t).sb)

theorem State.poison_of_poisonAndBufs {s u : State} (h : u.poisonAndBufs = s.poisonAndBufs) (l : Nat) : (u.line l).poison = (s.line l).poison :=
  congrFun (congrArg Prod.fst h) l
theorem State.sb_of_poisonAndBufs {s u : State} (h : u.poisonAndBufs = s.poisonAndBufs) (t : Nat) : (u.thr t).sb = (s.thr t).sb :=
  congrFun (congrArg Prod.snd h) t

theorem State.poisonAndBufs_modThr (s : State) (t : Nat) {f : Thread → Thread} (hf : ∀ x, (f x).sb = x.sb) :
    (s.modThr t f).poisonAndBufs = s.poisonAndBufs :=
  Prod.ext rfl (funext fun v => State.thr_modThr_keeps Thread.sb hf s t v)

@[simp] theorem State.poisonAndBufs_pmc (s : State) (t e n : Nat) : (s.modThr t fun x => x.pmc e n).poisonAndBufs = s.poisonAndBufs := by
  refine s.poisonAndBufs_modThr t fun x => ?_
  obtain ⟨sr, hsr⟩ := x.pmc_eq e n
  rw [hsr]

@[simp] theorem State.poisonAndBufs_modCore (s : State) (c : Nat) (f : Core → Core) : (s.modCore c f).poisonAndBufs = s.poisonAndBufs := rfl
@[simp] theorem State.poisonAndBufs_tickFree (s : State) : s.tickFree.poisonAndBufs = s.poisonAndBufs := rfl

@[simp] theorem State.poisonAndBufs_modPres (s : State) (l : Nat) (f : Line → Nat) :
    (s.modLine l fun x => { x with pres := f x }).poisonAndBufs = s.poisonAndBufs := by
  refine Prod.ext (funext fun m => ?_) rfl
  simp only [State.poisonAndBufs, State.modLine, State.line_setLine]
  split
  · next h => rw [h]
  · rfl

@[simp] theorem State.poisonAndBufs_clearResv (s : State) (l : Nat) (f : Nat → Bool) : (s.clearResv l f).poisonAndBufs = s.poisonAndBufs :=
  State.foldl_keeps State.poisonAndBufs _ (fun s t => s.poisonAndBufs_modThr t fun _ => by rfl) _ s

@[simp] theorem State.poisonAndBufs_coreDrop (s : State) (l c : Nat) : (s.coreDrop l c).poisonAndBufs = s.poisonAndBufs := by
  simp [State.coreDrop]

@[simp] theorem State.poisonAndBufs_dropCores (s : State) (l : Nat) (keep : Nat → Bool) : (s.dropCores l keep).poisonAndBufs = s.poisonAndBufs :=
  State.foldl_keeps State.poisonAndBufs _ (fun s c => s.poisonAndBufs_coreDrop l c) _ s

@[simp] theorem State.poisonAndBufs_fillL2 (s : State) (c l : Nat) : (s.fillL2 c l).poisonAndBufs = s.poisonAndBufs := by
  unfold State.fillL2
  dsimp only
  repeat' split
  all_goals simp [State.pmcCore]

@[simp] theorem State.poisonAndBufs_fillL1 (s : State) (c k l : Nat) : (s.fillL1 c k l).poisonAndBufs = s.poisonAndBufs := by
  unfold State.fillL1
  dsimp only
  repeat' split
  all_goals simp

/-! The presence bits of the other cores. -/

/-- Which cores other than `c` hold each line. -/
def State.othersHold (s : State) (c l d : Nat) : Bool := d != c && bitOf (s.line l).pres d

theorem State.othersHold_of_lines {s u : State} (h : u.lines = s.lines) (c : Nat) : u.othersHold c = s.othersHold c :=
  funext fun l => funext fun d => by rw [State.othersHold, State.line_of_lines h, State.othersHold]

theorem State.clearResv_lines (s : State) (l : Nat) (f : Nat → Bool) : (s.clearResv l f).lines = s.lines :=
  State.foldl_keeps State.lines _ (fun _ _ => by rfl) _ s

@[simp] theorem State.othersHold_clearResv (s : State) (l : Nat) (f : Nat → Bool) (c : Nat) : (s.clearResv l f).othersHold c = s.othersHold c :=
  State.othersHold_of_lines (s.clearResv_lines l f) c
@[simp] theorem State.othersHold_pmcCore (s : State) (d e c : Nat) : (s.pmcCore d e).othersHold c = s.othersHold c :=
  State.othersHold_of_lines (by rw [State.pmcCore, State.modThr, State.setThr_lines, State.modThr, State.setThr_lines]) c
@[simp] theorem State.othersHold_modCore (s : State) (d : Nat) (f : Core → Core) (c : Nat) : (s.modCore d f).othersHold c = s.othersHold c :=
  State.othersHold_of_lines (s.setCore_lines ..) c
@[simp] theorem State.othersHold_tickFree (s : State) (c : Nat) : s.tickFree.othersHold c = s.othersHold c :=
  State.othersHold_of_lines s.tickFree_lines c

/-- A core's own presence bit is none of the others'. -/
@[simp] theorem State.othersHold_setPres (s : State) (l c : Nat) (b : Bool) :
    (s.modLine l fun x => { x with pres := setBit x.pres c b }).othersHold c = s.othersHold c := by
  funext m d
  simp only [State.othersHold, State.modLine, State.line_setLine]
  split
  · next h =>
    subst h
    by_cases e : d = c
    · simp [e]
    · rw [bitOf_setBit_ne _ e]
  · rfl

@[simp] theorem State.othersHold_coreDrop (s : State) (l c : Nat) : (s.coreDrop l c).othersHold c = s.othersHold c := by
  simp [State.coreDrop]

@[simp] theorem State.othersHold_fillL2 (s : State) (c l : Nat) : (s.fillL2 c l).othersHold c = s.othersHold c := by
  unfold State.fillL2
  dsimp only
  repeat' split
  all_goals simp

@[simp] theorem State.othersHold_fillL1 (s : State) (c k l : Nat) : (s.fillL1 c k l).othersHold c = s.othersHold c := by
  unfold State.fillL1
  dsimp only
  repeat' split
  all_goals simp

/-- The presence bits of a line that a core loses. -/
theorem State.pres_coreDrop (s : State) (l c : Nat) : ((s.coreDrop l c).line l).pres = setBit (s.line l).pres c false := by
  rw [State.coreDrop, State.line_of_lines (State.clearResv_lines ..), State.modLine, State.line_setLine, if_pos rfl]
  rfl

theorem State.bitOf_pres_foldl_coreDrop (l : Nat) (cs : List Nat) (s : State) (d : Nat) :
    bitOf ((cs.foldl (fun s c => s.coreDrop l c) s).line l).pres d = (bitOf (s.line l).pres d && !cs.contains d) := by
  induction cs generalizing s with
  | nil => simp
  | cons c cs ih =>
    rw [List.foldl_cons, ih, State.pres_coreDrop, List.contains_cons]
    by_cases e : d = c
    · simp [e, bitOf_setBit_self]
    · simp [bitOf_setBit_ne _ e, beq_false_of_ne e]

/-- Every other core loses the line (R210). -/
theorem State.bitOf_pres_dropCores (s : State) (l : Nat) {c d : Nat} (hd : d < 72) (hne : d ≠ c) :
    bitOf ((s.dropCores l fun e => e == c).line l).pres d = false := by
  rw [State.dropCores, State.bitOf_pres_foldl_coreDrop, State.holders, bitList]
  cases hbit : bitOf (s.line l).pres d
  · rfl
  · simp [hd, hne, hbit]

/-! The write. -/

/-- A write of an owned line leaves it with the writing core alone, poisoned by the entry or where it was not wholly written, and no store buffer
changed (R185, R463). -/
theorem State.writeOwned_spec (s : State) (t pa : Nat) (b : List Byte) (p : Bool) :
    let u := s.writeOwned t pa b p
    (∀ d < 72, d ≠ s.pcore t → bitOf (u.line (lineOf pa)).pres d = false) ∧
    (u.line (lineOf pa)).poison = (p || ((s.line (lineOf pa)).poison && decide (b.length < 256))) ∧ ∀ v, (u.thr v).sb = (s.thr v).sb := by
  intro u
  let l := lineOf pa
  let c := s.pcore t
  let a := (s.dropCores l fun d => d == c).clearResv l fun v => v != t
  let y : Line := { a.line l with
    st := .m, data := linePut (a.line l).data (pa % 256) b, poison := p || ((a.line l).poison && decide (b.length < 256)) }
  let w := a.setLine l y
  have hw : w.line l = y := by rw [State.line_setLine, if_pos rfl]
  have ha : a.poisonAndBufs = s.poisonAndBufs := by simp [a]
  have hu : u.poisonAndBufs = w.poisonAndBufs := (State.poisonAndBufs_fillL1 ..).trans (State.poisonAndBufs_fillL2 ..)
  have hpres : u.othersHold c = w.othersHold c := (State.othersHold_fillL1 ..).trans (State.othersHold_fillL2 ..)
  refine ⟨fun d hd hne => ?_, ?_, fun v => ?_⟩
  · have hbit : bitOf y.pres d = false := by
      show bitOf (a.line l).pres d = false
      rw [State.line_of_lines (State.clearResv_lines ..), s.bitOf_pres_dropCores l hd hne]
    have hother : (d != c) = true := bne_iff_ne.mpr hne
    have hhere := congrFun (congrFun hpres l) d
    simp only [State.othersHold, hw, hother, Bool.true_and] at hhere
    exact hhere.trans hbit
  · rw [State.poison_of_poisonAndBufs hu, hw, ← State.poison_of_poisonAndBufs ha]
  · exact (State.sb_of_poisonAndBufs hu v).trans (State.sb_of_poisonAndBufs ha v)

/-- A line wholly written with zeros is zero. -/
theorem linePut_zeros (d : LineData) : linePut d 0 (List.replicate 256 0) = 0 := by
  refine BitVec.eq_of_getLsbD_eq fun i hi => ?_
  have hk : i / 8 < 256 := by omega
  have hbyte : lineByte (linePut d 0 (List.replicate 256 0)) (i / 8) = 0 := by
    rw [lineByte_linePut _ _ _ hk, if_pos (Nat.zero_le _), Nat.sub_zero, List.getElem?_replicate_of_lt hk]
    rfl
  have hbit := getLsbD_lineByte (linePut d 0 (List.replicate 256 0)) (i / 8) (Nat.mod_lt i (by decide : 0 < 8))
  rw [hbyte, Nat.div_add_mod] at hbit
  exact hbit.symm.trans (BitVec.getLsbD_zero.trans BitVec.getLsbD_zero.symm)

end Sys2Proof.Machine
end

section
/-! PROOF. O28: a buffered store becomes visible (R185). -/

open Sys2Proof

namespace Sys2Proof.Machine

section
variable {s : State} {t : Thr} {e : StoreEnt} {r : List StoreEnt} (hsb : (s.thr t.val).sb = e :: r)
include hsb

theorem exec_storeVisible_owned (hkind : e.kind = .mem) (hfree : s.deferred (lineOf e.pa) t.val = false)
    (hok : s.accWrite (lineOf e.pa) = .ok) : exec (.storeVisible t) s =
      .next ((s.writeOwned t.val e.pa e.bytes e.poison).modThr t.val Thread.popStore).settleBcasts := by
  rw [exec_storeVisible, execStoreVisible, State.storeVisible, hsb]
  dsimp only
  rw [hkind, State.reachOwned, hfree, hok]
  rfl

/-- A line not owned is asked for, and the entry stays until it is (R185). -/
theorem exec_storeVisible_asks {opc : Nat} (hkind : e.kind = .mem) (hfree : s.deferred (lineOf e.pa) t.val = false)
    (hneed : s.accWrite (lineOf e.pa) = .need opc)
    (hwait : (s.request opc (lineOf e.pa) (s.part t.val) (some t.val)).accWrite (lineOf e.pa) = .wait) :
    exec (.storeVisible t) s = .next (s.request opc (lineOf e.pa) (s.part t.val) (some t.val)).settleBcasts := by
  rw [exec_storeVisible, execStoreVisible, State.storeVisible, hsb]
  dsimp only
  rw [hkind, State.reachOwned, hfree, hneed]
  dsimp only
  rw [hwait]
  rfl

theorem exec_storeVisible_clzero (hkind : e.kind = .clzero) (hfree : s.deferred (lineOf e.pa) t.val = false)
    (hok : s.accWrite (lineOf e.pa) = .ok) : exec (.storeVisible t) s =
      .next (((s.writeOwned t.val e.pa (List.replicate 256 0) e.poison).clearResv (lineOf e.pa) fun _ => true).modThr t.val
        Thread.popStore).settleBcasts := by
  rw [exec_storeVisible, execStoreVisible, State.storeVisible, hsb]
  dsimp only
  rw [hkind, hfree, hok]
  dsimp only
  rw [hok]
  rfl

/-- A line operation goes to the home on this module (R215, R240). -/
theorem exec_storeVisible_cmo {opc : Nat}
    (hkind : e.kind = .clwb ∧ opc = OPC_CMW ∨ e.kind = .clflush ∧ opc = OPC_CMF ∨ e.kind = .clinv ∧ opc = OPC_CMI)
    (hout : s.cmoOut t.val = false) (htids : s.tidsFull = false) (hhome : lineHome (lineOf e.pa) = s.self) :
    exec (.storeVisible t) s =
      .next (s.homeAccept opc (lineOf e.pa) s.self s.newTid (s.part t.val) (some t.val)).settleBcasts := by
  have hstart : s.startCmo t.val opc (lineOf e.pa) = s.homeAccept opc (lineOf e.pa) s.self s.newTid (s.part t.val) (some t.val) := by
    rw [State.startCmo, hout, htids, if_neg (by decide), if_pos hhome]
  rw [exec_storeVisible, execStoreVisible, State.storeVisible, hsb, ← hstart]
  dsimp only
  rcases hkind with ⟨hk, rfl⟩ | ⟨hk, rfl⟩ | ⟨hk, rfl⟩ <;> rw [hk]

end

/-- What a store that has become visible leaves, once what it wrote is known. -/
theorem State.popped_spec {s w : State} {t : Nat} {e : StoreEnt} {r : List StoreEnt} (hsb : (s.thr t).sb = e :: r)
    (hw : (w.thr t).sb = (s.thr t).sb) :
    let u := (w.modThr t Thread.popStore).settleBcasts
    (∀ l, u.line l = w.line l) ∧ (u.thr t).sb = r ∧ u.mem = w.mem := by
  intro u
  have hoff : u.offMessages = (w.modThr t Thread.popStore).offMessages := State.offMessages_settleBcasts _
  have hlines : u.lines = w.lines := (State.lines_of_offMessages hoff).trans (State.setThr_lines ..)
  refine ⟨State.line_of_lines hlines, ?_, (State.mem_of_offMessages hoff).trans (State.setThr_mem ..)⟩
  rw [State.settleBcasts_thr, State.thr_modThr_self, Thread.popStore, hw, hsb]
  rfl

/-- Settles O28: the write by `line_writeOwned` and `writeOwned_spec`, the requests by their branches. -/
theorem storeBecomesVisible : Obligations.StoreBecomesVisible := by
  intro t e r s hsb l
  refine ⟨fun hkind hfit hfree => ⟨fun hok => ?_, fun opc => exec_storeVisible_asks hsb hkind hfree⟩, fun hkind hstart hfree hok => ?_,
    fun opc => exec_storeVisible_cmo hsb⟩
  · let w := s.writeOwned t.val e.pa e.bytes e.poison
    obtain ⟨hst, hdata, hmem⟩ := s.line_writeOwned t.val e.pa e.bytes e.poison
    obtain ⟨hpres, -, hbufs⟩ := s.writeOwned_spec t.val e.pa e.bytes e.poison
    obtain ⟨hline, hrest, hmem'⟩ := State.popped_spec (w := w) hsb (hbufs t.val)
    refine ⟨_, exec_storeVisible_owned hsb hkind hfree hok, ?_⟩
    rw [hline, hdata]
    refine ⟨lineBytes_linePut_self _ hfit, fun k hk hout => ?_, hst, hpres, hrest, hmem'.trans hmem⟩
    rw [lineBytes_one, lineBytes_one, lineByte_linePut_of_outside _ hk hout]
  · let z := s.writeOwned t.val e.pa (List.replicate 256 0) e.poison
    let w := z.clearResv l fun _ => true
    obtain ⟨hst, hdata, hmem⟩ := s.line_writeOwned t.val e.pa (List.replicate 256 0) e.poison
    obtain ⟨-, hpoison, hbufs⟩ := s.writeOwned_spec t.val e.pa (List.replicate 256 0) e.poison
    have hw : w.line l = z.line l := State.line_of_lines (State.clearResv_lines ..) l
    have hwsb : (w.thr t.val).sb = (s.thr t.val).sb := (State.sb_of_poisonAndBufs (State.poisonAndBufs_clearResv ..) _).trans (hbufs t.val)
    have hwmem : w.mem = z.mem := congrArg Prod.snd (State.contents_clearResv ..)
    obtain ⟨hline, hrest, hmem'⟩ := State.popped_spec (w := w) hsb hwsb
    have hwhole : (e.poison || ((s.line l).poison && decide ((List.replicate 256 (0 : Byte)).length < 256))) = e.poison := by
      rw [List.length_replicate, decide_eq_false (by decide), Bool.and_false, Bool.or_false]
    refine ⟨_, exec_storeVisible_clzero hsb hkind hfree hok, ?_⟩
    rw [hline, hw, hdata, hstart, linePut_zeros]
    exact ⟨rfl, hst, hpoison.trans hwhole, hrest, hmem'.trans (hwmem.trans hmem)⟩

end Sys2Proof.Machine
end

section
/-! SUPPORT. A message's flit that arrives in order reaches the part of the module its opcode names (R235, R253). -/

open Sys2Proof

namespace Sys2Proof.Machine

theorem GPort.rxSeq_push (x : GPort) (b : FlitBody) : (x.push b).rxSeq = x.rxSeq := by
  unfold GPort.push
  dsimp only
  split <;> rfl

theorem GPort.rxSeq_pump (n : Nat) (x : GPort) : (GPort.pump n x).rxSeq = x.rxSeq := by
  induction n generalizing x with
  | zero => rfl
  | succ n ih =>
    unfold GPort.pump
    split
    · rfl
    · split
      · rw [ih, GPort.rxSeq_push]
      · rfl

theorem GPort.rxSeq_ack (x : GPort) (lack : Nat) : (x.ack lack).rxSeq = x.rxSeq := GPort.rxSeq_pump ..

/-- A message as it stands once it has arrived: this module is its destination. -/
def State.received (s : State) (m : Msg) : Msg := { m with dst := s.self }

/-- What an inspected flit in order brings (R235, R253). -/
theorem State.rxMsg_eq {s : State} {h : Hdr} {m : Msg} (horder : s.inOrder h = true) (hsrc : m.src = h.src.val)
    (hopc : opcodes.contains m.opc = true) (hst : stBad m.opc m.st = false) :
    s.rxMsg h m = (s.taken h).onMsg ((s.taken h).received m) := by
  simp only [State.inOrder, Bool.and_eq_true, beq_iff_eq, Bool.not_eq_true'] at horder
  obtain ⟨⟨hactive, hseq⟩, hpeer⟩ := horder
  have hnext : h.lseq.toNat = ((s.modGp h.port.val fun x => x.ack h.lack.toNat).gp h.port.val).rxSeq := by
    rw [State.gp_modGp_self, GPort.rxSeq_ack, hseq]
  have hlive : ¬ ((s.taken h).peer ((s.taken h).received m).src).severed = true := by
    rw [show ((s.taken h).peer ((s.taken h).received m).src).severed = (s.peer h.src.val).severed by rw [← hsrc]; rfl, hpeer]
    decide
  have hgood : ¬ (opcodes.contains ((s.taken h).received m).opc = false ∨
      stBad ((s.taken h).received m).opc ((s.taken h).received m).st = true) := by
    rintro (hbad | hbad)
    · exact absurd (hopc.symm.trans hbad) (by decide)
    · exact absurd (hst.symm.trans hbad) (by decide)
  rw [State.rxMsg, State.rxFlit, if_pos hactive]
  dsimp only
  rw [if_pos hnext]
  exact (if_neg hlive).trans (if_neg hgood)

/-! The parts of the module by opcode (R235). -/

section
variable {s : State} {m : Msg}

theorem State.onMsg_mrd (h : m.opc = OPC_MRD) : s.onMsg m = s.onMrd m := by rw [State.onMsg, h]; rfl
theorem State.onMsg_mwr (h : m.opc = OPC_MWR) : s.onMsg m = s.onMwr m := by rw [State.onMsg, h]; rfl
theorem State.onMsg_mrsp (h : m.opc = OPC_MRSP) : s.onMsg m = s.onMrsp m := by rw [State.onMsg, h]; rfl
theorem State.onMsg_tlbb (h : m.opc = OPC_TLBB) : s.onMsg m = s.onTlbb m := by rw [State.onMsg, h]; rfl
theorem State.onMsg_tlba (h : m.opc = OPC_TLBA) : s.onMsg m = s.onTlba m := by rw [State.onMsg, h]; rfl
theorem State.onMsg_spurge (h : m.opc = OPC_SPURGE) : s.onMsg m = s.onSpurge m := by rw [State.onMsg, h]; rfl

end

end Sys2Proof.Machine
end

section
/-! SUPPORT. Remote register accesses as their target takes them (R241, R283). -/

open Sys2Proof

namespace Sys2Proof.Machine

/-- The address and size part of an access's header (R234). -/
def accAux (lo : BitVec 8) (z : Bool) : Nat := lo.toNat + 256 * b2n z

theorem accAux_mod (lo : BitVec 8) (z : Bool) : accAux lo z % 256 = lo.toNat := by
  have hlo := lo.isLt
  unfold accAux
  omega

theorem bitOf_accAux (lo : BitVec 8) (z : Bool) : bitOf (accAux lo z) 8 = z := by
  have hlo := lo.isLt
  have hdiv : accAux lo z / 2 ^ 8 = b2n z := by unfold accAux; omega
  rw [bitOf, hdiv]
  cases z <;> rfl

section
variable {s : State} {h : Hdr} (horder : s.inOrder h = true) (lo : BitVec 8) (z : Bool) (v : Word)
include horder

theorem exec_mrd_inOrder : exec (.mrd h lo z) s = .next ((s.taken h).onMrd ((s.taken h).received (hdrMsg h OPC_MRD (accAux lo z)))) := by
  rw [exec_mrd, execMrd, State.rxMsg_eq horder rfl rfl rfl, State.onMsg_mrd rfl]
  rfl

theorem exec_mwr_inOrder :
    exec (.mwr h lo z v) s = .next ((s.taken h).onMwr ((s.taken h).received (hdrMsg h OPC_MWR (accAux lo z) none v))) := by
  rw [exec_mwr, execMwr, State.rxMsg_eq horder rfl rfl rfl, State.onMsg_mwr rfl]
  rfl

end

section
variable {g : State} {h : Hdr} {lo : BitVec 8} {z : Bool} {opc : Nat} {v : Word}

/-- The address an access names. -/
def accPa (h : Hdr) (lo : BitVec 8) : Nat := 2 ^ 51 + h.la.toNat * 256 + lo.toNat

theorem devPa_received : (g.received (hdrMsg h opc (accAux lo z) none v)).devPa = accPa h lo := by
  show 2 ^ 51 + h.la.toNat * 256 + accAux lo z % 256 = accPa h lo
  rw [accAux_mod, accPa]

theorem accSize_received : (g.received (hdrMsg h opc (accAux lo z) none v)).accSize = if z then 8 else 4 := by
  show (if bitOf (accAux lo z) 8 = true then 8 else 4) = if z then 8 else 4
  rw [bitOf_accAux]

theorem farOk_received : g.farOk (g.received (hdrMsg h opc (accAux lo z) none v)) =
    (paModule (accPa h lo) == g.self && g.devOk h.part.val (paDst (accPa h lo))) := by
  rw [State.farOk, devPa_received]
  rfl

/-- An ERR to the sender of an access (R239). -/
def State.accErr (k : State) (h : Hdr) (lo : BitVec 8) (z : Bool) (st : Nat) : State :=
  k.send { k.reply1 h OPC_ERR st h.src.val h.tid.toNat none with aux := accAux lo z }

/-- The requester of an access. -/
def accWho (h : Hdr) : Who := ⟨.peer h.src h.part, 0, some h.part.val⟩

theorem who_received : (⟨.peer (Fin.ofNat 8 h.src.val) (Fin.ofNat 16 h.part.val), 0, some h.part.val⟩ : Who) = accWho h := by
  rw [Fin.ofNat_val_eq_self, Fin.ofNat_val_eq_self, accWho]

section
variable (hself : paModule (accPa h lo) = g.self)
include hself

/-- An access without its grant is refused (R239, R283). -/
theorem State.onMrd_barred (hbar : g.devOk h.part.val (paDst (accPa h lo)) = false) :
    g.onMrd (g.received (hdrMsg h OPC_MRD (accAux lo z))) = (g.refuse 2 h.part.val (accPa h lo) false).accErr h lo z 1 := by
  rw [State.onMrd, farOk_received, hself, hbar, Bool.and_false, if_pos rfl, devPa_received]
  rfl

theorem State.onMwr_barred (hbar : g.devOk h.part.val (paDst (accPa h lo)) = false) :
    g.onMwr (g.received (hdrMsg h OPC_MWR (accAux lo z) none v)) = (g.refuse 2 h.part.val (accPa h lo) true).accErr h lo z 1 := by
  rw [State.onMwr, farOk_received, hself, hbar, Bool.and_false, if_pos rfl, devPa_received]
  rfl

variable (hok : g.devOk h.part.val (paDst (accPa h lo)) = true)
include hok

theorem farOk_granted : ¬ g.farOk (g.received (hdrMsg h opc (accAux lo z) none v)) = false := by
  rw [farOk_received, hself, hok, beq_self_eq_true]
  decide

/-- An access to a failed target (R196). -/
theorem State.onMrd_failed (hfail : g.devKey (accPa h lo) ∈ g.failed) :
    g.onMrd (g.received (hdrMsg h OPC_MRD (accAux lo z))) = g.accErr h lo z 4 := by
  rw [State.onMrd, if_neg (farOk_granted hself hok), devPa_received, if_pos (List.contains_iff_mem.mpr hfail)]
  rfl

theorem State.onMwr_failed (hfail : g.devKey (accPa h lo) ∈ g.failed) :
    g.onMwr (g.received (hdrMsg h OPC_MWR (accAux lo z) none v)) = g.accErr h lo z 4 := by
  rw [State.onMwr, if_neg (farOk_granted hself hok), devPa_received, if_pos (List.contains_iff_mem.mpr hfail)]
  rfl

variable (hgood : g.devKey (accPa h lo) ∉ g.failed) {b i o : Nat} (hdst : paDst (accPa h lo) = .reg b i o)
include hgood hdst

/-- An access to a register window performs it for the message's module and partition (R241, R283). -/
theorem State.onMrd_reg : g.onMrd (g.received (hdrMsg h OPC_MRD (accAux lo z))) =
    let r := g.regRead (accWho h) b i o (if z then 8 else 4)
    r.2.send { r.2.mkMsg OPC_MRSP h.src.val h.la.toNat with
      rqm := h.rqm.val, tid := h.tid.toNat, rtid := h.tid.toNat, part := h.part.val, aux := accAux lo z, w0 := r.1, st := 1 } := by
  have hnew : ¬ g.failed.contains (g.devKey (accPa h lo)) = true := fun hc => hgood (List.contains_iff_mem.mp hc)
  rw [State.onMrd, if_neg (farOk_granted hself hok), devPa_received, if_neg hnew, hdst, accSize_received]
  dsimp only
  rw [← who_received]
  rfl

theorem State.onMwr_reg : g.onMwr (g.received (hdrMsg h OPC_MWR (accAux lo z) none v)) =
    let q := g.regWrite (accWho h) b i o (if z then 8 else 4) v
    q.send { q.mkMsg OPC_MRSP h.src.val h.la.toNat with
      rqm := h.rqm.val, tid := h.tid.toNat, rtid := h.tid.toNat, part := h.part.val, aux := accAux lo z } := by
  have hnew : ¬ g.failed.contains (g.devKey (accPa h lo)) = true := fun hc => hgood (List.contains_iff_mem.mp hc)
  rw [State.onMwr, if_neg (farOk_granted hself hok), devPa_received, if_neg hnew, hdst, accSize_received]
  dsimp only
  rw [← who_received]
  rfl

end

end

end Sys2Proof.Machine
end

section
/-! SUPPORT. Answers to this module's remote accesses, and broadcasts of other modules (R188, R189, R241). -/

open Sys2Proof

namespace Sys2Proof.Machine

/-! MRSP and TLBA. -/

theorem State.find?_of_txOf {g : State} {h : Hdr} {o : OutTx} (htx : g.txOf h = some o) :
    (g.out.find? fun p => p.dst == h.src.val && (p.tid == h.rtid.toNat || p.tid == h.tid.toNat)) = some o := htx

section
variable {s : State} {h : Hdr} {o : OutTx} (horder : s.inOrder h = true) (htx : (s.taken h).txOf h = some o) {t : Nat}
include horder htx

theorem exec_mrsp_load (v : Word) {a b : List DevLoad} {d : DevLoad} (hkind : o.kind = .mrd t)
    (hsplit : ((s.taken h).thr t).devLoad = a ++ d :: b) (hval : d.val = none) (htid : d.tid = some o.tid)
    (ha : ∀ x ∈ a, x.val ≠ none ∨ x.tid ≠ some o.tid) :
    exec (.mrsp h v) s = .next (((s.taken h).dropOut o).setThr t
      { ((s.taken h).thr t) with devLoad := a ++ { d with val := some (v.setWidth 128) } :: b }) := by
  have hbefore : ∀ x ∈ a, (x.val.isNone && x.tid == some o.tid) = false := fun x hx => by
    simpa [← Option.ne_none_iff_isSome, imp_iff_not_or] using ha x hx
  have hhere : (d.val.isNone && d.tid == some o.tid) = true := by rw [hval, htid, Option.isNone_none, beq_self_eq_true]; rfl
  rw [exec_mrsp, execMrsp, State.rxMsg_eq horder rfl rfl rfl, State.onMsg_mrsp rfl, State.onMrsp]
  simp only [State.received, hdrMsg]
  rw [State.find?_of_txOf htx]
  dsimp only
  rw [hkind, ← giveLoad_append hbefore hhere, ← hsplit]
  rfl

theorem exec_mrsp_store (v : Word) (hkind : o.kind = .mwr t) : exec (.mrsp h v) s =
    .next (((s.taken h).dropOut o).setThr t
      { ((s.taken h).thr t) with trk := ((s.taken h).thr t).trk.filter fun e => e.tid != some o.tid }).settleBcasts := by
  rw [exec_mrsp, execMrsp, State.rxMsg_eq horder rfl rfl rfl, State.onMsg_mrsp rfl, State.onMrsp]
  simp only [State.received, hdrMsg]
  rw [State.find?_of_txOf htx]
  dsimp only
  rw [hkind]
  rfl

theorem exec_tlba_awaited {b : Bcast} {mods : Nat} (hkind : o.kind = .tlbb t) (hwait : ((s.taken h).thr t).wait = .inval b mods) :
    exec (.tlba h) s =
      .next (((s.taken h).dropOut o).setThr t { ((s.taken h).thr t) with wait := .inval b (setBit mods h.src.val false) }) := by
  have hwait' : (((s.taken h).dropOut o).thr t).wait = .inval b mods := hwait
  rw [exec_tlba, execTlba, State.rxMsg_eq horder rfl rfl rfl, State.onMsg_tlba rfl, State.onTlba]
  simp only [State.received, hdrMsg]
  rw [State.find?_of_txOf htx]
  dsimp only
  rw [hkind]
  dsimp only
  rw [State.bcastAnswered, State.modThr, hwait']
  rfl

end

/-! TLBB. -/

/-- The mask of the numbers below `n` that a test selects. -/
def maskOf (p : Nat → Bool) (n : Nat) : Nat := ((List.range n).filter p).foldl (fun a c => a + 2 ^ c) 0

theorem maskOf_succ (p : Nat → Bool) (n : Nat) : maskOf p (n + 1) = maskOf p n + if p n then 2 ^ n else 0 := by
  rw [maskOf, List.range_succ, List.filter_append, List.foldl_append, ← maskOf]
  cases hp : p n <;> simp [hp]

theorem maskOf_lt (p : Nat → Bool) (n : Nat) : maskOf p n < 2 ^ n := by
  induction n with
  | zero => exact Nat.one_pos
  | succ n ih =>
    rw [maskOf_succ, Nat.pow_succ]
    split <;> omega

theorem bitOf_maskOf (p : Nat → Bool) (n c : Nat) : bitOf (maskOf p n) c = (decide (c < n) && p c) := by
  rw [bitOf_eq_testBit]
  induction n with
  | zero => exact Nat.zero_testBit c
  | succ n ih =>
    rw [maskOf_succ]
    rcases lt_trichotomy c n with hlt | rfl | hgt
    · rw [decide_eq_true (Nat.lt_succ_of_lt hlt), ← decide_eq_true hlt, ← ih]
      split
      · rw [Nat.add_comm, Nat.testBit_two_pow_add_gt hlt]
      · rfl
    · have hout : (maskOf p c).testBit c = false := Nat.testBit_lt_two_pow (maskOf_lt p c)
      cases hp : p c
      · simp [hout]
      · rw [if_pos rfl, Nat.add_comm, Nat.testBit_two_pow_add_eq, hout]
        simp
    · have hlt : maskOf p n + (if p n then 2 ^ n else 0) < 2 ^ c := by
        rw [← maskOf_succ]
        exact lt_of_lt_of_le (maskOf_lt p (n + 1)) (Nat.pow_le_pow_right (by decide) hgt)
      rw [Nat.testBit_lt_two_pow hlt, decide_eq_false (by omega), Bool.false_and]

/-- The cores of this module that another module's broadcast to a group waits for (R177, R241). -/
def State.groupCore (s : State) (grp c : Nat) : Bool :=
  s.coreActive c && !(s.core c).held && !s.leaving c && grp != 0 && s.actF (HWD_XLAT c) HWD_XLAT_BGRP == grp

/-- A broadcast as it waits for its cores. -/
def waitingBcast (h : Hdr) (fn : BitVec 4) (ra rb : Word) (cores : Nat) : InBcast :=
  ⟨h.src.val, h.tid.toNat, h.part.val, ⟨fn.toNat, ra, rb, cores, []⟩⟩

section
variable {s : State} {h : Hdr} (horder : s.inOrder h = true) (hinb : (s.taken h).inb = []) (grp : BitVec 8) (fn : BitVec 4) (ra rb : Word)
include horder hinb

theorem exec_tlbb_inOrder : exec (.tlbb h grp fn ra rb) s = .next (State.settleBcasts
    { s.taken h with inb := [waitingBcast h fn ra rb (maskOf ((s.taken h).groupCore grp.toNat) 72)] }) := by
  have hgrp := grp.isLt
  have hfn := fn.isLt
  have hlow : (grp.toNat + 256 * fn.toNat) % 256 = grp.toNat := by omega
  have hhigh : bitsOf (grp.toNat + 256 * fn.toNat) 11 8 = fn.toNat := by unfold bitsOf; omega
  rw [exec_tlbb, execTlbb, State.rxMsg_eq horder rfl rfl rfl, State.onMsg_tlbb rfl, State.onTlbb]
  simp only [State.received, hdrMsg, hlow, hhigh, hinb]
  rfl

theorem exec_tlbb_none (hnone : maskOf ((s.taken h).groupCore grp.toNat) 72 = 0) : exec (.tlbb h grp fn ra rb) s =
    .next ((s.taken h).send { (s.taken h).mkMsg OPC_TLBA h.src.val 0 with rqm := h.src.val, tid := h.tid.toNat, part := h.part.val }) := by
  have hsame : ({ s.taken h with inb := [] } : State) = s.taken h := by rw [← hinb]
  rw [exec_tlbb_inOrder horder hinb, hnone]
  exact congrArg (fun g : State => Host.Outcome.next (g.send { g.mkMsg OPC_TLBA h.src.val 0 with
    rqm := h.src.val, tid := h.tid.toNat, part := h.part.val })) hsame

theorem exec_tlbb_some (hsome : maskOf ((s.taken h).groupCore grp.toNat) 72 ≠ 0) : exec (.tlbb h grp fn ra rb) s =
    .next { s.taken h with inb := [waitingBcast h fn ra rb (maskOf ((s.taken h).groupCore grp.toNat) 72)] } := by
  let i := waitingBcast h fn ra rb (maskOf ((s.taken h).groupCore grp.toNat) 72)
  let u : State := { s.taken h with inb := [i] }
  have hwaits : u.bcastDone i.b = false := by
    rw [State.bcastDone, show (i.b.cores == 0) = false from beq_false_of_ne hsome, Bool.false_and]
  have hdone : (u.inb.filter fun i => u.bcastDone i.b) = [] := by
    show List.filter _ [i] = []
    rw [List.filter_cons_of_neg (by rw [hwaits]; decide), List.filter_nil]
  have hleft : (u.inb.filter fun i => !u.bcastDone i.b) = [i] := by
    show List.filter _ [i] = [i]
    rw [List.filter_cons_of_pos (by rw [hwaits]; decide), List.filter_nil]
  rw [exec_tlbb_inOrder horder hinb]
  refine congrArg Host.Outcome.next ?_
  show u.settleBcasts = u
  rw [State.settleBcasts, hdone, hleft]
  rfl

end

/-! A flit that holds no message. -/

/-- It is recorded, and its port retrains quickly (R235, R257). -/
theorem State.badFlit_spec {s : State} {p : Nat} (hp : p < 7) (hactive : s.gpState p = 2) : let u := s.badFlit p
    u.gpState p = 3 ∧ u.counted s (GRV_ERR p) GRV_ERR_QRETRAIN ∧ u.gports = s.gports := by
  intro u
  let w := s.log { block := 0x08, inst := p, cls := 2, typ := 0x0C, detail := [BitVec.ofNat 8 (s.gpState p)] }
  have hlog : w.grove.1 = s.grove.1 := congrArg Prod.fst (s.log_grove _)
  have hactive' : w.gpState p = 2 := (State.getF_of_grove hlog (grvStat_ofGrove hp) _).trans hactive
  obtain ⟨hstate, -, hcount, hports⟩ := State.quickRetrain_spec hp hactive'
  rw [State.counted, State.getF_of_grove hlog (grvErr_ofGrove hp)] at hcount
  exact ⟨hstate, hcount, hports.trans (State.gports_of_offRecords (s.log_offRecords rfl))⟩

end Sys2Proof.Machine
end

section
/-! PROOF. O35: remote register accesses, their answers, and broadcasts (R188, R189, R239, R241, R283). -/

open Sys2Proof

namespace Sys2Proof.Machine

/-- Settles O35, message by message: accesses by their checks in order, answers by the transaction they end, broadcasts by the cores they wait for. -/
theorem remoteAccessResults : Obligations.RemoteAccessResults := by
  refine ⟨?_, ?_, ?_, ?_⟩
  · intro h lo z v s horder g pa w aux ans
    rw [exec_mrd_inOrder horder, exec_mwr_inOrder horder]
    refine ⟨fun hself hbar => ?_, fun hself hok hfail => ?_, fun b i o hself hok hgood hdst => ?_⟩
    · rw [State.onMrd_barred hself hbar, State.onMwr_barred hself hbar]
      exact ⟨rfl, rfl⟩
    · rw [State.onMrd_failed hself hok hfail, State.onMwr_failed hself hok hfail]
      exact ⟨rfl, rfl⟩
    · intro n r q
      rw [State.onMrd_reg hself hok hgood hdst, State.onMwr_reg hself hok hgood hdst]
      exact ⟨rfl, rfl⟩
  · intro h v o t s horder g k htx
    exact ⟨fun hkind a d b hsplit hval htid ha => exec_mrsp_load horder htx v hkind hsplit hval htid ha, exec_mrsp_store horder htx v,
      fun hkind b mods => exec_tlba_awaited horder htx hkind⟩
  · intro h grp fn ra rb s horder hinb g cs
    have hbit (c : Nat) (hc : c < 72) : bitOf (maskOf (g.groupCore grp.toNat) 72) c = decide (c ∈ cs) := by
      rw [bitOf_maskOf, Bool.eq_iff_iff]
      simp [cs, hc, State.groupCore]
    refine ⟨fun hnone => exec_tlbb_none horder hinb grp fn ra rb ?_, fun hsome => ⟨_, hbit, exec_tlbb_some horder hinb grp fn ra rb ?_⟩⟩
    · exact congrArg (List.foldl (fun a c => a + 2 ^ c) 0) hnone
    · obtain ⟨c, hc⟩ := List.exists_mem_of_ne_nil cs hsome
      have hlt : c < 72 := List.mem_range.mp (List.mem_filter.mp hc).1
      intro hzero
      have hset := hbit c hlt
      rw [hzero, decide_eq_true hc, bitOf, Nat.zero_div] at hset
      exact absurd hset (by decide)
  · intro p s hactive
    refine ⟨s.badFlit p.val, ?_, State.badFlit_spec p.isLt hactive⟩
    rw [exec_unknownOpcode, execUnknownOpcode, if_pos hactive]

end Sys2Proof.Machine
end

section
/-! SUPPORT. Lines that leave the caches: what carries messages, memory and links stand (R210, R251). -/

open Sys2Proof

namespace Sys2Proof.Machine

/-! Caches and threads apart, nothing changes. -/

/-- The state without its lines, cores and threads. -/
def State.offCaches (s : State) : State := { s with lines := [], cores := [], threads := [] }

theorem State.mem_of_offCaches {s u : State} (h : u.offCaches = s.offCaches) : u.mem = s.mem := (congrArg State.mem h :)
theorem State.roots_of_offCaches {s u : State} (h : u.offCaches = s.offCaches) : u.roots = s.roots := (congrArg State.roots h :)

@[simp] theorem State.offCaches_with (s : State) (lines : Tab Line) (cores : Tab Core) (threads : Tab Thread) :
    ({ s with lines := lines, cores := cores, threads := threads } : State).offCaches = s.offCaches := rfl
@[simp] theorem State.offCaches_modThr (s : State) (t : Nat) (f : Thread → Thread) : (s.modThr t f).offCaches = s.offCaches := by
  rw [State.modThr, State.setThr, State.offCaches_with]
@[simp] theorem State.offCaches_modCore (s : State) (c : Nat) (f : Core → Core) : (s.modCore c f).offCaches = s.offCaches := by
  rw [State.modCore, State.setCore, State.offCaches_with]
@[simp] theorem State.offCaches_setLine (s : State) (l : Nat) (x : Line) : (s.setLine l x).offCaches = s.offCaches := by
  rw [State.setLine, State.offCaches_with]
@[simp] theorem State.offCaches_modLine (s : State) (l : Nat) (f : Line → Line) : (s.modLine l f).offCaches = s.offCaches := by
  rw [State.modLine, State.offCaches_setLine]
@[simp] theorem State.offCaches_clearResv (s : State) (l : Nat) (f : Nat → Bool) : (s.clearResv l f).offCaches = s.offCaches :=
  State.foldl_keeps State.offCaches _ (fun _ _ => State.offCaches_modThr ..) _ s
@[simp] theorem State.offCaches_backInval (s : State) (l : Nat) : (s.backInval l).offCaches = s.offCaches :=
  State.foldl_keeps State.offCaches _ (fun s c => by simp [State.coreDrop, State.pmcCore]) _ s
@[simp] theorem State.offCaches_dropLine (s : State) (l : Nat) : (s.dropLine l).offCaches = s.offCaches := by
  rw [State.dropLine, State.offCaches_setLine, State.offCaches_backInval]
@[simp] theorem State.offCaches_toSt (s : State) (l : Nat) (st : LineSt) : (s.toSt l st).offCaches = s.offCaches := s.offCaches_modLine ..

/-! What carries messages. -/

/-- The ports and peers with the registers and active values that route to them (R249, R251). -/
def State.carrier (s : State) : (Tab GPort × Tab Peer) × (Tab Word × Tab Word) := ((s.gports, s.peers), (s.regs, s.active))

theorem State.carrier_of_offCaches {s u : State} (h : u.offCaches = s.offCaches) : u.carrier = s.carrier := (congrArg State.carrier h :)

section
variable {s u : State} (h : u.carrier = s.carrier)
include h

theorem State.gports_of_carrier : u.gports = s.gports := congrArg (fun c => c.1.1) h
theorem State.peers_of_carrier : u.peers = s.peers := congrArg (fun c => c.1.2) h
theorem State.regs_of_carrier : u.regs = s.regs := congrArg (fun c => c.2.1) h
theorem State.active_of_carrier : u.active = s.active := congrArg (fun c => c.2.2) h

theorem State.getF_of_carrier (r : Reg) (f : Fld) : u.getF r f = s.getF r f := by
  rw [State.getF, State.reg, State.regs_of_carrier h, ← State.reg, ← State.getF]
theorem State.self_of_carrier : u.self = s.self := State.getF_of_carrier h ..
theorem State.gp_of_carrier (p : Nat) : u.gp p = s.gp p := by rw [State.gp, State.gports_of_carrier h, State.gp]
theorem State.peer_of_carrier (m : Nat) : u.peer m = s.peer m := by rw [State.peer, State.peers_of_carrier h, State.peer]
theorem State.gpUp_of_carrier : u.gpUp = s.gpUp := funext fun p => by simp only [State.gpUp, State.gpState, State.getF_of_carrier h]
theorem State.bundle_of_carrier (m : Nat) : u.bundle m = s.bundle m := by
  simp only [State.bundle, State.gpEn, State.gpPeer, State.actF_of_active (State.active_of_carrier h)]
theorem State.direct_of_carrier (m : Nat) : u.direct m = s.direct m := by
  rw [State.direct, State.bundle_of_carrier h, State.gpUp_of_carrier h, State.direct]
theorem State.bucketPort_of_carrier (m b : Nat) : u.bucketPort m b = s.bucketPort m b := by
  simp only [State.bucketPort, State.bundle_of_carrier h, State.gpUp_of_carrier h, State.gp_of_carrier h]
theorem State.handshake_of_carrier (m : Nat) : u.handshake m = s.handshake m := by
  simp only [State.handshake, State.bundle_of_carrier h, State.gp_of_carrier h]
theorem State.relay_of_carrier (m : Nat) : u.relay m = s.relay m := by
  simp only [State.relay, State.member, State.self_of_carrier h, State.direct_of_carrier h, State.peer_of_carrier h,
    State.actF_of_active (State.active_of_carrier h)]

theorem State.carrier_modGp (p : Nat) (f : GPort → GPort) : (u.modGp p f).carrier = (s.modGp p f).carrier := by
  simp only [State.carrier, State.modGp, State.setGp, State.gp_of_carrier h, State.gports_of_carrier h, State.peers_of_carrier h,
    State.regs_of_carrier h, State.active_of_carrier h]
theorem State.carrier_setPeer (m : Nat) (x : Peer) : (u.setPeer m x).carrier = (s.setPeer m x).carrier := by
  simp only [State.carrier, State.setPeer, State.gports_of_carrier h, State.peers_of_carrier h, State.regs_of_carrier h,
    State.active_of_carrier h]
theorem State.carrier_modPeer (m : Nat) (f : Peer → Peer) : (u.modPeer m f).carrier = (s.modPeer m f).carrier := by
  rw [State.modPeer, State.peer_of_carrier h, State.carrier_setPeer h, State.modPeer]

/-- A message goes the same way from states that carry alike (R251). -/
theorem State.carrier_send (m : Msg) : (u.send m).carrier = (s.send m).carrier := by
  unfold State.send
  simp only [State.peer_of_carrier h, State.bucketPort_of_carrier h, State.direct_of_carrier h, State.handshake_of_carrier h,
    State.relay_of_carrier h, State.bundle_of_carrier h, State.gpUp_of_carrier h, State.self_of_carrier h]
  by_cases hsevered : (s.peer m.dst).severed = true
  · rw [if_pos hsevered, if_pos hsevered]
    exact h
  rw [if_neg hsevered, if_neg hsevered]
  cases s.bucketPort m.dst m.bucket with
  | some p => exact State.carrier_modGp h ..
  | none =>
    dsimp only
    split
    · exact State.carrier_modPeer h ..
    · cases s.relay m.dst with
      | none => exact State.carrier_modPeer h ..
      | some v =>
        dsimp only
        cases (s.bundle v).find? s.gpUp with
        | none => exact State.carrier_modPeer h ..
        | some p => exact State.carrier_modGp (State.carrier_setPeer h ..) ..

end

/-! The line and the cores that held it. -/

theorem State.line_backInval_ne (s : State) {l k : Nat} (hk : k ≠ l) : (s.backInval l).line k = s.line k := by
  refine State.foldl_keeps (fun s : State => s.line k) _ (fun s c => ?_) _ s
  have hpmc (s : State) : (s.pmcCore c 0x4C).lines = s.lines := by
    rw [State.pmcCore, State.modThr, State.setThr_lines, State.modThr, State.setThr_lines]
  rw [State.line_of_lines (hpmc _), State.coreDrop, State.line_of_lines (State.clearResv_lines ..), State.modLine, State.line_setLine,
    if_neg hk]
  rfl

theorem State.line_dropLine (s : State) (l k : Nat) : (s.dropLine l).line k = if k = l then Line.none else s.line k := by
  rw [State.dropLine, State.line_setLine]
  split
  · rfl
  · next h => exact s.line_backInval_ne h

/-- No cache of the core holds the line. -/
def Core.lacks (x : Core) (l : Nat) : Prop := ∀ e ∈ x.l1i ++ x.l1d ++ x.l2, e.line ≠ l

theorem Core.drop_lacks (x : Core) (l : Nat) : (x.drop l).lacks l := by
  intro e he
  simp only [Core.drop, List.mem_append, List.mem_filter, bne_iff_ne] at he
  obtain ((⟨-, h⟩ | ⟨-, h⟩) | ⟨-, h⟩) := he <;> exact h

theorem Core.lacks_drop {x : Core} {l : Nat} (h : x.lacks l) (m : Nat) : (x.drop m).lacks l := by
  intro e he
  refine h e ?_
  simp only [Core.drop, List.mem_append, List.mem_filter] at he ⊢
  exact he.imp (.imp And.left And.left) And.left

theorem State.core_coreDrop (s : State) (l d c : Nat) :
    ((s.coreDrop l d).pmcCore d 0x4C).core c = if c = d then (s.core c).drop l else s.core c := by
  have hcores : ((s.coreDrop l d).pmcCore d 0x4C).cores = (s.modCore d fun x => x.drop l).cores := by
    rw [State.pmcCore, State.modThr, State.setThr_cores, State.modThr, State.setThr_cores, State.coreDrop]
    exact State.foldl_keeps State.cores _ (fun _ _ => by rw [State.modThr, State.setThr_cores]) _ _
  rw [State.core, hcores, ← State.core, State.modCore]
  split
  · next h => rw [h, State.core_setCore_self]
  · next h => exact State.core_setCore_ne _ _ h

/-- A core that held the line holds it no longer (R210). -/
theorem State.lacks_backInval (s : State) {l c : Nat} (hc : c < 72) (hpres : bitOf (s.line l).pres c = true) :
    ((s.backInval l).core c).lacks l := by
  have stays (ds : List Nat) (s : State) (h : (s.core c).lacks l) :
      ((ds.foldl (fun s d => (s.coreDrop l d).pmcCore d 0x4C) s).core c).lacks l := by
    induction ds generalizing s with
    | nil => exact h
    | cons d ds ih =>
      refine ih _ ?_
      rw [State.core_coreDrop]
      split
      · exact Core.lacks_drop h l
      · exact h
  have leaves (ds : List Nat) (s : State) (hmem : c ∈ ds) : ((ds.foldl (fun s d => (s.coreDrop l d).pmcCore d 0x4C) s).core c).lacks l := by
    induction ds generalizing s with
    | nil => cases hmem
    | cons d ds ih =>
      rcases List.mem_cons.mp hmem with rfl | h
      · refine stays ds _ ?_
        rw [State.core_coreDrop, if_pos rfl]
        exact Core.drop_lacks (s.core c) l
      · exact ih _ h
  exact leaves _ s (List.mem_filter.mpr ⟨List.mem_range.mpr hc, hpres⟩)

end Sys2Proof.Machine
end

section
/-! SUPPORT. A snoop at a holder: its answers and the line's move, as the row of its line's state has them (R242). -/

open Sys2Proof

namespace Sys2Proof.Machine

@[simp] theorem State.line_send (s : State) (m : Msg) (l : Nat) : (s.send m).line l = s.line l :=
  State.line_of_lines (State.lines_of_offMessages (s.offMessages_send m)) l

theorem State.self_of_offCaches {s u : State} (h : u.offCaches = s.offCaches) : u.self = s.self :=
  State.self_of_carrier (State.carrier_of_offCaches h)

@[simp] theorem State.self_send (s : State) (m : Msg) : (s.send m).self = s.self :=
  State.getF_of_grove (congrArg Prod.fst (s.send_grove m)) grvGroup_ofGrove _

theorem State.core_setLine (s : State) (l : Nat) (x : Line) (c : Nat) : (s.setLine l x).core c = s.core c := by
  rw [State.setLine, State.core, State.core]

/-! The move. -/

/-- The line goes to the state a snoop leaves it in (R242). -/
def State.snoopMove (s : State) (l : Nat) (st : LineSt) : State :=
  if (s.line l).st = st then s
  else if st = .i then s.dropLine l
  else if st = .imd then (s.backInval l).modLine l fun y => { y with st := .imd, pres := 0 }
  else s.toSt l st

@[simp] theorem State.offCaches_snoopMove (s : State) (l : Nat) (st : LineSt) : (s.snoopMove l st).offCaches = s.offCaches := by
  unfold State.snoopMove
  repeat' split
  all_goals simp

/-- What the move leaves of the line: its new state; its data and poison unless it was lost; no copy in a core that held it. -/
theorem State.snoopMove_spec (s : State) (l : Nat) (st : LineSt) :
    let u := s.snoopMove l st
    (u.line l).st = st ∧
    ((s.line l).st = st ∨ (st ≠ .i ∧ st ≠ .imd) → (u.line l).data = (s.line l).data ∧ (u.line l).poison = (s.line l).poison) ∧
    ((s.line l).st ≠ .i → st = .i → ∀ c < 72, bitOf (s.line l).pres c = true → (u.core c).lacks l) := by
  intro u
  by_cases hsame : (s.line l).st = st
  · have hu : u = s := if_pos hsame
    rw [hu]
    exact ⟨hsame, fun _ => ⟨rfl, rfl⟩, fun hne hi => absurd (hsame.trans hi) hne⟩
  by_cases hi : st = .i
  · have hu : u = s.dropLine l := by rw [show u = s.snoopMove l st from rfl, State.snoopMove, if_neg hsame, if_pos hi]
    rw [hu, State.line_dropLine, if_pos rfl]
    refine ⟨hi.symm, fun hkept => ?_, fun _ _ c hc hpres => ?_⟩
    rotate_left
    · rw [State.dropLine, State.core_setLine]
      exact s.lacks_backInval hc hpres
    rcases hkept with h | ⟨h, -⟩
    · exact absurd h hsame
    · exact absurd hi h
  by_cases himd : st = .imd
  · have hu : u = (s.backInval l).modLine l fun y => { y with st := .imd, pres := 0 } := by
      rw [show u = s.snoopMove l st from rfl, State.snoopMove, if_neg hsame, if_neg hi, if_pos himd]
    rw [hu, State.modLine, State.line_setLine, if_pos rfl]
    refine ⟨himd.symm, fun hkept => ?_, fun _ h => absurd h hi⟩
    rcases hkept with h | ⟨-, h⟩
    · exact absurd h hsame
    · exact absurd himd h
  · have hu : u = s.toSt l st := by
      rw [show u = s.snoopMove l st from rfl, State.snoopMove, if_neg hsame, if_neg hi, if_neg himd]
    rw [hu, State.toSt, State.modLine, State.line_setLine, if_pos rfl]
    exact ⟨rfl, fun _ => ⟨rfl, rfl⟩, fun _ h => absurd h hi⟩

/-! The messages. -/

/-- An answer to a snoop as the statement spells it. -/
theorem State.answer_snoop {s u g : State} {h : Hdr} (hself : u.self = s.self) (opc k st : Nat) (d : Option (LineData × Bool)) :
    u.answer (g.received (hdrMsg h opc)) k st d = u.send (s.reply1 h k st h.src.val h.tid.toNat d) := by
  simp only [State.answer, State.received, hdrMsg, State.mkMsg, State.reply1, hself]

theorem State.supply_snoop (s g : State) (h : Hdr) (opc st : Nat) (x : Line) : s.supply (g.received (hdrMsg h opc)) st x =
    s.send (s.reply1 h OPC_DATA st h.rqm.val h.rtid.toNat (some (x.data, x.poison))) := rfl

/-- The state after a row of R242: the requester is supplied first, the line moves, and the home is answered last. -/
def State.snoopRow (s : State) (h : Hdr) (r : List (Bool × Nat × Nat × Bool) × LineSt) : State :=
  match r.1 with
  | [a] => (s.snoopMove h.la.toNat r.2).send (s.tableMsg h a)
  | [a, b] => ((s.send (s.tableMsg h a)).snoopMove h.la.toNat r.2).send (s.tableMsg h b)
  | _ => s

theorem snoopTable_length (opc : Nat) (st : LineSt) : (∃ a, (snoopTable opc st).1 = [a]) ∨ ∃ a b, (snoopTable opc st).1 = [a, b] := by
  unfold snoopTable
  dsimp only
  repeat' split
  all_goals simp

/-- The opcodes of the snoops (R235). -/
def snoopOpcs : List Nat := [OPC_SNPS, OPC_SNPO, OPC_SNPI, OPC_SNPW, OPC_BINV]

/-- A snoop of a line acts as the row of the line's state (R242). -/
theorem State.answerSnoop_eq (s g : State) (h : Hdr) {opc : Nat} (hopc : opc ∈ snoopOpcs) :
    s.answerSnoop (g.received (hdrMsg h opc)) = s.snoopRow h (snoopTable opc (s.line h.la.toNat).st) := by
  let m := g.received (hdrMsg h opc)
  have hla : m.la = h.la.toNat := rfl
  have hop : m.opc = opc := rfl
  have hans {u : State} (hu : u.self = s.self) (k st : Nat) (d : Option (LineData × Bool)) :
      u.answer m k st d = u.send (s.reply1 h k st h.src.val h.tid.toNat d) := State.answer_snoop hu ..
  have hsup (st : Nat) (x : Line) : s.supply m st x = _ := State.supply_snoop s g h opc st x
  have hdrop (u : State) (l : Nat) : (u.dropLine l).self = u.self := State.self_of_offCaches (u.offCaches_dropLine l)
  have hto (u : State) (l : Nat) (st : LineSt) : (u.toSt l st).self = u.self := State.self_of_offCaches (u.offCaches_toSt l st)
  have hinval (l : Nat) (f : Line → Line) : ((s.backInval l).modLine l f).self = s.self := State.self_of_offCaches (by simp)
  simp only [snoopOpcs, List.mem_cons, List.not_mem_nil, or_false] at hopc
  show s.answerSnoop m = _
  cases hst : (s.line h.la.toNat).st
  case i | isd | imd =>
    simp [State.answerSnoop, hla, hst, snoopTable, State.snoopRow, State.snoopMove, State.tableMsg, hans]
  case mia | sma | m | e | s =>
    rcases hopc with rfl | rfl | rfl | rfl | rfl
    all_goals simp [State.answerSnoop, hla, hop, hst, snoopTable, State.snoopRow, State.snoopMove, State.tableMsg, hans, hsup, hdrop, hto,
      hinval, OPC_SNPS, OPC_SNPO, OPC_SNPI, OPC_SNPW, OPC_BINV]

/-- What a move and a message after it leave. -/
theorem State.send_snoopMove_spec (s : State) (l : Nat) (st : LineSt) (m : Msg) :
    let u := (s.snoopMove l st).send m
    u.carrier = (s.send m).carrier ∧ u.mem = s.mem ∧ u.roots = s.roots ∧ u.line l = (s.snoopMove l st).line l ∧
    ∀ c, u.core c = (s.snoopMove l st).core c := by
  intro u
  have hmove := s.offCaches_snoopMove l st
  have hsend : u.offMessages = (s.snoopMove l st).offMessages := State.offMessages_send ..
  refine ⟨State.carrier_send (State.carrier_of_offCaches hmove) m, (State.mem_of_offMessages hsend).trans (State.mem_of_offCaches hmove),
    (State.roots_of_offMessages hsend).trans (State.roots_of_offCaches hmove), State.line_send .., fun c => ?_⟩
  rw [State.core, State.cores_of_offMessages hsend, State.core]

/-- What a row of R242 leaves: its messages sent in order, memory and links as they were, the line moved. -/
theorem State.snoopRow_spec (s : State) (h : Hdr) {r : List (Bool × Nat × Nat × Bool) × LineSt}
    (hr : (∃ a, r.1 = [a]) ∨ ∃ a b, r.1 = [a, b]) :
    let l := h.la.toNat
    let u := s.snoopRow h r
    let v := (r.1.map (s.tableMsg h)).foldl State.send s
    u.carrier = v.carrier ∧ u.mem = s.mem ∧ u.roots = s.roots ∧ (u.line l).st = r.2 ∧
    ((s.line l).st = r.2 ∨ (r.2 ≠ .i ∧ r.2 ≠ .imd) → (u.line l).data = (s.line l).data ∧ (u.line l).poison = (s.line l).poison) ∧
    ((s.line l).st ≠ .i → r.2 = .i → ∀ c < 72, bitOf (s.line l).pres c = true → (u.core c).lacks l) := by
  intro l u v
  rcases hr with ⟨a, ha⟩ | ⟨a, b, hab⟩
  · have hu : u = (s.snoopMove l r.2).send (s.tableMsg h a) := by simp only [u, State.snoopRow, ha, l]
    have hv : v = s.send (s.tableMsg h a) := by simp only [v, ha, List.map_cons, List.map_nil, List.foldl_cons, List.foldl_nil]
    obtain ⟨hcarrier, hmem, hroots, hline, hcore⟩ := s.send_snoopMove_spec l r.2 (s.tableMsg h a)
    have hmoved := s.snoopMove_spec l r.2
    simp only [hu, hv, hline, hcore]
    exact ⟨hcarrier, hmem, hroots, hmoved⟩
  · let w := s.send (s.tableMsg h a)
    have hu : u = (w.snoopMove l r.2).send (s.tableMsg h b) := by simp only [u, State.snoopRow, hab, l, w]
    have hv : v = w.send (s.tableMsg h b) := by simp only [v, hab, List.map_cons, List.map_nil, List.foldl_cons, List.foldl_nil, w]
    have hw : w.offMessages = s.offMessages := State.offMessages_send ..
    obtain ⟨hcarrier, hmem, hroots, hline, hcore⟩ := w.send_snoopMove_spec l r.2 (s.tableMsg h b)
    have hmoved := w.snoopMove_spec l r.2
    rw [show w.line l = s.line l from s.line_send ..] at hmoved
    simp only [hu, hv, hline, hcore]
    exact ⟨hcarrier, hmem.trans (State.mem_of_offMessages hw), hroots.trans (State.roots_of_offMessages hw), hmoved⟩

end Sys2Proof.Machine
end

section
/-! SUPPORT. A set purge at a member (R248). -/

open Sys2Proof

namespace Sys2Proof.Machine

/-- A line of the purged set leaves, by PWB where it is modified (R248). -/
def State.purgeLine (s : State) (l : Nat) : State :=
  if (s.line l).st = LineSt.m then (s.dropLine l).sendReq OPC_PWB l 0 none (some ((s.line l).data, (s.line l).poison)) else s.dropLine l

theorem State.line_sendReq (s : State) (opc l part : Nat) (thr : Option Nat) (d : Option (LineData × Bool)) (k : Nat) :
    (s.sendReq opc l part thr d).line k = s.line k := State.line_send ..

theorem State.line_purgeLine (s : State) (l k : Nat) : (s.purgeLine l).line k = if k = l then Line.none else s.line k := by
  rw [← s.line_dropLine l k, State.purgeLine]
  split
  · exact State.line_sendReq ..
  · rfl

theorem State.line_foldl_purgeLine (ls : List Nat) (s : State) (k : Nat) :
    (ls.foldl State.purgeLine s).line k = if k ∈ ls then Line.none else s.line k := by
  induction ls generalizing s with
  | nil => rfl
  | cons l ls ih =>
    rw [List.foldl_cons, ih, State.line_purgeLine]
    by_cases h : k = l <;> simp [h]

/-- The held lines of a set whose home is a module. -/
def State.setLines (s : State) (home set : Nat) : List Nat :=
  (s.lines.filter fun e => lineHome e.1 == home && canSet (e.1 % 2 ^ 37) == set && e.2.held).map (·.1)

theorem State.mem_setLines {s : State} {home set l : Nat} (hhome : lineHome l = home) (hset : canSet (l % 2 ^ 37) = set)
    (hheld : (s.line l).held = true) : l ∈ s.setLines home set := by
  have hne : s.line l ≠ lineDefault l := fun e => absurd (hheld.symm.trans (congrArg Line.held e)) (by rw [lineDefault]; decide)
  have hmem : (l, s.line l) ∈ s.lines := Tab.mem_of_get_ne hne
  exact List.mem_map.mpr ⟨_, List.mem_filter.mpr ⟨hmem, by rw [hhome, hset, hheld, beq_self_eq_true, beq_self_eq_true]; rfl⟩, rfl⟩

theorem State.setLines_eq_nil {s : State} {home set : Nat}
    (h : ∀ e ∈ s.lines, lineHome e.1 = home → canSet (e.1 % 2 ^ 37) = set → e.2.held = false) : s.setLines home set = [] := by
  refine List.map_eq_nil_iff.mpr (List.filter_eq_nil_iff.mpr fun e he hsel => ?_)
  simp only [Bool.and_eq_true, beq_iff_eq] at hsel
  obtain ⟨⟨hhome, hset⟩, hheld⟩ := hsel
  exact absurd (hheld.symm.trans (h e he hhome hset)) (by decide)

/-- PACK to the home of a purge (R248). -/
def State.packed (s : State) (h : Hdr) : State :=
  s.send { s.mkMsg OPC_PACK h.src.val (h.la.toNat % 2 ^ 18) with rqm := h.rqm.val, tid := h.tid.toNat }

theorem exec_spurge_inOrder {s : State} {h : Hdr} (horder : s.inOrder h = true) :
    exec (.spurge h) s =
      .next ((((s.taken h).setLines h.src.val (h.la.toNat % 2 ^ 18)).foldl State.purgeLine (s.taken h)).packed h) := by
  rw [exec_spurge, execSpurge, State.rxMsg_eq horder rfl rfl rfl, State.onMsg_spurge rfl]
  rfl

/-- No line of the purged set is held any more. -/
theorem State.held_purged (s : State) {home set l : Nat} (hhome : lineHome l = home) (hset : canSet (l % 2 ^ 37) = set) :
    (((s.setLines home set).foldl State.purgeLine s).line l).held = false := by
  rw [State.line_foldl_purgeLine]
  split
  · rfl
  · next hout => exact Bool.eq_false_iff.mpr fun hheld => hout (State.mem_setLines hhome hset hheld)

end Sys2Proof.Machine
end

section
/-! PROOF. O32: snoops and set purges at a holder (R203, R242, R248). -/

open Sys2Proof

namespace Sys2Proof.Machine

theorem snoopOpcs_sent : ∀ opc ∈ snoopOpcs, opcodes.contains opc = true := by decide

theorem stBad_of_snoop {opc : Nat} (hopc : opc ∈ snoopOpcs) (st : Nat) : stBad opc st = false := by
  simp only [snoopOpcs, List.mem_cons, List.not_mem_nil, or_false] at hopc
  rcases hopc with rfl | rfl | rfl | rfl | rfl <;> rfl

theorem State.onMsg_snoop {s : State} {m : Msg} (hopc : m.opc ∈ snoopOpcs) : s.onMsg m = s.onSnoop m := by
  simp only [snoopOpcs, List.mem_cons, List.not_mem_nil, or_false] at hopc
  rcases hopc with h | h | h | h | h <;> (rw [State.onMsg, h]; rfl)

/-- A snoop in order about a line of another module is kept or answered (R203, R237). -/
theorem State.rxMsg_snoop {h : Hdr} {opc : Nat} {s : State} (hopc : opc ∈ snoopOpcs) (horder : s.inOrder h = true)
    (hfar : lineHome h.la.toNat ≠ s.self) : s.rxMsg h (hdrMsg h opc) =
    let g := s.taken h
    let m := g.received (hdrMsg h opc)
    if g.lineDeferred h.la.toNat then { g with snpQ := g.snpQ ++ [m] } else g.answerSnoop m := by
  rw [State.rxMsg_eq horder rfl (snoopOpcs_sent opc hopc) (stBad_of_snoop hopc _), State.onMsg_snoop hopc]
  exact if_neg hfar

theorem groveSnoop_spec {i : Instr} {h : Hdr} {opc : Nat} (hi : groveSnoop i = some (h, opc)) :
    opc ∈ snoopOpcs ∧ ∀ s, exec i s = .next (s.rxMsg h (hdrMsg h opc)) := by
  cases i
  all_goals simp only [groveSnoop, reduceCtorEq, Option.some.injEq, Prod.mk.injEq] at hi
  all_goals obtain ⟨rfl, rfl⟩ := hi
  case snps => exact ⟨by decide, exec_snps _⟩
  case snpo => exact ⟨by decide, exec_snpo _⟩
  case snpi => exact ⟨by decide, exec_snpi _⟩
  case snpw => exact ⟨by decide, exec_snpw _⟩
  case binv => exact ⟨by decide, exec_binv _⟩

/-- Settles O32: snoops by `answerSnoop_eq` and `snoopRow_spec`, the purge line by line. -/
theorem groveSnoopResults : Obligations.GroveSnoopResults := by
  refine ⟨?_, ?_⟩
  · intro i h opc s hi horder hfar g l
    obtain ⟨hopc, hexec⟩ := groveSnoop_spec hi
    have hx := (hexec s).trans (congrArg Host.Outcome.next (State.rxMsg_snoop hopc horder hfar))
    refine ⟨fun hdefer => ⟨g.received (hdrMsg h opc), rfl, rfl, rfl, rfl, hx.trans (congrArg Host.Outcome.next (if_pos hdefer))⟩,
      fun hfree => ?_⟩
    have hnot : ¬ g.lineDeferred l = true := by rw [hfree]; decide
    have hrow : exec i s = .next (g.snoopRow h (snoopTable opc (g.line l).st)) :=
      hx.trans (congrArg Host.Outcome.next ((if_neg hnot).trans (g.answerSnoop_eq g h hopc)))
    obtain ⟨hcarrier, hmem, hroots, hline⟩ := g.snoopRow_spec h (snoopTable_length opc (g.line l).st)
    exact ⟨_, hrow, State.gports_of_carrier hcarrier, State.peers_of_carrier hcarrier, hmem, hroots, hline⟩
  · intro h s horder g set
    have hx := exec_spurge_inOrder horder
    refine ⟨⟨_, hx, fun l hhome hset => ?_, _, rfl⟩, fun hnone => ?_⟩
    · rw [State.packed, State.line_send]
      exact g.held_purged hhome hset
    · rw [hx, State.setLines_eq_nil hnone]
      rfl

end Sys2Proof.Machine
end
